-- ==== Sys2Proof/Word.lean ====
section
/-! DEFINITION. The word types: a register holds at most 64 bits, memory is bytes. -/

namespace Sys2Proof

/-- A byte of memory. -/
abbrev Byte := BitVec 8

/-- A register's value: 32-bit registers keep their upper 32 bits zero. -/
abbrev Word := BitVec 64

end Sys2Proof
end

