-- ==== Sys2Proof/Config.lean ====
section
/-! DEFINITION. What the spec leaves open: opaque constants, of which nothing can be proved but that they are values.
Each is named in the assumption log (notes/assumptions/1.md). -/

namespace Sys2Proof.Config

/-- The n-th free value of the run, 64 bits (true random draws, undefined results). -/
opaque freeValue : Nat → BitVec 64

/-- The n-th free byte of the run. -/
opaque freeByte : Nat → BitVec 8

/-- R68: V_cal in millivolts that the critical-path monitors measure for a CLK_CORE divider at boot. -/
opaque vcalMv : Nat → Nat

/-- R18 checks 9 and 10: the verdict of ML-DSA-65 (FIPS 204) and of ECDSA P-384 (FIPS 186-5), whose arithmetic those standards give: public
key, message, signature. -/
opaque mldsaVerify : List (BitVec 8) → List (BitVec 8) → List (BitVec 8) → Bool
opaque ecdsaVerify : List (BitVec 8) → List (BitVec 8) → List (BitVec 8) → Bool

/-- R183: f_slot of a binary32 operand for which the spec states no result: a slot that is not populated, or a range-reduced slot outside
its reduction. Equal operands give equal bits (R318). -/
opaque tableOpen : Nat → Nat → BitVec 32

/-- Table SYS-8: the IPv6 link-local address derived from a unique device ID; the derivation is not given. -/
opaque linkLocal : Nat → Nat

/-- R146: a byte of the hart information block, whose layout the manual does not give: what the block names, and the byte's number. -/
opaque hartInfo : List (List Nat) → Nat → BitVec 8

/-- R195: a byte of a state slot's 32-byte header, whose layout the manual does not give: what it names, and the byte's number. -/
opaque slotHeader : List Nat → Nat → BitVec 8

/-- R148: a byte of an overflow-ring record's header, whose layout the manual does not give: what it names, and the byte's number. -/
opaque ringHeader : List Nat → Nat → BitVec 8

/-- R453: a byte of a DRAM block stored under one key and read under another: reader's key, writer's key, address, block. -/
opaque garbled : Nat → Nat → Nat → List (BitVec 8) → BitVec 8

/-- R444: the place of a checker among the 408; Table SAFE-3 does not number them. -/
opaque checkerKey : Nat → Nat

/-- R444: the function that a checker of an ECC decoder or a CRC unit belongs to. -/
opaque checkerFn : Nat → Nat

/-- R340: bytes of a parameter block, whose layout the manual does not give. -/
opaque paramBytes : Nat

/-- R339: the parameters of a parameter block, whose layout the manual does not give: black level offsets, gains and grids by colour (R, Gr,
Gb, B), the defect map and its threshold, the edge threshold, the colour matrix (signed 4.12) with its offsets, the tone curves and the
output matrix selection. -/
structure IspParams where
  black : List Nat := []
  map : List (Nat × Nat) := []
  threshold : Nat := 0
  grids : List (List Nat) := []
  gains : List Nat := []
  edge : Nat := 0
  matrix : List Int := []
  offsets : List Int := []
  curves : List (List Nat) := []
  select : Nat := 0
  deriving DecidableEq, Repr, Inhabited

/-- R339, R340: the parameters that a block's bytes hold. -/
opaque ispParams : List (BitVec 8) → IspParams

/-- R339: whether a stage rounds an inexact quotient up: stage, divisor, dividend. -/
opaque ispRoundsUp : Nat → Nat → Int → Bool

/-- R339, stage 2: the median of four same-colour neighbours whose middle two are given. -/
opaque ispMedian : Nat → Nat → Nat

/-- R339, stages 2 and 5: what a place outside the frame reads as: the stage, the lines received, column and row. -/
opaque ispBorder : Nat → List (List (BitVec 8)) → Int → Int → Nat

/-- R339, stage 3: where a column or row lies on its axis of the 33 × 25 grid: points of the axis, its size, the place; in 4,096ths of a
cell. -/
opaque ispGridPlace : Nat → Nat → Nat → Nat

/-- R339, stage 5: the edge-directed demosaic: the edge threshold, the place in the quad, the 25 samples in raster order, the colour. -/
opaque ispDemosaic : Nat → Fin 4 → List Nat → Nat → Nat

/-- R339, stage 8: what a matrix selection stands for: BT.709 or BT.601, full or limited range. -/
opaque ispMatrix : Nat → Bool × Bool

/-- R339, stage 8: the 12-bit value of full scale, 4,095 or 4,096. -/
opaque ispFullScale : Bool

/-- Table CAM-6: the colour (0 R, 1 Gr, 2 Gb, 3 B) at a place (0 to 3) of a 2 × 2 quad, by parameter block. -/
opaque bayerColour : List (BitVec 8) → Fin 4 → Fin 4

/-- Table CAM-6: a context's saturation level, by parameter block. -/
opaque saturation : List (BitVec 8) → Nat

/-- R336: the exposure and gain of a sensor's generation before any commit. -/
opaque sensorDefault : Nat → Nat × Nat

/-- R350: a decoded sample: codec, decoder state, access unit, plane, row and column. -/
opaque decodedSample : Nat → Nat → List (BitVec 8) → Nat → Nat → Nat → Nat

/-- The decoder's state after an access unit. -/
opaque decodeNext : Nat → Nat → List (BitVec 8) → Nat

/-- R354: the bytes that a picture encodes to: codec, profile and rate control, encoder state, source bytes. -/
opaque encoded : Nat → Nat → Nat → Nat → List (BitVec 8) → List (BitVec 8)

/-- The encoder's state after a picture. -/
opaque encodeNext : Nat → Nat → Nat → Nat → List (BitVec 8) → Nat

/-- R355: a sample of a JPEG image: its bytes, output format, plane, row and column. -/
opaque jpegSample : List (BitVec 8) → Nat → Nat → Nat → Nat → Nat

/-- R355: the JPEG image of a source at a quality or table selection. -/
opaque jpegBytes : Nat → List (BitVec 8) → List (BitVec 8)

/-- R392, R401: the rate word that the servo sets at a Sync: the domain's offset and rate ratio, and the present word. -/
opaque servoRate : Int → Int → Int → Int

/-- R401: by how many units of CHR_RATE less one, of 42,949 that are 10 ppm, a slew goes beyond the domain's rate ratio: what is left of the
offset in 2^-32 ns. -/
opaque slewStep : Int → Fin 42949

/-- R416: a stream filter as its two 64-bit words hold it, whose layout the manual does not give: whether it is in use and identifies
streams by source MAC, the MAC and the VLAN ID, its gate and its meter, its maximum SDU size (0 none) and the RX ring that it names. -/
structure StreamFilter where
  used : Bool := false
  bySource : Bool := false
  mac : Nat := 0
  vid : Nat := 0
  gate : Option Nat := none
  meter : Option Nat := none
  maxSdu : Nat := 0
  ring : Option Nat := none
  deriving DecidableEq, Repr, Inhabited

/-- R416: the stream filter that an entry's words hold. -/
opaque streamFilter : Nat → Nat → StreamFilter

end Sys2Proof.Config
end

