-- ==== Sys2Proof/Machine/Reg.lean ====
section
/-! DEFINITION. The register map: one constructor of Reg per register of the spec's register tables (files 01 to 14),
its bit fields, its place in the address map (R124, Table MEM-4), its width and its access code (R7, file 00). -/

namespace Sys2Proof.Machine

/-- The registers of the block, named as the manual names them. -/
inductive Reg where
  | SYS_ID | SYS_DEVSTATE | SYS_FNSTATE0 | SYS_FNSTATE1 | SYS_FNUNITS | SYS_FNCTL | SYS_FNCTLSTAT | SYS_BOOTSTAT
  | SYS_RSTCAUSE | SYS_SELECT | SYS_GEN | SYS_DIGEST_TAG | SYS_STAGE_ERR | SYS_HARTSTATE | SYS_IRQLOST | SYS_FNTIME
  | SYS_DEPEND | CLK_STATUS | CLK_SRCSEL | CLK_FLAGS | CLK_TRIP | CLK_NETREF | CLK_QUAL | CLK_GATE | CLK_GATE_CAM
  | CLK_GATE_CAN | CLK_SENSFREQ | CLK_SENSCTL | PWR_PROFILE | PWR_CTL | PWR_STATUS | PWR_POWER | PWR_PARK | PWR_VCORE
  | PWR_BAND | PWR_AVS_CTL | PWR_DROOP_CFG | PWR_DROOP_SKIPS | PWR_TEMP | PWR_TLIMITS | PWR_EVENTS | CMDQ_QBASE
  | CMDQ_QCPLBASE | CMDQ_QCFG | CMDQ_QHEAD | CMDQ_QCPLHEAD | CMDQ_QSTAT | CMDQ_DB | CMDQ_QTAIL | CMDQ_QSEQ | CMDQ_ERR
  | CMDQ_ERRCNT | CMDQ_UDPCFG | CMDQ_UDPMTU | CMDQ_OPTAB | CMDQ_OPQUOTA | SYNC_CTR | SYNC_ADD | SYNC_RANGE
  | SYNC_STATUS | SYNC_LAT | SYNC_WATCHCFG | SYNC_WATCHVAL | ESC_CFG | ESC_QCYC | ESC_STATUS | ESC_GUARD | ESC_REPAIR
  | ESC_REPSTAT | ESC_DISABLED | ESC_PCFG | ESC_RESV | ESC_DREG | ESC_SREG | ESC_REGSTAT | ESC_P99 | ESC_VTIME
  | ESC_PTIME | ESC_CTX | MEMC_CAP | MEMC_CFG | MEMC_KEY | MEMC_HS_CFG | MEMC_HS_STAT | MEMC_RW_CTL | MEMC_RW_CFG
  | MEMC_RW_STAT | MEMC_RW_PTR | MEMC_RW_COUNT | MEMC_ECC_STAT | MEMC_ECC_ADDR | MEMC_SCRUB | MEMC_OCC | MEMC_REGION
  | FWL_DENY | FWL_DENYCNT | FWL_RBASE | FWL_RLIMIT | FWL_RATTR | ME_PHYS | ME_STATE | ME_BASE | ME_MASKTAB
  | ME_FAULT | ME_FLAGS | ME_COUNTS | ME_VEC | ME_BUBBLE | ME_BUSY | ME_ECC | ME_EWPLIST | ME_EWPTAB | ME_EWPCNT
  | ME_WINDESC | SCAN_SLOTBASE | SCAN_SLOTCFG | SCAN_SLOTSTAT | SCAN_SWAPCNT | SCAN_SWAPCFG | SCAN_PINCTL
  | SCAN_PINSTAT | SCAN_QUOTA | SCAN_ESTATE | SCAN_FAULT | SCAN_SAT | SCAN_BUSY | ADMA_POOL | ADMA_STACKBASE
  | ADMA_STACKCNT | ADMA_PUSH | ADMA_PMCFG | ADMA_PMSTAT | ADMA_STATUS | ADMA_PIUCNT | ADMA_NODEBASE | ADMA_BKTBASE
  | ADMA_NODECFG | ADMA_LAYOUT | ADMA_SEQTAB | ADMA_SEQCNT | ADMA_PHELD | ADMA_PQUOTA | ADMA_BACKING | ADMA_APDTAB
  | ADMA_HKEY | ADMA_ESTATE | ADMA_FAULT | VIS_OVCFG | VIS_OVCNT | VIS_BACKLOG | VIS_USTATE | VIS_UFAULT | VIS_USAT
  | VIS_UBUSY | CAM_RXCFG | CAM_RXSTAT | CAM_RXERR | CAM_SENSCFG | CAM_EXPO | CAM_GAIN | CAM_EXPO_COMMIT
  | CAM_EXPOGEN | CAM_SENSSTAT | CAM_CTXCFG | CAM_CTXSIZE | CAM_CTXTIME | CAM_CTXBUF | CAM_CTXFSTAT | CAM_CTXSTAT
  | CAM_CTXSYNC | CAM_CTXSTATE | CAM_FSYNCCFG | CAM_FSYNCPER | VID_CORESTAT | VID_COREBUSY | VID_DCTX | VID_DCNT
  | VID_ECTX | MOT_CFG | MOT_FAULTSUM | MOT_AXCFG | MOT_AXSTATE | MOT_PWMCFG | MOT_PWMDT | MOT_SDCFG | MOT_STEPLIM
  | MOT_VMAX | MOT_AMAX | MOT_JMAX | MOT_IQMAX | MOT_IDREF | MOT_FELIM | MOT_FEVLIM | MOT_FETIME | MOT_LAGPOS
  | MOT_LAGVEL | MOT_OBSCFG | MOT_ASCCFG | MOT_KP_P | MOT_KP_V | MOT_KI_V | MOT_KFF_V | MOT_KFF_A | MOT_KP_I
  | MOT_KI_I | MOT_R_S | MOT_L_D | MOT_L_Q | MOT_KT | MOT_I_FS | MOT_V_FS | MOT_VDC_NOM | MOT_K1 | MOT_K2
  | MOT_KP_PLL | MOT_KI_PLL | MOT_I_START | MOT_RESLIM | MOT_OBSMIN | MOT_STARTACC | MOT_POS | MOT_RPOS | MOT_VEL
  | MOT_RVEL | MOT_IDQ | MOT_OBSSTAT | MOT_AXCTL | MOT_AXCNT | MOT_AXFAULT | MOT_ENCCFG | MOT_ENCCPR | MOT_ENCOFF
  | MOT_ENCCNT | MOT_ENCERR | MOT_TRCFG | MOT_TRSIG | MOT_TRTHR | MOT_TRBASE | MOT_TRCTL | MOT_TRSTAT | SPW_TIME
  | SPW_VAL0 | SPW_VAL1 | SPW_PUSH | SPW_STAT | CAN_CTL | CAN_NBT | CAN_DBT | CAN_XBT | CAN_RAMCFG | CAN_ERR
  | CAN_ECNT | CAN_TXREQ | CAN_TXDONE | CAN_RXFSTAT | CAN_RXFACK | CAN_HPBSTAT | CAN_TTCFG | CAN_TTCYC | CAN_TTSTAT
  | CAN_LTCFG | CAN_TXLATE | CAN_LATECNT | CAN_TTMARK | CAN_TTCELL | CAN_STDFILT | CAN_EXTFILT | ETH_MACCFG
  | ETH_PSTAT | ETH_CNT | ETH_LTCFG | ETH_TSCOMP | ETH_GCLBASE | ETH_GCLCYCLE | ETH_GCLCTL | ETH_PREEMPT | ETH_RBASE
  | ETH_RCFG | ETH_RHEAD | ETH_RDB | ETH_GCL | ETH_FILTER | CHR_TIME | CHR_STATUS | CHR_CFG | CHR_JUMP | CHR_RATE
  | CHR_DOMCFG | CHR_DOMOFF | CHR_DOMRATE | CHR_DOMSTAT | CHR_PENDING | CHR_STEPCNT | CHR_EVENTS | GLK_CFG | GLK_ID
  | GLK_UID | GLK_ROOT_UID | GLK_ROOTSTAT | GLK_CLAIMCFG | GLK_PEERS | GLK_TIMESTAT | GLK_TOFF | GLK_NAPCFG
  | GLK_NAPMAX | GLK_BARSTAT | GLK_DIGCFG | GLK_DIGSTAT | GLK_REFTAG | GLK_TBREAK | GLK_PSTAT | GLK_PCNT | GLK_PDELAY
  | SAFE_STATUS | SAFE_CFG | SAFE_TBCFG | SAFE_TBSTAT | SAFE_TBFAIL | SAFE_WDSUM | SAFE_WDCFG | SAFE_WDSRC
  | SAFE_WDWIN | SAFE_WDTGT | SAFE_WDSTAT | SAFE_WDKICK | LOG_RING | LOG_MIRROR | LOG_SEQ | LOG_IRQ | LOG_STATUS
  | LOG_PERSIST | LOG_DROP | SEC_LIFECYCLE | SEC_OTPSTAT | SEC_DBGNONCE | SEC_DBGCTL | SEC_DBGSTAT | SEC_OTPPROG
  | SEC_OTPRES | SEC_OTPDATA | SEC_DBGRESP | PCIE_CFG | PCIE_LSTAT | PCIE_FNMAP | PCIE_OBWIN_BASE | PCIE_OBWIN_SIZE
  | PCIE_OBWIN_PADDR | PCIE_OBWIN_ATTR | PCIE_IBWIN_PBASE | PCIE_IBWIN_SIZE | PCIE_IBWIN_UADDR | PCIE_IBWIN_ATTR
  | PCIE_RPMSI | PCIE_ERR | DMA_FWMASK | DMA_SRC | DMA_DST | DMA_LEN | DMA_CTL | DMA_SIGINC | DMA_STAT | DMA_DONE
  deriving DecidableEq, Repr

/-- A bit field of a register: bits hi down to lo. -/
structure Fld where
  reg : Reg
  hi : Nat
  lo : Nat
  deriving DecidableEq, Repr

/-- The access codes of the register maps (file 00, Conventions). -/
inductive Acc where
  | ro | rw | wo | w1c | w1s | rc | rwl
  deriving DecidableEq, Repr

/-- The 24 register blocks of Table MEM-4. -/
inductive Block where
  | SYS | CLK | PWR | CMDQ | SYNC | ESC | MEMC | FWL | ME | SCAN | ADMA | VIS
  | CAM | VID | MOT | CAN | ETH | CHR | GLK | SAFE | LOG | SEC | PCIE | DMA
  deriving DecidableEq, Repr

/-- What a register's table says: its offset in its block, one or two index strides and counts, its width in bits, its
access code, whether its reset value is the profile's, and its fields with their own access codes (no field: the whole
register is one value). -/
structure RegInfo where
  block : Block
  off : Nat
  stride : Nat := 0
  count : Nat := 1
  stride2 : Nat := 0
  count2 : Nat := 1
  width : Nat := 32
  acc : Acc
  profile : Bool := false
  fields : List (Fld × Acc) := []
  deriving DecidableEq, Repr

/-- Table MEM-4: the block bases. -/
def Block.base : Block → Nat
  | .SYS => 0x40000000
  | .CLK => 0x40100000
  | .PWR => 0x40200000
  | .CMDQ => 0x40300000
  | .SYNC => 0x40400000
  | .ESC => 0x40500000
  | .MEMC => 0x40600000
  | .FWL => 0x40700000
  | .ME => 0x40800000
  | .SCAN => 0x40a00000
  | .ADMA => 0x40b00000
  | .VIS => 0x40c00000
  | .CAM => 0x40d00000
  | .VID => 0x40e00000
  | .MOT => 0x40f00000
  | .CAN => 0x41000000
  | .ETH => 0x41100000
  | .CHR => 0x41200000
  | .GLK => 0x41300000
  | .SAFE => 0x41400000
  | .LOG => 0x41500000
  | .SEC => 0x41600000
  | .PCIE => 0x41700000
  | .DMA => 0x41800000

/-- R124: a block spans 1 MiB, ME 2 MiB. -/
def Block.span : Block → Nat
  | .ME => 0x200000
  | _ => 0x100000

namespace F

abbrev SYS_ID_PART : Fld := ⟨.SYS_ID, 31, 16⟩
abbrev SYS_ID_GRADE : Fld := ⟨.SYS_ID, 15, 12⟩
abbrev SYS_ID_CDIE_REV : Fld := ⟨.SYS_ID, 11, 8⟩
abbrev SYS_ID_IODIE_REV : Fld := ⟨.SYS_ID, 7, 4⟩
abbrev SYS_DEVSTATE_FN_FAULT : Fld := ⟨.SYS_DEVSTATE, 15, 15⟩
abbrev SYS_DEVSTATE_RAM_PROFILE : Fld := ⟨.SYS_DEVSTATE, 14, 14⟩
abbrev SYS_DEVSTATE_SELECT_SLOT : Fld := ⟨.SYS_DEVSTATE, 13, 12⟩
abbrev SYS_DEVSTATE_SELECT_VALID : Fld := ⟨.SYS_DEVSTATE, 11, 11⟩
abbrev SYS_DEVSTATE_SOURCE : Fld := ⟨.SYS_DEVSTATE, 10, 10⟩
abbrev SYS_DEVSTATE_CROWN : Fld := ⟨.SYS_DEVSTATE, 9, 8⟩
abbrev SYS_DEVSTATE_ACTIVE_SLOT : Fld := ⟨.SYS_DEVSTATE, 5, 4⟩
abbrev SYS_DEVSTATE_DEVSTATE : Fld := ⟨.SYS_DEVSTATE, 2, 0⟩
abbrev SYS_FNSTATE0_VIS : Fld := ⟨.SYS_FNSTATE0, 29, 27⟩
abbrev SYS_FNSTATE0_ADMA : Fld := ⟨.SYS_FNSTATE0, 26, 24⟩
abbrev SYS_FNSTATE0_SCAN : Fld := ⟨.SYS_FNSTATE0, 23, 21⟩
abbrev SYS_FNSTATE0_ME : Fld := ⟨.SYS_FNSTATE0, 20, 18⟩
abbrev SYS_FNSTATE0_SMEM : Fld := ⟨.SYS_FNSTATE0, 17, 15⟩
abbrev SYS_FNSTATE0_DRAM : Fld := ⟨.SYS_FNSTATE0, 14, 12⟩
abbrev SYS_FNSTATE0_GLK : Fld := ⟨.SYS_FNSTATE0, 11, 9⟩
abbrev SYS_FNSTATE0_ETH : Fld := ⟨.SYS_FNSTATE0, 8, 6⟩
abbrev SYS_FNSTATE0_PCIE : Fld := ⟨.SYS_FNSTATE0, 5, 3⟩
abbrev SYS_FNSTATE0_MGMT : Fld := ⟨.SYS_FNSTATE0, 2, 0⟩
abbrev SYS_FNSTATE1_APP : Fld := ⟨.SYS_FNSTATE1, 20, 18⟩
abbrev SYS_FNSTATE1_SAFE : Fld := ⟨.SYS_FNSTATE1, 17, 15⟩
abbrev SYS_FNSTATE1_CHR : Fld := ⟨.SYS_FNSTATE1, 14, 12⟩
abbrev SYS_FNSTATE1_CAN : Fld := ⟨.SYS_FNSTATE1, 11, 9⟩
abbrev SYS_FNSTATE1_MOT : Fld := ⟨.SYS_FNSTATE1, 8, 6⟩
abbrev SYS_FNSTATE1_VID : Fld := ⟨.SYS_FNSTATE1, 5, 3⟩
abbrev SYS_FNSTATE1_CAM : Fld := ⟨.SYS_FNSTATE1, 2, 0⟩
abbrev SYS_FNUNITS_UNITS_STOPPED : Fld := ⟨.SYS_FNUNITS, 16, 0⟩
abbrev SYS_FNCTL_OP : Fld := ⟨.SYS_FNCTL, 31, 28⟩
abbrev SYS_FNCTL_FN : Fld := ⟨.SYS_FNCTL, 20, 16⟩
abbrev SYS_FNCTL_UNIT : Fld := ⟨.SYS_FNCTL, 7, 0⟩
abbrev SYS_FNCTLSTAT_BUSY : Fld := ⟨.SYS_FNCTLSTAT, 31, 31⟩
abbrev SYS_FNCTLSTAT_RESULT : Fld := ⟨.SYS_FNCTLSTAT, 2, 0⟩
abbrev SYS_BOOTSTAT_CAUSE : Fld := ⟨.SYS_BOOTSTAT, 31, 24⟩
abbrev SYS_BOOTSTAT_SECTION : Fld := ⟨.SYS_BOOTSTAT, 20, 16⟩
abbrev SYS_BOOTSTAT_STEP : Fld := ⟨.SYS_BOOTSTAT, 4, 0⟩
abbrev SYS_RSTCAUSE_PORST : Fld := ⟨.SYS_RSTCAUSE, 5, 5⟩
abbrev SYS_RSTCAUSE_SAFE : Fld := ⟨.SYS_RSTCAUSE, 4, 4⟩
abbrev SYS_RSTCAUSE_THERMTRIP : Fld := ⟨.SYS_RSTCAUSE, 3, 3⟩
abbrev SYS_RSTCAUSE_WARM_SELECT : Fld := ⟨.SYS_RSTCAUSE, 2, 2⟩
abbrev SYS_RSTCAUSE_WARM_CMD : Fld := ⟨.SYS_RSTCAUSE, 1, 1⟩
abbrev SYS_RSTCAUSE_POR : Fld := ⟨.SYS_RSTCAUSE, 0, 0⟩
abbrev SYS_SELECT_SLOT : Fld := ⟨.SYS_SELECT, 2, 1⟩
abbrev SYS_SELECT_VALID : Fld := ⟨.SYS_SELECT, 0, 0⟩
abbrev SYS_STAGE_ERR_INITIATOR : Fld := ⟨.SYS_STAGE_ERR, 25, 16⟩
abbrev SYS_STAGE_ERR_STAGE_DENIED : Fld := ⟨.SYS_STAGE_ERR, 0, 0⟩
abbrev SYS_HARTSTATE_HART : Fld := ⟨.SYS_HARTSTATE, 47, 0⟩
abbrev SYS_DEPEND_PREREQ : Fld := ⟨.SYS_DEPEND, 16, 0⟩
abbrev CLK_STATUS_PLL_LOCK : Fld := ⟨.CLK_STATUS, 31, 31⟩
abbrev CLK_STATUS_SWITCHING : Fld := ⟨.CLK_STATUS, 30, 30⟩
abbrev CLK_STATUS_READY_RCOSC : Fld := ⟨.CLK_STATUS, 10, 10⟩
abbrev CLK_STATUS_READY_NET : Fld := ⟨.CLK_STATUS, 9, 9⟩
abbrev CLK_STATUS_READY_REFCLK : Fld := ⟨.CLK_STATUS, 8, 8⟩
abbrev CLK_STATUS_ACTIVE : Fld := ⟨.CLK_STATUS, 1, 0⟩
abbrev CLK_SRCSEL_REQ : Fld := ⟨.CLK_SRCSEL, 1, 0⟩
abbrev CLK_FLAGS_GATED_INIT : Fld := ⟨.CLK_FLAGS, 25, 16⟩
abbrev CLK_FLAGS_REFUSE_REASON : Fld := ⟨.CLK_FLAGS, 9, 8⟩
abbrev CLK_FLAGS_SENSCLK_RANGE : Fld := ⟨.CLK_FLAGS, 6, 6⟩
abbrev CLK_FLAGS_GATED_MULTI : Fld := ⟨.CLK_FLAGS, 5, 5⟩
abbrev CLK_FLAGS_GATE_REFUSED : Fld := ⟨.CLK_FLAGS, 4, 4⟩
abbrev CLK_FLAGS_GATED_READ : Fld := ⟨.CLK_FLAGS, 3, 3⟩
abbrev CLK_FLAGS_FALLBACK : Fld := ⟨.CLK_FLAGS, 2, 2⟩
abbrev CLK_FLAGS_SW_REFUSED : Fld := ⟨.CLK_FLAGS, 1, 1⟩
abbrev CLK_FLAGS_FALLBACK_SKIP : Fld := ⟨.CLK_FLAGS, 0, 0⟩
abbrev CLK_TRIP_NET_CAUSE : Fld := ⟨.CLK_TRIP, 11, 8⟩
abbrev CLK_TRIP_PLL_UNLOCK : Fld := ⟨.CLK_TRIP, 4, 4⟩
abbrev CLK_TRIP_REFCLK_CAUSE : Fld := ⟨.CLK_TRIP, 3, 0⟩
abbrev CLK_NETREF_EN : Fld := ⟨.CLK_NETREF, 31, 31⟩
abbrev CLK_NETREF_WINDOW_PPM : Fld := ⟨.CLK_NETREF, 23, 16⟩
abbrev CLK_NETREF_FREQ : Fld := ⟨.CLK_NETREF, 9, 8⟩
abbrev CLK_NETREF_SEL : Fld := ⟨.CLK_NETREF, 1, 0⟩
abbrev CLK_QUAL_NET_US : Fld := ⟨.CLK_QUAL, 25, 16⟩
abbrev CLK_QUAL_REFCLK_COUNT : Fld := ⟨.CLK_QUAL, 15, 0⟩
abbrev CLK_GATE_EN : Fld := ⟨.CLK_GATE, 16, 0⟩
abbrev CLK_GATE_CAM_RX_EN : Fld := ⟨.CLK_GATE_CAM, 15, 0⟩
abbrev CLK_GATE_CAN_CTL_EN : Fld := ⟨.CLK_GATE_CAN, 7, 0⟩
abbrev CLK_SENSFREQ_FREQ_HZ : Fld := ⟨.CLK_SENSFREQ, 25, 0⟩
abbrev CLK_SENSCTL_EN : Fld := ⟨.CLK_SENSCTL, 31, 31⟩
abbrev CLK_SENSCTL_DEPTH : Fld := ⟨.CLK_SENSCTL, 20, 16⟩
abbrev CLK_SENSCTL_RATE_KHZ : Fld := ⟨.CLK_SENSCTL, 6, 0⟩
abbrev PWR_PROFILE_PROFILE : Fld := ⟨.PWR_PROFILE, 9, 8⟩
abbrev PWR_PROFILE_CAP_W : Fld := ⟨.PWR_PROFILE, 7, 0⟩
abbrev PWR_CTL_DIV_MAX : Fld := ⟨.PWR_CTL, 31, 28⟩
abbrev PWR_CTL_ME_MAX : Fld := ⟨.PWR_CTL, 13, 8⟩
abbrev PWR_CTL_ME_MIN : Fld := ⟨.PWR_CTL, 5, 0⟩
abbrev PWR_STATUS_THROTTLE : Fld := ⟨.PWR_STATUS, 21, 21⟩
abbrev PWR_STATUS_PMBUS_LOST : Fld := ⟨.PWR_STATUS, 20, 20⟩
abbrev PWR_STATUS_CAP_STATE : Fld := ⟨.PWR_STATUS, 19, 18⟩
abbrev PWR_STATUS_BAND : Fld := ⟨.PWR_STATUS, 17, 16⟩
abbrev PWR_STATUS_ME_ACTIVE : Fld := ⟨.PWR_STATUS, 13, 8⟩
abbrev PWR_STATUS_CORE_DIV : Fld := ⟨.PWR_STATUS, 3, 0⟩
abbrev PWR_POWER_PEAK_DW : Fld := ⟨.PWR_POWER, 31, 16⟩
abbrev PWR_POWER_AVG_DW : Fld := ⟨.PWR_POWER, 15, 0⟩
abbrev PWR_PARK_PARKED : Fld := ⟨.PWR_PARK, 35, 0⟩
abbrev PWR_VCORE_VCAL_MV : Fld := ⟨.PWR_VCORE, 31, 16⟩
abbrev PWR_VCORE_TARGET_MV : Fld := ⟨.PWR_VCORE, 15, 0⟩
abbrev PWR_BAND_MEASURED : Fld := ⟨.PWR_BAND, 31, 31⟩
abbrev PWR_BAND_GUARD : Fld := ⟨.PWR_BAND, 30, 30⟩
abbrev PWR_BAND_OFFSET_MV : Fld := ⟨.PWR_BAND, 15, 8⟩
abbrev PWR_BAND_TJ_MEAS : Fld := ⟨.PWR_BAND, 7, 0⟩
abbrev PWR_AVS_CTL_INVALIDATE : Fld := ⟨.PWR_AVS_CTL, 3, 0⟩
abbrev PWR_DROOP_CFG_THRESH_MV : Fld := ⟨.PWR_DROOP_CFG, 7, 0⟩
abbrev PWR_TEMP_SENSOR : Fld := ⟨.PWR_TEMP, 20, 16⟩
abbrev PWR_TEMP_TJ : Fld := ⟨.PWR_TEMP, 11, 0⟩
abbrev PWR_TLIMITS_TRIP_C : Fld := ⟨.PWR_TLIMITS, 15, 8⟩
abbrev PWR_TLIMITS_THROTTLE_C : Fld := ⟨.PWR_TLIMITS, 7, 0⟩
abbrev PWR_EVENTS_AVS_GUARD : Fld := ⟨.PWR_EVENTS, 4, 4⟩
abbrev PWR_EVENTS_THROTTLE : Fld := ⟨.PWR_EVENTS, 3, 3⟩
abbrev PWR_EVENTS_PMBUS_LOST : Fld := ⟨.PWR_EVENTS, 2, 2⟩
abbrev PWR_EVENTS_CAP_UNMET : Fld := ⟨.PWR_EVENTS, 1, 1⟩
abbrev PWR_EVENTS_CAP_ACTIVE : Fld := ⟨.PWR_EVENTS, 0, 0⟩
abbrev CMDQ_QBASE_BASE : Fld := ⟨.CMDQ_QBASE, 47, 12⟩
abbrev CMDQ_QCPLBASE_BASE : Fld := ⟨.CMDQ_QCPLBASE, 47, 12⟩
abbrev CMDQ_QCFG_EN : Fld := ⟨.CMDQ_QCFG, 31, 31⟩
abbrev CMDQ_QCFG_TRANSPORT : Fld := ⟨.CMDQ_QCFG, 30, 29⟩
abbrev CMDQ_QCFG_CPL_MODE : Fld := ⟨.CMDQ_QCFG, 28, 28⟩
abbrev CMDQ_QCFG_SQ_LOG2 : Fld := ⟨.CMDQ_QCFG, 27, 23⟩
abbrev CMDQ_QCFG_CQ_LOG2 : Fld := ⟨.CMDQ_QCFG, 22, 18⟩
abbrev CMDQ_QCFG_PARTITION : Fld := ⟨.CMDQ_QCFG, 17, 12⟩
abbrev CMDQ_QCFG_IRQ_EN : Fld := ⟨.CMDQ_QCFG, 11, 11⟩
abbrev CMDQ_QCFG_IRQ_VEC : Fld := ⟨.CMDQ_QCFG, 10, 0⟩
abbrev CMDQ_QSTAT_STATE : Fld := ⟨.CMDQ_QSTAT, 31, 29⟩
abbrev CMDQ_QSTAT_OPS : Fld := ⟨.CMDQ_QSTAT, 15, 0⟩
abbrev CMDQ_ERR_HCRC : Fld := ⟨.CMDQ_ERR, 31, 31⟩
abbrev CMDQ_ERR_TCRC : Fld := ⟨.CMDQ_ERR, 30, 30⟩
abbrev CMDQ_ERR_DB_DENIED : Fld := ⟨.CMDQ_ERR, 29, 29⟩
abbrev CMDQ_ERR_DB_STATE : Fld := ⟨.CMDQ_ERR, 28, 28⟩
abbrev CMDQ_ERR_DB_OVERRUN : Fld := ⟨.CMDQ_ERR, 27, 27⟩
abbrev CMDQ_ERR_UDP_DROP : Fld := ⟨.CMDQ_ERR, 26, 26⟩
abbrev CMDQ_ERR_INITIATOR : Fld := ⟨.CMDQ_ERR, 25, 16⟩
abbrev CMDQ_ERR_RING_FAULT : Fld := ⟨.CMDQ_ERR, 15, 15⟩
abbrev CMDQ_ERR_QUEUE : Fld := ⟨.CMDQ_ERR, 12, 0⟩
abbrev CMDQ_ERRCNT_HCRC_CNT : Fld := ⟨.CMDQ_ERRCNT, 63, 48⟩
abbrev CMDQ_ERRCNT_TCRC_CNT : Fld := ⟨.CMDQ_ERRCNT, 47, 32⟩
abbrev CMDQ_ERRCNT_DB_CNT : Fld := ⟨.CMDQ_ERRCNT, 31, 16⟩
abbrev CMDQ_ERRCNT_UDP_DROP_CNT : Fld := ⟨.CMDQ_ERRCNT, 15, 0⟩
abbrev CMDQ_UDPCFG_PORT : Fld := ⟨.CMDQ_UDPCFG, 31, 16⟩
abbrev CMDQ_UDPCFG_ACK_EVERY : Fld := ⟨.CMDQ_UDPCFG, 15, 8⟩
abbrev CMDQ_UDPCFG_ACK_US : Fld := ⟨.CMDQ_UDPCFG, 7, 0⟩
abbrev CMDQ_UDPMTU_MTU : Fld := ⟨.CMDQ_UDPMTU, 13, 0⟩
abbrev CMDQ_OPTAB_HIGH : Fld := ⟨.CMDQ_OPTAB, 31, 16⟩
abbrev CMDQ_OPTAB_IN_USE : Fld := ⟨.CMDQ_OPTAB, 15, 0⟩
abbrev CMDQ_OPQUOTA_QUOTA : Fld := ⟨.CMDQ_OPQUOTA, 31, 16⟩
abbrev CMDQ_OPQUOTA_USED : Fld := ⟨.CMDQ_OPQUOTA, 15, 0⟩
abbrev SYNC_RANGE_EN : Fld := ⟨.SYNC_RANGE, 63, 63⟩
abbrev SYNC_RANGE_PARTITION : Fld := ⟨.SYNC_RANGE, 39, 34⟩
abbrev SYNC_RANGE_COUNT : Fld := ⟨.SYNC_RANGE, 33, 17⟩
abbrev SYNC_RANGE_BASE : Fld := ⟨.SYNC_RANGE, 15, 0⟩
abbrev SYNC_STATUS_SATURATED : Fld := ⟨.SYNC_STATUS, 31, 31⟩
abbrev SYNC_STATUS_DENIED : Fld := ⟨.SYNC_STATUS, 30, 30⟩
abbrev SYNC_STATUS_RANGE_REFUSED : Fld := ⟨.SYNC_STATUS, 29, 29⟩
abbrev SYNC_STATUS_INITIATOR : Fld := ⟨.SYNC_STATUS, 25, 16⟩
abbrev SYNC_STATUS_COUNTER : Fld := ⟨.SYNC_STATUS, 15, 0⟩
abbrev SYNC_LAT_MAX : Fld := ⟨.SYNC_LAT, 31, 16⟩
abbrev SYNC_LAT_MIN : Fld := ⟨.SYNC_LAT, 15, 0⟩
abbrev SYNC_WATCHCFG_ARMED : Fld := ⟨.SYNC_WATCHCFG, 31, 31⟩
abbrev SYNC_WATCHCFG_FIRED : Fld := ⟨.SYNC_WATCHCFG, 30, 30⟩
abbrev SYNC_WATCHCFG_DEST : Fld := ⟨.SYNC_WATCHCFG, 29, 28⟩
abbrev SYNC_WATCHCFG_VECTOR : Fld := ⟨.SYNC_WATCHCFG, 26, 16⟩
abbrev SYNC_WATCHCFG_COUNTER : Fld := ⟨.SYNC_WATCHCFG, 15, 0⟩
abbrev ESC_CFG_Q_US : Fld := ⟨.ESC_CFG, 31, 16⟩
abbrev ESC_CFG_HOLD_CYC : Fld := ⟨.ESC_CFG, 15, 0⟩
abbrev ESC_STATUS_TEARDOWN : Fld := ⟨.ESC_STATUS, 31, 31⟩
abbrev ESC_STATUS_RUN_LIMIT : Fld := ⟨.ESC_STATUS, 30, 30⟩
abbrev ESC_STATUS_MULTI : Fld := ⟨.ESC_STATUS, 29, 29⟩
abbrev ESC_STATUS_GUARD : Fld := ⟨.ESC_STATUS, 28, 28⟩
abbrev ESC_STATUS_PARTITION : Fld := ⟨.ESC_STATUS, 9, 4⟩
abbrev ESC_STATUS_CONTEXT : Fld := ⟨.ESC_STATUS, 3, 0⟩
abbrev ESC_GUARD_EN : Fld := ⟨.ESC_GUARD, 31, 31⟩
abbrev ESC_GUARD_EPOCH_MS : Fld := ⟨.ESC_GUARD, 15, 0⟩
abbrev ESC_REPAIR_OP : Fld := ⟨.ESC_REPAIR, 31, 28⟩
abbrev ESC_REPAIR_PERSIST : Fld := ⟨.ESC_REPAIR, 27, 27⟩
abbrev ESC_REPAIR_SPARE : Fld := ⟨.ESC_REPAIR, 13, 8⟩
abbrev ESC_REPAIR_SLOT : Fld := ⟨.ESC_REPAIR, 4, 0⟩
abbrev ESC_REPSTAT_SPARES : Fld := ⟨.ESC_REPSTAT, 63, 28⟩
abbrev ESC_REPSTAT_RESULT : Fld := ⟨.ESC_REPSTAT, 27, 24⟩
abbrev ESC_REPSTAT_OTP_USED : Fld := ⟨.ESC_REPSTAT, 20, 16⟩
abbrev ESC_DISABLED_FAILED : Fld := ⟨.ESC_DISABLED, 35, 0⟩
abbrev ESC_PCFG_STATE : Fld := ⟨.ESC_PCFG, 31, 29⟩
abbrev ESC_PCFG_SHARES : Fld := ⟨.ESC_PCFG, 15, 0⟩
abbrev ESC_RESV_LEND : Fld := ⟨.ESC_RESV, 63, 63⟩
abbrev ESC_RESV_VIS : Fld := ⟨.ESC_RESV, 59, 48⟩
abbrev ESC_RESV_ADMA : Fld := ⟨.ESC_RESV, 47, 40⟩
abbrev ESC_RESV_SCAN : Fld := ⟨.ESC_RESV, 39, 32⟩
abbrev ESC_RESV_ME : Fld := ⟨.ESC_RESV, 31, 0⟩
abbrev ESC_DREG_LIMIT : Fld := ⟨.ESC_DREG, 63, 32⟩
abbrev ESC_DREG_GUAR : Fld := ⟨.ESC_DREG, 31, 0⟩
abbrev ESC_SREG_LIMIT : Fld := ⟨.ESC_SREG, 63, 32⟩
abbrev ESC_SREG_GUAR : Fld := ⟨.ESC_SREG, 31, 0⟩
abbrev ESC_REGSTAT_DRAM_HELD : Fld := ⟨.ESC_REGSTAT, 63, 32⟩
abbrev ESC_REGSTAT_SMEM_HELD : Fld := ⟨.ESC_REGSTAT, 31, 0⟩
abbrev ESC_P99_TARGET_US : Fld := ⟨.ESC_P99, 31, 16⟩
abbrev ESC_P99_P99_US : Fld := ⟨.ESC_P99, 15, 0⟩
abbrev ESC_VTIME_V : Fld := ⟨.ESC_VTIME, 63, 0⟩
abbrev ESC_PTIME_T : Fld := ⟨.ESC_PTIME, 63, 0⟩
abbrev ESC_CTX_STATE : Fld := ⟨.ESC_CTX, 31, 29⟩
abbrev ESC_CTX_QCOUNT : Fld := ⟨.ESC_CTX, 23, 13⟩
abbrev ESC_CTX_QBASE : Fld := ⟨.ESC_CTX, 12, 0⟩
abbrev MEMC_CAP_FRAMES : Fld := ⟨.MEMC_CAP, 31, 24⟩
abbrev MEMC_CAP_TOP_GIB : Fld := ⟨.MEMC_CAP, 23, 16⟩
abbrev MEMC_CAP_RESERVE_FRAME : Fld := ⟨.MEMC_CAP, 15, 8⟩
abbrev MEMC_CAP_CHANNELS : Fld := ⟨.MEMC_CAP, 6, 0⟩
abbrev MEMC_CFG_REPEATABLE : Fld := ⟨.MEMC_CFG, 4, 4⟩
abbrev MEMC_CFG_KEY_FIXED : Fld := ⟨.MEMC_CFG, 3, 3⟩
abbrev MEMC_CFG_REWEAVE_EN : Fld := ⟨.MEMC_CFG, 2, 2⟩
abbrev MEMC_CFG_RESERVE : Fld := ⟨.MEMC_CFG, 1, 1⟩
abbrev MEMC_CFG_ECC_EN : Fld := ⟨.MEMC_CFG, 0, 0⟩
abbrev MEMC_HS_CFG_MIN_MEAN : Fld := ⟨.MEMC_HS_CFG, 6, 0⟩
abbrev MEMC_HS_STAT_HOTSPOT : Fld := ⟨.MEMC_HS_STAT, 31, 31⟩
abbrev MEMC_HS_STAT_RW_SKIPPED : Fld := ⟨.MEMC_HS_STAT, 30, 30⟩
abbrev MEMC_HS_STAT_REGION : Fld := ⟨.MEMC_HS_STAT, 21, 14⟩
abbrev MEMC_HS_STAT_CHANNEL : Fld := ⟨.MEMC_HS_STAT, 5, 0⟩
abbrev MEMC_RW_CTL_START : Fld := ⟨.MEMC_RW_CTL, 31, 31⟩
abbrev MEMC_RW_CTL_ABORT : Fld := ⟨.MEMC_RW_CTL, 30, 30⟩
abbrev MEMC_RW_CTL_CLEAR_ECC_BLOCK : Fld := ⟨.MEMC_RW_CTL, 29, 29⟩
abbrev MEMC_RW_CTL_REGION : Fld := ⟨.MEMC_RW_CTL, 7, 0⟩
abbrev MEMC_RW_CFG_HOLDOFF_MS : Fld := ⟨.MEMC_RW_CFG, 31, 16⟩
abbrev MEMC_RW_CFG_RATE_GBPS : Fld := ⟨.MEMC_RW_CFG, 5, 0⟩
abbrev MEMC_RW_STAT_STATE : Fld := ⟨.MEMC_RW_STAT, 31, 30⟩
abbrev MEMC_RW_STAT_LAST_ABORT : Fld := ⟨.MEMC_RW_STAT, 29, 28⟩
abbrev MEMC_RW_STAT_REGION : Fld := ⟨.MEMC_RW_STAT, 23, 16⟩
abbrev MEMC_RW_STAT_FROM_FRAME : Fld := ⟨.MEMC_RW_STAT, 15, 8⟩
abbrev MEMC_RW_STAT_TO_FRAME : Fld := ⟨.MEMC_RW_STAT, 7, 0⟩
abbrev MEMC_RW_COUNT_ABORTS : Fld := ⟨.MEMC_RW_COUNT, 31, 16⟩
abbrev MEMC_RW_COUNT_DONE : Fld := ⟨.MEMC_RW_COUNT, 15, 0⟩
abbrev MEMC_ECC_STAT_DRAM_UE : Fld := ⟨.MEMC_ECC_STAT, 63, 48⟩
abbrev MEMC_ECC_STAT_DRAM_CE : Fld := ⟨.MEMC_ECC_STAT, 47, 32⟩
abbrev MEMC_ECC_STAT_SMEM_UE : Fld := ⟨.MEMC_ECC_STAT, 31, 16⟩
abbrev MEMC_ECC_STAT_SMEM_CE : Fld := ⟨.MEMC_ECC_STAT, 15, 0⟩
abbrev MEMC_ECC_ADDR_VALID : Fld := ⟨.MEMC_ECC_ADDR, 63, 63⟩
abbrev MEMC_ECC_ADDR_ADDR : Fld := ⟨.MEMC_ECC_ADDR, 47, 0⟩
abbrev MEMC_SCRUB_EN : Fld := ⟨.MEMC_SCRUB, 31, 31⟩
abbrev MEMC_SCRUB_SCRUB_HOURS : Fld := ⟨.MEMC_SCRUB, 7, 0⟩
abbrev MEMC_OCC_MAX : Fld := ⟨.MEMC_OCC, 25, 16⟩
abbrev MEMC_OCC_LAST : Fld := ⟨.MEMC_OCC, 9, 0⟩
abbrev MEMC_REGION_PRESENT : Fld := ⟨.MEMC_REGION, 31, 31⟩
abbrev MEMC_REGION_ECC_BLOCKED : Fld := ⟨.MEMC_REGION, 30, 30⟩
abbrev MEMC_REGION_KEY_GEN : Fld := ⟨.MEMC_REGION, 23, 8⟩
abbrev MEMC_REGION_FRAME : Fld := ⟨.MEMC_REGION, 7, 0⟩
abbrev FWL_DENY_VALID : Fld := ⟨.FWL_DENY, 63, 63⟩
abbrev FWL_DENY_LOCKED : Fld := ⟨.FWL_DENY, 62, 62⟩
abbrev FWL_DENY_WRITE : Fld := ⟨.FWL_DENY, 61, 61⟩
abbrev FWL_DENY_TARGET : Fld := ⟨.FWL_DENY, 60, 59⟩
abbrev FWL_DENY_INITIATOR : Fld := ⟨.FWL_DENY, 57, 48⟩
abbrev FWL_DENY_ADDR : Fld := ⟨.FWL_DENY, 47, 0⟩
abbrev FWL_RBASE_ADDR : Fld := ⟨.FWL_RBASE, 47, 12⟩
abbrev FWL_RLIMIT_ADDR : Fld := ⟨.FWL_RLIMIT, 47, 12⟩
abbrev FWL_RATTR_EN : Fld := ⟨.FWL_RATTR, 31, 31⟩
abbrev FWL_RATTR_RD : Fld := ⟨.FWL_RATTR, 30, 30⟩
abbrev FWL_RATTR_WR : Fld := ⟨.FWL_RATTR, 29, 29⟩
abbrev FWL_RATTR_ANY_PART : Fld := ⟨.FWL_RATTR, 28, 28⟩
abbrev FWL_RATTR_PART : Fld := ⟨.FWL_RATTR, 27, 22⟩
abbrev FWL_RATTR_CLASS_MASK : Fld := ⟨.FWL_RATTR, 15, 0⟩
abbrev ME_PHYS_SLOT : Fld := ⟨.ME_PHYS, 15, 8⟩
abbrev ME_PHYS_PHYS : Fld := ⟨.ME_PHYS, 5, 0⟩
abbrev ME_STATE_STATE : Fld := ⟨.ME_STATE, 31, 29⟩
abbrev ME_STATE_PARKED : Fld := ⟨.ME_STATE, 28, 28⟩
abbrev ME_STATE_PINNED : Fld := ⟨.ME_STATE, 27, 27⟩
abbrev ME_STATE_FAMILY : Fld := ⟨.ME_STATE, 26, 26⟩
abbrev ME_STATE_PARTITION : Fld := ⟨.ME_STATE, 21, 16⟩
abbrev ME_BASE_BASE : Fld := ⟨.ME_BASE, 47, 5⟩
abbrev ME_MASKTAB_BASE : Fld := ⟨.ME_MASKTAB, 47, 4⟩
abbrev ME_FAULT_VALID : Fld := ⟨.ME_FAULT, 63, 63⟩
abbrev ME_FAULT_CAUSE : Fld := ⟨.ME_FAULT, 55, 48⟩
abbrev ME_FAULT_ADDR : Fld := ⟨.ME_FAULT, 47, 0⟩
abbrev ME_FLAGS_NAN_OUT : Fld := ⟨.ME_FLAGS, 4, 4⟩
abbrev ME_FLAGS_INF : Fld := ⟨.ME_FLAGS, 3, 3⟩
abbrev ME_FLAGS_PROD_OVF : Fld := ⟨.ME_FLAGS, 2, 2⟩
abbrev ME_FLAGS_ACC_OVF : Fld := ⟨.ME_FLAGS, 1, 1⟩
abbrev ME_FLAGS_SAT : Fld := ⟨.ME_FLAGS, 0, 0⟩
abbrev ME_COUNTS_SAT_CNT : Fld := ⟨.ME_COUNTS, 63, 32⟩
abbrev ME_COUNTS_OVF_CNT : Fld := ⟨.ME_COUNTS, 31, 16⟩
abbrev ME_COUNTS_NAN_CNT : Fld := ⟨.ME_COUNTS, 15, 0⟩
abbrev ME_BUBBLE_FEED : Fld := ⟨.ME_BUBBLE, 63, 32⟩
abbrev ME_BUBBLE_DRAIN : Fld := ⟨.ME_BUBBLE, 31, 0⟩
abbrev ME_ECC_UE : Fld := ⟨.ME_ECC, 31, 16⟩
abbrev ME_ECC_CE : Fld := ⟨.ME_ECC, 15, 0⟩
abbrev ME_EWPLIST_BASE : Fld := ⟨.ME_EWPLIST, 47, 7⟩
abbrev ME_EWPTAB_SLOTS : Fld := ⟨.ME_EWPTAB, 31, 16⟩
abbrev ME_EWPTAB_VERSION : Fld := ⟨.ME_EWPTAB, 15, 0⟩
abbrev ME_EWPCNT_RANGE : Fld := ⟨.ME_EWPCNT, 63, 32⟩
abbrev ME_EWPCNT_GROUP_SKIP : Fld := ⟨.ME_EWPCNT, 31, 16⟩
abbrev ME_EWPCNT_NAN_IN : Fld := ⟨.ME_EWPCNT, 15, 0⟩
abbrev ME_WINDESC_BASE : Fld := ⟨.ME_WINDESC, 47, 6⟩
abbrev SCAN_SLOTBASE_BASE : Fld := ⟨.SCAN_SLOTBASE, 47, 20⟩
abbrev SCAN_SLOTCFG_COUNT : Fld := ⟨.SCAN_SLOTCFG, 28, 16⟩
abbrev SCAN_SLOTCFG_SLOT_KIB : Fld := ⟨.SCAN_SLOTCFG, 8, 0⟩
abbrev SCAN_SLOTSTAT_RESIDENT : Fld := ⟨.SCAN_SLOTSTAT, 28, 16⟩
abbrev SCAN_SLOTSTAT_PINNED : Fld := ⟨.SCAN_SLOTSTAT, 12, 0⟩
abbrev SCAN_SWAPCNT_SWAP_IN : Fld := ⟨.SCAN_SWAPCNT, 63, 32⟩
abbrev SCAN_SWAPCNT_SWAP_OUT : Fld := ⟨.SCAN_SWAPCNT, 31, 0⟩
abbrev SCAN_PINCTL_OP : Fld := ⟨.SCAN_PINCTL, 63, 60⟩
abbrev SCAN_PINCTL_PARTITION : Fld := ⟨.SCAN_PINCTL, 59, 54⟩
abbrev SCAN_PINCTL_ME_SLOT : Fld := ⟨.SCAN_PINCTL, 47, 43⟩
abbrev SCAN_PINCTL_SEQ : Fld := ⟨.SCAN_PINCTL, 23, 0⟩
abbrev SCAN_PINSTAT_BUSY : Fld := ⟨.SCAN_PINSTAT, 31, 31⟩
abbrev SCAN_PINSTAT_RESULT : Fld := ⟨.SCAN_PINSTAT, 30, 28⟩
abbrev SCAN_PINSTAT_COLUMNS : Fld := ⟨.SCAN_PINSTAT, 6, 0⟩
abbrev SCAN_QUOTA_QUOTA : Fld := ⟨.SCAN_QUOTA, 31, 16⟩
abbrev SCAN_QUOTA_USED : Fld := ⟨.SCAN_QUOTA, 15, 0⟩
abbrev SCAN_ESTATE_STATE : Fld := ⟨.SCAN_ESTATE, 31, 29⟩
abbrev SCAN_ESTATE_PARTITION : Fld := ⟨.SCAN_ESTATE, 21, 16⟩
abbrev SCAN_ESTATE_MODE : Fld := ⟨.SCAN_ESTATE, 1, 0⟩
abbrev SCAN_FAULT_VALID : Fld := ⟨.SCAN_FAULT, 63, 63⟩
abbrev SCAN_FAULT_CAUSE : Fld := ⟨.SCAN_FAULT, 55, 48⟩
abbrev SCAN_FAULT_SEQ : Fld := ⟨.SCAN_FAULT, 23, 0⟩
abbrev SCAN_SAT_SAT_CNT : Fld := ⟨.SCAN_SAT, 63, 32⟩
abbrev SCAN_SAT_NAN_CNT : Fld := ⟨.SCAN_SAT, 31, 0⟩
abbrev ADMA_POOL_PAGE_COUNT : Fld := ⟨.ADMA_POOL, 63, 32⟩
abbrev ADMA_POOL_PAGE_FIRST : Fld := ⟨.ADMA_POOL, 31, 0⟩
abbrev ADMA_STACKBASE_BASE : Fld := ⟨.ADMA_STACKBASE, 47, 5⟩
abbrev ADMA_STACKCNT_RES_OUT : Fld := ⟨.ADMA_STACKCNT, 63, 32⟩
abbrev ADMA_STACKCNT_COUNT : Fld := ⟨.ADMA_STACKCNT, 31, 0⟩
abbrev ADMA_PMCFG_IDLE_MS : Fld := ⟨.ADMA_PMCFG, 31, 16⟩
abbrev ADMA_PMCFG_T_PARK_MS : Fld := ⟨.ADMA_PMCFG, 15, 0⟩
abbrev ADMA_PMSTAT_PARKED : Fld := ⟨.ADMA_PMSTAT, 31, 16⟩
abbrev ADMA_PMSTAT_DEMAND : Fld := ⟨.ADMA_PMSTAT, 15, 0⟩
abbrev ADMA_STATUS_STARVED : Fld := ⟨.ADMA_STATUS, 31, 31⟩
abbrev ADMA_STATUS_TERMINATED : Fld := ⟨.ADMA_STATUS, 30, 30⟩
abbrev ADMA_STATUS_NODE_FULL : Fld := ⟨.ADMA_STATUS, 29, 29⟩
abbrev ADMA_STATUS_DOUBLE_FREE : Fld := ⟨.ADMA_STATUS, 28, 28⟩
abbrev ADMA_STATUS_LAYOUT : Fld := ⟨.ADMA_STATUS, 27, 27⟩
abbrev ADMA_STATUS_OWNER : Fld := ⟨.ADMA_STATUS, 26, 26⟩
abbrev ADMA_STATUS_INITIATOR : Fld := ⟨.ADMA_STATUS, 25, 16⟩
abbrev ADMA_PIUCNT_HIT : Fld := ⟨.ADMA_PIUCNT, 63, 40⟩
abbrev ADMA_PIUCNT_MISS : Fld := ⟨.ADMA_PIUCNT, 39, 16⟩
abbrev ADMA_PIUCNT_COLLIDE : Fld := ⟨.ADMA_PIUCNT, 15, 0⟩
abbrev ADMA_NODEBASE_BASE : Fld := ⟨.ADMA_NODEBASE, 47, 6⟩
abbrev ADMA_BKTBASE_BASE : Fld := ⟨.ADMA_BKTBASE, 47, 6⟩
abbrev ADMA_NODECFG_NODE_LOG2 : Fld := ⟨.ADMA_NODECFG, 31, 28⟩
abbrev ADMA_NODECFG_BKT_LOG2 : Fld := ⟨.ADMA_NODECFG, 27, 23⟩
abbrev ADMA_NODECFG_NODE_COUNT : Fld := ⟨.ADMA_NODECFG, 22, 0⟩
abbrev ADMA_LAYOUT_VALID : Fld := ⟨.ADMA_LAYOUT, 63, 63⟩
abbrev ADMA_LAYOUT_PREFIX_EN : Fld := ⟨.ADMA_LAYOUT, 62, 62⟩
abbrev ADMA_LAYOUT_PARTITION : Fld := ⟨.ADMA_LAYOUT, 61, 56⟩
abbrev ADMA_LAYOUT_P_LOG2 : Fld := ⟨.ADMA_LAYOUT, 55, 52⟩
abbrev ADMA_LAYOUT_KFMT : Fld := ⟨.ADMA_LAYOUT, 51, 48⟩
abbrev ADMA_LAYOUT_NL_FULL : Fld := ⟨.ADMA_LAYOUT, 47, 40⟩
abbrev ADMA_LAYOUT_NL_RING : Fld := ⟨.ADMA_LAYOUT, 39, 32⟩
abbrev ADMA_LAYOUT_W_PAGES : Fld := ⟨.ADMA_LAYOUT, 31, 20⟩
abbrev ADMA_LAYOUT_WINDOW : Fld := ⟨.ADMA_LAYOUT, 19, 0⟩
abbrev ADMA_SEQTAB_BASE : Fld := ⟨.ADMA_SEQTAB, 47, 6⟩
abbrev ADMA_SEQCNT_SEQCNT : Fld := ⟨.ADMA_SEQCNT, 23, 0⟩
abbrev ADMA_PHELD_HELD : Fld := ⟨.ADMA_PHELD, 31, 0⟩
abbrev ADMA_PQUOTA_QUOTA : Fld := ⟨.ADMA_PQUOTA, 63, 32⟩
abbrev ADMA_PQUOTA_RESERVE : Fld := ⟨.ADMA_PQUOTA, 31, 0⟩
abbrev ADMA_BACKING_MODE : Fld := ⟨.ADMA_BACKING, 63, 62⟩
abbrev ADMA_BACKING_SIZE_GIB : Fld := ⟨.ADMA_BACKING, 61, 48⟩
abbrev ADMA_BACKING_BASE : Fld := ⟨.ADMA_BACKING, 47, 16⟩
abbrev ADMA_APDTAB_ENTRIES : Fld := ⟨.ADMA_APDTAB, 63, 48⟩
abbrev ADMA_APDTAB_BASE : Fld := ⟨.ADMA_APDTAB, 47, 5⟩
abbrev ADMA_HKEY_KEY : Fld := ⟨.ADMA_HKEY, 63, 0⟩
abbrev ADMA_ESTATE_STATE : Fld := ⟨.ADMA_ESTATE, 31, 29⟩
abbrev ADMA_ESTATE_PARTITION : Fld := ⟨.ADMA_ESTATE, 21, 16⟩
abbrev ADMA_ESTATE_MODE : Fld := ⟨.ADMA_ESTATE, 0, 0⟩
abbrev ADMA_FAULT_VALID : Fld := ⟨.ADMA_FAULT, 63, 63⟩
abbrev ADMA_FAULT_CAUSE : Fld := ⟨.ADMA_FAULT, 55, 48⟩
abbrev ADMA_FAULT_PARTITION : Fld := ⟨.ADMA_FAULT, 29, 24⟩
abbrev ADMA_FAULT_SEQ : Fld := ⟨.ADMA_FAULT, 23, 0⟩
abbrev VIS_OVCFG_EN : Fld := ⟨.VIS_OVCFG, 31, 31⟩
abbrev VIS_OVCFG_THRESH_US : Fld := ⟨.VIS_OVCFG, 15, 0⟩
abbrev VIS_OVCNT_ROUTED : Fld := ⟨.VIS_OVCNT, 63, 32⟩
abbrev VIS_OVCNT_OVER_KEPT : Fld := ⟨.VIS_OVCNT, 31, 0⟩
abbrev VIS_USTATE_STATE : Fld := ⟨.VIS_USTATE, 31, 29⟩
abbrev VIS_USTATE_PARTITION : Fld := ⟨.VIS_USTATE, 21, 16⟩
abbrev VIS_UFAULT_VALID : Fld := ⟨.VIS_UFAULT, 63, 63⟩
abbrev VIS_UFAULT_CAUSE : Fld := ⟨.VIS_UFAULT, 55, 48⟩
abbrev VIS_UFAULT_ADDR : Fld := ⟨.VIS_UFAULT, 47, 0⟩
abbrev VIS_USAT_SAT_CNT : Fld := ⟨.VIS_USAT, 63, 32⟩
abbrev VIS_USAT_PARTIAL : Fld := ⟨.VIS_USAT, 31, 16⟩
abbrev CAM_RXCFG_SCRAMBLE : Fld := ⟨.CAM_RXCFG, 18, 18⟩
abbrev CAM_RXCFG_PHY : Fld := ⟨.CAM_RXCFG, 17, 17⟩
abbrev CAM_RXCFG_LANES : Fld := ⟨.CAM_RXCFG, 16, 14⟩
abbrev CAM_RXCFG_RATE : Fld := ⟨.CAM_RXCFG, 12, 0⟩
abbrev CAM_RXSTAT_STATE : Fld := ⟨.CAM_RXSTAT, 31, 29⟩
abbrev CAM_RXSTAT_LANES_UP : Fld := ⟨.CAM_RXSTAT, 3, 0⟩
abbrev CAM_RXERR_ECC_CORR : Fld := ⟨.CAM_RXERR, 63, 48⟩
abbrev CAM_RXERR_ECC_UNCORR : Fld := ⟨.CAM_RXERR, 47, 36⟩
abbrev CAM_RXERR_CRC : Fld := ⟨.CAM_RXERR, 35, 24⟩
abbrev CAM_RXERR_LEN : Fld := ⟨.CAM_RXERR, 23, 16⟩
abbrev CAM_RXERR_OVF : Fld := ⟨.CAM_RXERR, 15, 8⟩
abbrev CAM_RXERR_ORPHAN : Fld := ⟨.CAM_RXERR, 7, 0⟩
abbrev CAM_SENSCFG_PARTITION : Fld := ⟨.CAM_SENSCFG, 31, 26⟩
abbrev CAM_SENSCFG_L_E : Fld := ⟨.CAM_SENSCFG, 21, 19⟩
abbrev CAM_SENSCFG_L_G : Fld := ⟨.CAM_SENSCFG, 18, 16⟩
abbrev CAM_SENSCFG_I3C : Fld := ⟨.CAM_SENSCFG, 10, 8⟩
abbrev CAM_SENSCFG_ADDR : Fld := ⟨.CAM_SENSCFG, 6, 0⟩
abbrev CAM_EXPOGEN_COMMITTED : Fld := ⟨.CAM_EXPOGEN, 63, 48⟩
abbrev CAM_EXPOGEN_ISSUED : Fld := ⟨.CAM_EXPOGEN, 47, 32⟩
abbrev CAM_EXPOGEN_GAIN_GEN : Fld := ⟨.CAM_EXPOGEN, 31, 16⟩
abbrev CAM_EXPOGEN_EXPO_GEN : Fld := ⟨.CAM_EXPOGEN, 15, 0⟩
abbrev CAM_SENSSTAT_LATE_CNT : Fld := ⟨.CAM_SENSSTAT, 31, 24⟩
abbrev CAM_SENSSTAT_FAIL_CNT : Fld := ⟨.CAM_SENSSTAT, 23, 16⟩
abbrev CAM_SENSSTAT_FRAME : Fld := ⟨.CAM_SENSSTAT, 15, 0⟩
abbrev CAM_CTXCFG_EN : Fld := ⟨.CAM_CTXCFG, 31, 31⟩
abbrev CAM_CTXCFG_MODE : Fld := ⟨.CAM_CTXCFG, 30, 30⟩
abbrev CAM_CTXCFG_PIPE : Fld := ⟨.CAM_CTXCFG, 29, 29⟩
abbrev CAM_CTXCFG_PARTITION : Fld := ⟨.CAM_CTXCFG, 28, 23⟩
abbrev CAM_CTXCFG_DT : Fld := ⟨.CAM_CTXCFG, 22, 17⟩
abbrev CAM_CTXCFG_VC : Fld := ⟨.CAM_CTXCFG, 16, 13⟩
abbrev CAM_CTXCFG_RX : Fld := ⟨.CAM_CTXCFG, 12, 9⟩
abbrev CAM_CTXCFG_NBUF : Fld := ⟨.CAM_CTXCFG, 8, 5⟩
abbrev CAM_CTXTIME_IN_LINES : Fld := ⟨.CAM_CTXTIME, 23, 16⟩
abbrev CAM_CTXTIME_FE_TIMEOUT_US : Fld := ⟨.CAM_CTXTIME, 15, 0⟩
abbrev CAM_CTXBUF_BASE : Fld := ⟨.CAM_CTXBUF, 47, 5⟩
abbrev CAM_CTXFSTAT_BASE : Fld := ⟨.CAM_CTXFSTAT, 47, 5⟩
abbrev CAM_CTXSTAT_STAT_LOG2 : Fld := ⟨.CAM_CTXSTAT, 63, 60⟩
abbrev CAM_CTXSTAT_BASE : Fld := ⟨.CAM_CTXSTAT, 47, 5⟩
abbrev CAM_CTXSTATE_STATE : Fld := ⟨.CAM_CTXSTATE, 31, 29⟩
abbrev CAM_CTXSTATE_PENDING : Fld := ⟨.CAM_CTXSTATE, 28, 28⟩
abbrev CAM_CTXSTATE_TRUNC_CNT : Fld := ⟨.CAM_CTXSTATE, 15, 8⟩
abbrev CAM_CTXSTATE_DROP_CNT : Fld := ⟨.CAM_CTXSTATE, 7, 0⟩
abbrev CAM_FSYNCCFG_EN : Fld := ⟨.CAM_FSYNCCFG, 31, 31⟩
abbrev CAM_FSYNCCFG_WIDTH_US : Fld := ⟨.CAM_FSYNCCFG, 15, 0⟩
abbrev CAM_FSYNCPER_PERIOD_NS : Fld := ⟨.CAM_FSYNCPER, 63, 32⟩
abbrev CAM_FSYNCPER_PHASE_NS : Fld := ⟨.CAM_FSYNCPER, 31, 0⟩
abbrev VID_CORESTAT_STATE : Fld := ⟨.VID_CORESTAT, 31, 29⟩
abbrev VID_CORESTAT_CONTEXTS : Fld := ⟨.VID_CORESTAT, 22, 16⟩
abbrev VID_CORESTAT_LOAD : Fld := ⟨.VID_CORESTAT, 6, 0⟩
abbrev VID_DCTX_STATE : Fld := ⟨.VID_DCTX, 31, 30⟩
abbrev VID_DCTX_CORE : Fld := ⟨.VID_DCTX, 29, 28⟩
abbrev VID_DCTX_CODEC : Fld := ⟨.VID_DCTX, 27, 27⟩
abbrev VID_DCTX_PARTITION : Fld := ⟨.VID_DCTX, 26, 21⟩
abbrev VID_DCNT_CONCEALED : Fld := ⟨.VID_DCNT, 63, 48⟩
abbrev VID_DCNT_REJECTED : Fld := ⟨.VID_DCNT, 47, 32⟩
abbrev VID_DCNT_PICTURES : Fld := ⟨.VID_DCNT, 31, 0⟩
abbrev VID_ECTX_STATE : Fld := ⟨.VID_ECTX, 31, 30⟩
abbrev VID_ECTX_CORE : Fld := ⟨.VID_ECTX, 29, 29⟩
abbrev VID_ECTX_CODEC : Fld := ⟨.VID_ECTX, 28, 28⟩
abbrev VID_ECTX_PARTITION : Fld := ⟨.VID_ECTX, 27, 22⟩
abbrev MOT_CFG_MODE : Fld := ⟨.MOT_CFG, 31, 31⟩
abbrev MOT_CFG_AXES : Fld := ⟨.MOT_CFG, 20, 16⟩
abbrev MOT_CFG_SD_DIV : Fld := ⟨.MOT_CFG, 6, 0⟩
abbrev MOT_FAULTSUM_SAFE : Fld := ⟨.MOT_FAULTSUM, 31, 16⟩
abbrev MOT_FAULTSUM_FAULT : Fld := ⟨.MOT_FAULTSUM, 15, 0⟩
abbrev MOT_AXCFG_EN : Fld := ⟨.MOT_AXCFG, 31, 31⟩
abbrev MOT_AXCFG_ANGLE_SRC : Fld := ⟨.MOT_AXCFG, 30, 30⟩
abbrev MOT_AXCFG_BACKUP : Fld := ⟨.MOT_AXCFG, 29, 28⟩
abbrev MOT_AXCFG_ENC : Fld := ⟨.MOT_AXCFG, 27, 24⟩
abbrev MOT_AXCFG_PARTITION : Fld := ⟨.MOT_AXCFG, 23, 18⟩
abbrev MOT_AXCFG_ASC_EN : Fld := ⟨.MOT_AXCFG, 17, 17⟩
abbrev MOT_AXCFG_IN2 : Fld := ⟨.MOT_AXCFG, 16, 16⟩
abbrev MOT_AXCFG_POLE_PAIRS : Fld := ⟨.MOT_AXCFG, 13, 8⟩
abbrev MOT_AXCFG_N_M1 : Fld := ⟨.MOT_AXCFG, 7, 4⟩
abbrev MOT_AXCFG_M_M1 : Fld := ⟨.MOT_AXCFG, 3, 0⟩
abbrev MOT_AXSTATE_STATE : Fld := ⟨.MOT_AXSTATE, 31, 29⟩
abbrev MOT_AXSTATE_SAFE : Fld := ⟨.MOT_AXSTATE, 28, 27⟩
abbrev MOT_AXSTATE_COMMAND_LAG : Fld := ⟨.MOT_AXSTATE, 26, 26⟩
abbrev MOT_AXSTATE_ANGLE : Fld := ⟨.MOT_AXSTATE, 25, 24⟩
abbrev MOT_AXSTATE_OBS : Fld := ⟨.MOT_AXSTATE, 23, 21⟩
abbrev MOT_AXSTATE_SP_TYPE : Fld := ⟨.MOT_AXSTATE, 20, 18⟩
abbrev MOT_AXSTATE_QUEUED : Fld := ⟨.MOT_AXSTATE, 17, 11⟩
abbrev MOT_PWMCFG_SAMP : Fld := ⟨.MOT_PWMCFG, 31, 31⟩
abbrev MOT_PWMCFG_PERIOD : Fld := ⟨.MOT_PWMCFG, 17, 0⟩
abbrev MOT_PWMDT_MIN_PULSE : Fld := ⟨.MOT_PWMDT, 31, 16⟩
abbrev MOT_PWMDT_DT : Fld := ⟨.MOT_PWMDT, 14, 0⟩
abbrev MOT_SDCFG_OSR : Fld := ⟨.MOT_SDCFG, 31, 24⟩
abbrev MOT_SDCFG_OSR_FAST : Fld := ⟨.MOT_SDCFG, 23, 18⟩
abbrev MOT_SDCFG_OC_LIMIT : Fld := ⟨.MOT_SDCFG, 15, 0⟩
abbrev MOT_STEPLIM_VALUE : Fld := ⟨.MOT_STEPLIM, 11, 0⟩
abbrev MOT_VMAX_VALUE : Fld := ⟨.MOT_VMAX, 31, 0⟩
abbrev MOT_AMAX_VALUE : Fld := ⟨.MOT_AMAX, 31, 0⟩
abbrev MOT_JMAX_VALUE : Fld := ⟨.MOT_JMAX, 31, 0⟩
abbrev MOT_IQMAX_VALUE : Fld := ⟨.MOT_IQMAX, 31, 0⟩
abbrev MOT_IDREF_VALUE : Fld := ⟨.MOT_IDREF, 31, 0⟩
abbrev MOT_FELIM_VALUE : Fld := ⟨.MOT_FELIM, 31, 0⟩
abbrev MOT_FEVLIM_VALUE : Fld := ⟨.MOT_FEVLIM, 31, 0⟩
abbrev MOT_FETIME_VALUE : Fld := ⟨.MOT_FETIME, 31, 0⟩
abbrev MOT_LAGPOS_VALUE : Fld := ⟨.MOT_LAGPOS, 31, 0⟩
abbrev MOT_LAGVEL_VALUE : Fld := ⟨.MOT_LAGVEL, 31, 0⟩
abbrev MOT_OBSCFG_K : Fld := ⟨.MOT_OBSCFG, 31, 28⟩
abbrev MOT_OBSCFG_RELOCK_K : Fld := ⟨.MOT_OBSCFG, 27, 20⟩
abbrev MOT_OBSCFG_T_FLY : Fld := ⟨.MOT_OBSCFG, 19, 10⟩
abbrev MOT_OBSCFG_TQ_RAMP : Fld := ⟨.MOT_OBSCFG, 9, 0⟩
abbrev MOT_ASCCFG_ASC_HOLD_MS : Fld := ⟨.MOT_ASCCFG, 31, 16⟩
abbrev MOT_ASCCFG_ASC_SPEED : Fld := ⟨.MOT_ASCCFG, 15, 0⟩
abbrev MOT_KP_P_VALUE : Fld := ⟨.MOT_KP_P, 31, 0⟩
abbrev MOT_KP_V_VALUE : Fld := ⟨.MOT_KP_V, 31, 0⟩
abbrev MOT_KI_V_VALUE : Fld := ⟨.MOT_KI_V, 31, 0⟩
abbrev MOT_KFF_V_VALUE : Fld := ⟨.MOT_KFF_V, 31, 0⟩
abbrev MOT_KFF_A_VALUE : Fld := ⟨.MOT_KFF_A, 31, 0⟩
abbrev MOT_KP_I_VALUE : Fld := ⟨.MOT_KP_I, 31, 0⟩
abbrev MOT_KI_I_VALUE : Fld := ⟨.MOT_KI_I, 31, 0⟩
abbrev MOT_R_S_VALUE : Fld := ⟨.MOT_R_S, 31, 0⟩
abbrev MOT_L_D_VALUE : Fld := ⟨.MOT_L_D, 31, 0⟩
abbrev MOT_L_Q_VALUE : Fld := ⟨.MOT_L_Q, 31, 0⟩
abbrev MOT_KT_VALUE : Fld := ⟨.MOT_KT, 31, 0⟩
abbrev MOT_I_FS_VALUE : Fld := ⟨.MOT_I_FS, 31, 0⟩
abbrev MOT_V_FS_VALUE : Fld := ⟨.MOT_V_FS, 31, 0⟩
abbrev MOT_VDC_NOM_VALUE : Fld := ⟨.MOT_VDC_NOM, 31, 0⟩
abbrev MOT_K1_VALUE : Fld := ⟨.MOT_K1, 31, 0⟩
abbrev MOT_K2_VALUE : Fld := ⟨.MOT_K2, 31, 0⟩
abbrev MOT_KP_PLL_VALUE : Fld := ⟨.MOT_KP_PLL, 31, 0⟩
abbrev MOT_KI_PLL_VALUE : Fld := ⟨.MOT_KI_PLL, 31, 0⟩
abbrev MOT_I_START_VALUE : Fld := ⟨.MOT_I_START, 31, 0⟩
abbrev MOT_RESLIM_VALUE : Fld := ⟨.MOT_RESLIM, 31, 0⟩
abbrev MOT_OBSMIN_VALUE : Fld := ⟨.MOT_OBSMIN, 31, 0⟩
abbrev MOT_STARTACC_VALUE : Fld := ⟨.MOT_STARTACC, 31, 0⟩
abbrev MOT_POS_VALUE : Fld := ⟨.MOT_POS, 63, 0⟩
abbrev MOT_RPOS_VALUE : Fld := ⟨.MOT_RPOS, 63, 0⟩
abbrev MOT_VEL_VALUE : Fld := ⟨.MOT_VEL, 31, 0⟩
abbrev MOT_RVEL_VALUE : Fld := ⟨.MOT_RVEL, 31, 0⟩
abbrev MOT_IDQ_VALUE : Fld := ⟨.MOT_IDQ, 63, 0⟩
abbrev MOT_OBSSTAT_CONF : Fld := ⟨.MOT_OBSSTAT, 31, 24⟩
abbrev MOT_OBSSTAT_RESIDUAL : Fld := ⟨.MOT_OBSSTAT, 23, 0⟩
abbrev MOT_AXCTL_OP : Fld := ⟨.MOT_AXCTL, 31, 28⟩
abbrev MOT_AXCNT_REJECT : Fld := ⟨.MOT_AXCNT, 63, 48⟩
abbrev MOT_AXCNT_LATE : Fld := ⟨.MOT_AXCNT, 47, 32⟩
abbrev MOT_AXCNT_SKIPPED : Fld := ⟨.MOT_AXCNT, 31, 16⟩
abbrev MOT_AXCNT_REFUSED : Fld := ⟨.MOT_AXCNT, 15, 8⟩
abbrev MOT_AXCNT_CLAMPED : Fld := ⟨.MOT_AXCNT, 7, 0⟩
abbrev MOT_AXFAULT_VALID : Fld := ⟨.MOT_AXFAULT, 31, 31⟩
abbrev MOT_AXFAULT_CAUSE : Fld := ⟨.MOT_AXFAULT, 23, 16⟩
abbrev MOT_AXFAULT_DETAIL : Fld := ⟨.MOT_AXFAULT, 1, 0⟩
abbrev MOT_ENCCFG_MODE : Fld := ⟨.MOT_ENCCFG, 31, 30⟩
abbrev MOT_ENCCFG_SSI_BITS : Fld := ⟨.MOT_ENCCFG, 29, 24⟩
abbrev MOT_ENCCFG_GRAY : Fld := ⟨.MOT_ENCCFG, 23, 23⟩
abbrev MOT_ENCCFG_PARITY : Fld := ⟨.MOT_ENCCFG, 22, 22⟩
abbrev MOT_ENCCFG_SSI_DIV : Fld := ⟨.MOT_ENCCFG, 21, 16⟩
abbrev MOT_ENCCFG_FILTER : Fld := ⟨.MOT_ENCCFG, 15, 12⟩
abbrev MOT_ENCCPR_VALUE : Fld := ⟨.MOT_ENCCPR, 31, 0⟩
abbrev MOT_ENCOFF_VALUE : Fld := ⟨.MOT_ENCOFF, 31, 0⟩
abbrev MOT_ENCCNT_VALUE : Fld := ⟨.MOT_ENCCNT, 31, 0⟩
abbrev MOT_ENCERR_ILLEGAL : Fld := ⟨.MOT_ENCERR, 31, 16⟩
abbrev MOT_ENCERR_ZERR : Fld := ⟨.MOT_ENCERR, 15, 0⟩
abbrev MOT_TRCFG_AXIS : Fld := ⟨.MOT_TRCFG, 31, 28⟩
abbrev MOT_TRCFG_DIV_LOG2 : Fld := ⟨.MOT_TRCFG, 27, 24⟩
abbrev MOT_TRCFG_TRIG : Fld := ⟨.MOT_TRCFG, 23, 22⟩
abbrev MOT_TRCFG_PRE : Fld := ⟨.MOT_TRCFG, 15, 0⟩
abbrev MOT_TRSIG_CODES : Fld := ⟨.MOT_TRSIG, 27, 0⟩
abbrev MOT_TRTHR_SLOT : Fld := ⟨.MOT_TRTHR, 63, 60⟩
abbrev MOT_TRTHR_DIR : Fld := ⟨.MOT_TRTHR, 59, 59⟩
abbrev MOT_TRTHR_LEVEL : Fld := ⟨.MOT_TRTHR, 31, 0⟩
abbrev MOT_TRBASE_BASE : Fld := ⟨.MOT_TRBASE, 47, 12⟩
abbrev MOT_TRBASE_SIZE_LOG2 : Fld := ⟨.MOT_TRBASE, 4, 0⟩
abbrev MOT_TRCTL_OP : Fld := ⟨.MOT_TRCTL, 31, 28⟩
abbrev MOT_TRSTAT_STATE : Fld := ⟨.MOT_TRSTAT, 31, 29⟩
abbrev MOT_TRSTAT_TRIG_INDEX : Fld := ⟨.MOT_TRSTAT, 28, 0⟩
abbrev SPW_TIME_VALUE : Fld := ⟨.SPW_TIME, 63, 0⟩
abbrev SPW_VAL0_VALUE : Fld := ⟨.SPW_VAL0, 63, 0⟩
abbrev SPW_VAL1_VALUE : Fld := ⟨.SPW_VAL1, 31, 0⟩
abbrev SPW_PUSH_VALUE : Fld := ⟨.SPW_PUSH, 2, 0⟩
abbrev SPW_STAT_RESULT : Fld := ⟨.SPW_STAT, 31, 29⟩
abbrev SPW_STAT_FREE : Fld := ⟨.SPW_STAT, 6, 0⟩
abbrev CAN_CTL_STATE : Fld := ⟨.CAN_CTL, 31, 29⟩
abbrev CAN_CTL_ROP : Fld := ⟨.CAN_CTL, 28, 28⟩
abbrev CAN_CTL_ERRSIG : Fld := ⟨.CAN_CTL, 27, 27⟩
abbrev CAN_CTL_AUTO_RECOVER : Fld := ⟨.CAN_CTL, 26, 26⟩
abbrev CAN_CTL_TT : Fld := ⟨.CAN_CTL, 25, 25⟩
abbrev CAN_CTL_XL_EN : Fld := ⟨.CAN_CTL, 24, 24⟩
abbrev CAN_CTL_FD_EN : Fld := ⟨.CAN_CTL, 23, 23⟩
abbrev CAN_CTL_RECOVER : Fld := ⟨.CAN_CTL, 22, 22⟩
abbrev CAN_CTL_PARTITION : Fld := ⟨.CAN_CTL, 21, 16⟩
abbrev CAN_CTL_NOMATCH : Fld := ⟨.CAN_CTL, 15, 14⟩
abbrev CAN_CTL_IRQ_VEC : Fld := ⟨.CAN_CTL, 10, 0⟩
abbrev CAN_NBT_BRP_M1 : Fld := ⟨.CAN_NBT, 31, 23⟩
abbrev CAN_NBT_TSEG1_M1 : Fld := ⟨.CAN_NBT, 22, 15⟩
abbrev CAN_NBT_TSEG2_M1 : Fld := ⟨.CAN_NBT, 14, 8⟩
abbrev CAN_NBT_SJW_M1 : Fld := ⟨.CAN_NBT, 7, 1⟩
abbrev CAN_NBT_TDC : Fld := ⟨.CAN_NBT, 0, 0⟩
abbrev CAN_DBT_BRP_M1 : Fld := ⟨.CAN_DBT, 31, 23⟩
abbrev CAN_DBT_TSEG1_M1 : Fld := ⟨.CAN_DBT, 22, 15⟩
abbrev CAN_DBT_TSEG2_M1 : Fld := ⟨.CAN_DBT, 14, 8⟩
abbrev CAN_DBT_SJW_M1 : Fld := ⟨.CAN_DBT, 7, 1⟩
abbrev CAN_DBT_TDC : Fld := ⟨.CAN_DBT, 0, 0⟩
abbrev CAN_XBT_BRP_M1 : Fld := ⟨.CAN_XBT, 31, 23⟩
abbrev CAN_XBT_TSEG1_M1 : Fld := ⟨.CAN_XBT, 22, 15⟩
abbrev CAN_XBT_TSEG2_M1 : Fld := ⟨.CAN_XBT, 14, 8⟩
abbrev CAN_XBT_SJW_M1 : Fld := ⟨.CAN_XBT, 7, 1⟩
abbrev CAN_XBT_TDC : Fld := ⟨.CAN_XBT, 0, 0⟩
abbrev CAN_RAMCFG_NTX : Fld := ⟨.CAN_RAMCFG, 31, 26⟩
abbrev CAN_RAMCFG_DSIZE : Fld := ⟨.CAN_RAMCFG, 25, 24⟩
abbrev CAN_RAMCFG_NRX0 : Fld := ⟨.CAN_RAMCFG, 23, 16⟩
abbrev CAN_RAMCFG_NRX1 : Fld := ⟨.CAN_RAMCFG, 15, 8⟩
abbrev CAN_RAMCFG_TDCO : Fld := ⟨.CAN_RAMCFG, 7, 0⟩
abbrev CAN_ERR_ESTATE : Fld := ⟨.CAN_ERR, 31, 30⟩
abbrev CAN_ERR_LEC : Fld := ⟨.CAN_ERR, 18, 16⟩
abbrev CAN_ERR_TEC : Fld := ⟨.CAN_ERR, 15, 8⟩
abbrev CAN_ERR_REC : Fld := ⟨.CAN_ERR, 7, 0⟩
abbrev CAN_ECNT_ERR_FRAMES : Fld := ⟨.CAN_ECNT, 63, 32⟩
abbrev CAN_ECNT_SILENT_DROP : Fld := ⟨.CAN_ECNT, 31, 16⟩
abbrev CAN_ECNT_FIFO_DROP : Fld := ⟨.CAN_ECNT, 15, 8⟩
abbrev CAN_ECNT_HPB_OVR : Fld := ⟨.CAN_ECNT, 7, 0⟩
abbrev CAN_TXREQ_VALUE : Fld := ⟨.CAN_TXREQ, 31, 0⟩
abbrev CAN_TXDONE_VALUE : Fld := ⟨.CAN_TXDONE, 31, 0⟩
abbrev CAN_RXFSTAT_VALUE : Fld := ⟨.CAN_RXFSTAT, 31, 0⟩
abbrev CAN_RXFACK_VALUE : Fld := ⟨.CAN_RXFACK, 31, 0⟩
abbrev CAN_HPBSTAT_VALUE : Fld := ⟨.CAN_HPBSTAT, 3, 0⟩
abbrev CAN_TTCFG_TTROLE : Fld := ⟨.CAN_TTCFG, 31, 31⟩
abbrev CAN_TTCFG_CYCLE_MAX : Fld := ⟨.CAN_TTCFG, 30, 28⟩
abbrev CAN_TTCFG_REF_ID : Fld := ⟨.CAN_TTCFG, 10, 0⟩
abbrev CAN_TTCYC_VALUE : Fld := ⟨.CAN_TTCYC, 15, 0⟩
abbrev CAN_TTSTAT_ERRLVL : Fld := ⟨.CAN_TTSTAT, 31, 30⟩
abbrev CAN_TTSTAT_MASTER : Fld := ⟨.CAN_TTSTAT, 29, 28⟩
abbrev CAN_TTSTAT_CYCLE : Fld := ⟨.CAN_TTSTAT, 5, 0⟩
abbrev CAN_TXLATE_VALUE : Fld := ⟨.CAN_TXLATE, 31, 0⟩
abbrev CAN_LATECNT_VALUE : Fld := ⟨.CAN_LATECNT, 31, 0⟩
abbrev CAN_TTMARK_VALUE : Fld := ⟨.CAN_TTMARK, 31, 0⟩
abbrev CAN_TTCELL_TYPE : Fld := ⟨.CAN_TTCELL, 31, 29⟩
abbrev CAN_TTCELL_INDEX : Fld := ⟨.CAN_TTCELL, 7, 0⟩
abbrev CAN_STDFILT_ACTION : Fld := ⟨.CAN_STDFILT, 63, 61⟩
abbrev CAN_STDFILT_ID2 : Fld := ⟨.CAN_STDFILT, 60, 32⟩
abbrev CAN_STDFILT_TYPE : Fld := ⟨.CAN_STDFILT, 31, 30⟩
abbrev CAN_STDFILT_ID1 : Fld := ⟨.CAN_STDFILT, 28, 0⟩
abbrev CAN_EXTFILT_ACTION : Fld := ⟨.CAN_EXTFILT, 63, 61⟩
abbrev CAN_EXTFILT_ID2 : Fld := ⟨.CAN_EXTFILT, 60, 32⟩
abbrev CAN_EXTFILT_TYPE : Fld := ⟨.CAN_EXTFILT, 31, 30⟩
abbrev CAN_EXTFILT_ID1 : Fld := ⟨.CAN_EXTFILT, 28, 0⟩
abbrev ETH_MACCFG_MODE1 : Fld := ⟨.ETH_MACCFG, 3, 2⟩
abbrev ETH_MACCFG_MODE0 : Fld := ⟨.ETH_MACCFG, 1, 0⟩
abbrev ETH_PSTAT_STATE : Fld := ⟨.ETH_PSTAT, 31, 29⟩
abbrev ETH_PSTAT_LINK : Fld := ⟨.ETH_PSTAT, 28, 28⟩
abbrev ETH_PSTAT_PREEMPT : Fld := ⟨.ETH_PSTAT, 27, 27⟩
abbrev ETH_PSTAT_SPEED : Fld := ⟨.ETH_PSTAT, 26, 24⟩
abbrev ETH_CNT_FCS_ERR : Fld := ⟨.ETH_CNT, 63, 32⟩
abbrev ETH_CNT_RX_DROP : Fld := ⟨.ETH_CNT, 31, 16⟩
abbrev ETH_CNT_LATE : Fld := ⟨.ETH_CNT, 15, 8⟩
abbrev ETH_CNT_QCI_DROP : Fld := ⟨.ETH_CNT, 7, 0⟩
abbrev ETH_LTCFG_VALUE : Fld := ⟨.ETH_LTCFG, 31, 0⟩
abbrev ETH_TSCOMP_VALUE : Fld := ⟨.ETH_TSCOMP, 31, 0⟩
abbrev ETH_GCLBASE_VALUE : Fld := ⟨.ETH_GCLBASE, 63, 0⟩
abbrev ETH_GCLCYCLE_VALUE : Fld := ⟨.ETH_GCLCYCLE, 31, 0⟩
abbrev ETH_GCLCTL_EN : Fld := ⟨.ETH_GCLCTL, 31, 31⟩
abbrev ETH_GCLCTL_CHANGE : Fld := ⟨.ETH_GCLCTL, 30, 30⟩
abbrev ETH_GCLCTL_PENDING : Fld := ⟨.ETH_GCLCTL, 29, 29⟩
abbrev ETH_GCLCTL_LEN : Fld := ⟨.ETH_GCLCTL, 8, 0⟩
abbrev ETH_PREEMPT_EN : Fld := ⟨.ETH_PREEMPT, 31, 31⟩
abbrev ETH_PREEMPT_VERIFY_FAIL : Fld := ⟨.ETH_PREEMPT, 30, 30⟩
abbrev ETH_PREEMPT_ADD_FRAG : Fld := ⟨.ETH_PREEMPT, 9, 8⟩
abbrev ETH_PREEMPT_MASK : Fld := ⟨.ETH_PREEMPT, 7, 0⟩
abbrev ETH_RBASE_BASE : Fld := ⟨.ETH_RBASE, 47, 12⟩
abbrev ETH_RCFG_EN : Fld := ⟨.ETH_RCFG, 31, 31⟩
abbrev ETH_RCFG_PARTITION : Fld := ⟨.ETH_RCFG, 30, 25⟩
abbrev ETH_RCFG_SIZE_LOG2 : Fld := ⟨.ETH_RCFG, 24, 20⟩
abbrev ETH_RCFG_IRQ_EN : Fld := ⟨.ETH_RCFG, 19, 19⟩
abbrev ETH_RCFG_IRQ_VEC : Fld := ⟨.ETH_RCFG, 10, 0⟩
abbrev ETH_RHEAD_VALUE : Fld := ⟨.ETH_RHEAD, 31, 0⟩
abbrev ETH_RDB_VALUE : Fld := ⟨.ETH_RDB, 31, 0⟩
abbrev ETH_GCL_GATES : Fld := ⟨.ETH_GCL, 39, 32⟩
abbrev ETH_GCL_INTERVAL : Fld := ⟨.ETH_GCL, 31, 0⟩
abbrev ETH_FILTER_VALUE : Fld := ⟨.ETH_FILTER, 63, 0⟩
abbrev CHR_STATUS_STATE : Fld := ⟨.CHR_STATUS, 31, 30⟩
abbrev CHR_STATUS_JUMP_PENDING : Fld := ⟨.CHR_STATUS, 29, 29⟩
abbrev CHR_STATUS_SLEWING : Fld := ⟨.CHR_STATUS, 28, 28⟩
abbrev CHR_STATUS_QUAL_A : Fld := ⟨.CHR_STATUS, 27, 27⟩
abbrev CHR_STATUS_QUAL_B : Fld := ⟨.CHR_STATUS, 26, 26⟩
abbrev CHR_CFG_ACQUIRE : Fld := ⟨.CHR_CFG, 31, 31⟩
abbrev CHR_CFG_REVERT : Fld := ⟨.CHR_CFG, 30, 30⟩
abbrev CHR_CFG_REVERT_S : Fld := ⟨.CHR_CFG, 15, 0⟩
abbrev CHR_JUMP_JUMP_NS : Fld := ⟨.CHR_JUMP, 31, 0⟩
abbrev CHR_RATE_VALUE : Fld := ⟨.CHR_RATE, 31, 0⟩
abbrev CHR_DOMCFG_EN : Fld := ⟨.CHR_DOMCFG, 31, 31⟩
abbrev CHR_DOMCFG_PORT : Fld := ⟨.CHR_DOMCFG, 11, 8⟩
abbrev CHR_DOMCFG_DOMAIN : Fld := ⟨.CHR_DOMCFG, 6, 0⟩
abbrev CHR_DOMOFF_VALUE : Fld := ⟨.CHR_DOMOFF, 63, 0⟩
abbrev CHR_DOMRATE_VALUE : Fld := ⟨.CHR_DOMRATE, 31, 0⟩
abbrev CHR_DOMSTAT_QUALIFIED : Fld := ⟨.CHR_DOMSTAT, 31, 31⟩
abbrev CHR_DOMSTAT_MISSED : Fld := ⟨.CHR_DOMSTAT, 30, 28⟩
abbrev CHR_DOMSTAT_CLOCK_CLASS : Fld := ⟨.CHR_DOMSTAT, 23, 16⟩
abbrev CHR_DOMSTAT_OUTLIERS : Fld := ⟨.CHR_DOMSTAT, 15, 0⟩
abbrev CHR_PENDING_VALUE : Fld := ⟨.CHR_PENDING, 63, 0⟩
abbrev CHR_STEPCNT_VALUE : Fld := ⟨.CHR_STEPCNT, 31, 0⟩
abbrev CHR_EVENTS_ACQUIRED : Fld := ⟨.CHR_EVENTS, 4, 4⟩
abbrev CHR_EVENTS_STEPPED : Fld := ⟨.CHR_EVENTS, 3, 3⟩
abbrev CHR_EVENTS_JUMP_REFUSED : Fld := ⟨.CHR_EVENTS, 2, 2⟩
abbrev CHR_EVENTS_HOLDOVER : Fld := ⟨.CHR_EVENTS, 1, 1⟩
abbrev CHR_EVENTS_SWITCH : Fld := ⟨.CHR_EVENTS, 0, 0⟩
abbrev GLK_CFG_NAP_EN : Fld := ⟨.GLK_CFG, 31, 31⟩
abbrev GLK_CFG_TOPO : Fld := ⟨.GLK_CFG, 25, 24⟩
abbrev GLK_CFG_X : Fld := ⟨.GLK_CFG, 23, 20⟩
abbrev GLK_CFG_Y : Fld := ⟨.GLK_CFG, 19, 16⟩
abbrev GLK_CFG_N_M1 : Fld := ⟨.GLK_CFG, 13, 8⟩
abbrev GLK_CFG_ROOT_PRIO : Fld := ⟨.GLK_CFG, 7, 0⟩
abbrev GLK_ID_CLUSTER : Fld := ⟨.GLK_ID, 19, 6⟩
abbrev GLK_ID_MEMBER : Fld := ⟨.GLK_ID, 5, 0⟩
abbrev GLK_ROOTSTAT_IS_ROOT : Fld := ⟨.GLK_ROOTSTAT, 31, 31⟩
abbrev GLK_ROOTSTAT_ELECTED : Fld := ⟨.GLK_ROOTSTAT, 30, 30⟩
abbrev GLK_ROOTSTAT_ROOT_MEMBER : Fld := ⟨.GLK_ROOTSTAT, 21, 16⟩
abbrev GLK_ROOTSTAT_ELECTIONS : Fld := ⟨.GLK_ROOTSTAT, 15, 0⟩
abbrev GLK_CLAIMCFG_PORT_WAIT_MS : Fld := ⟨.GLK_CLAIMCFG, 31, 16⟩
abbrev GLK_CLAIMCFG_CLAIM_US : Fld := ⟨.GLK_CLAIMCFG, 15, 0⟩
abbrev GLK_TIMESTAT_LOCKED : Fld := ⟨.GLK_TIMESTAT, 31, 31⟩
abbrev GLK_TIMESTAT_AGE_US : Fld := ⟨.GLK_TIMESTAT, 15, 0⟩
abbrev GLK_NAPCFG_IDLE_US : Fld := ⟨.GLK_NAPCFG, 31, 16⟩
abbrev GLK_NAPCFG_GUARD_NS : Fld := ⟨.GLK_NAPCFG, 15, 0⟩
abbrev GLK_BARSTAT_MISSED : Fld := ⟨.GLK_BARSTAT, 31, 31⟩
abbrev GLK_BARSTAT_CANCELLED : Fld := ⟨.GLK_BARSTAT, 30, 30⟩
abbrev GLK_BARSTAT_ARMED : Fld := ⟨.GLK_BARSTAT, 3, 0⟩
abbrev GLK_DIGCFG_FENCE_EN : Fld := ⟨.GLK_DIGCFG, 31, 31⟩
abbrev GLK_DIGCFG_CLEAR_S : Fld := ⟨.GLK_DIGCFG, 30, 16⟩
abbrev GLK_DIGCFG_DIGEST_GROUP : Fld := ⟨.GLK_DIGCFG, 15, 0⟩
abbrev GLK_DIGSTAT_MISMATCH : Fld := ⟨.GLK_DIGSTAT, 31, 31⟩
abbrev GLK_DIGSTAT_FENCED : Fld := ⟨.GLK_DIGSTAT, 30, 30⟩
abbrev GLK_DIGSTAT_PEERS_DIFF : Fld := ⟨.GLK_DIGSTAT, 25, 13⟩
abbrev GLK_DIGSTAT_PEERS_HEARD : Fld := ⟨.GLK_DIGSTAT, 12, 0⟩
abbrev GLK_TBREAK_THROTTLE : Fld := ⟨.GLK_TBREAK, 11, 11⟩
abbrev GLK_TBREAK_REROUTE : Fld := ⟨.GLK_TBREAK, 10, 10⟩
abbrev GLK_TBREAK_WIDTH : Fld := ⟨.GLK_TBREAK, 9, 9⟩
abbrev GLK_TBREAK_FN_STOP : Fld := ⟨.GLK_TBREAK, 8, 8⟩
abbrev GLK_TBREAK_REPAIR : Fld := ⟨.GLK_TBREAK, 7, 7⟩
abbrev GLK_TBREAK_RCOSC : Fld := ⟨.GLK_TBREAK, 6, 6⟩
abbrev GLK_TBREAK_NAP : Fld := ⟨.GLK_TBREAK, 5, 5⟩
abbrev GLK_TBREAK_OVERFLOW : Fld := ⟨.GLK_TBREAK, 4, 4⟩
abbrev GLK_TBREAK_LEND : Fld := ⟨.GLK_TBREAK, 3, 3⟩
abbrev GLK_TBREAK_REWEAVE : Fld := ⟨.GLK_TBREAK, 2, 2⟩
abbrev GLK_TBREAK_PARK : Fld := ⟨.GLK_TBREAK, 1, 1⟩
abbrev GLK_TBREAK_DIVIDER : Fld := ⟨.GLK_TBREAK, 0, 0⟩
abbrev GLK_PSTAT_STATE : Fld := ⟨.GLK_PSTAT, 31, 29⟩
abbrev GLK_PSTAT_WIDTH : Fld := ⟨.GLK_PSTAT, 28, 27⟩
abbrev GLK_PSTAT_NAP : Fld := ⟨.GLK_PSTAT, 26, 26⟩
abbrev GLK_PSTAT_REVERSED : Fld := ⟨.GLK_PSTAT, 25, 25⟩
abbrev GLK_PSTAT_PEER_VALID : Fld := ⟨.GLK_PSTAT, 24, 24⟩
abbrev GLK_PSTAT_PEER_MEMBER : Fld := ⟨.GLK_PSTAT, 19, 14⟩
abbrev GLK_PSTAT_PEER_PORT : Fld := ⟨.GLK_PSTAT, 13, 12⟩
abbrev GLK_PCNT_RETRY : Fld := ⟨.GLK_PCNT, 63, 32⟩
abbrev GLK_PCNT_RETRAIN : Fld := ⟨.GLK_PCNT, 31, 16⟩
abbrev GLK_PCNT_NAP_RESYNC : Fld := ⟨.GLK_PCNT, 15, 0⟩
abbrev GLK_PDELAY_CAL : Fld := ⟨.GLK_PDELAY, 31, 31⟩
abbrev GLK_PDELAY_DELAY : Fld := ⟨.GLK_PDELAY, 23, 0⟩
abbrev SAFE_STATUS_DEVSAFE : Fld := ⟨.SAFE_STATUS, 31, 31⟩
abbrev SAFE_STATUS_SFN : Fld := ⟨.SAFE_STATUS, 30, 30⟩
abbrev SAFE_STATUS_CAUSE : Fld := ⟨.SAFE_STATUS, 27, 24⟩
abbrev SAFE_STATUS_PAIR1_OK : Fld := ⟨.SAFE_STATUS, 1, 1⟩
abbrev SAFE_STATUS_PAIR0_OK : Fld := ⟨.SAFE_STATUS, 0, 0⟩
abbrev SAFE_CFG_TB_REACT : Fld := ⟨.SAFE_CFG, 6, 4⟩
abbrev SAFE_CFG_RCOSC_REACT : Fld := ⟨.SAFE_CFG, 2, 0⟩
abbrev SAFE_TBCFG_PERIOD_MS : Fld := ⟨.SAFE_TBCFG, 6, 0⟩
abbrev SAFE_TBSTAT_ROTATIONS : Fld := ⟨.SAFE_TBSTAT, 31, 16⟩
abbrev SAFE_TBSTAT_CHECKER : Fld := ⟨.SAFE_TBSTAT, 8, 0⟩
abbrev SAFE_WDCFG_EN : Fld := ⟨.SAFE_WDCFG, 31, 31⟩
abbrev SAFE_WDCFG_REACT : Fld := ⟨.SAFE_WDCFG, 30, 28⟩
abbrev SAFE_WDCFG_PARTITION : Fld := ⟨.SAFE_WDCFG, 27, 22⟩
abbrev SAFE_WDCFG_CONTEXT : Fld := ⟨.SAFE_WDCFG, 21, 18⟩
abbrev SAFE_WDCFG_ESC_N : Fld := ⟨.SAFE_WDCFG, 17, 14⟩
abbrev SAFE_WDSRC_START_CTR : Fld := ⟨.SAFE_WDSRC, 31, 16⟩
abbrev SAFE_WDSRC_KICK_CTR : Fld := ⟨.SAFE_WDSRC, 15, 0⟩
abbrev SAFE_WDWIN_OPEN_US : Fld := ⟨.SAFE_WDWIN, 31, 16⟩
abbrev SAFE_WDWIN_CLOSE_US : Fld := ⟨.SAFE_WDWIN, 15, 0⟩
abbrev SAFE_WDTGT_AXES : Fld := ⟨.SAFE_WDTGT, 31, 16⟩
abbrev SAFE_WDTGT_RESTART_CTR : Fld := ⟨.SAFE_WDTGT, 15, 0⟩
abbrev SAFE_WDSTAT_STATE : Fld := ⟨.SAFE_WDSTAT, 31, 30⟩
abbrev SAFE_WDSTAT_LAST : Fld := ⟨.SAFE_WDSTAT, 29, 28⟩
abbrev SAFE_WDSTAT_RUN : Fld := ⟨.SAFE_WDSTAT, 27, 24⟩
abbrev SAFE_WDSTAT_STRAY : Fld := ⟨.SAFE_WDSTAT, 23, 16⟩
abbrev SAFE_WDSTAT_T_US : Fld := ⟨.SAFE_WDSTAT, 15, 0⟩
abbrev SAFE_WDKICK_START : Fld := ⟨.SAFE_WDKICK, 1, 1⟩
abbrev SAFE_WDKICK_KICK : Fld := ⟨.SAFE_WDKICK, 0, 0⟩
abbrev LOG_RING_BASE : Fld := ⟨.LOG_RING, 47, 20⟩
abbrev LOG_MIRROR_BASE : Fld := ⟨.LOG_MIRROR, 47, 20⟩
abbrev LOG_IRQ_EN : Fld := ⟨.LOG_IRQ, 31, 31⟩
abbrev LOG_IRQ_CLASS_MASK : Fld := ⟨.LOG_IRQ, 30, 16⟩
abbrev LOG_IRQ_VEC : Fld := ⟨.LOG_IRQ, 10, 0⟩
abbrev LOG_STATUS_OVERFLOW : Fld := ⟨.LOG_STATUS, 31, 31⟩
abbrev LOG_STATUS_PERSIST_FAIL : Fld := ⟨.LOG_STATUS, 30, 30⟩
abbrev LOG_STATUS_MIRROR_LAG : Fld := ⟨.LOG_STATUS, 29, 29⟩
abbrev LOG_STATUS_PERSIST_PENDING : Fld := ⟨.LOG_STATUS, 8, 0⟩
abbrev SEC_LIFECYCLE_DEBUG_PART : Fld := ⟨.SEC_LIFECYCLE, 13, 8⟩
abbrev SEC_LIFECYCLE_DENIALS : Fld := ⟨.SEC_LIFECYCLE, 7, 6⟩
abbrev SEC_LIFECYCLE_DEBUG : Fld := ⟨.SEC_LIFECYCLE, 5, 4⟩
abbrev SEC_LIFECYCLE_STATE : Fld := ⟨.SEC_LIFECYCLE, 0, 0⟩
abbrev SEC_OTPSTAT_ROLLBACK : Fld := ⟨.SEC_OTPSTAT, 31, 24⟩
abbrev SEC_OTPSTAT_MLDSA_VALID : Fld := ⟨.SEC_OTPSTAT, 23, 20⟩
abbrev SEC_OTPSTAT_ECDSA_VALID : Fld := ⟨.SEC_OTPSTAT, 19, 16⟩
abbrev SEC_OTPSTAT_MLDSA_REVOKED : Fld := ⟨.SEC_OTPSTAT, 15, 12⟩
abbrev SEC_OTPSTAT_ECDSA_REVOKED : Fld := ⟨.SEC_OTPSTAT, 11, 8⟩
abbrev SEC_OTPSTAT_DBG_KEYS : Fld := ⟨.SEC_OTPSTAT, 1, 0⟩
abbrev SEC_DBGNONCE_VALUE : Fld := ⟨.SEC_DBGNONCE, 63, 0⟩
abbrev SEC_DBGCTL_OP : Fld := ⟨.SEC_DBGCTL, 31, 28⟩
abbrev SEC_DBGSTAT_BUSY : Fld := ⟨.SEC_DBGSTAT, 31, 31⟩
abbrev SEC_DBGSTAT_RESULT : Fld := ⟨.SEC_DBGSTAT, 30, 28⟩
abbrev SEC_OTPPROG_ITEM : Fld := ⟨.SEC_OTPPROG, 31, 28⟩
abbrev SEC_OTPPROG_INDEX : Fld := ⟨.SEC_OTPPROG, 27, 26⟩
abbrev SEC_OTPRES_RESULT : Fld := ⟨.SEC_OTPRES, 2, 0⟩
abbrev SEC_OTPDATA_VALUE : Fld := ⟨.SEC_OTPDATA, 63, 0⟩
abbrev SEC_DBGRESP_VALUE : Fld := ⟨.SEC_DBGRESP, 63, 0⟩
abbrev PCIE_CFG_ROLE : Fld := ⟨.PCIE_CFG, 31, 31⟩
abbrev PCIE_CFG_MAX_SPEED : Fld := ⟨.PCIE_CFG, 30, 28⟩
abbrev PCIE_CFG_MAX_WIDTH : Fld := ⟨.PCIE_CFG, 27, 23⟩
abbrev PCIE_CFG_NUM_VF : Fld := ⟨.PCIE_CFG, 22, 16⟩
abbrev PCIE_LSTAT_STATE : Fld := ⟨.PCIE_LSTAT, 31, 29⟩
abbrev PCIE_LSTAT_LINK_UP : Fld := ⟨.PCIE_LSTAT, 28, 28⟩
abbrev PCIE_LSTAT_SPEED : Fld := ⟨.PCIE_LSTAT, 27, 25⟩
abbrev PCIE_LSTAT_WIDTH : Fld := ⟨.PCIE_LSTAT, 24, 20⟩
abbrev PCIE_LSTAT_LTSSM : Fld := ⟨.PCIE_LSTAT, 19, 14⟩
abbrev PCIE_FNMAP_EN : Fld := ⟨.PCIE_FNMAP, 31, 31⟩
abbrev PCIE_FNMAP_PARTITION : Fld := ⟨.PCIE_FNMAP, 30, 25⟩
abbrev PCIE_OBWIN_BASE_BASE : Fld := ⟨.PCIE_OBWIN_BASE, 43, 12⟩
abbrev PCIE_OBWIN_SIZE_SIZE : Fld := ⟨.PCIE_OBWIN_SIZE, 43, 12⟩
abbrev PCIE_OBWIN_PADDR_PADDR : Fld := ⟨.PCIE_OBWIN_PADDR, 63, 12⟩
abbrev PCIE_OBWIN_ATTR_EN : Fld := ⟨.PCIE_OBWIN_ATTR, 31, 31⟩
abbrev PCIE_OBWIN_ATTR_FN : Fld := ⟨.PCIE_OBWIN_ATTR, 30, 24⟩
abbrev PCIE_IBWIN_PBASE_PBASE : Fld := ⟨.PCIE_IBWIN_PBASE, 63, 12⟩
abbrev PCIE_IBWIN_SIZE_SIZE : Fld := ⟨.PCIE_IBWIN_SIZE, 47, 12⟩
abbrev PCIE_IBWIN_UADDR_UADDR : Fld := ⟨.PCIE_IBWIN_UADDR, 47, 12⟩
abbrev PCIE_IBWIN_ATTR_EN : Fld := ⟨.PCIE_IBWIN_ATTR, 31, 31⟩
abbrev PCIE_IBWIN_ATTR_PARTITION : Fld := ⟨.PCIE_IBWIN_ATTR, 30, 25⟩
abbrev PCIE_ERR_CORR : Fld := ⟨.PCIE_ERR, 63, 48⟩
abbrev PCIE_ERR_NONFATAL : Fld := ⟨.PCIE_ERR, 47, 32⟩
abbrev PCIE_ERR_FATAL : Fld := ⟨.PCIE_ERR, 31, 16⟩
abbrev PCIE_ERR_UR : Fld := ⟨.PCIE_ERR, 15, 0⟩
abbrev DMA_CTL_GO : Fld := ⟨.DMA_CTL, 31, 31⟩
abbrev DMA_CTL_FILL : Fld := ⟨.DMA_CTL, 30, 30⟩
abbrev DMA_CTL_KVSWAP : Fld := ⟨.DMA_CTL, 29, 29⟩
abbrev DMA_CTL_SIG_EN : Fld := ⟨.DMA_CTL, 28, 28⟩
abbrev DMA_CTL_PARTITION : Fld := ⟨.DMA_CTL, 27, 22⟩
abbrev DMA_CTL_SIG_CTR : Fld := ⟨.DMA_CTL, 15, 0⟩
abbrev DMA_STAT_STATE : Fld := ⟨.DMA_STAT, 31, 29⟩
abbrev DMA_STAT_CAUSE : Fld := ⟨.DMA_STAT, 23, 16⟩

end F

/-- The register tables. -/
def Reg.info : Reg → RegInfo
  | .SYS_ID => { block := .SYS, off := 0x0, acc := .ro, fields := [(F.SYS_ID_PART, .ro), (F.SYS_ID_GRADE, .ro), (F.SYS_ID_CDIE_REV, .ro), (F.SYS_ID_IODIE_REV, .ro)] }
  | .SYS_DEVSTATE => { block := .SYS, off := 0x4, acc := .ro, fields := [(F.SYS_DEVSTATE_FN_FAULT, .ro), (F.SYS_DEVSTATE_RAM_PROFILE, .ro), (F.SYS_DEVSTATE_SELECT_SLOT, .ro), (F.SYS_DEVSTATE_SELECT_VALID, .ro), (F.SYS_DEVSTATE_SOURCE, .ro), (F.SYS_DEVSTATE_CROWN, .ro), (F.SYS_DEVSTATE_ACTIVE_SLOT, .ro), (F.SYS_DEVSTATE_DEVSTATE, .ro)] }
  | .SYS_FNSTATE0 => { block := .SYS, off := 0x10, acc := .ro, fields := [(F.SYS_FNSTATE0_VIS, .ro), (F.SYS_FNSTATE0_ADMA, .ro), (F.SYS_FNSTATE0_SCAN, .ro), (F.SYS_FNSTATE0_ME, .ro), (F.SYS_FNSTATE0_SMEM, .ro), (F.SYS_FNSTATE0_DRAM, .ro), (F.SYS_FNSTATE0_GLK, .ro), (F.SYS_FNSTATE0_ETH, .ro), (F.SYS_FNSTATE0_PCIE, .ro), (F.SYS_FNSTATE0_MGMT, .ro)] }
  | .SYS_FNSTATE1 => { block := .SYS, off := 0x14, acc := .ro, fields := [(F.SYS_FNSTATE1_APP, .ro), (F.SYS_FNSTATE1_SAFE, .ro), (F.SYS_FNSTATE1_CHR, .ro), (F.SYS_FNSTATE1_CAN, .ro), (F.SYS_FNSTATE1_MOT, .ro), (F.SYS_FNSTATE1_VID, .ro), (F.SYS_FNSTATE1_CAM, .ro)] }
  | .SYS_FNUNITS => { block := .SYS, off := 0x18, acc := .ro, fields := [(F.SYS_FNUNITS_UNITS_STOPPED, .ro)] }
  | .SYS_FNCTL => { block := .SYS, off := 0x20, acc := .wo, fields := [(F.SYS_FNCTL_OP, .wo), (F.SYS_FNCTL_FN, .wo), (F.SYS_FNCTL_UNIT, .wo)] }
  | .SYS_FNCTLSTAT => { block := .SYS, off := 0x24, acc := .ro, fields := [(F.SYS_FNCTLSTAT_BUSY, .ro), (F.SYS_FNCTLSTAT_RESULT, .ro)] }
  | .SYS_BOOTSTAT => { block := .SYS, off := 0x30, acc := .ro, fields := [(F.SYS_BOOTSTAT_CAUSE, .ro), (F.SYS_BOOTSTAT_SECTION, .ro), (F.SYS_BOOTSTAT_STEP, .ro)] }
  | .SYS_RSTCAUSE => { block := .SYS, off := 0x34, acc := .w1c, fields := [(F.SYS_RSTCAUSE_PORST, .w1c), (F.SYS_RSTCAUSE_SAFE, .w1c), (F.SYS_RSTCAUSE_THERMTRIP, .w1c), (F.SYS_RSTCAUSE_WARM_SELECT, .w1c), (F.SYS_RSTCAUSE_WARM_CMD, .w1c), (F.SYS_RSTCAUSE_POR, .w1c)] }
  | .SYS_SELECT => { block := .SYS, off := 0x40, acc := .rw, fields := [(F.SYS_SELECT_SLOT, .rw), (F.SYS_SELECT_VALID, .rw)] }
  | .SYS_GEN => { block := .SYS, off := 0x50, acc := .ro }
  | .SYS_DIGEST_TAG => { block := .SYS, off := 0x58, width := 64, acc := .ro }
  | .SYS_STAGE_ERR => { block := .SYS, off := 0x70, acc := .w1c, fields := [(F.SYS_STAGE_ERR_INITIATOR, .ro), (F.SYS_STAGE_ERR_STAGE_DENIED, .w1c)] }
  | .SYS_HARTSTATE => { block := .SYS, off := 0x78, width := 64, acc := .ro, fields := [(F.SYS_HARTSTATE_HART, .ro)] }
  | .SYS_IRQLOST => { block := .SYS, off := 0x80, acc := .rc }
  | .SYS_FNTIME => { block := .SYS, off := 0x100, stride := 0x4, count := 17, acc := .ro }
  | .SYS_DEPEND => { block := .SYS, off := 0x200, stride := 0x4, count := 17, acc := .ro, fields := [(F.SYS_DEPEND_PREREQ, .ro)] }
  | .CLK_STATUS => { block := .CLK, off := 0x0, acc := .ro, fields := [(F.CLK_STATUS_PLL_LOCK, .ro), (F.CLK_STATUS_SWITCHING, .ro), (F.CLK_STATUS_READY_RCOSC, .ro), (F.CLK_STATUS_READY_NET, .ro), (F.CLK_STATUS_READY_REFCLK, .ro), (F.CLK_STATUS_ACTIVE, .ro)] }
  | .CLK_SRCSEL => { block := .CLK, off := 0x4, acc := .rw, fields := [(F.CLK_SRCSEL_REQ, .rw)] }
  | .CLK_FLAGS => { block := .CLK, off := 0x8, acc := .w1c, fields := [(F.CLK_FLAGS_GATED_INIT, .ro), (F.CLK_FLAGS_REFUSE_REASON, .ro), (F.CLK_FLAGS_SENSCLK_RANGE, .w1c), (F.CLK_FLAGS_GATED_MULTI, .w1c), (F.CLK_FLAGS_GATE_REFUSED, .w1c), (F.CLK_FLAGS_GATED_READ, .w1c), (F.CLK_FLAGS_FALLBACK, .w1c), (F.CLK_FLAGS_SW_REFUSED, .w1c), (F.CLK_FLAGS_FALLBACK_SKIP, .w1c)] }
  | .CLK_TRIP => { block := .CLK, off := 0xc, acc := .w1c, fields := [(F.CLK_TRIP_NET_CAUSE, .w1c), (F.CLK_TRIP_PLL_UNLOCK, .w1c), (F.CLK_TRIP_REFCLK_CAUSE, .w1c)] }
  | .CLK_NETREF => { block := .CLK, off := 0x10, acc := .rw, fields := [(F.CLK_NETREF_EN, .rw), (F.CLK_NETREF_WINDOW_PPM, .rw), (F.CLK_NETREF_FREQ, .rw), (F.CLK_NETREF_SEL, .rw)] }
  | .CLK_QUAL => { block := .CLK, off := 0x14, acc := .ro, fields := [(F.CLK_QUAL_NET_US, .ro), (F.CLK_QUAL_REFCLK_COUNT, .ro)] }
  | .CLK_GATE => { block := .CLK, off := 0x40, acc := .rw, fields := [(F.CLK_GATE_EN, .rw)] }
  | .CLK_GATE_CAM => { block := .CLK, off := 0x44, acc := .rw, fields := [(F.CLK_GATE_CAM_RX_EN, .rw)] }
  | .CLK_GATE_CAN => { block := .CLK, off := 0x48, acc := .rw, fields := [(F.CLK_GATE_CAN_CTL_EN, .rw)] }
  | .CLK_SENSFREQ => { block := .CLK, off := 0x100, stride := 0x10, count := 8, acc := .rw, fields := [(F.CLK_SENSFREQ_FREQ_HZ, .rw)] }
  | .CLK_SENSCTL => { block := .CLK, off := 0x104, stride := 0x10, count := 8, acc := .rw, fields := [(F.CLK_SENSCTL_EN, .rw), (F.CLK_SENSCTL_DEPTH, .rw), (F.CLK_SENSCTL_RATE_KHZ, .rw)] }
  | .PWR_PROFILE => { block := .PWR, off := 0x0, acc := .ro, profile := true, fields := [(F.PWR_PROFILE_PROFILE, .ro), (F.PWR_PROFILE_CAP_W, .ro)] }
  | .PWR_CTL => { block := .PWR, off := 0x4, acc := .rw, profile := true, fields := [(F.PWR_CTL_DIV_MAX, .rw), (F.PWR_CTL_ME_MAX, .rw), (F.PWR_CTL_ME_MIN, .rw)] }
  | .PWR_STATUS => { block := .PWR, off := 0x8, acc := .ro, fields := [(F.PWR_STATUS_THROTTLE, .ro), (F.PWR_STATUS_PMBUS_LOST, .ro), (F.PWR_STATUS_CAP_STATE, .ro), (F.PWR_STATUS_BAND, .ro), (F.PWR_STATUS_ME_ACTIVE, .ro), (F.PWR_STATUS_CORE_DIV, .ro)] }
  | .PWR_POWER => { block := .PWR, off := 0xc, acc := .ro, fields := [(F.PWR_POWER_PEAK_DW, .ro), (F.PWR_POWER_AVG_DW, .ro)] }
  | .PWR_PARK => { block := .PWR, off := 0x10, width := 64, acc := .ro, fields := [(F.PWR_PARK_PARKED, .ro)] }
  | .PWR_VCORE => { block := .PWR, off := 0x20, acc := .ro, fields := [(F.PWR_VCORE_VCAL_MV, .ro), (F.PWR_VCORE_TARGET_MV, .ro)] }
  | .PWR_BAND => { block := .PWR, off := 0x30, stride := 0x4, count := 4, acc := .ro, fields := [(F.PWR_BAND_MEASURED, .ro), (F.PWR_BAND_GUARD, .ro), (F.PWR_BAND_OFFSET_MV, .ro), (F.PWR_BAND_TJ_MEAS, .ro)] }
  | .PWR_AVS_CTL => { block := .PWR, off := 0x40, acc := .w1s, fields := [(F.PWR_AVS_CTL_INVALIDATE, .w1s)] }
  | .PWR_DROOP_CFG => { block := .PWR, off := 0x44, acc := .rw, fields := [(F.PWR_DROOP_CFG_THRESH_MV, .rw)] }
  | .PWR_DROOP_SKIPS => { block := .PWR, off := 0x48, width := 64, acc := .ro }
  | .PWR_TEMP => { block := .PWR, off := 0x50, acc := .ro, fields := [(F.PWR_TEMP_SENSOR, .ro), (F.PWR_TEMP_TJ, .ro)] }
  | .PWR_TLIMITS => { block := .PWR, off := 0x54, acc := .ro, fields := [(F.PWR_TLIMITS_TRIP_C, .ro), (F.PWR_TLIMITS_THROTTLE_C, .ro)] }
  | .PWR_EVENTS => { block := .PWR, off := 0x58, acc := .w1c, fields := [(F.PWR_EVENTS_AVS_GUARD, .w1c), (F.PWR_EVENTS_THROTTLE, .w1c), (F.PWR_EVENTS_PMBUS_LOST, .w1c), (F.PWR_EVENTS_CAP_UNMET, .w1c), (F.PWR_EVENTS_CAP_ACTIVE, .w1c)] }
  | .CMDQ_QBASE => { block := .CMDQ, off := 0x0, stride := 0x20, count := 8192, width := 64, acc := .rw, profile := true, fields := [(F.CMDQ_QBASE_BASE, .rw)] }
  | .CMDQ_QCPLBASE => { block := .CMDQ, off := 0x8, stride := 0x20, count := 8192, width := 64, acc := .rw, profile := true, fields := [(F.CMDQ_QCPLBASE_BASE, .rw)] }
  | .CMDQ_QCFG => { block := .CMDQ, off := 0x10, stride := 0x20, count := 8192, acc := .rw, profile := true, fields := [(F.CMDQ_QCFG_EN, .rw), (F.CMDQ_QCFG_TRANSPORT, .rw), (F.CMDQ_QCFG_CPL_MODE, .rw), (F.CMDQ_QCFG_SQ_LOG2, .rw), (F.CMDQ_QCFG_CQ_LOG2, .rw), (F.CMDQ_QCFG_PARTITION, .rw), (F.CMDQ_QCFG_IRQ_EN, .rw), (F.CMDQ_QCFG_IRQ_VEC, .rw)] }
  | .CMDQ_QHEAD => { block := .CMDQ, off := 0x14, stride := 0x20, count := 8192, acc := .rw }
  | .CMDQ_QCPLHEAD => { block := .CMDQ, off := 0x18, stride := 0x20, count := 8192, acc := .rw }
  | .CMDQ_QSTAT => { block := .CMDQ, off := 0x1c, stride := 0x20, count := 8192, acc := .ro, fields := [(F.CMDQ_QSTAT_STATE, .ro), (F.CMDQ_QSTAT_OPS, .ro)] }
  | .CMDQ_DB => { block := .CMDQ, off := 0x40000, stride := 0x4, count := 8192, acc := .wo }
  | .CMDQ_QTAIL => { block := .CMDQ, off := 0x50000, stride := 0x8, count := 8192, acc := .ro }
  | .CMDQ_QSEQ => { block := .CMDQ, off := 0x50004, stride := 0x8, count := 8192, acc := .ro }
  | .CMDQ_ERR => { block := .CMDQ, off := 0x80000, acc := .w1c, fields := [(F.CMDQ_ERR_HCRC, .w1c), (F.CMDQ_ERR_TCRC, .w1c), (F.CMDQ_ERR_DB_DENIED, .w1c), (F.CMDQ_ERR_DB_STATE, .w1c), (F.CMDQ_ERR_DB_OVERRUN, .w1c), (F.CMDQ_ERR_UDP_DROP, .w1c), (F.CMDQ_ERR_INITIATOR, .ro), (F.CMDQ_ERR_RING_FAULT, .w1c), (F.CMDQ_ERR_QUEUE, .ro)] }
  | .CMDQ_ERRCNT => { block := .CMDQ, off := 0x80008, width := 64, acc := .rc, fields := [(F.CMDQ_ERRCNT_HCRC_CNT, .rc), (F.CMDQ_ERRCNT_TCRC_CNT, .rc), (F.CMDQ_ERRCNT_DB_CNT, .rc), (F.CMDQ_ERRCNT_UDP_DROP_CNT, .rc)] }
  | .CMDQ_UDPCFG => { block := .CMDQ, off := 0x80010, acc := .ro, profile := true, fields := [(F.CMDQ_UDPCFG_PORT, .ro), (F.CMDQ_UDPCFG_ACK_EVERY, .ro), (F.CMDQ_UDPCFG_ACK_US, .ro)] }
  | .CMDQ_UDPMTU => { block := .CMDQ, off := 0x80014, acc := .ro, profile := true, fields := [(F.CMDQ_UDPMTU_MTU, .ro)] }
  | .CMDQ_OPTAB => { block := .CMDQ, off := 0x80020, acc := .ro, fields := [(F.CMDQ_OPTAB_HIGH, .ro), (F.CMDQ_OPTAB_IN_USE, .ro)] }
  | .CMDQ_OPQUOTA => { block := .CMDQ, off := 0x80100, stride := 0x4, count := 64, acc := .ro, profile := true, fields := [(F.CMDQ_OPQUOTA_QUOTA, .ro), (F.CMDQ_OPQUOTA_USED, .ro)] }
  | .SYNC_CTR => { block := .SYNC, off := 0x0, stride := 0x8, count := 65536, width := 64, acc := .ro }
  | .SYNC_ADD => { block := .SYNC, off := 0x80000, stride := 0x4, count := 65536, acc := .wo }
  | .SYNC_RANGE => { block := .SYNC, off := 0xc0000, stride := 0x8, count := 64, width := 64, acc := .rw, profile := true, fields := [(F.SYNC_RANGE_EN, .rw), (F.SYNC_RANGE_PARTITION, .rw), (F.SYNC_RANGE_COUNT, .rw), (F.SYNC_RANGE_BASE, .rw)] }
  | .SYNC_STATUS => { block := .SYNC, off := 0xc0200, acc := .w1c, fields := [(F.SYNC_STATUS_SATURATED, .w1c), (F.SYNC_STATUS_DENIED, .w1c), (F.SYNC_STATUS_RANGE_REFUSED, .w1c), (F.SYNC_STATUS_INITIATOR, .ro), (F.SYNC_STATUS_COUNTER, .ro)] }
  | .SYNC_LAT => { block := .SYNC, off := 0xc0210, acc := .rc, fields := [(F.SYNC_LAT_MAX, .rc), (F.SYNC_LAT_MIN, .rc)] }
  | .SYNC_WATCHCFG => { block := .SYNC, off := 0xc1000, stride := 0x10, count := 256, acc := .rw, fields := [(F.SYNC_WATCHCFG_ARMED, .rw), (F.SYNC_WATCHCFG_FIRED, .w1c), (F.SYNC_WATCHCFG_DEST, .rw), (F.SYNC_WATCHCFG_VECTOR, .rw), (F.SYNC_WATCHCFG_COUNTER, .rw)] }
  | .SYNC_WATCHVAL => { block := .SYNC, off := 0xc1008, stride := 0x10, count := 256, width := 64, acc := .rw }
  | .ESC_CFG => { block := .ESC, off := 0x0, acc := .rwl, profile := true, fields := [(F.ESC_CFG_Q_US, .ro), (F.ESC_CFG_HOLD_CYC, .rwl)] }
  | .ESC_QCYC => { block := .ESC, off := 0x4, acc := .ro, profile := true }
  | .ESC_STATUS => { block := .ESC, off := 0x10, acc := .w1c, fields := [(F.ESC_STATUS_TEARDOWN, .w1c), (F.ESC_STATUS_RUN_LIMIT, .w1c), (F.ESC_STATUS_MULTI, .w1c), (F.ESC_STATUS_GUARD, .w1c), (F.ESC_STATUS_PARTITION, .ro), (F.ESC_STATUS_CONTEXT, .ro)] }
  | .ESC_GUARD => { block := .ESC, off := 0x20, acc := .rw, profile := true, fields := [(F.ESC_GUARD_EN, .rw), (F.ESC_GUARD_EPOCH_MS, .rw)] }
  | .ESC_REPAIR => { block := .ESC, off := 0x40, acc := .wo, fields := [(F.ESC_REPAIR_OP, .wo), (F.ESC_REPAIR_PERSIST, .wo), (F.ESC_REPAIR_SPARE, .wo), (F.ESC_REPAIR_SLOT, .wo)] }
  | .ESC_REPSTAT => { block := .ESC, off := 0x44, width := 64, acc := .ro, fields := [(F.ESC_REPSTAT_SPARES, .ro), (F.ESC_REPSTAT_RESULT, .ro), (F.ESC_REPSTAT_OTP_USED, .ro)] }
  | .ESC_DISABLED => { block := .ESC, off := 0x48, width := 64, acc := .ro, fields := [(F.ESC_DISABLED_FAILED, .ro)] }
  | .ESC_PCFG => { block := .ESC, off := 0x1000, stride := 0x100, count := 64, acc := .rwl, profile := true, fields := [(F.ESC_PCFG_STATE, .ro), (F.ESC_PCFG_SHARES, .rwl)] }
  | .ESC_RESV => { block := .ESC, off := 0x1008, stride := 0x100, count := 64, width := 64, acc := .rwl, profile := true, fields := [(F.ESC_RESV_LEND, .rwl), (F.ESC_RESV_VIS, .rwl), (F.ESC_RESV_ADMA, .rwl), (F.ESC_RESV_SCAN, .rwl), (F.ESC_RESV_ME, .rwl)] }
  | .ESC_DREG => { block := .ESC, off := 0x1010, stride := 0x100, count := 64, width := 64, acc := .rwl, profile := true, fields := [(F.ESC_DREG_LIMIT, .rwl), (F.ESC_DREG_GUAR, .rwl)] }
  | .ESC_SREG => { block := .ESC, off := 0x1018, stride := 0x100, count := 64, width := 64, acc := .rwl, profile := true, fields := [(F.ESC_SREG_LIMIT, .rwl), (F.ESC_SREG_GUAR, .rwl)] }
  | .ESC_REGSTAT => { block := .ESC, off := 0x1020, stride := 0x100, count := 64, width := 64, acc := .rc, fields := [(F.ESC_REGSTAT_DRAM_HELD, .rc), (F.ESC_REGSTAT_SMEM_HELD, .rc)] }
  | .ESC_P99 => { block := .ESC, off := 0x1028, stride := 0x100, count := 64, acc := .rw, profile := true, fields := [(F.ESC_P99_TARGET_US, .rw), (F.ESC_P99_P99_US, .ro)] }
  | .ESC_VTIME => { block := .ESC, off := 0x1040, stride := 0x100, count := 64, stride2 := 0x8, count2 := 7, width := 64, acc := .ro, fields := [(F.ESC_VTIME_V, .ro)] }
  | .ESC_PTIME => { block := .ESC, off := 0x1080, stride := 0x100, count := 64, stride2 := 0x8, count2 := 7, width := 64, acc := .ro, fields := [(F.ESC_PTIME_T, .ro)] }
  | .ESC_CTX => { block := .ESC, off := 0x10c0, stride := 0x100, count := 64, stride2 := 0x4, count2 := 16, acc := .rwl, profile := true, fields := [(F.ESC_CTX_STATE, .ro), (F.ESC_CTX_QCOUNT, .rwl), (F.ESC_CTX_QBASE, .rwl)] }
  | .MEMC_CAP => { block := .MEMC, off := 0x0, acc := .ro, fields := [(F.MEMC_CAP_FRAMES, .ro), (F.MEMC_CAP_TOP_GIB, .ro), (F.MEMC_CAP_RESERVE_FRAME, .ro), (F.MEMC_CAP_CHANNELS, .ro)] }
  | .MEMC_CFG => { block := .MEMC, off := 0x4, acc := .rwl, profile := true, fields := [(F.MEMC_CFG_REPEATABLE, .ro), (F.MEMC_CFG_KEY_FIXED, .ro), (F.MEMC_CFG_REWEAVE_EN, .rwl), (F.MEMC_CFG_RESERVE, .ro), (F.MEMC_CFG_ECC_EN, .ro)] }
  | .MEMC_KEY => { block := .MEMC, off := 0x10, stride := 0x4, count := 3, acc := .wo }
  | .MEMC_HS_CFG => { block := .MEMC, off := 0x20, acc := .rw, fields := [(F.MEMC_HS_CFG_MIN_MEAN, .rw)] }
  | .MEMC_HS_STAT => { block := .MEMC, off := 0x24, acc := .w1c, fields := [(F.MEMC_HS_STAT_HOTSPOT, .w1c), (F.MEMC_HS_STAT_RW_SKIPPED, .w1c), (F.MEMC_HS_STAT_REGION, .ro), (F.MEMC_HS_STAT_CHANNEL, .ro)] }
  | .MEMC_RW_CTL => { block := .MEMC, off := 0x40, acc := .w1s, fields := [(F.MEMC_RW_CTL_START, .w1s), (F.MEMC_RW_CTL_ABORT, .w1s), (F.MEMC_RW_CTL_CLEAR_ECC_BLOCK, .w1s), (F.MEMC_RW_CTL_REGION, .wo)] }
  | .MEMC_RW_CFG => { block := .MEMC, off := 0x44, acc := .rw, fields := [(F.MEMC_RW_CFG_HOLDOFF_MS, .rw), (F.MEMC_RW_CFG_RATE_GBPS, .rw)] }
  | .MEMC_RW_STAT => { block := .MEMC, off := 0x48, acc := .ro, fields := [(F.MEMC_RW_STAT_STATE, .ro), (F.MEMC_RW_STAT_LAST_ABORT, .ro), (F.MEMC_RW_STAT_REGION, .ro), (F.MEMC_RW_STAT_FROM_FRAME, .ro), (F.MEMC_RW_STAT_TO_FRAME, .ro)] }
  | .MEMC_RW_PTR => { block := .MEMC, off := 0x50, acc := .ro }
  | .MEMC_RW_COUNT => { block := .MEMC, off := 0x54, acc := .ro, fields := [(F.MEMC_RW_COUNT_ABORTS, .ro), (F.MEMC_RW_COUNT_DONE, .ro)] }
  | .MEMC_ECC_STAT => { block := .MEMC, off := 0x60, width := 64, acc := .rc, fields := [(F.MEMC_ECC_STAT_DRAM_UE, .rc), (F.MEMC_ECC_STAT_DRAM_CE, .rc), (F.MEMC_ECC_STAT_SMEM_UE, .rc), (F.MEMC_ECC_STAT_SMEM_CE, .rc)] }
  | .MEMC_ECC_ADDR => { block := .MEMC, off := 0x68, width := 64, acc := .w1c, fields := [(F.MEMC_ECC_ADDR_VALID, .w1c), (F.MEMC_ECC_ADDR_ADDR, .ro)] }
  | .MEMC_SCRUB => { block := .MEMC, off := 0x70, acc := .rw, profile := true, fields := [(F.MEMC_SCRUB_EN, .rw), (F.MEMC_SCRUB_SCRUB_HOURS, .rw)] }
  | .MEMC_OCC => { block := .MEMC, off := 0x100, stride := 0x4, count := 64, acc := .ro, fields := [(F.MEMC_OCC_MAX, .ro), (F.MEMC_OCC_LAST, .ro)] }
  | .MEMC_REGION => { block := .MEMC, off := 0x1000, stride := 0x4, count := 192, acc := .ro, fields := [(F.MEMC_REGION_PRESENT, .ro), (F.MEMC_REGION_ECC_BLOCKED, .ro), (F.MEMC_REGION_KEY_GEN, .ro), (F.MEMC_REGION_FRAME, .ro)] }
  | .FWL_DENY => { block := .FWL, off := 0x0, width := 64, acc := .w1c, fields := [(F.FWL_DENY_VALID, .w1c), (F.FWL_DENY_LOCKED, .w1c), (F.FWL_DENY_WRITE, .ro), (F.FWL_DENY_TARGET, .ro), (F.FWL_DENY_INITIATOR, .ro), (F.FWL_DENY_ADDR, .ro)] }
  | .FWL_DENYCNT => { block := .FWL, off := 0x8, acc := .rc }
  | .FWL_RBASE => { block := .FWL, off := 0x10000, stride := 0x10000, count := 4, stride2 := 0x20, count2 := 64, width := 64, acc := .rw, profile := true, fields := [(F.FWL_RBASE_ADDR, .rw)] }
  | .FWL_RLIMIT => { block := .FWL, off := 0x10008, stride := 0x10000, count := 4, stride2 := 0x20, count2 := 64, width := 64, acc := .rw, profile := true, fields := [(F.FWL_RLIMIT_ADDR, .rw)] }
  | .FWL_RATTR => { block := .FWL, off := 0x10010, stride := 0x10000, count := 4, stride2 := 0x20, count2 := 64, acc := .rw, profile := true, fields := [(F.FWL_RATTR_EN, .rw), (F.FWL_RATTR_RD, .rw), (F.FWL_RATTR_WR, .rw), (F.FWL_RATTR_ANY_PART, .rw), (F.FWL_RATTR_PART, .rw), (F.FWL_RATTR_CLASS_MASK, .rw)] }
  | .ME_PHYS => { block := .ME, off := 0x0, stride := 0x10000, count := 32, acc := .ro, fields := [(F.ME_PHYS_SLOT, .ro), (F.ME_PHYS_PHYS, .ro)] }
  | .ME_STATE => { block := .ME, off := 0x4, stride := 0x10000, count := 32, acc := .ro, fields := [(F.ME_STATE_STATE, .ro), (F.ME_STATE_PARKED, .ro), (F.ME_STATE_PINNED, .ro), (F.ME_STATE_FAMILY, .ro), (F.ME_STATE_PARTITION, .ro)] }
  | .ME_BASE => { block := .ME, off := 0x10, stride := 0x10000, count := 32, stride2 := 0x8, count2 := 4, width := 64, acc := .ro, fields := [(F.ME_BASE_BASE, .ro)] }
  | .ME_MASKTAB => { block := .ME, off := 0x30, stride := 0x10000, count := 32, width := 64, acc := .ro, fields := [(F.ME_MASKTAB_BASE, .ro)] }
  | .ME_FAULT => { block := .ME, off := 0x40, stride := 0x10000, count := 32, width := 64, acc := .w1c, fields := [(F.ME_FAULT_VALID, .w1c), (F.ME_FAULT_CAUSE, .ro), (F.ME_FAULT_ADDR, .ro)] }
  | .ME_FLAGS => { block := .ME, off := 0x48, stride := 0x10000, count := 32, acc := .w1c, fields := [(F.ME_FLAGS_NAN_OUT, .w1c), (F.ME_FLAGS_INF, .w1c), (F.ME_FLAGS_PROD_OVF, .w1c), (F.ME_FLAGS_ACC_OVF, .w1c), (F.ME_FLAGS_SAT, .w1c)] }
  | .ME_COUNTS => { block := .ME, off := 0x50, stride := 0x10000, count := 32, width := 64, acc := .rc, fields := [(F.ME_COUNTS_SAT_CNT, .rc), (F.ME_COUNTS_OVF_CNT, .rc), (F.ME_COUNTS_NAN_CNT, .rc)] }
  | .ME_VEC => { block := .ME, off := 0x58, stride := 0x10000, count := 32, width := 64, acc := .ro }
  | .ME_BUBBLE => { block := .ME, off := 0x60, stride := 0x10000, count := 32, width := 64, acc := .ro, fields := [(F.ME_BUBBLE_FEED, .ro), (F.ME_BUBBLE_DRAIN, .ro)] }
  | .ME_BUSY => { block := .ME, off := 0x68, stride := 0x10000, count := 32, width := 64, acc := .ro }
  | .ME_ECC => { block := .ME, off := 0x70, stride := 0x10000, count := 32, acc := .rc, fields := [(F.ME_ECC_UE, .rc), (F.ME_ECC_CE, .rc)] }
  | .ME_EWPLIST => { block := .ME, off := 0x80, stride := 0x10000, count := 32, width := 64, acc := .ro, fields := [(F.ME_EWPLIST_BASE, .ro)] }
  | .ME_EWPTAB => { block := .ME, off := 0x88, stride := 0x10000, count := 32, acc := .ro, fields := [(F.ME_EWPTAB_SLOTS, .ro), (F.ME_EWPTAB_VERSION, .ro)] }
  | .ME_EWPCNT => { block := .ME, off := 0x90, stride := 0x10000, count := 32, width := 64, acc := .rc, fields := [(F.ME_EWPCNT_RANGE, .rc), (F.ME_EWPCNT_GROUP_SKIP, .rc), (F.ME_EWPCNT_NAN_IN, .rc)] }
  | .ME_WINDESC => { block := .ME, off := 0xa0, stride := 0x10000, count := 32, width := 64, acc := .ro, fields := [(F.ME_WINDESC_BASE, .ro)] }
  | .SCAN_SLOTBASE => { block := .SCAN, off := 0x0, width := 64, acc := .ro, profile := true, fields := [(F.SCAN_SLOTBASE_BASE, .ro)] }
  | .SCAN_SLOTCFG => { block := .SCAN, off := 0x8, acc := .ro, profile := true, fields := [(F.SCAN_SLOTCFG_COUNT, .ro), (F.SCAN_SLOTCFG_SLOT_KIB, .ro)] }
  | .SCAN_SLOTSTAT => { block := .SCAN, off := 0x10, acc := .ro, fields := [(F.SCAN_SLOTSTAT_RESIDENT, .ro), (F.SCAN_SLOTSTAT_PINNED, .ro)] }
  | .SCAN_SWAPCNT => { block := .SCAN, off := 0x18, width := 64, acc := .rc, fields := [(F.SCAN_SWAPCNT_SWAP_IN, .rc), (F.SCAN_SWAPCNT_SWAP_OUT, .rc)] }
  | .SCAN_SWAPCFG => { block := .SCAN, off := 0x20, acc := .rw, profile := true }
  | .SCAN_PINCTL => { block := .SCAN, off := 0x30, width := 64, acc := .wo, fields := [(F.SCAN_PINCTL_OP, .wo), (F.SCAN_PINCTL_PARTITION, .wo), (F.SCAN_PINCTL_ME_SLOT, .wo), (F.SCAN_PINCTL_SEQ, .wo)] }
  | .SCAN_PINSTAT => { block := .SCAN, off := 0x38, acc := .ro, fields := [(F.SCAN_PINSTAT_BUSY, .ro), (F.SCAN_PINSTAT_RESULT, .ro), (F.SCAN_PINSTAT_COLUMNS, .ro)] }
  | .SCAN_QUOTA => { block := .SCAN, off := 0x100, stride := 0x4, count := 64, acc := .ro, profile := true, fields := [(F.SCAN_QUOTA_QUOTA, .ro), (F.SCAN_QUOTA_USED, .ro)] }
  | .SCAN_ESTATE => { block := .SCAN, off := 0x10000, stride := 0x10000, count := 8, acc := .ro, fields := [(F.SCAN_ESTATE_STATE, .ro), (F.SCAN_ESTATE_PARTITION, .ro), (F.SCAN_ESTATE_MODE, .ro)] }
  | .SCAN_FAULT => { block := .SCAN, off := 0x10008, stride := 0x10000, count := 8, width := 64, acc := .w1c, fields := [(F.SCAN_FAULT_VALID, .w1c), (F.SCAN_FAULT_CAUSE, .ro), (F.SCAN_FAULT_SEQ, .ro)] }
  | .SCAN_SAT => { block := .SCAN, off := 0x10010, stride := 0x10000, count := 8, width := 64, acc := .rc, fields := [(F.SCAN_SAT_SAT_CNT, .rc), (F.SCAN_SAT_NAN_CNT, .rc)] }
  | .SCAN_BUSY => { block := .SCAN, off := 0x10018, stride := 0x10000, count := 8, width := 64, acc := .ro }
  | .ADMA_POOL => { block := .ADMA, off := 0x0, width := 64, acc := .ro, profile := true, fields := [(F.ADMA_POOL_PAGE_COUNT, .ro), (F.ADMA_POOL_PAGE_FIRST, .ro)] }
  | .ADMA_STACKBASE => { block := .ADMA, off := 0x8, width := 64, acc := .ro, profile := true, fields := [(F.ADMA_STACKBASE_BASE, .ro)] }
  | .ADMA_STACKCNT => { block := .ADMA, off := 0x10, width := 64, acc := .ro, fields := [(F.ADMA_STACKCNT_RES_OUT, .ro), (F.ADMA_STACKCNT_COUNT, .ro)] }
  | .ADMA_PUSH => { block := .ADMA, off := 0x18, acc := .wo }
  | .ADMA_PMCFG => { block := .ADMA, off := 0x1c, acc := .rw, fields := [(F.ADMA_PMCFG_IDLE_MS, .rw), (F.ADMA_PMCFG_T_PARK_MS, .rw)] }
  | .ADMA_PMSTAT => { block := .ADMA, off := 0x20, acc := .ro, fields := [(F.ADMA_PMSTAT_PARKED, .ro), (F.ADMA_PMSTAT_DEMAND, .ro)] }
  | .ADMA_STATUS => { block := .ADMA, off := 0x24, acc := .w1c, fields := [(F.ADMA_STATUS_STARVED, .w1c), (F.ADMA_STATUS_TERMINATED, .w1c), (F.ADMA_STATUS_NODE_FULL, .w1c), (F.ADMA_STATUS_DOUBLE_FREE, .w1c), (F.ADMA_STATUS_LAYOUT, .w1c), (F.ADMA_STATUS_OWNER, .w1c), (F.ADMA_STATUS_INITIATOR, .ro)] }
  | .ADMA_PIUCNT => { block := .ADMA, off := 0x28, width := 64, acc := .rc, fields := [(F.ADMA_PIUCNT_HIT, .rc), (F.ADMA_PIUCNT_MISS, .rc), (F.ADMA_PIUCNT_COLLIDE, .rc)] }
  | .ADMA_NODEBASE => { block := .ADMA, off := 0x40, width := 64, acc := .ro, profile := true, fields := [(F.ADMA_NODEBASE_BASE, .ro)] }
  | .ADMA_BKTBASE => { block := .ADMA, off := 0x48, width := 64, acc := .ro, profile := true, fields := [(F.ADMA_BKTBASE_BASE, .ro)] }
  | .ADMA_NODECFG => { block := .ADMA, off := 0x50, acc := .ro, profile := true, fields := [(F.ADMA_NODECFG_NODE_LOG2, .ro), (F.ADMA_NODECFG_BKT_LOG2, .ro), (F.ADMA_NODECFG_NODE_COUNT, .ro)] }
  | .ADMA_LAYOUT => { block := .ADMA, off := 0x100, stride := 0x8, count := 64, width := 64, acc := .rw, profile := true, fields := [(F.ADMA_LAYOUT_VALID, .rw), (F.ADMA_LAYOUT_PREFIX_EN, .rw), (F.ADMA_LAYOUT_PARTITION, .rw), (F.ADMA_LAYOUT_P_LOG2, .rw), (F.ADMA_LAYOUT_KFMT, .rw), (F.ADMA_LAYOUT_NL_FULL, .rw), (F.ADMA_LAYOUT_NL_RING, .rw), (F.ADMA_LAYOUT_W_PAGES, .rw), (F.ADMA_LAYOUT_WINDOW, .rw)] }
  | .ADMA_SEQTAB => { block := .ADMA, off := 0x2000, stride := 0x40, count := 64, width := 64, acc := .ro, profile := true, fields := [(F.ADMA_SEQTAB_BASE, .ro)] }
  | .ADMA_SEQCNT => { block := .ADMA, off := 0x2008, stride := 0x40, count := 64, acc := .ro, profile := true, fields := [(F.ADMA_SEQCNT_SEQCNT, .ro)] }
  | .ADMA_PHELD => { block := .ADMA, off := 0x200c, stride := 0x40, count := 64, acc := .ro, fields := [(F.ADMA_PHELD_HELD, .ro)] }
  | .ADMA_PQUOTA => { block := .ADMA, off := 0x2010, stride := 0x40, count := 64, width := 64, acc := .ro, profile := true, fields := [(F.ADMA_PQUOTA_QUOTA, .ro), (F.ADMA_PQUOTA_RESERVE, .ro)] }
  | .ADMA_BACKING => { block := .ADMA, off := 0x2018, stride := 0x40, count := 64, width := 64, acc := .ro, profile := true, fields := [(F.ADMA_BACKING_MODE, .ro), (F.ADMA_BACKING_SIZE_GIB, .ro), (F.ADMA_BACKING_BASE, .ro)] }
  | .ADMA_APDTAB => { block := .ADMA, off := 0x2020, stride := 0x40, count := 64, width := 64, acc := .ro, profile := true, fields := [(F.ADMA_APDTAB_ENTRIES, .ro), (F.ADMA_APDTAB_BASE, .ro)] }
  | .ADMA_HKEY => { block := .ADMA, off := 0x2030, stride := 0x40, count := 64, stride2 := 0x8, count2 := 2, width := 64, acc := .wo, fields := [(F.ADMA_HKEY_KEY, .wo)] }
  | .ADMA_ESTATE => { block := .ADMA, off := 0x10000, stride := 0x10000, count := 8, acc := .ro, fields := [(F.ADMA_ESTATE_STATE, .ro), (F.ADMA_ESTATE_PARTITION, .ro), (F.ADMA_ESTATE_MODE, .ro)] }
  | .ADMA_FAULT => { block := .ADMA, off := 0x10008, stride := 0x10000, count := 8, width := 64, acc := .w1c, fields := [(F.ADMA_FAULT_VALID, .w1c), (F.ADMA_FAULT_CAUSE, .ro), (F.ADMA_FAULT_PARTITION, .ro), (F.ADMA_FAULT_SEQ, .ro)] }
  | .VIS_OVCFG => { block := .VIS, off := 0x0, acc := .rw, profile := true, fields := [(F.VIS_OVCFG_EN, .rw), (F.VIS_OVCFG_THRESH_US, .rw)] }
  | .VIS_OVCNT => { block := .VIS, off := 0x8, width := 64, acc := .rc, fields := [(F.VIS_OVCNT_ROUTED, .rc), (F.VIS_OVCNT_OVER_KEPT, .rc)] }
  | .VIS_BACKLOG => { block := .VIS, off := 0x10, stride := 0x4, count := 4, acc := .ro }
  | .VIS_USTATE => { block := .VIS, off := 0x10000, stride := 0x10000, count := 12, acc := .ro, fields := [(F.VIS_USTATE_STATE, .ro), (F.VIS_USTATE_PARTITION, .ro)] }
  | .VIS_UFAULT => { block := .VIS, off := 0x10008, stride := 0x10000, count := 12, width := 64, acc := .w1c, fields := [(F.VIS_UFAULT_VALID, .w1c), (F.VIS_UFAULT_CAUSE, .ro), (F.VIS_UFAULT_ADDR, .ro)] }
  | .VIS_USAT => { block := .VIS, off := 0x10010, stride := 0x10000, count := 12, width := 64, acc := .rc, fields := [(F.VIS_USAT_SAT_CNT, .rc), (F.VIS_USAT_PARTIAL, .rc)] }
  | .VIS_UBUSY => { block := .VIS, off := 0x10018, stride := 0x10000, count := 12, width := 64, acc := .ro }
  | .CAM_RXCFG => { block := .CAM, off := 0x1000, stride := 0x40, count := 16, acc := .rwl, profile := true, fields := [(F.CAM_RXCFG_SCRAMBLE, .rwl), (F.CAM_RXCFG_PHY, .rwl), (F.CAM_RXCFG_LANES, .rwl), (F.CAM_RXCFG_RATE, .rwl)] }
  | .CAM_RXSTAT => { block := .CAM, off := 0x1004, stride := 0x40, count := 16, acc := .ro, fields := [(F.CAM_RXSTAT_STATE, .ro), (F.CAM_RXSTAT_LANES_UP, .ro)] }
  | .CAM_RXERR => { block := .CAM, off := 0x1008, stride := 0x40, count := 16, width := 64, acc := .rc, fields := [(F.CAM_RXERR_ECC_CORR, .rc), (F.CAM_RXERR_ECC_UNCORR, .rc), (F.CAM_RXERR_CRC, .rc), (F.CAM_RXERR_LEN, .rc), (F.CAM_RXERR_OVF, .rc), (F.CAM_RXERR_ORPHAN, .rc)] }
  | .CAM_SENSCFG => { block := .CAM, off := 0x2000, stride := 0x40, count := 16, acc := .ro, profile := true, fields := [(F.CAM_SENSCFG_PARTITION, .ro), (F.CAM_SENSCFG_L_E, .ro), (F.CAM_SENSCFG_L_G, .ro), (F.CAM_SENSCFG_I3C, .ro), (F.CAM_SENSCFG_ADDR, .ro)] }
  | .CAM_EXPO => { block := .CAM, off := 0x2008, stride := 0x40, count := 16, acc := .rw }
  | .CAM_GAIN => { block := .CAM, off := 0x200c, stride := 0x40, count := 16, acc := .rw }
  | .CAM_EXPO_COMMIT => { block := .CAM, off := 0x2010, stride := 0x40, count := 16, acc := .wo }
  | .CAM_EXPOGEN => { block := .CAM, off := 0x2018, stride := 0x40, count := 16, width := 64, acc := .ro, fields := [(F.CAM_EXPOGEN_COMMITTED, .ro), (F.CAM_EXPOGEN_ISSUED, .ro), (F.CAM_EXPOGEN_GAIN_GEN, .ro), (F.CAM_EXPOGEN_EXPO_GEN, .ro)] }
  | .CAM_SENSSTAT => { block := .CAM, off := 0x2020, stride := 0x40, count := 16, acc := .ro, fields := [(F.CAM_SENSSTAT_LATE_CNT, .rc), (F.CAM_SENSSTAT_FAIL_CNT, .rc), (F.CAM_SENSSTAT_FRAME, .ro)] }
  | .CAM_CTXCFG => { block := .CAM, off := 0x3000, stride := 0x40, count := 32, acc := .rwl, profile := true, fields := [(F.CAM_CTXCFG_EN, .rwl), (F.CAM_CTXCFG_MODE, .rwl), (F.CAM_CTXCFG_PIPE, .rwl), (F.CAM_CTXCFG_PARTITION, .rwl), (F.CAM_CTXCFG_DT, .rwl), (F.CAM_CTXCFG_VC, .rwl), (F.CAM_CTXCFG_RX, .rwl), (F.CAM_CTXCFG_NBUF, .rwl)] }
  | .CAM_CTXSIZE => { block := .CAM, off := 0x3004, stride := 0x40, count := 32, acc := .rwl, profile := true }
  | .CAM_CTXTIME => { block := .CAM, off := 0x3008, stride := 0x40, count := 32, acc := .rwl, profile := true, fields := [(F.CAM_CTXTIME_IN_LINES, .ro), (F.CAM_CTXTIME_FE_TIMEOUT_US, .rwl)] }
  | .CAM_CTXBUF => { block := .CAM, off := 0x3010, stride := 0x40, count := 32, width := 64, acc := .rwl, profile := true, fields := [(F.CAM_CTXBUF_BASE, .rwl)] }
  | .CAM_CTXFSTAT => { block := .CAM, off := 0x3018, stride := 0x40, count := 32, width := 64, acc := .rwl, profile := true, fields := [(F.CAM_CTXFSTAT_BASE, .rwl)] }
  | .CAM_CTXSTAT => { block := .CAM, off := 0x3020, stride := 0x40, count := 32, width := 64, acc := .rwl, profile := true, fields := [(F.CAM_CTXSTAT_STAT_LOG2, .rwl), (F.CAM_CTXSTAT_BASE, .rwl)] }
  | .CAM_CTXSYNC => { block := .CAM, off := 0x3028, stride := 0x40, count := 32, acc := .rwl, profile := true }
  | .CAM_CTXSTATE => { block := .CAM, off := 0x3030, stride := 0x40, count := 32, acc := .ro, fields := [(F.CAM_CTXSTATE_STATE, .ro), (F.CAM_CTXSTATE_PENDING, .ro), (F.CAM_CTXSTATE_TRUNC_CNT, .rc), (F.CAM_CTXSTATE_DROP_CNT, .rc)] }
  | .CAM_FSYNCCFG => { block := .CAM, off := 0x4000, stride := 0x10, count := 16, acc := .rw, fields := [(F.CAM_FSYNCCFG_EN, .rw), (F.CAM_FSYNCCFG_WIDTH_US, .rw)] }
  | .CAM_FSYNCPER => { block := .CAM, off := 0x4008, stride := 0x10, count := 16, width := 64, acc := .rw, fields := [(F.CAM_FSYNCPER_PERIOD_NS, .rw), (F.CAM_FSYNCPER_PHASE_NS, .rw)] }
  | .VID_CORESTAT => { block := .VID, off := 0x100, stride := 0x10, count := 8, acc := .ro, fields := [(F.VID_CORESTAT_STATE, .ro), (F.VID_CORESTAT_CONTEXTS, .ro), (F.VID_CORESTAT_LOAD, .ro)] }
  | .VID_COREBUSY => { block := .VID, off := 0x108, stride := 0x10, count := 8, width := 64, acc := .ro }
  | .VID_DCTX => { block := .VID, off := 0x1000, stride := 0x10, count := 64, acc := .ro, fields := [(F.VID_DCTX_STATE, .ro), (F.VID_DCTX_CORE, .ro), (F.VID_DCTX_CODEC, .ro), (F.VID_DCTX_PARTITION, .ro)] }
  | .VID_DCNT => { block := .VID, off := 0x1008, stride := 0x10, count := 64, width := 64, acc := .rc, fields := [(F.VID_DCNT_CONCEALED, .rc), (F.VID_DCNT_REJECTED, .rc), (F.VID_DCNT_PICTURES, .rc)] }
  | .VID_ECTX => { block := .VID, off := 0x2000, stride := 0x10, count := 16, acc := .ro, fields := [(F.VID_ECTX_STATE, .ro), (F.VID_ECTX_CORE, .ro), (F.VID_ECTX_CODEC, .ro), (F.VID_ECTX_PARTITION, .ro)] }
  | .MOT_CFG => { block := .MOT, off := 0x0, acc := .ro, profile := true, fields := [(F.MOT_CFG_MODE, .ro), (F.MOT_CFG_AXES, .ro), (F.MOT_CFG_SD_DIV, .ro)] }
  | .MOT_FAULTSUM => { block := .MOT, off := 0x4, acc := .ro, fields := [(F.MOT_FAULTSUM_SAFE, .ro), (F.MOT_FAULTSUM_FAULT, .ro)] }
  | .MOT_AXCFG => { block := .MOT, off := 0x1000, stride := 0x100, count := 16, acc := .rwl, profile := true, fields := [(F.MOT_AXCFG_EN, .rwl), (F.MOT_AXCFG_ANGLE_SRC, .rwl), (F.MOT_AXCFG_BACKUP, .rwl), (F.MOT_AXCFG_ENC, .rwl), (F.MOT_AXCFG_PARTITION, .rwl), (F.MOT_AXCFG_ASC_EN, .rwl), (F.MOT_AXCFG_IN2, .rwl), (F.MOT_AXCFG_POLE_PAIRS, .rwl), (F.MOT_AXCFG_N_M1, .rwl), (F.MOT_AXCFG_M_M1, .rwl)] }
  | .MOT_AXSTATE => { block := .MOT, off := 0x1004, stride := 0x100, count := 16, acc := .ro, fields := [(F.MOT_AXSTATE_STATE, .ro), (F.MOT_AXSTATE_SAFE, .ro), (F.MOT_AXSTATE_COMMAND_LAG, .ro), (F.MOT_AXSTATE_ANGLE, .ro), (F.MOT_AXSTATE_OBS, .ro), (F.MOT_AXSTATE_SP_TYPE, .ro), (F.MOT_AXSTATE_QUEUED, .ro)] }
  | .MOT_PWMCFG => { block := .MOT, off := 0x1008, stride := 0x100, count := 16, acc := .rwl, profile := true, fields := [(F.MOT_PWMCFG_SAMP, .rwl), (F.MOT_PWMCFG_PERIOD, .rwl)] }
  | .MOT_PWMDT => { block := .MOT, off := 0x100c, stride := 0x100, count := 16, acc := .rwl, profile := true, fields := [(F.MOT_PWMDT_MIN_PULSE, .rwl), (F.MOT_PWMDT_DT, .rwl)] }
  | .MOT_SDCFG => { block := .MOT, off := 0x1010, stride := 0x100, count := 16, acc := .rwl, profile := true, fields := [(F.MOT_SDCFG_OSR, .rwl), (F.MOT_SDCFG_OSR_FAST, .rwl), (F.MOT_SDCFG_OC_LIMIT, .rwl)] }
  | .MOT_STEPLIM => { block := .MOT, off := 0x1014, stride := 0x100, count := 16, acc := .rwl, profile := true, fields := [(F.MOT_STEPLIM_VALUE, .rwl)] }
  | .MOT_VMAX => { block := .MOT, off := 0x1018, stride := 0x100, count := 16, acc := .rwl, profile := true, fields := [(F.MOT_VMAX_VALUE, .rwl)] }
  | .MOT_AMAX => { block := .MOT, off := 0x101c, stride := 0x100, count := 16, acc := .rwl, profile := true, fields := [(F.MOT_AMAX_VALUE, .rwl)] }
  | .MOT_JMAX => { block := .MOT, off := 0x1020, stride := 0x100, count := 16, acc := .rwl, profile := true, fields := [(F.MOT_JMAX_VALUE, .rwl)] }
  | .MOT_IQMAX => { block := .MOT, off := 0x1024, stride := 0x100, count := 16, acc := .rwl, profile := true, fields := [(F.MOT_IQMAX_VALUE, .rwl)] }
  | .MOT_IDREF => { block := .MOT, off := 0x1028, stride := 0x100, count := 16, acc := .rwl, profile := true, fields := [(F.MOT_IDREF_VALUE, .rwl)] }
  | .MOT_FELIM => { block := .MOT, off := 0x102c, stride := 0x100, count := 16, acc := .rwl, profile := true, fields := [(F.MOT_FELIM_VALUE, .rwl)] }
  | .MOT_FEVLIM => { block := .MOT, off := 0x1030, stride := 0x100, count := 16, acc := .rwl, profile := true, fields := [(F.MOT_FEVLIM_VALUE, .rwl)] }
  | .MOT_FETIME => { block := .MOT, off := 0x1034, stride := 0x100, count := 16, acc := .rwl, profile := true, fields := [(F.MOT_FETIME_VALUE, .rwl)] }
  | .MOT_LAGPOS => { block := .MOT, off := 0x1038, stride := 0x100, count := 16, acc := .rwl, profile := true, fields := [(F.MOT_LAGPOS_VALUE, .rwl)] }
  | .MOT_LAGVEL => { block := .MOT, off := 0x103c, stride := 0x100, count := 16, acc := .rwl, profile := true, fields := [(F.MOT_LAGVEL_VALUE, .rwl)] }
  | .MOT_OBSCFG => { block := .MOT, off := 0x1040, stride := 0x100, count := 16, acc := .rwl, fields := [(F.MOT_OBSCFG_K, .rwl), (F.MOT_OBSCFG_RELOCK_K, .rwl), (F.MOT_OBSCFG_T_FLY, .rwl), (F.MOT_OBSCFG_TQ_RAMP, .rwl)] }
  | .MOT_ASCCFG => { block := .MOT, off := 0x1044, stride := 0x100, count := 16, acc := .rwl, profile := true, fields := [(F.MOT_ASCCFG_ASC_HOLD_MS, .rwl), (F.MOT_ASCCFG_ASC_SPEED, .rwl)] }
  | .MOT_KP_P => { block := .MOT, off := 0x1050, stride := 0x100, count := 16, acc := .rwl, profile := true, fields := [(F.MOT_KP_P_VALUE, .rwl)] }
  | .MOT_KP_V => { block := .MOT, off := 0x1054, stride := 0x100, count := 16, acc := .rwl, profile := true, fields := [(F.MOT_KP_V_VALUE, .rwl)] }
  | .MOT_KI_V => { block := .MOT, off := 0x1058, stride := 0x100, count := 16, acc := .rwl, profile := true, fields := [(F.MOT_KI_V_VALUE, .rwl)] }
  | .MOT_KFF_V => { block := .MOT, off := 0x105c, stride := 0x100, count := 16, acc := .rwl, profile := true, fields := [(F.MOT_KFF_V_VALUE, .rwl)] }
  | .MOT_KFF_A => { block := .MOT, off := 0x1060, stride := 0x100, count := 16, acc := .rwl, profile := true, fields := [(F.MOT_KFF_A_VALUE, .rwl)] }
  | .MOT_KP_I => { block := .MOT, off := 0x1064, stride := 0x100, count := 16, acc := .rwl, profile := true, fields := [(F.MOT_KP_I_VALUE, .rwl)] }
  | .MOT_KI_I => { block := .MOT, off := 0x1068, stride := 0x100, count := 16, acc := .rwl, profile := true, fields := [(F.MOT_KI_I_VALUE, .rwl)] }
  | .MOT_R_S => { block := .MOT, off := 0x106c, stride := 0x100, count := 16, acc := .rwl, profile := true, fields := [(F.MOT_R_S_VALUE, .rwl)] }
  | .MOT_L_D => { block := .MOT, off := 0x1070, stride := 0x100, count := 16, acc := .rwl, profile := true, fields := [(F.MOT_L_D_VALUE, .rwl)] }
  | .MOT_L_Q => { block := .MOT, off := 0x1074, stride := 0x100, count := 16, acc := .rwl, profile := true, fields := [(F.MOT_L_Q_VALUE, .rwl)] }
  | .MOT_KT => { block := .MOT, off := 0x1078, stride := 0x100, count := 16, acc := .rwl, profile := true, fields := [(F.MOT_KT_VALUE, .rwl)] }
  | .MOT_I_FS => { block := .MOT, off := 0x107c, stride := 0x100, count := 16, acc := .rwl, profile := true, fields := [(F.MOT_I_FS_VALUE, .rwl)] }
  | .MOT_V_FS => { block := .MOT, off := 0x1080, stride := 0x100, count := 16, acc := .rwl, profile := true, fields := [(F.MOT_V_FS_VALUE, .rwl)] }
  | .MOT_VDC_NOM => { block := .MOT, off := 0x1084, stride := 0x100, count := 16, acc := .rwl, profile := true, fields := [(F.MOT_VDC_NOM_VALUE, .rwl)] }
  | .MOT_K1 => { block := .MOT, off := 0x1088, stride := 0x100, count := 16, acc := .rwl, profile := true, fields := [(F.MOT_K1_VALUE, .rwl)] }
  | .MOT_K2 => { block := .MOT, off := 0x108c, stride := 0x100, count := 16, acc := .rwl, profile := true, fields := [(F.MOT_K2_VALUE, .rwl)] }
  | .MOT_KP_PLL => { block := .MOT, off := 0x1090, stride := 0x100, count := 16, acc := .rwl, profile := true, fields := [(F.MOT_KP_PLL_VALUE, .rwl)] }
  | .MOT_KI_PLL => { block := .MOT, off := 0x1094, stride := 0x100, count := 16, acc := .rwl, profile := true, fields := [(F.MOT_KI_PLL_VALUE, .rwl)] }
  | .MOT_I_START => { block := .MOT, off := 0x1098, stride := 0x100, count := 16, acc := .rwl, profile := true, fields := [(F.MOT_I_START_VALUE, .rwl)] }
  | .MOT_RESLIM => { block := .MOT, off := 0x109c, stride := 0x100, count := 16, acc := .rwl, profile := true, fields := [(F.MOT_RESLIM_VALUE, .rwl)] }
  | .MOT_OBSMIN => { block := .MOT, off := 0x10a0, stride := 0x100, count := 16, acc := .rwl, profile := true, fields := [(F.MOT_OBSMIN_VALUE, .rwl)] }
  | .MOT_STARTACC => { block := .MOT, off := 0x10a4, stride := 0x100, count := 16, acc := .rwl, profile := true, fields := [(F.MOT_STARTACC_VALUE, .rwl)] }
  | .MOT_POS => { block := .MOT, off := 0x10c0, stride := 0x100, count := 16, width := 64, acc := .ro, fields := [(F.MOT_POS_VALUE, .ro)] }
  | .MOT_RPOS => { block := .MOT, off := 0x10c8, stride := 0x100, count := 16, width := 64, acc := .ro, fields := [(F.MOT_RPOS_VALUE, .ro)] }
  | .MOT_VEL => { block := .MOT, off := 0x10d0, stride := 0x100, count := 16, acc := .ro, fields := [(F.MOT_VEL_VALUE, .ro)] }
  | .MOT_RVEL => { block := .MOT, off := 0x10d4, stride := 0x100, count := 16, acc := .ro, fields := [(F.MOT_RVEL_VALUE, .ro)] }
  | .MOT_IDQ => { block := .MOT, off := 0x10d8, stride := 0x100, count := 16, width := 64, acc := .ro, fields := [(F.MOT_IDQ_VALUE, .ro)] }
  | .MOT_OBSSTAT => { block := .MOT, off := 0x10e0, stride := 0x100, count := 16, acc := .ro, fields := [(F.MOT_OBSSTAT_CONF, .ro), (F.MOT_OBSSTAT_RESIDUAL, .ro)] }
  | .MOT_AXCTL => { block := .MOT, off := 0x10e4, stride := 0x100, count := 16, acc := .wo, fields := [(F.MOT_AXCTL_OP, .wo)] }
  | .MOT_AXCNT => { block := .MOT, off := 0x10e8, stride := 0x100, count := 16, width := 64, acc := .rc, fields := [(F.MOT_AXCNT_REJECT, .rc), (F.MOT_AXCNT_LATE, .rc), (F.MOT_AXCNT_SKIPPED, .rc), (F.MOT_AXCNT_REFUSED, .rc), (F.MOT_AXCNT_CLAMPED, .rc)] }
  | .MOT_AXFAULT => { block := .MOT, off := 0x10f0, stride := 0x100, count := 16, acc := .w1c, fields := [(F.MOT_AXFAULT_VALID, .w1c), (F.MOT_AXFAULT_CAUSE, .ro), (F.MOT_AXFAULT_DETAIL, .ro)] }
  | .MOT_ENCCFG => { block := .MOT, off := 0x2000, stride := 0x40, count := 16, acc := .rwl, profile := true, fields := [(F.MOT_ENCCFG_MODE, .rwl), (F.MOT_ENCCFG_SSI_BITS, .rwl), (F.MOT_ENCCFG_GRAY, .rwl), (F.MOT_ENCCFG_PARITY, .rwl), (F.MOT_ENCCFG_SSI_DIV, .rwl), (F.MOT_ENCCFG_FILTER, .rwl)] }
  | .MOT_ENCCPR => { block := .MOT, off := 0x2004, stride := 0x40, count := 16, acc := .rwl, profile := true, fields := [(F.MOT_ENCCPR_VALUE, .rwl)] }
  | .MOT_ENCOFF => { block := .MOT, off := 0x2008, stride := 0x40, count := 16, acc := .rwl, profile := true, fields := [(F.MOT_ENCOFF_VALUE, .rwl)] }
  | .MOT_ENCCNT => { block := .MOT, off := 0x200c, stride := 0x40, count := 16, acc := .ro, fields := [(F.MOT_ENCCNT_VALUE, .ro)] }
  | .MOT_ENCERR => { block := .MOT, off := 0x2010, stride := 0x40, count := 16, acc := .rc, fields := [(F.MOT_ENCERR_ILLEGAL, .rc), (F.MOT_ENCERR_ZERR, .rc)] }
  | .MOT_TRCFG => { block := .MOT, off := 0x3000, stride := 0x40, count := 4, acc := .rw, fields := [(F.MOT_TRCFG_AXIS, .rw), (F.MOT_TRCFG_DIV_LOG2, .rw), (F.MOT_TRCFG_TRIG, .rw), (F.MOT_TRCFG_PRE, .rw)] }
  | .MOT_TRSIG => { block := .MOT, off := 0x3004, stride := 0x40, count := 4, acc := .rw, fields := [(F.MOT_TRSIG_CODES, .rw)] }
  | .MOT_TRTHR => { block := .MOT, off := 0x3008, stride := 0x40, count := 4, width := 64, acc := .rw, fields := [(F.MOT_TRTHR_SLOT, .rw), (F.MOT_TRTHR_DIR, .rw), (F.MOT_TRTHR_LEVEL, .rw)] }
  | .MOT_TRBASE => { block := .MOT, off := 0x3010, stride := 0x40, count := 4, width := 64, acc := .rw, fields := [(F.MOT_TRBASE_BASE, .rw), (F.MOT_TRBASE_SIZE_LOG2, .rw)] }
  | .MOT_TRCTL => { block := .MOT, off := 0x3018, stride := 0x40, count := 4, acc := .wo, fields := [(F.MOT_TRCTL_OP, .wo)] }
  | .MOT_TRSTAT => { block := .MOT, off := 0x301c, stride := 0x40, count := 4, acc := .ro, fields := [(F.MOT_TRSTAT_STATE, .ro), (F.MOT_TRSTAT_TRIG_INDEX, .ro)] }
  | .SPW_TIME => { block := .MOT, off := 0x80000, stride := 0x1000, count := 16, width := 64, acc := .wo, fields := [(F.SPW_TIME_VALUE, .wo)] }
  | .SPW_VAL0 => { block := .MOT, off := 0x80008, stride := 0x1000, count := 16, width := 64, acc := .wo, fields := [(F.SPW_VAL0_VALUE, .wo)] }
  | .SPW_VAL1 => { block := .MOT, off := 0x80010, stride := 0x1000, count := 16, acc := .wo, fields := [(F.SPW_VAL1_VALUE, .wo)] }
  | .SPW_PUSH => { block := .MOT, off := 0x80014, stride := 0x1000, count := 16, acc := .wo, fields := [(F.SPW_PUSH_VALUE, .wo)] }
  | .SPW_STAT => { block := .MOT, off := 0x80018, stride := 0x1000, count := 16, acc := .ro, fields := [(F.SPW_STAT_RESULT, .ro), (F.SPW_STAT_FREE, .ro)] }
  | .CAN_CTL => { block := .CAN, off := 0x0, stride := 0x10000, count := 8, acc := .rwl, profile := true, fields := [(F.CAN_CTL_STATE, .ro), (F.CAN_CTL_ROP, .rw), (F.CAN_CTL_ERRSIG, .rwl), (F.CAN_CTL_AUTO_RECOVER, .rwl), (F.CAN_CTL_TT, .rwl), (F.CAN_CTL_XL_EN, .rwl), (F.CAN_CTL_FD_EN, .rwl), (F.CAN_CTL_RECOVER, .w1s), (F.CAN_CTL_PARTITION, .ro), (F.CAN_CTL_NOMATCH, .rwl), (F.CAN_CTL_IRQ_VEC, .rwl)] }
  | .CAN_NBT => { block := .CAN, off := 0x4, stride := 0x10000, count := 8, acc := .rwl, profile := true, fields := [(F.CAN_NBT_BRP_M1, .rwl), (F.CAN_NBT_TSEG1_M1, .rwl), (F.CAN_NBT_TSEG2_M1, .rwl), (F.CAN_NBT_SJW_M1, .rwl), (F.CAN_NBT_TDC, .rwl)] }
  | .CAN_DBT => { block := .CAN, off := 0x8, stride := 0x10000, count := 8, acc := .rwl, profile := true, fields := [(F.CAN_DBT_BRP_M1, .rwl), (F.CAN_DBT_TSEG1_M1, .rwl), (F.CAN_DBT_TSEG2_M1, .rwl), (F.CAN_DBT_SJW_M1, .rwl), (F.CAN_DBT_TDC, .rwl)] }
  | .CAN_XBT => { block := .CAN, off := 0xc, stride := 0x10000, count := 8, acc := .rwl, profile := true, fields := [(F.CAN_XBT_BRP_M1, .rwl), (F.CAN_XBT_TSEG1_M1, .rwl), (F.CAN_XBT_TSEG2_M1, .rwl), (F.CAN_XBT_SJW_M1, .rwl), (F.CAN_XBT_TDC, .rwl)] }
  | .CAN_RAMCFG => { block := .CAN, off := 0x10, stride := 0x10000, count := 8, acc := .rwl, profile := true, fields := [(F.CAN_RAMCFG_NTX, .rwl), (F.CAN_RAMCFG_DSIZE, .rwl), (F.CAN_RAMCFG_NRX0, .rwl), (F.CAN_RAMCFG_NRX1, .rwl), (F.CAN_RAMCFG_TDCO, .rwl)] }
  | .CAN_ERR => { block := .CAN, off := 0x14, stride := 0x10000, count := 8, acc := .ro, fields := [(F.CAN_ERR_ESTATE, .ro), (F.CAN_ERR_LEC, .ro), (F.CAN_ERR_TEC, .ro), (F.CAN_ERR_REC, .ro)] }
  | .CAN_ECNT => { block := .CAN, off := 0x18, stride := 0x10000, count := 8, width := 64, acc := .rc, fields := [(F.CAN_ECNT_ERR_FRAMES, .rc), (F.CAN_ECNT_SILENT_DROP, .rc), (F.CAN_ECNT_FIFO_DROP, .rc), (F.CAN_ECNT_HPB_OVR, .rc)] }
  | .CAN_TXREQ => { block := .CAN, off := 0x20, stride := 0x10000, count := 8, acc := .w1s, fields := [(F.CAN_TXREQ_VALUE, .w1s)] }
  | .CAN_TXDONE => { block := .CAN, off := 0x24, stride := 0x10000, count := 8, acc := .w1c, fields := [(F.CAN_TXDONE_VALUE, .w1c)] }
  | .CAN_RXFSTAT => { block := .CAN, off := 0x28, stride := 0x10000, count := 8, acc := .ro, fields := [(F.CAN_RXFSTAT_VALUE, .ro)] }
  | .CAN_RXFACK => { block := .CAN, off := 0x2c, stride := 0x10000, count := 8, acc := .wo, fields := [(F.CAN_RXFACK_VALUE, .wo)] }
  | .CAN_HPBSTAT => { block := .CAN, off := 0x30, stride := 0x10000, count := 8, acc := .w1c, fields := [(F.CAN_HPBSTAT_VALUE, .w1c)] }
  | .CAN_TTCFG => { block := .CAN, off := 0x40, stride := 0x10000, count := 8, acc := .rwl, profile := true, fields := [(F.CAN_TTCFG_TTROLE, .rwl), (F.CAN_TTCFG_CYCLE_MAX, .rwl), (F.CAN_TTCFG_REF_ID, .rwl)] }
  | .CAN_TTCYC => { block := .CAN, off := 0x44, stride := 0x10000, count := 8, acc := .rwl, profile := true, fields := [(F.CAN_TTCYC_VALUE, .rwl)] }
  | .CAN_TTSTAT => { block := .CAN, off := 0x48, stride := 0x10000, count := 8, acc := .ro, fields := [(F.CAN_TTSTAT_ERRLVL, .ro), (F.CAN_TTSTAT_MASTER, .ro), (F.CAN_TTSTAT_CYCLE, .ro)] }
  | .CAN_LTCFG => { block := .CAN, off := 0x50, stride := 0x10000, count := 8, acc := .rw }
  | .CAN_TXLATE => { block := .CAN, off := 0x54, stride := 0x10000, count := 8, acc := .w1c, fields := [(F.CAN_TXLATE_VALUE, .w1c)] }
  | .CAN_LATECNT => { block := .CAN, off := 0x58, stride := 0x10000, count := 8, acc := .rc, fields := [(F.CAN_LATECNT_VALUE, .rc)] }
  | .CAN_TTMARK => { block := .CAN, off := 0x1000, stride := 0x10000, count := 8, stride2 := 0x4, count2 := 32, acc := .rwl, profile := true, fields := [(F.CAN_TTMARK_VALUE, .rwl)] }
  | .CAN_TTCELL => { block := .CAN, off := 0x2000, stride := 0x10000, count := 8, stride2 := 0x4, count2 := 2048, acc := .rwl, profile := true, fields := [(F.CAN_TTCELL_TYPE, .rwl), (F.CAN_TTCELL_INDEX, .rwl)] }
  | .CAN_STDFILT => { block := .CAN, off := 0x4000, stride := 0x10000, count := 8, stride2 := 0x8, count2 := 128, width := 64, acc := .rwl, profile := true, fields := [(F.CAN_STDFILT_ACTION, .rwl), (F.CAN_STDFILT_ID2, .rwl), (F.CAN_STDFILT_TYPE, .rwl), (F.CAN_STDFILT_ID1, .rwl)] }
  | .CAN_EXTFILT => { block := .CAN, off := 0x4400, stride := 0x10000, count := 8, stride2 := 0x8, count2 := 64, width := 64, acc := .rwl, profile := true, fields := [(F.CAN_EXTFILT_ACTION, .rwl), (F.CAN_EXTFILT_ID2, .rwl), (F.CAN_EXTFILT_TYPE, .rwl), (F.CAN_EXTFILT_ID1, .rwl)] }
  | .ETH_MACCFG => { block := .ETH, off := 0x0, acc := .rwl, profile := true, fields := [(F.ETH_MACCFG_MODE1, .rwl), (F.ETH_MACCFG_MODE0, .rwl)] }
  | .ETH_PSTAT => { block := .ETH, off := 0x10000, stride := 0x10000, count := 9, acc := .ro, fields := [(F.ETH_PSTAT_STATE, .ro), (F.ETH_PSTAT_LINK, .ro), (F.ETH_PSTAT_PREEMPT, .ro), (F.ETH_PSTAT_SPEED, .ro)] }
  | .ETH_CNT => { block := .ETH, off := 0x10008, stride := 0x10000, count := 9, width := 64, acc := .rc, fields := [(F.ETH_CNT_FCS_ERR, .rc), (F.ETH_CNT_RX_DROP, .rc), (F.ETH_CNT_LATE, .rc), (F.ETH_CNT_QCI_DROP, .rc)] }
  | .ETH_LTCFG => { block := .ETH, off := 0x10010, stride := 0x10000, count := 9, acc := .rw, fields := [(F.ETH_LTCFG_VALUE, .rw)] }
  | .ETH_TSCOMP => { block := .ETH, off := 0x10014, stride := 0x10000, count := 9, acc := .rwl, profile := true, fields := [(F.ETH_TSCOMP_VALUE, .rwl)] }
  | .ETH_GCLBASE => { block := .ETH, off := 0x10020, stride := 0x10000, count := 9, width := 64, acc := .rw, fields := [(F.ETH_GCLBASE_VALUE, .rw)] }
  | .ETH_GCLCYCLE => { block := .ETH, off := 0x10028, stride := 0x10000, count := 9, acc := .rw, fields := [(F.ETH_GCLCYCLE_VALUE, .rw)] }
  | .ETH_GCLCTL => { block := .ETH, off := 0x1002c, stride := 0x10000, count := 9, acc := .rw, fields := [(F.ETH_GCLCTL_EN, .rw), (F.ETH_GCLCTL_CHANGE, .w1s), (F.ETH_GCLCTL_PENDING, .ro), (F.ETH_GCLCTL_LEN, .rw)] }
  | .ETH_PREEMPT => { block := .ETH, off := 0x10030, stride := 0x10000, count := 9, acc := .rwl, profile := true, fields := [(F.ETH_PREEMPT_EN, .rwl), (F.ETH_PREEMPT_VERIFY_FAIL, .ro), (F.ETH_PREEMPT_ADD_FRAG, .rwl), (F.ETH_PREEMPT_MASK, .rwl)] }
  | .ETH_RBASE => { block := .ETH, off := 0x10100, stride := 0x10000, count := 9, stride2 := 0x20, count2 := 16, width := 64, acc := .rwl, profile := true, fields := [(F.ETH_RBASE_BASE, .rwl)] }
  | .ETH_RCFG => { block := .ETH, off := 0x10108, stride := 0x10000, count := 9, stride2 := 0x20, count2 := 16, acc := .rwl, profile := true, fields := [(F.ETH_RCFG_EN, .rwl), (F.ETH_RCFG_PARTITION, .rwl), (F.ETH_RCFG_SIZE_LOG2, .rwl), (F.ETH_RCFG_IRQ_EN, .rwl), (F.ETH_RCFG_IRQ_VEC, .rwl)] }
  | .ETH_RHEAD => { block := .ETH, off := 0x10110, stride := 0x10000, count := 9, stride2 := 0x20, count2 := 16, acc := .ro, fields := [(F.ETH_RHEAD_VALUE, .ro)] }
  | .ETH_RDB => { block := .ETH, off := 0x10114, stride := 0x10000, count := 9, stride2 := 0x20, count2 := 16, acc := .wo, fields := [(F.ETH_RDB_VALUE, .wo)] }
  | .ETH_GCL => { block := .ETH, off := 0x11000, stride := 0x10000, count := 9, stride2 := 0x8, count2 := 256, width := 64, acc := .rw, fields := [(F.ETH_GCL_GATES, .rw), (F.ETH_GCL_INTERVAL, .rw)] }
  | .ETH_FILTER => { block := .ETH, off := 0x14000, stride := 0x10000, count := 9, stride2 := 0x8, count2 := 256, width := 64, acc := .rw, profile := true, fields := [(F.ETH_FILTER_VALUE, .rw)] }
  | .CHR_TIME => { block := .CHR, off := 0x0, width := 64, acc := .ro }
  | .CHR_STATUS => { block := .CHR, off := 0x10, acc := .ro, fields := [(F.CHR_STATUS_STATE, .ro), (F.CHR_STATUS_JUMP_PENDING, .ro), (F.CHR_STATUS_SLEWING, .ro), (F.CHR_STATUS_QUAL_A, .ro), (F.CHR_STATUS_QUAL_B, .ro)] }
  | .CHR_CFG => { block := .CHR, off := 0x14, acc := .rw, profile := true, fields := [(F.CHR_CFG_ACQUIRE, .rw), (F.CHR_CFG_REVERT, .rw), (F.CHR_CFG_REVERT_S, .rw)] }
  | .CHR_JUMP => { block := .CHR, off := 0x18, acc := .rw, profile := true, fields := [(F.CHR_JUMP_JUMP_NS, .rw)] }
  | .CHR_RATE => { block := .CHR, off := 0x1c, acc := .ro, fields := [(F.CHR_RATE_VALUE, .ro)] }
  | .CHR_DOMCFG => { block := .CHR, off := 0x40, stride := 0x20, count := 2, acc := .rwl, profile := true, fields := [(F.CHR_DOMCFG_EN, .rwl), (F.CHR_DOMCFG_PORT, .rwl), (F.CHR_DOMCFG_DOMAIN, .rwl)] }
  | .CHR_DOMOFF => { block := .CHR, off := 0x48, stride := 0x20, count := 2, width := 64, acc := .ro, fields := [(F.CHR_DOMOFF_VALUE, .ro)] }
  | .CHR_DOMRATE => { block := .CHR, off := 0x50, stride := 0x20, count := 2, acc := .ro, fields := [(F.CHR_DOMRATE_VALUE, .ro)] }
  | .CHR_DOMSTAT => { block := .CHR, off := 0x54, stride := 0x20, count := 2, acc := .ro, fields := [(F.CHR_DOMSTAT_QUALIFIED, .ro), (F.CHR_DOMSTAT_MISSED, .ro), (F.CHR_DOMSTAT_CLOCK_CLASS, .ro), (F.CHR_DOMSTAT_OUTLIERS, .ro)] }
  | .CHR_PENDING => { block := .CHR, off := 0x80, width := 64, acc := .ro, fields := [(F.CHR_PENDING_VALUE, .ro)] }
  | .CHR_STEPCNT => { block := .CHR, off := 0x88, acc := .ro, fields := [(F.CHR_STEPCNT_VALUE, .ro)] }
  | .CHR_EVENTS => { block := .CHR, off := 0x90, acc := .w1c, fields := [(F.CHR_EVENTS_ACQUIRED, .w1c), (F.CHR_EVENTS_STEPPED, .w1c), (F.CHR_EVENTS_JUMP_REFUSED, .w1c), (F.CHR_EVENTS_HOLDOVER, .w1c), (F.CHR_EVENTS_SWITCH, .w1c)] }
  | .GLK_CFG => { block := .GLK, off := 0x0, acc := .rwl, profile := true, fields := [(F.GLK_CFG_NAP_EN, .rwl), (F.GLK_CFG_TOPO, .ro), (F.GLK_CFG_X, .ro), (F.GLK_CFG_Y, .ro), (F.GLK_CFG_N_M1, .ro), (F.GLK_CFG_ROOT_PRIO, .rwl)] }
  | .GLK_ID => { block := .GLK, off := 0x4, acc := .ro, profile := true, fields := [(F.GLK_ID_CLUSTER, .ro), (F.GLK_ID_MEMBER, .ro)] }
  | .GLK_UID => { block := .GLK, off := 0x8, width := 64, acc := .ro }
  | .GLK_ROOT_UID => { block := .GLK, off := 0x10, width := 64, acc := .ro }
  | .GLK_ROOTSTAT => { block := .GLK, off := 0x18, acc := .ro, fields := [(F.GLK_ROOTSTAT_IS_ROOT, .ro), (F.GLK_ROOTSTAT_ELECTED, .ro), (F.GLK_ROOTSTAT_ROOT_MEMBER, .ro), (F.GLK_ROOTSTAT_ELECTIONS, .ro)] }
  | .GLK_CLAIMCFG => { block := .GLK, off := 0x1c, acc := .rwl, fields := [(F.GLK_CLAIMCFG_PORT_WAIT_MS, .rwl), (F.GLK_CLAIMCFG_CLAIM_US, .rwl)] }
  | .GLK_PEERS => { block := .GLK, off := 0x20, width := 64, acc := .ro }
  | .GLK_TIMESTAT => { block := .GLK, off := 0x28, acc := .ro, fields := [(F.GLK_TIMESTAT_LOCKED, .ro), (F.GLK_TIMESTAT_AGE_US, .ro)] }
  | .GLK_TOFF => { block := .GLK, off := 0x30, width := 64, acc := .ro }
  | .GLK_NAPCFG => { block := .GLK, off := 0x40, acc := .rw, fields := [(F.GLK_NAPCFG_IDLE_US, .rw), (F.GLK_NAPCFG_GUARD_NS, .rw)] }
  | .GLK_NAPMAX => { block := .GLK, off := 0x44, acc := .rw }
  | .GLK_BARSTAT => { block := .GLK, off := 0x50, acc := .w1c, fields := [(F.GLK_BARSTAT_MISSED, .w1c), (F.GLK_BARSTAT_CANCELLED, .w1c), (F.GLK_BARSTAT_ARMED, .ro)] }
  | .GLK_DIGCFG => { block := .GLK, off := 0x60, acc := .rw, profile := true, fields := [(F.GLK_DIGCFG_FENCE_EN, .ro), (F.GLK_DIGCFG_CLEAR_S, .rw), (F.GLK_DIGCFG_DIGEST_GROUP, .ro)] }
  | .GLK_DIGSTAT => { block := .GLK, off := 0x64, acc := .w1c, fields := [(F.GLK_DIGSTAT_MISMATCH, .w1c), (F.GLK_DIGSTAT_FENCED, .ro), (F.GLK_DIGSTAT_PEERS_DIFF, .ro), (F.GLK_DIGSTAT_PEERS_HEARD, .ro)] }
  | .GLK_REFTAG => { block := .GLK, off := 0x68, width := 64, acc := .ro }
  | .GLK_TBREAK => { block := .GLK, off := 0x70, acc := .w1c, fields := [(F.GLK_TBREAK_THROTTLE, .w1c), (F.GLK_TBREAK_REROUTE, .w1c), (F.GLK_TBREAK_WIDTH, .w1c), (F.GLK_TBREAK_FN_STOP, .w1c), (F.GLK_TBREAK_REPAIR, .w1c), (F.GLK_TBREAK_RCOSC, .w1c), (F.GLK_TBREAK_NAP, .w1c), (F.GLK_TBREAK_OVERFLOW, .w1c), (F.GLK_TBREAK_LEND, .w1c), (F.GLK_TBREAK_REWEAVE, .w1c), (F.GLK_TBREAK_PARK, .w1c), (F.GLK_TBREAK_DIVIDER, .w1c)] }
  | .GLK_PSTAT => { block := .GLK, off := 0x1000, stride := 0x40, count := 4, acc := .ro, fields := [(F.GLK_PSTAT_STATE, .ro), (F.GLK_PSTAT_WIDTH, .ro), (F.GLK_PSTAT_NAP, .ro), (F.GLK_PSTAT_REVERSED, .ro), (F.GLK_PSTAT_PEER_VALID, .ro), (F.GLK_PSTAT_PEER_MEMBER, .ro), (F.GLK_PSTAT_PEER_PORT, .ro)] }
  | .GLK_PCNT => { block := .GLK, off := 0x1008, stride := 0x40, count := 4, width := 64, acc := .rc, fields := [(F.GLK_PCNT_RETRY, .rc), (F.GLK_PCNT_RETRAIN, .rc), (F.GLK_PCNT_NAP_RESYNC, .rc)] }
  | .GLK_PDELAY => { block := .GLK, off := 0x1010, stride := 0x40, count := 4, acc := .ro, fields := [(F.GLK_PDELAY_CAL, .ro), (F.GLK_PDELAY_DELAY, .ro)] }
  | .SAFE_STATUS => { block := .SAFE, off := 0x0, acc := .ro, fields := [(F.SAFE_STATUS_DEVSAFE, .ro), (F.SAFE_STATUS_SFN, .ro), (F.SAFE_STATUS_CAUSE, .ro), (F.SAFE_STATUS_PAIR1_OK, .ro), (F.SAFE_STATUS_PAIR0_OK, .ro)] }
  | .SAFE_CFG => { block := .SAFE, off := 0x4, acc := .rwl, profile := true, fields := [(F.SAFE_CFG_TB_REACT, .rwl), (F.SAFE_CFG_RCOSC_REACT, .rwl)] }
  | .SAFE_TBCFG => { block := .SAFE, off := 0x10, acc := .rwl, fields := [(F.SAFE_TBCFG_PERIOD_MS, .rwl)] }
  | .SAFE_TBSTAT => { block := .SAFE, off := 0x14, acc := .ro, fields := [(F.SAFE_TBSTAT_ROTATIONS, .ro), (F.SAFE_TBSTAT_CHECKER, .ro)] }
  | .SAFE_TBFAIL => { block := .SAFE, off := 0x20, stride := 0x8, count := 7, width := 64, acc := .ro }
  | .SAFE_WDSUM => { block := .SAFE, off := 0x100, width := 64, acc := .w1c }
  | .SAFE_WDCFG => { block := .SAFE, off := 0x1000, stride := 0x20, count := 64, acc := .rwl, profile := true, fields := [(F.SAFE_WDCFG_EN, .rwl), (F.SAFE_WDCFG_REACT, .rwl), (F.SAFE_WDCFG_PARTITION, .rwl), (F.SAFE_WDCFG_CONTEXT, .rwl), (F.SAFE_WDCFG_ESC_N, .rwl)] }
  | .SAFE_WDSRC => { block := .SAFE, off := 0x1004, stride := 0x20, count := 64, acc := .rwl, profile := true, fields := [(F.SAFE_WDSRC_START_CTR, .rwl), (F.SAFE_WDSRC_KICK_CTR, .rwl)] }
  | .SAFE_WDWIN => { block := .SAFE, off := 0x1008, stride := 0x20, count := 64, acc := .rwl, profile := true, fields := [(F.SAFE_WDWIN_OPEN_US, .rwl), (F.SAFE_WDWIN_CLOSE_US, .rwl)] }
  | .SAFE_WDTGT => { block := .SAFE, off := 0x100c, stride := 0x20, count := 64, acc := .rwl, profile := true, fields := [(F.SAFE_WDTGT_AXES, .rwl), (F.SAFE_WDTGT_RESTART_CTR, .rwl)] }
  | .SAFE_WDSTAT => { block := .SAFE, off := 0x1010, stride := 0x20, count := 64, acc := .ro, fields := [(F.SAFE_WDSTAT_STATE, .ro), (F.SAFE_WDSTAT_LAST, .ro), (F.SAFE_WDSTAT_RUN, .ro), (F.SAFE_WDSTAT_STRAY, .rc), (F.SAFE_WDSTAT_T_US, .ro)] }
  | .SAFE_WDKICK => { block := .SAFE, off := 0x1014, stride := 0x20, count := 64, acc := .wo, fields := [(F.SAFE_WDKICK_START, .wo), (F.SAFE_WDKICK_KICK, .wo)] }
  | .LOG_RING => { block := .LOG, off := 0x0, width := 64, acc := .ro, profile := true, fields := [(F.LOG_RING_BASE, .ro)] }
  | .LOG_MIRROR => { block := .LOG, off := 0x8, width := 64, acc := .ro, profile := true, fields := [(F.LOG_MIRROR_BASE, .ro)] }
  | .LOG_SEQ => { block := .LOG, off := 0x10, acc := .ro }
  | .LOG_IRQ => { block := .LOG, off := 0x14, acc := .rw, fields := [(F.LOG_IRQ_EN, .rw), (F.LOG_IRQ_CLASS_MASK, .rw), (F.LOG_IRQ_VEC, .rw)] }
  | .LOG_STATUS => { block := .LOG, off := 0x18, acc := .ro, fields := [(F.LOG_STATUS_OVERFLOW, .w1c), (F.LOG_STATUS_PERSIST_FAIL, .w1c), (F.LOG_STATUS_MIRROR_LAG, .ro), (F.LOG_STATUS_PERSIST_PENDING, .ro)] }
  | .LOG_PERSIST => { block := .LOG, off := 0x20, acc := .ro }
  | .LOG_DROP => { block := .LOG, off := 0x100, stride := 0x4, count := 16, acc := .rc }
  | .SEC_LIFECYCLE => { block := .SEC, off := 0x0, acc := .ro, fields := [(F.SEC_LIFECYCLE_DEBUG_PART, .ro), (F.SEC_LIFECYCLE_DENIALS, .ro), (F.SEC_LIFECYCLE_DEBUG, .ro), (F.SEC_LIFECYCLE_STATE, .ro)] }
  | .SEC_OTPSTAT => { block := .SEC, off := 0x4, acc := .ro, fields := [(F.SEC_OTPSTAT_ROLLBACK, .ro), (F.SEC_OTPSTAT_MLDSA_VALID, .ro), (F.SEC_OTPSTAT_ECDSA_VALID, .ro), (F.SEC_OTPSTAT_MLDSA_REVOKED, .ro), (F.SEC_OTPSTAT_ECDSA_REVOKED, .ro), (F.SEC_OTPSTAT_DBG_KEYS, .ro)] }
  | .SEC_DBGNONCE => { block := .SEC, off := 0x40, stride := 0x8, count := 4, width := 64, acc := .ro, fields := [(F.SEC_DBGNONCE_VALUE, .ro)] }
  | .SEC_DBGCTL => { block := .SEC, off := 0x80, acc := .wo, fields := [(F.SEC_DBGCTL_OP, .wo)] }
  | .SEC_DBGSTAT => { block := .SEC, off := 0x84, acc := .ro, fields := [(F.SEC_DBGSTAT_BUSY, .ro), (F.SEC_DBGSTAT_RESULT, .ro)] }
  | .SEC_OTPPROG => { block := .SEC, off := 0x90, acc := .wo, fields := [(F.SEC_OTPPROG_ITEM, .wo), (F.SEC_OTPPROG_INDEX, .wo)] }
  | .SEC_OTPRES => { block := .SEC, off := 0x94, acc := .ro, fields := [(F.SEC_OTPRES_RESULT, .ro)] }
  | .SEC_OTPDATA => { block := .SEC, off := 0x100, stride := 0x8, count := 6, width := 64, acc := .wo, fields := [(F.SEC_OTPDATA_VALUE, .wo)] }
  | .SEC_DBGRESP => { block := .SEC, off := 0x2000, stride := 0x8, count := 1024, width := 64, acc := .wo, fields := [(F.SEC_DBGRESP_VALUE, .wo)] }
  | .PCIE_CFG => { block := .PCIE, off := 0x0, acc := .rwl, profile := true, fields := [(F.PCIE_CFG_ROLE, .ro), (F.PCIE_CFG_MAX_SPEED, .rwl), (F.PCIE_CFG_MAX_WIDTH, .rwl), (F.PCIE_CFG_NUM_VF, .rwl)] }
  | .PCIE_LSTAT => { block := .PCIE, off := 0x4, acc := .ro, fields := [(F.PCIE_LSTAT_STATE, .ro), (F.PCIE_LSTAT_LINK_UP, .ro), (F.PCIE_LSTAT_SPEED, .ro), (F.PCIE_LSTAT_WIDTH, .ro), (F.PCIE_LSTAT_LTSSM, .ro)] }
  | .PCIE_FNMAP => { block := .PCIE, off := 0x100, stride := 0x4, count := 65, acc := .rwl, profile := true, fields := [(F.PCIE_FNMAP_EN, .rwl), (F.PCIE_FNMAP_PARTITION, .rwl)] }
  | .PCIE_OBWIN_BASE => { block := .PCIE, off := 0x1000, stride := 0x20, count := 16, width := 64, acc := .rwl, profile := true, fields := [(F.PCIE_OBWIN_BASE_BASE, .rwl)] }
  | .PCIE_OBWIN_SIZE => { block := .PCIE, off := 0x1008, stride := 0x20, count := 16, width := 64, acc := .rwl, profile := true, fields := [(F.PCIE_OBWIN_SIZE_SIZE, .rwl)] }
  | .PCIE_OBWIN_PADDR => { block := .PCIE, off := 0x1010, stride := 0x20, count := 16, width := 64, acc := .rwl, profile := true, fields := [(F.PCIE_OBWIN_PADDR_PADDR, .rwl)] }
  | .PCIE_OBWIN_ATTR => { block := .PCIE, off := 0x1018, stride := 0x20, count := 16, acc := .rwl, profile := true, fields := [(F.PCIE_OBWIN_ATTR_EN, .rwl), (F.PCIE_OBWIN_ATTR_FN, .rwl)] }
  | .PCIE_IBWIN_PBASE => { block := .PCIE, off := 0x2000, stride := 0x20, count := 8, width := 64, acc := .rwl, profile := true, fields := [(F.PCIE_IBWIN_PBASE_PBASE, .rwl)] }
  | .PCIE_IBWIN_SIZE => { block := .PCIE, off := 0x2008, stride := 0x20, count := 8, width := 64, acc := .rwl, profile := true, fields := [(F.PCIE_IBWIN_SIZE_SIZE, .rwl)] }
  | .PCIE_IBWIN_UADDR => { block := .PCIE, off := 0x2010, stride := 0x20, count := 8, width := 64, acc := .rwl, profile := true, fields := [(F.PCIE_IBWIN_UADDR_UADDR, .rwl)] }
  | .PCIE_IBWIN_ATTR => { block := .PCIE, off := 0x2018, stride := 0x20, count := 8, acc := .rwl, profile := true, fields := [(F.PCIE_IBWIN_ATTR_EN, .rwl), (F.PCIE_IBWIN_ATTR_PARTITION, .rwl)] }
  | .PCIE_RPMSI => { block := .PCIE, off := 0x3000, width := 64, acc := .rwl, profile := true }
  | .PCIE_ERR => { block := .PCIE, off := 0x3010, width := 64, acc := .rc, fields := [(F.PCIE_ERR_CORR, .rc), (F.PCIE_ERR_NONFATAL, .rc), (F.PCIE_ERR_FATAL, .rc), (F.PCIE_ERR_UR, .rc)] }
  | .DMA_FWMASK => { block := .DMA, off := 0x0, acc := .ro, profile := true }
  | .DMA_SRC => { block := .DMA, off := 0x1000, stride := 0x40, count := 16, width := 64, acc := .rw }
  | .DMA_DST => { block := .DMA, off := 0x1008, stride := 0x40, count := 16, width := 64, acc := .rw }
  | .DMA_LEN => { block := .DMA, off := 0x1010, stride := 0x40, count := 16, width := 64, acc := .rw }
  | .DMA_CTL => { block := .DMA, off := 0x1018, stride := 0x40, count := 16, acc := .rw, fields := [(F.DMA_CTL_GO, .w1s), (F.DMA_CTL_FILL, .rw), (F.DMA_CTL_KVSWAP, .rw), (F.DMA_CTL_SIG_EN, .rw), (F.DMA_CTL_PARTITION, .rw), (F.DMA_CTL_SIG_CTR, .rw)] }
  | .DMA_SIGINC => { block := .DMA, off := 0x1020, stride := 0x40, count := 16, width := 64, acc := .rw }
  | .DMA_STAT => { block := .DMA, off := 0x1028, stride := 0x40, count := 16, acc := .ro, fields := [(F.DMA_STAT_STATE, .ro), (F.DMA_STAT_CAUSE, .ro)] }
  | .DMA_DONE => { block := .DMA, off := 0x1030, stride := 0x40, count := 16, width := 64, acc := .ro }

/-- The registers of a block, in the order of its register map. -/
def Block.regs : Block → List Reg
  | .SYS => [.SYS_ID, .SYS_DEVSTATE, .SYS_FNSTATE0, .SYS_FNSTATE1, .SYS_FNUNITS, .SYS_FNCTL, .SYS_FNCTLSTAT, .SYS_BOOTSTAT, .SYS_RSTCAUSE, .SYS_SELECT, .SYS_GEN, .SYS_DIGEST_TAG, .SYS_STAGE_ERR, .SYS_HARTSTATE, .SYS_IRQLOST, .SYS_FNTIME, .SYS_DEPEND]
  | .CLK => [.CLK_STATUS, .CLK_SRCSEL, .CLK_FLAGS, .CLK_TRIP, .CLK_NETREF, .CLK_QUAL, .CLK_GATE, .CLK_GATE_CAM, .CLK_GATE_CAN, .CLK_SENSFREQ, .CLK_SENSCTL]
  | .PWR => [.PWR_PROFILE, .PWR_CTL, .PWR_STATUS, .PWR_POWER, .PWR_PARK, .PWR_VCORE, .PWR_BAND, .PWR_AVS_CTL, .PWR_DROOP_CFG, .PWR_DROOP_SKIPS, .PWR_TEMP, .PWR_TLIMITS, .PWR_EVENTS]
  | .CMDQ => [.CMDQ_QBASE, .CMDQ_QCPLBASE, .CMDQ_QCFG, .CMDQ_QHEAD, .CMDQ_QCPLHEAD, .CMDQ_QSTAT, .CMDQ_DB, .CMDQ_QTAIL, .CMDQ_QSEQ, .CMDQ_ERR, .CMDQ_ERRCNT, .CMDQ_UDPCFG, .CMDQ_UDPMTU, .CMDQ_OPTAB, .CMDQ_OPQUOTA]
  | .SYNC => [.SYNC_CTR, .SYNC_ADD, .SYNC_RANGE, .SYNC_STATUS, .SYNC_LAT, .SYNC_WATCHCFG, .SYNC_WATCHVAL]
  | .ESC => [.ESC_CFG, .ESC_QCYC, .ESC_STATUS, .ESC_GUARD, .ESC_REPAIR, .ESC_DISABLED, .ESC_REPSTAT, .ESC_PCFG, .ESC_RESV, .ESC_DREG, .ESC_SREG, .ESC_REGSTAT, .ESC_P99, .ESC_VTIME, .ESC_PTIME, .ESC_CTX]
  | .MEMC => [.MEMC_CAP, .MEMC_CFG, .MEMC_KEY, .MEMC_HS_CFG, .MEMC_HS_STAT, .MEMC_RW_CTL, .MEMC_RW_CFG, .MEMC_RW_STAT, .MEMC_RW_PTR, .MEMC_RW_COUNT, .MEMC_ECC_STAT, .MEMC_ECC_ADDR, .MEMC_SCRUB, .MEMC_OCC, .MEMC_REGION]
  | .FWL => [.FWL_DENY, .FWL_DENYCNT, .FWL_RBASE, .FWL_RLIMIT, .FWL_RATTR]
  | .ME => [.ME_PHYS, .ME_STATE, .ME_BASE, .ME_MASKTAB, .ME_FAULT, .ME_FLAGS, .ME_COUNTS, .ME_VEC, .ME_BUBBLE, .ME_BUSY, .ME_ECC, .ME_EWPLIST, .ME_EWPTAB, .ME_EWPCNT, .ME_WINDESC]
  | .SCAN => [.SCAN_SLOTBASE, .SCAN_SLOTCFG, .SCAN_SLOTSTAT, .SCAN_SWAPCNT, .SCAN_SWAPCFG, .SCAN_PINCTL, .SCAN_PINSTAT, .SCAN_QUOTA, .SCAN_ESTATE, .SCAN_FAULT, .SCAN_SAT, .SCAN_BUSY]
  | .ADMA => [.ADMA_POOL, .ADMA_STACKBASE, .ADMA_STACKCNT, .ADMA_PUSH, .ADMA_PMCFG, .ADMA_PMSTAT, .ADMA_STATUS, .ADMA_PIUCNT, .ADMA_NODEBASE, .ADMA_BKTBASE, .ADMA_NODECFG, .ADMA_LAYOUT, .ADMA_SEQTAB, .ADMA_SEQCNT, .ADMA_PHELD, .ADMA_PQUOTA, .ADMA_BACKING, .ADMA_APDTAB, .ADMA_HKEY, .ADMA_ESTATE, .ADMA_FAULT]
  | .VIS => [.VIS_OVCFG, .VIS_OVCNT, .VIS_BACKLOG, .VIS_USTATE, .VIS_UFAULT, .VIS_USAT, .VIS_UBUSY]
  | .CAM => [.CAM_RXCFG, .CAM_RXSTAT, .CAM_RXERR, .CAM_SENSCFG, .CAM_EXPO, .CAM_GAIN, .CAM_EXPO_COMMIT, .CAM_EXPOGEN, .CAM_SENSSTAT, .CAM_CTXCFG, .CAM_CTXSIZE, .CAM_CTXTIME, .CAM_CTXBUF, .CAM_CTXFSTAT, .CAM_CTXSTAT, .CAM_CTXSYNC, .CAM_CTXSTATE, .CAM_FSYNCCFG, .CAM_FSYNCPER]
  | .VID => [.VID_CORESTAT, .VID_COREBUSY, .VID_DCTX, .VID_DCNT, .VID_ECTX]
  | .MOT => [.MOT_CFG, .MOT_FAULTSUM, .MOT_AXCFG, .MOT_AXSTATE, .MOT_PWMCFG, .MOT_PWMDT, .MOT_SDCFG, .MOT_STEPLIM, .MOT_VMAX, .MOT_AMAX, .MOT_JMAX, .MOT_IQMAX, .MOT_IDREF, .MOT_FELIM, .MOT_FEVLIM, .MOT_FETIME, .MOT_LAGPOS, .MOT_LAGVEL, .MOT_OBSCFG, .MOT_ASCCFG, .MOT_KP_P, .MOT_KP_V, .MOT_KI_V, .MOT_KFF_V, .MOT_KFF_A, .MOT_KP_I, .MOT_KI_I, .MOT_R_S, .MOT_L_D, .MOT_L_Q, .MOT_KT, .MOT_I_FS, .MOT_V_FS, .MOT_VDC_NOM, .MOT_K1, .MOT_K2, .MOT_KP_PLL, .MOT_KI_PLL, .MOT_I_START, .MOT_RESLIM, .MOT_OBSMIN, .MOT_STARTACC, .MOT_POS, .MOT_RPOS, .MOT_VEL, .MOT_RVEL, .MOT_IDQ, .MOT_OBSSTAT, .MOT_AXCTL, .MOT_AXCNT, .MOT_AXFAULT, .MOT_ENCCFG, .MOT_ENCCPR, .MOT_ENCOFF, .MOT_ENCCNT, .MOT_ENCERR, .MOT_TRCFG, .MOT_TRSIG, .MOT_TRTHR, .MOT_TRBASE, .MOT_TRCTL, .MOT_TRSTAT, .SPW_TIME, .SPW_VAL0, .SPW_VAL1, .SPW_PUSH, .SPW_STAT]
  | .CAN => [.CAN_CTL, .CAN_NBT, .CAN_DBT, .CAN_XBT, .CAN_RAMCFG, .CAN_ERR, .CAN_ECNT, .CAN_TXREQ, .CAN_TXDONE, .CAN_RXFSTAT, .CAN_RXFACK, .CAN_HPBSTAT, .CAN_TTCFG, .CAN_TTCYC, .CAN_TTSTAT, .CAN_LTCFG, .CAN_TXLATE, .CAN_LATECNT, .CAN_TTMARK, .CAN_TTCELL, .CAN_STDFILT, .CAN_EXTFILT]
  | .ETH => [.ETH_MACCFG, .ETH_PSTAT, .ETH_CNT, .ETH_LTCFG, .ETH_TSCOMP, .ETH_GCLBASE, .ETH_GCLCYCLE, .ETH_GCLCTL, .ETH_PREEMPT, .ETH_RBASE, .ETH_RCFG, .ETH_RHEAD, .ETH_RDB, .ETH_GCL, .ETH_FILTER]
  | .CHR => [.CHR_TIME, .CHR_STATUS, .CHR_CFG, .CHR_JUMP, .CHR_RATE, .CHR_DOMCFG, .CHR_DOMOFF, .CHR_DOMRATE, .CHR_DOMSTAT, .CHR_PENDING, .CHR_STEPCNT, .CHR_EVENTS]
  | .GLK => [.GLK_CFG, .GLK_ID, .GLK_UID, .GLK_ROOT_UID, .GLK_ROOTSTAT, .GLK_CLAIMCFG, .GLK_PEERS, .GLK_TIMESTAT, .GLK_TOFF, .GLK_NAPCFG, .GLK_NAPMAX, .GLK_BARSTAT, .GLK_DIGCFG, .GLK_DIGSTAT, .GLK_REFTAG, .GLK_TBREAK, .GLK_PSTAT, .GLK_PCNT, .GLK_PDELAY]
  | .SAFE => [.SAFE_STATUS, .SAFE_CFG, .SAFE_TBCFG, .SAFE_TBSTAT, .SAFE_TBFAIL, .SAFE_WDSUM, .SAFE_WDCFG, .SAFE_WDSRC, .SAFE_WDWIN, .SAFE_WDTGT, .SAFE_WDSTAT, .SAFE_WDKICK]
  | .LOG => [.LOG_RING, .LOG_MIRROR, .LOG_SEQ, .LOG_IRQ, .LOG_STATUS, .LOG_PERSIST, .LOG_DROP]
  | .SEC => [.SEC_LIFECYCLE, .SEC_OTPSTAT, .SEC_DBGNONCE, .SEC_DBGCTL, .SEC_DBGSTAT, .SEC_OTPPROG, .SEC_OTPRES, .SEC_OTPDATA, .SEC_DBGRESP]
  | .PCIE => [.PCIE_CFG, .PCIE_LSTAT, .PCIE_FNMAP, .PCIE_OBWIN_BASE, .PCIE_OBWIN_SIZE, .PCIE_OBWIN_PADDR, .PCIE_OBWIN_ATTR, .PCIE_IBWIN_PBASE, .PCIE_IBWIN_SIZE, .PCIE_IBWIN_UADDR, .PCIE_IBWIN_ATTR, .PCIE_RPMSI, .PCIE_ERR]
  | .DMA => [.DMA_FWMASK, .DMA_SRC, .DMA_DST, .DMA_LEN, .DMA_CTL, .DMA_SIGINC, .DMA_STAT, .DMA_DONE]

end Sys2Proof.Machine
end

