-- ==== Sys2Proof/Machine/Bits.lean ====
section
/-! DEFINITION. Plain arithmetic the meanings share: sparse maps in canonical form, byte order, bit fields, signed
values, and the two checksums of R81. -/

namespace Sys2Proof.Machine

/-! Sparse maps: keys strictly rising, no entry equal to the default of its key. -/

/-- The value of key k, d k where the map lists none. -/
def sparseGet {α : Type} (d : Nat → α) : List (Nat × α) → Nat → α
  | [], k => d k
  | (k', v) :: m, k => if k < k' then d k else if k = k' then v else sparseGet d m k

/-- The map with key k at v, in canonical form. -/
def sparseSet {α : Type} [DecidableEq α] (d : Nat → α) : List (Nat × α) → Nat → α → List (Nat × α)
  | [], k, v => if v = d k then [] else [(k, v)]
  | (k', v') :: m, k, v =>
    if k < k' then (if v = d k then (k', v') :: m else (k, v) :: (k', v') :: m)
    else if k = k' then (if v = d k then m.dropWhile (fun e => decide (e.1 ≤ k)) else (k, v) :: m)
    else (k', v') :: sparseSet d m k v

/-- The canonical form. -/
def sparseWf {α : Type} [DecidableEq α] (d : Nat → α) : List (Nat × α) → Bool
  | [] => true
  | (k, v) :: m => decide (v ≠ d k) && m.all (fun e => decide (k < e.1)) && sparseWf d m

/-- The map with every key of the range [lo, hi) at its default. -/
def sparseClear {α : Type} (m : List (Nat × α)) (lo hi : Nat) : List (Nat × α) :=
  m.filter (fun e => decide (e.1 < lo ∨ hi ≤ e.1))

/-- Values written at consecutive keys. -/
def sparseSetList {α : Type} [DecidableEq α] (d : Nat → α) : List (Nat × α) → Nat → List α → List (Nat × α)
  | m, _, [] => m
  | m, k, v :: vs => sparseSetList d (sparseSet d m k v) (k + 1) vs

/-- Values read at n consecutive keys. -/
def sparseGetList {α : Type} (d : Nat → α) (m : List (Nat × α)) : Nat → Nat → List α
  | _, 0 => []
  | k, n + 1 => sparseGet d m k :: sparseGetList d m (k + 1) n

/-! Bytes, little-endian (R11, R78). -/

/-- The number a byte list holds, least significant byte first. -/
def leNat : List Byte → Nat
  | [] => 0
  | b :: bs => b.toNat + 256 * leNat bs

/-- The n low bytes of v, least significant first. -/
def toLe : Nat → Nat → List Byte
  | 0, _ => []
  | n + 1, v => BitVec.ofNat 8 v :: toLe n (v / 256)

/-- n bytes of a list from offset off. -/
def bytesAt (bs : List Byte) (off n : Nat) : List Byte := (bs.drop off).take n

/-- The n-byte little-endian number at offset off. -/
def leAt (bs : List Byte) (off n : Nat) : Nat := leNat (bytesAt bs off n)

/-- True when every byte is zero. -/
def allZero (bs : List Byte) : Bool := bs.all (fun b => b == 0)

/-- A list brought to length n with zero bytes. -/
def padTo (n : Nat) (bs : List Byte) : List Byte := bs ++ List.replicate (n - bs.length) 0

/-! Fields and signed values. -/

/-- Bits hi down to lo of a number. -/
def bitsOf (v hi lo : Nat) : Nat := (v >>> lo) % 2 ^ (hi + 1 - lo)

/-- Bit i of a number. -/
def bitOf (v i : Nat) : Bool := v.testBit i

/-- A number with bit i set. -/
def withBit (v i : Nat) : Nat := if v.testBit i then v else v + 2 ^ i

/-- A truth value as one bit. -/
def b2n (b : Bool) : Nat := if b then 1 else 0

/-- The mask of a field in its register. -/
def Fld.mask (f : Fld) : Word := BitVec.ofNat 64 ((2 ^ (f.hi + 1 - f.lo) - 1) <<< f.lo)

/-- The value of a field of a register's value. -/
def Fld.of (f : Fld) (v : Word) : Nat := bitsOf v.toNat f.hi f.lo

/-- A register's value with one field changed. -/
def Fld.into (f : Fld) (v : Word) (n : Nat) : Word :=
  (v &&& ~~~ f.mask) ||| (BitVec.ofNat 64 (n <<< f.lo) &&& f.mask)

/-- The w low bits of v as a two's-complement number. -/
def signedOf (w v : Nat) : Int :=
  if v % 2 ^ w < 2 ^ (w - 1) then (v % 2 ^ w : Nat) else (v % 2 ^ w : Nat) - (2 ^ w : Nat)

/-- The w-bit two's-complement pattern of an integer. -/
def ofSigned (w : Nat) (x : Int) : Nat := (x % (2 ^ w : Nat)).toNat

/-- An integer held between two bounds. -/
def clampInt (lo hi x : Int) : Int := if x < lo then lo else if hi < x then hi else x

/-- An integer held to the range of a w-bit two's-complement number. -/
def clampSigned (w : Nat) (x : Int) : Int := clampInt (-(2 ^ (w - 1) : Nat)) ((2 ^ (w - 1) : Nat) - 1) x

/-- A natural number held to w bits by saturation. -/
def satNat (w n : Nat) : Nat := min n (2 ^ w - 1)

/-- The smallest multiple of a at or above n (a not 0). -/
def roundUp (n a : Nat) : Nat := (n + a - 1) / a * a

/-- An integer divided by a positive number, rounded to nearest, ties to even. -/
def divRne (x : Int) (d : Nat) : Int :=
  let q := x / (d : Int)
  let r := x - q * d
  if 2 * r < d then q else if (d : Int) < 2 * r then q + 1 else if q % 2 = 0 then q else q + 1

/-- An integer divided by a positive number, rounded to nearest, ties away from zero. -/
def divRna (x : Int) (d : Nat) : Int :=
  if 0 ≤ x then (2 * x + d) / (2 * d) else -((2 * (-x) + d) / (2 * d))

/-- An integer divided by a positive number, rounded towards zero. -/
def divTrunc (x : Int) (d : Nat) : Int := if 0 ≤ x then x / d else -((-x) / d)

/-- Numbers in ascending order with one more. -/
def insertNat (n : Nat) : List Nat → List Nat
  | [] => [n]
  | m :: l => if n ≤ m then n :: m :: l else m :: insertNat n l

/-- Numbers in ascending order. -/
def sortNat (l : List Nat) : List Nat := l.foldr insertNat []

/-! The checksums of R81. -/

/-- Eight shift steps of the CRC-16 with polynomial 0x1021. -/
def crc16Bits : Nat → Nat → Nat
  | 0, c => c
  | n + 1, c => crc16Bits n (if c.testBit 15 then ((c * 2) % 65536) ^^^ 0x1021 else c * 2)

/-- CRC-16: polynomial 0x1021, no reflection, no final XOR, from the value c. -/
def crc16From : Nat → List Byte → Nat
  | c, [] => c
  | c, b :: bs => crc16From (crc16Bits 8 (c ^^^ (b.toNat * 256))) bs

/-- R81: the CRC-16 with initial value 0xFFFF. -/
def crc16 (bs : List Byte) : Nat := crc16From 0xFFFF bs

/-- Eight shift steps of the reflected CRC-32C (polynomial 0x1EDC6F41, reflected 0x82F63B78). -/
def crc32cBits : Nat → Nat → Nat
  | 0, c => c
  | n + 1, c => crc32cBits n (if c % 2 = 1 then (c / 2) ^^^ 0x82F63B78 else c / 2)

/-- CRC-32C without initial value and final XOR, from the value c. -/
def crc32cFrom : Nat → List Byte → Nat
  | c, [] => c
  | c, b :: bs => crc32cFrom (crc32cBits 8 (c ^^^ b.toNat)) bs

/-- R81: the CRC-32C, initial value 0xFFFF_FFFF and final XOR 0xFFFF_FFFF. -/
def crc32c (bs : List Byte) : Nat := crc32cFrom 0xFFFFFFFF bs ^^^ 0xFFFFFFFF

end Sys2Proof.Machine
end

