-- ==== Sys2Proof/Machine/RegFile.lean ====
section
/-! DEFINITION. The register file: one sparse map from register keys to values, what is listed in it at reset, and the
package the reset values depend on (R1, R42, R450). -/

namespace Sys2Proof.Machine

/-- OTP contents (R450): lifecycle, key hashes by slot with their revocation bits, debug key hashes, the anti-rollback
counter, the repair rows as (slot, spare) pairs, failed engines and the engines fused off (see log entry 2, DESIGN CHOICE). -/
structure Otp where
  secured : Bool := true
  mldsa : List (Option Nat) := [none, none, none, none]
  ecdsa : List (Option Nat) := [none, none, none, none]
  mldsaRevoked : Nat := 0
  ecdsaRevoked : Nat := 0
  dbgMldsa : Option Nat := none
  dbgEcdsa : Option Nat := none
  rollback : Nat := 0
  repairs : List (Nat × Nat) := []
  failed : Nat := 0
  fusedOff : Nat := 0
  deriving DecidableEq, Repr

/-- What differs between packages: part number (R1), grade, die revisions, unique device ID and OTP (see log entry 2, DESIGN CHOICE). -/
structure Chip where
  part : Nat := 0x9640
  gradeX : Bool := false
  cdieRev : Nat := 0
  iodieRev : Nat := 0
  uid : Nat := 0
  otp : Otp := {}
  deriving DecidableEq, Repr

/-- The key of a register's element (i, j). -/
def Reg.key (r : Reg) (i j : Nat) : Nat := Nat.pair r.ctorIdx (Nat.pair i j)

/-- R1: Matrix Engine slots of a part (see log entry 2, DESIGN CHOICE). -/
def Chip.slots (c : Chip) : Nat := if c.part = 0x9640 then 32 else 24

/-- R131: DRAM capacity in GiB (see log entry 2, DESIGN CHOICE). -/
def Chip.gib (c : Chip) : Nat := if c.part = 0x9640 then 192 else 96

/-- R154: the physical engine behind a slot, after the repairs recorded in OTP in order (see log entry 2, DESIGN CHOICE). -/
def repairMap (repairs : List (Nat × Nat)) (slot : Nat) : Nat :=
  repairs.foldl (fun p e => if e.1 = slot then e.2 else p) slot

/-- R286: the physical engines that the repairs recorded in OTP retired. -/
def retiredBy (repairs : List (Nat × Nat)) : List Nat :=
  (List.range repairs.length).map (fun k => repairMap (repairs.take k) (repairs.getD k (0, 0)).1)

/-- The physical engines that no slot reaches and that are neither retired nor failed nor fused off, as a mask of 36 bits. -/
def Chip.spares (c : Chip) (phys : Nat → Nat) : Nat :=
  (List.range 36).foldl
    (fun m n =>
      if (List.range c.slots).any (fun s => phys s == n) || (retiredBy c.otp.repairs).contains n || c.otp.failed.testBit n ||
          c.otp.fusedOff.testBit n then m
      else m + 2 ^ n) 0

/-- The mask of slots of a key-hash list that are written. -/
def writtenMask : List (Option Nat) → Nat
  | [] => 0
  | h :: t => b2n h.isSome + 2 * writtenMask t

/-- Table SYS-7: built-in prerequisites of the functions, as masks. -/
def builtinDeps : List Nat :=
  [0, 1, 1, 0x4000, 1, 1, 0x20, 0x20, 0x30, 0x20, 0x4010, 0x10, 0x8000, 0x8000, 1, 1, 0x10]

/-- A value per index of a register. -/
def perIndex (r : Reg) (n : Nat) (v : Nat → Nat) : List (Reg × Nat × Nat × Nat) :=
  (List.range n).map (fun k => (r, k, 0, v k))

/-- The single registers whose reset value the spec gives as a number that is not zero. -/
def resetSingles : List (Reg × Nat) :=
  [(.SYS_DEVSTATE, 1), (.SYS_RSTCAUSE, 1), (.CLK_STATUS, 0x402), (.CLK_SRCSEL, 2), (.CLK_NETREF, 0x140000),
   (.CLK_GATE, 0x8001), (.PWR_DROOP_CFG, 0x28), (.MEMC_RW_CFG, 0x03E80008), (.ADMA_PMCFG, 0x00640032),
   (.VIS_OVCFG, 0x7D0), (.GLK_CLAIMCFG, 0x00640064), (.GLK_NAPCFG, 0x001407D0), (.GLK_NAPMAX, 0x3E8), (.GLK_DIGCFG, 0x02580000),
   (.SAFE_STATUS, 0x40000003), (.SAFE_TBCFG, 0x40), (.ESC_CFG, 0x200), (.ESC_GUARD, 0x64), (.CHR_CFG, 0xA)]

/-- The single registers whose reset value depends on the package or its OTP (see log entry 2, DESIGN CHOICE). -/
def resetOfChip (c : Chip) : List (Reg × Nat) :=
  [(.SYS_ID, 65536 * c.part + b2n c.gradeX * 4096 + c.cdieRev * 256 + c.iodieRev * 16),
   (.PWR_TLIMITS, if c.gradeX then 0x8778 else 0x7364),
   (.MEMC_CAP, 0x1000000 * c.gib + (if c.part = 0x9640 then 64 else 32)),
   (.GLK_UID, c.uid), (.SEC_LIFECYCLE, b2n c.otp.secured),
   (.SEC_OTPSTAT, 0x1000000 * c.otp.rollback + 0x100000 * writtenMask c.otp.mldsa +
     0x10000 * writtenMask c.otp.ecdsa + 0x1000 * c.otp.mldsaRevoked + c.otp.ecdsaRevoked * 0x100 +
     b2n c.otp.dbgMldsa.isSome * 2 + b2n c.otp.dbgEcdsa.isSome),
   (.ESC_REPSTAT, 2 ^ 28 * c.spares (repairMap c.otp.repairs) + 65536 * c.otp.repairs.length),
   (.ESC_DISABLED, (retiredBy c.otp.repairs).foldl (fun m n => m ||| 2 ^ n) (c.otp.failed ||| c.otp.fusedOff))]

/-- The registers with an index whose reset value is not zero. -/
def resetIndexed (c : Chip) : List (Reg × Nat × Nat × Nat) :=
  [perIndex .SYS_DEPEND 17 (fun n => builtinDeps.getD n 0), perIndex .CLK_SENSFREQ 8 (fun _ => 0x016E3600),
   perIndex .CLK_SENSCTL 8 (fun _ => 0x1E), perIndex .ME_PHYS c.slots (fun n => n * 256 + repairMap c.otp.repairs n),
   perIndex .MEMC_REGION 192 (fun n => n), perIndex .MOT_OBSCFG 16 (fun _ => 0x8400C864),
   perIndex .MOT_ASCCFG 16 (fun _ => 2000 * 65536),
   perIndex .SPW_STAT 16 (fun _ => 0x40), perIndex .CAN_LTCFG 8 (fun _ => 0x186A0),
   perIndex .ETH_LTCFG 9 (fun _ => 0x3E8)].flatten

/-- The registers whose reset value the spec gives and that is not zero (see log entry 3, DESIGN CHOICE). -/
def resetEntries (c : Chip) : List (Reg × Nat × Nat × Nat) :=
  (resetSingles ++ resetOfChip c).map (fun e => (e.1, 0, 0, e.2)) ++ resetIndexed c

/-- The register file at reset: every register not listed is zero (see log entry 3, DESIGN CHOICE). -/
def resetRegs (c : Chip) : List (Nat × Word) :=
  (resetEntries c).foldl
    (fun m e => sparseSet (fun _ => 0) m (e.1.key e.2.1 e.2.2.1) (BitVec.ofNat 64 e.2.2.2)) []

end Sys2Proof.Machine
end

