-- ==== Sys2Proof/Syntax.lean ====
section
/-! DEFINITION. The commands of the block, one constructor per row of spec/opcode_table.json, with the operands that the
rows' rules name: what a packet carries, what a register write carries, and what an event of the outside world measures. -/

namespace Sys2Proof

/-- A command packet as it stands in its queue (R78, R79): header fields, payload bytes as sent and both checksums.
OPCLASS and OPCODE are the constructor's that carries it (see log entry 8, DEDUCED). -/
structure Packet where
  queue : Nat
  seq : Nat := 0
  partition : Nat := 0
  destDev : Nat := 0xFFFFF
  flags : Nat := 0
  target : Nat := 0
  sigCtr : Nat := 0
  sigInc : Nat := 0
  waitCtr : Nat := 0
  waitVal : Nat := 0
  version : Nat := 1
  plen : Nat := 0
  payload : List Byte := []
  hcrc : Nat := 0
  trailer : Nat := 0
  deriving DecidableEq, Repr, Inhabited

/-- A register write: the value and the 10-bit initiator ID it carries (R119). -/
structure RegWrite where
  value : Nat
  initiator : Nat := 0
  deriving DecidableEq, Repr

/-- FN_STOP and FN_START come as a packet or as a write of SYS_FNCTL (R37). -/
inductive FnReq where
  | packet (p : Packet)
  | fnctl (w : RegWrite)
  deriving DecidableEq, Repr

/-- An EWP function table slot as the FW_MGMT section holds it (R183): X0, SHIFT, the values and mode bits outside the range,
and 64 segments of four coefficients. -/
structure EwpTable where
  x0 : Nat
  shift : Int
  lo : Nat
  hi : Nat
  loClamp : Bool
  hiClamp : Bool
  segments : List (Nat × Nat × Nat × Nat)
  deriving DecidableEq, Repr

/-- A stream gate (R416): its base time, its cycle, and its list of states and intervals in ns. -/
structure StreamGate where
  base : Nat := 0
  cycle : Nat := 0
  entries : List (Bool × Nat) := []
  deriving DecidableEq, Repr

/-- A flow meter (R416): committed and excess information rate in bits per second, committed and excess burst in bytes. -/
structure FlowMeter where
  cir : Nat := 0
  cbs : Nat := 0
  eir : Nat := 0
  ebs : Nat := 0
  deriving DecidableEq, Repr

/-- The settings of a profile as its firmware decodes them (R487): register loads by address, and the parameters that a rule names and that
are no register: among them the function (0 to 16) of each multiplexed ball (row × 256 + column), the reference identifiers by bus (R429),
the PCIe function of a queue (R97), the peak pixel rate and the bytes of a line in the line buffers of each ISP context and the decode
contexts' bytes there (R337), of each sensor the register addresses that carry its exposure (false) and gain (true) with the byte of the
value at each (R330), the firmware version of each function (Table GLK-6), the UDP ports of commands and heartbeats (R99, R323), the MAC,
multicast address and UDP port of heartbeats (R323), the stream gates and flow meters by port and number (R416), the permitted sources of a
UDP queue (queue, IPv6, prefix, its length; R99), the hart and file (0 M, 1 S, 2 to 5 guest) of a partition's vector (R147), the overflow
ring of a partition with its entries and OVF_VEC (R148), a partition's DRAM swap area for scan streams and its bytes (R199), and each
partition's load address with its boot loader (R146). -/
structure Settings where
  enabled : Nat := 1
  essential : Nat := 0
  deps : List (Nat × Nat) := []
  tDrainMs : Option Nat := none
  units : List (Nat × Nat) := []
  created : Nat := 1
  loads : List (Nat × Nat) := []
  inService : List Nat := []
  balls : List (Nat × Nat) := []
  canRefIds : List (Nat × Nat) := []
  queueFns : List (Nat × Nat) := []
  pixelRates : List (Nat × Nat) := []
  lineBytes : List (Nat × Nat) := []
  decodeBytes : Nat := 0
  sensorRegs : List (Nat × Nat × Bool × Nat) := []
  irqRoutes : List (Nat × Nat × Nat × Nat) := []
  watches : List Nat := []
  smemGranules : List (Nat × Nat) := []
  dramShare : List (Nat × Nat × Nat) := []
  program : List (Nat × List Byte) := []
  ewpTables : List (Option EwpTable) := []
  ewpVersion : Nat := 0
  nodeQuota : List (Nat × Nat) := []
  harts : List (Nat × Nat) := []
  overflow : List (Nat × Nat × Nat × Nat) := []
  swapAreas : List (Nat × Nat × Nat) := []
  firmware : List (Nat × Nat) := []
  udpPorts : List Nat := []
  heartbeatTo : Option (Nat × Nat × Nat) := none
  streamGates : List (Nat × Nat × StreamGate) := []
  flowMeters : List (Nat × Nat × FlowMeter) := []
  udpSources : List (Nat × Bool × Nat × Nat) := []
  appLoad : List (Nat × Nat × List Byte) := []
  deriving DecidableEq, Repr

/-- What reading a profile yields that the container's bytes do not: the settings as its firmware decodes them (R487)
(see log entry 32, DEDUCED). -/
structure Reading where
  settings : Settings := {}
  deriving DecidableEq, Repr

/-- A function's firmware, loaded while the target reads STOPPED (R41): its version, anti-rollback value, bytes, and the key slots, public
keys and signatures of its signature block (see log entry 78, DEDUCED). -/
structure FwImage where
  version : Nat := 0
  rollback : Nat := 0
  image : List Byte := []
  mldsaSlot : Nat := 0
  ecdsaSlot : Nat := 0
  mldsaKey : List Byte := []
  ecdsaKey : List Byte := []
  mldsaSig : List Byte := []
  ecdsaSig : List Byte := []
  deriving DecidableEq, Repr

/-- How the flash writes of a LOAD_PROFILE end (R34): all done, a failure before the slot's commit marker, or one in the header write
after it. -/
inductive FlashEnd where
  | done | slotFailed | headerFailed
  deriving DecidableEq, Repr

/-- The monitors of Table CLK-2 and what trips them. -/
inductive ClockTrip where
  | refMissing | refAmplitude | refCoarse | netMissing | netCoarse | netWindow | pllUnlock
  deriving DecidableEq, Repr

/-- A UDP source or destination: IPv6 or IPv4, its address and port. -/
structure UdpPeer where
  v6 : Bool := true
  addr : Nat := 0
  port : Nat := 0
  deriving DecidableEq, Repr

/-- A UDP datagram on the command port (R99): the packet it holds, with class and opcode, its source, and whether it is a
fragment (see log entry 70, DEDUCED). -/
structure Datagram where
  cls : Nat
  code : Nat
  packet : Packet
  source : UdpPeer := {}
  fragment : Bool := false
  deriving DecidableEq, Repr

/-- What starts or kicks a watchdog (R438): a signal to its counter, or a write of SAFE_WDKICK. -/
inductive WdSource where
  | counter
  | register (w : RegWrite)
  deriving DecidableEq, Repr

/-- What a current-loop tick samples (R365, R368): the modulator bits of the three inputs, 3 × OSR of each, centred on the sampling
instant; by piece of time since the last tick that read the axis's encoder interface, the piece's length in ns and the levels of ENCA, ENCB
and ENCZ in its bits 0 to 2; and the frame of an SSI encoder: start bit, data from the most significant bit, parity bit where one
follows, and the level of the line after it. -/
structure MotSample where
  a : List Bool
  b : List Bool
  c : List Bool
  enc : List (Nat × Nat) := []
  frame : List Bool := []
  deriving DecidableEq, Repr

/-- The kinds of encoder fault (R368, R370). -/
inductive EncFault where
  | illegal | index | frame | hall
  deriving DecidableEq, Repr

/-- What the memory controller measures in a window (R137, R138): each channel's occupancy in units of 0.1 %, the requests that regions
sent to channels (channel, region, count), the addresses of the errors that ECC corrected in it, in reads of SMEM and DRAM and by the
patrol scrub, and of the uncorrectable ones that the patrol scrub met (R128, R133) (see log entry 94, DEDUCED). -/
structure Occupancy where
  occ : List Nat
  requests : List (Nat × Nat × Nat) := []
  corrected : List Nat := []
  uncorrected : List Nat := []
  deriving DecidableEq, Repr

/-- Why a re-weave stops (R142): an uncorrectable block, FN_STOP of FN_DRAM, or a write of MEMC_RW_CTL that sets ABORT. -/
inductive RwAbort where
  | ecc
  | fnStop
  | firmware (w : RegWrite)
  deriving DecidableEq, Repr

/-- The PCIe errors that PCIE_ERR counts (R116). -/
inductive PcieError where
  | correctable | nonFatal | fatal
  deriving DecidableEq, Repr

/-- What the PCIe link brings: in the root-port role a read or write from downstream at a PCIe address (R98), in the endpoint role
one of a function's BAR (R97), a function's power state, D0 or D3hot, an error, or a change of the LTSSM as ASPM L1 makes (R96). -/
inductive PcieReq where
  | power (fn : Nat) (d3hot : Bool)
  | error (e : PcieError)
  | ltssm (state : Nat)
  | read (a n : Nat)
  | write (a : Nat) (data : List Byte)
  | barRead (fn bar off n : Nat)
  | barWrite (fn bar off : Nat) (data : List Byte)
  deriving DecidableEq, Repr

/-- An error that an engine meets: in a read of memory at an address, in a read of the Append Unit for a sequence, or in its local stores. -/
inductive EccEvent where
  | none | memory (a : Nat) | append (a seq : Nat) | storeCorrected | storeUncorrectable
  deriving DecidableEq, Repr

/-- A Matrix Engine instruction in a slot (R155): its 128 bits, the error it meets, the bubbles inserted while it streams and
the cycles it keeps the array busy. -/
structure MeStep where
  slot : Nat
  word : Nat
  ecc : EccEvent := .none
  feed : Nat := 0
  drain : Nat := 0
  busy : Nat := 0
  deriving DecidableEq, Repr

/-- A Scan Engine's kernel as it runs: the engine, the sequence of the batch whose read meets an uncorrectable error and the
error's address, and the cycles that the kernel takes. -/
structure ScanRun where
  engine : Nat
  ecc : Option (Nat × Nat) := none
  cycles : Nat := 0
  deriving DecidableEq, Repr

/-- An ADMA engine's gather as it runs: the engine, and the address at which a read meets an uncorrectable error. -/
structure GatherRun where
  engine : Nat
  ecc : Option Nat := none
  deriving DecidableEq, Repr

/-- A job as it runs on a unit of VIS: the unit of its kind, and the address at which a read meets an uncorrectable error. -/
structure VisRun where
  unit : Nat
  ecc : Option Nat := none
  deriving DecidableEq, Repr

/-- A regulator window as it ends (R277, R278): of DRAM or SMEM, and the bytes that each partition's application cores accessed in it, whose
accesses are no command. -/
structure Regulated where
  dram : Bool
  harts : List (Nat × Nat) := []
  deriving DecidableEq, Repr

/-- A Tourbillon slot (R444, R445): the checker tested, whether a real fault arrived meanwhile, and whether its responses were the
expected ones. -/
structure TbSlot where
  checker : Nat
  realFault : Bool := false
  passed : Bool := true
  deriving DecidableEq, Repr

/-- A Grenlink port of a member of the cluster that has trained: the lanes that trained and whether they are reversed (R290, R291). -/
structure LinkUp where
  member : Nat
  port : Nat
  lanes : Nat := 0xF
  reversed : Bool := false
  deriving DecidableEq, Repr

/-- A HELLO flit (R298). -/
structure Hello where
  member : Nat
  cluster : Nat
  uid : Nat
  port : Nat
  deriving DecidableEq, Repr

/-- A member announcement (R299). -/
structure Announce where
  member : Nat
  cluster : Nat
  uid : Nat
  prio : Nat
  hops : Nat := 0
  deriving DecidableEq, Repr

/-- What a link and the route behind it measure (R307): the one-way delay in 0.1 ns, the neighbour's Chronometer minus the own and
the neighbour's GLK_TOFF in 1/16 ns, and whether every further link on the route to the root is calibrated. -/
structure DelayMeasure where
  port : Nat
  delay : Nat
  offset : Int := 0
  peerToff : Int := 0
  calibrated : Bool := true
  deriving DecidableEq, Repr

/-- ARM of a start barrier (R308): its number at the root, the packet's partition, counter and increment, and T_start in cluster
time. -/
structure BarArm where
  id : Nat
  partition : Nat
  ctr : Nat
  inc : Nat
  start : Nat
  deriving DecidableEq, Repr

/-- What members of a cluster send one another (R298 to R310). -/
inductive GlkMsg where
  | hello (h : Hello)
  | announce (a : Announce)
  | claim (prio uid : Nat)
  | napProposal (wake : Nat)
  | napAccept
  | wake
  | arm (x : BarArm)
  | reply (id : Nat) (ack : Bool)
  | decision (id : Nat) (confirm : Bool)
  | report (id : Nat) (released : Bool)
  | replay (flit : Nat)
  deriving DecidableEq, Repr

/-- A frame start or frame end short packet: receiver, virtual channel, frame number, and whether ECC corrected its header. -/
structure ShortPacket where
  rx : Nat
  vc : Nat
  num : Nat := 0
  corrected : Bool := false
  deriving DecidableEq, Repr

/-- What header ECC finds (R343). -/
inductive HeaderEcc where
  | good | corrected | bad
  deriving DecidableEq, Repr

/-- A CSI-2 long packet: receiver, virtual channel, data type, word count, payload, what header ECC finds and whether the payload's
CRC-16 matches (R343). -/
structure LongPacket where
  rx : Nat
  vc : Nat
  dt : Nat
  wc : Nat
  data : List Byte
  ecc : HeaderEcc := .good
  crcOk : Bool := true
  deriving DecidableEq, Repr

/-- Which picture an access unit outputs (R353): none, the one it decodes, or the one in a slot. -/
inductive OutPick where
  | nothing
  | this
  | slot (n : Nat)
  deriving DecidableEq, Repr

/-- What the bitstream of an access unit says (R350 to R353): whether it is a random-access point, the picture's size, the DPB size
required, the declared level's largest picture in luma samples, a feature outside Table VID-1, the damage met (the address of the first
damaged coding block and the offset of the first byte not decoded) with the block's side, the slot of entry 0 of reference list 0, the slots
that stay references, the picture output, and the core's cycles (see log entry 54, DEDUCED). -/
structure AccessUnit where
  rap : Bool := true
  w : Nat := 64
  h : Nat := 64
  dpb : Nat := 1
  level : Nat := 8912896
  unsupported : Bool := false
  damage : Option (Nat × Nat) := none
  block : Nat := 16
  ref : Option Nat := none
  keep : List Nat := []
  output : OutPick := .this
  cycles : Nat := 0
  deriving DecidableEq, Repr

/-- What ENC_CREATE's payload says (R354), whose layout the manual does not give: codec, profile, size, frame rate and rate control. -/
structure EncSettings where
  codec : Nat := 0
  profile : Nat := 0
  w : Nat := 64
  h : Nat := 64
  fps : Nat := 30
  rate : Nat := 0
  deriving DecidableEq, Repr

/-- What a JPEG job's payload and its image say (R355); the payload's layout is not given. The source's or destination's address and
length (an object's handle reference in encoding), the planar reference, MAX_W and MAX_H, the quality or table selection, the image's
size, its MCU's size, a feature outside Table VID-1, the damaged runs of MCUs with the offset of the first byte not decoded, the
bytes consumed, and the offset at which its read meets an uncorrectable error (R128, R133). -/
structure JpegJob where
  addr : Nat
  len : Nat := 0
  planar : List Byte
  maxW : Nat := 16384
  maxH : Nat := 16384
  select : Nat := 0
  w : Nat := 8
  h : Nat := 8
  mcuW : Nat := 8
  mcuH : Nat := 8
  unsupported : Bool := false
  damage : List (Nat × Nat) := []
  offset : Nat := 0
  consumed : Nat := 0
  cycles : Nat := 0
  ue : Option Nat := none
  deriving DecidableEq, Repr

/-- A received Ethernet frame (R408, R409): its port, its bytes without FCS, whether the FCS is right, and how long ago its SFD
passed. -/
structure EthRx where
  port : Nat
  data : List Byte
  fcsOk : Bool := true
  age : Nat := 0
  deriving DecidableEq, Repr

/-- A gPTP message (R398): the port it came in on, its domainNumber, logMessageInterval and sequence number. -/
structure PtpMsg where
  port : Nat
  domain : Nat
  interval : Int := 0
  seq : Nat := 0
  deriving DecidableEq, Repr

/-- A received CAN frame: the fields of Table CAN-2, its data, and how long ago the sample point of its SOF bit was. -/
structure CanRx where
  id : Nat
  flags : Nat := 0
  data : List Byte := []
  af : Nat := 0
  age : Nat := 0
  deriving DecidableEq, Repr

/-- What else ISO 11898-1 counts an error by (R425): nothing, a dominant bit where the error flag's end was expected or within it, or a
stuff error of the sender in the arbitration field. -/
inductive CanErrKind where
  | plain | dominant | arbitration
  deriving DecidableEq, Repr

/-- Whose frame an error or a lost arbitration meets: one being received, a TX element's, or the own reference message. -/
inductive CanRole where
  | receiver
  | element (e : Nat)
  | reference
  deriving DecidableEq, Repr

/-- The commands. Each names its row of spec/opcode_table.json and the rule that governs it. -/
inductive Instr where
  /-- POWER_ON_RESET (R36). -/
  | powerOnReset
  /-- RAIL_MONITOR_TRIP (R478). -/
  | railMonitorTrip (rail : Nat)
  /-- PORST_N_ASSERT (R36). -/
  | porstNAssert
  /-- PORST_N_RELEASE (R472). -/
  | porstNRelease (crown1 crown0 refsel : Bool)
  /-- THERMTRIP_N (R75). -/
  | thermtripN (sensor : Nat)
  /-- REFCLK_READY (R46). -/
  | refclkReady
  /-- REFCLK_ABSENT (R24). -/
  | refclkAbsent
  /-- FLASH_READ_TIMEOUT (R18). -/
  | flashReadTimeout
  /-- PROFILE_READ_DONE (R18). -/
  | profileReadDone (r : Reading)
  /-- FUNCTION_START (R27). -/
  | functionStart (fn unit : Nat)
  /-- FUNCTION_READY (R25). -/
  | functionReady (fn unit : Nat)
  /-- FUNCTION_START_FAULT (R28). -/
  | functionStartFault (fn unit : Nat)
  /-- LOAD_PROFILE (R32). -/
  | loadProfile (p : Packet) (r : Reading)
  /-- LOAD_PROFILE_FLASH_DONE (R34). -/
  | loadProfileFlashDone (e : FlashEnd) (sizeLog2 : Nat)
  /-- SELECT_PROFILE (R22). -/
  | selectProfile (p : Packet) (flashOk : Bool)
  /-- WARM_RESET (R36). -/
  | warmReset (p : Packet)
  /-- FN_STOP (R38). -/
  | fnStop (r : FnReq)
  /-- FN_START (R38). -/
  | fnStart (r : FnReq) (fw : Option FwImage)
  /-- DRAIN_COMPLETE (R38). -/
  | drainComplete (fn unit : Nat)
  /-- DRAIN_TIMEOUT (R40). -/
  | drainTimeout (fn unit : Nat)
  /-- STATUS_READ (R491). -/
  | statusRead (p : Packet)
  /-- LOG_READ (R460). -/
  | logRead (p : Packet)
  /-- CLOCK_MONITOR_TRIP (R49). -/
  | clockMonitorTrip (t : ClockTrip)
  /-- PLL_RELOCK (R51). -/
  | pllRelock
  /-- NETREF_READY (R47). -/
  | netrefReady
  /-- CLK_SRCSEL_REQ (R52). -/
  | clkSrcselReq (w : RegWrite)
  /-- CLK_NETREF_WRITE (R54). -/
  | clkNetrefWrite (w : RegWrite)
  /-- CLK_GATE_WRITE (R58). -/
  | clkGateWrite (k : Nat) (w : RegWrite)
  /-- GATED_READ (R57). -/
  | gatedRead (addr initiator : Nat)
  /-- SENSCLK_ENABLE (R60). -/
  | sensclkEnable (n : Nat) (w : RegWrite)
  /-- POWER_MANAGER_STEP (R63). -/
  | powerManagerStep (reading : Option Nat) (estimate : Nat)
  /-- PMBUS_LOST (R62). -/
  | pmbusLost
  /-- PWR_CAP_UNMET (R64). -/
  | pwrCapUnmet
  /-- LOAD_BAND_WINDOW (R69). -/
  | loadBandWindow (busyPercent : Nat)
  /-- BAND_MEASURED (R70). -/
  | bandMeasured (band offset tj : Nat)
  /-- AVS_LOWER (R72). -/
  | avsLower
  /-- PWR_AVS_INVALIDATE (R71). -/
  | pwrAvsInvalidate (w : RegWrite)
  /-- DROOP_DETECT (R73). -/
  | droopDetect (belowMv : Nat)
  /-- THERMAL_THROTTLE (R74). -/
  | thermalThrottle (sensor tj : Nat)
  /-- CMDQ_DB (R92). -/
  | cmdqDb (q : Nat) (w : RegWrite)
  /-- UDP_DATAGRAM (R100). -/
  | udpDatagram (d : Datagram)
  /-- UDP_ACK_TIMER (R100). -/
  | udpAckTimer (q : Nat)
  /-- CPL_ACK (R101). -/
  | cplAck (d : Datagram)
  /-- CPL_RESEND (R101). -/
  | cplResend (q : Nat)
  /-- GLK_MESSAGE_RX (R102). -/
  | glkMessageRx (cls code : Nat) (p : Packet)
  /-- RING_ACCESS_FAULT (R492). -/
  | ringAccessFault (q : Nat) (write : Bool) (initiator : Nat)
  /-- QUEUE_ENABLE (R93). -/
  | queueEnable (q : Nat) (w : RegWrite)
  /-- QUEUE_DISABLE (R93). -/
  | queueDisable (q : Nat) (w : RegWrite)
  /-- QUEUE_DRAINED (R93). -/
  | queueDrained (q : Nat)
  /-- CPL_HEAD_WRITE (R94). -/
  | cplHeadWrite (q : Nat) (w : RegWrite)
  /-- NOP (R85). -/
  | nop (p : Packet)
  /-- MEM_WRITE (R86). -/
  | memWrite (p : Packet)
  /-- MEM_READ (R90). -/
  | memRead (p : Packet) (ue : Option Nat)
  /-- MEM_FILL (R491). -/
  | memFill (p : Packet)
  /-- OBJ_CREATE (R87). -/
  | objCreate (p : Packet)
  /-- OBJ_WRITE (R88). -/
  | objWrite (p : Packet)
  /-- OBJ_CRC_PASS_DONE (R89). -/
  | objCrcPassDone (partition handle : Nat) (ue : Option Nat)
  /-- OBJ_FREE (R87). -/
  | objFree (p : Packet)
  /-- SYNC_ADD (R107). -/
  | syncAdd (p : Packet)
  /-- SYNC_SET (R110). -/
  | syncSet (p : Packet)
  /-- SYNC_READ (R84). -/
  | syncRead (p : Packet)
  /-- SYNC_WAIT (R108). -/
  | syncWait (p : Packet)
  /-- SYNC_WAIT_SATISFIED (R108). -/
  | syncWaitSatisfied (q seq : Nat)
  /-- SYNC_ADD_WRITE (R107). -/
  | syncAddWrite (n : Nat) (w : RegWrite)
  /-- WATCH_ARM (R111). -/
  | watchArm (k : Nat) (w : RegWrite)
  /-- SYNC_RANGE_WRITE (R115). -/
  | syncRangeWrite (k : Nat) (w : RegWrite)
  /-- KERNEL_DISPATCH (R272). -/
  | kernelDispatch (cls unit path : Nat)
  /-- LEND_HOLD_EXPIRE (R271). -/
  | lendHoldExpire (cls unit : Nat)
  /-- KERNEL_COMPLETE (R272). -/
  | kernelComplete (cls unit run : Nat)
  /-- RUN_LIMIT (R273). -/
  | runLimit (cls unit run : Nat)
  /-- EXEC_LAUNCH (R269). -/
  | execLaunch (p : Packet)
  /-- EXEC_TEARDOWN (R274). -/
  | execTeardown (p : Packet)
  /-- EXEC_QUERY (R269). -/
  | execQuery (p : Packet)
  /-- REGULATOR_WINDOW (R277). -/
  | regulatorWindow (x : Regulated)
  /-- GUARD_EPOCH (R284). -/
  | guardEpoch
  /-- ESC_REPAIR_SWAP (R286). -/
  | escRepairSwap (w : RegWrite)
  /-- ME_SPARE_TEST_DONE (R286). -/
  | meSpareTestDone (slot : Nat) (ok : Bool)
  /-- FWL_REGION_WRITE (R282). -/
  | fwlRegionWrite (target region offset : Nat) (w : RegWrite)
  /-- DMA_GO (R149). -/
  | dmaGo (c : Nat) (w : RegWrite)
  /-- DMA_DONE (R149). -/
  | dmaDone (c : Nat)
  /-- DMA_FAULT (R149). -/
  | dmaFault (c moved : Nat) (ecc : Bool)
  /-- OCCUPANCY_WINDOW (R137). -/
  | occupancyWindow (x : Occupancy)
  /-- REWEAVE_START (R139). -/
  | reweaveStart (w : RegWrite)
  /-- REWEAVE_DONE (R141). -/
  | reweaveDone
  /-- REWEAVE_ABORT (R142). -/
  | reweaveAbort (a : RwAbort)
  /-- CLEAR_ECC_BLOCK (R142). -/
  | clearEccBlock (w : RegWrite)
  /-- SMEM_SCRUB_DONE (R129). -/
  | smemScrubDone (g : Nat)
  /-- LDT (R158). -/
  | ldt (m : MeStep)
  /-- STR (R151). -/
  | str (m : MeStep)
  /-- DCF (R171). -/
  | dcf (m : MeStep)
  /-- DRN (R171). -/
  | drn (m : MeStep)
  /-- ACL (R175). -/
  | acl (m : MeStep)
  /-- BAR (R156). -/
  | bar (m : MeStep)
  /-- ME_NOP (R155). -/
  | meNop (m : MeStep)
  /-- END (R153). -/
  | endStream (m : MeStep)
  /-- SCAN_CHUNK (R192). -/
  | scanChunk (x : ScanRun)
  /-- SCAN_STEP (R192). -/
  | scanStep (x : ScanRun)
  /-- SCAN_COMBINE (R196). -/
  | scanCombine (x : ScanRun)
  /-- SCAN_SWAP_OUT (R199). -/
  | scanSwapOut (partition seq : Nat)
  /-- SCAN_SWAP_IN (R199). -/
  | scanSwapIn (partition seq : Nat)
  /-- PIN (R200). -/
  | pin (w : RegWrite)
  /-- UNPIN (R201). -/
  | unpin (w : RegWrite)
  /-- KV_CREATE (R240). -/
  | kvCreate (p : Packet)
  /-- KV_ATTACH (R232). -/
  | kvAttach (p : Packet)
  /-- KV_STEP (R212). -/
  | kvStep (p : Packet)
  /-- KV_COMMIT (R216). -/
  | kvCommit (p : Packet)
  /-- KV_FREE (R234). -/
  | kvFree (p : Packet)
  /-- KV_QUERY (R240). -/
  | kvQuery (p : Packet)
  /-- GATHER_K (R223). -/
  | gatherK (g : GatherRun)
  /-- GATHER_VT (R223). -/
  | gatherVt (g : GatherRun)
  /-- PAGE_MANAGER_RUN (R237). -/
  | pageManagerRun
  /-- KV_TERMINATION (R239). -/
  | kvTermination (partition seq : Nat)
  /-- KV_SWAP_OUT (R238). -/
  | kvSwapOut (partition seq : Nat)
  /-- KV_SWAP_IN (R238). -/
  | kvSwapIn (partition seq : Nat)
  /-- ADMA_PUSH (R227). -/
  | admaPush (w : RegWrite)
  /-- ADMA_LAYOUT_WRITE (R205). -/
  | admaLayoutWrite (n : Nat) (w : RegWrite)
  /-- VIS_RUN (R246). -/
  | visRun (p : Packet)
  /-- EDGE_JOB (R248). -/
  | edgeJob (x : VisRun)
  /-- RESAMPLE_JOB (R253). -/
  | resampleJob (x : VisRun)
  /-- PPE_JOB (R254). -/
  | ppeJob (x : VisRun)
  /-- OVERFLOW_JOB_DONE (R261). -/
  | overflowJobDone (partition : Nat) (ecc : Option Nat)
  /-- PCIE_INBOUND (R98). -/
  | pcieInbound (x : PcieReq)
  /-- GLK_LINK_UP (R291). -/
  | glkLinkUp (x : LinkUp)
  /-- GLK_LINK_DOWN (R293). -/
  | glkLinkDown (member port : Nat)
  /-- REROUTE_DONE (R294). -/
  | rerouteDone (dest : Nat)
  /-- HELLO (R298). -/
  | hello (n : Nat) (h : Hello)
  /-- MEMBER_ANNOUNCEMENT (R299). -/
  | memberAnnouncement (n : Nat) (a : Announce)
  /-- ANNOUNCE_TIMER (R299). -/
  | announceTimer
  /-- PORT_WAIT (R300). -/
  | portWait (n : Nat)
  /-- ROOT_CLAIM (R301). -/
  | rootClaim (n prio uid : Nat)
  /-- CLAIM_TIMER (R301). -/
  | claimTimer
  /-- ROOT_LOST (R302). -/
  | rootLost
  /-- FLIT_REPLAY (R303). -/
  | flitReplay (n flit : Nat) (asked : Bool)
  /-- GLK_RETRAIN_DONE (R303). -/
  | glkRetrainDone (n : Nat)
  /-- NAP_PROPOSE (R304). -/
  | napPropose (n wake : Nat)
  /-- NAP_PROPOSAL (R304). -/
  | napProposal (n wake : Nat) (traffic : Bool)
  /-- NAP_WAKE (R306). -/
  | napWake (n : Nat)
  /-- WAKE_SEQUENCE (R306). -/
  | wakeSequence (n : Nat)
  /-- NAP_RESYNC (R306). -/
  | napResync (n : Nat)
  /-- LINK_DELAY_MEASURE (R307). -/
  | linkDelayMeasure (x : DelayMeasure)
  /-- GLK_BARRIER (R308). -/
  | glkBarrier (p : Packet)
  /-- BARRIER_ARM (R308). -/
  | barrierArm (x : BarArm)
  /-- BARRIER_REPLY (R308). -/
  | barrierReply (id member : Nat) (ack : Bool)
  /-- BARRIER_DECIDE (R308). -/
  | barrierDecide (id : Nat)
  /-- BARRIER_CONFIRM (R309). -/
  | barrierConfirm (id : Nat) (confirm : Bool)
  /-- BARRIER_RELEASE (R309). -/
  | barrierRelease (id : Nat)
  /-- BARRIER_REPORT (R310). -/
  | barrierReport (id member : Nat) (released : Bool)
  /-- GLK_IMAGE (R322). -/
  | glkImage (p : Packet)
  /-- GLK_DIGEST_READ (R326). -/
  | glkDigestRead (p : Packet)
  /-- GLK_FENCE_CLEAR (R325). -/
  | glkFenceClear (p : Packet)
  /-- FENCE_SUSPEND_END (R325). -/
  | fenceSuspendEnd
  /-- HEARTBEAT_TIMER (R324). -/
  | heartbeatTimer
  /-- HEARTBEAT_RX (R323). -/
  | heartbeatRx (data : List Byte)
  /-- CSI2_FRAME_START (R333). -/
  | csi2FrameStart (x : ShortPacket)
  /-- CSI2_LONG_PACKET (R343). -/
  | csi2LongPacket (x : LongPacket)
  /-- CSI2_FRAME_END (R334). -/
  | csi2FrameEnd (x : ShortPacket)
  /-- FE_TIMEOUT (R343). -/
  | feTimeout (k : Nat)
  /-- CAM_EXPO (R332). -/
  | camExpo (p : Packet)
  /-- CAM_EXPO_COMMIT (R332). -/
  | camExpoCommit (n : Nat) (w : RegWrite)
  /-- I3C_WRITE_DONE (R335). -/
  | i3cWriteDone (n : Nat) (ok : Bool)
  /-- ISP_STRIP (R338). -/
  | ispStrip (pipe : Nat)
  /-- ISP_FRAME_DONE (R342). -/
  | ispFrameDone (k : Nat)
  /-- CTX_COMMIT (R340). -/
  | ctxCommit (p : Packet) (ue : Option Nat)
  /-- FSYNC_PULSE (R331). -/
  | fsyncPulse (n : Nat) (rise : Bool)
  /-- DEC_CREATE (R349). -/
  | decCreate (p : Packet)
  /-- DEC_DECODE (R350). -/
  | decDecode (p : Packet) (u : AccessUnit)
  /-- DEC_RESUME (R353). -/
  | decResume (d : Nat)
  /-- DEC_FLUSH (R353). -/
  | decFlush (p : Packet) (order : List Nat)
  /-- DEC_DESTROY (R356). -/
  | decDestroy (p : Packet)
  /-- ENC_CREATE (R354). -/
  | encCreate (p : Packet) (x : EncSettings)
  /-- ENC_FRAME (R354). -/
  | encFrame (p : Packet) (cycles : Nat) (ue : Option Nat)
  /-- ENC_DESTROY (R356). -/
  | encDestroy (p : Packet)
  /-- JPEG_DEC (R355). -/
  | jpegDec (p : Packet) (x : JpegJob)
  /-- JPEG_ENC (R355). -/
  | jpegEnc (p : Packet) (x : JpegJob)
  /-- CURRENT_LOOP_TICK (R372). -/
  | currentLoopTick (a : Nat) (x : MotSample)
  /-- VELOCITY_LOOP_TICK (R373). -/
  | velocityLoopTick (a : Nat)
  /-- POSITION_LOOP_TICK (R378). -/
  | positionLoopTick (a : Nat)
  /-- OVERCURRENT (R367). -/
  | overcurrent (a input : Nat) (bits : List Bool)
  /-- ENCODER_FAULT (R370). -/
  | encoderFault (n : Nat) (f : EncFault)
  /-- FLYWHEEL_TIMEOUT (R383). -/
  | flywheelTimeout (a : Nat)
  /-- OBSERVER_START_TIMEOUT (R382). -/
  | observerStartTimeout (a : Nat)
  /-- FOLLOWING_ERROR (R379). -/
  | followingError (a : Nat)
  /-- ASC_HOLD_END (R385). -/
  | ascHoldEnd (a : Nat)
  /-- MOT_SETPOINT (R375). -/
  | motSetpoint (p : Packet)
  /-- SPW_PUSH (R375). -/
  | spwPush (a : Nat) (w : RegWrite)
  /-- MOT_FLUSH (R389). -/
  | motFlush (p : Packet)
  /-- MOT_QUERY (R389). -/
  | motQuery (p : Packet)
  /-- RETURN (R383). -/
  | returnAngle (a : Nat) (w : RegWrite)
  /-- AXCTL_FLUSH (R390). -/
  | axctlFlush (a : Nat) (w : RegWrite)
  /-- ARM (R388). -/
  | arm (t : Nat) (w : RegWrite)
  /-- TRIGGER (R388). -/
  | trigger (t : Nat) (w : RegWrite)
  /-- TRACE_STOP (R388). -/
  | traceStop (t : Nat) (w : RegWrite)
  /-- PTP_SYNC (R399). -/
  | ptpSync (x : PtpMsg) (offset ratio : Int)
  /-- PTP_ANNOUNCE (R400). -/
  | ptpAnnounce (x : PtpMsg) (rank : List Nat)
  /-- PTP_PDELAY (R398). -/
  | ptpPdelay (port delay : Nat)
  /-- ANNOUNCE_TIMEOUT (R399). -/
  | announceTimeout (d missed : Nat)
  /-- REVERT_TIMER (R400). -/
  | revertTimer
  /-- CHR_READ (R393). -/
  | chrRead (p : Packet)
  /-- APPLY_PENDING (R405). -/
  | applyPending (p : Packet)
  /-- CHR_STEP (R405). -/
  | chrStep (p : Packet)
  /-- CHR_SET (R404). -/
  | chrSet (p : Packet)
  /-- ETH_RX_FRAME (R409). -/
  | ethRxFrame (x : EthRx)
  /-- ETH_TX (R431). -/
  | ethTx (p : Packet)
  /-- ETH_RDB (R410). -/
  | ethRdb (port q : Nat) (w : RegWrite)
  /-- ETH_LAUNCH (R414). -/
  | ethLaunch (port : Nat)
  /-- ETH_TX_DONE (R410). -/
  | ethTxDone (port : Nat)
  /-- ETH_LAUNCH_LATE (R415). -/
  | ethLaunchLate (port cls : Nat)
  /-- GATE_INTERVAL (R412). -/
  | gateInterval (port : Nat)
  /-- GCL_CHANGE (R412). -/
  | gclChange (port : Nat) (w : RegWrite)
  /-- ETH_LINK_UP (R407). -/
  | ethLinkUp (port : Nat)
  /-- ETH_LINK_DOWN (R407). -/
  | ethLinkDown (port : Nat)
  /-- ETH_PREEMPT_VERIFY_FAIL (R413). -/
  | ethPreemptVerifyFail (port : Nat)
  /-- CAN_RX_FRAME (R421). -/
  | canRxFrame (c : Nat) (x : CanRx)
  /-- CAN_TX (R431). -/
  | canTx (p : Packet)
  /-- CAN_TXREQ (R424). -/
  | canTxreq (c : Nat) (w : RegWrite)
  /-- CAN_LAUNCH (R424). -/
  | canLaunch (c e : Nat)
  /-- CAN_TX_DONE (R424). -/
  | canTxDone (c e age : Nat)
  /-- CAN_BUS_ERROR (R425). -/
  | canBusError (c : Nat) (role : CanRole) (code : Nat) (kind : CanErrKind)
  /-- CAN_BUS_OFF_RECOVERY (R425). -/
  | canBusOffRecovery (c : Nat)
  /-- RECOVER (R425). -/
  | recover (c : Nat) (w : RegWrite)
  /-- CAN_RX (R431). -/
  | canRx (p : Packet)
  /-- CAN_RXFACK (R420). -/
  | canRxfack (c : Nat) (w : RegWrite)
  /-- CAN_TT_CYCLE_START (R428). -/
  | canTtCycleStart (c refId cycle : Nat)
  /-- CAN_TT_COLUMN (R428). -/
  | canTtColumn (c j : Nat)
  /-- CAN_TT_REF_TIMEOUT (R429). -/
  | canTtRefTimeout (c : Nat)
  /-- LOCKSTEP_MISMATCH (R436). -/
  | lockstepMismatch (pair : Nat)
  /-- SAFE_HEARTBEAT_MISS (R436). -/
  | safeHeartbeatMiss (pair : Nat)
  /-- WD_START (R438). -/
  | wdStart (k : Nat) (src : WdSource)
  /-- WD_KICK (R439). -/
  | wdKick (k : Nat) (src : WdSource)
  /-- WD_LATE (R439). -/
  | wdLate (k : Nat)
  /-- TOURBILLON_SLOT (R444). -/
  | tourbillonSlot (x : TbSlot)
  /-- SAFE_TB_LATE (R446). -/
  | safeTbLate
  /-- SAFE_ENTER (R447). -/
  | safeEnter (p : Packet)
  /-- SEC_ADVANCE (R451). -/
  | secAdvance (p : Packet)
  /-- SEC_RENEW_KEY (R454). -/
  | secRenewKey (p : Packet)
  /-- CHALLENGE (R452). -/
  | challenge (w : RegWrite)
  /-- RESPOND (R452). -/
  | respond (w : RegWrite)
  /-- LOCK (R452). -/
  | lock (w : RegWrite)
  /-- SEC_OTPPROG (R450). -/
  | secOtpprog (w : RegWrite)
  /-- LOG_WRITE (R457). -/
  | logWrite
  /-- LOG_PERSIST (R459). -/
  | logPersist (ok : Bool)
  /-- REGISTER_WRITE (R57). -/
  | registerWrite (addr : Nat) (w : RegWrite)
  /-- DROOP_RECOVERY (R73). -/
  | droopRecovery (skipped : Nat)
  /-- NAP_ACCEPT (R304). -/
  | napAccept (n : Nat)
  deriving DecidableEq, Repr

end Sys2Proof
end

