-- ==== Sys2Proof/Machine/State.lean ====
section
/-! DEFINITION. The state of the block: the register file, memory, flash, and each block's state that is no register, with
the state right after reset. -/

namespace Sys2Proof.Machine

/-- No command stops with a fault: a packet's failure is its completion status (Table CMDQ-8), an engine's fault is the
engine's fault register and a bus error is State.busError. The type is closed and empty. -/
inductive Fault where
  deriving DecidableEq, Repr

/-- Why a step has no meaning. -/
inductive Refusal where
  /-- Raised by the dispatch of a command that has no meaning yet. Safe: nothing is claimed of such a step. -/
  | notModelled (mnemonic : String)
  deriving DecidableEq, Repr

/-- Where BOOT stands (R23): qualifying REFCLK, reading and checking the profile, or past it. -/
inductive BootStep where
  | qualifying | reading | done
  deriving DecidableEq, Repr

/-- A LOAD_PROFILE in progress (R32, R33): the SIGNED_LENGTH its packets carry and the ranges of bytes that arrived. -/
structure Load where
  signedLength : Option Nat := none
  arrived : List (Nat × Nat) := []
  deriving DecidableEq, Repr

/-- The always-on domain's latches and pins, the boot sequence and the accepted profile (files 01 and 15): time since power-on and at
the last release of PORST_N, the LOAD_PROFILE in progress and the flash write it waits for (flight, slot, flags, settings), staged
values by register address (R38), functions and units whose start has begun, or that stop once started, the rollback value of the
profile, the changes applied in service (Table GLK-6), the management core's firmware (R487), the link-local address of the management
port in HELD (R30), the functions that restart once they have stopped (R34, R55), and the PCIe functions in D3hot (R96). -/
structure Dev where
  porstN : Bool := true
  railsValid : Bool := true
  thermTrip : Bool := false
  crown : Nat := 0
  refsel : Bool := false
  boot : BootStep := .qualifying
  slot : Nat := 0
  nowNs : Nat := 0
  releaseNs : Nat := 0
  settings : Option Settings := none
  load : Option Load := none
  flashWrite : Option (Nat × Nat × Nat × Settings) := none
  staged : List (Nat × Word) := []
  firmware : List (Nat × Nat) := []
  begun : List (Nat × Nat) := []
  stopAfterStart : List (Nat × Nat) := []
  rollback : Nat := 0
  changes : List (Nat × Nat × Nat × Nat) := []
  mgmtFw : List Byte := []
  linkLocal : Option Nat := none
  restart : List Nat := []
  d3hot : List Nat := []
  deriving DecidableEq, Repr

/-- Output pins that no register shows (Tables SYS-8 and PKG-5): true is the active or asserted level; i3c names the controllers that
drive SCL and SDA, pcieTx whether the PCIe transmitters are out of electrical idle, sdClk and encClk the clock outputs that run, xspiReset
whether XSPI_RESET_N is low, and xspi, mgmtOut, pmbus and avs whether the owning function drives that group, which otherwise stands at its
reset level, as TDO (high impedance) and UART_TX (high) always do (see log entry 73, DESIGN CHOICE). -/
structure Pins where
  safeFault : Bool := true
  thermtrip : Bool := false
  pciePerst : Bool := true
  senseClk : Nat := 0
  fsync : Nat := 0
  ethTx : Nat := 0
  glkTx : Nat := 0
  canOn : Nat := 0
  pwmOn : Nat := 0
  i3c : Nat := 0
  pcieTx : Bool := false
  sdClk : Nat := 0
  encClk : Nat := 0
  xspiReset : Bool := false
  xspi : Bool := false
  mgmtOut : Bool := false
  pmbus : Bool := false
  avs : Bool := false
  tdoDriven : Bool := false
  uartTx : Bool := true
  deriving DecidableEq, Repr

/-- Clocks and power beyond the registers (file 02): whether the switch in progress was software's, the last telemetry readings and the cap
in force in 0.1 W, ms that the average has stayed above the cap at the limits, ms of recovery, slots to be parked at their kernel's end,
functions stopped for RCOSC, residency by load band, µs since each load band was left (R72), whether CLK_CORE skips, the CLK_CORE cycles run
so far with the fraction of the next in thousandths of a root cycle and those of the droop in progress (R44, R73), the CLK_CHR edges so far
with the fraction of the next likewise (R43), and for how many ns REFCLK and the network reference have been qualifying (R46, R47). -/
structure Clk where
  softwareSwitch : Bool := false
  readings : List Nat := []
  capDw : Nat := 0
  overMs : Nat := 0
  recoverMs : Nat := 0
  parkPending : List Nat := []
  stopped : List Nat := []
  bandUs : List Nat := [0, 0, 0, 0]
  outUs : List Nat := [1000, 1000, 1000, 1000]
  droop : Bool := false
  cycles : Nat := 0
  part : Nat := 0
  inDroop : Nat := 0
  edges : Nat := 0
  edgePart : Nat := 0
  refNs : Nat := 0
  netNs : Nat := 0
  deriving DecidableEq, Repr

/-- A packet that started and is not yet completed in ring order (R103): its completion record's fields. status is none
while it runs; warm names the SYS_RSTCAUSE bit of a warm start that follows the record (R85),
add what a SYNC_ADD adds at completion, reads what a MEM_READ waits to read (R129) as places and lengths, len the bytes that the LAST packet of
an object wrote, and writes the handle that the packet writes (R89). -/
structure Flight where
  id : Nat
  queue : Nat
  seq : Nat
  cls : Nat
  code : Nat
  partition : Nat
  last : Bool
  sig : Option (Nat × Nat)
  warm : Option Fld := none
  status : Option Nat := none
  result : Nat := 0
  ext : List Byte := []
  waitCtr : Nat := 0
  waitVal : Nat := 0
  waitMet : Bool := false
  add : Option (Nat × Nat) := none
  reads : List (Nat × Nat) := []
  len : Nat := 0
  writes : Option Nat := none
  deriving DecidableEq, Repr

/-- A UDP queue's transport state (R99 to R101); peer is where the last accepted packet came from. -/
structure Udp where
  queue : Nat
  peer : Option UdpPeer := none
  unacked : Nat := 0
  nakNs : Option Nat := none
  sentTo : Nat := 0
  headNs : Nat := 0
  deriving DecidableEq, Repr

/-- A packet held at the head of its queue (R82, R112): whether checks 1 to 8 have been made, and the handle that it writes. -/
structure Head where
  queue : Nat
  partition : Nat
  checked : Bool := true
  writes : Option Nat := none
  deriving DecidableEq, Repr

/-- Queues beyond the registers: packets held at or behind the head, the heads among them in the order in which they became so, whether
the command that runs was taken from the held ones (the model's own), queues whose head is still to be read (R92), queues whose head's
short wait has been met, queues in FAULT whose head cannot be read (R83, R492), queues that a teardown put in FAULT with the status that
their packets complete with (R274), packets in flight, completion ring write indexes, and the next flight's number. -/
structure Cq where
  held : List Instr := []
  heads : List Head := []
  taking : Bool := false
  fresh : List Nat := []
  waitMet : List Nat := []
  stuck : List Nat := []
  ended : List (Nat × Nat) := []
  flight : List Flight := []
  cplIndex : List (Nat × Nat) := []
  nextId : Nat := 0
  udp : List Udp := []
  deriving DecidableEq, Repr

/-- An object (R87 to R89): its size, the pieces of memory that hold it in order, its intended CRC, whether it is valid, and the flights of
its LAST packets whose CRC pass is to end, oldest first. -/
structure Obj where
  partition : Nat
  context : Nat := 0
  handle : Nat
  size : Nat
  crc : Nat
  smem : Bool
  parts : List (Nat × Nat)
  valid : Bool := false
  pass : List Nat := []
  deriving DecidableEq, Repr

/-- An interrupt raised: vector, destination (0 AIA, 1 MSI-X, 2 management core), the partition whose unit raised it, and the PCIe
function whose vector an MSI-X interrupt is (R97) (see log entry 74, DEDUCED). -/
structure Irq where
  vector : Nat
  dest : Nat
  partition : Nat
  fn : Nat := 0
  deriving DecidableEq, Repr

/-- What a released hart starts with, in M-mode (R146): the pc, a0 and a1. -/
structure Hart where
  pc : Nat
  a0 : Nat
  a1 : Nat
  machine : Bool := true
  deriving DecidableEq, Repr

/-- The application cores (R145 to R148): each hart's release, none in reset, and the identities pending in the interrupt files by hart and
file (0 M, 1 S, 2 to 5 guest). -/
structure App where
  harts : List (Option Hart) := List.replicate 16 none
  files : List (Nat × Nat × Nat) := []
  deriving DecidableEq, Repr

/-- DRAM encryption (R453, R454): the initiator whose accesses the step makes (the model's own), how often each partition's key
was renewed, and by 64-byte block the mark of the key it was last written under (see log entry 29, DESIGN CHOICE). -/
structure Keys where
  user : Nat := 0
  gens : List (Nat × Nat) := []
  marks : List (Nat × Nat) := []
  deriving DecidableEq, Repr

/-- An event waiting in its class's staging FIFO (R455, R457). -/
structure LogEvent where
  cls : Nat
  partition : Nat
  code : Nat
  source : Nat
  data : Nat
  deriving DecidableEq, Repr

/-- The event log beyond the registers (file 14): the 15 staging FIFOs as one list in order of arrival, the class last
served other than SAFE, drops since the last LOG_OVERFLOW with the first drop's time by class, the event whose LOG_OVERFLOW was
just written, the persist queue, the records written and mirrored so far, when each partition's ESC_FIREWALL_DENY was last
logged (R281), and the persisted records that the boot ROM read back at the start (R459). -/
structure Log where
  staged : List LogEvent := []
  turn : Nat := 15
  drops : List (Nat × Nat × Nat) := []
  held : Option LogEvent := none
  persist : List (List Byte) := []
  written : Nat := 0
  mirrored : Nat := 0
  denyNs : List (Nat × Nat) := []
  readBack : List (List Byte) := []
  deriving DecidableEq, Repr

/-- What the block sends to the outside: over UDP, to a Grenlink neighbour or member, or a heartbeat (R323), or an exposure and gain to a
sensor (R330); a heartbeat goes to the members of a mask and through a MAC to an IPv6 address and UDP port. -/
inductive Out where
  | ack (queue seq : Nat) (peer : UdpPeer)
  | nak (queue seq : Nat) (peer : UdpPeer)
  | cpl (queue index slots : Nat) (peer : UdpPeer)
  | forward (dest cls code : Nat) (p : Packet)
  | link (port : Nat) (m : GlkMsg)
  | member (dest : Nat) (m : GlkMsg)
  | heartbeat (members : Nat) (via : Option (Nat × Nat × Nat)) (data : List Byte)
  | frame (port : Nat) (data : List Byte)
  | i3c (controller addr exposure gain : Nat) (writes : List (Nat × Byte))
  | can (c : Nat) (element : List Byte)
  | canReference (c refId cycle : Nat)
  deriving DecidableEq, Repr

/-- The memory controller beyond its registers (file 04): consecutive windows over twice the mean by channel with the requests by
channel and region counted since (R137, R138), when each region's last re-weave finished (R139), bytes read by the running copy and
the key it was drawn (R140), the Randing key of each region (R134, R135), and when each channel's MEM_ECC_CORRECTED was last logged
(R133), and the inbound PCIe reads that wait for a scrub: initiator, address and length (R129). -/
structure Memc where
  streaks : List (Nat × Nat) := []
  requests : List (Nat × Nat × Nat) := []
  doneNs : List (Nat × Nat) := []
  copied : Nat := 0
  newKey : Nat := 0
  keys : List (Nat × Nat) := []
  ceNs : List (Nat × Nat) := []
  reads : List (Nat × Nat × Nat) := []
  deriving DecidableEq, Repr

/-- An accumulator entry: its sum and sticky flags (R166 to R168). -/
structure MeEntry where
  sum : Int := 0
  nan : Bool := false
  infPos : Bool := false
  infNeg : Bool := false
  povf : Bool := false
  deriving DecidableEq, Repr

/-- An accumulator column: its family, latched exponent, column sum, and the entries of its rows (R164, R169). -/
structure MeCol where
  integer : Bool := false
  eCol : Int := 0
  colSum : Int := 0
  rows : List (Nat × MeEntry) := []
  deriving DecidableEq, Repr

/-- A tile buffer: format, elements per row, exponent, and each row's validity and bytes (R151, R158). -/
structure Tile where
  afmt : Nat := 0
  klen : Nat := 0
  aExp : Int := 0
  valid : List Bool := []
  data : List (List Byte) := []
  deriving DecidableEq, Repr

/-- An open EWP block (R182): its index, the last column processed, the columns that wait for a gate column or for the block's end, each
with its rows' binary32 values, and of a column that waits for the end the DCF that its drain issued under and the rows of its tile
(R156, R190). -/
structure EwpBlock where
  idx : Nat
  last : Nat
  drains : List (Nat × Nat × Nat) := []
  gate : List (Nat × List (Nat × Nat)) := []
  smax : List (Nat × List (Nat × Nat)) := []
  stat : List (Nat × List (Nat × Nat)) := []
  deriving DecidableEq, Repr

/-- What a Matrix Engine slot holds while a kernel runs (R152, R157, R181): buffers, accumulator columns, family (true:
integer), the DCF in force, the stage list, the open block, the rows valid in the last LDT, the instruction's number, and
whether an overflow reached a drain. -/
structure MeStore where
  buf0 : Tile := {}
  buf1 : Tile := {}
  cols : List (Nat × MeCol) := []
  family : Option Bool := none
  dcf : Nat := 0
  stages : Option (List Nat) := none
  block : Option EwpBlock := none
  valid : List Bool := []
  pc : Nat := 0
  clamped : Bool := false
  deriving DecidableEq, Repr

/-- The Matrix Engines beyond the registers: the slots' stores and the EWP function tables (R183). -/
structure Me where
  stores : List MeStore := List.replicate 32 {}
  tables : List (Option EwpTable) := []
  deriving DecidableEq, Repr

/-- One copy of a stream's state: exponents by group of 32 and element codes (R194). -/
structure ScanCopy where
  exps : List Int := []
  codes : List Nat := []
  deriving DecidableEq, Repr

/-- A scan stream (R195 to R201): its name, shape, the state that the accumulators hold while it is pinned, which copy of its slot is
current, committed steps, STEP_FAULT, its state slot or else the entry of the partition's swap area that holds it, the ME slot and columns
that pin it, the kernel that holds its lock, the context that last used it, and when. -/
structure Stream where
  partition : Nat
  seq : Nat
  d : Nat := 0
  n : Nat := 0
  fmt : Nat := 0
  held : ScanCopy := {}
  current : Bool := false
  steps : Nat := 0
  stepFault : Bool := false
  slot : Option Nat := none
  swap : Option Nat := none
  pin : Option (Nat × Nat) := none
  lock : Option Nat := none
  context : Nat := 0
  used : Nat := 0
  deriving DecidableEq, Repr

/-- The KV cache beyond registers and memory (file 07): the owner of each page not on the stack (R227), the reclaim list,
oldest first (R234), nodes returned to the free list and the next node never used, nodes held by partition (R233), the
sequences that are parked, those whose EVT_CTR was signalled since their starvation, those asked to be swapped in, and the copies of
swapped sequences: partition, sequence and page contents (R238). -/
structure Kv where
  owner : List (Nat × Nat) := []
  reclaim : List Nat := []
  nodeFree : List Nat := []
  nodeNext : Nat := 0
  nodesHeld : List (Nat × Nat) := []
  parked : List (Nat × Nat) := []
  signalled : List (Nat × Nat) := []
  wanted : List ((Nat × Nat) × Nat) := []
  swapped : List (Nat × Nat × List Nat) := []
  deriving DecidableEq, Repr

/-- A kernel in the operation table (R112, R267): the packet that launched it, its context, the address of its descriptor, the copied
descriptor and unit descriptor, the order in which it became ready, the time and whether a signal released it, the unit that runs it since
when and since which CLK_CORE cycle, its number in the order of dispatch with the streams that it names (R198), and the status and RESULT
its engine ended it with. A VIS_RUN packet's job (R246) names its flight; a PPE job its PPE, or that it was routed to the overflow library
(R260). behind counts the kernels of its class that the same signal released before it (R113). -/
structure Kernel where
  id : Nat
  queue : Nat
  seq : Nat
  partition : Nat
  context : Nat
  addr : Nat
  desc : List Byte
  unitDesc : List Byte := []
  ready : Option Nat := none
  unit : Option Nat := none
  lent : Bool := false
  status : Option Nat := none
  result : Nat := 0
  flight : Option Nat := none
  ppe : Option Nat := none
  routed : Bool := false
  readyNs : Nat := 0
  startNs : Nat := 0
  startCyc : Nat := 0
  order : Nat := 0
  seqs : List Nat := []
  bySignal : Bool := false
  behind : Nat := 0
  deriving DecidableEq, Repr

/-- An EXEC_LAUNCH whose kernels enter the table as entries free (R269): the flight that completes with the last of them. -/
structure Launch where
  flight : Nat
  queue : Nat
  seq : Nat
  partition : Nat
  context : Nat
  total : Nat
  waiting : List (Nat × List Byte)
  deriving DecidableEq, Repr

/-- The Escapement beyond the registers (file 09): the operation table's kernels and launches, the reserved engines that may be lent
(R271), bytes above GUAR and ready-to-dispatch waits in µs of the guard's epoch by partition (R284), how often the guard halved a
partition's limits, calm epochs in a row, the limits before that (key 2p for DRAM, 2p + 1 for SMEM; R285), the next record of each
overflow ring (R148), the repairs staged: slot, spare, PERSIST (R286), and when each engine was last left by a kernel (R113). -/
structure Esc where
  kernels : List Kernel := []
  launches : List Launch := []
  nextId : Nat := 0
  nextReady : Nat := 0
  nextOrder : Nat := 0
  lendable : List (Nat × Nat) := []
  excess : List (Nat × Nat) := []
  waits : List (Nat × Nat) := []
  halvings : List (Nat × Nat) := []
  calm : Nat := 0
  limits : List (Nat × Nat) := []
  overIndex : List (Nat × Nat) := []
  repairs : List (Nat × Nat × Bool) := []
  freed : List ((Nat × Nat) × Nat) := []
  deriving DecidableEq, Repr

/-- A nap of a port (R304 to R306): T_wake on the own Chronometer, whether it was proposed here, and whether it was accepted. -/
structure Nap where
  port : Nat
  wake : Nat
  mine : Bool := true
  asleep : Bool := false
  deriving DecidableEq, Repr

/-- A barrier at the root (R308 to R310): its number, which is the issuing packet's flight, the members named, those that sent ACK
or NACK, whether it is confirmed, and those that released or missed. -/
structure RootBar where
  id : Nat
  members : Nat
  acks : Nat := 0
  nacks : Nat := 0
  confirmed : Bool := false
  released : Nat := 0
  missed : Nat := 0
  deriving DecidableEq, Repr

/-- A peer's last heartbeat (R323, R324) and when it came. -/
structure Heard where
  uid : Nat
  group : Nat
  gen : Nat
  tag : Nat
  ns : Nat
  deriving DecidableEq, Repr

/-- Grenlink beyond its registers (file 10): the program images registered (partition, identifier), links of the cluster that are
down by member and dimension, members whose route is changing, messages that wait by member, ports that retrain, the flit whose
replays fail by port, naps, unique IDs of the neighbours by port, the announcements held with the time of the last, members announced
by two devices with the time when both were last held, the best root claim with the intervals it has stayed so, link offsets by port, when
GLK_TOFF was refreshed with the route's calibration, the heartbeats heard, heartbeats in a row at which the own tag differed or
agreed, whether a mismatch is raised, whether fencing is suspended, the barriers armed as root and as a member, with CONFIRM, and those of the
latter that a lost root leaves unconfirmed (R302), the messages that wait for a port, and by port how many messages were sent and the last
512 of them with their numbers (R303). -/
structure Glk where
  images : List (Nat × Nat) := []
  down : List (Nat × Nat) := []
  moving : List Nat := []
  held : List (Nat × Out) := []
  retrain : List Nat := []
  replays : List (Nat × Nat × Nat) := []
  naps : List Nap := []
  peerUid : List (Nat × Nat) := []
  members : List (Announce × Nat) := []
  apart : List (Nat × Nat) := []
  best : Option (Nat × Nat) := none
  bestFor : Nat := 0
  offsets : List (Nat × Int) := []
  toffNs : Option Nat := none
  routeCal : Bool := false
  heard : List Heard := []
  differs : Nat := 0
  agrees : Nat := 0
  raised : Bool := false
  suspended : Bool := false
  roots : List RootBar := []
  bars : List (BarArm × Bool) := []
  void : List Nat := []
  waiting : List (Nat × GlkMsg) := []
  flits : List (Nat × Nat) := []
  retry : List (Nat × Nat × Out) := []
  deriving DecidableEq, Repr

/-- A frame of an ISP context (R341 to R344): its index, whether it has a buffer, its CSI-2 number, generations and times, the good
lines received as bytes, how many the pipe has taken and how many output lines it has written, whether its readout has ended, and the
cause that truncated it (0: none), and the parameter block that was active at its start (R340). -/
structure CamFrame where
  index : Nat
  written : Bool
  num : Nat
  expoGen : Nat
  gainGen : Nat
  sof : Nat
  eof : Nat := 0
  lines : List (List Byte) := []
  fed : Nat := 0
  out : Nat := 0
  ended : Bool := false
  cause : Nat := 0
  block : List Byte := []
  deriving DecidableEq, Repr

/-- An ISP context beyond its registers (R340 to R347): its frames, oldest first, whether the last one's frame end is still to come,
the next frame index, the records written, and the active and the shadow parameter block. -/
structure CamCtx where
  frames : List CamFrame := []
  reading : Bool := false
  next : Nat := 0
  records : Nat := 0
  params : List Byte := []
  shadow : Option (List Byte) := none
  deriving DecidableEq, Repr

/-- A sensor beyond its registers (R332 to R335): frames counted, the last frame number sent, the newest commit not yet given to the
I3C controller, the commit being written with the frame it follows and whether it is retried, the settings that take effect (frame,
gain or exposure, generation), and what each generation stands for. -/
structure Sensor where
  frame : Nat := 0
  lastNum : Nat := 0
  waiting : Option Nat := none
  writing : Option (Nat × Nat × Bool) := none
  effects : List (Nat × Bool × Nat) := []
  settings : List (Nat × Nat × Nat) := []
  deriving DecidableEq, Repr

/-- The cameras beyond their registers (file 11), with when each receiver's last CAM_FRAME_TRUNCATED was logged. -/
structure Cam where
  ctxs : List CamCtx := List.replicate 32 {}
  sensors : List Sensor := List.replicate 16 {}
  truncNs : List (Nat × Nat) := []
  deriving DecidableEq, Repr

/-- A picture of a decode context (R352, R353): its slot and size, whether it is a reference, whether it waits for output, and its
number in the order of output. -/
structure DecPic where
  slot : Nat
  w : Nat
  h : Nat
  ref : Bool := true
  waits : Bool := true
  outNo : Nat := 0
  deriving DecidableEq, Repr

/-- A decode context (R349 to R353): Table VID-2, the area's address, the decoder's internal state as a number, the bytes of the access
unit so far, the pictures held, the slot decoded last, pictures output, the status of the last rejection, and the access units that
wait for a slot with their flights. -/
structure DecCtx where
  ctx : Nat
  partition : Nat
  codec : Nat
  depth : Nat
  slots : Nat
  fmt : Nat
  maxW : Nat
  maxH : Nat
  load : Nat
  bytes : Nat
  rel : Nat
  area : List (Nat × Nat)
  token : Nat := 0
  unit : List Byte := []
  pics : List DecPic := []
  last : Option Nat := none
  outputs : Nat := 0
  rejected : Nat := 0
  waiting : List (Nat × List Byte × AccessUnit) := []
  deriving DecidableEq, Repr

/-- An encode context (R354): its settings and the encoder's reference picture and rate control as a number. -/
structure EncCtx where
  ctx : Nat
  partition : Nat
  core : Nat
  settings : EncSettings
  token : Nat := 0
  deriving DecidableEq, Repr

/-- The codecs beyond their registers (file 11). -/
structure Vid where
  dec : List DecCtx := []
  enc : List EncCtx := []
  deriving DecidableEq, Repr

/-- A set-point entry (Table MOT-2). -/
structure SetPoint where
  time : Nat
  typ : Nat
  v0 : Nat
  v1 : Nat
  deriving DecidableEq, Repr

/-- A change of the current references over TQ_RAMP: down to zero from id0 and iq0 (both, or iq alone), or up to the loop's
value; ticks current samples have passed. -/
structure TqRamp where
  up : Bool
  both : Bool
  id0 : Nat
  iq0 : Nat
  ticks : Nat := 0
  deriving DecidableEq, Repr

/-- What the last current sample gave, for the trace buffers (Table MOT-5): binary32 amperes and volts, and θe. -/
structure MotSignals where
  ia : Nat := 0
  ib : Nat := 0
  in2 : Nat := 0
  id : Nat := 0
  iq : Nat := 0
  vd : Nat := 0
  vq : Nat := 0
  theta : Nat := 0
  deriving DecidableEq, Repr

/-- The rotor observer (R381 to R383): î, ê and ω̂ in binary32, θ̂ in units of 2^-32 turn, the runs of samples that meet the
lock conditions or fail one, the last 16 residuals, ω_g, and θ̂ at the last sample that did not fail by residual and by err. -/
structure Observer where
  ia : Nat := 0
  ib : Nat := 0
  ea : Nat := 0
  eb : Nat := 0
  w : Nat := 0
  th : Nat := 0
  err : Nat := 0
  lockRun : Nat := 0
  resRun : Nat := 0
  errRun : Nat := 0
  resid : List Nat := []
  wGood : Nat := 0
  thRes : Nat := 0
  thErr : Nat := 0
  deriving DecidableEq, Repr

/-- An axis beyond its registers (file 12): the set-point queue, the set-point in force, the ramp generator (p in units of
2^-32 turn, v and a in binary64), the integrators and references in binary32, computed and loaded duties with their αβ
voltages, accepted samples, and the observer. -/
structure Axis where
  queue : List SetPoint := []
  target : Int := 0
  hold : Bool := false
  p : Int := 0
  v : Nat := 0
  a : Nat := 0
  xd : Nat := 0
  xq : Nat := 0
  xv : Nat := 0
  wRef : Nat := 0
  idRef : Nat := 0
  iqRef : Nat := 0
  iqLoop : Nat := 0
  duty : List Nat := []
  loaded : List Nat := []
  volts : Nat × Nat := (0, 0)
  voltsLoaded : Nat × Nat := (0, 0)
  gates : List Nat := []
  accepted : Option (Nat × Nat × Nat) := none
  rejects : Nat := 0
  pos : Int := 0
  posAtVel : Int := 0
  w : Nat := 0
  thTotal : Int := 0
  theta : Nat := 0
  startW : Nat := 0
  feOver : Bool := false
  lateNs : Option Nat := none
  ramp : Option TqRamp := none
  obs : Observer := {}
  sig : MotSignals := {}
  deriving DecidableEq, Repr

/-- A trace buffer beyond its registers (R387, R388): current samples since the last record, records written, records still to
write after the trigger, and the trigger signal's last value. -/
structure Trace where
  samples : Nat := 0
  written : Nat := 0
  left : Nat := 0
  last : Option Int := none
  deriving DecidableEq, Repr

/-- An input of an encoder interface (R368): its level, for how many ns it has held it, and the level last taken. -/
structure EncPin where
  raw : Bool := false
  age : Nat := 0
  level : Option Bool := none
  deriving DecidableEq, Repr

/-- An encoder interface beyond its registers (R368 to R370): its inputs ENCA, ENCB and ENCZ, the count carried on across wraps and the
last SSI word or sector that it counts from, whether an index pulse has come, SSI frame errors in a row, and the faults that no
ENCODER_FAULT has taken up. -/
structure Encoder where
  pins : List EncPin := List.replicate 3 {}
  carried : Int := 0
  last : Option Nat := none
  indexed : Bool := false
  frameRun : Nat := 0
  faults : List EncFault := []
  deriving DecidableEq, Repr

/-- The Motion Control Engine beyond the registers (file 12). -/
structure Mot where
  axes : List Axis := List.replicate 16 {}
  encs : List Encoder := List.replicate 16 {}
  traces : List Trace := List.replicate 4 {}
  deriving DecidableEq, Repr

/-- A gPTP domain (R399, R400): whether an Announce came, Syncs in a row with the last one's sequence number, the grandmaster's rank,
consecutive Announces of A whose rank lies below B's, and consecutive offsets beyond JUMP_NS. -/
structure ChrDom where
  announced : Bool := false
  syncs : Nat := 0
  lastSeq : Option Nat := none
  rank : List Nat := []
  below : Nat := 0
  beyond : Nat := 0
  deriving DecidableEq, Repr

/-- The Chronometer beyond its registers (R392 to R405): the fraction in 2^-32 ns, both domains, the domain of a refused correction,
the mean link delay by port in 1/16 ns, when FN_CHR read READY, the steps of the last 2 s with their Δ (R396), and what a slew has still to
remove in 2^-32 ns (R401). -/
structure Chr where
  frac : Nat := 0
  a : ChrDom := {}
  b : ChrDom := {}
  pendingDom : Option Nat := none
  delays : List (Nat × Nat) := []
  readyNs : Option Nat := none
  steps : List (Nat × Int) := []
  slewLeft : Int := 0
  deriving DecidableEq, Repr

/-- A frame that waits in a traffic class (R410, R411): an ETH_TX flight with its bytes, or a slot of the class's TX ring. -/
structure EthFrame where
  cls : Nat
  flight : Option Nat := none
  partition : Nat
  slot : Nat := 0
  buf : Nat := 0
  data : List Byte := []
  len : Nat
  flags : Nat
  launch : Nat
  deriving DecidableEq, Repr

/-- An Ethernet port beyond its registers (R411 to R415): frames in the order in which they reached their classes; those in flight,
the one on the wire first, each with its bytes and its stamp; the operational gate list, its entry and when that ends, when its
cycle began; when the admin list takes over; when ETH_LAUNCH_LATE was last logged; and the tokens of each flow meter that has
metered a frame, committed and excess, in 10^-9 bit, with the time of that frame (R416). -/
structure EthPort where
  frames : List EthFrame := []
  sending : List (EthFrame × List Byte × Nat) := []
  gates : List (Nat × Nat) := []
  entry : Nat := 0
  entryEnd : Nat := 0
  cycleStart : Nat := 0
  cycle : Nat := 0
  adminAt : Option Nat := none
  lateNs : Option Nat := none
  meters : List (Nat × Nat × Nat × Nat) := []
  deriving DecidableEq, Repr

/-- A CAN controller beyond its registers (R420 to R430): its message RAM; the TX elements whose launch time is to come, those whose frame
has started and is retried, and the one whose frame is on the bus; whether bus-off recovery runs; in time-triggered operation the window's
cell, whether its frame is still to come, whether a reference message has been seen, whether the own one is requested, and its failures in a
row; and when CAN_FIFO_FULL and CAN_LAUNCH_LATE were last logged. -/
structure CanCtl where
  ram : List Host.Cell := []
  waiting : List Nat := []
  started : List Nat := []
  onBus : Option Nat := none
  recovering : Bool := false
  window : Nat := 0
  due : Bool := false
  synced : Bool := false
  refReq : Bool := false
  refFails : Nat := 0
  fullNs : Option Nat := none
  lateNs : Option Nat := none
  deriving DecidableEq, Repr

/-- The safety island beyond the registers (file 14): when each open watchdog window opened, when each watchdog's stray kick was
last logged, the watchdogs that ignore start events with the context they wait for (R443), whether FN_SAFE has read READY, whether
the rotation in progress has overrun, overruns in a row, the checkers that the rotation has tested, and the one whose test is to be
repeated (R445). -/
structure Safe where
  openNs : List (Nat × Nat) := []
  strayNs : List (Nat × Nat) := []
  blocked : List (Nat × Nat × Nat) := []
  ready : Bool := false
  late : Bool := false
  overruns : Nat := 0
  tested : List Nat := []
  repeatNext : Option Nat := none
  deriving DecidableEq, Repr

/-- The state of the block. -/
structure State where
  /-- the register file: register keys to values (R42 to R464). -/
  regs : List (Nat × Word)
  /-- bytes of SMEM, DRAM, peer windows and host memory by 48-bit address (R122). -/
  mem : List Host.Cell
  /-- bytes of the configuration flash (R10). -/
  flash : List Host.Cell
  /-- the package and its OTP (R1, R450). -/
  chip : Chip
  /-- always-on latches, boot sequence, accepted profile (file 01). -/
  dev : Dev
  /-- output pins (Table SYS-8, Table PKG-5). -/
  pins : Pins
  /-- clocks and power beyond the registers (file 02). -/
  clk : Clk
  /-- queues beyond the registers (file 03). -/
  cq : Cq
  /-- the Escapement beyond the registers (file 09). -/
  esc : Esc
  /-- Matrix Engine stores and EWP function tables (files 05 and 06). -/
  me : Me
  /-- scan streams (R195). -/
  streams : List Stream
  /-- the KV cache beyond registers and memory (file 07). -/
  kv : Kv
  /-- motion axes and trace buffers beyond the registers (file 12). -/
  mot : Mot
  /-- the cameras beyond their registers (file 11). -/
  cam : Cam
  /-- the codecs beyond their registers (file 11). -/
  vid : Vid
  /-- the Chronometer beyond its registers (file 13). -/
  chr : Chr
  /-- the Ethernet ports beyond their registers (file 13). -/
  eth : List EthPort
  /-- the CAN controllers beyond their registers (file 13). -/
  can : List CanCtl
  /-- Grenlink beyond its registers (file 10). -/
  glk : Glk
  /-- the memory controller beyond its registers (file 04). -/
  memc : Memc
  /-- the MSI-X tables of the PCIe functions, function f at f × 0x10000 (R97). -/
  msix : List Host.Cell
  /-- objects (R87). -/
  objs : List Obj
  /-- DRAM encryption (R453). -/
  keys : Keys
  /-- the event log beyond the registers (file 14). -/
  log : Log
  /-- the safety island beyond the registers (file 14). -/
  safe : Safe
  /-- interrupts raised, oldest first (R95, R147). -/
  irqs : List Irq
  /-- what was sent to the outside, oldest first. -/
  sent : List Out
  /-- SMEM granules of 1 MiB under scrub (R129). -/
  scrub : List Nat
  /-- the application cores (R145 to R148). -/
  app : App
  /-- bytes that each partition's traffic has asked of a regulator and no window has passed yet: key 2p DRAM, 2p + 1 SMEM (R277 to R279). -/
  traffic : List (Nat × Nat)
  /-- a read of the run in hand meets a granule under scrub (R129; the model's own, false between steps). -/
  scrubHit : Bool
  /-- the last register access was answered with a bus error (R57). -/
  busError : Bool
  /-- what the last register read answered (R57). -/
  readValue : Nat
  /-- events the block owes itself, first in, first out (the model's own). -/
  due : List Instr
  /-- how many free values the run has drawn (the model's own). -/
  free : Nat
  /-- the commands that wait, first in, first out (the model's own). -/
  pending : List Instr
  deriving DecidableEq, Repr

/-- The machine right after reset: a power-on followed by the release of PORST_N (R36, R472), every register at its reset
value (see log entry 3, DESIGN CHOICE; log entry 33, DEDUCED). -/
def State.reset : State where
  regs := resetRegs {}
  mem := []
  flash := []
  chip := {}
  dev := {}
  pins := {}
  clk := {}
  cq := {}
  esc := {}
  me := {}
  streams := []
  kv := {}
  mot := {}
  cam := {}
  vid := {}
  chr := {}
  eth := List.replicate 9 {}
  can := List.replicate 8 {}
  glk := {}
  memc := {}
  msix := []
  objs := []
  keys := {}
  log := {}
  safe := {}
  irqs := []
  sent := []
  scrub := []
  app := {}
  traffic := []
  scrubHit := false
  busError := false
  readValue := 0
  due := []
  free := 0
  pending := []

end Sys2Proof.Machine
end

