-- ==== Sys2Proof/Machine/Ops.lean ====
section
/-! DEFINITION. The named operations over registers, memory, events and interrupts that every meaning is written over. -/

namespace Sys2Proof.Machine

/-! Registers. -/

/-- The value of a register's element. -/
def State.word (s : State) (r : Reg) (i j : Nat := 0) : Word := sparseGet (fun _ => 0) s.regs (r.key i j)

/-- The value of a register's element as a number. -/
def State.reg (s : State) (r : Reg) (i j : Nat := 0) : Nat := (s.word r i j).toNat

/-- The value of a register's field. -/
def State.fld (s : State) (f : Fld) (i j : Nat := 0) : Nat := f.of (s.word f.reg i j)

/-- A one-bit field as a truth value. -/
def State.flag (s : State) (f : Fld) (i j : Nat := 0) : Bool := s.fld f i j != 0

/-- The state with a register's element at a value. -/
def State.setReg (s : State) (r : Reg) (n : Nat) (i j : Nat := 0) : State :=
  { s with regs := sparseSet (fun _ => 0) s.regs (r.key i j) (BitVec.ofNat 64 n) }

/-- The state with one field of a register's element at a value. -/
def State.putFld (s : State) (f : Fld) (n : Nat) (i j : Nat := 0) : State :=
  { s with regs := sparseSet (fun _ => 0) s.regs (f.reg.key i j) (f.into (s.word f.reg i j) n) }

/-- A sticky flag set. -/
def State.setFlag (s : State) (f : Fld) (i j : Nat := 0) : State := s.putFld f 1 i j

/-- A field raised by n, held at its largest value. -/
def State.addFld (s : State) (f : Fld) (n : Nat) (i j : Nat := 0) : State :=
  s.putFld f (satNat (f.hi + 1 - f.lo) (s.fld f i j + n)) i j

/-- A register of w bits raised by n, held at its largest value. -/
def State.addReg (s : State) (r : Reg) (w n : Nat) (i j : Nat := 0) : State :=
  s.setReg r (satNat w (s.reg r i j + n)) i j

/-- A list of register loads. -/
def State.loadRegs (s : State) : List (Reg × Nat × Nat × Nat) → State
  | [] => s
  | (r, i, j, n) :: l => (s.setReg r n i j).loadRegs l

/-! Function and unit states (R25, Tables SYS-11 and SYS-12). -/

/-- Table SYS-11: the function-state codes. -/
abbrev stOff : Nat := 0
abbrev stStarting : Nat := 1
abbrev stReady : Nat := 2
abbrev stRunning : Nat := 3
abbrev stDraining : Nat := 4
abbrev stStopped : Nat := 5
abbrev stHeld : Nat := 6
abbrev stFault : Nat := 7

/-- SYS_DEVSTATE.DEVSTATE codes. -/
abbrev devCold : Nat := 0
abbrev devBoot : Nat := 1
abbrev devHeld : Nat := 2
abbrev devStarting : Nat := 3
abbrev devRunning : Nat := 4
abbrev devSafe : Nat := 5

/-- Function numbers of Table SYS-7. -/
abbrev fnMgmt : Nat := 0
abbrev fnPcie : Nat := 1
abbrev fnEth : Nat := 2
abbrev fnGlk : Nat := 3
abbrev fnDram : Nat := 4
abbrev fnSmem : Nat := 5
abbrev fnMe : Nat := 6
abbrev fnScan : Nat := 7
abbrev fnAdma : Nat := 8
abbrev fnVis : Nat := 9
abbrev fnCam : Nat := 10
abbrev fnVid : Nat := 11
abbrev fnMot : Nat := 12
abbrev fnCan : Nat := 13
abbrev fnChr : Nat := 14
abbrev fnSafe : Nat := 15
abbrev fnApp : Nat := 16

/-- The SYS_FNSTATE field of a function. -/
def fnFld : Nat → Fld
  | 0 => F.SYS_FNSTATE0_MGMT
  | 1 => F.SYS_FNSTATE0_PCIE
  | 2 => F.SYS_FNSTATE0_ETH
  | 3 => F.SYS_FNSTATE0_GLK
  | 4 => F.SYS_FNSTATE0_DRAM
  | 5 => F.SYS_FNSTATE0_SMEM
  | 6 => F.SYS_FNSTATE0_ME
  | 7 => F.SYS_FNSTATE0_SCAN
  | 8 => F.SYS_FNSTATE0_ADMA
  | 9 => F.SYS_FNSTATE0_VIS
  | 10 => F.SYS_FNSTATE1_CAM
  | 11 => F.SYS_FNSTATE1_VID
  | 12 => F.SYS_FNSTATE1_MOT
  | 13 => F.SYS_FNSTATE1_CAN
  | 14 => F.SYS_FNSTATE1_CHR
  | 15 => F.SYS_FNSTATE1_SAFE
  | _ => F.SYS_FNSTATE1_APP

/-- The state of a function. -/
def State.fnState (s : State) (n : Nat) : Nat := s.fld (fnFld n)

/-- R55: FN_PCIE, FN_ETH, FN_GLK and FN_CAN do not run from RCOSC. -/
def rcoscFns : List Nat := [fnPcie, fnEth, fnGlk, fnCan]

/-- R55, Table CLK-3: RCOSC is the active source and keeps the function from running; a start then waits (see log entry 80, DESIGN CHOICE). -/
def State.rcoscHolds (s : State) (fn : Nat) : Bool := rcoscFns.contains fn && s.fld F.CLK_STATUS_ACTIVE == 2

/-- R55, R448, Tables CLK-3 and SAFE-4: the outputs of a unit may be up: not of a function that RCOSC holds, and in SAFE not of a data
Ethernet port, a Grenlink port or a CAN controller. -/
def State.mayDrive (s : State) (fn unit : Nat) : Bool :=
  !s.rcoscHolds fn && (s.fld F.SYS_DEVSTATE_DEVSTATE != devSafe || !((fn == fnEth && unit != 8) || fn == fnGlk || fn == fnCan))

/-- R26: READY or RUNNING. -/
def usableCode (c : Nat) : Bool := c == stReady || c == stRunning

/-- R38: READY, RUNNING or DRAINING: the work in flight goes on. -/
def liveCode (c : Nat) : Bool := usableCode c || c == stDraining

/-- R26: the function accepts work. -/
def State.fnUsable (s : State) (n : Nat) : Bool := usableCode (s.fnState n)

/-- The device state. -/
def State.devState (s : State) : Nat := s.fld F.SYS_DEVSTATE_DEVSTATE

/-- Table SYS-12: the field that shows the state of a function's unit, with the field's index; none for a unit that the
function does not list. A hart's state lies in SYS_HARTSTATE, three bits to a hart. -/
def State.unitFld (s : State) (fn unit : Nat) : Option (Fld × Nat) :=
  match fn with
  | 0 => if unit < 64 then some (F.ESC_PCFG_STATE, unit) else none
  | 2 => if unit < 9 then some (F.ETH_PSTAT_STATE, unit) else none
  | 3 => if unit < 4 then some (F.GLK_PSTAT_STATE, unit) else none
  | 6 => if unit < s.chip.slots then some (F.ME_STATE_STATE, unit) else none
  | 7 => if unit < 8 then some (F.SCAN_ESTATE_STATE, unit) else none
  | 8 => if unit < 8 then some (F.ADMA_ESTATE_STATE, unit) else none
  | 9 => if unit < 12 then some (F.VIS_USTATE_STATE, unit) else none
  | 10 => if unit < 16 then some (F.CAM_RXSTAT_STATE, unit)
          else if unit < 48 then some (F.CAM_CTXSTATE_STATE, unit - 16) else none
  | 11 => if unit < 8 then some (F.VID_CORESTAT_STATE, unit) else none
  | 12 => if unit < 16 then some (F.MOT_AXSTATE_STATE, unit) else none
  | 13 => if unit < 8 then some (F.CAN_CTL_STATE, unit) else none
  | 16 => if unit < 16 then some (⟨.SYS_HARTSTATE, 3 * unit + 2, 3 * unit⟩, 0) else none
  | _ => none

/-- The state of a function's unit; OFF for a unit that does not exist. -/
def State.unitState (s : State) (fn unit : Nat) : Nat :=
  match s.unitFld fn unit with
  | some (f, i) => s.fld f i
  | none => stOff

/-- Both the function and its unit accept work (R26, R37), a CAN controller while its bit in CLK_GATE_CAN is set (R418). -/
def State.unitUsable (s : State) (fn unit : Nat) : Bool :=
  s.fnUsable fn && usableCode (s.unitState fn unit) && (fn != fnCan || (s.reg .CLK_GATE_CAN).testBit unit)

/-- R38: work in flight of a unit goes on. -/
def State.unitLive (s : State) (fn unit : Nat) : Bool := liveCode (s.fnState fn) && liveCode (s.unitState fn unit)

/-- The units the accepted profile enables for a function, the bound harts of FN_APP (R146); in HELD the management port alone (R30)
(see log entry 17, DEDUCED). -/
def State.enabledUnits (s : State) (fn : Nat) : List Nat :=
  match s.dev.settings with
  | some t => if fn = fnApp then t.harts.map (·.1) else (t.units.filter (fun e => e.1 == fn)).map (·.2)
  | none => if fn = fnEth ∧ s.devState = devHeld then [8] else []

/-- A function that the profile enables; FN_MGMT always runs (file 00). -/
def isOn (x : Settings) (n : Nat) : Bool := n == fnMgmt || x.enabled.testBit n

/-- The functions that the accepted profile enables. -/
def State.enabledFns (s : State) : List Nat :=
  match s.dev.settings with
  | some x => (List.range 17).filter (isOn x)
  | none => []

/-- SYS_DEVSTATE.FN_FAULT shows whether an enabled function reads FAULT. -/
def State.showFnFault (s : State) : State :=
  s.putFld F.SYS_DEVSTATE_FN_FAULT (b2n (s.enabledFns.any (fun n => s.fnState n == stFault)))

/-- R37: SYS_FNUNITS shows the functions that have an enabled unit not READY or RUNNING (see log entry 17, DEDUCED). -/
def State.refreshUnits (s : State) : State :=
  s.putFld F.SYS_FNUNITS_UNITS_STOPPED ((List.range 17).foldl
    (fun m n => if (s.enabledUnits n).any (fun u => !usableCode (s.unitState n u)) then m + 2 ^ n else m) 0)

/-- A function's state set; FN_PCIE's also shows in PCIE_LSTAT, whose link is down but in READY, RUNNING and DRAINING. -/
def State.setFn (s : State) (n code : Nat) : State :=
  let t := s.putFld (fnFld n) code
  if n ≠ fnPcie then t
  else if usableCode code || code == stDraining then t.putFld F.PCIE_LSTAT_STATE code
  else t.setReg .PCIE_LSTAT (2 ^ 29 * code)

/-- R96, Table CMDQ-11: the PCIe link is up, at a speed and width that the partner allows, within MAX_SPEED and MAX_WIDTH
(see log entry 92, PRESUMED). -/
def State.trainPcie (s : State) : State :=
  let most := max 1 (s.fld F.PCIE_CFG_MAX_SPEED)
  let wide := Nat.log2 (max 1 (s.fld F.PCIE_CFG_MAX_WIDTH))
  let v := fun k => (Config.freeValue (s.free + k)).toNat
  { (((s.putFld F.PCIE_LSTAT_LINK_UP 1).putFld F.PCIE_LSTAT_SPEED (1 + v 0 % most)).putFld F.PCIE_LSTAT_WIDTH
      (2 ^ (v 1 % (wide + 1)))).putFld F.PCIE_LSTAT_LTSSM (v 2 % 64) with free := s.free + 3 }

/-- R443: an enabled watchdog reads SUSPENDED while its partition reads neither READY nor RUNNING, and its open window is discarded; else
one that is not suspended reads IDLE or OPEN. -/
def State.suspendDog (s : State) (k : Nat) : State :=
  if s.flag F.SAFE_WDCFG_EN k = false ∨ usableCode (s.fld F.ESC_PCFG_STATE (s.fld F.SAFE_WDCFG_PARTITION k)) = true then
    (if s.fld F.SAFE_WDSTAT_STATE k = 2 then s.putFld F.SAFE_WDSTAT_STATE 0 k else s)
  else
    { (s.putFld F.SAFE_WDSTAT_STATE 2 k).putFld F.SAFE_WDSTAT_T_US 0 k with
      safe := { s.safe with openNs := s.safe.openNs.filter (fun e => e.1 != k) } }

/-- R443: the watchdogs of a partition after a change of its state. -/
def State.suspendDogs (s : State) (p : Nat) : State :=
  (List.range 64).foldl (fun t k => if t.flag F.SAFE_WDCFG_EN k ∧ t.fld F.SAFE_WDCFG_PARTITION k = p then t.suspendDog k else t) s

/-- R443: every watchdog after a change of the watchdogs' configuration. -/
def State.suspendAll (s : State) : State := (List.range 64).foldl State.suspendDog s

/-- R40: a fault of a unit while its whole function is DRAINING moves the function to FAULT. -/
def State.faultDrain (s : State) (fn : Nat) : State := if s.fnState fn = stDraining then (s.setFn fn stFault).showFnFault else s

/-- A unit's state set, with SYS_FNUNITS, a partition's watchdogs and a draining function's fault after it. -/
def State.setUnit (s : State) (fn unit code : Nat) : State :=
  match s.unitFld fn unit with
  | some (f, i) =>
    let t := (s.putFld f code i).refreshUnits
    if fn = fnMgmt then t.suspendDogs unit
    else if code = stFault then t.faultDrain fn else t
  | none => s

/-- Every enabled unit of a function set to a state. -/
def State.setUnits (s : State) (fn code : Nat) : State :=
  (s.enabledUnits fn).foldl (fun t u => t.setUnit fn u code) s

/-- R26: work accepted by a READY function moves it to RUNNING; while the device is HELD it stays READY (R30). -/
def State.acceptFn (s : State) (n : Nat) : State :=
  if s.fnState n = stReady ∧ s.devState ≠ devHeld then s.setFn n stRunning else s

/-- R26: work accepted by a READY unit moves the unit and its function to RUNNING; in HELD the unit stays READY as well (R30). -/
def State.acceptUnit (s : State) (fn unit : Nat) : State :=
  let t := s.acceptFn fn
  if t.unitState fn unit = stReady ∧ s.devState ≠ devHeld then t.setUnit fn unit stRunning else t

/-! Initiators (R119, R120). -/

/-- The class of an initiator ID. -/
def iClass (i : Nat) : Nat := i / 64 % 16

/-- The instance of an initiator ID. -/
def iInst (i : Nat) : Nat := i % 64

/-- An initiator ID. -/
def initiator (cls inst : Nat) : Nat := cls * 64 + inst

/-- R207: a class 0x5 initiator with the KV swap attribute, which the model carries in a bit above the initiator ID. -/
def kvSwapInit (part : Nat) : Nat := 1024 + initiator 5 part

/-- R120: a partition 0 initiator. -/
def isP0 (i : Nat) : Bool := iClass i == 0 || iClass i == 0xE || iClass i == 0xF || iInst i == 0

/-- R120: the initiator belongs to the partition or is a partition 0 initiator. -/
def ofPartition (i p : Nat) : Bool := isP0 i || iInst i == p

/-- R452: a debug access at level APP, which carries class 0x7 with a partition. -/
def debugClass (i : Nat) : Bool := iClass i == 7

/-- R452, R463: a debug access that reaches no register: of the debug initiator of a SECURED device before debug is unlocked at level FULL,
which reaches only the SEC mailbox, or at level APP, which reaches the named partition's harts and memory (see log entry 22, DEDUCED). -/
def State.debugLocked (s : State) (i : Nat) : Bool :=
  debugClass i || (iClass i == 0xF && iInst i == 1 && s.flag F.SEC_LIFECYCLE_STATE && s.fld F.SEC_LIFECYCLE_DEBUG != 2)

/-- R452: what a debug access may reach of memory: at level APP the named partition's, and without an unlock nothing
(see log entry 22, DEDUCED). -/
def State.debugReaches (s : State) (i : Nat) : Bool :=
  if debugClass i then s.fld F.SEC_LIFECYCLE_DEBUG == 1 && s.fld F.SEC_LIFECYCLE_DEBUG_PART == iInst i else !s.debugLocked i

/-- R120, R452: a register access of the initiator is a partition 0 initiator's (see log entry 22, DEDUCED). -/
def State.p0 (s : State) (i : Nat) : Bool := isP0 i && !s.debugLocked i

/-- R120, R452: a register access of the initiator is the partition's or partition 0's (see log entry 22, DEDUCED). -/
def State.ofPart (s : State) (i p : Nat) : Bool := ofPartition i p && !s.debugLocked i

/-! Time (R392, R393). -/

/-- The Chronometer's count; 0 while FN_CHR is neither READY nor RUNNING. -/
def State.time (s : State) : Nat := if s.fnUsable fnChr then s.reg .CHR_TIME else 0

/-- The state after one free value is drawn (see log entry 1, DESIGN CHOICE). -/
def State.drawFree (s : State) : State := { s with free := s.free + 1 }

/-- The free value that is drawn next, of w bits (see log entry 1, DESIGN CHOICE). -/
def State.freeNat (s : State) (w : Nat) : Nat := (Config.freeValue s.free).toNat % 2 ^ w

/-! The event log's staging (R455, R457, R458). -/

/-- The events of a class that wait in its FIFO. -/
def Log.staging (l : Log) (cls : Nat) : Nat := (l.staged.filter (fun e => e.cls == cls)).length

/-- The drops of a class since its last LOG_OVERFLOW, with the low 32 bits of the time of the first. -/
def Log.dropped (l : Log) (cls : Nat) : Option (Nat × Nat) :=
  (l.drops.find? (fun e => e.1 == cls)).map (·.2)

/-- One more drop of a class. -/
def Log.addDrop (l : Log) (cls now : Nat) : Log :=
  match l.dropped cls with
  | some (n, t) => { l with drops := (l.drops.filter (fun e => e.1 != cls)) ++ [(cls, n + 1, t)] }
  | none => { l with drops := l.drops ++ [(cls, 1, now % 2 ^ 32)] }

/-- R457, R458: an event arrives at its class's staging FIFO of 128, or is dropped and counted in LOG_DROP
(see log entry 30, DESIGN CHOICE). -/
def State.emit (s : State) (cls code source data : Nat) (partition : Nat := 0xFF) : State :=
  if s.log.staging cls < 128 then
    { s with log := { s.log with staged := s.log.staged ++ [⟨cls, partition, code, source, data⟩] } }
  else (({ s with log := s.log.addDrop cls s.time }).addReg .LOG_DROP 32 1 cls).setFlag F.LOG_STATUS_OVERFLOW

/-- An event whose DATA the manual does not state: a free value (see log entry 69, DESIGN CHOICE). -/
def State.event (s : State) (cls code source : Nat) (partition : Nat := 0xFF) : State :=
  s.drawFree.emit cls code source (s.freeNat 64) partition

/-- An event whose SOURCE and DATA the manual does not state: free values (see log entry 69, DESIGN CHOICE). -/
def State.anyEvent (s : State) (cls code : Nat) (partition : Nat := 0xFF) : State :=
  s.drawFree.event cls code (s.freeNat 16) partition

/-- An event whose SOURCE the manual does not state: a free value (see log entry 69, DESIGN CHOICE). -/
def State.dataEvent (s : State) (cls code data : Nat) (partition : Nat := 0xFF) : State :=
  s.drawFree.emit cls code (s.freeNat 16) data partition

/-! Interrupts (R95, R147). -/

/-- R147: the hart and interrupt file that the PARTITIONS section routes the vector of a partition's unit to (see log entry 74, DEDUCED). -/
def State.vecRoute (s : State) (partition vec : Nat) : Option (Nat × Nat) :=
  match s.dev.settings with
  | some t => (t.irqRoutes.find? (fun e => e.1 == partition && e.2.1 == vec)).map (·.2.2)
  | none => none

/-- R147: the vector has a route. -/
def State.routed (s : State) (partition vec : Nat) : Bool := (s.vecRoute partition vec).isSome

/-- R147: an identity becomes pending in a hart's interrupt file. -/
def State.pend (s : State) (hart file id : Nat) : State :=
  { s with app := { s.app with
    files := if s.app.files.contains (hart, file, id) then s.app.files else s.app.files ++ [(hart, file, id)] } }

/-- R147: a vector becomes the pending identity of the file that it is routed to. -/
def State.deliver (s : State) (vec partition : Nat) : State :=
  match s.vecRoute partition vec with
  | some (h, f) => s.pend h f vec
  | none => s

/-- R97: the PCIe function that a queue belongs to. -/
def State.queueFn (s : State) (q : Nat) : Option Nat :=
  match s.dev.settings with
  | some t => (t.queueFns.find? (fun e => e.1 == q)).map (·.2)
  | none => none

/-- The PCIe function whose MSI-X vectors a partition's units use: the lowest enabled one bound to it (see log entry 74, DEDUCED). -/
def State.partFn (s : State) (p : Nat) : Nat :=
  ((List.range 65).find? (fun f => s.flag F.PCIE_FNMAP_EN f && s.fld F.PCIE_FNMAP_PARTITION f == p)).getD 0

/-- An interrupt raised: 0 the AIA of the application cores, dropped and counted without a route; 1 MSI-X, of a queue's function where it
is a queue's; 2 the management core (see log entry 74, DEDUCED). -/
def State.raise (s : State) (vec dest partition : Nat) (fn : Option Nat := none) : State :=
  if dest = 0 ∧ s.routed partition vec = false then s.addReg .SYS_IRQLOST 32 1
  else
    let t := { s with irqs := s.irqs ++ [⟨vec, dest, partition, if dest = 1 then fn.getD (s.partFn partition) else 0⟩] }
    if dest = 0 then t.deliver vec partition else t

/-- Something sent to the outside. -/
def State.send (s : State) (o : Out) : State := { s with sent := s.sent ++ [o] }

/-- An event that the block owes itself. -/
def State.owe (s : State) (i : Instr) : State := { s with due := s.due ++ [i] }

/-- A register access answered with a bus error, all else unchanged (see log entry 75, DEDUCED). -/
def State.busErr (s : State) : State := { s with busError := true, readValue := 0 }

/-- A register write that was taken (see log entry 75, DEDUCED). -/
def State.accessed (s : State) : State := { s with busError := false }

/-- The function whose clock gate a block lies behind (R56). The blocks of no single function, MEMC and DMA among them, lie behind bit 0, which
is never closed (see log entry 91, DESIGN CHOICE). -/
def Block.gateFn : Block → Nat
  | .PCIE => fnPcie
  | .ETH => fnEth
  | .GLK => fnGlk
  | .ME => fnMe
  | .SCAN => fnScan
  | .ADMA => fnAdma
  | .VIS => fnVis
  | .CAM => fnCam
  | .VID => fnVid
  | .MOT => fnMot
  | .CAN => fnCan
  | .CHR => fnChr
  | .SAFE => fnSafe
  | _ => fnMgmt

/-- R56, R57: the block's clock gate is closed. The bit of one receiver or controller in CLK_GATE_CAM or CLK_GATE_CAN gates no register: R57
speaks of a block (see log entry 105, DESIGN CHOICE). -/
def State.gated (s : State) (b : Block) : Bool := !(s.reg .CLK_GATE).testBit b.gateFn

/-- R57: a register write to a block: a bus error where the access rule or the gate refuses it, else its effect. -/
def State.regWrite (s : State) (b : Block) (allowed : Bool) (t : State) : State :=
  if allowed && !s.gated b then t.accessed else s.busErr

/-! Memory (R122, R123). -/

/-- R123: a peer window of the device's own member index reaches local memory. -/
def State.localAddr (s : State) (a : Nat) : Nat :=
  let w := 0x100000000000 + 0x4000000000 * s.fld F.GLK_ID_MEMBER
  if w ≤ a ∧ a < w + 0x4000000000 then a - w else a

/-- R98: the outbound window that covers an access: where it begins, its size, and where its PCIe addresses begin among the memory's
cells. PCIe memory lies from cell 2^64 on; the configuration space of the root port's fixed window 15 from cell 2^65 on. -/
def State.window (s : State) (a n : Nat) : Option (Nat × Nat × Nat) :=
  let root := s.flag F.PCIE_CFG_ROLE
  let set := (List.range (if root then 15 else 16)).filterMap (fun k =>
    if s.flag F.PCIE_OBWIN_ATTR_EN k then
      some (0x200000000000 + s.fld F.PCIE_OBWIN_BASE_BASE k * 4096, s.fld F.PCIE_OBWIN_SIZE_SIZE k * 4096,
        2 ^ 64 + s.fld F.PCIE_OBWIN_PADDR_PADDR k * 4096)
    else none)
  (set ++ if root then [(0x2FFFF0000000, 0x10000000, 2 ^ 65)] else []).find? (fun w => decide (w.1 ≤ a ∧ a + n ≤ w.1 + w.2.1))

/-- The memory's cell that an address names: PCIe memory through the outbound windows, else the local address. -/
def State.cell (s : State) (a : Nat) : Nat :=
  let b := s.localAddr a
  if 0x200000000000 ≤ b ∧ b < 0x300000000000 then
    match s.window b 1 with
    | some w => w.2.2 + (b - w.1)
    | none => b
  else b

/-! DRAM encryption (R453): every DRAM access uses a key; what was stored under another reads as free bytes. -/

/-- The accesses that follow are an initiator's. -/
def State.keyed (s : State) (i : Nat) : State := { s with keys := { s.keys with user := i } }

/-- The accesses that follow are the device's own, under partition 0's key. -/
def State.sys (s : State) : State := s.keyed 0

/-- The addresses of DRAM (Table MEM-3). -/
def inDram (a : Nat) : Bool := decide (0x1000000000 ≤ a ∧ a < 0x4000000000)

/-- The 64 KiB page of DRAM that an address lies in, counted from the base of DRAM. -/
def dramPage (a : Nat) : Nat := 0x100000 * (a / 0x1000000000 - 1) + a / 0x10000 % 0x100000

/-- R127: the PARTITIONS section allots the granule of an SMEM address to the partition. -/
def State.allotted (s : State) (p a : Nat) : Bool :=
  match s.dev.settings with
  | some t => t.smemGranules.contains (a / 0x100000, p)
  | none => false

/-- R127: a region of the SMEM firewall admits its partition to no granule that is not allotted to it (see log entry 95, DEDUCED). -/
def State.allotHolds (s : State) (t k a n : Nat) : Bool :=
  t != 0 || s.flag F.FWL_RATTR_ANY_PART t k ||
    (List.range ((a + n - 1) / 0x100000 + 1 - a / 0x100000)).all
      (fun j => s.allotted (s.fld F.FWL_RATTR_PART t k) (a / 0x100000 * 0x100000 + 0x100000 * j))

/-- R280: a firewall region admits the access. SMEM regions ignore address bits 19:12 (R289). -/
def State.regionAdmits (s : State) (t k i a n : Nat) (write : Bool) : Bool :=
  let lo := s.fld F.FWL_RBASE_ADDR t k * 4096
  let hi := s.fld F.FWL_RLIMIT_ADDR t k * 4096 + 4095
  let lo := if t = 0 then 0x100000 * (lo / 0x100000) else lo
  let hi := if t = 0 then 0x100000 * (hi / 0x100000) + 0xFFFFF else hi
  s.flag F.FWL_RATTR_EN t k && (if write then s.flag F.FWL_RATTR_WR t k else s.flag F.FWL_RATTR_RD t k) &&
    (s.fld F.FWL_RATTR_CLASS_MASK t k).testBit (iClass i) &&
    (s.flag F.FWL_RATTR_ANY_PART t k || s.fld F.FWL_RATTR_PART t k == iInst i) && decide (lo ≤ a ∧ a + n ≤ hi + 1) &&
    s.allotHolds t k a n

/-- The address of a page (R204). -/
def pageAddr (page : Nat) : Nat := 0x1000000000 + 0x10000 * page

/-- R204: the page lies in the pool. -/
def State.inPool (s : State) (page : Nat) : Bool :=
  decide (s.fld F.ADMA_POOL_PAGE_FIRST ≤ page ∧ page < s.fld F.ADMA_POOL_PAGE_FIRST + s.fld F.ADMA_POOL_PAGE_COUNT)

/-- A byte of DRAM lies in the KV pool (R204). -/
def State.poolByte (s : State) (a : Nat) : Bool :=
  inDram (s.localAddr a) && s.inPool (dramPage (s.localAddr a))

/-- R207: what may reach the pool: class 3, class 5 with the KV swap attribute, and partition 0, which passes every firewall. -/
def State.poolAdmits (s : State) (i a n : Nat) : Bool :=
  iClass i == 3 || (iClass i == 5 && i.testBit 10) ||
    decide (s.localAddr a + n ≤ pageAddr (s.fld F.ADMA_POOL_PAGE_FIRST) ∨
      pageAddr (s.fld F.ADMA_POOL_PAGE_FIRST + s.fld F.ADMA_POOL_PAGE_COUNT) ≤ s.localAddr a)

/-- R453: the partition whose key a DRAM access uses, partition 0's in the KV pool (R207; see log entry 29, DESIGN CHOICE). -/
def State.keyPart (s : State) (a : Nat) (write : Bool) : Nat :=
  if isP0 s.keys.user || s.poolByte a || (List.range 64).any (fun k =>
    s.flag F.FWL_RATTR_ANY_PART 1 k && s.regionAdmits 1 k s.keys.user a 1 write) then 0 else iInst s.keys.user

/-- The mark of a partition's present key: 0 marks a block that nothing has written. -/
def Keys.mark (k : Keys) (p : Nat) : Nat := 1 + p + 64 * sparseGet (fun _ => 0) k.gens p

/-- The mark of the key that an access uses (see log entry 29, DESIGN CHOICE). -/
def State.keyMark (s : State) (a : Nat) (write : Bool) : Nat := s.keys.mark (s.keyPart a write)

/-- The mark of the key that a block was last written under (see log entry 29, DESIGN CHOICE). -/
def State.blockMark (s : State) (b : Nat) : Nat := sparseGet (fun _ => 0) s.keys.marks b

/-- The marked blocks of a range whose key is not the access's. -/
def State.foreign (s : State) (a n : Nat) (write : Bool) : List Nat :=
  if inDram a then
    (s.keys.marks.filter (fun e => decide (a / 64 ≤ e.1 ∧ e.1 * 64 < a + n) && e.2 != s.keyMark (e.1 * 64) write)).map (·.1)
  else []

/-- A block as the access's key deciphers it (see log entry 29, DESIGN CHOICE). -/
def State.deciphered (s : State) (b : Nat) (write : Bool) : List Byte :=
  (List.range 64).map (fun j => Config.garbled (s.keyMark (64 * b) write) (s.blockMark b) (64 * b + j)
    (sparseGetList (fun _ => 0) s.mem (64 * b) 64))

/-- R129: a range of memory touches a granule under scrub. -/
def State.scrubbing (s : State) (a n : Nat) : Bool :=
  s.scrub.any (fun g => decide (0x100000 * g < a + n ∧ a < 0x100000 * (g + 1)))

/-- A byte of memory's cells as stored, a granule under scrub zero (R129). -/
def State.stored (s : State) (b : Nat) : Byte := if s.scrubbing b 1 then 0 else sparseGet (fun _ => 0) s.mem b

/-- n bytes of memory from an address (see log entry 4, DESIGN CHOICE). -/
def State.bytes (s : State) (a n : Nat) : List Byte :=
  let b := s.cell a
  let l := s.foreign b n false
  if l.isEmpty && !s.scrubbing b n then sparseGetList (fun _ => 0) s.mem b n
  else (List.range n).map (fun j =>
    if l.contains ((b + j) / 64) then (s.deciphered ((b + j) / 64) false).getD ((b + j) % 64) 0
    else s.stored (b + j))

/-- One byte of memory (see log entry 4, DESIGN CHOICE). -/
def State.byte (s : State) (a : Nat) : Byte := (s.bytes a 1).headD 0

/-- An n-byte little-endian number of memory. -/
def State.num (s : State) (a n : Nat) : Nat := leNat (s.bytes a n)

/-- Memory whose blocks that a write meets under another key hold what the write's key deciphers (see log entry 29, DESIGN CHOICE). -/
def State.rekeyed (s : State) (a n : Nat) : List Host.Cell :=
  (s.foreign a n true).foldl (fun m b => sparseSetList (fun _ => 0) m (64 * b) (s.deciphered b true)) s.mem

/-- The blocks of a DRAM write are under its key (see log entry 29, DESIGN CHOICE). -/
def State.marked (s : State) (a n : Nat) : Keys :=
  if inDram a ∧ n ≠ 0 then
    let put := fun m j => sparseSet (fun _ => 0) m (a / 64 + j) (s.keyMark (64 * (a / 64 + j)) true)
    { s.keys with marks := (List.range ((a + n - 1) / 64 + 1 - a / 64)).foldl put s.keys.marks }
  else s.keys

/-- R277, R279: the key of the regulator that counts an initiator's access: 2p for DRAM, 2p + 1 for SMEM; none for an exempt class and for
a target that is not regulated. -/
def regulatorKey (i b : Nat) : Option Nat :=
  if iClass i = 0 ∨ iClass i = 0xE then none
  else
    let p := if isP0 i then 0 else iInst i
    if b < 0x10000000 then some (2 * p + 1) else if inDram b then some (2 * p) else none

/-- R277: bytes charged to a regulator. -/
def State.chargeKey (s : State) (k n : Nat) : State :=
  { s with traffic := sparseSet (fun _ => 0) s.traffic k (sparseGet (fun _ => 0) s.traffic k + n) }

/-- R277, R279: an access charged to its initiator's partition, 64 bytes for each granule. -/
def State.charge (s : State) (i a n : Nat) : State :=
  match regulatorKey i (s.cell a) with
  | some k => if n = 0 then s else s.chargeKey k (64 * ((s.cell a + n - 1) / 64 + 1 - s.cell a / 64))
  | none => s

/-- An engine's read: charged, and marked where it meets a granule under scrub (R129). -/
def State.chargeRead (s : State) (i a n : Nat) : State :=
  if s.scrubbing (s.localAddr a) n then { s.charge i a n with scrubHit := true } else s.charge i a n

/-- R129: a run that reads a granule under scrub waits: nothing of it happens before the scrub ends. -/
def State.settled (s t : State) : State := if t.scrubHit then s else t

/-- Bytes placed in memory at consecutive addresses. -/
def State.putBytes (s : State) (a : Nat) (bs : List Byte) : State :=
  { s with
    mem := sparseSetList (fun _ => 0) (s.rekeyed (s.cell a) bs.length) (s.cell a) bs
    keys := s.marked (s.cell a) bs.length }

/-- Bytes written to memory at consecutive addresses, charged to the initiator that writes (R277). -/
def State.writeBytes (s : State) (a : Nat) (bs : List Byte) : State := (s.putBytes a bs).charge s.keys.user a bs.length

/-- An n-byte little-endian number written to memory. -/
def State.writeNum (s : State) (a n v : Nat) : State := s.writeBytes a (toLe n v)

/-- The device's own reads and writes of the tables it keeps in memory, under partition 0's key. -/
def State.sysBytes (s : State) (a n : Nat) : List Byte := s.sys.bytes a n
def State.sysNum (s : State) (a n : Nat) : Nat := s.sys.num a n
def State.sysWrite (s : State) (a : Nat) (bs : List Byte) : State := (s.sys.writeBytes a bs).keyed s.keys.user
def State.sysWriteNum (s : State) (a n v : Nat) : State := s.sysWrite a (toLe n v)

/-- Memory from lo to below hi zeroed (see log entry 20, DEDUCED). -/
def State.clearMem (s : State) (lo hi : Nat) : State := { s with mem := sparseClear s.mem lo hi }

/-- The canonical form of memory and flash (see log entry 4, DESIGN CHOICE). -/
def Memory.wf (s : State) : Bool := sparseWf (fun _ => (0 : Byte)) s.mem && sparseWf (fun _ => (0xFF : Byte)) s.flash

/-- The regions of Table MEM-3. -/
inductive Region where
  | smem | regs | dram | peer | pcie | unmapped
  deriving DecidableEq, Repr

/-- R122: the region an address lies in; DRAM only as far as MEMC_CAP.TOP_GIB shows it present. -/
def State.region (s : State) (a : Nat) : Region :=
  if a < 0x10000000 then .smem
  else if 0x40000000 ≤ a ∧ a < 0x80000000 then .regs
  else if 0x1000000000 ≤ a ∧ a < 0x1000000000 + 2 ^ 30 * s.fld F.MEMC_CAP_TOP_GIB then .dram
  else if 0x100000000000 ≤ a ∧ a < 0x200000000000 then .peer
  else if 0x200000000000 ≤ a ∧ a < 0x300000000000 then .pcie
  else .unmapped

/-- R123: the member whose peer window holds the address. -/
def peerOf (a : Nat) : Nat := a % 0x100000000000 / 0x4000000000

/-- R123: within a peer window only SMEM and DRAM offsets are mapped. -/
def peerMapped (a : Nat) : Bool :=
  let o := a % 0x4000000000
  decide (o < 0x10000000 ∨ 0x1000000000 ≤ o)

/-- R122, R293: the access lies wholly in one region of memory and is present; a peer must be reachable. -/
def State.mapped (s : State) (a n : Nat) : Bool :=
  match s.region (s.localAddr a) with
  | .smem => decide (s.localAddr a + n ≤ 0x10000000)
  | .dram => s.region (s.localAddr a + n - 1) == .dram
  | .peer => (s.reg .GLK_PEERS).testBit (peerOf a) && peerMapped a && peerMapped (a + n - 1) &&
      peerOf a == peerOf (a + n - 1)
  | .pcie => (s.window (s.localAddr a) n).isSome || s.devState == devHeld
  | _ => false

/-- Table ESC-5: the firewall target of a region. -/
def Region.target : Region → Option Nat
  | .smem => some 0
  | .dram => some 1
  | .peer => some 2
  | .pcie => some 3
  | _ => none

/-- R207, R280: the firewall of the address's target admits the access; a partition 0 initiator passes every firewall. -/
def State.firewall (s : State) (i a n : Nat) (write : Bool) : Bool :=
  s.debugReaches i && ((isP0 i && !debugClass i) ||
    match (s.region (s.localAddr a)).target with
    | some t => s.poolAdmits i a n && (List.range 64).any (fun k => s.regionAdmits t k i (s.localAddr a) n write)
    | none => false)

/-- R122, R280: the access is mapped, present and admitted (see log entry 15, DEDUCED). -/
def State.memOk (s : State) (i a n : Nat) (write : Bool) : Bool := s.mapped a n && s.firewall i a n write

/-- R128, R133: an uncorrectable error: counted, its address kept, and logged with the address and the physical source unit. -/
def State.uncorrectable (s : State) (a unit part : Nat) : State :=
  let a := s.localAddr a
  let smem := decide (a < 0x10000000)
  let t := s.addFld (if smem then F.MEMC_ECC_STAT_SMEM_UE else F.MEMC_ECC_STAT_DRAM_UE) 1
  let t := if t.flag F.MEMC_ECC_ADDR_VALID then t else t.setReg .MEMC_ECC_ADDR (2 ^ 63 + a % 2 ^ 48)
  t.emit 0x04 (if smem then 0x0007 else 0x0006) unit a part

/-- R281: ESC_FIREWALL_DENY is logged at most once per 1 ms and partition. -/
def State.emitDeny (s : State) (i a : Nat) : State :=
  if (s.log.denyNs.filter (fun e => e.1 == iInst i)).all (fun e => decide (e.2 + 1000000 ≤ s.dev.nowNs)) then
    let t := s.emit 0x05 0x0005 (i % 1024) a (iInst i)
    { t with log := { t.log with
        denyNs := t.log.denyNs.filter (fun e => e.1 != iInst i) ++ [(iInst i, s.dev.nowNs)] } }
  else s

/-- R281: FWL_DENY takes the first denial. -/
def State.firstDenial (s : State) (t i a : Nat) (write : Bool) : State :=
  if s.flag F.FWL_DENY_VALID then s else
    s.loadRegs [(.FWL_DENY, 0, 0, 2 ^ 63 + 2 ^ 62 * s.fld F.FWL_DENY_LOCKED + 2 ^ 61 * b2n write + 2 ^ 59 * t +
      2 ^ 48 * (i % 1024) + a % 2 ^ 48)]

/-- R281: FWL_DENY holds the first denial of a target's firewall, FWL_DENYCNT counts all. -/
def State.denied (s : State) (i a : Nat) (write : Bool) : Option Nat → State
  | some t => ((s.firstDenial t i a write).addReg .FWL_DENYCNT 32 1).emitDeny i a
  | none => s

/-- R281: the record of an access that a firewall denied (see log entry 15, DEDUCED). -/
def State.recordDenial (s : State) (i a n : Nat) (write : Bool) : State :=
  if s.mapped a n && !s.firewall i a n write then s.denied i a write (s.region (s.localAddr a)).target else s

/-! Memory in pieces. -/

/-- The pieces that hold n bytes of a list of pieces from an offset on. -/
def piecesOf : List (Nat × Nat) → Nat → Nat → List (Nat × Nat)
  | [], _, _ => []
  | (a, l) :: ps, off, n =>
    if l ≤ off then piecesOf ps (off - l) n
    else if n = 0 then [] else (a + off, min n (l - off)) :: piecesOf ps 0 (n - min n (l - off))

/-- The address of the 64-bit word at an offset of n bytes in pieces, the offset taken modulo n. -/
def pieceAddr (ps : List (Nat × Nat)) (off n : Nat) : Nat := ((piecesOf ps (off % max n 1 / 8 * 8) 1).head?.map (·.1)).getD 0

/-- The piece that holds the byte at an offset of pieces, and the offset in it. -/
def pieceAt : List (Nat × Nat) → Nat → Option (Nat × Nat × Nat)
  | [], _ => none
  | (a, n) :: ps, k => if k < n then some (a, n, k) else pieceAt ps (k - n)

/-- R129: a read of pieces meets a granule under scrub. -/
def State.underScrub (s : State) (ps : List (Nat × Nat)) : Bool := ps.any (fun e => s.scrubbing (s.localAddr e.1) e.2)

/-- The bytes of pieces. -/
def State.readPieces (s : State) (ps : List (Nat × Nat)) : List Byte := ps.flatMap (fun e => s.bytes e.1 e.2)

/-- R277: a read of pieces charged. -/
def State.chargePieces (s : State) (i : Nat) (ps : List (Nat × Nat)) : State := ps.foldl (fun t e => t.charge i e.1 e.2) s

/-- Bytes written to pieces in order. -/
def State.writePieces (s : State) : List (Nat × Nat) → List Byte → State
  | [], _ => s
  | (a, n) :: ps, bs => (s.writeBytes a (bs.take n)).writePieces ps (bs.drop n)

/-- Flash bytes (R10): an unlisted byte is erased and reads 0xFF. -/
def State.flashBytes (s : State) (a n : Nat) : List Byte := sparseGetList (fun _ => 0xFF) s.flash a n

/-- A little-endian number of flash. -/
def State.flashNum (s : State) (a n : Nat) : Nat := leNat (s.flashBytes a n)

/-- Bytes programmed into flash. -/
def State.flashWrite (s : State) (a : Nat) (bs : List Byte) : State :=
  { s with flash := sparseSetList (fun _ => 0xFF) s.flash a bs }

/-- Flash from lo to below hi erased. -/
def State.flashErase (s : State) (lo hi : Nat) : State := { s with flash := sparseClear s.flash lo hi }

/-! The persisted safety events in flash (R459, R460). -/

/-- Table SYS-1: the persisted safety events in flash. -/
def persistBase : Nat := 0x3F00000

/-- The 32-byte slots of the area that hold a programmed byte. -/
def State.persistUsed (s : State) : List Nat :=
  ((s.flash.filter (fun e => decide (persistBase ≤ e.1 ∧ e.1 < persistBase + 0x100000))).map
    (fun e => (e.1 - persistBase) / 32)).eraseDups

/-- The current sector: used, with the sector after it erased. -/
def State.persistSector (s : State) : Option Nat :=
  let used := s.persistUsed.map (· / 128)
  (List.range 256).find? (fun c => used.contains c && !used.contains ((c + 1) % 256))

/-- R459, R460: the persisted records, oldest first: VALID set, not all ones, and a correct CRC-16, in the order of the circular log. -/
def State.persisted (s : State) : List (List Byte) :=
  let from' := match s.persistSector with
    | some c => c + 1
    | none => 0
  let slots := (List.range 256).flatMap (fun j => sortNat (s.persistUsed.filter (fun k => k / 128 == (from' + j) % 256)))
  (slots.map (fun k => s.flashBytes (persistBase + 32 * k) 32)).filter (fun r =>
    leAt r 0x1C 4 / 2 ^ 31 == 1 && leAt r 0x1C 4 != 2 ^ 32 - 1 && leAt r 0x1C 4 % 2 ^ 16 == crc16 (r.take 0x1C))

end Sys2Proof.Machine
end

