-- ==== Sys2Proof/Machine/Staging.lean ====
section
/-! DEFINITION. Register addresses, and the staging copy of a STOPPED function or unit: which register an address reaches (R124), which
unit a register belongs to (Table SYS-12), the bits of a register by access code, and writes that go to staging (R38, R41). -/

namespace Sys2Proof.Machine

/-- Table MEM-4: the register blocks. -/
def allBlocks : List Block :=
  [.SYS, .CLK, .PWR, .CMDQ, .SYNC, .ESC, .MEMC, .FWL, .ME, .SCAN, .ADMA, .VIS, .CAM, .VID, .MOT, .CAN, .ETH, .CHR, .GLK, .SAFE, .LOG,
    .SEC, .PCIE, .DMA]

/-- R124: the block that an address lies in. -/
def blockOf (a : Nat) : Option Block := allBlocks.find? (fun b => decide (b.base ≤ a ∧ a < b.base + b.span))

/-- Where an offset falls in a register's array: its indexes and the byte within the element (see log entry 26, DEDUCED). -/
def Reg.place (r : Reg) (off : Nat) : Option (Nat × Nat × Nat) :=
  let x := r.info
  if off < x.off then none
  else
    let d := off - x.off
    let i := if x.count ≤ 1 then 0 else if x.stride2 ≤ x.stride ∨ x.count2 ≤ 1 then d / x.stride else d % x.stride2 / x.stride
    let d1 := if x.count ≤ 1 then d else if x.stride2 ≤ x.stride ∨ x.count2 ≤ 1 then d % x.stride else d
    let j := if x.count2 ≤ 1 then 0 else d1 / x.stride2
    let b := if x.count2 ≤ 1 then d1 else if x.stride2 ≤ x.stride then d1 % x.stride2 else d1 % x.stride2 % x.stride
    if i < x.count ∧ j < x.count2 ∧ b < x.width / 8 then some (i, j, b) else none

/-- The first register of a list that an offset falls in. -/
def firstPlace (off : Nat) : List Reg → Option (Reg × Nat × Nat × Nat)
  | [] => none
  | r :: l =>
    match r.place off with
    | some p => some (r, p)
    | none => firstPlace off l

/-- The register that an address reaches: its indexes and the byte within it (see log entry 26, DEDUCED). -/
def findReg (a : Nat) : Option (Reg × Nat × Nat × Nat) := (blockOf a).bind (fun b => firstPlace (a - b.base) b.regs)

/-- R124, R154: the address lies in a register block that exists; slots without an engine do not. -/
def State.blockHere (s : State) (a : Nat) : Bool :=
  match blockOf a with
  | some .ME => decide ((a - Block.base .ME) / 0x10000 < s.chip.slots)
  | some _ => true
  | none => false

/-- Table SYS-12: the function whose state governs a block's registers; the always-running blocks belong to FN_MGMT. -/
def Block.fn : Block → Nat
  | .MEMC => fnDram
  | .DMA => fnMgmt
  | b => b.gateFn

/-- The unit that a register element belongs to; none: the whole function (see log entry 24, DEDUCED). -/
def Reg.unit (r : Reg) (i : Nat) : Option Nat :=
  match r.info.block with
  | .ME => some i
  | .CAN => some i
  | .ETH => if r = .ETH_MACCFG then none else some i
  | .ESC => if r.info.stride = 0x100 then some i else none
  | .GLK => if r = .GLK_PSTAT ∨ r = .GLK_PCNT ∨ r = .GLK_PDELAY then some i else none
  | .SCAN => if r.info.stride = 0x10000 then some i else none
  | .ADMA => if r.info.stride = 0x10000 then some i else none
  | .VIS => if r.info.stride = 0x10000 then some i else none
  | .VID => if r = .VID_CORESTAT ∨ r = .VID_COREBUSY then some i else none
  | .CAM =>
    match r with
    | .CAM_RXCFG => some i
    | .CAM_RXSTAT => some i
    | .CAM_RXERR => some i
    | _ => if 0x3000 ≤ r.info.off ∧ r.info.off < 0x4000 then some (16 + i) else none
  | .MOT => if r.info.count = 16 then some i else none
  | _ => none

/-- R37: the state of the function or unit that a register belongs to: STOPPED as soon as either is (see log entry 24, DEDUCED). -/
def State.regStopped (s : State) (r : Reg) (i : Nat) : Bool :=
  let f := r.info.block.fn
  s.fnState f == stStopped ||
    (match r.unit i with
     | some u => s.unitState f u == stStopped
     | none => false)

/-- The address of a register's element. -/
def Reg.addr (r : Reg) (i j : Nat) : Nat := r.info.block.base + r.info.off + r.info.stride * i + r.info.stride2 * j

/-- Bits hi down to lo as a mask. -/
def spanMask (hi lo : Nat) : Nat := (2 ^ (hi + 1 - lo) - 1) * 2 ^ lo

/-- The bits that a register without fields defines. -/
def Reg.wholeMask : Reg → Nat
  | .CAM_EXPO => spanMask 23 0
  | .CAM_GAIN => spanMask 15 0
  | .GLK_NAPMAX => spanMask 15 0
  | .PCIE_RPMSI => spanMask 63 2
  | .DMA_FWMASK => spanMask 15 0
  | .DMA_DST => spanMask 47 0
  | .DMA_LEN => spanMask 32 0
  | r => spanMask (r.info.width - 1) 0

/-- The bits of a register with one of the access codes. -/
def Reg.mask (r : Reg) (l : List Acc) : Nat :=
  if r.info.fields.isEmpty then (if l.contains r.info.acc then r.wholeMask else 0)
  else (r.info.fields.filter (fun e => l.contains e.2)).foldl (fun m e => m ||| spanMask e.1.hi e.1.lo) 0

/-- The bits of a register that are a parameter: RW and RW/L. -/
def Reg.params (r : Reg) : Nat := r.mask [.rw, .rwl]

/-- A number with the bits of a mask taken from another. -/
def mixBits (old new m : Nat) : Nat := (old - (old &&& m)) ||| (new &&& m)

/-- R38: what a register reads: its staged value, where it has one, in its parameter bits. -/
def State.seen (s : State) (r : Reg) (i j : Nat) : Nat :=
  match s.dev.staged.find? (fun e => e.1 == r.addr i j) with
  | some e => mixBits (s.reg r i j) e.2.toNat r.params
  | none => s.reg r i j

/-- R41: the register is listed in IN_SERVICE (see log entry 32, DEDUCED). -/
def State.inService (s : State) (a : Nat) : Bool :=
  match s.dev.settings with
  | some x => x.inService.contains a
  | none => false

/-- R41: a staging write that IN_SERVICE does not list: a bus error, and SYS_STAGE_ERR with the initiator of the first
(see log entry 24, DEDUCED). -/
def State.stageDenied (s : State) (init : Nat) : State :=
  (if s.flag F.SYS_STAGE_ERR_STAGE_DENIED then s
   else (s.putFld F.SYS_STAGE_ERR_INITIATOR init).setFlag F.SYS_STAGE_ERR_STAGE_DENIED).busErr

/-- R38, R41: a value written to the staging copy (see log entry 23, DEDUCED). -/
def State.stageReg (s : State) (r : Reg) (i j v init : Nat) : State :=
  let a := r.addr i j
  let l := s.dev.staged.filter (fun e => e.1 != a) ++ [(a, BitVec.ofNat 64 v)]
  if s.inService a then { s with dev := { s.dev with staged := l } }.accessed
  else s.stageDenied init

/-- R38, R57: a write that the access rule admits: to staging while the register's function or unit reads STOPPED, else its effect. -/
def State.paramWrite (s : State) (allowed : Bool) (r : Reg) (i j v init : Nat) (t : State) : State :=
  if !allowed || s.gated r.info.block then s.busErr
  else if s.regStopped r i then s.stageReg r i j v init
  else t.accessed

/-- The ranges outside which the manual says that a field's new value is ignored. -/
def writeRanges : List (Fld × List (Nat × Nat)) :=
  [(F.PWR_DROOP_CFG_THRESH_MV, [(10, 80)]), (F.MEMC_RW_CFG_RATE_GBPS, [(1, 32)]), (F.ADMA_PMCFG_T_PARK_MS, [(1, 10000)]),
   (F.VIS_OVCFG_THRESH_US, [(100, 60000)]), (F.ESC_GUARD_EPOCH_MS, [(10, 10000)]), (F.ESC_PCFG_SHARES, [(1, 65535)]),
   (F.GLK_CLAIMCFG_CLAIM_US, [(10, 1000)]), (F.GLK_NAPCFG_GUARD_NS, [(500, 20000)]), (F.CAN_TTCFG_CYCLE_MAX, [(0, 6)]),
   (F.CHR_JUMP_JUMP_NS, [(100, 1000000)]), (F.SAFE_CFG_TB_REACT, [(0, 0), (4, 4)]), (F.SAFE_CFG_RCOSC_REACT, [(0, 0), (4, 4)])]

/-- A new value with every field whose value is ignored left as it was. -/
def keepRanges (r : Reg) (old new : Nat) : Nat :=
  (writeRanges.filter (fun e => e.1.reg == r)).foldl (fun v e =>
    let x := bitsOf v e.1.hi e.1.lo
    if e.2.any (fun g => decide (g.1 ≤ x ∧ x ≤ g.2)) then v else mixBits v old (spanMask e.1.hi e.1.lo)) new

/-- R26: fields of access RW/L are locked once the function is RUNNING (see log entry 24, DEDUCED). -/
def State.locked (s : State) (r : Reg) : Bool :=
  let c := s.fnState r.info.block.fn
  c == stRunning || c == stDraining || c == stFault

/-- The access codes: the value of a register after a write of v to the bits of a lane mask. -/
def State.merged (s : State) (r : Reg) (i j v lanes : Nat) : Nat :=
  let old := s.reg r i j
  let take := r.mask (if s.locked r then [.rw] else [.rw, .rwl]) &&& lanes
  let kept := keepRanges r old (mixBits old v take)
  mixBits kept 0 (r.mask [.w1c] &&& v &&& lanes)

/-- The parameters that a write of v to the bits of a lane mask stages. -/
def State.stagedValue (s : State) (r : Reg) (i j v lanes : Nat) : Nat :=
  let old := s.seen r i j &&& r.params
  keepRanges r old (mixBits old v (r.params &&& lanes))

end Sys2Proof.Machine
end

