-- ==== Sys2Proof/Machine/Flags.lean ====
section
/-! DEFINITION. The sticky flags: how CMDQ_ERR, CMDQ_ERRCNT, SYNC_STATUS and CLK_FLAGS record an error, the first one with its
initiator and place (R57, R92, R106, R114, R492). -/

namespace Sys2Proof.Machine

/-- No flag of CMDQ_ERR is set (see log entry 76, DEDUCED). -/
def State.cmdqErrClear (s : State) : Bool := s.reg .CMDQ_ERR / 2 ^ 26 == 0 && !s.flag F.CMDQ_ERR_RING_FAULT

/-- No doorbell error and no ring fault is recorded in CMDQ_ERR (see log entry 76, DEDUCED). -/
def State.cmdqInitClear (s : State) : Bool :=
  !s.flag F.CMDQ_ERR_DB_DENIED && !s.flag F.CMDQ_ERR_DB_STATE && !s.flag F.CMDQ_ERR_DB_OVERRUN &&
    !s.flag F.CMDQ_ERR_RING_FAULT

/-- CMDQ_ERR takes an error: QUEUE names the queue of the first error, INITIATOR the initiator of the first doorbell error or
failed ring access (see log entry 76, DEDUCED). -/
def State.cmdqError (s : State) (f : Fld) (q : Nat) (init : Option Nat) : State :=
  let t := if s.cmdqErrClear then s.putFld F.CMDQ_ERR_QUEUE q else s
  let t := match init with
    | some i => if s.cmdqInitClear then t.putFld F.CMDQ_ERR_INITIATOR i else t
    | none => t
  t.setFlag f

/-- No refusal is recorded in SYNC_STATUS. -/
def State.syncRefusalClear (s : State) : Bool := !s.flag F.SYNC_STATUS_DENIED && !s.flag F.SYNC_STATUS_RANGE_REFUSED

/-- SYNC_STATUS takes a refusal of an initiator about a counter: INITIATOR and COUNTER stay when the flags are cleared, and the next
refusal is the first again (see log entry 93, DESIGN CHOICE). -/
def State.syncRefuse (s : State) (f : Fld) (init ctr : Nat) : State :=
  let t := if s.syncRefusalClear then s.putFld F.SYNC_STATUS_INITIATOR init else s
  let t := if s.syncRefusalClear && !s.flag F.SYNC_STATUS_SATURATED then t.putFld F.SYNC_STATUS_COUNTER ctr else t
  t.setFlag f

/-- SYNC_STATUS takes a saturation of a counter. -/
def State.syncSaturated (s : State) (ctr : Nat) : State :=
  let t := if s.syncRefusalClear && !s.flag F.SYNC_STATUS_SATURATED then s.putFld F.SYNC_STATUS_COUNTER ctr else s
  t.setFlag F.SYNC_STATUS_SATURATED

/-- R57: a read of a gated block records its initiator once; a further one sets GATED_MULTI. CLK_GATED_READ is logged for each. -/
def State.gatedRead (s : State) (init addr : Nat) : State :=
  let t := if s.flag F.CLK_FLAGS_GATED_READ then s.setFlag F.CLK_FLAGS_GATED_MULTI
    else (s.setFlag F.CLK_FLAGS_GATED_READ).putFld F.CLK_FLAGS_GATED_INIT init
  t.emit 0x02 0x0005 init addr (iInst init)

/-- R52, R54: a refused source switch or network write, with its reason. -/
def State.switchRefused (s : State) (reason : Nat) : State :=
  ((s.setFlag F.CLK_FLAGS_SW_REFUSED).putFld F.CLK_FLAGS_REFUSE_REASON reason)

/-- A fault register that keeps the first fault until VALID is cleared: VALID, CAUSE in bits 55:48 and an address or number in the
low bits. -/
def State.firstFault (s : State) (r : Reg) (cause low : Nat) (i : Nat := 0) : State :=
  if (s.reg r i).testBit 63 then s else s.setReg r (2 ^ 63 + 2 ^ 48 * (cause % 256) + low % 2 ^ 48) i

/-- A fault register that records each fault. -/
def State.noteFault (s : State) (r : Reg) (cause low : Nat) (i : Nat := 0) : State :=
  s.setReg r (2 ^ 63 + 2 ^ 48 * (cause % 256) + low % 2 ^ 48) i

end Sys2Proof.Machine
end

