-- ==== Sys2Proof/Machine/Operands.lean ====
section
/-! DEFINITION. The operands of commands: the packet header and its checksums (R78 to R81), its flags, TARGET forms (R86) and
payload fields, and the value a register write carries. -/

namespace Sys2Proof.Machine

/-- Table CMDQ-4: an opcode by its class and number. -/
structure Opcode where
  cls : Nat
  code : Nat
  deriving DecidableEq, Repr

/-- Table CMDQ-1: the first 30 bytes of the header of a packet with an opcode. -/
def headerBytes (o : Opcode) (p : Packet) : List Byte :=
  toLe 4 (2 ^ 16 * (o.code % 2 ^ 16) + o.cls % 2 ^ 8 * 2 ^ 8 + p.version % 2 ^ 8)
  ++ toLe 4 (2 ^ 26 * (p.partition % 2 ^ 6) + 2 ^ 20 * (p.sigInc % 2 ^ 6) + p.destDev % 2 ^ 20)
  ++ toLe 4 (2 ^ 19 * (p.queue % 2 ^ 13) + p.plen % 2 ^ 11 * 2 ^ 8 + p.flags % 2 ^ 8)
  ++ toLe 4 p.seq ++ toLe 8 p.target
  ++ toLe 4 (2 ^ 16 * (p.sigCtr % 2 ^ 16) + p.waitCtr % 2 ^ 16) ++ toLe 2 p.waitVal

/-- R81: HCRC is the CRC-16 of header bytes 0x00 to 0x1D. -/
def hcrcOf (o : Opcode) (p : Packet) : Nat := crc16 (headerBytes o p)

/-- R81: the trailer is the CRC-32C of the header and the payload. -/
def trailerOf (o : Opcode) (p : Packet) : Nat := crc32c (headerBytes o p ++ toLe 2 p.hcrc ++ p.payload)

/-- A packet with both checksums right. -/
def sealPacket (o : Opcode) (p : Packet) : Packet :=
  let q := { p with hcrc := hcrcOf o p }
  { q with trailer := trailerOf o q }

/-- Table CMDQ-2: the flags. -/
def pWaitEn (p : Packet) : Bool := p.flags.testBit 0
def pSigEn (p : Packet) : Bool := p.flags.testBit 1
def pLast (p : Packet) : Bool := p.flags.testBit 2
def pFence (p : Packet) : Bool := p.flags.testBit 3

/-- Table CMDQ-2: the opcode-specific flags, bits 7:4. -/
def pOpf (p : Packet) : Nat := bitsOf p.flags 7 4

/-- R92: ring slots of a packet. -/
def pSlots (p : Packet) : Nat := p.plen + 2

/-- A little-endian payload field. -/
def pNum (p : Packet) (off n : Nat) : Nat := leAt p.payload off n

/-- Payload bytes from an offset to before another are zero (R489). -/
def pZero (p : Packet) (lo hi : Nat) : Bool := allZero (bytesAt p.payload lo (hi - lo))

/-- R86: TARGET is a handle reference. -/
def pIsHandle (p : Packet) : Bool := p.target.testBit 63

/-- R86: the handle and the byte offset of a handle reference. -/
def pHandle (p : Packet) : Nat := bitsOf p.target 62 40
def pOffset (p : Packet) : Nat := bitsOf p.target 39 0

/-- R489: only the given low bits of TARGET are defined. -/
def pTargetBits (p : Packet) (n : Nat) : Bool := p.target < 2 ^ n

/-- Splits a list into pieces of n bytes, as many as given. -/
def chunks (n : Nat) : Nat → List Byte → List (List Byte)
  | 0, _ => []
  | k + 1, bs => bs.take n :: chunks n k (bs.drop n)

/-- The payload as records of n bytes. -/
def pRecords (p : Packet) (n : Nat) : List (List Byte) := chunks n (p.payload.length / n) p.payload

/-- The packet of an FN_STOP or FN_START command. -/
def reqPacket : FnReq → Option Packet
  | .packet p => some p
  | .fnctl _ => none

end Sys2Proof.Machine
end

