-- ==== Sys2Proof/Machine/PacketOf.lean ====
section
/-! DEFINITION. The packet a command carries, for the commands that are packets. -/

namespace Sys2Proof.Machine

/-- The packet of a packet command. -/
def packetOf : Instr → Option Packet
  | .loadProfile p _ => some p
  | .selectProfile p _ => some p
  | .warmReset p => some p
  | .fnStop r => reqPacket r
  | .fnStart r _ => reqPacket r
  | .statusRead p => some p
  | .logRead p => some p
  | .nop p => some p
  | .memWrite p => some p
  | .memRead p _ => some p
  | .memFill p => some p
  | .objCreate p => some p
  | .objWrite p => some p
  | .objFree p => some p
  | .syncAdd p => some p
  | .syncSet p => some p
  | .syncRead p => some p
  | .syncWait p => some p
  | .execLaunch p => some p
  | .execTeardown p => some p
  | .execQuery p => some p
  | .kvCreate p => some p
  | .kvAttach p => some p
  | .kvStep p => some p
  | .kvCommit p => some p
  | .kvFree p => some p
  | .kvQuery p => some p
  | .visRun p => some p
  | .glkBarrier p => some p
  | .glkImage p => some p
  | .glkDigestRead p => some p
  | .glkFenceClear p => some p
  | .camExpo p => some p
  | .ctxCommit p _ => some p
  | .decCreate p => some p
  | .decDecode p _ => some p
  | .decFlush p _ => some p
  | .decDestroy p => some p
  | .encCreate p _ => some p
  | .encFrame p _ _ => some p
  | .encDestroy p => some p
  | .jpegDec p _ => some p
  | .jpegEnc p _ => some p
  | .motSetpoint p => some p
  | .motFlush p => some p
  | .motQuery p => some p
  | .chrRead p => some p
  | .applyPending p => some p
  | .chrStep p => some p
  | .chrSet p => some p
  | .ethTx p => some p
  | .canTx p => some p
  | .canRx p => some p
  | .safeEnter p => some p
  | .secAdvance p => some p
  | .secRenewKey p => some p
  | _ => none

/-- The opcode of a packet command (Table CMDQ-4 and the opcode tables of the classes). -/
def opcodeOf : Instr → Opcode
  | .loadProfile _ _ => ⟨0x1, 0x1⟩
  | .selectProfile _ _ => ⟨0x1, 0x2⟩
  | .warmReset _ => ⟨0x1, 0x3⟩
  | .fnStop _ => ⟨0x1, 0x10⟩
  | .fnStart _ _ => ⟨0x1, 0x11⟩
  | .statusRead _ => ⟨0x1, 0x20⟩
  | .logRead _ => ⟨0x1, 0x21⟩
  | .nop _ => ⟨0x0, 0x0⟩
  | .memWrite _ => ⟨0x2, 0x1⟩
  | .memRead _ _ => ⟨0x2, 0x2⟩
  | .memFill _ => ⟨0x2, 0x3⟩
  | .objCreate _ => ⟨0x2, 0x10⟩
  | .objWrite _ => ⟨0x2, 0x11⟩
  | .objFree _ => ⟨0x2, 0x12⟩
  | .syncAdd _ => ⟨0x3, 0x1⟩
  | .syncSet _ => ⟨0x3, 0x2⟩
  | .syncRead _ => ⟨0x3, 0x3⟩
  | .syncWait _ => ⟨0x3, 0x4⟩
  | .execLaunch _ => ⟨0x4, 0x1⟩
  | .execTeardown _ => ⟨0x4, 0x2⟩
  | .execQuery _ => ⟨0x4, 0x3⟩
  | .kvCreate _ => ⟨0x5, 0x1⟩
  | .kvAttach _ => ⟨0x5, 0x2⟩
  | .kvStep _ => ⟨0x5, 0x3⟩
  | .kvCommit _ => ⟨0x5, 0x4⟩
  | .kvFree _ => ⟨0x5, 0x5⟩
  | .kvQuery _ => ⟨0x5, 0x6⟩
  | .visRun _ => ⟨0x7, 0x1⟩
  | .glkBarrier _ => ⟨0xa, 0x1⟩
  | .glkImage _ => ⟨0xa, 0x2⟩
  | .glkDigestRead _ => ⟨0xa, 0x3⟩
  | .glkFenceClear _ => ⟨0xa, 0x4⟩
  | .camExpo _ => ⟨0x6, 0x1⟩
  | .ctxCommit _ _ => ⟨0x6, 0x2⟩
  | .decCreate _ => ⟨0x6, 0x10⟩
  | .decDecode _ _ => ⟨0x6, 0x11⟩
  | .decFlush _ _ => ⟨0x6, 0x12⟩
  | .decDestroy _ => ⟨0x6, 0x13⟩
  | .encCreate _ _ => ⟨0x6, 0x20⟩
  | .encFrame _ _ _ => ⟨0x6, 0x21⟩
  | .encDestroy _ => ⟨0x6, 0x22⟩
  | .jpegDec _ _ => ⟨0x6, 0x30⟩
  | .jpegEnc _ _ => ⟨0x6, 0x31⟩
  | .motSetpoint _ => ⟨0x8, 0x1⟩
  | .motFlush _ => ⟨0x8, 0x2⟩
  | .motQuery _ => ⟨0x8, 0x3⟩
  | .chrRead _ => ⟨0x9, 0x20⟩
  | .applyPending _ => ⟨0x9, 0x21⟩
  | .chrStep _ => ⟨0x9, 0x21⟩
  | .chrSet _ => ⟨0x9, 0x21⟩
  | .ethTx _ => ⟨0x9, 0x10⟩
  | .canTx _ => ⟨0x9, 0x1⟩
  | .canRx _ => ⟨0x9, 0x2⟩
  | .safeEnter _ => ⟨0xb, 0x1⟩
  | .secAdvance _ => ⟨0xb, 0x10⟩
  | .secRenewKey _ => ⟨0xb, 0x11⟩
  | _ => ⟨0, 0⟩

/-- The register write a command carries, for the commands that are one. -/
def writeOf : Instr → Option RegWrite
  | .fnStop (.fnctl w) => some w
  | .fnStart (.fnctl w) _ => some w
  | .clkSrcselReq w => some w
  | .clkNetrefWrite w => some w
  | .clkGateWrite _ w => some w
  | .sensclkEnable _ w => some w
  | .pwrAvsInvalidate w => some w
  | .cmdqDb _ w => some w
  | .queueEnable _ w => some w
  | .queueDisable _ w => some w
  | .cplHeadWrite _ w => some w
  | .syncAddWrite _ w => some w
  | .watchArm _ w => some w
  | .syncRangeWrite _ w => some w
  | .escRepairSwap w => some w
  | .fwlRegionWrite _ _ _ w => some w
  | .dmaGo _ w => some w
  | .reweaveStart w => some w
  | .reweaveAbort (.firmware w) => some w
  | .clearEccBlock w => some w
  | .pin w => some w
  | .unpin w => some w
  | .admaPush w => some w
  | .admaLayoutWrite _ w => some w
  | .camExpoCommit _ w => some w
  | .spwPush _ w => some w
  | .returnAngle _ w => some w
  | .axctlFlush _ w => some w
  | .arm _ w => some w
  | .trigger _ w => some w
  | .traceStop _ w => some w
  | .ethRdb _ _ w => some w
  | .gclChange _ w => some w
  | .canTxreq _ w => some w
  | .recover _ w => some w
  | .canRxfack _ w => some w
  | .wdStart _ (.register w) => some w
  | .wdKick _ (.register w) => some w
  | .challenge w => some w
  | .respond w => some w
  | .lock w => some w
  | .secOtpprog w => some w
  | .registerWrite _ w => some w
  | _ => none

end Sys2Proof.Machine
end

