-- ==== Sys2Proof/WellFormed.lean ====
section
/-! DEFINITION. Well-formed commands: a packet whose fields fit the header of Table CMDQ-1, and a register write whose value and initiator
fit the bus (R119), and a Matrix Engine instruction whose 128 bits hold its row's OP (R155). A command that is not well formed names no
packet, no write and no instruction of the hardware. -/

namespace Sys2Proof

/-- Table CMDQ-1, R78: the fields of a packet fit their bits, and its payload is its PLEN units of 32 bytes. -/
def Packet.wf (p : Packet) : Bool :=
  decide (p.queue < 2 ^ 13) && decide (p.seq < 2 ^ 32) && decide (p.partition < 2 ^ 6) && decide (p.destDev < 2 ^ 20) &&
    decide (p.flags < 2 ^ 8) && decide (p.target < 2 ^ 64) && decide (p.sigCtr < 2 ^ 16) && decide (p.sigInc < 2 ^ 6) &&
    decide (p.waitCtr < 2 ^ 16) && decide (p.waitVal < 2 ^ 16) && decide (p.version < 2 ^ 8) && decide (p.plen ≤ 2046) &&
    decide (p.payload.length = 32 * p.plen) && decide (p.hcrc < 2 ^ 16) && decide (p.trailer < 2 ^ 32)

/-- R119: a register write's value is at most 64 bits wide, and an initiator ID has 10 bits. -/
def RegWrite.wf (w : RegWrite) : Bool := decide (w.value < 2 ^ 64) && decide (w.initiator < 2 ^ 10)

/-- Table ME-1: the engine's instruction of a command, with its row's OP. -/
def meStepOf : Instr → Option (MeStep × Nat)
  | .meNop m => some (m, 0x00)
  | .ldt m => some (m, 0x01)
  | .str m => some (m, 0x02)
  | .dcf m => some (m, 0x03)
  | .drn m => some (m, 0x04)
  | .acl m => some (m, 0x05)
  | .bar m => some (m, 0x06)
  | .endStream m => some (m, 0x3F)
  | _ => none

/-- Table ME-1: the OPs that the table lists. -/
def meListed (op : Nat) : Bool := decide (op ≤ 0x06) || op == 0x3F

/-- R155: an instruction of 128 bits in one of 48 slots whose OP is its row's; ME_NOP also carries the words whose OP no row lists
(see log entry 42, DEDUCED). -/
def MeStep.wf (m : MeStep) (op : Nat) : Bool :=
  decide (m.slot < 48) && decide (m.word < 2 ^ 128) &&
    (Machine.bitsOf m.word 31 26 == op || (op == 0 && !meListed (Machine.bitsOf m.word 31 26)))

/-- A well-formed command. -/
def Instr.wf (i : Instr) : Bool :=
  (Machine.packetOf i).all Packet.wf && (Machine.writeOf i).all RegWrite.wf && (meStepOf i).all (fun e => e.1.wf e.2)

end Sys2Proof
end

