-- ==== Sys2Proof/Decode.lean ====
section
/-! DEFINITION. The words of commands. No row of spec/opcode_table.json gives bits, so no word spells a command there. The one encoding
that the spec gives is that of a command packet's bytes (R78, R79), which this file reads. -/

namespace Sys2Proof

/-- The command that a word spells by the table's bits: the table gives no row any bits (see log entry 6, DESIGN CHOICE). -/
def decodeTableWord (_nbits _w : Nat) : Option Instr := none

open Machine in
/-- R78, R79: a packet read from its bytes in a ring: the header of Table CMDQ-1, PLEN units of payload, the trailer and 28 bytes of zero;
none where the bytes are not exactly a packet's (see log entry 6, DESIGN CHOICE). -/
def decodePacket (bs : List Byte) : Option (Opcode × Packet) :=
  let plen := leAt bs 8 4 / 2 ^ 8 % 2 ^ 11
  if bs.length = 64 + 32 * plen ∧ 32 * plen ≤ 65472 ∧ allZero (bs.drop (36 + 32 * plen)) = true then
    some (⟨leAt bs 0 4 / 2 ^ 8 % 2 ^ 8, leAt bs 0 4 / 2 ^ 16⟩,
      { version := leAt bs 0 4 % 2 ^ 8
        partition := leAt bs 4 4 / 2 ^ 26
        sigInc := leAt bs 4 4 / 2 ^ 20 % 2 ^ 6
        destDev := leAt bs 4 4 % 2 ^ 20
        queue := leAt bs 8 4 / 2 ^ 19
        plen := plen
        flags := leAt bs 8 4 % 2 ^ 8
        seq := leAt bs 0x0C 4
        target := leAt bs 0x10 8
        sigCtr := leAt bs 0x18 4 / 2 ^ 16
        waitCtr := leAt bs 0x18 4 % 2 ^ 16
        hcrc := leAt bs 0x1C 4 / 2 ^ 16
        waitVal := leAt bs 0x1C 4 % 2 ^ 16
        payload := bytesAt bs 32 (32 * plen)
        trailer := leAt bs (32 + 32 * plen) 4 })
  else none

end Sys2Proof
end

