-- ==== Sys2Proof/Machine/Digest.lean ====
section
/-! DEFINITION. The configuration digest (file 10: R321, R322; Table GLK-6) and SYS_GEN. -/

namespace Sys2Proof.Machine

/-- R450: SHA-384 of a public key equals a hash of OTP, whose bytes stand in the digest's order (see log entry 32, DEDUCED). -/
def keyHashOk (key : List Byte) (h : Option Nat) : Bool := h == some (leNat (sha384 key))

/-- Table SYS-1: where a slot lies in flash. -/
def slotBase (n : Nat) : Nat := 0x400000 + 0xC00000 * n

/-- Table MEM-9: where the staging buffer lies in SMEM. -/
def stagingBase : Nat := 0x400000

/-- Bytes of the running profile's image: in SMEM while RAM_PROFILE is set, else in its slot. -/
def State.runningImage (s : State) (off n : Nat) : List Byte :=
  if s.flag F.SYS_DEVSTATE_RAM_PROFILE then s.sysBytes (stagingBase + off) n
  else s.flashBytes (slotBase (s.fld F.SYS_DEVSTATE_ACTIVE_SLOT) + off) n

/-- R321: a record of the serialisation. -/
def digestRecord (type : Nat) (value : List Byte) : List Byte := toLe 2 type ++ toLe 4 value.length ++ value

/-- Table GLK-6: an in-service change. -/
def changeEntry (e : Nat × Nat × Nat × Nat) : List Byte :=
  toLe 1 e.1 ++ toLe 1 e.2.1 ++ toLe 2 0 ++ toLe 8 e.2.2.1 ++ toLe 4 e.2.2.2

/-- Table GLK-6: the firmware set's version and that of each function. -/
def State.firmwareRecord (s : State) : List Byte :=
  s.runningImage 0x1C 4 ++ (List.range 17).flatMap (fun f => toLe 4 (sparseGet (fun _ => 0) s.dev.firmware f))

/-- Table GLK-6: a registered program image. -/
def imageEntry (e : Nat × Nat) : List Byte := toLe 1 e.1 ++ toLe 7 0 ++ toLe 16 e.2

/-- R321: the records of Table GLK-6 in order. -/
def State.canonical (s : State) : List Byte :=
  digestRecord 1 (s.runningImage 0 (leNat (s.runningImage 0x10 4))) ++ digestRecord 2 (s.dev.changes.flatMap changeEntry) ++
    digestRecord 3 s.firmwareRecord ++ digestRecord 4 (toLe 8 (s.reg .ESC_DISABLED)) ++
    digestRecord 5 (s.glk.images.flatMap imageEntry)

/-- R321: the digest; zero while no profile runs. -/
def State.digest (s : State) : List Byte := if s.dev.settings.isSome then sha384 s.canonical else List.replicate 48 0

/-- R322: the digest is recomputed, and its tag shown (see log entry 40, DEDUCED). -/
def State.showDigest (s : State) : State := s.setReg .SYS_DIGEST_TAG (leNat (s.digest.take 8))

/-- R322: a change to a record of Table GLK-6 (see log entry 40, DEDUCED). -/
def State.bumpGen (s : State) : State := (s.setReg .SYS_GEN ((s.reg .SYS_GEN + 1) % 2 ^ 32)).showDigest

end Sys2Proof.Machine
end

