-- ==== Sys2Proof/Machine/Numbers.lean ====
section
/-! DEFINITION. Floating-point arithmetic over bit patterns: every operation is computed exactly on integers and rounded once to
nearest, ties to even (R371, R378; files 05, 06 and 08 use the same functions). -/

namespace Sys2Proof.Machine

/-- A binary format: exponent bits, mantissa bits and bias. -/
structure FpFmt where
  eb : Nat
  mb : Nat
  bias : Nat
  deriving DecidableEq, Repr

/-- IEEE 754 binary32. -/
def f32 : FpFmt := ⟨8, 23, 127⟩
/-- IEEE 754 binary64. -/
def f64 : FpFmt := ⟨11, 52, 1023⟩
/-- BF16. -/
def bf16 : FpFmt := ⟨8, 7, 127⟩
/-- IEEE 754 binary16. -/
def f16 : FpFmt := ⟨5, 10, 15⟩

/-- A number: NaN, an infinity, or sign, magnitude and exponent of a dyadic fraction. -/
inductive Num where
  | nan
  | inf (neg : Bool)
  | fin (neg : Bool) (m : Nat) (e : Int)
  deriving DecidableEq, Repr

/-- The pattern of an infinity without its sign. -/
def FpFmt.infPat (f : FpFmt) : Nat := (2 ^ f.eb - 1) * 2 ^ f.mb

/-- The quiet NaN pattern. -/
def FpFmt.nanPat (f : FpFmt) : Nat := f.infPat + 2 ^ (f.mb - 1)

/-- The sign bit's weight. -/
def FpFmt.signPat (f : FpFmt) : Nat := 2 ^ (f.eb + f.mb)

/-- The number a pattern stands for. -/
def FpFmt.decode (f : FpFmt) (v : Nat) : Num :=
  let neg := v.testBit (f.eb + f.mb)
  let e := v / 2 ^ f.mb % 2 ^ f.eb
  let m := v % 2 ^ f.mb
  if e = 2 ^ f.eb - 1 then (if m = 0 then .inf neg else .nan)
  else if e = 0 then .fin neg m (1 - (f.bias : Int) - f.mb)
  else .fin neg (m + 2 ^ f.mb) ((e : Int) - f.bias - f.mb)

/-- A natural number divided by 2^k, rounded to nearest, ties to even. -/
def shiftRne (m k : Nat) : Nat :=
  let q := m / 2 ^ k
  let r := m % 2 ^ k
  if k = 0 then m
  else if r < 2 ^ (k - 1) then q else if 2 ^ (k - 1) < r then q + 1 else if q % 2 = 0 then q else q + 1

/-- The pattern of magnitude m × 2^e with a sign, rounded to nearest even; overflow gives an infinity. -/
def FpFmt.round (f : FpFmt) (neg : Bool) (m : Nat) (e : Int) : Nat :=
  let s := if neg then f.signPat else 0
  if m = 0 then s
  else
    let top : Int := (Nat.log2 m : Int) + e
    let emin : Int := 1 - (f.bias : Int)
    let q : Int := (if top < emin then emin else top) - f.mb
    let sh : Int := q - e
    let r := if sh ≤ 0 then m * 2 ^ (-sh).toNat else shiftRne m sh.toNat
    let be := ((if top < emin then emin else top) + f.bias - 1).toNat
    let p := be * 2 ^ f.mb + r
    if f.infPat ≤ p then s + f.infPat else s + p

/-- The pattern of a number. -/
def FpFmt.encode (f : FpFmt) : Num → Nat
  | .nan => f.nanPat
  | .inf neg => (if neg then f.signPat else 0) + f.infPat
  | .fin neg m e => f.round neg m e

/-- A signed dyadic sum's magnitude at exponent e. -/
def alignTo (neg : Bool) (m : Nat) (e lo : Int) : Int :=
  let v : Int := (m * 2 ^ (e - lo).toNat : Nat)
  if neg then -v else v

/-- The exact sum of two numbers. A zero sum of unlike signs is +0. -/
def Num.add : Num → Num → Num
  | .nan, _ => .nan
  | _, .nan => .nan
  | .inf a, .inf b => if a = b then .inf a else .nan
  | .inf a, _ => .inf a
  | _, .inf b => .inf b
  | .fin na ma ea, .fin nb mb eb =>
    let e := min ea eb
    let v := alignTo na ma ea e + alignTo nb mb eb e
    if v = 0 then .fin (na && nb) 0 e else .fin (decide (v < 0)) v.natAbs e

/-- The number with the other sign. -/
def Num.neg : Num → Num
  | .nan => .nan
  | .inf a => .inf (!a)
  | .fin a m e => .fin (!a) m e

/-- The exact product of two numbers. -/
def Num.mul : Num → Num → Num
  | .nan, _ => .nan
  | _, .nan => .nan
  | .inf a, .inf b => .inf (a != b)
  | .inf a, .fin b m _ => if m = 0 then .nan else .inf (a != b)
  | .fin a m _, .inf b => if m = 0 then .nan else .inf (a != b)
  | .fin a m e, .fin b n g => .fin (a != b) (m * n) (e + g)

/-- The quotient of two numbers to at least p bits, with a sticky last bit. -/
def Num.div (p : Nat) : Num → Num → Num
  | .nan, _ => .nan
  | _, .nan => .nan
  | .inf _, .inf _ => .nan
  | .inf a, .fin b _ _ => .inf (a != b)
  | .fin a _ _, .inf b => .fin (a != b) 0 0
  | .fin a m e, .fin b n g =>
    if n = 0 then (if m = 0 then .nan else .inf (a != b))
    else
      let k := p + Nat.log2 n + 2
      let q := m * 2 ^ k / n
      let st := if m * 2 ^ k % n = 0 then 0 else 1
      .fin (a != b) (2 * q + st) (e - g - k - 1)

/-- The integer square root, decided bit by bit from bit k - 1 down on the root r. -/
def isqrtFrom : Nat → Nat → Nat → Nat
  | 0, _, r => r
  | k + 1, n, r => isqrtFrom k n (if (r + 2 ^ k) * (r + 2 ^ k) ≤ n then r + 2 ^ k else r)

/-- The integer square root. -/
def isqrt (n : Nat) : Nat := isqrtFrom (Nat.log2 n / 2 + 1) n 0

/-- The integer cube root, bit by bit. -/
def icbrtFrom : Nat → Nat → Nat → Nat
  | 0, _, r => r
  | k + 1, n, r => icbrtFrom k n (if (r + 2 ^ k) * (r + 2 ^ k) * (r + 2 ^ k) ≤ n then r + 2 ^ k else r)

/-- The integer cube root. -/
def icbrt (n : Nat) : Nat := icbrtFrom (Nat.log2 n / 3 + 1) n 0

/-- The square root to at least p bits, with a sticky last bit; of a negative number NaN. -/
def Num.sqrt (p : Nat) : Num → Num
  | .nan => .nan
  | .inf neg => if neg then .nan else .inf false
  | .fin neg m e =>
    if m = 0 then .fin neg 0 e
    else if neg then .nan
    else
      let k := 2 * p + (if (e - 2 * p) % 2 = 0 then 0 else 1)
      let n := m * 2 ^ k
      let r := isqrt n
      .fin false (2 * r + (if r * r = n then 0 else 1)) ((e - k) / 2 - 1)

/-- The cube root to at least p bits, with a sticky last bit. -/
def Num.cbrt (p : Nat) : Num → Num
  | .nan => .nan
  | .inf neg => .inf neg
  | .fin neg m e =>
    if m = 0 then .fin neg 0 e
    else
      let k := 3 * p + ((e - 3 * p) % 3).toNat
      let n := m * 2 ^ k
      let r := icbrt n
      .fin neg (2 * r + (if r * r * r = n then 0 else 1)) ((e - k) / 3 - 1)

/-- Exact comparison: a < b. NaN compares false. -/
def Num.lt (a b : Num) : Bool :=
  match a, b with
  | .nan, _ => false
  | _, .nan => false
  | .inf x, .inf y => x && !y
  | .inf x, .fin _ _ _ => x
  | .fin _ _ _, .inf y => !y
  | .fin na ma ea, .fin nb mb eb =>
    let e := min ea eb
    decide (alignTo na ma ea e < alignTo nb mb eb e)

/-- Exact equality of numbers; zeros of both signs are equal. -/
def Num.eq (a b : Num) : Bool :=
  match a, b with
  | .nan, _ => false
  | _, .nan => false
  | .inf x, .inf y => x == y
  | .fin na ma ea, .fin nb mb eb =>
    let e := min ea eb
    alignTo na ma ea e == alignTo nb mb eb e
  | _, _ => false

/-! Operations on patterns, one rounding each. -/

def FpFmt.add (f : FpFmt) (a b : Nat) : Nat := f.encode ((f.decode a).add (f.decode b))
def FpFmt.neg (f : FpFmt) (a : Nat) : Nat := f.encode (f.decode a).neg
def FpFmt.sub (f : FpFmt) (a b : Nat) : Nat := f.encode ((f.decode a).add (f.decode b).neg)
def FpFmt.mul (f : FpFmt) (a b : Nat) : Nat := f.encode ((f.decode a).mul (f.decode b))
def FpFmt.fma (f : FpFmt) (a b c : Nat) : Nat := f.encode (((f.decode a).mul (f.decode b)).add (f.decode c))
def FpFmt.div (f : FpFmt) (a b : Nat) : Nat := f.encode ((f.decode a).div (f.mb + 4) (f.decode b))
def FpFmt.sqrt (f : FpFmt) (a : Nat) : Nat := f.encode ((f.decode a).sqrt (f.mb + 4))
def FpFmt.cbrt (f : FpFmt) (a : Nat) : Nat := f.encode ((f.decode a).cbrt (f.mb + 4))
def FpFmt.lt (f : FpFmt) (a b : Nat) : Bool := (f.decode a).lt (f.decode b)
def FpFmt.le (f : FpFmt) (a b : Nat) : Bool := (f.decode a).lt (f.decode b) || (f.decode a).eq (f.decode b)
def FpFmt.abs (f : FpFmt) (a : Nat) : Nat := a % f.signPat
def FpFmt.max (f : FpFmt) (a b : Nat) : Nat := if f.lt a b then b else a
def FpFmt.min (f : FpFmt) (a b : Nat) : Nat := if f.lt b a then b else a

/-- A value held between two bounds. -/
def FpFmt.clamp (f : FpFmt) (x lo hi : Nat) : Nat := if f.lt x lo then lo else if f.lt hi x then hi else x

/-- The pattern of an integer times a power of two. -/
def FpFmt.ofInt (f : FpFmt) (x : Int) (e : Int := 0) : Nat := f.round (decide (x < 0)) x.natAbs e

/-- The pattern of a ratio of natural numbers. -/
def FpFmt.ofRatio (f : FpFmt) (n d : Nat) : Nat :=
  f.encode ((Num.fin false n 0).div (f.mb + 4) (Num.fin false d 0))

/-- A number times 2^k as an integer, rounded towards zero; an infinity as a number beyond every register. -/
def Num.truncAt (k : Int) : Num → Int
  | .nan => 0
  | .inf neg => if neg then -(2 ^ 1100 : Nat) else (2 ^ 1100 : Nat)
  | .fin neg m e =>
    let v : Nat := if 0 ≤ e + k then m * 2 ^ (e + k).toNat else m / 2 ^ (-(e + k)).toNat
    if neg then -(v : Int) else v

/-- A number times 2^k as an integer, rounded to nearest even. -/
def Num.roundAt (k : Int) : Num → Int
  | .nan => 0
  | .inf neg => if neg then -(2 ^ 1100 : Nat) else (2 ^ 1100 : Nat)
  | .fin neg m e =>
    let v : Nat := if 0 ≤ e + k then m * 2 ^ (e + k).toNat else shiftRne m (-(e + k)).toNat
    if neg then -(v : Int) else v

/-! Sine and cosine of a binary angle, correctly rounded (R372). -/

/-- π/2 in units of 2^-160. -/
def halfPi160 : Nat := 0x1921fb54442d18469898cc51701b839a252049c11

/-- The alternating Taylor tail from term n on: t is the term, x2 the squared argument, in units of 2^-160. -/
def taylorFrom : Nat → Nat → Nat → Nat → Int
  | 0, _, _, _ => 0
  | k + 1, t, x2, n => (t : Int) - taylorFrom k (t * x2 / 2 ^ 160 / ((n + 1) * (n + 2))) x2 (n + 2)

/-- Sine of a quarter-turn fraction x / 2^30, in units of 2^-160. -/
def sinQuarter (x : Nat) : Int :=
  let a := halfPi160 * x / 2 ^ 30
  taylorFrom 40 a (a * a / 2 ^ 160) 1

/-- Cosine of a quarter-turn fraction x / 2^30, in units of 2^-160. -/
def cosQuarter (x : Nat) : Int :=
  let a := halfPi160 * x / 2 ^ 30
  taylorFrom 40 (2 ^ 160) (a * a / 2 ^ 160) 0

/-- Sine of an angle in units of 2^-32 turn, in units of 2^-160. -/
def sinTurn (a : Nat) : Int :=
  let x := a % 2 ^ 30
  match a / 2 ^ 30 % 4 with
  | 0 => sinQuarter x
  | 1 => cosQuarter x
  | 2 => -sinQuarter x
  | _ => -cosQuarter x

/-- Sine correctly rounded to binary32. -/
def sin32 (a : Nat) : Nat := f32.ofInt (sinTurn a) (-160)

/-- Cosine correctly rounded to binary32. -/
def cos32 (a : Nat) : Nat := f32.ofInt (sinTurn (a + 2 ^ 30)) (-160)

end Sys2Proof.Machine
end

