-- ==== Sys2Proof/Machine/Formats.lean ====
section
/-! DEFINITION. The element formats of the Matrix Engines (R161 to R163) and the conversion of an exact result into an output
format (R171, R172). -/

namespace Sys2Proof.Machine

/-- R162: the value of a finite code of 1 + eb + mb bits. -/
def smallFp (eb mb : Nat) (bias : Int) (c : Nat) : Num :=
  let neg := c.testBit (eb + mb)
  let e := c / 2 ^ mb % 2 ^ eb
  let m := c % 2 ^ mb
  if e = 0 then .fin neg m (1 - bias - mb) else .fin neg (m + 2 ^ mb) ((e : Int) - bias - mb)

/-- FP8 E4M3: NaN 0x7F and 0xFF, no infinity. -/
def e4m3 (c : Nat) : Num := if c % 128 = 127 then .nan else smallFp 4 3 7 (c % 256)

/-- FP8 E5M2, with infinities and NaNs. -/
def e5m2 : FpFmt := ⟨5, 2, 15⟩

/-- A two's-complement code of w bits as a number. -/
def intNum (w c : Nat) (e : Int := 0) : Num :=
  let x := signedOf w c
  .fin (decide (x < 0)) x.natAbs e

/-- Table ME-7: the value of an activation code. -/
def actValue (afmt c : Nat) : Num :=
  match afmt with
  | 0 => intNum 8 c
  | 1 => .fin false (c % 256) 0
  | 2 => e4m3 c
  | 3 => e5m2.decode (c % 256)
  | _ => bf16.decode (c % 65536)

/-- Bytes per activation element. -/
def actSize (afmt : Nat) : Nat := if afmt = 4 then 2 else 1

/-- The activation format is an integer format. -/
def actInt (afmt : Nat) : Bool := afmt ≤ 1

/-- Table ME-6: bits per weight element. -/
def wBits (wfmt : Nat) : Nat :=
  match wfmt with
  | 1 => 4
  | 2 => 2
  | 5 => 4
  | 6 => 6
  | 7 => 6
  | 9 => 16
  | _ => 8

/-- Table ME-6: the value of a weight code. -/
def wValue (wfmt c : Nat) : Num :=
  match wfmt with
  | 0 => intNum 8 c
  | 1 => intNum 4 c
  | 2 => intNum 2 c
  | 3 => e4m3 c
  | 4 => e5m2.decode (c % 256)
  | 5 => smallFp 2 1 1 (c % 16)
  | 6 => smallFp 3 2 3 (c % 64)
  | 7 => smallFp 2 3 1 (c % 64)
  | 8 => intNum 8 c (-6)
  | _ => bf16.decode (c % 65536)

/-- The integer weight formats. -/
def wInt (wfmt : Nat) : Bool := wfmt ≤ 2

/-- The MX formats. -/
def wMx (wfmt : Nat) : Bool := 5 ≤ wfmt && wfmt ≤ 8

/-- Bytes of a vector of 128 weights. -/
def wVecBytes (wfmt : Nat) : Nat := 16 * wBits wfmt

/-- Table ME-6: scale bytes of a vector. -/
def wScaleBytes (wfmt gmode : Nat) : Nat :=
  if wMx wfmt then 4 else match gmode with
    | 1 => 4
    | 2 => 2
    | 3 => 1
    | _ => 0

/-- Positions that share a scale byte. -/
def wGroup (wfmt gmode : Nat) : Nat := if wMx wfmt then 32 else 16 * 2 ^ gmode

/-- The code of element k of a packed vector (R161). -/
def wCode (wfmt : Nat) (bs : List Byte) (k : Nat) : Nat := (leNat bs / 2 ^ (wBits wfmt * k)) % 2 ^ wBits wfmt

/-- Table ME-8: the pairings. -/
def pairs (wfmt afmt : Nat) : Bool :=
  if wInt wfmt then afmt ≤ 1 else if wfmt = 9 then afmt == 4 else afmt == 2 || afmt == 3

/-! Output formats: 0 INT8, 1 UINT8, 2 E4M3, 3 E5M2, 4 BF16, 5 FP32, 6 INT32. -/

/-- Bytes of an output element. -/
def outSize (ofmt : Nat) : Nat :=
  match ofmt with
  | 4 => 2
  | 5 => 4
  | 6 => 4
  | _ => 1

/-- What a conversion to an output format reports. -/
structure Converted where
  code : Nat
  sat : Bool := false
  nan : Bool := false
  inf : Bool := false
  deriving DecidableEq, Repr

/-- An integer result with the output zero point added, saturated to lo and hi. -/
def convInt (w : Nat) (lo hi ozp : Int) : Num → Converted
  | .nan => { code := ofSigned w (clampInt lo hi ozp), nan := true }
  | .inf neg => { code := ofSigned w (if neg then lo else hi), sat := true, inf := true }
  | x =>
    let v := x.roundAt 0 + ozp
    { code := ofSigned w (clampInt lo hi v), sat := decide (v < lo ∨ hi < v) }

/-- A result in an IEEE format: an infinity is written as one; a finite value beyond the range takes the largest finite value; a zero
is +0. -/
def convIeee (f : FpFmt) : Num → Converted
  | .nan => { code := f.nanPat, nan := true }
  | .inf neg => { code := (if neg then f.signPat else 0) + f.infPat, inf := true }
  | .fin neg m e =>
    let p := f.round false m e
    let sgn := if neg && p != 0 then f.signPat else 0
    if f.infPat ≤ p then { code := sgn + f.infPat - 1, sat := true } else { code := sgn + p }

/-- A result in E4M3, which has no infinity: NaN is 0x7F. -/
def convE4m3 : Num → Converted
  | .nan => { code := 0x7F, nan := true }
  | .inf neg => { code := (if neg then 0x80 else 0) + 0x7E, sat := true, inf := true }
  | .fin neg m e =>
    let p := (⟨5, 3, 7⟩ : FpFmt).round false m e
    let sgn := if neg && p != 0 then 0x80 else 0
    if 0x7E < p then { code := sgn + 0x7E, sat := true } else { code := sgn + p }

/-- R171, R172: stages D5's rounding and D6 for an output format and zero point (see log entry 42, DEDUCED). -/
def convOut (ofmt ozp : Nat) (x : Num) : Converted :=
  match ofmt with
  | 0 => convInt 8 (-128) 127 (signedOf 8 ozp) x
  | 1 => convInt 8 0 255 (ozp % 256) x
  | 2 => convE4m3 x
  | 3 => match x with
    | .nan => { code := 0x7E, nan := true }
    | y => convIeee e5m2 y
  | 4 => convIeee bf16 x
  | 5 => convIeee f32 x
  | _ => convInt 32 (-2 ^ 31) (2 ^ 31 - 1) 0 x

/-- The largest-magnitude output of a sign (see log entry 42, DEDUCED). -/
def largest (ofmt : Nat) (neg : Bool) : Nat :=
  match ofmt with
  | 0 => if neg then 0x80 else 0x7F
  | 1 => if neg then 0 else 0xFF
  | 2 => (if neg then 0x80 else 0) + 0x7E
  | 3 => (if neg then 0x80 else 0) + 0x7B
  | 4 => (if neg then 0x8000 else 0) + 0x7F7F
  | 5 => (if neg then 0x80000000 else 0) + 0x7F7FFFFF
  | _ => if neg then 0x80000000 else 0x7FFFFFFF

/-- A number times 2^e. -/
def Num.scale (e : Int) : Num → Num
  | .fin neg m g => .fin neg m (g + e)
  | x => x

/-- A signed integer times 2^e as a number. -/
def Num.ofInt (x e : Int) : Num := .fin (decide (x < 0)) x.natAbs e

end Sys2Proof.Machine
end

