-- ==== Sys2Proof/Machine/Routes.lean ====
section
/-! DEFINITION. Grenlink topologies, routes and the messages that wait for them (file 10: R292 to R296, R305). -/

namespace Sys2Proof.Machine

/-! Topologies (R292, Table GLK-1). -/

/-- Members of the cluster. -/
def State.clusterSize (s : State) : Nat := s.fld F.GLK_CFG_N_M1 + 1

/-- The own member index. -/
def State.self (s : State) : Nat := s.fld F.GLK_ID_MEMBER

/-- Table GLK-1: the neighbour of a member at a port; none where the topology leaves the port unused. -/
def State.neighbour (s : State) (p n : Nat) : Option Nat :=
  let size := s.clusterSize
  let x := s.fld F.GLK_CFG_X
  let y := s.fld F.GLK_CFG_Y
  match s.fld F.GLK_CFG_TOPO, n with
  | 1, 0 => some ((p + 1) % size)
  | 1, 1 => some ((p + size - 1) % size)
  | 2, 0 => some (p / x * x + (p % x + 1) % x)
  | 2, 1 => some (p / x * x + (p % x + x - 1) % x)
  | 2, 2 => some ((p / x + 1) % y * x + p % x)
  | 2, 3 => some ((p / x + y - 1) % y * x + p % x)
  | _, _ => none

/-- The port at the far end of a port's link. -/
def farPort (n : Nat) : Nat := if n % 2 = 0 then n + 1 else n - 1

/-- A link: the member at whose positive port it lies, and the dimension. -/
def State.linkOf (s : State) (p n : Nat) : Nat × Nat :=
  if n % 2 = 0 then (p, n / 2) else ((s.neighbour p n).getD p, n / 2)

/-- An own port that carries traffic: trained, with the right neighbour, and not in FAULT or stopped. -/
def State.portUp (s : State) (n : Nat) : Bool :=
  s.fld F.GLK_PSTAT_WIDTH n != 0 && s.flag F.GLK_PSTAT_PEER_VALID n &&
    (s.fld F.GLK_PSTAT_STATE n == stStarting || usableCode (s.fld F.GLK_PSTAT_STATE n))

/-- A link of the cluster is up: an own one by its port, another unless it is known to be down (see log entry 38, DEDUCED). -/
def State.linkUp (s : State) (l : Nat × Nat) : Bool :=
  (List.range 4).all (fun n => (s.neighbour s.self n).isNone || s.linkOf s.self n != l || s.portUp n) && !s.glk.down.contains l

/-! Routes (R293). -/

/-- The links of a leg of k steps in a dimension, from coordinate a on, in the positive or negative direction; node c is the member at
coordinate c. -/
def legLinks (node : Nat → Nat) (size dim : Nat) (positive : Bool) : Nat → Nat → List (Nat × Nat)
  | 0, _ => []
  | k + 1, a =>
    if positive then (node a, dim) :: legLinks node size dim positive k ((a + 1) % size)
    else
      let b := (a + size - 1) % size
      (node b, dim) :: legLinks node size dim positive k b

/-- A leg from coordinate a to b: the shorter direction, the positive on a tie, or the other where a link of it is down. The answer
is the links and the direction. -/
def State.leg (s : State) (node : Nat → Nat) (size dim a b : Nat) : Option (List (Nat × Nat) × Bool) :=
  let up := (b + size - a) % size
  let down := (a + size - b) % size
  let pos := legLinks node size dim true up a
  let neg := legLinks node size dim false down a
  if up = 0 then some ([], true)
  else if up ≤ down then
    (if pos.all s.linkUp then some (pos, true) else if neg.all s.linkUp then some (neg, false) else none)
  else (if neg.all s.linkUp then some (neg, false) else if pos.all s.linkUp then some (pos, true) else none)

/-- R293: the route to a member: its links and the port it leaves by. -/
def State.route (s : State) (d : Nat) : Option (List (Nat × Nat) × Nat) :=
  let p := s.self
  let x := s.fld F.GLK_CFG_X
  match s.fld F.GLK_CFG_TOPO with
  | 1 => (s.leg (fun c => c) s.clusterSize 0 p d).map (fun l => (l.1, if l.2 then 0 else 1))
  | 2 =>
    match s.leg (fun c => p / x * x + c) x 0 (p % x) (d % x), s.leg (fun c => c * x + d % x) (s.fld F.GLK_CFG_Y) 1 (p / x) (d / x) with
    | some a, some b => some (a.1 ++ b.1, if a.1.isEmpty then (if b.2 then 2 else 3) else if a.2 then 0 else 1)
    | _, _ => none
  | _ => none

/-- R293, R299: a member that a route reaches, and that no two devices claim to be. -/
def State.reachable (s : State) (d : Nat) : Bool :=
  decide (d < s.clusterSize) && d != s.self && s.fnState fnGlk != stFault && s.fnState fnGlk != stOff &&
    (s.route d).isSome && s.glk.apart.all (fun e => e.1 != d)

/-! Messages. -/

/-- R294, R303, R305: messages to a member wait: its route changes, or the port they leave by naps or retrains. -/
def State.waitsFor (s : State) (d : Nat) : Bool :=
  s.glk.moving.contains d ||
    (match s.route d with
     | some (_, n) => s.glk.retrain.contains n || s.flag F.GLK_PSTAT_NAP n
     | none => true)

/-- R303: a message goes out on a port; the retry buffer keeps the port's last 512, a flit each (see log entry 112, DESIGN CHOICE). -/
def State.sendVia (s : State) (n : Nat) (o : Out) : State :=
  let k := sparseGet (fun _ => 0) s.glk.flits n
  let mine := s.glk.retry.filter (fun e => e.1 == n) ++ [(n, k, o)]
  { s.send o with glk := { s.glk with
    flits := sparseSet (fun _ => 0) s.glk.flits n (k + 1)
    retry := s.glk.retry.filter (fun e => e.1 != n) ++ mine.drop (mine.length - 512) } }

/-- The port that a message to a member leaves by. -/
def State.portTo (s : State) (d : Nat) : Nat := ((s.route d).map (·.2)).getD 0

/-- A message to a member. -/
def State.toMember (s : State) (d : Nat) (o : Out) : State :=
  if s.waitsFor d then { s with glk := { s.glk with held := s.glk.held ++ [(d, o)] } } else s.sendVia (s.portTo d) o

/-- R303, R305: traffic of a port waits while it retrains or naps. -/
def State.portWaits (s : State) (n : Nat) : Bool := s.glk.retrain.contains n || s.flag F.GLK_PSTAT_NAP n

/-- A message on a port that is up; it waits for one that naps or retrains. -/
def State.toPort (s : State) (n : Nat) (m : GlkMsg) : State :=
  if s.portUp n then
    if s.portWaits n then { s with glk := { s.glk with waiting := s.glk.waiting ++ [(n, m)] } } else s.sendVia n (.link n m)
  else s

/-- The messages that no longer wait go out, in order. -/
def State.flow (s : State) : State :=
  let go := s.glk.held.filter (fun e => !s.waitsFor e.1)
  let port := s.glk.waiting.filter (fun e => !s.portWaits e.1)
  let t := { s with glk := { s.glk with
    held := s.glk.held.filter (fun e => s.waitsFor e.1), waiting := s.glk.waiting.filter (fun e => s.portWaits e.1) } }
  go.foldl (fun t e => t.sendVia (t.portTo e.1) e.2) (port.foldl (fun t e => t.toPort e.1 e.2) t)

/-- A message on every port that is up but one. -/
def State.toPorts (s : State) (but : Option Nat) (m : GlkMsg) : State :=
  (List.range 4).foldl (fun t n => if but = some n then t else t.toPort n m) s

/-! Reachability (R293, R294, R302). -/

/-- R307: the age of GLK_TOFF, and LOCKED while it is below 20 ms and the route to the root is calibrated; the root is always locked. -/
def State.showClusterTime (s : State) : State :=
  if s.flag F.GLK_ROOTSTAT_IS_ROOT then ((s.setReg .GLK_TOFF 0).putFld F.GLK_TIMESTAT_AGE_US 0).putFld F.GLK_TIMESTAT_LOCKED 1
  else
    match s.glk.toffNs with
    | some n =>
      let age := s.dev.nowNs - n
      (s.putFld F.GLK_TIMESTAT_AGE_US (satNat 16 (age / 1000))).putFld F.GLK_TIMESTAT_LOCKED
        (b2n (decide (age < 20000000) && s.glk.routeCal && s.flag F.GLK_ROOTSTAT_ELECTED))
    | none => s.putFld F.GLK_TIMESTAT_LOCKED 0

/-- R302, R312: the barriers that the root of before has not confirmed are not released any more. -/
def Glk.voidBars (g : Glk) : Glk := { g with void := (g.bars.filter (fun b => !b.2)).map (·.1.id) }

/-- R302: no root is adopted, a new election starts, and the offset of the old root's time is gone (R307). -/
def State.loseRoot (s : State) : State :=
  { ((s.putFld F.GLK_ROOTSTAT_IS_ROOT 0).putFld F.GLK_ROOTSTAT_ELECTED 0).setReg .GLK_ROOT_UID 0 with
    glk := { s.glk.voidBars with best := none, bestFor := 0, toffNs := none, routeCal := false } }.putFld F.GLK_ROOTSTAT_ROOT_MEMBER 0 |>.putFld F.GLK_TIMESTAT_LOCKED 0

/-- GLK_PEERS after a change: members that no route reaches any more are logged and their messages dropped; losing the root starts an
election (see log entry 38, DEDUCED). -/
def State.showPeers (s : State) : State :=
  let before := s.reg .GLK_PEERS
  let now := ((List.range 64).filter s.reachable).foldl (fun m d => m + 2 ^ d) 0
  let lost := (List.range 64).filter (fun d => before.testBit d && !now.testBit d)
  let t := s.setReg .GLK_PEERS now
  let t := lost.foldl (fun t d => t.event 0x0C 0x000A d) t
  let t := { t with glk := { t.glk with
    held := t.glk.held.filter (fun e => !lost.contains e.1), moving := t.glk.moving.filter (fun d => !lost.contains d) } }
  if t.flag F.GLK_ROOTSTAT_ELECTED && !t.flag F.GLK_ROOTSTAT_IS_ROOT && lost.contains (t.fld F.GLK_ROOTSTAT_ROOT_MEMBER) then t.loseRoot
  else t

/-- R307: the links of the route to the root. -/
def State.rootRoute (s : State) : Option (List (Nat × Nat)) :=
  if s.flag F.GLK_ROOTSTAT_ELECTED && !s.flag F.GLK_ROOTSTAT_IS_ROOT then (s.route (s.fld F.GLK_ROOTSTAT_ROOT_MEMBER)).map (·.1) else none

/-- R294: a change of links: members that are reached by another route than before are held until their old messages are
acknowledged; another route to the root is to be calibrated (R307). -/
def State.linkChange (s : State) (f : State → State) : State :=
  let t := f s
  let changed := (List.range s.clusterSize).filter (fun d =>
    d != s.self && (s.reg .GLK_PEERS).testBit d && (t.route d).isSome && (s.route d).map (·.1) != (t.route d).map (·.1))
  let t : State := { t with glk := { t.glk with moving := t.glk.moving ++ changed.filter (fun d => !t.glk.moving.contains d) } }
  let t := if s.rootRoute = t.rootRoute then t else State.showClusterTime { t with glk := { t.glk with routeCal := false } }
  (if changed.isEmpty then t else t.setFlag F.GLK_TBREAK_REROUTE).showPeers

end Sys2Proof.Machine
end

