-- ==== Sys2Proof/Machine/Signals.lean ====
section
/-! DEFINITION. Sync counters: ownership (R106), waits (R108), signals and all they release (R107, R111, R270, R438). -/

namespace Sys2Proof.Machine

/-- R106: the partition may use the counter. -/
def State.ownsCtr (s : State) (p c : Nat) : Bool :=
  p == 0 || (List.range 64).any (fun k =>
    s.flag F.SYNC_RANGE_EN k && s.fld F.SYNC_RANGE_PARTITION k == p &&
      decide (s.fld F.SYNC_RANGE_BASE k ≤ c ∧ c < s.fld F.SYNC_RANGE_BASE k + s.fld F.SYNC_RANGE_COUNT k))

/-- R108: a full wait. -/
def State.fullMet (s : State) (c v : Nat) : Bool := decide (v ≤ s.reg .SYNC_CTR c)

/-- R108: a short wait. -/
def State.shortMet (s : State) (c v : Nat) : Bool :=
  decide ((s.reg .SYNC_CTR c % 65536 + 65536 - v % 65536) % 65536 < 32768)

/-! Kernel descriptor fields (Table ESC-2). -/

def Kernel.cls (k : Kernel) : Nat := leAt k.desc 0 1
def Kernel.logical (k : Kernel) : Nat := leAt k.desc 1 1
def Kernel.waitEn (k : Kernel) : Bool := (leAt k.desc 3 1).testBit 0
def Kernel.sigEn (k : Kernel) : Bool := (leAt k.desc 3 1).testBit 1
def Kernel.cycles (k : Kernel) : Nat := leAt k.desc 4 4
def Kernel.waitVal (k : Kernel) : Nat := leAt k.desc 8 8
def Kernel.waitCtr (k : Kernel) : Nat := leAt k.desc 0x10 2
def Kernel.sigCtr (k : Kernel) : Nat := leAt k.desc 0x12 2
def Kernel.sigInc (k : Kernel) : Nat := leAt k.desc 0x18 8
def Kernel.code (k : Kernel) : Nat := leAt k.desc 0x20 8

/-- A kernel that is ready and not dispatched. -/
def Kernel.isReady (k : Kernel) : Bool := k.ready.isSome && k.unit.isNone && !k.routed

/-! Virtual time (R272). -/

/-- R272: V values are compared by their signed difference modulo 2^64. -/
def vLess (a b : Nat) : Bool := decide (0 < (b + 2 ^ 64 - a) % 2 ^ 64 ∧ (b + 2 ^ 64 - a) % 2 ^ 64 < 2 ^ 63)

/-- R272: the least V among the partitions with ready or running kernels of a class. -/
def State.vMin (s : State) (c : Nat) : Option Nat :=
  (s.esc.kernels.filter (fun k => k.cls == c && k.ready.isSome)).foldl
    (fun m k =>
      let v := s.reg .ESC_VTIME k.partition c
      match m with
      | none => some v
      | some w => if vLess v w then some v else some w) none

/-- R272: V of a partition that gains a ready kernel of a class and had none. -/
def State.raiseV (s : State) (p c : Nat) : State :=
  if s.esc.kernels.any (fun k => k.partition == p && k.cls == c && k.isReady) then s
  else
    match s.vMin c with
    | some m => if vLess (s.reg .ESC_VTIME p c) m then s.setReg .ESC_VTIME m p c else s
    | none => s

/-! Pre-processing jobs and the overflow library (R260, R148). -/

/-- R260: bytes of the source's crop window. -/
def cropBytes (d : List Byte) : Nat :=
  let n := leAt d 0x64 2 * leAt d 0x66 2
  match leAt d 0x36 1 with
  | 8 => n * 3 / 2
  | 9 => n * 3
  | 10 => n * 3
  | _ => n * leAt d 0x34 2

/-- R260: EST of a PPE job's descriptor, in CLK_CORE cycles. -/
def ppeEst (d : List Byte) : Nat := max ((leAt d 0x50 2 * leAt d 0x52 2 + 3) / 4) ((cropBytes d + 63) / 64)

/-- R43: the root clock in MHz: 6.0 GHz, or on RCOSC 5.7 GHz nominal (see log entry 83, DESIGN CHOICE). -/
def State.rootMhz (s : State) : Nat := if s.fld F.CLK_STATUS_ACTIVE = 2 then 5700 else 6000

/-- R44, R73: the CLK_CORE cycles that a kernel has run: cycles before a change of the divider keep their count, and skipped ones are
none. -/
def State.ranCycles (s : State) (k : Kernel) : Nat := s.clk.cycles - k.startCyc

/-- R260: the backlog of a PPE. -/
def State.backlog (s : State) (n : Nat) : Nat :=
  s.esc.kernels.foldl (fun b k =>
    if k.cls = 5 ∧ k.unit = some n then b + (ppeEst k.unitDesc - s.ranCycles k)
    else if k.cls = 5 ∧ k.isReady ∧ k.ppe = some n then b + ppeEst k.unitDesc else b) 0

/-- VIS_BACKLOG of every PPE. -/
def State.showBacklog (s : State) : State :=
  (List.range 4).foldl (fun t n => t.setReg .VIS_BACKLOG (satNat 32 (s.backlog n)) n) s

/-- A PPE is reserved by a partition (R271). -/
def State.ppeResv (s : State) (p n : Nat) : Bool := (s.fld F.ESC_RESV_VIS p).testBit (8 + n)

/-- R260: the candidates of a partition's PPE job: those that it reserves, else the pool. -/
def State.ppeCandidates (s : State) (p : Nat) : List Nat :=
  let own := (List.range 4).filter (s.ppeResv p)
  if own.isEmpty then (List.range 4).filter (fun n => (List.range 64).all (fun q => !s.ppeResv q n)) else own

/-- R260: the candidate of least backlog, the lowest index on a tie. -/
def State.leastPpe (s : State) (p : Nat) : Option Nat :=
  (s.ppeCandidates p).foldl (fun m n => match m with
    | none => some n
    | some b => if s.backlog n < s.backlog b then some n else some b) none

/-- R260: the backlog is above the threshold. -/
def State.overThreshold (s : State) (cycles : Nat) : Bool :=
  decide (s.rootMhz * s.fld F.VIS_OVCFG_THRESH_US < cycles * s.fld F.PWR_STATUS_CORE_DIV)

/-- R145: the harts that the profile binds to a partition. -/
def State.hartsOf (s : State) (p : Nat) : List Nat :=
  match s.dev.settings with
  | some t => (t.harts.filter (fun h => h.2 == p)).map (·.1)
  | none => []

/-- R260: overflow routing is open to a job. -/
def State.mayOverflow (s : State) (k : Kernel) : Bool :=
  s.flag F.VIS_OVCFG_EN && (leAt k.unitDesc 1 1).testBit 0 && s.fnState fnApp == stRunning && !(s.hartsOf k.partition).isEmpty

/-- A kernel replaced in the operation table. -/
def State.setKernel (s : State) (k : Kernel) : State :=
  { s with esc := { s.esc with kernels := s.esc.kernels.map (fun x => if x.id = k.id then k else x) } }

/-- R148: OVF_VEC raised on a partition's harts: the identity is pending in the M-level file of each (see log entry 96, DESIGN CHOICE). -/
def State.raiseOverflow (s : State) (vec p : Nat) : State :=
  (s.hartsOf p).foldl (fun t h => t.pend h 0 vec) { s with irqs := s.irqs ++ [⟨vec, 0, p, 0⟩] }

/-- R148: what the header of a job's record names: its queue, its SEQ and its completion path, the sync-counter signal of a kernel or the
completion record of a VIS_RUN packet (see log entry 46, DEDUCED). -/
def Kernel.ringNames (k : Kernel) : List Nat := [k.queue, k.seq, b2n k.flight.isSome, b2n k.sigEn, k.sigCtr, k.sigInc]

/-- R148: a routed job's record in the partition's overflow ring, 160 bytes a record, and OVF_VEC (see log entry 46, DEDUCED). -/
def State.toRing (s : State) (k : Kernel) : State :=
  match (s.dev.settings.map (·.overflow)).bind (fun l => l.find? (fun e => e.1 == k.partition)) with
  | some (p, base, n, vec) =>
    let i := sparseGet (fun _ => 0) s.esc.overIndex p
    let head := (List.range 32).map (Config.ringHeader k.ringNames)
    let t := (s.keyed (initiator 4 p)).writeBytes (base + 160 * (i % max n 1)) (head ++ k.unitDesc)
    { t with esc := { t.esc with overIndex := sparseSet (fun _ => 0) t.esc.overIndex p (i + 1) } }.raiseOverflow vec p
  | none => s

/-- R260: a PPE job that became ready is assigned to a PPE or routed to the library. -/
def State.assignPpe (s : State) (k : Kernel) : State :=
  match s.leastPpe k.partition with
  | none => s
  | some n =>
    if s.overThreshold (s.backlog n) then
      if s.mayOverflow k then
        (((s.setKernel { k with routed := true }).addFld F.VIS_OVCNT_ROUTED 1).setFlag F.GLK_TBREAK_OVERFLOW).toRing k
      else ((s.setKernel { k with ppe := some n }).addFld F.VIS_OVCNT_OVER_KEPT 1).showBacklog
    else (s.setKernel { k with ppe := some n }).showBacklog

/-- R270: a kernel becomes ready, in the order of becoming so; a PPE job is assigned (R260). -/
def State.makeReady (s : State) (id : Nat) : State :=
  match s.esc.kernels.find? (fun k => k.id == id) with
  | some k =>
    let t := s.raiseV k.partition k.cls
    let k := { k with ready := some t.esc.nextReady, readyNs := s.dev.nowNs }
    let t := { t.setKernel k with esc := { (t.setKernel k).esc with nextReady := t.esc.nextReady + 1 } }
    if k.cls = 5 then t.assignPpe k else t
  | none => s

/-- A kernel that a signal releases, behind so many of its class (R113). -/
def State.markSignal (s : State) (id n : Nat) : State :=
  { s with esc := { s.esc with kernels := s.esc.kernels.map (fun k => if k.id = id then { k with bySignal := true, behind := n } else k) } }

/-- Kernels with how many of its class stand before each (R113). -/
def behindOf : List Nat → List Kernel → List (Nat × Nat)
  | _, [] => []
  | seen, k :: l => (k.id, seen.count k.cls) :: behindOf (k.cls :: seen) l

/-- R275: the state of a kernel's context. -/
def State.ctxState (s : State) (p c : Nat) : Nat := s.fld F.ESC_CTX_STATE p c

/-- R108, R270: the kernels that wait on a counter and whose wait is met become ready, in launch order. -/
def State.readyKernels (s : State) (c : Nat) : State :=
  (behindOf [] (s.esc.kernels.filter (fun k => k.ready.isNone && k.waitEn && k.waitCtr == c && s.fullMet c k.waitVal &&
      s.ctxState k.partition k.context != stDraining))).foldl (fun t e => (t.markSignal e.1 e.2).makeReady e.1) s

/-! Watches (R111). -/

/-- R111: the profile assigns each watch to a partition. -/
def State.watchOwner (s : State) (k : Nat) : Nat :=
  match s.dev.settings with
  | some t => t.watches.getD k 0
  | none => 0

/-- R111: a watch fires: its interrupt is raised, ARMED is cleared and FIRED is set. -/
def State.fireWatch (s : State) (k : Nat) : State :=
  let c := s.fld F.SYNC_WATCHCFG_COUNTER k
  if s.flag F.SYNC_WATCHCFG_ARMED k && s.fullMet c (s.reg .SYNC_WATCHVAL k) then
    ((s.putFld F.SYNC_WATCHCFG_ARMED 0 k).setFlag F.SYNC_WATCHCFG_FIRED k).raise
      (s.fld F.SYNC_WATCHCFG_VECTOR k) (s.fld F.SYNC_WATCHCFG_DEST k) (s.watchOwner k)
  else s

/-- R111: the armed watches of a counter fire. -/
def State.fireWatches (s : State) (c : Nat) : State :=
  (List.range 256).foldl (fun t k => if t.fld F.SYNC_WATCHCFG_COUNTER k = c then t.fireWatch k else t) s

/-! Waits of packets. -/

/-- R108: a flight that is a SYNC_WAIT on the counter and not yet satisfied. -/
def Flight.waitsOn (f : Flight) (c : Nat) : Bool :=
  f.cls == 3 && f.code == 4 && f.status.isNone && f.waitCtr == c && !f.waitMet

/-- A SYNC_WAIT whose wait is met: RESULT is the value at release. -/
def Flight.met (f : Flight) (v : Nat) : Flight := { f with waitMet := true, result := v }

/-- R108: SYNC_WAIT packets on the counter whose full wait is met: each owes its completion. -/
def State.meetSyncWaits (s : State) (c : Nat) : State :=
  let hit := s.cq.flight.filter (fun f => f.waitsOn c && s.fullMet c f.waitVal)
  let t := { s with cq := { s.cq with
    flight := s.cq.flight.map (fun f => if f.waitsOn c && s.fullMet c f.waitVal then f.met (s.reg .SYNC_CTR c) else f) } }
  hit.foldl (fun u f => u.owe (.syncWaitSatisfied f.queue f.seq)) t

/-- The first held packet of each queue, in order. -/
def heldHeads : List Instr → List Nat → List Packet
  | [], _ => []
  | i :: l, seen =>
    match packetOf i with
    | some p => if seen.contains p.queue then heldHeads l seen else p :: heldHeads l (p.queue :: seen)
    | none => heldHeads l seen

/-- R108: short waits on the counter that are met stay met. -/
def State.meetShortWaits (s : State) (c : Nat) : State :=
  { s with cq := { s.cq with waitMet := s.cq.waitMet ++
    ((heldHeads s.cq.held []).filter (fun p => pWaitEn p && p.waitCtr == c && s.shortMet c p.waitVal &&
      !s.cq.waitMet.contains p.queue)).map (·.queue) } }

/-- R438, R440: enabled watchdogs whose start or kick counter the signal reaches owe a kick or a start event, the kick first
(see log entry 19, DEDUCED). -/
def State.signalDogs (s : State) (c : Nat) : State :=
  (List.range 64).foldl (fun t k =>
    if t.flag F.SAFE_WDCFG_EN k then
      let t := if t.fld F.SAFE_WDSRC_KICK_CTR k = c then t.owe (.wdKick k .counter) else t
      if t.fld F.SAFE_WDSRC_START_CTR k = c then t.owe (.wdStart k .counter) else t
    else t) s

/-- The counter after an add, held at 2^64 - 1 (R107). -/
def State.bump (s : State) (c inc : Nat) : State :=
  let v := s.reg .SYNC_CTR c + inc
  if v < 2 ^ 64 then s.setReg .SYNC_CTR v c else (s.setReg .SYNC_CTR (2 ^ 64 - 1) c).syncSaturated c

/-- R107: a signal: the add, then the waits, kernels, watches and watchdogs it reaches. -/
def State.signal (s : State) (c inc : Nat) : State :=
  (((((s.bump c inc).meetSyncWaits c).meetShortWaits c).readyKernels c).fireWatches c).signalDogs c

end Sys2Proof.Machine
end

