-- ==== Sys2Proof/Machine/Runner.lean ====
section
/-! DEFINITION. Running a packet: the checks of Table CMDQ-3 (R82), what holds a packet at the head of its queue (R92, R103,
R112), its start, and its completion in ring order (R90, R94, R95, R103 to R105). -/

namespace Sys2Proof.Machine

/-! Table CMDQ-8: completion status codes. -/

abbrev csDone : Nat := 0x00
abbrev csClamped : Nat := 0x01
abbrev csFormat : Nat := 0x10
abbrev csFirewall : Nat := 0x11
abbrev csQueueFull : Nat := 0x12
abbrev csState : Nat := 0x13
abbrev csEngine : Nat := 0x20
abbrev csEcc : Nat := 0x21
abbrev csWatchdog : Nat := 0x22
abbrev csPreempt : Nat := 0x23
abbrev csStarved : Nat := 0x30
abbrev csTerminated : Nat := 0x31
abbrev csConcealed : Nat := 0x40
abbrev csDimensions : Nat := 0x41
abbrev csTruncated : Nat := 0x42
abbrev csTimeJump : Nat := 0x50

/-- R107: the statuses whose packets signal. -/
def csSignals (st : Nat) : Bool := st == csDone || st == csClamped || st == csConcealed

/-! Queues (R91 to R93). -/

/-- The state of a queue. -/
def State.qState (s : State) (q : Nat) : Nat := s.fld F.CMDQ_QSTAT_STATE q

/-- The partition that owns a queue. -/
def State.qPart (s : State) (q : Nat) : Nat := s.fld F.CMDQ_QCFG_PARTITION q

/-- R92: submission slots handed over and not consumed, modulo 2^32 (see log entry 9, DEDUCED). -/
def State.qAvail (s : State) (q : Nat) : Nat := (s.reg .CMDQ_QTAIL q + 2 ^ 32 - s.reg .CMDQ_QHEAD q) % 2 ^ 32

/-- A packet of the queue is held. -/
def State.qHeld (s : State) (q : Nat) : Bool := s.cq.held.any (fun i => (packetOf i).any (fun p => p.queue == q))

/-- The packets of a queue that started and are not completed. -/
def State.qFlights (s : State) (q : Nat) : Nat := (s.cq.flight.filter (fun f => f.queue == q)).length

/-- R112: operation-table entries that packets and kernels of a partition hold, beside the heads given. -/
def State.opsBeside (s : State) (p : Nat) (heads : List Head) : Nat :=
  (s.cq.flight.filter (fun f => f.partition == p)).length + (heads.filter (fun k => k.partition == p)).length +
    (s.esc.kernels.filter (fun k => k.partition == p && k.flight.isNone)).length

/-- R112: operation-table entries that packets and kernels of a partition hold. -/
def State.usedOps (s : State) (p : Nat) : Nat := s.opsBeside p s.cq.heads

/-- R112: the entries of a partition that were taken before the one of a queue's head. -/
def State.opsBefore (s : State) (p q : Nat) : Nat := s.opsBeside p (s.cq.heads.takeWhile (fun h => h.queue != q))

/-- R112: the counts of CMDQ_QSTAT.OPS, CMDQ_OPQUOTA.USED and CMDQ_OPTAB for a queue of a partition. -/
def State.countOps (s : State) (q p : Nat) : State :=
  let inUse := s.cq.flight.length + s.cq.heads.length + (s.esc.kernels.filter (fun k => k.flight.isNone)).length
  let s := s.putFld F.CMDQ_QSTAT_OPS (s.qFlights q + (s.cq.heads.filter (fun h => h.queue == q)).length) q
  let s := s.putFld F.CMDQ_OPQUOTA_USED (s.usedOps p) p
  let s := s.putFld F.CMDQ_OPTAB_IN_USE inUse
  if s.fld F.CMDQ_OPTAB_HIGH < inUse then s.putFld F.CMDQ_OPTAB_HIGH inUse else s

/-! Completion records (R90, R94, R104). -/

/-- The completion ring's write index of a queue. -/
def State.cplIndex (s : State) (q : Nat) : Nat := sparseGet (fun _ => 0) s.cq.cplIndex q

/-- Slots of a completion ring. -/
def State.cplSlots (s : State) (q : Nat) : Nat := 2 ^ s.fld F.CMDQ_QCFG_CQ_LOG2 q

/-- R94: n slots fit before CMDQ_QCPLHEAD (see log entry 10, DEDUCED). -/
def State.cplFits (s : State) (q n : Nat) : Bool :=
  decide ((s.cplIndex q + 2 ^ 32 - s.reg .CMDQ_QCPLHEAD q) % 2 ^ 32 + n ≤ s.cplSlots q)

/-- R295: the device's own 20-bit ID. -/
def State.deviceId (s : State) : Nat := s.reg .GLK_ID % 2 ^ 20

/-- Table CMDQ-7: a completion record. -/
def State.record (s : State) (f : Flight) (st : Nat) : List Byte :=
  let phase := 1 - s.cplIndex f.queue / s.cplSlots f.queue % 2
  toLe 4 f.seq
  ++ toLe 4 (2 ^ 31 * phase + 2 ^ 18 * f.queue + f.ext.length / 32)
  ++ toLe 4 (2 ^ 16 * f.code + f.cls * 2 ^ 8 + f.partition)
  ++ toLe 4 (2 ^ 24 * st + s.deviceId)
  ++ toLe 8 s.time ++ toLe 8 f.result

/-- The address of a slot of a completion ring; rings wrap (R91). -/
def State.cplAddr (s : State) (q k : Nat) : Nat :=
  s.fld F.CMDQ_QCPLBASE_BASE q * 4096 + (s.cplIndex q + k) % s.cplSlots q * 32

/-- Slots of 32 bytes written to a completion ring from its write index on. -/
def State.writeSlots (s : State) (q : Nat) : Nat → List (List Byte) → State
  | _, [] => s
  | k, b :: bs => (s.writeBytes (s.cplAddr q k) b).writeSlots q (k + 1) bs

/-- A queue enters FAULT, and its head cannot be read (R83, R492). -/
def State.stickQueue (s : State) (q : Nat) : State :=
  { s.putFld F.CMDQ_QSTAT_STATE stFault q with
    cq := { s.cq with stuck := if s.cq.stuck.contains q then s.cq.stuck else s.cq.stuck ++ [q] } }

/-- R492: a ring access fails; a queue that is on enters FAULT, and where the access was a read of its submission ring, its head cannot be
read (see log entry 12, DEDUCED). -/
def State.ringFault (s : State) (q init : Nat) (read : Bool := false) : State :=
  let t := s.cmdqError F.CMDQ_ERR_RING_FAULT q (some init)
  if t.qState q = stOff then t else if read then t.stickQueue q else t.putFld F.CMDQ_QSTAT_STATE stFault q

/-- R30, R99: the queue's packets come over UDP; queue 0 of HELD answers over UDP once a datagram has reached it. -/
def State.overUdp (s : State) (q : Nat) : Bool :=
  s.fld F.CMDQ_QCFG_TRANSPORT q == 2 || (s.devState == devHeld && s.cq.udp.any (fun u => u.queue == q))

/-- The UDP state of a queue. -/
def State.udpOf (s : State) (q : Nat) : Udp := (s.cq.udp.find? (fun u => u.queue == q)).getD { queue := q }

/-- R100: where the packets of a queue's answers go: the source of the last packet accepted on it. Before one has been accepted, an ACK for a
duplicate has no source to go to and goes to the empty address (see log entry 106, DESIGN CHOICE). -/
def State.peerOf (s : State) (q : Nat) : UdpPeer := (s.udpOf q).peer.getD {}

/-- R94, R95, R101: the record and its EXT slots written as one unit, the interrupt raised, and over UDP the slots pushed. A
failing ring access loses the record (R492). -/
def State.writeRecord (s : State) (f : Flight) (st : Nat) : State :=
  let n := 1 + f.ext.length / 32
  let init := initiator 6 (s.qPart f.queue)
  let s := s.keyed init
  if (List.range n).all (fun k => s.memOk init (s.cplAddr f.queue k) 32 true) then
    let t := s.writeSlots f.queue 0 (chunks 32 n (s.record f st ++ f.ext))
    let t := { t with cq := { t.cq with
      cplIndex := sparseSet (fun _ => 0) t.cq.cplIndex f.queue ((s.cplIndex f.queue + n) % 2 ^ 32) } }
    let t := if s.overUdp f.queue then t.send (.cpl f.queue (s.cplIndex f.queue) n (s.peerOf f.queue)) else t
    if s.flag F.CMDQ_QCFG_IRQ_EN f.queue then
      t.raise (s.fld F.CMDQ_QCFG_IRQ_VEC f.queue) (if s.fld F.CMDQ_QCFG_TRANSPORT f.queue = 0 then 1 else 0)
        (s.qPart f.queue) (s.queueFn f.queue)
    else t
  else (((List.range n).filter (fun k => !s.memOk init (s.cplAddr f.queue k) 32 true)).head?.elim s
    (fun k => s.recordDenial init (s.cplAddr f.queue k) 32 true)).ringFault f.queue init

/-- R94: with CPL_MODE 1 only LAST packets and statuses other than DONE leave a record. -/
def State.writes (s : State) (f : Flight) (st : Nat) : Bool :=
  !(s.flag F.CMDQ_QCFG_CPL_MODE f.queue && st == csDone && !f.last)

/-! A warm start (R35, R36). -/

/-- Everything but the always-on domain, OTP, flash and the outside is at reset. The memory of the package reads as after
power-on; host memory and peers are not the device's (see log entry 20, DEDUCED). -/
def State.resetAll (s : State) : State :=
  let t := { State.reset with
    regs := resetRegs s.chip
    dev := { State.reset.dev with nowNs := s.dev.nowNs, releaseNs := s.dev.releaseNs }
    mem := sparseClear (sparseClear s.mem 0 0x10000000) 0x1000000000 0x4000000000
    flash := s.flash
    chip := s.chip
    irqs := s.irqs
    sent := s.sent
    due := []
    free := s.free
    pending := s.pending }
  t.putFld F.SEC_LIFECYCLE_STATE (s.fld F.SEC_LIFECYCLE_STATE)

/-- R459: the boot ROM reads back the last 256 valid persisted records. -/
def State.readBack (s : State) : State :=
  let l := s.persisted
  { s with log := { s.log with readBack := l.drop (l.length - 256) } }

/-- R21, R36, R459: a start: SYS_DEVSTATE shows the CROWN latch, SYS_SELECT and which of them chose the slot. -/
def State.showStart (s : State) : State :=
  let sel := s.flag F.SYS_SELECT_VALID
  let slot := if sel then s.fld F.SYS_SELECT_SLOT else s.dev.crown
  let t := (s.setReg .SYS_DEVSTATE devBoot).putFld F.SYS_DEVSTATE_CROWN s.dev.crown
  let t := ((t.putFld F.SYS_DEVSTATE_SELECT_VALID (b2n sel)).putFld F.SYS_DEVSTATE_SELECT_SLOT (s.fld F.SYS_SELECT_SLOT)).putFld
    F.SYS_DEVSTATE_SOURCE (b2n sel)
  { t with dev := { t.dev with slot := slot } }.readBack

/-- R35: BOOT from REFCLK qualification on, the always-on domain kept, one SYS_RSTCAUSE bit set (see log entry 20, DEDUCED). -/
def State.warmStart (s : State) (cause : Fld) : State :=
  let t := s.resetAll
  let t := { t with dev := { t.dev with crown := s.dev.crown, refsel := s.dev.refsel } }
  let t := t.setReg .SYS_RSTCAUSE (s.reg .SYS_RSTCAUSE)
  let t := if s.devState = devSafe then t.setFlag F.SYS_RSTCAUSE_SAFE else t
  let t := (t.setReg .SYS_SELECT (s.reg .SYS_SELECT)).setFlag cause
  t.showStart

/-! Completion in ring order (R103). -/

/-- A flight with its outcome: status, RESULT, and EXT data zero-padded to whole slots (R90). -/
def Flight.done (f : Flight) (st result : Nat) (ext : List Byte) : Flight :=
  { f with status := some st, result := result % 2 ^ 64, ext := padTo (roundUp ext.length 32) ext }

/-- The flight of a number gets its outcome. -/
def State.finish (s : State) (id st result : Nat) (ext : List Byte := []) : State :=
  { s with cq := { s.cq with flight := s.cq.flight.map (fun f => if f.id = id then f.done st result ext else f) } }

/-- One flight leaves: what a SYNC_ADD adds, its record unless that is lost (R492), then its signal (R103 rule 5), then the warm start that
a WARM_RESET or SELECT_PROFILE asks for (R85) (see log entry 10, DEDUCED; log entry 13, DEDUCED). -/
def State.depart (s : State) (f : Flight) (st : Nat) (write : Bool) : State :=
  let t := { s with cq := { s.cq with flight := s.cq.flight.filter (fun g => g.id != f.id) } }
  let t := match f.add with
    | some (c, n) => t.signal c n
    | none => t
  let f := match f.add with
    | some (c, _) => { f with result := t.reg .SYNC_CTR c }
    | none => f
  let t := if write && t.writes f st then t.writeRecord f st else t
  let t := match f.sig with
    | some (c, n) => if csSignals st then t.signal c n else t
    | none => t
  match f.warm with
  | some c => if st = csDone then t.warmStart c else t
  | none => t

/-- A flight that leaves with its record. -/
def State.retireOne (s : State) (f : Flight) (st : Nat) : State := s.depart f st true

/-- R103 rule 3: the flights of a queue complete in ring order, each as soon as it is done and its record fits. -/
def State.retireN (q : Nat) : Nat → State → State
  | 0, s => s
  | n + 1, s =>
    match s.cq.flight.find? (fun f => f.queue == q) with
    | some f =>
      match f.status with
      | some st => if s.writes f st && !s.cplFits q (1 + f.ext.length / 32) then s else State.retireN q n (s.retireOne f st)
      | none => s
    | none => s

/-- The flights of a queue that can complete do, and the counts follow. -/
def State.retire (s : State) (q p : Nat) : State := (State.retireN q s.cq.flight.length s).countOps q p

/-- R94: the next record of the queue, of one slot while its EXT slots are not known, does not fit, so the queue starts no more packets. -/
def State.qBlocked (s : State) (q : Nat) : Bool :=
  match (s.cq.flight.find? (fun f => f.queue == q)).bind (fun f => f.status.map (fun st => (f, st))) with
  | some (f, st) => s.writes f st && !s.cplFits q (1 + f.ext.length / 32)
  | none => !s.cplFits q 1

/-- A flight that completes later: its outcome is set and its queue retires. -/
def State.complete (s : State) (id st result : Nat) (ext : List Byte := []) : State :=
  match s.cq.flight.find? (fun f => f.id == id) with
  | some f => (s.finish id st result ext).retire f.queue f.partition
  | none => s

/-! The checks of Table CMDQ-3. -/

/-- What an opcode's chapter adds to the checks: the OPF bits it defines, its format (check 7) with a detail for RESULT bits
15:8, what it may access (check 8), the memory it names, whether HELD and SAFE accept it (R31, R449), whether its target is
ready (check 9), the function or unit that takes the work (R26), and the object that it writes, by handle (R89)
(see log entry 11, DEDUCED). -/
structure Rule where
  op : Opcode
  opf : Nat := 0
  format : Bool := true
  detail : Nat := 0
  ext : Nat := 0
  permit : Bool := true
  p0 : Bool := false
  access : List (Nat × Nat × Bool) := []
  reads : List (Nat × Nat × Nat) := []
  inHeld : Bool := false
  inSafe : Bool := false
  ready : Bool := true
  fn : Option (Nat × Option Nat) := none
  warm : Option Fld := none
  writes : Option Nat := none
  deriving DecidableEq, Repr

/-- R296: a packet for another member of the own cluster is forwarded while Grenlink runs and the member is reachable. -/
def State.glkRoute (s : State) (dest : Nat) : Bool :=
  s.fnUsable fnGlk && dest / 64 == s.deviceId / 64 && dest % 64 != s.deviceId % 64 &&
    (s.reg .GLK_PEERS).testBit (dest % 64)

/-- Check 4: the packet is for this device. -/
def State.forMe (s : State) (p : Packet) : Bool := p.destDev == 0xFFFFF || p.destDev == s.deviceId

/-- Check 7 for every opcode: the FLAGS it defines, SIG_INC, the completion ring (R90), and the opcode's own format. -/
def State.check7 (s : State) (r : Rule) (p : Packet) : Option Nat :=
  if pOpf p &&& (15 - r.opf) ≠ 0 ∨ (pSigEn p ∧ p.sigInc = 0) then some 0
  else if r.format = false then some r.detail
  else if s.cplSlots p.queue - 1 < 1 + r.ext then some 0x0A
  else none

/-- Check 8: the counters, the opcode's permission, partition 0 (R488), the memory it names (R490), and SAFE (R449). -/
def State.check8 (s : State) (r : Rule) (p : Packet) : Bool :=
  (!pWaitEn p || s.ownsCtr p.partition p.waitCtr) && (!pSigEn p || s.ownsCtr p.partition p.sigCtr) &&
    r.permit && (!r.p0 || p.partition == 0) && !(s.devState == devSafe && p.partition != 0) &&
    r.access.all (fun a => s.memOk (initiator 6 p.partition) a.1 a.2.1 a.2.2) && r.reads.all (fun a => s.memOk a.1 a.2.1 a.2.2 false)

/-- Check 9: the device state accepts the opcode and its target reads READY or RUNNING. -/
def State.check9 (s : State) (r : Rule) : Bool :=
  (s.devState != devHeld || r.inHeld) && (s.devState != devSafe || r.inSafe) && r.ready &&
    (match r.fn with
     | some (n, none) => s.fnUsable n
     | some (n, some u) => s.unitUsable n u
     | none => true)

/-- Checks 1 to 8 in order; check 4's forwarding is judged before. The answer is status, check number and detail. -/
def State.headCheck (s : State) (r : Rule) (p : Packet) : Option (Nat × Nat × Nat) :=
  if p.hcrc ≠ hcrcOf r.op p then some (csFormat, 1, 0)
  else if p.version ≠ 1 then some (csFormat, 2, 0)
  else if p.trailer ≠ trailerOf r.op p then some (csFormat, 3, 0)
  else if s.forMe p = false then some (csFormat, 4, 0)
  else if 2046 < p.plen ∨ p.payload.length ≠ 32 * p.plen then some (csFormat, 5, 0)
  else if p.partition ≠ s.qPart p.queue then some (csFirewall, 6, 0)
  else match s.check7 r p with
    | some d => some (csFormat, 7, d)
    | none => if s.check8 r p then none else some (csFirewall, 8, 0)

/-! What holds a packet at the head of its queue. -/

/-- R89: a packet of the queue ahead of a flight writes an object and has not completed. -/
def State.earlierWrites (s : State) (id : Nat) (b : Obj) : Bool :=
  match s.cq.flight.find? (fun f => f.id == id) with
  | some g => (s.cq.flight.takeWhile (fun f => f.id != id)).any (fun f =>
      f.queue == g.queue && f.partition == b.partition && f.writes == some b.handle)
  | none => false

/-- R89: the flight whose CRC pass over an object runs: the first LAST packet whose earlier writers have completed. -/
def State.passOf (s : State) (b : Obj) : Option Nat := b.pass.find? (fun id => !s.earlierWrites id b)

/-- R89: a packet that writes an object waits while a CRC pass over the object runs. -/
def State.passRuns (s : State) (writes : Option Nat) (p : Packet) : Bool :=
  s.objs.any (fun b => b.partition == p.partition && writes == some b.handle && (s.passOf b).isSome)

/-- R108: a SYNC_WAIT of the queue waits, and holds its queue. -/
def State.qWaiting (s : State) (q : Nat) : Bool :=
  s.cq.flight.any (fun f => f.queue == q && f.cls == 3 && f.code == 4 && f.status.isNone)

/-- R92: the slots that hold the packet are handed over, and what fetches them is up: FN_PCIE for a PCIe queue (see log entry 9, DEDUCED). -/
def State.fetches (s : State) (p : Packet) : Bool :=
  decide (pSlots p ≤ s.qAvail p.queue) && (s.fld F.CMDQ_QCFG_TRANSPORT p.queue != 0 || s.fnUsable fnPcie)

/-- R103, R108, R112, R94, R89, R266: the packet may not start yet (see log entry 9, DEDUCED). -/
def State.mustHold (s : State) (writes : Option Nat) (p : Packet) : Bool :=
  !s.fetches p || (pFence p && s.qFlights p.queue != 0) ||
    (pWaitEn p && !s.cq.waitMet.contains p.queue && !s.shortMet p.waitCtr p.waitVal) ||
    s.qWaiting p.queue || decide (s.fld F.CMDQ_OPQUOTA_QUOTA p.partition ≤ s.opsBefore p.partition p.queue) || s.qBlocked p.queue ||
    s.passRuns writes p || s.fld F.ESC_PCFG_STATE p.partition == stDraining || s.fld F.ESC_PCFG_STATE p.partition == stStopped

/-- The packet waits behind those held of its queue, or stays at the head of it (see log entry 9, DEDUCED). -/
def State.keepHeld (s : State) (i : Instr) (front : Bool) : State :=
  { s with cq := { s.cq with held := if front then i :: s.cq.held else s.cq.held ++ [i] } }

/-- The head of a queue takes its operation-table entry (R112) in the order in which it became head. -/
def Cq.withHead (c : Cq) (h : Head) : Cq :=
  { c with heads := if c.heads.any (fun x => x.queue == h.queue) then c.heads.map (fun x => if x.queue = h.queue then h else x)
                    else c.heads ++ [h] }

/-- The packet waits at the head of its queue, its checks made or still to be made (R82); a short wait that is met stays met (R108)
(see log entry 9, DEDUCED). -/
def State.holdHead (s : State) (i : Instr) (p : Packet) (checked : Bool) (writes : Option Nat) : State :=
  let t := s.keepHeld i true
  let met := pWaitEn p && checked && s.shortMet p.waitCtr p.waitVal && !s.cq.waitMet.contains p.queue
  ({ t with cq := { t.cq.withHead ⟨p.queue, p.partition, checked, writes⟩ with
    waitMet := if met then t.cq.waitMet ++ [p.queue] else t.cq.waitMet } }).countOps p.queue p.partition

/-! Starting. -/

/-- The address of a submission ring's slot (R91). -/
def State.subAddr (s : State) (q k : Nat) : Nat :=
  s.fld F.CMDQ_QBASE_BASE q * 4096 + k % 2 ^ s.fld F.CMDQ_QCFG_SQ_LOG2 q * 32

/-- The memory of n slots from a queue's head on, which may wrap. -/
def State.slotPieces (s : State) (q n : Nat) : List (Nat × Nat) :=
  let size := 2 ^ s.fld F.CMDQ_QCFG_SQ_LOG2 q
  let k := s.reg .CMDQ_QHEAD q % size
  [(s.subAddr q k, 32 * min n (size - k)), (s.subAddr q 0, 32 * (n - (size - k)))]

/-- R92: slots of a queue are consumed, their read charged (R277); what stands behind them is to be read. -/
def State.advance (s : State) (q n : Nat) : State :=
  let t := (s.chargePieces (initiator 6 (s.qPart q)) (s.slotPieces q n)).setReg .CMDQ_QHEAD ((s.reg .CMDQ_QHEAD q + n) % 2 ^ 32) q
  { t with cq := { t.cq with
    waitMet := t.cq.waitMet.filter (fun k => k != q)
    heads := t.cq.heads.filter (fun h => h.queue != q)
    fresh := if t.cq.fresh.contains q then t.cq.fresh else t.cq.fresh ++ [q] } }

/-- R92: the packet's slots are consumed. -/
def State.consume (s : State) (p : Packet) : State := s.advance p.queue (pSlots p)

/-- A flight for a packet. -/
def newFlight (id : Nat) (r : Rule) (p : Packet) : Flight where
  id := id
  queue := p.queue
  seq := p.seq % 2 ^ 32
  cls := r.op.cls
  code := r.op.code
  partition := p.partition
  last := pLast p
  sig := if pSigEn p then some (p.sigCtr, p.sigInc) else none
  warm := r.warm
  writes := r.writes

/-- The packet enters the operation table. -/
def State.launch (s : State) (r : Rule) (p : Packet) : State :=
  { s with cq := { s.cq with flight := s.cq.flight ++ [newFlight s.cq.nextId r p], nextId := s.cq.nextId + 1 } }

/-- R82: a packet rejected at the head of its queue. Check 1 puts the queue in FAULT with CMDQ_QHEAD at the packet (R83); checks
1 and 3 are counted (see log entry 11, DEDUCED). -/
def State.reject (s : State) (r : Rule) (p : Packet) (st check detail : Nat) : State :=
  let id := s.cq.nextId
  let t := if check = 1 then
      ((s.cmdqError F.CMDQ_ERR_HCRC p.queue none).addFld F.CMDQ_ERRCNT_HCRC_CNT 1).stickQueue p.queue
    else if check = 3 then ((s.cmdqError F.CMDQ_ERR_TCRC p.queue none).addFld F.CMDQ_ERRCNT_TCRC_CNT 1).consume p
    else s.consume p
  let t := if check = 8 then
      r.reads.foldl (fun u a => if s.memOk a.1 a.2.1 a.2.2 false then u else u.recordDenial a.1 a.2.1 a.2.2 false) <|
      (r.access.filter (fun a => !s.memOk (initiator 6 p.partition) a.1 a.2.1 a.2.2)).foldl
        (fun u a => u.recordDenial (initiator 6 p.partition) a.1 a.2.1 a.2.2) t
    else t
  ((t.launch r p).finish id st (detail * 256 + check)).retire p.queue p.partition

/-- R26: the function that carries the packet and the one that takes its work accept it. -/
def State.acceptWork (s : State) (r : Rule) (p : Packet) : State :=
  let t := if s.fld F.CMDQ_QCFG_TRANSPORT p.queue = 0 then s.acceptFn fnPcie
    else if s.fld F.CMDQ_QCFG_TRANSPORT p.queue = 2 then s.acceptFn fnEth else s
  match r.fn with
  | some (n, none) => t.acceptFn n
  | some (n, some u) => t.acceptUnit n u
  | none => t

/-- R325: the opcodes that a fenced device refuses to partitions other than 0 (see log entry 39, DEDUCED). -/
def fencedOp (o : Opcode) : Bool :=
  [⟨4, 1⟩, ⟨5, 1⟩, ⟨5, 2⟩, ⟨5, 3⟩, ⟨7, 1⟩].contains o

/-- R325: the device is fenced against the packet. -/
def State.fencedOut (s : State) (r : Rule) (p : Packet) : Bool :=
  s.flag F.GLK_DIGSTAT_FENCED && p.partition != 0 && fencedOp r.op

/-- The packet starts: the fence (R325), check 9, then the opcode's own effect on its flight
(see log entry 8, DEDUCED; log entry 11, DEDUCED). -/
def State.startPacket (s : State) (r : Rule) (p : Packet) (body : Nat → State → State) : State :=
  let id := s.cq.nextId
  let t := ((s.consume p).launch r p).countOps p.queue p.partition
  if s.fencedOut r p then (t.finish id csState 0x0409).retire p.queue p.partition
  else if s.check9 r then (body id ((t.acceptWork r p).keyed (initiator 6 p.partition))).retire p.queue p.partition
  else (t.finish id csState 9).retire p.queue p.partition

/-- R93, R274: a packet that has not started completes with a status; of one that is handed over in part, the part is consumed
(see log entry 10, DEDUCED). -/
def State.endPacket (s : State) (r : Rule) (p : Packet) (st : Nat) : State :=
  (((s.advance p.queue (min (pSlots p) (s.qAvail p.queue))).launch r p).finish s.cq.nextId st 0).retire p.queue p.partition

/-- R274: the status that a teardown left for the packets of a queue in FAULT that have not started. -/
def State.endStatus (s : State) (q : Nat) : Option Nat :=
  if s.qState q = stDraining then some csState
  else if s.qState q = stFault then (s.cq.ended.find? (fun e => e.1 == q)).map (·.2)
  else none

/-! The ring. -/

/-- The first of n slots from the queue's head on that cannot be read (R492). -/
def State.badSlot (s : State) (q n : Nat) : Option Nat :=
  ((List.range n).map (fun k => s.subAddr q (s.reg .CMDQ_QHEAD q + k))).find? (fun a =>
    !s.memOk (initiator 6 (s.qPart q)) a 32 false)

/-- R492: a read of the submission ring fails. -/
def State.readFault (s : State) (q a : Nat) : State :=
  (s.recordDenial (initiator 6 (s.qPart q)) a 32 false).ringFault q (initiator 6 (s.qPart q)) true

/-- R296: a packet whose checks 1 to 3 pass goes on over Grenlink. -/
def State.forwards (s : State) (o : Opcode) (p : Packet) : Bool :=
  decide (p.hcrc = hcrcOf o p ∧ p.version = 1 ∧ p.trailer = trailerOf o p) && !s.forMe p && s.glkRoute p.destDev

/-- The packet is forwarded. -/
def State.forward (s : State) (o : Opcode) (p : Packet) : State :=
  (s.consume p).toMember (p.destDev % 64) (.forward p.destDev o.cls o.code p)

/-- Checks 1 to 8 have been made of the packet held at the head of the queue. -/
def State.headChecked (s : State) (q : Nat) : Bool := s.cq.heads.any (fun h => h.queue == q && h.checked)

/-- A packet command: the packet is the next of its queue. A queue that is OFF or in FAULT does not read it, but for one that a teardown
ends; an empty ring holds none; one whose slots the tail does not cover waits (R92). Checks 1 to 8 are made once, as the packet becomes the
head (see log entry 8, DEDUCED). -/
def runPacket (i : Instr) (r : Rule) (p : Packet) (body : Nat → State → State) (s : State) : State :=
  let t := { s with cq := { s.cq with taking := false } }
  if 8192 ≤ p.queue ∨ t.qAvail p.queue = 0 then t
  else match t.endStatus p.queue with
    | some st => t.endPacket r p st
    | none =>
      if t.qState p.queue ≠ stRunning then t
      else if t.qHeld p.queue ∧ s.cq.taking = false then t.keepHeld i false
      else if t.fetches p = false then t.holdHead i p false r.writes
      else if t.headChecked p.queue then (if t.mustHold r.writes p then t.holdHead i p true r.writes else t.startPacket r p body)
      else match t.badSlot p.queue (pSlots p) with
        | some a => t.readFault p.queue a
        | none =>
          if t.forwards r.op p then t.forward r.op p
          else match t.headCheck r p with
            | some (st, c, d) => t.reject r p st c d
            | none => if t.mustHold r.writes p then t.holdHead i p true r.writes else t.startPacket r p body

/-- An opcode that completes at once with a status and a result. -/
def doneBody (st result : Nat) (ext : List Byte := []) (f : State → State := id) (fl : Nat) (s : State) : State :=
  (f s).finish fl st result ext

/-- The head of a queue that is held: it can be fetched, and its checks are still to be made or it can start. -/
def State.canTake (s : State) (p : Packet) : Bool :=
  s.qState p.queue == stRunning && s.fetches p &&
    (match s.cq.heads.find? (fun h => h.queue == p.queue && h.checked) with
     | some h => !s.mustHold h.writes p
     | none => true)

/-- The first held packet that leads its queue and can be taken, with the packets held beside it. -/
def findHeld (s : State) : List Instr → List Nat → List Instr → Option (Instr × List Instr)
  | [], _, _ => none
  | i :: l, seen, before =>
    match packetOf i with
    | some p =>
      if !seen.contains p.queue && s.canTake p then some (i, before ++ l)
      else findHeld s l (p.queue :: seen) (before ++ [i])
    | none => findHeld s l seen (before ++ [i])

/-- A held packet that can be checked or started is taken from the held ones (see log entry 9, DEDUCED). -/
def State.takeHeld (s : State) : Option (Instr × State) :=
  (findHeld s s.cq.held [] []).map (fun e => (e.1, { s with cq := { s.cq with held := e.2, taking := true } }))

/-! Packets of no command (R84, R85). -/

/-- The opcodes that a ring may hold (Table CMDQ-4, Table CMDQ-5 and the opcode tables of the classes). -/
def ringOpcodes : List Opcode :=
  [⟨0, 0⟩, ⟨1, 1⟩, ⟨1, 2⟩, ⟨1, 3⟩, ⟨1, 0x10⟩, ⟨1, 0x11⟩, ⟨1, 0x20⟩, ⟨1, 0x21⟩, ⟨2, 1⟩, ⟨2, 2⟩, ⟨2, 3⟩, ⟨2, 0x10⟩, ⟨2, 0x11⟩, ⟨2, 0x12⟩,
    ⟨3, 1⟩, ⟨3, 2⟩, ⟨3, 3⟩, ⟨3, 4⟩, ⟨4, 1⟩, ⟨4, 2⟩, ⟨4, 3⟩, ⟨5, 1⟩, ⟨5, 2⟩, ⟨5, 3⟩, ⟨5, 4⟩, ⟨5, 5⟩, ⟨5, 6⟩, ⟨6, 1⟩, ⟨6, 2⟩, ⟨6, 0x10⟩,
    ⟨6, 0x11⟩, ⟨6, 0x12⟩, ⟨6, 0x13⟩, ⟨6, 0x20⟩, ⟨6, 0x21⟩, ⟨6, 0x22⟩, ⟨6, 0x30⟩, ⟨6, 0x31⟩, ⟨7, 1⟩, ⟨8, 1⟩, ⟨8, 2⟩, ⟨8, 3⟩, ⟨9, 1⟩,
    ⟨9, 2⟩, ⟨9, 0x10⟩, ⟨9, 0x20⟩, ⟨9, 0x21⟩, ⟨0xA, 1⟩, ⟨0xA, 2⟩, ⟨0xA, 3⟩, ⟨0xA, 4⟩, ⟨0xB, 1⟩, ⟨0xB, 0x10⟩, ⟨0xB, 0x11⟩]

/-- Table CMDQ-1 read back: opcode and header fields of 32 bytes; payload and trailer are to follow. -/
def headerOf (q : Nat) (b : List Byte) : Opcode × Packet :=
  (⟨leAt b 1 1, leAt b 2 2⟩,
    { queue := q, version := leAt b 0 1, partition := bitsOf (leAt b 4 4) 31 26, sigInc := bitsOf (leAt b 4 4) 25 20,
      destDev := bitsOf (leAt b 4 4) 19 0, plen := bitsOf (leAt b 8 4) 18 8, flags := leAt b 8 1, seq := leAt b 0xC 4,
      target := leAt b 0x10 8, waitCtr := leAt b 0x18 2, sigCtr := leAt b 0x1A 2, waitVal := leAt b 0x1C 2, hcrc := leAt b 0x1E 2 })

/-- n slots of a submission ring from the head on. -/
def State.ringSlots (s : State) (q n : Nat) : List Byte :=
  (List.range n).flatMap (fun k => (s.keyed (initiator 6 (s.qPart q))).bytes (s.subAddr q (s.reg .CMDQ_QHEAD q + k)) 32)

/-- The packet at the head of a ring as its bytes say. -/
def State.ringPacket (s : State) (q : Nat) : Opcode × Packet :=
  let h := headerOf q (s.ringSlots q 1)
  let b := (s.ringSlots q (pSlots h.2)).drop 32
  (h.1, { h.2 with payload := b.take (32 * h.2.plen), trailer := leAt b (32 * h.2.plen) 4 })

/-- R84, R85: the packet at the head of a ring is of an opcode that no command carries; a draining queue ends it, else checks 1 to 7 reject
it (see log entry 8, DEDUCED). -/
def State.strayHead (s : State) (q : Nat) (o : Opcode) (p : Packet) : State :=
  match s.endStatus q with
  | some st => s.endPacket { op := o } p st
  | none =>
    match s.badSlot q (pSlots p) with
    | some a => s.readFault q a
    | none =>
      if s.forwards o p then s.forward o p
      else match s.headCheck { op := o, format := false } p with
        | some (st, c, d) => s.reject { op := o, format := false } p st c d
        | none => s

/-- R92, R492: the device reads the header that the tail of a queue has covered (see log entry 8, DEDUCED). -/
def State.readHead (s : State) (q : Nat) : State :=
  let t := { s with cq := { s.cq with fresh := s.cq.fresh.filter (fun k => k != q) } }
  if t.qHeld q ∨ t.qAvail q = 0 ∨ ((t.endStatus q).isNone ∧ t.qState q ≠ stRunning) ∨
      (t.fld F.CMDQ_QCFG_TRANSPORT q = 0 ∧ t.fnUsable fnPcie = false) then t
  else match t.badSlot q 1 with
    | some a => t.readFault q a
    | none =>
      let x := t.ringPacket q
      if ringOpcodes.contains x.1 || !t.fetches x.2 then t else t.strayHead q x.1 x.2

end Sys2Proof.Machine
end

