-- ==== Sys2Proof/Machine/Queues.lean ====
section
/-! DEFINITION. The CMDQ and SYNC register commands and the transports (file 03: R92 to R94, R99 to R102, R106 to R111, R115,
R492). -/

namespace Sys2Proof.Machine

/-- An event that the block owed itself has come (see log entry 19, DEDUCED). -/
def State.undue (s : State) (i : Instr) : State := { s with due := s.due.erase i }

/-- The head of a queue is to be read. -/
def State.toRead (s : State) (q : Nat) : State :=
  { s with cq := { s.cq with fresh := if s.cq.fresh.contains q then s.cq.fresh else s.cq.fresh ++ [q] } }

/-- R92: a write of CMDQ_DB. -/
def State.doorbell (s : State) (q tail init : Nat) : State :=
  let err := fun f => ((s.cmdqError f q (some init)).addFld F.CMDQ_ERRCNT_DB_CNT 1).accessed
  if s.ofPart init (s.qPart q) = false then err F.CMDQ_ERR_DB_DENIED
  else if s.qState q ≠ stRunning then err F.CMDQ_ERR_DB_STATE
  else if 2 ^ s.fld F.CMDQ_QCFG_SQ_LOG2 q < (tail + 2 ^ 32 - s.reg .CMDQ_QHEAD q) % 2 ^ 32 then err F.CMDQ_ERR_DB_OVERRUN
  else ((s.setReg .CMDQ_QTAIL (tail % 2 ^ 32) q).toRead q).accessed

/-- CMDQ_DB (R92). -/
def execCmdqDb (q : Nat) (w : RegWrite) (s : State) : Host.Outcome State Fault Refusal :=
  .next (if q < 8192 then s.doorbell q (w.value % 2 ^ 32) w.initiator else s.busErr)

/-! Rings. -/

/-- Slots written to a submission ring from a slot index on. -/
def State.writeSub (s : State) (q : Nat) : Nat → List (List Byte) → State
  | _, [] => s
  | k, b :: bs => ((s.keyed (initiator 6 (s.qPart q))).writeBytes (s.subAddr q k) b).writeSub q (k + 1) bs

/-- R78: a packet's bytes as they stand in a ring. -/
def ringBytes (o : Opcode) (p : Packet) : List Byte :=
  headerBytes o p ++ toLe 2 p.hcrc ++ p.payload ++ toLe 4 p.trailer ++ List.replicate 28 0

/-- R92: free slots of a submission ring. -/
def State.subFits (s : State) (q n : Nat) : Bool := decide (s.qAvail q + n ≤ 2 ^ s.fld F.CMDQ_QCFG_SQ_LOG2 q)

/-- The slots of a packet can be written behind a queue's tail. -/
def State.subOk (s : State) (p : Packet) (init : Nat) : Bool :=
  (List.range (pSlots p)).all (fun k => s.memOk init (s.subAddr p.queue (s.reg .CMDQ_QTAIL p.queue + k)) 32 true)

/-- A packet the device itself takes into a ring, with CMDQ_QTAIL after it; a failing ring write is a ring fault (R492). -/
def State.takeIn (s : State) (o : Opcode) (p : Packet) (init : Nat) : State :=
  let tail := s.reg .CMDQ_QTAIL p.queue
  if s.subOk p init then
    ((s.writeSub p.queue tail (chunks 32 (pSlots p) (ringBytes o p))).setReg .CMDQ_QTAIL
      ((tail + pSlots p) % 2 ^ 32) p.queue).toRead p.queue
  else s.ringFault p.queue init

/-! UDP (R99 to R101). -/

/-- The UDP state of a queue replaced. -/
def State.setUdp (s : State) (u : Udp) : State :=
  { s with cq := { s.cq with udp := s.cq.udp.filter (fun x => x.queue != u.queue) ++ [u] } }

/-- A datagram dropped and counted. -/
def State.udpDrop (s : State) (q : Nat) : State :=
  (s.cmdqError F.CMDQ_ERR_UDP_DROP q none).addFld F.CMDQ_ERRCNT_UDP_DROP_CNT 1

/-- An address lies under a prefix of n bits. -/
def underPrefix (v6 : Bool) (base n a : Nat) : Bool :=
  let w := if v6 then 128 else 32
  a / 2 ^ (w - n) == base / 2 ^ (w - n)

/-- R99: the queue's permitted sources; in HELD the IPv6 link-local ones, fe80::/10. -/
def State.udpPermits (s : State) (q : Nat) (a : UdpPeer) : Bool :=
  if s.devState = devHeld then a.v6 && underPrefix true (0xFE80 * 2 ^ 112) 10 a.addr
  else
    match s.dev.settings with
    | some t => t.udpSources.any (fun e => e.1 == q && e.2.1 == a.v6 && underPrefix a.v6 e.2.2.1 e.2.2.2 a.addr)
    | none => false

/-- R99: the datagram comes to a queue of UDP transport: no fragment, a permitted source, the Ethernet function usable. -/
def State.udpReaches (s : State) (d : Datagram) : Bool :=
  !d.fragment && decide (d.packet.queue < 8192) && s.udpPermits d.packet.queue d.source &&
    (s.fld F.CMDQ_QCFG_TRANSPORT d.packet.queue == 2 || s.devState == devHeld) && s.fnUsable fnEth

/-- R99: the datagram reaches its queue, which is RUNNING. -/
def State.udpAdmits (s : State) (d : Datagram) : Bool := s.udpReaches d && s.qState d.packet.queue == stRunning

/-- An ACK carrying E − 1 (see log entry 34, DEDUCED). -/
def State.sendAck (s : State) (q : Nat) : State :=
  s.send (.ack q ((s.reg .CMDQ_QSEQ q + 2 ^ 32 - 1) % 2 ^ 32) (s.peerOf q))

/-- R100: a packet in order is taken into the ring, and its source is where answers go; every ACK_EVERY packets an ACK goes out. A full ring
drops it; one that the ring cannot take leaves E as it is (see log entry 70, DEDUCED). -/
def State.udpInOrder (s : State) (d : Datagram) : State :=
  let q := d.packet.queue
  let init := initiator 9 (s.qPart q)
  if s.subFits q (pSlots d.packet) = false then s.udpDrop q
  else if s.subOk d.packet init = false then s.ringFault q init
  else
    let t := (s.takeIn ⟨d.cls, d.code⟩ d.packet init).setReg .CMDQ_QSEQ ((s.reg .CMDQ_QSEQ q + 1) % 2 ^ 32) q
    let u := s.udpOf q
    let n := u.unacked + 1
    if s.fld F.CMDQ_UDPCFG_ACK_EVERY ≤ n then (t.setUdp { u with peer := some d.source, unacked := 0 }).sendAck q
    else t.setUdp { u with peer := some d.source, unacked := n }

/-- R100: a packet ahead of E is dropped, and a NAK carrying E goes out at most once per 50 µs; before any packet is accepted it goes to the
datagram's source (see log entry 70, DEDUCED). -/
def State.udpAhead (s : State) (d : Datagram) : State :=
  let q := d.packet.queue
  let u := s.udpOf q
  let t := s.udpDrop q
  if (u.nakNs.map (fun n => decide (n + 50000 ≤ s.dev.nowNs))).getD true then
    (t.setUdp { u with nakNs := some s.dev.nowNs }).send (.nak q (s.reg .CMDQ_QSEQ q) (u.peer.getD d.source))
  else t

/-- R85: the transport packets ACK, NAK, CPL and CPL_ACK, which never enter a ring. -/
def transportOp (o : Opcode) : Bool := o.cls == 0 && decide (1 ≤ o.code ∧ o.code ≤ 4)

/-- UDP_DATAGRAM (R99, R100; checks 1 to 3 of Table CMDQ-3 over UDP, of which a bad VERSION goes into the ring and fails there). Transport
packets are not checked against SEQ (R85); an unknown opcode enters the ring and fails check 7 (R84) (see log entry 70, DEDUCED). -/
def execUdpDatagram (d : Datagram) (s : State) : Host.Outcome State Fault Refusal :=
  let q := d.packet.queue
  let o : Opcode := ⟨d.cls, d.code⟩
  .next (if s.udpAdmits d = false then s.udpDrop q
    else if d.packet.hcrc ≠ hcrcOf o d.packet then
      (s.cmdqError F.CMDQ_ERR_HCRC q none).addFld F.CMDQ_ERRCNT_HCRC_CNT 1
    else if d.packet.version = 1 ∧ d.packet.trailer ≠ trailerOf o d.packet then
      (s.cmdqError F.CMDQ_ERR_TCRC q none).addFld F.CMDQ_ERRCNT_TCRC_CNT 1
    else if transportOp o then s
    else
      let e := s.reg .CMDQ_QSEQ q
      let ahead := (d.packet.seq + 2 ^ 32 - e) % 2 ^ 32
      if ahead = 0 then s.udpInOrder d
      else if ahead < 2 ^ 31 then s.udpAhead d
      else s.sendAck q)

/-- UDP_ACK_TIMER (R100): ACK_US after the first packet not yet acknowledged (see log entry 70, DEDUCED). -/
def execUdpAckTimer (q : Nat) (s : State) : Host.Outcome State Fault Refusal :=
  let u := s.udpOf q
  .next (if u.unacked = 0 then s else (s.setUdp { u with unacked := 0 }).sendAck q)

/-- CPL_ACK (R101): the new completion head goes to CMDQ_QCPLHEAD, whatever state the queue is in, and the queue goes on
(see log entry 70, DEDUCED). -/
def execCplAck (d : Datagram) (s : State) : Host.Outcome State Fault Refusal :=
  let q := d.packet.queue
  let o : Opcode := ⟨0, 4⟩
  .next (if s.udpReaches d = false then s.udpDrop q
    else if d.packet.hcrc ≠ hcrcOf o d.packet then
      (s.cmdqError F.CMDQ_ERR_HCRC q none).addFld F.CMDQ_ERRCNT_HCRC_CNT 1
    else if d.packet.version ≠ 1 then s
    else if d.packet.trailer ≠ trailerOf o d.packet then
      (s.cmdqError F.CMDQ_ERR_TCRC q none).addFld F.CMDQ_ERRCNT_TCRC_CNT 1
    else (s.setReg .CMDQ_QCPLHEAD (d.packet.target % 2 ^ 32) q).retire q (s.qPart q))

/-- CPL_RESEND (R101): the slots from CMDQ_QCPLHEAD on go out again (see log entry 70, DEDUCED). -/
def execCplResend (q : Nat) (s : State) : Host.Outcome State Fault Refusal :=
  let n := (s.cplIndex q + 2 ^ 32 - s.reg .CMDQ_QCPLHEAD q) % 2 ^ 32
  .next (if s.overUdp q ∧ n ≠ 0 then s.send (.cpl q (s.reg .CMDQ_QCPLHEAD q) n (s.peerOf q)) else s)

/-! Grenlink messages (R102). -/

/-- A completion record outside ring order: the flight stands before every other of its queue. -/
def State.extraRecord (s : State) (q seq cls code p st result : Nat) : State :=
  let f : Flight := { id := s.cq.nextId, queue := q, seq := seq % 2 ^ 32, cls := cls, code := code, partition := p,
                      last := true, sig := none, status := some st, result := result % 2 ^ 64 }
  ({ s with cq := { s.cq with flight := f :: s.cq.flight, nextId := s.cq.nextId + 1 } }).retire q p

/-- GLK_MESSAGE_RX (R82, R102, R296): a message for another member whose checks 1 to 3 pass goes on where a route exists; any other is
written to the ring, where its checks reject it or it runs, or completes REJECTED_QUEUE_FULL. A header whose CRC fails is dropped and counted
(Table CMDQ-3) (see log entry 16, DEDUCED). -/
def execGlkMessageRx (cls code : Nat) (p : Packet) (s : State) : Host.Outcome State Fault Refusal :=
  let o : Opcode := ⟨cls, code⟩
  .next (if p.hcrc ≠ hcrcOf o p then (s.cmdqError F.CMDQ_ERR_HCRC p.queue none).addFld F.CMDQ_ERRCNT_HCRC_CNT 1
    else if s.fnUsable fnGlk = false then s
    else if s.forwards o p then s.toMember (p.destDev % 64) (.forward p.destDev cls code p)
    else if 8192 ≤ p.queue ∨ s.fld F.CMDQ_QCFG_TRANSPORT p.queue ≠ 3 ∨ s.qState p.queue ≠ stRunning then s
    else if s.subFits p.queue (pSlots p) then (s.acceptFn fnGlk).takeIn o p (initiator 0xA p.partition)
    else s.extraRecord p.queue p.seq cls code p.partition csQueueFull 0)

/-! Queue states (R93, R492). -/

/-- The oldest flight of a queue is done and its record is lost; its signal is applied (R492). -/
def State.loseRecord (s : State) (q : Nat) : State :=
  match (s.cq.flight.find? (fun f => f.queue == q)).bind (fun f => f.status.map (fun st => (f, st))) with
  | some (f, st) => s.depart f st false
  | none => s

/-- RING_ACCESS_FAULT (R492): a queue that is OFF makes no access (see log entry 12, DEDUCED). -/
def execRingAccessFault (q : Nat) (write : Bool) (initiator : Nat) (s : State) : Host.Outcome State Fault Refusal :=
  .next (if s.qState q = stOff then s
    else if write then (s.ringFault q initiator).loseRecord q else s.ringFault q initiator true)

/-- R93, R274: packets of the queue that have not started and are held complete with a status; a SYNC_WAIT has started
(see log entry 10, DEDUCED). -/
def State.flushQueue (s : State) (q st : Nat) : State :=
  let mine := fun (i : Instr) => (packetOf i).any (fun p => p.queue == q)
  let held := (s.cq.held.filter mine).filterMap (fun i => (packetOf i).map (fun p => (opcodeOf i, p)))
  let t := { s with cq := { s.cq with held := s.cq.held.filter (fun i => !mine i) } }
  held.foldl (fun u e => u.endPacket { op := e.1 } e.2 st) t

/-- R93: EN cleared moves a RUNNING or FAULT queue to DRAINING. -/
def State.drainQueue (s : State) (q : Nat) : State :=
  if s.qState q == stRunning || s.qState q == stFault then
    let t := (s.putFld F.CMDQ_QCFG_EN 0 q).putFld F.CMDQ_QSTAT_STATE stDraining q
    ((t.flushQueue q csState).toRead q).retire q (s.qPart q)
  else s

/-- R93: EN set on an OFF queue makes it RUNNING with an empty ring. -/
def State.enableQueue (s : State) (q : Nat) : State :=
  if s.qState q = stOff then
    let t := ((s.putFld F.CMDQ_QCFG_EN 1 q).setReg .CMDQ_QTAIL (s.reg .CMDQ_QHEAD q) q).putFld F.CMDQ_QSTAT_STATE stRunning q
    { t with cq := { t.cq with stuck := t.cq.stuck.filter (fun k => k != q), ended := t.cq.ended.filter (fun e => e.1 != q) } }
  else s

/-- R114: a write of CMDQ_QCFG: all of it from partition 0, EN alone from the owner, else a bus error. Setting EN of a DRAINING
or FAULT queue changes nothing (R93). While FN_MGMT reads STOPPED it is staged (R38). -/
def State.writeQcfg (s : State) (q : Nat) (w : RegWrite) : State :=
  if s.ofPart w.initiator (s.qPart q) = false then s.busErr
  else if s.regStopped .CMDQ_QCFG q then
    s.stageReg .CMDQ_QCFG q 0 (mixBits (s.seen .CMDQ_QCFG q 0) w.value (if s.p0 w.initiator then spanMask 31 0 else spanMask 31 31)) w.initiator
  else if w.value.testBit 31 && (s.qState q == stDraining || s.qState q == stFault) then s.accessed
  else
    let t := if s.p0 w.initiator then
      s.setReg .CMDQ_QCFG (2 ^ 31 * s.fld F.CMDQ_QCFG_EN q + w.value % 2 ^ 31) q else s
    (if w.value.testBit 31 then t.enableQueue q else t.drainQueue q).accessed

/-- QUEUE_ENABLE (R93): a write of CMDQ_QCFG that sets EN. -/
def execQueueEnable (q : Nat) (w : RegWrite) (s : State) : Host.Outcome State Fault Refusal :=
  .next (if q < 8192 then s.writeQcfg q { w with value := w.value % 2 ^ 31 + 2 ^ 31 } else s.busErr)

/-- QUEUE_DISABLE (R93): a write of CMDQ_QCFG that clears EN. -/
def execQueueDisable (q : Nat) (w : RegWrite) (s : State) : Host.Outcome State Fault Refusal :=
  .next (if q < 8192 then s.writeQcfg q { w with value := w.value % 2 ^ 31 } else s.busErr)

/-- R265: the context of a partition that a queue lies in. -/
def State.ctxOf (s : State) (p q : Nat) : Option Nat :=
  (List.range 16).find? (fun k => decide (s.fld F.ESC_CTX_QBASE p k ≤ q ∧ q < s.fld F.ESC_CTX_QBASE p k + s.fld F.ESC_CTX_QCOUNT p k))

/-- R275: a FAULT context whose queues are all OFF reads READY; the watchdogs that waited for it take start events again (R443). -/
def State.ctxRecover (s : State) (p k : Nat) : State :=
  if s.ctxState p k = stFault ∧ (List.range (s.fld F.ESC_CTX_QCOUNT p k)).all
      (fun n => s.qState (s.fld F.ESC_CTX_QBASE p k + n) == stOff) then
    { s.putFld F.ESC_CTX_STATE stReady p k with
      safe := { s.safe with blocked := s.safe.blocked.filter (fun e => e.2 != (p, k)) } }
  else s

/-- R93: nothing remains in a queue: no packet in flight or held, and none in its ring unless the head cannot be read
(see log entry 10, DEDUCED). -/
def State.queueEmpty (s : State) (q : Nat) : Bool :=
  s.qFlights q == 0 && !s.qHeld q && (s.qAvail q == 0 || s.cq.stuck.contains q)

/-- QUEUE_DRAINED (R93, R275) (see log entry 10, DEDUCED). -/
def execQueueDrained (q : Nat) (s : State) : Host.Outcome State Fault Refusal :=
  .next (if s.qState q = stDraining ∧ s.queueEmpty q = true then
      let t := s.putFld F.CMDQ_QSTAT_STATE stOff q
      match t.ctxOf (t.qPart q) q with
      | some k => t.ctxRecover (t.qPart q) k
      | none => t
    else s)

/-- CPL_HEAD_WRITE (R94, R114). -/
def execCplHeadWrite (q : Nat) (w : RegWrite) (s : State) : Host.Outcome State Fault Refusal :=
  .next (if 8192 ≤ q ∨ s.ofPart w.initiator (s.qPart q) = false then s.busErr
    else ((s.setReg .CMDQ_QCPLHEAD (w.value % 2 ^ 32) q).retire q (s.qPart q)).accessed)

/-! SYNC registers. -/

/-- SYNC_ADD_WRITE (R106, R107): a write of 0 has no effect. -/
def execSyncAddWrite (n : Nat) (w : RegWrite) (s : State) : Host.Outcome State Fault Refusal :=
  .next (if 65536 ≤ n then s.busErr
    else if s.p0 w.initiator || (!isP0 w.initiator && s.ownsCtr (iInst w.initiator) n) then
      (if w.value % 2 ^ 32 = 0 then s else s.signal n (w.value % 2 ^ 32)).accessed
    else (s.syncRefuse F.SYNC_STATUS_DENIED w.initiator n).busErr)

/-- R111: a write of SYNC_WATCHCFGk; FIRED is cleared by writing 1. A watch armed on a wait already satisfied fires at once. -/
def State.writeWatch (s : State) (k : Nat) (w : RegWrite) : State :=
  let c := w.value % 65536
  let o := s.watchOwner k
  if s.ofPart w.initiator o = false then (s.syncRefuse F.SYNC_STATUS_DENIED w.initiator c).busErr
  else if s.ownsCtr o c = false then (s.syncRefuse F.SYNC_STATUS_DENIED w.initiator c).busErr
  else
    let fired := if w.value.testBit 30 then 0 else s.fld F.SYNC_WATCHCFG_FIRED k
    let t := s.setReg .SYNC_WATCHCFG (2 ^ 31 * (w.value % 2 ^ 32 / 2 ^ 31) + 2 ^ 30 * fired + 2 ^ 28 * bitsOf w.value 29 28 +
      w.value % 2 ^ 27) k
    (t.fireWatch k).accessed

/-- WATCH_ARM (R111). -/
def execWatchArm (k : Nat) (w : RegWrite) (s : State) : Host.Outcome State Fault Refusal :=
  .next (if k < 256 then s.writeWatch k w else s.busErr)

/-- Two ranges of counters overlap. -/
def rangesMeet (b c b' c' : Nat) : Bool := decide (b < b' + c' ∧ b' < b + c)

/-- R115: the value written to SYNC_RANGEk may not pass counter 65,535 nor overlap another enabled range, as the ranges read. -/
def State.rangeBad (s : State) (k v : Nat) : Bool :=
  let base := v % 65536
  let count := bitsOf v 33 17
  decide (65536 < base + count) || (v.testBit 63 && (List.range 64).any (fun m =>
    let x := s.seen .SYNC_RANGE m 0
    m != k && x.testBit 63 && rangesMeet base count (x % 65536) (bitsOf x 33 17)))

/-- SYNC_RANGE_WRITE (R115): partition 0 only; while FN_MGMT reads STOPPED it is staged (R38). SYNC_STATUS.COUNTER takes the BASE written of
a refused write (see log entry 93, DESIGN CHOICE). -/
def execSyncRangeWrite (k : Nat) (w : RegWrite) (s : State) : Host.Outcome State Fault Refusal :=
  .next (if 64 ≤ k ∨ s.p0 w.initiator = false then s.busErr
    else if s.rangeBad k w.value then (s.syncRefuse F.SYNC_STATUS_RANGE_REFUSED w.initiator (w.value % 65536)).accessed
    else
      let v := 2 ^ 63 * b2n (w.value.testBit 63) + 2 ^ 34 * bitsOf w.value 39 34 + 2 ^ 17 * bitsOf w.value 33 17 + w.value % 65536
      s.paramWrite true .SYNC_RANGE k 0 v w.initiator (s.setReg .SYNC_RANGE v k))

end Sys2Proof.Machine
end

