-- ==== Sys2Proof/Machine/Packets.lean ====
section
/-! DEFINITION. The packets of classes QUEUE, MEM and SYNC (file 03: R84 to R90, R107 to R110, R491). -/

namespace Sys2Proof.Machine

/-! QUEUE. -/

/-- The checks of NOP. -/
def nopRule (p : Packet) : Rule where
  op := ⟨0, 0⟩
  format := p.target == 0

/-- NOP (R85). -/
def execNop (p : Packet) (s : State) : Host.Outcome State Fault Refusal :=
  .next (runPacket (.nop p) (nopRule p) p (doneBody csDone 0) s)

/-! Objects (R86 to R89). -/

/-- The object a partition names by a handle. -/
def State.obj? (s : State) (p h : Nat) : Option Obj := s.objs.find? (fun b => b.partition == p && b.handle == h)

/-- An object replaced. -/
def State.setObj (s : State) (b : Obj) : State :=
  { s with objs := s.objs.map (fun x => if x.partition = b.partition ∧ x.handle = b.handle then b else x) }

/-- The object that a packet's handle reference names. -/
def State.pObj (s : State) (p : Packet) : Option Obj := s.obj? p.partition (pHandle p)

/-- Where pieces of memory that objects hold and a region (start, end) leave room: the gaps in rising order, from 64-byte boundaries on
(see log entry 14, DESIGN CHOICE). -/
def gapsIn (held : List (Nat × Nat)) (r : Nat × Nat) : List (Nat × Nat) :=
  let starts := (r.1 :: sortNat (held.map (fun o => o.1 + o.2))).map (fun b => roundUp b 64)
  let free := starts.filter (fun a => decide (r.1 ≤ a ∧ a < r.2) && held.all (fun o => decide (a < o.1 ∨ o.1 + o.2 ≤ a)))
  free.dedup.map (fun a => (a, (held.filter (fun o => decide (a ≤ o.1))).foldl (fun m o => min m (o.1 - a)) (r.2 - a)))

/-- The first pieces of the gaps that make up a size. -/
def gather : List (Nat × Nat) → Nat → Option (List (Nat × Nat))
  | _, 0 => some []
  | [], _ + 1 => none
  | (a, n) :: l, size => if size ≤ n then some [(a, size)] else (gather l (size - n)).map (fun ps => (a, n) :: ps)

/-- First fit: the first gap that holds the size, else the first gaps that together do (see log entry 14, DESIGN CHOICE). -/
def firstFit (held : List (Nat × Nat)) (regions : List (Nat × Nat)) (size : Nat) : Option (List (Nat × Nat)) :=
  let gaps := regions.flatMap (gapsIn held)
  match gaps.find? (fun e => decide (size ≤ e.2)) with
  | some (a, _) => some [(a, size)]
  | none => gather (gaps.map (fun e => (e.1, e.2 / 64 * 64))) size

/-- Pieces meet a range. -/
def piecesMeet (ps : List (Nat × Nat)) (lo hi : Nat) : Bool := ps.any (fun e => decide (e.1 < hi ∧ lo < e.1 + e.2))

/-- R87, R127: where objects of a context may lie: the partition's SMEM granules outside bank group 0 that hold no object of another context,
whose teardown scrubs whole granules (R129), or the partition's DRAM (see log entry 14, DESIGN CHOICE). -/
def State.objRegions (s : State) (p ctx : Nat) (smem : Bool) : List (Nat × Nat) :=
  match s.dev.settings with
  | none => []
  | some t =>
    if smem then
      ((t.smemGranules.filter (fun g => g.2 == p && decide (16 ≤ g.1))).map (fun g => (0x100000 * g.1, 0x100000 * (g.1 + 1)))).filter
        (fun r => s.objs.all (fun o => (o.partition == p && o.context == ctx) || !piecesMeet o.parts r.1 r.2))
    else (t.dramShare.filter (fun d => d.1 == p)).map (fun d => (d.2.1, d.2.1 + d.2.2))

/-- The function whose memory an object lies in. -/
def placeFn (smem : Bool) : Nat := if smem then fnSmem else fnDram

/-- Format of OBJ_CREATE: 32 bytes, a handle reference without offset, zero after PLACE. -/
def objCreateRule (p : Packet) : Rule where
  op := ⟨2, 0x10⟩
  format := pIsHandle p && pOffset p == 0 && p.plen == 1 && pZero p 13 32
  fn := some (placeFn (pNum p 12 1 == 1), none)

/-- The object that an OBJ_CREATE makes of pieces of memory. -/
def newObj (p : Packet) (ctx : Nat) (parts : List (Nat × Nat)) : Obj where
  partition := p.partition
  context := ctx
  handle := pHandle p
  size := pNum p 0 8
  crc := pNum p 8 4
  smem := pNum p 12 1 == 1
  parts := parts

/-- R87: the allocation, or the detail that refuses it. -/
def objCreateBody (p : Packet) (id : Nat) (s : State) : State :=
  let size := pNum p 0 8
  let smem := pNum p 12 1 == 1
  if 1 < pNum p 12 1 ∨ size = 0 ∨ 2 ^ 36 < size then s.finish id csFormat 0
  else if (s.pObj p).isSome then s.finish id csFormat 0x0100
  else
    let ctx := (s.ctxOf p.partition p.queue).getD 0
    match firstFit (s.objs.flatMap (·.parts)) (s.objRegions p.partition ctx smem) size with
    | none => s.finish id csFormat 0x0200
    | some ps => ({ s with objs := s.objs ++ [newObj p ctx ps] }).finish id csDone 0

/-- OBJ_CREATE (R87) (see log entry 14, DESIGN CHOICE). -/
def execObjCreate (p : Packet) (s : State) : Host.Outcome State Fault Refusal :=
  .next (runPacket (.objCreate p) (objCreateRule p) p (objCreateBody p) s)

/-- A packet that names an existing object by handle. -/
def objRule (o : Opcode) (p : Packet) (s : State) (format : Bool) (writes : Bool := false) : Rule where
  op := o
  writes := if writes then some (pHandle p) else none
  format := pIsHandle p && format
  permit := (s.pObj p).isSome
  fn := (s.pObj p).map (fun b => (placeFn b.smem, none))

/-- The pieces that hold n bytes of an object from an offset on. -/
def Obj.pieces (b : Obj) (off n : Nat) : List (Nat × Nat) := piecesOf b.parts off n

/-- Bytes within an object are written; those beyond its size are not (R88). -/
def State.fillObj (s : State) (b : Obj) (off : Nat) (data : List Byte) : State :=
  s.writePieces (b.pieces off (min data.length (b.size - off))) data

/-- R88: payload bytes within the object are written; the object is invalid after them. -/
def State.writeObj (s : State) (b : Obj) (off : Nat) (data : List Byte) : State :=
  (s.fillObj b off data).setObj { b with valid := false }

/-- What a flight that completes later reads with the bytes read, and how many it wrote. -/
def State.waitRead (s : State) (id : Nat) (ps : List (Nat × Nat)) (n : Nat) (ext : List Byte := []) : State :=
  { s with cq := { s.cq with flight := s.cq.flight.map (fun f =>
    if f.id = id then { f with reads := ps, len := n, ext := ext } else f) } }

/-- R88, R89: the write; with LAST the CRC pass starts and ends later. -/
def objWriteBody (p : Packet) (id : Nat) (s : State) : State :=
  match s.pObj p with
  | none => s.finish id csFirewall 8
  | some b =>
    if b.size ≤ pOffset p then s.finish id csFormat 0
    else if pLast p then
      ((s.fillObj b (pOffset p) p.payload).setObj { b with pass := b.pass ++ [id] }).waitRead
        id [] (min p.payload.length (b.size - pOffset p))
    else (s.writeObj b (pOffset p) p.payload).finish id csDone (min p.payload.length (b.size - pOffset p))

/-- OBJ_WRITE (R88, R89) (see log entry 14, DESIGN CHOICE). -/
def execObjWrite (p : Packet) (s : State) : Host.Outcome State Fault Refusal :=
  .next (runPacket (.objWrite p) (objRule ⟨2, 0x11⟩ p s true true) p (objWriteBody p) s)

/-- R89: a CRC pass ends: with an uncorrectable error at an offset the packet fails with FAULT_ECC and the object is invalid (R128, R133),
else by the CRC; RESULT of a match is the bytes that the LAST packet wrote. -/
def State.endPass (s : State) (b : Obj) (id : Nat) (ue : Option Nat) : State :=
  let init := initiator 6 b.partition
  let t := s.chargePieces init (b.pieces 0 b.size)
  let left := b.pass.filter (fun f => f != id)
  match ue with
  | some k => ((t.uncorrectable (pieceAddr (b.pieces 0 b.size) k b.size) 0 b.partition).setObj { b with valid := false, pass := left }).complete
      id csEcc 0
  | none =>
    let ok := crc32c ((s.keyed init).readPieces (b.pieces 0 b.size)) == b.crc
    let n := ((s.cq.flight.find? (fun f => f.id == id)).map (·.len)).getD 0
    let t := t.setObj { b with valid := ok, pass := left }
    if ok then t.complete id csDone n else t.complete id csFormat 0x0300

/-- OBJ_CRC_PASS_DONE (R89): the pass runs once every earlier packet of the queue that writes the object has completed, and waits for a scrub
of what it reads (R129). ue: the offset at which it meets an uncorrectable error. -/
def execObjCrcPassDone (partition handle : Nat) (ue : Option Nat) (s : State) : Host.Outcome State Fault Refusal :=
  .next (match s.obj? partition handle with
    | some b =>
      match s.passOf b with
      | some id => if s.underScrub (b.pieces 0 b.size) then s else s.endPass b id ue
      | none => s
    | none => s)

/-- R87: the object and its handle are freed; one whose CRC pass runs is not in a state that accepts it. -/
def objFreeBody (p : Packet) (id : Nat) (s : State) : State :=
  match s.pObj p with
  | some b =>
    if !b.pass.isEmpty then s.finish id csState 0
    else ({ s with objs := s.objs.filter (fun x => !(x.partition == b.partition && x.handle == b.handle)) }).finish id csDone 0
  | none => s.finish id csFirewall 8

/-- OBJ_FREE (R87) (see log entry 14, DESIGN CHOICE). -/
def execObjFree (p : Packet) (s : State) : Host.Outcome State Fault Refusal :=
  .next (runPacket (.objFree p) (objRule ⟨2, 0x12⟩ p s (pOffset p == 0 && p.plen == 0)) p (objFreeBody p) s)

/-! Memory by physical address or handle. -/

/-- The function that serves a physical address. -/
def State.addrFn (s : State) (a : Nat) : Nat :=
  match s.region (s.localAddr a) with
  | .smem => fnSmem
  | .dram => fnDram
  | .peer => fnGlk
  | .pcie => fnPcie
  | _ => fnMgmt

/-- R86: TARGET of a MEM packet: a 32-byte aligned physical address with bits 62:48 zero, or a handle reference
(see log entry 15, DEDUCED). -/
def memTargetOk (p : Packet) : Bool := pIsHandle p || (p.target < 2 ^ 48 && p.target % 32 == 0)

/-- The rule of a MEM packet that accesses n bytes (see log entry 15, DEDUCED). -/
def memRule (o : Opcode) (p : Packet) (s : State) (n : Nat) (write format : Bool) (ext : Nat) : Rule where
  op := o
  format := memTargetOk p && format
  ext := ext
  permit := !pIsHandle p || (s.pObj p).isSome
  access := if pIsHandle p then [] else [(p.target, max n 1, write)]
  writes := if write && pIsHandle p then some (pHandle p) else none
  fn := if pIsHandle p then (s.pObj p).map (fun b => (placeFn b.smem, none)) else some (s.addrFn p.target, none)

/-- R118: the channel that carries a packet's bytes: the lowest of the Escapement's that is idle (see log entry 98, DESIGN CHOICE). -/
def State.packetChannel (s : State) : Option Nat :=
  (List.range 16).find? (fun c => !(s.reg .DMA_FWMASK).testBit c && s.fld F.DMA_STAT_STATE c != 1 &&
    s.esc.kernels.all (fun k => !(k.cls == 6 && k.unit == some c)))

/-- R118, R149: a MEM packet's bytes move over a General DMA channel, a transfer to each piece of at most 4 GiB; the channel shows the last
one, or the one that meets an uncorrectable error at an offset. The packet's own end of it, where the Escapement keeps the bytes, is a free
value, or the pattern of a fill (see log entry 98, DESIGN CHOICE). -/
def State.viaChannel (s : State) (part : Nat) (write : Bool) (pattern : Option Nat) (ps : List (Nat × Nat)) (bad : Option Nat := none) : State :=
  match s.packetChannel, pieceAt ps (bad.getD ((ps.map (·.2)).sum - 1)) with
  | some c, some (a, n, k) =>
    let a := a + k / 2 ^ 32 * 2 ^ 32
    let n := min (2 ^ 32) (n - k / 2 ^ 32 * 2 ^ 32)
    let own := pattern.getD (s.freeNat 48)
    (if pattern.isSome then s else s.drawFree).loadRegs [(.DMA_SRC, c, 0, if write then own else a), (.DMA_DST, c, 0, if write then a else own),
      (.DMA_LEN, c, 0, n), (.DMA_CTL, c, 0, 2 ^ 30 * b2n pattern.isSome + 2 ^ 22 * part),
      (.DMA_STAT, c, 0, if bad.isSome then 2 ^ 29 * 3 + 2 ^ 16 * 9 else 2 ^ 29 * 2),
      (.DMA_DONE, c, 0, if bad.isSome then k % 2 ^ 32 else n)]
  | _, _ => s

/-- The bytes of a MEM packet land, at its address or in its object, which they make invalid (R89). -/
def memStore (p : Packet) (pattern : Option Nat) (data : List Byte) (id : Nat) (s : State) : State :=
  if pIsHandle p then
    match s.pObj p with
    | some b =>
      if b.size < pOffset p + data.length then s.finish id csFormat 0
      else ((s.writeObj b (pOffset p) data).viaChannel p.partition true pattern (b.pieces (pOffset p) data.length)).finish id csDone data.length
    | none => s.finish id csFirewall 8
  else ((s.writeBytes p.target data).viaChannel p.partition true pattern [(p.target, data.length)]).finish id csDone data.length

/-- MEM_WRITE (R86, Table CMDQ-5): RESULT is the bytes written. -/
def execMemWrite (p : Packet) (s : State) : Host.Outcome State Fault Refusal :=
  .next (runPacket (.memWrite p) (memRule ⟨2, 1⟩ p s p.payload.length true true 0) p (memStore p none p.payload) s)

/-- R491: byte j of a filled range takes pattern byte j mod 8. -/
def fillBytes (pattern n : Nat) : List Byte :=
  (List.range n).map (fun j => BitVec.ofNat 8 (pattern / 2 ^ (8 * (j % 8))))

/-- R491: the format of MEM_FILL. -/
def memFillFormat (p : Packet) : Bool :=
  p.plen == 1 && decide (1 ≤ pNum p 0 8 ∧ pNum p 0 8 ≤ 2 ^ 36) && pZero p 16 32

/-- MEM_FILL (R491). -/
def execMemFill (p : Packet) (s : State) : Host.Outcome State Fault Refusal :=
  .next (runPacket (.memFill p) (memRule ⟨2, 3⟩ p s (pNum p 0 8) true (memFillFormat p) 0) p
    (memStore p (some (pNum p 8 8)) (fillBytes (pNum p 8 8) (pNum p 0 8))) s)

/-- R491: the format of MEM_READ. -/
def memReadFormat (p : Packet) : Bool :=
  p.plen == 1 && decide (32 ≤ pNum p 0 8 ∧ pNum p 0 8 ≤ 65472) && pZero p 8 32

/-- A read of n bytes in pieces: FAULT_ECC on an uncorrectable error at an offset (R128); one of a granule under scrub waits for its end
and returns zero there (R129). -/
def readBody (ps : List (Nat × Nat)) (n part : Nat) (ue : Option Nat) (id : Nat) (s : State) : State :=
  let t := s.chargePieces (initiator 6 part) ps
  match ue with
  | some k => ((t.uncorrectable (pieceAddr ps k n) 0 part).viaChannel part false none ps (some (k % max n 1))).finish id csEcc 0
  | none =>
    if s.underScrub ps then (t.viaChannel part false none ps).waitRead id ps n (s.readPieces ps)
    else (t.viaChannel part false none ps).finish id csDone n (s.readPieces ps)

/-- R86, R89, R90: the read; an invalid object is refused. -/
def memReadBody (p : Packet) (ue : Option Nat) (id : Nat) (s : State) : State :=
  let n := pNum p 0 8
  if pIsHandle p then
    match s.pObj p with
    | some b =>
      if b.size < pOffset p + n then s.finish id csFormat 0
      else if b.valid then readBody (b.pieces (pOffset p) n) n p.partition ue id s
      else s.finish id csState 0
    | none => s.finish id csFirewall 8
  else readBody [(p.target, n)] n p.partition ue id s

/-- MEM_READ (R90, R491). ue: the offset at which the read meets an uncorrectable error. -/
def execMemRead (p : Packet) (ue : Option Nat) (s : State) : Host.Outcome State Fault Refusal :=
  .next (runPacket (.memRead p ue) (memRule ⟨2, 2⟩ p s (pNum p 0 8) false (memReadFormat p) ((pNum p 0 8 + 31) / 32)) p
    (memReadBody p ue) s)

/-! SYNC. -/

/-- The rule of a SYNC packet: a counter in TARGET bits 15:0 that the partition owns (R106). -/
def syncRule (o : Opcode) (p : Packet) (s : State) (value : Bool) : Rule where
  op := o
  format := pTargetBits p 16 && (if value then p.plen == 1 && pZero p 8 32 else p.plen == 0)
  permit := s.ownsCtr p.partition p.target
  fn := some (fnMgmt, none)

/-- The flight adds to a counter when it completes (R103 rule 5) (see log entry 13, DEDUCED). -/
def State.addAtEnd (s : State) (id c n : Nat) : State :=
  { s with cq := { s.cq with flight := s.cq.flight.map (fun f => if f.id = id then { f with add := some (c, n) } else f) } }

/-- SYNC_ADD (R107): the add is a signal, applied at completion; RESULT is the new value. -/
def execSyncAdd (p : Packet) (s : State) : Host.Outcome State Fault Refusal :=
  .next (runPacket (.syncAdd p) (syncRule ⟨3, 1⟩ p s true) p
    (fun id t => (t.addAtEnd id p.target (pNum p 0 8)).finish id csDone 0) s)

/-- R110: an operation-table entry, a SYNC_WAIT or an armed watch waits on the counter. -/
def State.waitedOn (s : State) (c : Nat) : Bool :=
  s.esc.kernels.any (fun k => k.ready.isNone && k.waitEn && k.waitCtr == c) ||
    (heldHeads s.cq.held []).any (fun p => pWaitEn p && p.waitCtr == c && !s.cq.waitMet.contains p.queue) ||
    s.cq.flight.any (fun f => f.waitsOn c) ||
    (List.range 256).any (fun k => s.flag F.SYNC_WATCHCFG_ARMED k && s.fld F.SYNC_WATCHCFG_COUNTER k == c)

/-- SYNC_SET (R107, R110): not a signal; RESULT is the old value. -/
def syncSetBody (p : Packet) (id : Nat) (s : State) : State :=
  if s.waitedOn p.target then s.finish id csState 0
  else (s.setReg .SYNC_CTR (pNum p 0 8) p.target).finish id csDone (s.reg .SYNC_CTR p.target)

/-- SYNC_SET (R110). -/
def execSyncSet (p : Packet) (s : State) : Host.Outcome State Fault Refusal :=
  .next (runPacket (.syncSet p) (syncRule ⟨3, 2⟩ p s true) p (syncSetBody p) s)

/-- SYNC_READ (Table CMDQ-5): RESULT is the value. -/
def execSyncRead (p : Packet) (s : State) : Host.Outcome State Fault Refusal :=
  .next (runPacket (.syncRead p) (syncRule ⟨3, 3⟩ p s false) p
    (fun id t => t.finish id csDone (t.reg .SYNC_CTR p.target)) s)

/-- R108: the wait, or its completion at once with the value at release. -/
def syncWaitBody (p : Packet) (id : Nat) (s : State) : State :=
  if s.fullMet p.target (pNum p 0 8) then s.finish id csDone (s.reg .SYNC_CTR p.target)
  else { s with cq := { s.cq with flight := s.cq.flight.map (fun f =>
    if f.id = id then { f with waitCtr := p.target, waitVal := pNum p 0 8 } else f) } }

/-- SYNC_WAIT (R108) (see log entry 13, DEDUCED). -/
def execSyncWait (p : Packet) (s : State) : Host.Outcome State Fault Refusal :=
  .next (runPacket (.syncWait p) (syncRule ⟨3, 4⟩ p s true) p (syncWaitBody p) s)

/-- SYNC_WAIT_SATISFIED (R108): a held SYNC_WAIT whose wait was met completes with the value at release (see log entry 13, DEDUCED). -/
def execSyncWaitSatisfied (q seq : Nat) (s : State) : Host.Outcome State Fault Refusal :=
  let t := s.undue (.syncWaitSatisfied q seq)
  .next (match s.cq.flight.find? (fun f =>
      f.queue == q && f.seq == seq && f.cls == 3 && f.code == 4 && f.waitMet && f.status.isNone) with
    | some f => t.complete f.id csDone f.result
    | none => t)

end Sys2Proof.Machine
end

