-- ==== Sys2Proof/Machine/KvTables.lean ====
section
/-! DEFINITION. The tables of the KV cache in memory: pages, layouts, sequence entries, page lists and owners (R204 to R210,
R226, R227). -/

namespace Sys2Proof.Machine

/-- The word that marks a private row, an empty ring slot or the end of a list. -/
abbrev noneWord : Nat := 0xFFFFFFFF

/-! Layouts (R205, R206). -/

/-- P, the tokens per page. -/
def State.layP (s : State) (l : Nat) : Nat := 2 ^ s.fld F.ADMA_LAYOUT_P_LOG2 l

/-- The bytes of a token row. -/
def State.layRow (s : State) (l : Nat) : Nat := 0x8000 / s.layP l

def State.layFull (s : State) (l : Nat) : Nat := s.fld F.ADMA_LAYOUT_NL_FULL l
def State.layRing (s : State) (l : Nat) : Nat := s.fld F.ADMA_LAYOUT_NL_RING l
def State.layWPages (s : State) (l : Nat) : Nat := s.fld F.ADMA_LAYOUT_W_PAGES l

/-- Bytes per stored element. -/
def State.layEsize (s : State) (l : Nat) : Nat := actSize (s.fld F.ADMA_LAYOUT_KFMT l)
where
  /-- BF16 takes two bytes. -/
  actSize (k : Nat) : Nat := if k = 4 then 2 else 1

/-- R206: pages that storing block j takes. -/
def State.demand (s : State) (l j : Nat) : Nat := s.layFull l + if j < s.layWPages l then s.layRing l else 0

/-! Sequence entries (R208, Table ADMA-1). -/

/-- The address of a sequence's entry. -/
def State.seqAddr (s : State) (p q : Nat) : Nat := s.fld F.ADMA_SEQTAB_BASE p * 64 + 64 * q

/-- The sequence ID is below the partition's count. -/
def State.seqExists (s : State) (p q : Nat) : Bool := q < s.reg .ADMA_SEQCNT p

/-- A field of a sequence's entry. -/
def State.seqNum (s : State) (p q off n : Nat) : Nat := s.sysNum (s.seqAddr p q + off) n

def State.seqState (s : State) (p q : Nat) : Nat := s.seqNum p q 0x00 1
def State.seqLayout (s : State) (p q : Nat) : Nat := s.seqNum p q 0x01 1
def State.seqFlags (s : State) (p q : Nat) : Nat := s.seqNum p q 0x02 2
def State.seqLength (s : State) (p q : Nat) : Nat := s.seqNum p q 0x04 4
def State.seqPosBase (s : State) (p q : Nat) : Nat := s.seqNum p q 0x08 4
def State.seqBlocks (s : State) (p q : Nat) : Nat := s.seqNum p q 0x0C 4
def State.seqPlist (s : State) (p q : Nat) : Nat := s.seqNum p q 0x10 8
def State.seqCap (s : State) (p q : Nat) : Nat := s.seqNum p q 0x18 4
def State.seqLastNode (s : State) (p q : Nat) : Nat := s.seqNum p q 0x1C 4
def State.seqRing (s : State) (p q : Nat) : Nat := s.seqNum p q 0x20 8
def State.seqTokens (s : State) (p q : Nat) : Nat := s.seqNum p q 0x28 8
def State.seqParkTime (s : State) (p q : Nat) : Nat := s.seqNum p q 0x30 8
def State.seqDemand (s : State) (p q : Nat) : Nat := s.seqNum p q 0x3A 2

/-- A field of a sequence's entry written. -/
def State.seqPut (s : State) (p q off n v : Nat) : State := s.sysWriteNum (s.seqAddr p q + off) n v

/-- Flags of a sequence's entry: 0 EVT_EN, 1 PRIVATE_ONLY, 2 IN_STEP, 3 CHAIN_BROKEN, 4 SWAP_BUSY. -/
def State.seqFlag (s : State) (p q b : Nat) : Bool := (s.seqFlags p q).testBit b

/-- A flag of a sequence's entry written. -/
def State.seqSetFlag (s : State) (p q b : Nat) (v : Bool) : State :=
  let f := s.seqFlags p q
  s.seqPut p q 2 2 (if f.testBit b = v then f else if v then f + 2 ^ b else f - 2 ^ b)

/-- R209: the address of word w of block row j. -/
def State.rowAddr (s : State) (p q j w : Nat) : Nat :=
  s.seqPlist p q + 4 * (1 + s.layFull (s.seqLayout p q)) * j + 4 * w

/-- R209: the address of slot k of ring layer l. -/
def State.ringAddr (s : State) (p q l k : Nat) : Nat := s.seqRing p q + 4 * (l * s.layWPages (s.seqLayout p q) + k)

/-- R209: the token ID at a position. -/
def State.tokenAddr (s : State) (p q t : Nat) : Nat := s.seqTokens p q + 4 * (t - s.seqPosBase p q)

/-! Owners (R220, R227). -/

/-- The partition that owns a page; 0xFF for a page on the stack. -/
def State.pageOwner (s : State) (page : Nat) : Nat := sparseGet (fun _ => 0xFF) s.kv.owner page

/-- A page's owner set. -/
def State.setOwner (s : State) (page o : Nat) : State :=
  { s with kv := { s.kv with owner := sparseSet (fun _ => 0xFF) s.kv.owner page o } }

/-- An owner check failed: ADMA_STATUS.OWNER with the initiator of the first. -/
def State.ownerFail (s : State) (init : Nat) : State :=
  let t := if s.flag F.ADMA_STATUS_OWNER then s else s.putFld F.ADMA_STATUS_INITIATOR init
  t.setFlag F.ADMA_STATUS_OWNER

/-- ADMA_FAULT of an engine: the cause, the partition served and the sequence. -/
def State.admaFault (s : State) (e cause p q : Nat) : State :=
  s.noteFault .ADMA_FAULT cause (2 ^ 24 * p + q % 2 ^ 24) e

/-- R213: the fields of a row map entry. -/
structure RowEntry where
  pos : Nat
  seq : Nat
  first : Bool
  last : Bool
  valid : Bool
  deriving DecidableEq, Repr

/-- A row map entry read from memory. -/
def State.rowEntry (s : State) (rowmap r : Nat) : RowEntry :=
  let v := s.num (rowmap + 8 * r) 8
  { pos := v % 2 ^ 32, seq := bitsOf v 55 32, first := v.testBit 60, last := v.testBit 62, valid := v.testBit 63 }

/-- R219: the page that holds block j of a layer of a sequence. -/
def State.blockPage (s : State) (p q j layer : Nat) (ring : Bool) : Nat :=
  if ring then s.sysNum (s.ringAddr p q layer (j % s.layWPages (s.seqLayout p q))) 4
  else s.sysNum (s.rowAddr p q j (1 + layer)) 4

end Sys2Proof.Machine
end

