-- ==== Sys2Proof/Machine/Ewp.lean ====
section
/-! DEFINITION. A Matrix Engine slot's accesses and counts, and the Element-wise Pipeline behind its drain (file 06: R179 to
R190; the Append Unit, R218 to R220). -/

namespace Sys2Proof.Machine

/-- The state after a part of an instruction, with the cause of a fault in it (Table ME-11). -/
abbrev Run := State × Option Nat

/-- The next part, unless a fault has ended the instruction. -/
def Run.next (r : Run) (f : State → Run) : Run := if r.2.isSome then r else f r.1

/-- A part run over a list of items in order, up to a fault. -/
def runAll {α : Type} (f : α → State → Run) : List α → State → Run
  | [], s => (s, none)
  | a :: l, s => (f a s).next (runAll f l)

/-- R207: every page of the pool that an ADMA access of a partition touches is the partition's. -/
def State.poolOwned (s : State) (cls part a n : Nat) : Bool :=
  let b := s.localAddr a
  cls != 3 || (List.range ((b + n - 1) / 0x10000 + 1 - b / 0x10000)).all (fun j =>
    let x := 0x10000 * (b / 0x10000 + j)
    !s.poolByte x || s.pageOwner (dramPage x) == part)

/-- An access of an engine of an initiator class; a denied or unmapped one ends with cause FIREWALL, an ADMA engine's of another partition's
page with cause OWNER (R207, R224). -/
def State.engCheck (s : State) (cls part a n : Nat) (write : Bool) : Run :=
  if s.memOk (initiator cls part) a n write then
    if s.poolOwned cls part a n then (if write then s else s.chargeRead (initiator cls part) a n, none)
    else (s.ownerFail (initiator cls part), some 0x20)
  else (s.recordDenial (initiator cls part) a n write, some 0x07)

/-- Bytes written by an engine. -/
def State.engWrite (s : State) (cls part a : Nat) (bs : List Byte) : Run :=
  (s.engCheck cls part a bs.length true).next (fun t => (t.writeBytes a bs, none))

/-! Slots. -/

/-- The store of a slot. -/
def State.meSt (s : State) (slot : Nat) : MeStore := s.me.stores.getD slot {}

/-- The store of a slot replaced. -/
def State.setSt (s : State) (slot : Nat) (x : MeStore) : State :=
  { s with me := { s.me with stores := s.me.stores.set slot x } }

/-- The kernel that runs on engine n of a class. -/
def State.kernelOn (s : State) (cls n : Nat) : Option Kernel :=
  s.esc.kernels.find? (fun k => k.cls == cls && k.unit == some n)

/-- The address of a base select and offset in 32-byte units (R155). -/
def State.meAddr (s : State) (slot bsel off : Nat) : Nat := s.fld F.ME_BASE_BASE slot bsel * 32 + 32 * off

/-- R155: what a slot's kernel reads; a denied access faults with FIREWALL. -/
def State.meCheck (s : State) (part a n : Nat) (write : Bool) : Run :=
  if s.memOk (initiator 1 part) a n write then (if write then s else s.chargeRead (initiator 1 part) a n, none)
  else (s.recordDenial (initiator 1 part) a n write, some 0x07)

/-- Bytes written by a slot's kernel. -/
def State.meWrite (s : State) (part a : Nat) (bs : List Byte) : Run :=
  (s.meCheck part a bs.length true).next (fun t => (t.writeBytes a bs, none))

/-- The counts and flags of a written output (R172, R179). -/
def State.meCount (s : State) (slot : Nat) (c : Converted) : State :=
  let s := if c.sat then (s.addFld F.ME_COUNTS_SAT_CNT 1 slot).setFlag F.ME_FLAGS_SAT slot else s
  let s := if c.nan then (s.addFld F.ME_COUNTS_NAN_CNT 1 slot).setFlag F.ME_FLAGS_NAN_OUT slot else s
  if c.inf then s.setFlag F.ME_FLAGS_INF slot else s

/-! The DCF in force (Table ME-4). -/

def dcfOfmt (d : Nat) : Nat := bitsOf d 25 22
def dcfEwp (d : Nat) : Bool := d.testBit 21
def dcfZp (d : Nat) : Bool := d.testBit 20
def dcfBias (d : Nat) : Bool := d.testBit 19
def dcfOutExp (d : Nat) : Int := signedOf 8 (bitsOf d 63 56)
def dcfOzp (d : Nat) : Nat := bitsOf d 55 48
def dcfAzp (d : Nat) : Int := signedOf 9 (bitsOf d 47 39)

/-- R173: the address of output row r, column c. -/
def State.outAddr (s : State) (slot d r c : Nat) : Nat :=
  s.meAddr slot (bitsOf d 17 16) (bitsOf d 95 64) + 32 * bitsOf d 13 0 * r + outSize (dcfOfmt d) * c

/-- An output converted, counted and written. -/
def State.meOut (s : State) (slot part d r c : Nat) (x : Converted) : Run :=
  (s.meCount slot x).meWrite part (s.outAddr slot d r c) (toLe (outSize (dcfOfmt d)) x.code)

/-! Arithmetic of the EWP (R180, R186). -/

/-- A binary32 NaN. -/
def isNan32 (a : Nat) : Bool := f32.decode a == .nan

/-- MAX: NaN if either operand is NaN; −0 is less than +0. -/
def ewpMax (a b : Nat) : Nat :=
  if isNan32 a || isNan32 b then f32.nanPat
  else if f32.lt a b then b else if f32.lt b a then a else if a = f32.signPat then b else a

/-- MIN, likewise. -/
def ewpMin (a b : Nat) : Nat :=
  if isNan32 a || isNan32 b then f32.nanPat
  else if f32.lt a b then a else if f32.lt b a then b else if b = f32.signPat then b else a

/-- R186: the pairwise sum of 2^k values. -/
def pairwise : Nat → List Nat → Nat
  | 0, l => l.headD 0
  | k + 1, l => f32.add (pairwise k (l.take (2 ^ k))) (pairwise k (l.drop (2 ^ k)))

/-- The value of a number below or at it as an integer, after scaling by 2^k. -/
def Num.floorAt (k : Int) : Num → Int
  | .fin neg m e =>
    let v : Int := if neg then -(m : Int) else m
    if 0 ≤ e + k then v * 2 ^ (e + k).toNat else v / (2 ^ (-(e + k)).toNat : Nat)
  | _ => 0

/-! Function tables (R183). -/

/-- A table in its segment range or past its edges: the value, and whether a clamp or an edge segment was taken
(see log entry 43, DESIGN CHOICE). -/
def tableEval (t : EwpTable) (x : Num) : Nat × Bool :=
  let i := ((x.add (f32.decode t.x0).neg).floorAt t.shift)
  if i < 0 ∧ t.loClamp then (t.lo, true)
  else if 63 < i ∧ t.hiClamp then (t.hi, true)
  else
    let j := (clampInt 0 63 i).toNat
    let edge := (f32.decode t.x0).add (Num.ofInt j (-t.shift))
    let u := f32.encode (x.add edge.neg)
    let c := t.segments.getD j (0, 0, 0, 0)
    (f32.fma (f32.fma (f32.fma c.2.2.2 u c.2.2.1) u c.2.1) u c.1, decide (i ≠ j))

/-- The exponent of a positive number's leading bit. -/
def Num.top : Num → Int
  | .fin _ m e => (Nat.log2 m : Int) + e
  | _ => 0

/-- R183: RSQRT's even power that brings x into 2^-6 to 2^6 (see log entry 43, DESIGN CHOICE). -/
def rsqrtPower (top : Int) : Int :=
  if 5 < top then (top - 5) + (top - 5) % 2 else if top < -6 then (top + 6) - (top + 6) % 2 else 0

/-- Slots 7 to 9: split, table, scaled by the matching power; none where the split does not exist or the manual gives no
matching power (see log entry 43, DESIGN CHOICE). -/
def reduced (slot : Nat) (t : EwpTable) (x : Num) : Option Nat :=
  match x with
  | .fin false (m + 1) e =>
    let y : Num := .fin false (m + 1) e
    match slot with
    | 7 =>
      let k := rsqrtPower y.top
      some (f32.encode ((f32.decode (tableEval t (y.scale (-k))).1).scale (-(k / 2))))
    | 8 => some (f32.encode ((f32.decode (tableEval t (y.scale (-y.top))).1).scale (-y.top)))
    | _ => if y.top = 0 then some (tableEval t y).1 else none
  | _ => none

/-- f_slot(v) for the EWP of an ME slot; RANGE counts clamps and edge segments (see log entry 43, DESIGN CHOICE). -/
def State.func (s : State) (me slot v : Nat) : Nat × State :=
  match (s.me.tables.getD slot none) with
  | none => (v, s)
  | some t =>
    match f32.decode v with
    | .nan => (f32.nanPat, s)
    | .inf neg => (if neg then t.lo else t.hi, s.addFld F.ME_EWPCNT_RANGE 1 me)
    | x =>
      if 7 ≤ slot ∧ slot ≤ 9 then
        match reduced slot t x with
        | some y => (y, s)
        | none => ((Config.tableOpen slot v).toNat, s)
      else
        let r := tableEval t x
        (r.1, if r.2 then s.addFld F.ME_EWPCNT_RANGE 1 me else s)

/-! Stage words (Table EWP-1). -/

def stOp (w : Nat) : Nat := bitsOf w 63 58
def stArg (w : Nat) : Nat := bitsOf w 57 52
def stBsel (w : Nat) : Nat := bitsOf w 51 50
def stYexp (w : Nat) : Int := signedOf 8 (bitsOf w 39 32)
def stOpr (w : Nat) : Nat := w % 2 ^ 32

/-- A populated table slot (see log entry 43, DESIGN CHOICE). -/
def State.tableSet (s : State) (slot : Nat) : Bool := (s.me.tables.getD slot none).isSome

/-- One stage word by itself: its reserved fields, operands and tables. -/
def State.stageOk (s : State) (w : Nat) : Bool :=
  bitsOf w 49 40 == 0 && (stOp w == 0x0E || bitsOf w 39 32 == 0) &&
    (match stOp w with
     | 0x07 => stArg w < 16 && stOpr w == 0 && s.tableSet (stArg w)
     | 0x08 => 1 ≤ stArg w && stOpr w < 64 && ((stOpr w).testBit 5 || s.tableSet (stOpr w % 32))
     | 0x09 => stArg w == 0 && s.tableSet 0
     | 0x0C => [2, 4, 9, 16].contains (stArg w) && stOpr w < 2
     | 0x0D => stArg w < 2
     | 0x0E => stArg w == 0 && stOpr w == 0
     | o => o ≤ 0x0E && stArg w == 0)

/-- GATE's group must lie in one block (R184). -/
def gateFits (w : Nat) : Bool := stOp w != 0x08 || (stArg w != 0 && (128 % (2 * stArg w) == 0 || stArg w == 63))

/-- R185, R187: the order of the stages; seen are the OPs before. -/
def stagesOrdered : List Nat → List Nat → Bool
  | [], _ => true
  | w :: l, seen =>
    let o := stOp w
    (o != 0x08 || !(seen.contains 0x09 || seen.contains 0x0A || seen.contains 0x0C)) &&
      (!(o == 0x09 || o == 0x0A) || !(seen.contains o || seen.contains 0x0E)) && stagesOrdered l (o :: seen)

/-- The stages before END of a list of 16 words. -/
def beforeEnd (l : List Nat) : List Nat := l.takeWhile (fun w => stOp w != 0)

/-- The first END word, if any, has no other bit. -/
def endOk (l : List Nat) : Bool := ((l.find? (fun w => stOp w == 0)).map (fun w => w == 0)).getD true

/-- R182: a stage list without EWP_LIST fault. -/
def State.stagesOk (s : State) (l : List Nat) : Bool :=
  endOk l && (beforeEnd l).all s.stageOk && (beforeEnd l).all gateFits && stagesOrdered (beforeEnd l) []

/-! The Append Unit (R218 to R220). -/

/-- An append fails: ADMA_FAULT of the engine, and APPEND in ME_FAULT. -/
def State.appendFail (s : State) (slot part cause q : Nat) : Run :=
  let t := if cause = 0x20 then s.ownerFail (initiator 3 part) else s
  (t.admaFault (slot % 8) cause part q, some 0x0C)

/-- An access of the Append Unit: a denial fails the append. -/
def State.appendAccess (slot part q : Nat) (r : Run) : Run :=
  match r.2 with
  | none => r
  | some c => r.1.appendFail slot part c q

/-- One row of an appended column, whose row map entry has been read. -/
def State.appendRow (s : State) (slot part arg desc c r v : Nat) : Run :=
  let rowmap := s.num desc 8
  let ring := (s.num (desc + 8) 1).testBit 0
  let l := s.num (desc + 9) 1
  let layer := s.num (desc + 0x0A) 2
  let col0 := s.num (desc + 0x0C) 2
  let e := s.rowEntry rowmap r
  if e.valid = false then s.appendFail slot part 0x21 e.seq
  else
    let i := e.pos - s.seqPosBase part e.seq
    let j := i / s.layP l
    if s.seqBlocks part e.seq ≤ j then s.appendFail slot part 0x22 e.seq
    else
      let page := s.blockPage part e.seq j layer ring
      if s.pageOwner page ≠ part then s.appendFail slot part 0x20 e.seq
      else
        let x := convOut (s.fld F.ADMA_LAYOUT_KFMT l) 0 ((f32.decode v).scale (-(signedOf 8 (s.num (desc + 0x12) 1))))
        let a := pageAddr page + 0x8000 * arg + i % s.layP l * s.layRow l + s.num (desc + 0x10) 2 + (c - col0) * s.layEsize l
        let t := if x.sat then s.addFld F.ME_COUNTS_SAT_CNT 1 slot else s
        let t := if x.nan then t.addFld F.ME_COUNTS_NAN_CNT 1 slot else t
        State.appendAccess slot part e.seq (t.engWrite 3 part a (toLe (s.layEsize l) x.code))

/-- R220: the descriptor's fields are out of range. -/
def State.appendBad (s : State) (desc : Nat) : Bool :=
  let l := s.num (desc + 9) 1
  let layer := s.num (desc + 0x0A) 2
  let ring := (s.num (desc + 8) 1).testBit 0
  decide (1 < s.num (desc + 8) 1 ∨ 64 ≤ l ∨ s.num (desc + 0x0E) 2 = 0) || !allZero (s.bytes (desc + 0x13) 13) ||
    decide (s.layRow l < s.num (desc + 0x10) 2 + s.num (desc + 0x0E) 2 * s.layEsize l) ||
    decide ((if ring then s.layRing l else s.layFull l) ≤ layer)

/-- KV_APPEND of a column's rows. -/
def State.append (s : State) (slot part w c : Nat) (rows : List (Nat × Nat)) : Run :=
  if s.fld F.ADMA_APDTAB_ENTRIES part ≤ stOpr w then s.appendFail slot part 0x02 0
  else
    let desc := s.fld F.ADMA_APDTAB_BASE part * 32 + 32 * stOpr w
    let t := (s.keyed (initiator 3 part)).putFld F.ADMA_ESTATE_PARTITION part (slot % 8)
    let r := (State.appendAccess slot part 0 (t.engCheck 3 part desc 32 false)).next (fun t =>
      let col0 := t.num (desc + 0x0C) 2
      if t.appendBad desc then t.appendFail slot part 0x02 0
      else if col0 ≤ c ∧ c < col0 + t.num (desc + 0x0E) 2 then
        runAll (fun (e : Nat × Nat) u =>
          (State.appendAccess slot part 0 (u.engCheck 3 part (u.num desc 8 + 8 * e.1) 8 false)).next (fun u =>
            u.appendRow slot part (stArg w) desc c e.1 e.2)) rows t
      else (t, none))
    (r.1.keyed s.keys.user, r.2)

/-! Stages (Table EWP-2). -/

/-- A function of each row's value, with the state carried along. -/
def mapRows (f : Nat → Nat → State → Nat × State) : List (Nat × Nat) → State → List (Nat × Nat) × State
  | [], s => ([], s)
  | (r, v) :: l, s =>
    let y := f r v s
    let z := mapRows f l y.2
    ((r, y.1) :: z.1, z.2)

/-- A stage that only reads an FP32 in memory and changes each value. -/
def State.stageMem (s : State) (part a : Nat) (f : Nat → Nat → Nat) (rows : List (Nat × Nat)) :
    List (Nat × Nat) × Run :=
  (rows.map (fun e => (e.1, f e.2 (s.num a 4))), s.meCheck part a 4 false)

/-- R190: the rows of pooled groups. -/
def poolRows (pw : Nat) (avg : Bool) (count : Nat) (rows : List (Nat × Nat)) : List (Nat × Nat) :=
  (List.range ((count + pw - 1) / pw)).filterMap (fun g =>
    let vs := (List.range pw).filterMap (fun i => (rows.find? (fun e => e.1 == g * pw + i)).map (·.2))
    if vs.length = pw then
      some (g, if avg then f32.mul (pairwise (if pw = 2 then 1 else if pw = 4 then 2 else 4) vs) (f32.ofRatio 1 pw)
        else vs.foldl ewpMax (vs.headD 0))
    else none)

/-- The open block of a slot changed. -/
def State.onBlock (s : State) (slot : Nat) (f : EwpBlock → EwpBlock) : State :=
  s.setSt slot { s.meSt slot with block := (s.meSt slot).block.map f }

/-- R189: ROW_NORM of one row. -/
def State.rowNorm (s : State) (a r v : Nat) : Nat :=
  f32.mul (f32.sub v (s.num (a + 8 * r) 4)) (s.num (a + 8 * r + 4) 4)

/-- The value of a gated pair. -/
def State.gated2 (s : State) (me w v g : Nat) : Nat × State :=
  if (stOpr w).testBit 5 then (f32.mul v g, s)
  else
    let y := s.func me (stOpr w % 32) g
    (f32.mul v y.1, y.2)

/-- The stages of a list from one on, over a column's rows of a tile of count rows. k numbers the stages
(see log entry 43, DESIGN CHOICE). -/
def runStages (slot part count : Nat) : List Nat → Nat → Nat → List (Nat × Nat) → State → Run
  | [], _, _, _, s => (s, none)
  | w :: l, k, c, rows, s =>
    let a := s.meAddr slot (stBsel w) (stOpr w)
    let go := fun (rows : List (Nat × Nat)) (t : State) => runStages slot part count l (k + 1) c rows t
    let imm := fun (f : Nat → Nat → Nat) => go (rows.map (fun e => (e.1, f e.2 (stOpr w)))) s
    match stOp w with
    | 0x01 => let r := s.stageMem part (a + 4 * c) f32.add rows; r.2.next (go r.1)
    | 0x02 => let r := s.stageMem part (a + 4 * c) f32.mul rows; r.2.next (go r.1)
    | 0x03 => imm f32.add
    | 0x04 => imm f32.mul
    | 0x05 => imm ewpMin
    | 0x06 => imm ewpMax
    | 0x07 => let r := mapRows (fun _ v t => t.func slot (stArg w) v) rows s; go r.1 r.2
    | 0x08 =>
      let g := stArg w
      let key := fun (x : Nat) => 2 ^ 20 * k + x
      if c / (2 * g) * (2 * g) / 128 ≠ (c / (2 * g) * (2 * g) + 2 * g - 1) / 128 then (s, some 0x0A)
      else if c % (2 * g) < g then (s.onBlock slot (fun b => { b with gate := b.gate ++ [(key c, rows)] }), none)
      else
        let vals := (((s.meSt slot).block.bind (fun b => b.gate.find? (fun e => e.1 == key (c - g)))).map (·.2)).getD []
        let r := mapRows (fun r v t => t.gated2 slot w (((vals.find? (fun e => e.1 == r)).map (·.2)).getD 0) v)
          (rows.filter (fun e => vals.any (fun x => x.1 == e.1))) s
        runStages slot part count l (k + 1) (c / (2 * g) * g + (c % (2 * g) - g)) r.1 r.2
    | 0x09 =>
      (s.onBlock slot (fun b => { b with
        smax := b.smax ++ [(c, rows)], drains := b.drains ++ [(c, (s.meSt slot).dcf, count)] }), none)
    | 0x0A => go rows (s.onBlock slot (fun b => { b with stat := b.stat ++ [(c, rows)] }))
    | 0x0B =>
      (runAll (fun (e : Nat × Nat) t => t.meCheck part (a + 8 * e.1) 8 false) rows s).next
        (go (rows.map (fun e => (e.1, s.rowNorm a e.1 e.2))))
    | 0x0C =>
      let out := poolRows (stArg w) ((stOpr w).testBit 0) count rows
      go out (s.addFld F.ME_EWPCNT_GROUP_SKIP ((count + stArg w - 1) / stArg w - out.length) slot)
    | 0x0D => (s.append slot part w c rows).next (go rows)
    | _ =>
      let d := (s.meSt slot).dcf
      (runAll (fun (e : Nat × Nat) t =>
        t.meOut slot part d e.1 c (convOut (dcfOfmt d) (dcfOzp d) ((f32.decode e.2).scale (-(stYexp w))))) rows s).next
        (go rows)

/-! Blocks (R182, R187). -/

/-- The rows that occur in a block's columns, ascending. -/
def blockRows (cols : List (Nat × List (Nat × Nat))) : List Nat :=
  (List.range 128).filter (fun r => cols.any (fun c => c.2.any (fun e => e.1 == r)))

/-- A row's values in a block by position, +0 where one is missing. -/
def blockVals (cols : List (Nat × List (Nat × Nat))) (r : Nat) : List Nat :=
  (List.range 128).map (fun i =>
    ((cols.find? (fun c => c.1 % 128 == i)).bind (fun c => (c.2.find? (fun e => e.1 == r)).map (·.2))).getD 0)

/-- A record (X, Y) of a row of a block. -/
def State.blockRecord (s : State) (slot part w idx r x y : Nat) : Run :=
  s.meWrite part (s.meAddr slot (stBsel w) (stOpr w) + 8 * (128 * idx + r)) (toLe 4 x ++ toLe 4 y)

/-- STAT_BLK's record of a row. -/
def State.statRow (s : State) (slot part w : Nat) (b : EwpBlock) (r : Nat) : Run :=
  let vs := blockVals b.stat r
  s.blockRecord slot part w b.idx r (pairwise 7 vs) (pairwise 7 (vs.map (fun v => f32.mul v v)))

/-- The maximum of a row over a block's columns. -/
def blockMax (cols : List (Nat × List (Nat × Nat))) (r : Nat) : Nat :=
  let vs := cols.filterMap (fun c => (c.2.find? (fun e => e.1 == r)).map (·.2))
  vs.foldl ewpMax (vs.headD 0)

/-- −Inf in binary32. -/
abbrev negInf32 : Nat := 0xFF800000

/-- A column's values as exp(v − m) of their rows. -/
def State.smaxCol (s : State) (slot : Nat) (cols : List (Nat × List (Nat × Nat))) (rows : List (Nat × Nat)) :
    List (Nat × Nat) × State :=
  mapRows (fun r v t =>
    let m := blockMax cols r
    if m = negInf32 then (0, t) else t.func slot 0 (f32.sub v m)) rows s

/-- All columns of a softmax block, each mapped. -/
def State.smaxCols (slot : Nat) (all : List (Nat × List (Nat × Nat))) :
    List (Nat × List (Nat × Nat)) → State → List (Nat × List (Nat × Nat)) × State
  | [], s => ([], s)
  | (c, rows) :: l, s =>
    let y := s.smaxCol slot all rows
    let z := State.smaxCols slot all l y.2
    ((c, y.1) :: z.1, z.2)

/-- The first stage of an OP in the list, with the stages after it and its number (see log entry 43, DESIGN CHOICE). -/
def stageFrom (o : Nat) : List Nat → Nat → Option (Nat × List Nat × Nat)
  | [], _ => none
  | w :: l, k => if stOp w = o then some (w, l, k) else stageFrom o l (k + 1)

/-- The DCF in force set. -/
def State.setDcf (s : State) (slot d : Nat) : State := s.setSt slot { s.meSt slot with dcf := d }

/-- R156, R187: a column that waited for its block's end goes through the later stages, under the DCF that its drain issued under. -/
def State.lateColumn (s : State) (slot part : Nat) (b : EwpBlock) (l : List Nat) (k : Nat) (e : Nat × List (Nat × Nat)) : Run :=
  let d := ((b.drains.find? (fun x => x.1 == e.1)).map (·.2)).getD (0, 0)
  (runStages slot part d.2 l k e.1 e.2 (s.setDcf slot d.1)).next (fun t => (t.setDcf slot (s.meSt slot).dcf, none))

/-- R187: SMAX_BLK at the end of its block: the records, then each column through the later stages. -/
def State.closeSmax (s : State) (slot part : Nat) (b : EwpBlock) : Run :=
  match stageFrom 0x09 ((s.meSt slot).stages.getD []) 0 with
  | some (w, l, k) =>
    let y := State.smaxCols slot b.smax b.smax s
    (runAll (fun r (t : State) => t.blockRecord slot part w b.idx r (blockMax b.smax r) (pairwise 7 (blockVals y.1 r)))
      (blockRows b.smax) y.2).next
      (runAll (fun (e : Nat × List (Nat × Nat)) t => t.lateColumn slot part b l (k + 1) e) y.1)
  | none => (s, none)

/-- R187: STAT_BLK at the end of its block: the records. -/
def State.closeStat (s : State) (slot part : Nat) : Run :=
  match stageFrom 0x0A ((s.meSt slot).stages.getD []) 0, (s.meSt slot).block with
  | some (w, _, _), some b =>
    if b.stat.isEmpty then (s, none) else runAll (fun x (u : State) => u.statRow slot part w b x) (blockRows b.stat) s
  | _, _ => (s, none)

/-- STAT_BLK stands before SMAX_BLK in a list. -/
def statFirst (l : List Nat) : Bool :=
  match stageFrom 0x0A l 0, stageFrom 0x09 l 0 with
  | some (_, _, i), some (_, _, j) => decide (i < j)
  | _, _ => false

/-- R181, R182: the open block closes, with its record stages in list order (see log entry 43, DESIGN CHOICE). -/
def State.closeBlock (s : State) (slot part : Nat) : Run :=
  match (s.meSt slot).block with
  | none => (s, none)
  | some b =>
    let smax := fun (t : State) => (if b.smax.isEmpty then (t, none) else t.closeSmax slot part b : Run)
    let r := if statFirst ((s.meSt slot).stages.getD []) then (s.closeStat slot part).next smax
      else (smax s).next (fun t => t.closeStat slot part)
    r.next (fun t => (t.setSt slot { t.meSt slot with block := none }, none))

/-- A column that enters its block: the first opens it, one below the last faults with EWP_ORDER. -/
def State.enterBlock (s : State) (slot part c : Nat) : Run :=
  match (s.meSt slot).block with
  | some b =>
    if b.idx = c / 128 then
      (if c < b.last then (s, some 0x0B) else (s.onBlock slot (fun x => { x with last := c }), none))
    else (s.closeBlock slot part).next (fun t =>
      (t.setSt slot { t.meSt slot with block := some { idx := c / 128, last := c } }, none))
  | none => (s.setSt slot { s.meSt slot with block := some { idx := c / 128, last := c } }, none)

/-- R179, R182: a drained column of a tile of count rows enters the EWP. -/
def State.ewpColumn (s : State) (slot part c count : Nat) (rows : List (Nat × Nat)) : Run :=
  let nans := (rows.filter (fun e => isNan32 e.2)).length
  let r := (s.addFld F.ME_EWPCNT_NAN_IN nans slot).enterBlock slot part c
  let r := r.next (runStages slot part count ((s.meSt slot).stages.getD []) 0 c rows)
  r.next (fun t => if c % 128 = 127 then t.closeBlock slot part else (t, none))

end Sys2Proof.Machine
end

