-- ==== Sys2Proof/Machine/Matrix.lean ====
section
/-! DEFINITION. The Matrix Engine instructions (file 05: R151 to R177; the window feeder, R242 to R245). -/

namespace Sys2Proof.Machine

/-! Columns and families (R152, R157, R169, R200). -/

/-- Accumulator columns that pins take from a slot. -/
def State.pinnedCols (s : State) (slot : Nat) : Nat :=
  (s.streams.filterMap (fun x => x.pin)).foldl (fun n e => if e.1 = slot then n + e.2 else n) 0

/-- Columns of a family that a slot offers. -/
def State.colLimit (s : State) (slot : Nat) (integer : Bool) : Nat :=
  if integer then 720 - 3 * s.pinnedCols slot else 240 - s.pinnedCols slot

/-- A column of a store; none where it is zeroed. -/
def MeStore.col (x : MeStore) (c : Nat) : Option MeCol := (x.cols.find? (fun e => e.1 == c)).map (·.2)

/-- A column set. -/
def MeStore.setCol (x : MeStore) (c : Nat) (y : MeCol) : MeStore :=
  { x with cols := x.cols.filter (fun e => e.1 != c) ++ [(c, y)] }

/-- A row's entry of a column. -/
def MeCol.entry (x : MeCol) (r : Nat) : MeEntry := ((x.rows.find? (fun e => e.1 == r)).map (·.2)).getD {}

/-- A row's entry set. -/
def MeCol.setEntry (x : MeCol) (r : Nat) (y : MeEntry) : MeCol :=
  { x with rows := x.rows.filter (fun e => e.1 != r) ++ [(r, y)] }

/-- R158: a column that starts at zero with a family and exponent: the entries of the valid rows and the column sum are zero, those of
invalid rows are left. -/
def MeCol.fresh (integer : Bool) (eCol : Int) (valid : List Bool) (old : Option MeCol) : MeCol where
  integer := integer
  eCol := eCol
  rows := ((old.map (·.rows)).getD []).filter (fun e => !valid.getD e.1 false)

/-- Two parts of an entry together: sums added, flags combined by OR. -/
def MeEntry.plus (a b : MeEntry) : MeEntry where
  sum := a.sum + b.sum
  nan := a.nan || b.nan
  infPos := a.infPos || b.infPos
  infNeg := a.infNeg || b.infNeg
  povf := a.povf || b.povf

/-- R153: the stores are zeroed; pinned columns are held with their streams. -/
def State.zeroStore (s : State) (slot : Nat) : State :=
  ((s.setSt slot {}).putFld F.ME_STATE_FAMILY 0 slot).putFld F.ME_STATE_PARTITION 0 slot

/-- R157: the first instruction that adds fixes the family. -/
def State.fixFamily (s : State) (slot : Nat) (integer : Bool) : Run :=
  match (s.meSt slot).family with
  | some f => if f = integer then (s, none) else (s, some 0x05)
  | none => ((s.setSt slot { s.meSt slot with family := some integer }).putFld F.ME_STATE_FAMILY (b2n !integer) slot, none)

/-! Ending a kernel. -/

/-- A kernel's status set: its engine has ended it (see log entry 42, DEDUCED). -/
def State.endKernel (s : State) (id st : Nat) : State :=
  { s with esc := { s.esc with kernels := s.esc.kernels.map (fun k => if k.id = id then { k with status := some st } else k) } }

/-- R177, R182, R220: a fault recorded in ME_FAULT; the kernel ends with the status of Table ME-11 and the stores are zeroed
(see log entry 42, DEDUCED). -/
def State.meFault (s : State) (slot : Nat) (k : Kernel) (cause : Nat) : State :=
  let t := s.noteFault .ME_FAULT cause (k.code + 16 * (s.meSt slot).pc) slot
  (t.zeroStore slot).endKernel k.id (if cause = 0x08 ∨ cause = 0x09 then csEcc else csEngine)

/-- R152: corrected and uncorrectable errors of the local stores; errors of a read, one of the Append Unit of a kernel that appends shown in
ADMA_FAULT of its engine as well (R241). -/
def State.meEcc (s : State) (m : MeStep) (part : Nat) : Run :=
  match m.ecc with
  | .none => (s, none)
  | .memory a => (s.uncorrectable a m.slot part, some 0x09)
  | .append a q =>
    if ((s.meSt m.slot).stages.getD []).any (fun w => stOp w == 0x0D) then
      ((s.uncorrectable a m.slot part).admaFault (m.slot % 8) 0x09 part q, some 0x09)
    else (s, none)
  | .storeCorrected => (s.addFld F.ME_ECC_CE 1 m.slot, none)
  | .storeUncorrectable => (s.addFld F.ME_ECC_UE 1 m.slot, some 0x08)

/-- Bubbles and busy cycles of an instruction (R160, R178). -/
def State.meTiming (s : State) (m : MeStep) : State :=
  ((s.addFld F.ME_BUBBLE_FEED m.feed m.slot).addFld F.ME_BUBBLE_DRAIN m.drain m.slot).addReg .ME_BUSY 64 m.busy m.slot

/-- An instruction of the kernel that runs in a slot: its effect, the fault that ends it, and the next instruction; one whose reads meet a
scrub waits (R129). -/
def State.meInstr (s : State) (m : MeStep) (body : Kernel → Nat → State → Run) : State :=
  match s.kernelOn 0 m.slot with
  | none => s
  | some k =>
    if k.status.isSome then s
    else
      let r := ((s.keyed (initiator 1 k.partition)).meEcc m k.partition).next (body k (m.word % 2 ^ 128))
      let t := r.1.meTiming m
      s.settled (match r.2 with
        | some c => t.meFault m.slot k c
        | none => t.setSt m.slot { t.meSt m.slot with pc := (t.meSt m.slot).pc + 1 })

/-! LDT (R158, R159; Table ME-2). -/

/-- The bytes of row r of a tile at a plain address. -/
def State.plainRow (s : State) (part a n : Nat) : Run × List Byte := (s.meCheck part a n false, s.bytes a n)

/-- R158: the row mask of an LDT. -/
def State.rowMask (s : State) (slot part w : Nat) : Run × Nat :=
  let a := s.fld F.ME_MASKTAB_BASE slot * 16 + 16 * bitsOf w 47 32
  if w.testBit 24 then (s.meCheck part a 16 false, s.num a 16) else ((s, none), 2 ^ 128 - 1)

/-- A planar reference's fields (Table VIS-1). -/
structure Planar where
  addr : Nat
  rowPitch : Nat
  planePitch : Nat
  w : Nat
  h : Nat
  c : Nat
  fmt : Nat
  exp : Int
  zp : Int
  zero : Bool
  bsel : Nat
  deriving DecidableEq, Repr

/-- A planar reference read from its 32 bytes; base gives the base addresses. -/
def planarOf (base : Nat → Nat) (b : List Byte) : Planar where
  bsel := leAt b 0 8 / 2 ^ 62
  addr := base (leAt b 0 8 / 2 ^ 62) + 32 * leAt b 0 4
  rowPitch := leAt b 8 4
  planePitch := leAt b 0x0C 4
  w := leAt b 0x10 2
  h := leAt b 0x12 2
  c := leAt b 0x14 2
  fmt := leAt b 0x16 1
  exp := signedOf 8 (leAt b 0x17 1)
  zp := signedOf 9 (leAt b 0x18 2)
  zero := bitsOf (leAt b 0 8) 61 32 == 0 && leAt b 0x18 2 < 512 && leAt b 0x1A 6 == 0

/-- Bytes per element of a planar format. -/
def fmtSize (fmt : Nat) : Nat := if fmt = 4 then 2 else if fmt = 5 then 4 else 1

/-- R242: a planar reference within its ranges. -/
def planarOk (r : Planar) : Bool :=
  r.zero && decide (1 ≤ r.w ∧ r.w ≤ 8192 ∧ 1 ≤ r.h ∧ r.h ≤ 8192 ∧ 1 ≤ r.c ∧ r.c ≤ 4096 ∧ r.fmt ≤ 5 ∧
    (r.w * fmtSize r.fmt + 31) / 32 ≤ r.rowPitch ∧ r.h * r.rowPitch ≤ r.planePitch)

/-- The address of an element (c, y, x). -/
def planarAt (r : Planar) (c y x : Nat) : Nat := r.addr + 32 * r.planePitch * c + 32 * r.rowPitch * y + fmtSize r.fmt * x

/-- The window descriptor of a slot. -/
def State.winByte (s : State) (slot off n : Nat) : Nat := s.num (s.reg .ME_WINDESC slot + off) n

/-- The planar reference of a slot's window descriptor; its EXP and ZP are ignored (Table VIS-2). -/
def State.winSrc (s : State) (slot : Nat) : Planar :=
  let b := s.bytes (s.reg .ME_WINDESC slot) 32
  planarOf (fun b => s.fld F.ME_BASE_BASE slot b * 32) (b.take 0x17 ++ List.replicate 3 0 ++ b.drop 0x1A)

/-- R244: width and height of a pooling window. -/
def poolWin (order : Nat) : Nat × Nat :=
  match order with
  | 2 => (1, 2)
  | 4 => (2, 2)
  | 9 => (3, 3)
  | 16 => (4, 4)
  | _ => (1, 1)

/-- R245: the fields of a window descriptor in range. -/
def State.winOk (s : State) (slot afmt pitch : Nat) : Bool :=
  let b := fun off => s.winByte slot off 1
  let r := s.winSrc slot
  let ow := s.winByte slot 0x2C 2
  let oh := s.winByte slot 0x2E 2
  let order := b 0x30
  let wh := poolWin order
  planarOk r && r.bsel != 3 && r.fmt == afmt && pitch == 1 &&
    decide (1 ≤ b 0x20 ∧ b 0x20 ≤ 15 ∧ 1 ≤ b 0x21 ∧ b 0x21 ≤ 15 ∧ 1 ≤ b 0x22 ∧ b 0x22 ≤ 8 ∧ 1 ≤ b 0x23 ∧ b 0x23 ≤ 8) &&
    decide (1 ≤ b 0x24 ∧ b 0x24 ≤ 16 ∧ 1 ≤ b 0x25 ∧ b 0x25 ≤ 16 ∧ 1 ≤ ow ∧ ow ≤ 8192 ∧ 1 ≤ oh ∧ oh ≤ 8192) &&
    decide (1 ≤ b 0x31 ∧ b 0x31 ≤ 128) && [0, 2, 4, 9, 16].contains order && ow % wh.1 == 0 && oh % wh.2 == 0 &&
    s.winByte slot 0x32 14 == 0

/-- R244: the output pixel (oy, ox) of number m. -/
def pixelOf (order ow m : Nat) : Nat × Nat :=
  if order = 0 then (m / ow, m % ow)
  else
    let w := poolWin order
    let g := m / order
    let i := m % order
    let gs := ow / w.1
    (g / gs * w.2 + i / w.1, g % gs * w.1 + i % w.1)

/-- R244: the place of element k of an output pixel's window: an address, or PAD_CODE or zero where none is read. kt gives KH, KW, SY, SX,
DY, DX, PAD_T and PAD_L. -/
def windowAt (r : Planar) (kt : List Nat) (coff padCode : Nat) (px : Nat × Nat) (k : Nat) : Nat ⊕ Nat :=
  let g := fun i => kt.getD i 1
  let c := k / (g 0 * g 1)
  let ky := k / g 1 % g 0
  let kx := k % g 1
  let iy : Int := (px.1 * g 2 + ky * g 4 : Nat) - (g 6 : Int)
  let ix : Int := (px.2 * g 3 + kx * g 5 : Nat) - (g 7 : Int)
  if r.c * g 0 * g 1 ≤ k then .inr 0
  else if iy < 0 ∨ (r.h : Int) ≤ iy ∨ ix < 0 ∨ (r.w : Int) ≤ ix then .inr padCode
  else .inl (planarAt r (coff + c) iy.toNat ix.toNat)

/-- The places of a row's elements through the feeder. -/
def State.feederPlaces (s : State) (slot klen off r : Nat) : List (Nat ⊕ Nat) :=
  let src := s.winSrc slot
  let kt := (List.range 8).map (fun i => s.winByte slot (0x20 + i) 1)
  let m := off / 65536 * s.winByte slot 0x31 1 + r
  let px := pixelOf (s.winByte slot 0x30 1) (s.winByte slot 0x2C 2) m
  (List.range klen).map (fun kk => windowAt src kt (s.winByte slot 0x2A 2) (s.winByte slot 0x28 2) px (128 * (off % 65536) + kk))

/-- R244: the code of an element at its place. -/
def State.windowCode (s : State) (size : Nat) : Nat ⊕ Nat → Nat
  | .inl a => s.num a size
  | .inr v => v % 256 ^ size

/-- A row's bytes through the feeder. -/
def State.feederRow (s : State) (slot afmt klen off r : Nat) : List Byte :=
  (s.feederPlaces slot klen off r).flatMap (fun x => toLe (actSize afmt) (s.windowCode (actSize afmt) x))

/-- R277: the feeder's reads of a row charged, each granule of 64 bytes once. -/
def State.feederCharge (s : State) (slot part klen off r : Nat) : State :=
  let granules := (s.feederPlaces slot klen off r).filterMap (fun x => match x with
    | .inl a => some (a / 64)
    | .inr _ => none)
  granules.eraseDups.foldl (fun t g => t.chargeRead (initiator 1 part) (64 * g) 64) s

/-- A row's bytes at its place. -/
def State.placeRow (s : State) (slot w r : Nat) : Nat :=
  s.meAddr slot (bitsOf w 5 4) (bitsOf w 95 64) + 32 * bitsOf w 127 112 * r

/-- The tile of an LDT whose checks passed, with the rows valid. -/
def State.loadTile (s : State) (slot part w mask : Nat) (window : Bool) : Run × Tile :=
  let afmt := bitsOf w 23 20
  let klen := bitsOf w 12 6 + 1
  let rows := bitsOf w 19 13 + 1
  let off := bitsOf w 95 64
  let pix := s.winByte slot 0x2C 2 * s.winByte slot 0x2E 2
  let valid := (List.range rows).map (fun r => mask.testBit r && (!window ||
    decide (r < s.winByte slot 0x31 1 ∧ off / 65536 * s.winByte slot 0x31 1 + r < pix)))
  let n := klen * actSize afmt
  let check := if window then
      (((List.range rows).filter (fun r => valid.getD r false)).foldl (fun t r => t.feederCharge slot part klen off r) s, none)
    else runAll (fun r (t : State) =>
      if valid.getD r false then t.meCheck part (t.placeRow slot w r) n false else (t, none)) (List.range rows) s
  let data := (List.range rows).map (fun r =>
    if valid.getD r false then (if window then s.feederRow slot afmt klen off r else s.bytes (s.placeRow slot w r) n) else [])
  (check, { afmt := afmt, klen := klen, aExp := signedOf 8 (bitsOf w 63 56), valid := valid, data := data })

/-- R245: the planes that a window LDT names, as the firewall region shows. -/
def State.planesOk (s : State) (slot part : Nat) : Bool :=
  let r := s.winSrc slot
  s.memOk (initiator 1 part) r.addr (32 * r.planePitch * (s.winByte slot 0x2A 2 + r.c)) false

/-- LDT's illegal fields (see log entry 42, DEDUCED). -/
def State.ldtBad (s : State) (slot part w : Nat) (window : Bool) : Bool :=
  let afmt := bitsOf w 23 20
  decide (bitsOf w 3 0 ≠ 0 ∨ bitsOf w 55 48 ≠ 0 ∨ bitsOf w 111 96 ≠ 0 ∨ 4 < afmt ∨ bitsOf w 127 112 = 0) ||
    (if window then !s.winOk slot afmt (bitsOf w 127 112) || !s.planesOk slot part
     else decide (32 * bitsOf w 127 112 < (bitsOf w 12 6 + 1) * actSize afmt))

/-- LDT's effect. -/
def ldtBody (slot : Nat) (k : Kernel) (w : Nat) (s : State) : Run :=
  let window := s.reg .ME_WINDESC slot != 0 && bitsOf w 5 4 == 3
  if window ∧ s.memOk (initiator 1 k.partition) (s.reg .ME_WINDESC slot) 64 false = false then
    s.meCheck k.partition (s.reg .ME_WINDESC slot) 64 false
  else if s.ldtBad slot k.partition w window then (s, some 0x02)
  else
    let mask := s.rowMask slot k.partition w
    mask.1.next (fun t =>
      let tile := t.loadTile slot k.partition w mask.2 window
      tile.1.next (fun u =>
        let x := { u.meSt slot with valid := tile.2.valid }
        (u.setSt slot (if w.testBit 25 then { x with buf1 := tile.2 } else { x with buf0 := tile.2 }), none)))

/-! Products (R163, R164, R166 to R168). -/

/-- A scale byte as an exponent added to the weight; none for an E8M0 NaN. -/
def scaleExp (wfmt gmode : Nat) (wExp : Int) (scales : List Byte) (k : Nat) : Option Int :=
  let b := leAt scales (k / wGroup wfmt gmode) 1
  if wMx wfmt then (if b = 0xFF then none else some ((b : Int) - 127 + wExp))
  else if gmode = 0 then some wExp else some (signedOf 8 b)

/-- R167, R168: one product's part of an entry. -/
def productPart (win aExp : Int) (a w : Num) (sc : Option Int) : MeEntry :=
  match sc with
  | none => { nan := true }
  | some e =>
    match (a.mul w).scale (aExp + e) with
    | .nan => { nan := true }
    | .inf neg => { infPos := !neg, infNeg := neg }
    | p =>
      let v := p.truncAt (64 - win)
      if (2 ^ 127 : Int) ≤ v.natAbs then { povf := true } else { sum := v }

/-- The parameters of a stream of vectors. -/
structure StrOp where
  wfmt : Nat
  gmode : Nat
  wExp : Int
  win : Int
  deriving DecidableEq, Repr

/-- An integer value of a code. -/
def codeInt (x : Num) : Int := x.truncAt 0

/-- R163: d_g of position k for integer weights. -/
def groupShift (o : StrOp) (scales : List Byte) (k : Nat) : Int :=
  if o.gmode = 0 then 0 else signedOf 8 (leAt scales (k / wGroup o.wfmt o.gmode) 1) - o.wExp

/-- R163: a group with an enabled position has d_g outside 0 to 15. -/
def scaleBad (o : StrOp) (klen : Nat) (scales : List Byte) : Bool :=
  wInt o.wfmt && (List.range klen).any (fun k => decide (groupShift o scales k < 0 ∨ 15 < groupShift o scales k))

/-- What a vector adds to the entry of a row. -/
def rowPart (o : StrOp) (t : Tile) (vec scales : List Byte) (r : Nat) : MeEntry :=
  let row := t.data.getD r []
  (List.range t.klen).foldl (fun e k =>
    let a := actValue t.afmt (leAt row (k * actSize t.afmt) (actSize t.afmt))
    let w := wValue o.wfmt (wCode o.wfmt vec k)
    if wInt o.wfmt then { e with sum := e.sum + codeInt a * codeInt w * 2 ^ (groupShift o scales k).toNat }
    else e.plus (productPart o.win t.aExp a w (scaleExp o.wfmt o.gmode o.wExp scales k))) {}

/-- R164: S_n of a vector of integer weights. -/
def vecSum (o : StrOp) (t : Tile) (vec scales : List Byte) : Int :=
  if wInt o.wfmt then (List.range t.klen).foldl (fun n k =>
    n + codeInt (wValue o.wfmt (wCode o.wfmt vec k)) * 2 ^ (groupShift o scales k).toNat) 0
  else 0

/-- A column with a vector added to it. -/
def addVector (o : StrOp) (t : Tile) (vec scales : List Byte) (c : MeCol) : MeCol :=
  (List.range t.valid.length).foldl (fun c r =>
    if t.valid.getD r false then c.setEntry r ((c.entry r).plus (rowPart o t vec scales r)) else c)
    { c with colSum := c.colSum + vecSum o t vec scales }

/-! The drain (R171 to R175). -/

/-- An entry between the drain's stages: a special result, an overflow of a sign, or an exact sum. -/
inductive Drained where
  | special (x : Num)
  | overflow (neg prod acc : Bool)
  | sum (v : Int)
  deriving DecidableEq, Repr

/-- D1: the flags of an entry. -/
def flagResult (e : MeEntry) : Option Num :=
  if e.nan ∨ (e.infPos ∧ e.infNeg) then some .nan
  else if e.infPos then some (.inf false) else if e.infNeg then some (.inf true) else none

/-- D2: the bias added to an entry. -/
def addBias (c : MeCol) (b : Nat) (e : MeEntry) : MeEntry :=
  if c.integer then { e with sum := e.sum + signedOf 32 b }
  else match f32.decode b with
    | .nan => { e with nan := true }
    | .inf neg => if neg then { e with infNeg := true } else { e with infPos := true }
    | x => { e with sum := e.sum + x.truncAt (-c.eCol) }

/-- D1 to D4. -/
def drainEntry (c : MeCol) (bias : Option Nat) (zp : Option Int) (e : MeEntry) : Drained :=
  match flagResult e with
  | some x => .special x
  | none =>
    let e := match bias with
      | some b => addBias c b e
      | none => e
    match flagResult e with
    | some x => .special x
    | none =>
      let v := e.sum - (zp.map (fun z => z * c.colSum)).getD 0
      let lim : Int := if c.integer then 2 ^ 39 else 2 ^ 127
      let acc := decide (v < -lim ∨ lim ≤ v)
      if e.povf ∨ acc then .overflow (decide (v < 0)) e.povf acc
      else .sum v

/-- R174: an overflow that reaches a drain. -/
def State.noteOverflow (s : State) (slot : Nat) (prod acc : Bool) : State :=
  let t := if prod then s.setFlag F.ME_FLAGS_PROD_OVF slot else s
  let t := if acc then t.setFlag F.ME_FLAGS_ACC_OVF slot else t
  t.setSt slot { t.meSt slot with clamped := true }

/-- D6 of an overflow: the largest-magnitude output of a sign with OZP added, saturated (see log entry 42, DEDUCED). -/
def convLargest (ofmt ozp : Nat) (neg : Bool) : Converted :=
  match ofmt with
  | 0 => convInt 8 (-128) 127 (signedOf 8 ozp) (Num.ofInt (if neg then -128 else 127) 0)
  | 1 => convInt 8 0 255 (ozp % 256) (Num.ofInt (if neg then 0 else 255) 0)
  | _ => { code := largest ofmt neg }

/-- D5, D6 of one entry without the EWP: converted, counted and written. -/
def State.drainOut (s : State) (slot part d r c : Nat) (eCol : Int) : Drained → Run
  | .special x => s.meOut slot part d r c (convOut (dcfOfmt d) (dcfOzp d) x)
  | .overflow neg prod acc =>
    ((s.noteOverflow slot prod acc).addFld F.ME_COUNTS_OVF_CNT 1 slot).meOut slot part d r c
      (convLargest (dcfOfmt d) (dcfOzp d) neg)
  | .sum v => s.meOut slot part d r c (convOut (dcfOfmt d) (dcfOzp d) (Num.ofInt v (eCol - dcfOutExp d)))

/-- A binary32 zero is +0 (R172, R179). -/
def plusZero (v : Nat) : Nat := if v = f32.signPat then 0 else v

/-- R179: what an entry hands to the EWP. -/
def State.handOver (s : State) (slot : Nat) (d : Nat) (eCol : Int) : Drained → Nat × State
  | .special x => (f32.encode x, s)
  | .overflow neg prod acc => ((if neg then 0x80000000 else 0) + 0x7F7FFFFF, s.noteOverflow slot prod acc)
  | .sum v => (plusZero (f32.encode (Num.ofInt v (eCol - dcfOutExp d))), s)

/-- Table ME-10: a raw record, an E_col outside one signed byte modulo 256 (see log entry 109, DESIGN CHOICE). -/
def rawRecord (c : MeCol) (e : MeEntry) : List Byte :=
  toLe 20 (ofSigned 160 e.sum) ++ toLe 1 (b2n e.nan + 2 * b2n e.infPos + 4 * b2n e.infNeg + 8 * b2n e.povf +
    16 * b2n c.integer) ++ toLe 1 (ofSigned 8 c.eCol) ++ toLe 2 0 ++ toLe 8 (ofSigned 64 c.colSum)

/-- Rows of a validity list that are valid. -/
def validRows (valid : List Bool) : List Nat := (List.range valid.length).filter (fun r => valid.getD r false)

/-- The bias word of an output column; checked where BIAS_EN is set. -/
def State.biasAt (s : State) (slot d c : Nat) : Nat := s.meAddr slot (bitsOf d 15 14) (bitsOf d 127 96) + 4 * c

/-- R171: a column drained to output column c, over the valid rows. -/
def State.drainCol (s : State) (slot part c : Nat) (valid : List Bool) (x : MeCol) : Run :=
  let d := (s.meSt slot).dcf
  if dcfOfmt d = 7 then
    runAll (fun r (t : State) => t.meWrite part (t.meAddr slot (bitsOf d 17 16) (bitsOf d 95 64) + 32 * (128 * c + r))
      (rawRecord x (x.entry r))) (validRows valid) s
  else if dcfZp d ∧ x.integer = false then (s, some 0x02)
  else
    let a := s.biasAt slot d c
    let chk : Run := if dcfBias d then s.meCheck part a 4 false else (s, none)
    let bias := if dcfBias d then some (s.num a 4) else none
    let zp := if dcfZp d then some (dcfAzp d) else none
    chk.next (fun t =>
      if dcfEwp d then
        let r := mapRows (fun row _ u => u.handOver slot d x.eCol (drainEntry x bias zp (x.entry row)))
          ((validRows valid).map (fun row => (row, 0))) t
        r.2.ewpColumn slot part c valid.length r.1
      else runAll (fun row (u : State) => u.drainOut slot part d row c x.eCol (drainEntry x bias zp (x.entry row)))
        (validRows valid) t)

/-! STR (R151, R156, R157, R169; Table ME-3). -/

/-- STR's illegal fields (see log entry 42, DEDUCED). -/
def strBad (w : Nat) : Bool :=
  let wfmt := bitsOf w 23 20
  let gmode := bitsOf w 19 18
  let win := signedOf 8 (bitsOf w 55 48)
  decide (w.testBit 24 ∨ bitsOf w 45 42 ≠ 0 ∨ bitsOf w 111 96 ≠ 0 ∨ 9 < wfmt ∨ bitsOf w 15 0 = 0 ∨ win < -64 ∨ 63 < win) ||
    (wMx wfmt && gmode != 0) || (!wInt wfmt && !wMx wfmt && gmode != 0 && bitsOf w 63 56 != 0)

/-- The operation of an STR's word. -/
def strOp (w : Nat) : StrOp where
  wfmt := bitsOf w 23 20
  gmode := bitsOf w 19 18
  wExp := signedOf 8 (bitsOf w 63 56)
  win := signedOf 8 (bitsOf w 55 48)

/-- E_col of an STR over a tile. -/
def strECol (o : StrOp) (t : Tile) : Int := if wInt o.wfmt then o.wExp + t.aExp else o.win - 64

/-- One vector of an STR; amode 0 ZERO_KEEP, 1 ADD_KEEP, 2 ZERO_DRAIN, 3 ADD_DRAIN. An ADD mode on a column that nothing zeroed latches
the STR's E_col (R169; see log entry 109, DESIGN CHOICE). -/
def strVector (slot part : Nat) (w : Nat) (t : Tile) (base scaleBase : Nat) (j : Nat) (s : State) : Run :=
  let o := strOp w
  let sb := wScaleBytes o.wfmt o.gmode
  let va := base + j * wVecBytes o.wfmt
  let sa := scaleBase + j * sb
  let amode := bitsOf w 17 16
  let col := bitsOf w 41 32 + j
  let old := (s.meSt slot).col col
  let zeroed := MeCol.fresh (wInt o.wfmt) (strECol o t) t.valid old
  (s.meCheck part va (wVecBytes o.wfmt) false).next (fun s =>
    (if sb = 0 then (s, none) else s.meCheck part sa sb false : Run).next (fun s =>
      let vec := s.bytes va (wVecBytes o.wfmt)
      let scales := s.bytes sa sb
      if scaleBad o t.klen scales then (s, some 0x04)
      else if amode = 2 then
        (s.addReg .ME_VEC 64 1 slot).drainCol slot part (bitsOf w 127 112 + j) t.valid
          (addVector o t vec scales { integer := wInt o.wfmt, eCol := strECol o t })
      else if amode ≠ 0 ∧ (old.map (fun c => decide (c.eCol ≠ zeroed.eCol))).getD false then (s, some 0x05)
      else
        let s := s.addReg .ME_VEC 64 1 slot
        let x := addVector o t vec scales (if amode = 0 then zeroed else old.getD zeroed)
        if amode = 3 then
          (s.drainCol slot part (bitsOf w 127 112 + j) t.valid x).next (fun u =>
            (u.setSt slot ((u.meSt slot).setCol col (MeCol.fresh x.integer x.eCol t.valid (some x))), none))
        else (s.setSt slot ((s.meSt slot).setCol col x), none)))

/-- STR's effect. -/
def strBody (slot : Nat) (k : Kernel) (w : Nat) (s : State) : Run :=
  let o := strOp w
  let t := if w.testBit 25 then (s.meSt slot).buf1 else (s.meSt slot).buf0
  let n := bitsOf w 15 0
  let amode := bitsOf w 17 16
  let base := s.meAddr slot (bitsOf w 47 46) (bitsOf w 95 64)
  if strBad w then (s, some 0x02)
  else if pairs o.wfmt t.afmt = false then (s, some 0x03)
  else if amode = 2 ∧ bitsOf w 41 32 ≠ 0 then (s, some 0x06)
  else if amode ≠ 2 ∧ s.colLimit slot (wInt o.wfmt) < bitsOf w 41 32 + n then (s, some 0x06)
  else
    (if amode = 2 then (s, none) else s.fixFamily slot (wInt o.wfmt) : Run).next (fun s =>
      runAll (strVector slot k.partition w t base (roundUp (base + n * wVecBytes o.wfmt) 32)) (List.range n) s)

/-! DCF, DRN, ACL, BAR, NOP, END. -/

/-- DCF's illegal fields (Table ME-4, R175, R179) (see log entry 42, DEDUCED). -/
def dcfBad (w : Nat) : Bool :=
  let ofmt := dcfOfmt w
  decide (w.testBit 18 ∨ bitsOf w 38 32 ≠ 0 ∨ 7 < ofmt ∨ (1 < ofmt ∧ dcfOzp w ≠ 0) ∨ dcfAzp w < -128) ||
    (ofmt == 7 && (dcfBias w || dcfZp w || dcfEwp w)) || (dcfEwp w && ofmt == 6)

/-- R181: the stage list is read at the first DCF with EWP set. -/
def State.readStages (s : State) (slot part w : Nat) : Run :=
  if dcfEwp w = false ∨ (s.meSt slot).stages.isSome then (s, none)
  else
    let a := s.fld F.ME_EWPLIST_BASE slot * 128
    (s.meCheck part a 128 false).next (fun s =>
      let l := (List.range 16).map (fun i => s.num (a + 8 * i) 8)
      if s.stagesOk l then (s.setSt slot { s.meSt slot with stages := some (beforeEnd l) }, none) else (s, some 0x0A))

/-- DCF's effect. -/
def dcfBody (slot : Nat) (k : Kernel) (w : Nat) (s : State) : Run :=
  if dcfBad w then (s, some 0x02)
  else (s.readStages slot k.partition w).next (fun t => (t.setSt slot { t.meSt slot with dcf := w }, none))

/-- A column as a drain meets it; one that nothing added to is zeroed, with E_col 0 and the store's family, exact where none is fixed
(see log entry 109, DESIGN CHOICE). -/
def State.drainable (s : State) (slot c : Nat) : MeCol :=
  ((s.meSt slot).col c).getD { integer := ((s.meSt slot).family).getD false }

/-- Columns of a DRN or ACL lie in the store, of 720 columns while no family is fixed (see log entry 109, DESIGN CHOICE). -/
def State.rangeOk (s : State) (slot w : Nat) : Bool :=
  decide (bitsOf w 25 16 + bitsOf w 9 0 ≤ s.colLimit slot (((s.meSt slot).family).getD true))

/-- DRN's effect (Table ME-5): it drains the rows valid in the last LDT and carries no E_col to fault by (R158, R169; see log entry 109,
DESIGN CHOICE). -/
def drnBody (slot : Nat) (k : Kernel) (w : Nat) (s : State) : Run :=
  if bitsOf w 15 10 ≠ 0 ∨ bitsOf w 9 0 = 0 ∨ bitsOf w 47 32 ≠ 0 ∨ bitsOf w 127 64 ≠ 0 then (s, some 0x02)
  else if s.rangeOk slot w = false then (s, some 0x06)
  else runAll (fun j (t : State) =>
    t.drainCol slot k.partition (bitsOf w 63 48 + j) (t.meSt slot).valid (t.drainable slot (bitsOf w 25 16 + j)))
    (List.range (bitsOf w 9 0)) s

/-- R175: a record read back as an entry. -/
def recordEntry (b : List Byte) : MeEntry :=
  let f := leAt b 0x14 1
  { sum := signedOf 160 (leAt b 0 20), nan := f.testBit 0, infPos := f.testBit 1, infNeg := f.testBit 2, povf := f.testBit 3 }

/-- R175: the records of one column added to it; a column that the records' family does not have faults with ACC_RANGE (R152, R177). -/
def aclColumn (slot part a : Nat) (col : Nat) (s : State) : Run :=
  let rows := validRows (s.meSt slot).valid
  (runAll (fun r (t : State) => t.meCheck part (a + 32 * r) 32 false) rows s).next (fun s =>
    match rows with
    | [] => (s, none)
    | r0 :: _ =>
      let first := s.bytes (a + 32 * r0) 32
      let integer := (leAt first 0x14 1).testBit 4
      let eCol := signedOf 8 (leAt first 0x15 1)
      (if s.colLimit slot integer ≤ col then (s, some 0x06) else s.fixFamily slot integer : Run).next (fun s =>
        let old := (s.meSt slot).col col
        let bad := rows.any (fun r => decide ((leAt (s.bytes (a + 32 * r) 32) 0x14 1).testBit 4 ≠ integer ∨
          signedOf 8 (leAt (s.bytes (a + 32 * r) 32) 0x15 1) ≠ (old.map (·.eCol)).getD eCol))
        if bad then (s, some 0x05)
        else
          let c := old.getD { integer := integer, eCol := eCol }
          let c := { c with colSum := c.colSum + signedOf 64 (leAt first 0x18 8) }
          let c := rows.foldl (fun c r => c.setEntry r ((c.entry r).plus (recordEntry (s.bytes (a + 32 * r) 32)))) c
          (s.setSt slot ((s.meSt slot).setCol col c), none)))

/-- ACL's effect (Table ME-5). Records of a column lie at 32 × 128 bytes from one column to the next. -/
def aclBody (slot : Nat) (k : Kernel) (w : Nat) (s : State) : Run :=
  let base := s.meAddr slot (bitsOf w 47 46) (bitsOf w 95 64)
  if bitsOf w 15 10 ≠ 0 ∨ bitsOf w 9 0 = 0 ∨ bitsOf w 63 48 ≠ 0 ∨ bitsOf w 45 32 ≠ 0 ∨ bitsOf w 127 96 ≠ 0 then
    (s, some 0x02)
  else if s.rangeOk slot w = false then (s, some 0x06)
  else runAll (fun j (t : State) => aclColumn slot k.partition (base + 32 * 128 * j) (bitsOf w 25 16 + j) t)
    (List.range (bitsOf w 9 0)) s

/-- NOP, BAR, END: every bit other than OP is zero (R155). -/
def plainWord (w : Nat) : Bool := bitsOf w 25 0 == 0 && bitsOf w 127 32 == 0

/-- NOP's and BAR's effect: none; every earlier write of the kernel is already visible when a BAR issues (R156). -/
def plainBody (w : Nat) (s : State) : Run := if plainWord w then (s, none) else (s, some 0x02)

/-- END's effect: the open EWP block closes, the stores are zeroed, and the kernel has ended, DONE_CLAMPED where an overflow
reached a drain (R153, R174, R182). -/
def endBody (slot : Nat) (k : Kernel) (w : Nat) (s : State) : Run :=
  if plainWord w then
    (s.closeBlock slot k.partition).next (fun t =>
      ((t.zeroStore slot).endKernel k.id (if (t.meSt slot).clamped then csClamped else csDone), none))
  else (s, some 0x02)

/-- Table ME-1: what the engine does with an instruction, as its OP says; one that is not listed faults with ILLEGAL_OPCODE. -/
def opBody (slot : Nat) (k : Kernel) (w : Nat) (s : State) : Run :=
  match bitsOf w 31 26 with
  | 0x00 => plainBody w s
  | 0x01 => ldtBody slot k w s
  | 0x02 => strBody slot k w s
  | 0x03 => dcfBody slot k w s
  | 0x04 => drnBody slot k w s
  | 0x05 => aclBody slot k w s
  | 0x06 => plainBody w s
  | 0x3F => endBody slot k w s
  | _ => (s, some 0x01)

/-! The commands. Each brings the next instruction of a slot's stream, whose OP decides what the engine does (Table ME-1). -/

/-- LDT (R158). -/
def execLdt (m : MeStep) (s : State) : Host.Outcome State Fault Refusal := .next (s.meInstr m (opBody m.slot))

/-- STR (R151). -/
def execStr (m : MeStep) (s : State) : Host.Outcome State Fault Refusal := .next (s.meInstr m (opBody m.slot))

/-- DCF (R171): the drain configuration of later drains. -/
def execDcf (m : MeStep) (s : State) : Host.Outcome State Fault Refusal := .next (s.meInstr m (opBody m.slot))

/-- DRN (R171). -/
def execDrn (m : MeStep) (s : State) : Host.Outcome State Fault Refusal := .next (s.meInstr m (opBody m.slot))

/-- ACL (R175). -/
def execAcl (m : MeStep) (s : State) : Host.Outcome State Fault Refusal := .next (s.meInstr m (opBody m.slot))

/-- BAR (R156). -/
def execBar (m : MeStep) (s : State) : Host.Outcome State Fault Refusal := .next (s.meInstr m (opBody m.slot))

/-- NOP (R155). -/
def execMeNop (m : MeStep) (s : State) : Host.Outcome State Fault Refusal := .next (s.meInstr m (opBody m.slot))

/-- END (R153). -/
def execEndStream (m : MeStep) (s : State) : Host.Outcome State Fault Refusal := .next (s.meInstr m (opBody m.slot))

end Sys2Proof.Machine
end

