-- ==== Sys2Proof/Machine/Kernels.lean ====
section
/-! DEFINITION. What the engines other than the Matrix Engines share: base addresses, memory accesses on behalf of a partition
and the end of a kernel with an engine fault (R191, R267, R281). -/

namespace Sys2Proof.Machine

/-- Table ESC-2: a base address of a kernel. -/
def Kernel.base (k : Kernel) (b : Nat) : Nat := leAt k.desc (0x28 + 8 * (b % 4)) 8

/-- R191: the address of a reference: base select in bits 63:62 and an offset in 32-byte units. -/
def Kernel.ref (k : Kernel) (v : Nat) : Nat := k.base (v / 2 ^ 62) + 32 * (v % 2 ^ 62)

/-- A kernel on an engine that has not ended it. -/
def State.running (s : State) (cls unit : Nat) : Option Kernel :=
  match s.kernelOn cls unit with
  | some k => if k.status.isSome then none else some k
  | none => none

/-- The status that a fault cause ends a kernel with: FAULT_ECC for MEMORY_ECC, else FAULT_ENGINE. -/
def causeStatus (cause : Nat) : Nat := if cause = 0x09 then csEcc else csEngine

/-- A kernel whose run ended: its status, and the fault register of its engine where it faulted. -/
def State.endRun (r : Run) (k : Kernel) (fault : State → Nat → State) : State :=
  match r.2 with
  | some c => (fault r.1 c).endKernel k.id (causeStatus c)
  | none => r.1.endKernel k.id csDone

/-- R183: a function table's value for an engine that counts no RANGE; a free value where the slot is not populated. -/
def State.tableFn (s : State) (slot v : Nat) : Nat × State :=
  if s.tableSet slot then
    let r := s.func 0 slot v
    (r.1, { s with free := r.2.free })
  else ((Config.tableOpen slot v).toNat, s)

/-- Elements of a size read from memory, as many as given. -/
def State.elems (s : State) (a size n : Nat) : List Nat := (List.range n).map (fun i => s.num (a + size * i) size)

end Sys2Proof.Machine
end

