-- ==== Sys2Proof/Machine/Scan.lean ====
section
/-! DEFINITION. Scan Engine kernels, state slots, swap and pinning (file 06: R191 to R201). -/

namespace Sys2Proof.Machine

/-! The descriptor (Table SCAN-1). -/

/-- The fields of a scan kernel's descriptor. -/
structure ScanDesc where
  mode : Nat
  init : Bool
  free : Bool
  cEn : Bool
  aElem : Bool
  bElem : Bool
  cfmt : Nat
  sfmt : Nat
  lLog2 : Nat
  d : Nat
  n : Nat
  t : Nat
  batch : Nat
  zero : Bool
  deriving DecidableEq, Repr

/-- A scan kernel's descriptor read from its bytes. -/
def Kernel.scan (k : Kernel) : ScanDesc where
  mode := leAt k.unitDesc 0 1
  init := (leAt k.unitDesc 1 1).testBit 0
  free := (leAt k.unitDesc 1 1).testBit 1
  cEn := (leAt k.unitDesc 1 1).testBit 2
  aElem := (leAt k.unitDesc 1 1).testBit 3
  bElem := (leAt k.unitDesc 1 1).testBit 4
  cfmt := leAt k.unitDesc 2 1 % 16
  sfmt := leAt k.unitDesc 2 1 / 16
  lLog2 := leAt k.unitDesc 3 1
  d := leAt k.unitDesc 4 2
  n := leAt k.unitDesc 6 2
  t := leAt k.unitDesc 8 4
  batch := leAt k.unitDesc 0x0C 2
  zero := leAt k.unitDesc 0x0E 2 == 0

/-- An address of the descriptor. -/
def Kernel.scanRef (k : Kernel) (off : Nat) : Nat := k.ref (leAt k.unitDesc off 8)

/-- R191: the fields that fault a kernel with ILLEGAL_FIELD; a coefficient format is read only where MODE uses it
(see log entry 44, DEDUCED). -/
def ScanDesc.bad (x : ScanDesc) : Bool :=
  decide (2 < x.mode) || !x.zero || decide (x.d = 0 ∨ x.n = 0 ∨ x.t = 0 ∨ x.batch = 0 ∨ 8192 < x.d ∨ 256 < x.n ∨ 2 ^ 24 < x.t) ||
    decide (4096 < x.batch ∨ 65536 < x.d * x.n) ||
    !([0, 2, 3, 4] : List Nat).contains x.sfmt || (x.mode != 2 && !(x.cfmt ≤ 4 || x.cfmt == 15)) || decide (x.lLog2 = 0) ||
    (x.mode == 0 && decide (7 < x.lLog2)) || (x.mode == 1 && x.t != 1)

/-- Bytes of a coefficient or input. -/
def coefSize (fmt : Nat) : Nat := if fmt = 15 then 4 else actSize fmt

/-- A coefficient or input as binary32. -/
def coefValue (fmt c : Nat) : Nat := if fmt = 15 then c % 2 ^ 32 else f32.encode (actValue fmt c)

/-! State format (R194). -/

/-- R194: F of a state format. -/
def stateMax (fmt : Nat) : Nat := if fmt = 0 then 127 else if fmt = 2 then 448 else 57344

/-- The largest finite magnitude of a group; none where every element is zero or NaN; an infinity is beyond every exponent. -/
def groupMax : List Nat → Option Num
  | [] => none
  | v :: l =>
    match f32.decode (f32.abs v), groupMax l with
    | .nan, m => m
    | .fin _ 0 _, m => m
    | x, none => some x
    | x, some m => some (if m.lt x then x else m)

/-- R194: the exponent of a group. -/
def groupExp (fmt : Nat) (g : List Nat) : Int :=
  if fmt = 4 then 0
  else match groupMax g with
    | none => -128
    | some (.fin _ m e) =>
      let x : Num := .fin false m e
      let e0 := x.top - (Nat.log2 (stateMax fmt) : Nat)
      clampInt (-128) 127 (if (Num.fin false (stateMax fmt) e0).lt x then e0 + 1 else e0)
    | some _ => 127

/-- R194: an element stored with its group's exponent. -/
def storeElem (fmt : Nat) (e : Int) (v : Nat) : Converted :=
  match f32.decode v with
  | .inf neg => { code := largest fmt neg, sat := true }
  | .fin neg m g =>
    let c := convOut fmt 0 (.fin neg m (g - e))
    if neg && c.code == 0 && fmt != 0 then { c with code := if fmt = 4 then 0x8000 else 0x80 } else c
  | x => convOut fmt 0 x

/-- R194: groups of 32, the last padded with zeros. -/
def groupsOf32 : Nat → List Nat → List (List Nat)
  | 0, _ => []
  | k + 1, l => if l.isEmpty then [] else (l.take 32 ++ List.replicate (32 - l.length) 0) :: groupsOf32 k (l.drop 32)

/-- A state quantised: the copy, saturations and NaNs. -/
def quantise (fmt : Nat) (h : List Nat) : ScanCopy × Nat × Nat :=
  let gs := groupsOf32 (h.length / 32 + 1) h
  let cs := gs.flatMap (fun g => g.map (storeElem fmt (groupExp fmt g)))
  ({ exps := gs.map (groupExp fmt), codes := cs.map (·.code) },
    (cs.filter (·.sat)).length, (cs.filter (·.nan)).length)

/-- A stored element as binary32. -/
def ScanCopy.elem (c : ScanCopy) (fmt i : Nat) : Nat :=
  f32.encode ((actValue fmt (c.codes.getD i 0)).scale (c.exps.getD (i / 32) 0))

/-- A state as bytes: the codes, then one exponent byte for each group. -/
def ScanCopy.bytes (c : ScanCopy) (fmt : Nat) : List Byte :=
  c.codes.flatMap (toLe (actSize fmt)) ++ c.exps.map (fun e => BitVec.ofNat 8 (ofSigned 8 e))

/-- R194: bytes of a stored state of a number of elements. -/
def copyBytes (fmt cnt : Nat) : Nat := (cnt + 31) / 32 * (32 * actSize fmt + 1)

/-- A stored state read from its bytes. -/
def ScanCopy.ofBytes (fmt cnt : Nat) (bs : List Byte) : ScanCopy :=
  let g := (cnt + 31) / 32
  { codes := (List.range (32 * g)).map (fun i => leAt bs (i * actSize fmt) (actSize fmt)),
    exps := (List.range g).map (fun i => signedOf 8 (leAt bs (32 * g * actSize fmt + i) 1)) }

/-! Streams (R195, R197 to R199). -/

/-- A stream by name. -/
def State.stream? (s : State) (p q : Nat) : Option Stream := s.streams.find? (fun x => x.partition == p && x.seq == q)

/-- R195: bytes of a state slot, and where one begins. -/
def State.slotBytes (s : State) : Nat := s.fld F.SCAN_SLOTCFG_SLOT_KIB * 1024
def State.slotAddr (s : State) (k : Nat) : Nat := 0x100000 * s.fld F.SCAN_SLOTBASE_BASE + k * s.slotBytes

/-- R195: where a copy of a stream's state lies in its slot: behind the header, copy 1 behind copy 0 (see log entry 44, DEDUCED). -/
def Stream.copyOff (x : Stream) (second : Bool) : Nat := 32 + b2n second * copyBytes x.fmt (x.d * x.n)

/-- R195: the header of a stream's slot names the partition, the sequence ID, the current copy and the committed steps, and holds STEP_FAULT
(see log entry 44, DEDUCED). -/
def Stream.header (x : Stream) : List Byte :=
  (List.range 32).map (Config.slotHeader [x.partition, x.seq, b2n x.current, x.steps, b2n x.stepFault])

/-- The last committed state of a stream: in the accumulators that pin it, or the current copy of its slot. -/
def State.stateOf (s : State) (x : Stream) : ScanCopy :=
  match x.pin, x.slot with
  | none, some k => ScanCopy.ofBytes x.fmt (x.d * x.n) (s.sysBytes (s.slotAddr k + x.copyOff x.current) (copyBytes x.fmt (x.d * x.n)))
  | _, _ => x.held

/-- Slots that streams of a partition hold. -/
def State.slotsUsed (s : State) (p : Nat) : Nat := (s.streams.filter (fun x => x.partition == p && x.slot.isSome)).length

/-- SCAN_SLOTSTAT, SCAN_QUOTA.USED and ME_STATE.PINNED as the streams are. -/
def State.showStreams (s : State) : State :=
  let t := s.putFld F.SCAN_SLOTSTAT_RESIDENT (s.streams.filter (fun x => x.slot.isSome)).length
  let t := t.putFld F.SCAN_SLOTSTAT_PINNED (s.streams.filter (fun x => x.pin.isSome)).length
  let t := (List.range 64).foldl (fun u p => u.putFld F.SCAN_QUOTA_USED (s.slotsUsed p) p) t
  (List.range 32).foldl (fun u m => u.putFld F.ME_STATE_PINNED (b2n (s.pinnedCols m != 0)) m) t

/-- A stream replaced or added. -/
def State.setStream (s : State) (x : Stream) : State :=
  ({ s with streams := s.streams.filter (fun (y : Stream) => !(y.partition == x.partition && y.seq == x.seq)) ++ [x] }).showStreams

/-- R199: a partition's DRAM swap area: its base and bytes. -/
def State.swapArea (s : State) (p : Nat) : Nat × Nat :=
  match s.dev.settings with
  | some t => ((t.swapAreas.find? (fun e => e.1 == p)).map (·.2)).getD (0, 0)
  | none => (0, 0)

/-- Where an entry of a partition's swap area begins. -/
def State.swapAddr (s : State) (p e : Nat) : Nat := (s.swapArea p).1 + e * s.slotBytes

/-- R199: bytes that the General DMA copies for a partition to its swap area, charged to it. -/
def State.swapWrite (s : State) (p a : Nat) (bs : List Byte) : State := ((s.keyed (initiator 5 p)).writeBytes a bs).keyed s.keys.user

/-- A stream replaced or added, with the header of its slot, or of its copy in the swap area. -/
def State.putStream (s : State) (x : Stream) : State :=
  (match x.slot, x.swap with
   | some k, _ => s.sysWrite (s.slotAddr k) x.header
   | none, some e => s.swapWrite x.partition (s.swapAddr x.partition e) x.header
   | none, none => s).setStream x

/-- R195: a state written to the copy of a stream's slot that is not current, and the header flipped last. -/
def State.storeState (s : State) (x : Stream) (c : ScanCopy) : State :=
  match x.slot with
  | some k => (s.sysWrite (s.slotAddr k + x.copyOff (!x.current)) (c.bytes x.fmt)).putStream { x with current := !x.current }
  | none => s.putStream x

/-- R197: a stream released, with its slot and any swapped copy. -/
def State.dropStream (s : State) (x : Stream) : State :=
  ({ s with streams := s.streams.filter (fun (y : Stream) => !(y.partition == x.partition && y.seq == x.seq)) }).showStreams

/-- The lowest slot that no stream holds, within the partition's quota. -/
def State.freeSlot (s : State) (p : Nat) : Option Nat :=
  if s.slotsUsed p < s.fld F.SCAN_QUOTA_QUOTA p then
    (List.range (s.fld F.SCAN_SLOTCFG_COUNT)).find? (fun k => s.streams.all (fun x => x.slot != some k))
  else none

/-- R199: the stream that the swap manager would take: unlocked, unpinned, least recently used, of the partition
(see log entry 44, DEDUCED). -/
def State.victim (s : State) (p : Nat) : Option Stream :=
  (s.streams.filter (fun x => x.partition == p && x.slot.isSome && x.pin.isNone && x.lock.isNone)).foldl
    (fun m x => match m with
      | none => some x
      | some y => if x.used < y.used then some x else some y) none

/-- The lowest entry of a partition's swap area that no stream holds; none where the area is full. -/
def State.freeEntry (s : State) (p : Nat) : Option Nat :=
  (List.range ((s.swapArea p).2 / s.slotBytes)).find? (fun e => s.streams.all (fun x => x.partition != p || x.swap != some e))

/-- R199: a stream copied to its partition's swap area; one whose area is full stays. -/
def State.swapOut (s : State) (x : Stream) : State :=
  match x.slot, s.freeEntry x.partition with
  | some k, some e =>
    ((s.swapWrite x.partition (s.swapAddr x.partition e) (s.sysBytes (s.slotAddr k) s.slotBytes)).setStream
      { x with slot := none, swap := some e }).addFld F.SCAN_SWAPCNT_SWAP_OUT 1
  | _, _ => s

/-- R199: a swapped stream copied back to a slot, with its header. -/
def State.swapIn (s : State) (x : Stream) (k : Nat) : State :=
  let i := initiator 5 x.partition
  let a := s.swapAddr x.partition (x.swap.getD 0)
  ((((s.charge i a s.slotBytes).sysWrite (s.slotAddr k) ((s.keyed i).bytes a s.slotBytes))).putStream
    { x with slot := some k, swap := none }).addFld F.SCAN_SWAPCNT_SWAP_IN 1

/-- A slot for a stream of a partition, with a stream evicted for it where needed; none where there is neither. -/
def State.takeSlot (s : State) (p : Nat) : Option (Nat × State) :=
  match s.freeSlot p with
  | some k => some (k, s)
  | none => (s.victim p).bind (fun v => ((s.swapOut v).freeSlot p).map (fun k => (k, s.swapOut v)))

/-- R201: a granule of the slot is under scrub. -/
def State.slotScrubbed (s : State) (k : Nat) : Bool :=
  s.scrubbing (s.slotAddr k) s.slotBytes

/-- SCAN_SWAP_OUT (R199): the stream is idle for IDLE_US, or its partition holds every slot of its quota and the stream is the
least recently used. -/
def execScanSwapOut (p q : Nat) (s : State) : Host.Outcome State Fault Refusal :=
  let idle := s.reg .SCAN_SWAPCFG
  .next (match s.stream? p q with
    | some x =>
      let rested := idle != 0 && decide (x.used + 1000 * idle ≤ s.dev.nowNs)
      let needed := (s.freeSlot p).isNone && s.victim p == some x
      if x.slot.isSome ∧ x.pin.isNone ∧ x.lock.isNone ∧ (rested ∨ needed) then s.swapOut x else s
    | none => s)

/-- SCAN_SWAP_IN (R199): a swapped stream takes a slot again; a stream without a slot to take stays swapped. -/
def execScanSwapIn (p q : Nat) (s : State) : Host.Outcome State Fault Refusal :=
  .next (match s.stream? p q with
    | some x =>
      if x.slot.isSome ∨ x.pin.isSome then s
      else match s.takeSlot p with
        | some (k, t) => t.swapIn x k
        | none => s
    | none => s)

/-! Pins (R200, R201). -/

/-- Columns that a stream's state takes. -/
def Stream.columns (x : Stream) : Nat := (x.d * x.n * actSize x.fmt + 2047) / 2048

/-- The answer of SCAN_PINSTAT. -/
def State.pinAnswer (s : State) (result : Nat) (columns : Option Nat) : State :=
  let t := (s.putFld F.SCAN_PINSTAT_BUSY 0).putFld F.SCAN_PINSTAT_RESULT result
  match columns with
  | some c => t.putFld F.SCAN_PINSTAT_COLUMNS c
  | none => t

/-- R200: PIN of an unlocked stream. -/
def State.pinStream (s : State) (x : Stream) (m : Nat) : State :=
  if x.pin.isSome ∨ x.slot.isNone ∨ s.unitUsable fnMe m = false then s.pinAnswer 3 none
  else if 64 < s.pinnedCols m + x.columns then s.pinAnswer 2 none
  else (s.setStream { x with pin := some (m, x.columns), held := s.stateOf x }).pinAnswer 0 (some x.columns)

/-- R201: an unpinned stream's state is written to its slot, or to its swap area where FN_SMEM is not RUNNING and the area has room
(see log entry 44, DEDUCED). -/
def State.unpinStream (s : State) (x : Stream) : State :=
  let y := { x with pin := none, held := {} }
  let z := { y with slot := none, current := false }
  match s.freeEntry x.partition with
  | some e =>
    if s.fnState fnSmem = stRunning then s.storeState y x.held
    else (s.swapWrite x.partition (s.swapAddr x.partition e) (z.header ++ x.held.bytes x.fmt)).setStream { z with swap := some e }
  | none => s.storeState y x.held

/-- The request that SCAN_PINCTL holds, on an unlocked stream. -/
def State.doPin (s : State) : State :=
  match s.stream? (s.fld F.SCAN_PINCTL_PARTITION) (s.fld F.SCAN_PINCTL_SEQ) with
  | none => s.pinAnswer 1 none
  | some x =>
    if x.lock.isSome then s.setFlag F.SCAN_PINSTAT_BUSY
    else if s.fld F.SCAN_PINCTL_OP = 1 then s.pinStream x (s.fld F.SCAN_PINCTL_ME_SLOT)
    else if x.pin.isNone then s.pinAnswer 3 none
    else (s.unpinStream x).pinAnswer 0 none

/-- R201: a request that waited for a lock goes on. -/
def State.retryPin (s : State) : State := if s.flag F.SCAN_PINSTAT_BUSY then s.doPin else s

/-- A write of SCAN_PINCTL with an operation; ignored while a request waits. -/
def State.writePin (s : State) (op : Nat) (w : RegWrite) : State :=
  s.regWrite .SCAN (s.p0 w.initiator) (if s.flag F.SCAN_PINSTAT_BUSY then s
    else (s.setReg .SCAN_PINCTL (2 ^ 60 * op + w.value % 2 ^ 60)).doPin)

/-- PIN (R200). -/
def execPin (w : RegWrite) (s : State) : Host.Outcome State Fault Refusal := .next (s.writePin 1 w)

/-- UNPIN (R201). -/
def execUnpin (w : RegWrite) (s : State) : Host.Outcome State Fault Refusal := .next (s.writePin 2 w)

/-- R198: the kernels on Scan Engines that name a stream, but one. -/
def State.users (s : State) (p q id : Nat) : List Kernel :=
  s.esc.kernels.filter (fun x => x.cls == 1 && x.partition == p && x.unit.isSome && x.seqs.contains q && x.id != id)

/-- R198: the lock passes to the kernel that was dispatched first of those that name the stream. -/
def State.nextHolder (s : State) (p q id : Nat) : Option Nat :=
  ((s.users p q id).foldl (fun m x => match m with
    | none => some x
    | some (y : Kernel) => if x.order < y.order then some x else some y) none).map (·.id)

/-- R197, R198: what a completed kernel did with its streams ends: locks pass on, FREE releases the streams. -/
def State.releaseStreams (s : State) (k : Kernel) : State :=
  let mine := s.streams.filter (fun x => x.lock == some k.id)
  let t := mine.foldl (fun u x => if k.cls = 1 ∧ k.scan.free then u.dropStream x
    else u.setStream { x with lock := s.nextHolder x.partition x.seq k.id }) s
  t.retryPin

/-! The recurrence (R192). -/

/-- A column of one element over the steps: its coefficients a and products b × x. -/
abbrev Steps := List (Nat × Nat)

/-- Pass 1 and 3 of one chunk: from s and P of the steps before in the chunk, and H of the chunk before. -/
def chunkOut (hPrev : Nat) : Nat → Nat → Steps → List Nat
  | _, _, [] => []
  | sv, pv, (a, bx) :: l =>
    let s' := f32.fma a sv bx
    let p' := f32.mul pv a
    f32.fma p' hPrev s' :: chunkOut hPrev s' p' l

/-- Chunks of n steps, as many as given, from H on. -/
def chunksOut (n : Nat) : Nat → Nat → Steps → List Nat
  | 0, _, _ => []
  | k + 1, h, l =>
    if l.isEmpty then []
    else
      let out := chunkOut h 0 0x3F800000 (l.take n)
      out ++ chunksOut n k (out.getLastD h) (l.drop n)

/-- R192: every h of an element over its steps. -/
def scanElem (x : ScanDesc) (h : Nat) (l : Steps) : List Nat :=
  if x.mode = 1 then l.map (fun e => f32.fma e.1 h e.2) else chunksOut (2 ^ x.lLog2) (l.length + 1) h l

/-- A coefficient of sequence i, step t, at an index among cnt. -/
def State.coef (s : State) (x : ScanDesc) (a cnt i t j : Nat) : Nat :=
  let z := coefSize x.cfmt
  coefValue x.cfmt (s.num (a + z * ((i * x.t + t) * cnt + j)) z)

/-- The element (c, j) of sequence i over its steps (see log entry 44, DEDUCED). -/
def State.scanSteps (s : State) (x : ScanDesc) (k : Kernel) (i c j : Nat) : Steps :=
  (List.range x.t).map (fun t =>
    let a := s.coef x (k.scanRef 0x18) (if x.aElem then x.d * x.n else x.d) i t (if x.aElem then c * x.n + j else c)
    let b := s.coef x (k.scanRef 0x20) (if x.bElem then x.d * x.n else x.d) i t (if x.bElem then c * x.n + j else c)
    (a, f32.mul b (s.coef x (k.scanRef 0x28) x.d i t c)))

/-- The state that a kernel starts a stream from; free values where the stored state has another shape. -/
def State.startState (s : State) (x : ScanDesc) (st : Stream) : List Nat × State :=
  if x.init then (List.replicate (x.d * x.n) 0, s)
  else if st.d = x.d ∧ st.n = x.n ∧ st.fmt = x.sfmt then ((List.range (x.d * x.n)).map ((s.stateOf st).elem x.sfmt), s)
  else ((List.range (x.d * x.n)).map (fun i => ({ s with free := s.free + i }).freeNat 32),
    { s with free := s.free + x.d * x.n })

/-- The smallest k with n at most 2^k, for n up to 256. -/
def log2Up (n : Nat) : Nat := ((List.range 9).find? (fun k => decide (n ≤ 2 ^ k))).getD 8

/-- R192: y of channel c at a step, from the channel's h. -/
def State.scanY (s : State) (x : ScanDesc) (k : Kernel) (i t : Nat) (hs : List Nat) : Nat :=
  pairwise (log2Up x.n) ((List.range x.n).map (fun j =>
    f32.mul (s.coef x (k.scanRef 0x30) x.n i t j) (hs.getD j 0)))

/-- Saturations and NaNs counted for an engine (R194). -/
def State.countSat (s : State) (e sat nan : Nat) : State :=
  (s.addFld F.SCAN_SAT_SAT_CNT sat e).addFld F.SCAN_SAT_NAN_CNT nan e

/-- The outputs of a sequence's steps, in order: y in binary32, or the quantised states. hs lists each element's h over the
steps. -/
def State.scanOutput (s : State) (x : ScanDesc) (k : Kernel) (e i : Nat) (hs : List (List Nat)) : Nat → State × List Byte
  | 0 => (s, [])
  | t + 1 =>
    let r := s.scanOutput x k e i hs t
    let h := hs.map (fun l => l.getD t 0)
    if x.cEn then
      (r.1, r.2 ++ (List.range x.d).flatMap (fun c => toLe 4 (s.scanY x k i t ((h.drop (c * x.n)).take x.n))))
    else
      let q := quantise x.sfmt h
      (r.1.countSat e q.2.1 q.2.2, r.2 ++ q.1.bytes x.sfmt)

/-- The bytes that a sequence's sources span from their base on. -/
def srcBytes (x : ScanDesc) (cnt i : Nat) : Nat := coefSize x.cfmt * (i + 1) * x.t * cnt

/-- R200: the initiator class of a step: the EWP's on a pinned stream, else the Scan Engine's. -/
def Stream.cls (st : Stream) : Nat := if st.pin.isSome then 1 else 2

/-- The checks of a sequence's sources. -/
def State.checkSources (s : State) (x : ScanDesc) (k : Kernel) (cls i : Nat) : Run :=
  let p := k.partition
  let rd := fun (off cnt : Nat) (t : State) =>
    t.engCheck cls p (k.scanRef off + coefSize x.cfmt * i * x.t * cnt) (coefSize x.cfmt * x.t * cnt) false
  (rd 0x18 (if x.aElem then x.d * x.n else x.d) s).next (fun t =>
    (rd 0x20 (if x.bElem then x.d * x.n else x.d) t).next (fun t =>
      (rd 0x28 x.d t).next (fun t => if x.cEn then rd 0x30 x.n t else (t, none))))

/-- R195: a fault leaves the state at its last committed value and sets STEP_FAULT. -/
def State.stepFault (s : State) (p q : Nat) : State :=
  match s.stream? p q with
  | some st => s.putStream { st with stepFault := true }
  | none => s

/-- R193, R195: the new state of a stream stored, in its slot or in the accumulators that pin it (see log entry 44, DEDUCED). -/
def State.commitStream (s : State) (st : Stream) (x : ScanDesc) (c : ScanCopy) : State :=
  let st := { st with d := x.d, n := x.n, fmt := x.sfmt, steps := st.steps + x.t, stepFault := false, used := s.dev.nowNs }
  if st.pin.isSome then s.putStream { st with held := c } else s.storeState st c

/-- R195: both copies and the header of a kernel's state fit a slot. -/
def State.slotHolds (s : State) (x : ScanDesc) : Bool := decide (32 + 2 * copyBytes x.sfmt (x.d * x.n) ≤ s.slotBytes)

/-- One sequence of a kernel whose stream is known and ready (see log entry 44, DEDUCED). -/
def State.scanSeq (s : State) (r : ScanRun) (x : ScanDesc) (k : Kernel) (i : Nat) (st : Stream) : Run :=
  if x.mode = 0 ∧ st.pin.isSome then (s, some 0x12)
  else if st.pin.isNone ∧ s.slotHolds x = false then (s, some 0x11)
  else if r.ecc.map (·.1) = some i then (s.uncorrectable ((r.ecc.map (·.2)).getD 0) r.engine k.partition, some 0x09)
  else
    ((s.keyed (initiator st.cls k.partition)).checkSources x k st.cls i).next (fun s =>
      let h0 := s.startState x st
      let s := h0.2
      let hs := (List.range (x.d * x.n)).map (fun m =>
        scanElem x (h0.1.getD m 0) (s.scanSteps x k i (m / x.n) (m % x.n)))
      let out := s.scanOutput x k r.engine i hs x.t
      (out.1.engWrite st.cls k.partition (k.scanRef 0x38 + i * out.2.length) out.2).next (fun s =>
        let q := quantise x.sfmt (hs.map (fun l => l.getLastD 0))
        ((s.commitStream st x q.1).countSat r.engine q.2.1 q.2.2, none)))

/-- R197, R199: the stream of a sequence, allocated where INIT names an unknown one. -/
def State.findStream (s : State) (x : ScanDesc) (k : Kernel) (q : Nat) : Run × Option Stream :=
  match s.stream? k.partition q with
  | some st =>
    let st := { st with lock := some k.id, context := k.context }
    ((s.setStream st, none), some st)
  | none =>
    if x.init = false then ((s, some 0x10), none)
    else match s.takeSlot k.partition with
      | none => ((s, some 0x11), none)
      | some (n, t) =>
        let st : Stream := { partition := k.partition, seq := q, slot := some n, lock := some k.id }
        let st := { st with context := k.context, used := s.dev.nowNs }
        ((t.putStream st, none), some st)

/-- The sequence ID of a batch entry. -/
def State.scanSeqId (s : State) (k : Kernel) (i : Nat) : Nat := s.num (k.scanRef 0x10 + 4 * i) 4 % 2 ^ 24

/-- The sequences of a batch, one after another; a fault ends the kernel and names the sequence. -/
def scanBatch (r : ScanRun) (x : ScanDesc) (k : Kernel) : List Nat → State → Run × Nat
  | [], s => ((s, none), 0)
  | i :: l, s =>
    let q := s.scanSeqId k i
    let f := s.findStream x k q
    let out := match f.2 with
      | some st => f.1.1.scanSeq r x k i st
      | none => f.1
    match out.2 with
    | some c => ((out.1.stepFault k.partition q, some c), q)
    | none => scanBatch r x k l out.1

/-- R198 to R201: the kernel waits: a stream of it is locked by a kernel dispatched before, is swapped and can come back, lies in a granule
under scrub, or is pinned in an engine that is not at a kernel's boundary. -/
def State.scanWaits (s : State) (k : Kernel) (x : ScanDesc) : Bool :=
  (List.range x.batch).any (fun i =>
    (s.users k.partition (s.scanSeqId k i) k.id).any (fun y => decide (y.order < k.order)) ||
    match s.stream? k.partition (s.scanSeqId k i) with
    | some st => (st.lock.isSome && st.lock != some k.id) ||
        (match st.pin, st.slot with
          | some m, _ => x.mode == 1 && (s.running 0 m.1).isSome
          | none, some n => s.slotScrubbed n
          | none, none => (s.takeSlot k.partition).isSome)
    | none => false)

/-- R199: a swapped stream of the kernel cannot come back. -/
def State.scanLost (s : State) (k : Kernel) (x : ScanDesc) : Option Nat :=
  ((List.range x.batch).map (s.scanSeqId k)).find? (fun q =>
    (s.stream? k.partition q).any (fun st => st.pin.isNone && st.slot.isNone))

/-- SCAN_FAULT takes a fault; the kernel ends. -/
def State.scanFault (s : State) (e cause q : Nat) : State := s.noteFault .SCAN_FAULT cause q e

/-! COMBINE (R196). -/

/-- The records (X, Y) of row r of slice l, in ascending block order. -/
def State.blockRecords (s : State) (x : ScanDesc) (a l r : Nat) : List (Nat × Nat) :=
  (List.range x.d).map (fun b =>
    let m := a + 8 * (128 * (l * x.d + b) + r)
    (s.num m 4, s.num (m + 4) 4))

/-- R188: two softmax records together. -/
def State.smaxJoin (s : State) (u v : Nat × Nat) : (Nat × Nat) × State :=
  let ninf := 0xFF800000
  if u.1 = ninf ∧ v.1 = ninf then ((ninf, 0), s)
  else
    let m := ewpMax u.1 v.1
    let e := s.tableFn 0 (f32.sub u.1 m)
    let g := e.2.tableFn 0 (f32.sub v.1 m)
    ((m, f32.fma u.2 e.1 (f32.mul v.2 g.1)), g.2)

/-- R316, R317: the partial record of a stretch: the maximum, the sum, and the D outputs. -/
structure StretchRec where
  m : Nat
  l : Nat
  outs : List Nat
  deriving DecidableEq, Repr

/-- R317: the home folds the record of the next stretch in; maximum and sum as R188 joins two records. -/
def State.foldStretch (s : State) (acc r : StretchRec) : StretchRec × State :=
  let ninf := 0xFF800000
  let j := s.smaxJoin (acc.m, acc.l) (r.m, r.l)
  if acc.m = ninf ∧ r.m = ninf then ({ m := ninf, l := 0, outs := acc.outs.map (fun _ => 0) }, s)
  else
    let a := s.tableFn 0 (f32.sub acc.m j.1.1)
    let b := a.2.tableFn 0 (f32.sub r.m j.1.1)
    ({ m := j.1.1, l := j.1.2, outs := List.zipWith (fun x y => f32.fma x a.1 (f32.mul y b.1)) acc.outs r.outs }, b.2)

/-- R317: the records of a context's stretches folded in ascending stretch index. -/
def foldStretches : List StretchRec → StretchRec → State → StretchRec × State
  | [], acc, s => (acc, s)
  | r :: l, acc, s =>
    let x := s.foldStretch acc r
    foldStretches l x.1 x.2

/-- R317: the outputs: each over the sum by slot 8, rounded once, and 0 where the sum is 0. -/
def State.stretchOut (s : State) (acc : StretchRec) : List Nat :=
  if acc.l % 2 ^ 31 = 0 then acc.outs.map (fun _ => 0)
  else
    let r := (s.tableFn 8 acc.l).1
    acc.outs.map (fun x => f32.mul x r)

/-- Two statistic records together. -/
def statJoin (u v : Nat × Nat) : Nat × Nat := (f32.add u.1 v.1, f32.add u.2 v.2)

/-- Records joined by kind. -/
def State.joinRec (s : State) (stat : Bool) (u v : Nat × Nat) : (Nat × Nat) × State :=
  if stat then (statJoin u v, s) else s.smaxJoin u v

/-- The record that stands for a missing one. -/
def noRecord (stat : Bool) : Nat × Nat := if stat then (0, 0) else (0xFF800000, 0)

/-- Records joined one at a time in order. -/
def joinList (stat : Bool) : List (Nat × Nat) → Nat × Nat → State → (Nat × Nat) × State
  | [], acc, s => (acc, s)
  | v :: l, acc, s =>
    let r := s.joinRec stat acc v
    joinList stat l r.1 r.2

/-- R186: records joined pairwise by halves. -/
def joinPairs (stat : Bool) : Nat → List (Nat × Nat) → State → (Nat × Nat) × State
  | 0, l, s => (l.headD (noRecord stat), s)
  | k + 1, l, s =>
    let a := joinPairs stat k (l.take (2 ^ k)) s
    let b := joinPairs stat k (l.drop (2 ^ k)) a.2
    b.2.joinRec stat a.1 b.1

/-- A slice's records joined. -/
def State.joinSlice (s : State) (x : ScanDesc) (a l r : Nat) : (Nat × Nat) × State :=
  match s.blockRecords x a l r with
  | [] => (noRecord x.aElem, s)
  | v :: rest => joinList x.aElem rest v s

/-- The slices of a row joined, each in order. -/
def joinSlices (x : ScanDesc) (a r : Nat) : List Nat → State → List (Nat × Nat) × State
  | [], s => ([], s)
  | l :: ls, s =>
    let u := s.joinSlice x a l r
    let v := joinSlices x a r ls u.2
    (u.1 :: v.1, v.2)

/-- R196: a row's output record. RMS with bit 4 set gives μ = 0. -/
def State.combineRow (s : State) (x : ScanDesc) (k : Kernel) (r : Nat) : (Nat × Nat) × State :=
  let sl := joinSlices x (k.scanRef 0x18) r (List.range (min x.n 32)) s
  let v := joinPairs x.aElem 5 sl.1 sl.2
  if x.aElem = false then v
  else
    let inv := s.num (k.scanRef 0x28) 4
    let eps := s.num (k.scanRef 0x28 + 4) 4
    let mu := if x.bElem then 0 else f32.mul v.1.1 inv
    let y := v.2.tableFn 7 (f32.sub (f32.fma v.1.2 inv eps) (f32.mul mu mu))
    ((mu, y.1), y.2)

/-- The rows of a tile combined into row records. -/
def combineRows (x : ScanDesc) (k : Kernel) : List Nat → State → Run
  | [], s => (s, none)
  | r :: l, s =>
    let v := s.combineRow x k r
    (v.2.engWrite 2 k.partition (k.scanRef 0x38 + 8 * r) (toLe 4 v.1.1 ++ toLe 4 v.1.2)).next (combineRows x k l)

/-- A listed stream is pinned (R200). -/
def State.combinePinned (s : State) (x : ScanDesc) (k : Kernel) : Option Nat :=
  if s.memOk (initiator 2 k.partition) (k.scanRef 0x10) (4 * x.batch) false then
    ((List.range x.batch).map (s.scanSeqId k)).find? (fun q => (s.stream? k.partition q).any (fun st => st.pin.isSome))
  else none

/-- A COMBINE kernel. -/
def State.combine (s : State) (r : ScanRun) (x : ScanDesc) (k : Kernel) : Run × Nat :=
  match s.combinePinned x k with
  | some q => ((s, some 0x12), q)
  | none =>
    if r.ecc.isSome then ((s.uncorrectable ((r.ecc.map (·.2)).getD 0) r.engine k.partition, some 0x09), 0)
    else ((s.engCheck 2 k.partition (k.scanRef 0x18) (8 * 128 * x.d * min x.n 32) false).next (fun t =>
      (if x.aElem then t.engCheck 2 k.partition (k.scanRef 0x28) 8 false else (t, none) : Run).next
        (combineRows x k (List.range 128))), 0)

/-- The streams that a kernel names as it is dispatched (R198). -/
def State.seqList (s : State) (k : Kernel) : List Nat :=
  if k.cls = 1 ∧ k.scan.mode ≠ 2 ∧ k.scan.bad = false ∧
      s.memOk (initiator 2 k.partition) (k.scanRef 0x10) (4 * k.scan.batch) false = true then
    (List.range k.scan.batch).map (s.scanSeqId k)
  else []

/-- R198: a dispatched kernel takes the locks of its streams that no kernel holds. -/
def State.takeLocks (s : State) (k : Kernel) (qs : List Nat) : State :=
  qs.foldl (fun t q =>
    match t.stream? k.partition q with
    | some st => if st.lock.isNone then t.setStream { st with lock := some k.id, context := k.context } else t
    | none => t) s

/-! The commands. -/

/-- A kernel of a mode on a Scan Engine; mode 0 also takes the modes that do not exist (see log entry 44, DEDUCED). -/
def State.scanRun (s0 : State) (mode : Nat) (r : ScanRun) : State :=
  match s0.running 1 r.engine with
  | none => s0
  | some k =>
    let s := s0.keyed (initiator 2 k.partition)
    let x := k.scan
    if (if x.mode = 1 ∨ x.mode = 2 then x.mode else 0) ≠ mode then s
    else if x.bad then (s.scanFault r.engine 0x02 0).endKernel k.id csEngine
    else if mode ≠ 2 ∧ s.memOk (initiator 2 k.partition) (k.scanRef 0x10) (4 * x.batch) false = false then
      ((s.recordDenial (initiator 2 k.partition) (k.scanRef 0x10) (4 * x.batch) false).scanFault r.engine 0x07 0).endKernel
        k.id csEngine
    else if mode ≠ 2 ∧ s.scanWaits k x then s
    else
      let out := if mode = 2 then s.combine r x k
        else match s.scanLost k x with
          | some q => ((s.stepFault k.partition q, some 0x11), q)
          | none => scanBatch r x k (List.range x.batch) s
      s0.settled ((State.endRun out.1 k (fun t c => t.scanFault r.engine c out.2)).addReg .SCAN_BUSY 64 r.cycles r.engine)

/-- SCAN_CHUNK (R192). -/
def execScanChunk (x : ScanRun) (s : State) : Host.Outcome State Fault Refusal := .next (s.scanRun 0 x)

/-- SCAN_STEP (R192). -/
def execScanStep (x : ScanRun) (s : State) : Host.Outcome State Fault Refusal := .next (s.scanRun 1 x)

/-- SCAN_COMBINE (R196). -/
def execScanCombine (x : ScanRun) (s : State) : Host.Outcome State Fault Refusal := .next (s.scanRun 2 x)

end Sys2Proof.Machine
end

