-- ==== Sys2Proof/Machine/Vision.lean ====
section
/-! DEFINITION. The jobs of the Edge Engines, Resamplers and Pre-processing Engines (file 08: R242, R246 to R261). -/

namespace Sys2Proof.Machine

/-! The job descriptor (Table VIS-3). -/

def Kernel.jobFlags (k : Kernel) : Nat := leAt k.unitDesc 1 1
def Kernel.src (k : Kernel) : Planar := planarOf k.base (bytesAt k.unitDesc 0x20 32)
def Kernel.dst (k : Kernel) : Planar := planarOf k.base (bytesAt k.unitDesc 0x40 32)

/-- A byte of SPEC, at its offset in the descriptor. -/
def Kernel.spec (k : Kernel) (off : Nat) (n : Nat := 1) : Nat := leAt k.unitDesc off n

/-- An address of SPEC. -/
def Kernel.specRef (k : Kernel) (off : Nat) : Nat := k.base (leAt k.unitDesc off 8 / 2 ^ 62) + 32 * (leAt k.unitDesc off 8 % 2 ^ 32)

/-- The bits of an address field that are defined. -/
def Kernel.specRefOk (k : Kernel) (off : Nat) : Bool := bitsOf (leAt k.unitDesc off 8) 61 32 == 0

/-- R246: the base selects of a unit's job are 0. -/
def Kernel.jobBases (k : Kernel) : Bool :=
  let refs := [0x20, 0x40] ++ (match leAt k.unitDesc 0 1 with
    | 0 => [0x68, 0x70]
    | 2 => [0x70]
    | _ => [])
  refs.all (fun off => leAt k.unitDesc off 8 / 2 ^ 62 == 0)

/-- The descriptor's common fields for a unit: its number, the flags defined, zero fields, and the base selects of a packet's job. -/
def Kernel.jobOk (k : Kernel) (unit flags : Nat) : Bool :=
  (k.flight.isNone || k.jobBases) && leAt k.unitDesc 0 1 == unit && (k.jobFlags &&& (255 - flags)) == 0 && allZero (bytesAt k.unitDesc 2 6) &&
    allZero (bytesAt k.unitDesc 0x10 16) && (unit == 2 || leAt k.unitDesc 8 8 == 0)

/-- The byte after the last byte of a planar tensor. -/
def Planar.last (r : Planar) : Nat := planarAt r (r.c - 1) (r.h - 1) r.w

/-- Two byte ranges meet. -/
def bytesMeet (a b c d : Nat) : Bool := decide (a < d ∧ c < b)

/-- The rows of a planar output written in order, plane by plane; counted saturations go with the rows. -/
def writeRows (cls p : Nat) (dst : Planar) (row : State → Nat → Nat → List Converted) : List (Nat × Nat) → State → Run × Nat
  | [], s => ((s, none), 0)
  | (c, y) :: l, s =>
    let out := row s c y
    let r := s.engWrite cls p (planarAt dst c y 0) (out.flatMap (fun v => toLe (fmtSize dst.fmt) v.code))
    if r.2.isSome then (r, 0)
    else
      let q := writeRows cls p dst row l r.1
      (q.1, q.2 + (out.filter (·.sat)).length)

/-- The rows of a planar tensor, plane by plane. -/
def Planar.rows (r : Planar) : List (Nat × Nat) := (List.range r.c).flatMap (fun c => (List.range r.h).map (fun y => (c, y)))

/-- The reads of a job's unit, an address and a length each, judged one by one (R247, R281). -/
def State.jobReads (s : State) (cls p : Nat) (l : List (Nat × Nat)) : Run :=
  runAll (fun (e : Nat × Nat) t => t.engCheck cls p e.1 e.2 false) l s

/-! Edge Engines (R248 to R250). -/

/-- R244: the input positions of an axis of n that some output's taps meet: outputs, padding, stride, taps and dilation. -/
def tapsMeet (n outs pad stride taps dil : Nat) : List Nat :=
  (List.range n).filter (fun i => (List.range outs).any (fun o => (List.range taps).any (fun t => o * stride + t * dil == pad + i)))

/-- K_total of an Edge job. -/
def Kernel.kTotal (k : Kernel) : Nat := k.src.c * k.spec 0x60 * k.spec 0x61

/-- R248: Table VIS-4's ranges. -/
def Kernel.edgeOk (k : Kernel) : Bool :=
  let src := k.src
  let dst := k.dst
  let kh := k.spec 0x60
  let kw := k.spec 0x61
  let rng := fun n lo hi => decide (lo ≤ n ∧ n ≤ hi)
  k.jobOk 0 4 && planarOk src && planarOk dst && k.specRefOk 0x68 && k.specRefOk 0x70 && k.spec 0x7E 2 == 0 &&
    rng (k.spec 0x62) 1 8 && rng (k.spec 0x63) 1 8 && rng (k.spec 0x64) 1 16 && rng (k.spec 0x65) 1 16 &&
    (dst.fmt ≤ 1 || k.spec 0x7A == 0) &&
    (match k.spec 0x7B with
     | 0 => rng src.c 1 4 && rng dst.c 1 64 && rng kh 1 11 && rng kw 1 11
     | 1 => rng src.c 1 1024 && rng dst.c 1 8 && rng kh 1 3 && rng kw 1 3
     | _ => false)

/-- The formats of an Edge job. -/
def Kernel.edgeFmt (k : Kernel) : Bool := k.src.fmt ≤ 1 && ([0, 1, 4, 5] : List Nat).contains k.dst.fmt

/-- R247, R248: what an Edge job reads: of each input row that a window meets, the columns from the first to the last that one meets; each
output channel's weights and its bias. -/
def Kernel.edgeReads (k : Kernel) : List (Nat × Nat) :=
  let src := k.src
  let rows := tapsMeet src.h k.dst.h (k.spec 0x66) (k.spec 0x62) (k.spec 0x60) (k.spec 0x64)
  let cols := tapsMeet src.w k.dst.w (k.spec 0x67) (k.spec 0x63) (k.spec 0x61) (k.spec 0x65)
  let lo := cols.headD 0
  let hi := cols.getLastD 0
  (if cols.isEmpty then [] else
    (List.range src.c).flatMap (fun c => rows.map (fun y => (planarAt src c y lo, fmtSize src.fmt * (hi + 1 - lo))))) ++
    (List.range k.dst.c).map (fun n => (k.specRef 0x68 + 32 * ((k.kTotal + 31) / 32) * n, k.kTotal)) ++
    if k.spec 0x70 8 = 0 then [] else (List.range k.dst.c).map (fun n => (k.specRef 0x70 + 4 * n, 4))

/-- R249, R250: an output of channel n at (y, x). -/
def State.edgeOut (s : State) (k : Kernel) (n y x : Nat) : Converted :=
  let src := k.src
  let kt := (List.range 8).map (fun i => k.spec (0x60 + i))
  let total := k.kTotal
  let ws := s.elems (k.specRef 0x68 + 32 * ((total + 31) / 32) * n) 1 total
  let pairs := (List.range total).map (fun i =>
    (codeInt (actValue src.fmt (s.windowCode 1 (windowAt src kt 0 (k.spec 0x7C 2) (y, x) i))), signedOf 8 (ws.getD i 0)))
  let c : MeCol := { integer := true, eCol := signedOf 8 (k.spec 0x78) + src.exp, colSum := pairs.foldl (fun m e => m + e.2) 0 }
  let e : MeEntry := { sum := pairs.foldl (fun m e => m + e.1 * e.2) 0 }
  let bias := if k.spec 0x70 8 = 0 then none else some (s.num (k.specRef 0x70 + 4 * n) 4)
  let relu := k.jobFlags.testBit 2
  match drainEntry c bias (some src.zp) e with
  | .sum v =>
    let v := if relu && decide (v < 0) then 0 else v
    convOut k.dst.fmt (k.spec 0x7A) (Num.ofInt v (c.eCol - signedOf 8 (k.spec 0x79)))
  | .overflow neg _ _ =>
    if relu && neg then convOut k.dst.fmt (k.spec 0x7A) (Num.ofInt 0 0) else { code := largest k.dst.fmt neg, sat := true }
  | .special v => convOut k.dst.fmt (k.spec 0x7A) v

/-- R248: the Edge job's effect, with the outputs saturated. -/
def State.edgeBody (s : State) (k : Kernel) : Run × Nat :=
  let p := k.partition
  if k.jobOk 0 4 = false then ((s, some 0x02), 0)
  else if k.edgeFmt = false then ((s, some 0x03), 0)
  else if k.edgeOk = false then ((s, some 0x02), 0)
  else if bytesMeet k.src.addr k.src.last k.dst.addr k.dst.last then ((s, some 0x30), 0)
  else
    let r := s.jobReads 4 p k.edgeReads
    if r.2.isSome then (r, 0)
    else writeRows 4 p k.dst (fun t n y => (List.range k.dst.w).map (t.edgeOut k n y)) k.dst.rows r.1

/-! Resize (R251, R252). -/

/-- R251: the two samples of an axis and the fraction. -/
def resizeAxis (nin nout o : Nat) : Nat × Nat × Nat :=
  let q := (2 * o + 1) * nin * 256 / (2 * nout) - 128
  if nin - 1 ≤ q / 256 then (nin - 1, nin - 1, 0) else (q / 256, min (q / 256 + 1) (nin - 1), q % 256)

/-- R251: the nearest sample of an axis. -/
def nearestAxis (nin nout o : Nat) : Nat := min ((2 * o + 1) * nin / (2 * nout)) (nin - 1)

/-- R252: bilinear interpolation of integers. -/
def bilinearInt (a b c d : Int) (fx fy : Nat) : Int :=
  let h0 := a * (256 - fx : Nat) + b * fx
  let h1 := c * (256 - fx : Nat) + d * fx
  (h0 * (256 - fy : Nat) + h1 * fy + 32768) / 65536

/-- n / 256 in binary32. -/
def part256 (n : Nat) : Nat := f32.round false n (-8)

/-- R252: bilinear interpolation of BF16 codes. -/
def bilinearBf16 (a b c d : Nat) (fx fy : Nat) : Nat :=
  let v := fun x => f32.encode (bf16.decode x)
  let h0 := f32.fma (v b) (part256 fx) (f32.mul (v a) (part256 (256 - fx)))
  let h1 := f32.fma (v d) (part256 fx) (f32.mul (v c) (part256 (256 - fx)))
  bf16.encode (f32.decode (f32.fma h1 (part256 fy) (f32.mul h0 (part256 (256 - fy)))))

/-! Resamplers (R253). -/

/-- R253: the fields of a Resampler job. -/
def Kernel.resampleOk (k : Kernel) : Bool :=
  let a := k.src
  let b := k.dst
  k.jobOk 1 0 && planarOk a && planarOk b && decide (k.spec 0x60 ≤ 1) && allZero (bytesAt k.unitDesc 0x61 31) &&
    decide (a.w ≤ b.w ∧ b.w ≤ 16 * a.w ∧ a.h ≤ b.h ∧ b.h ≤ 16 * a.h) && a.c == b.c && a.fmt == b.fmt && a.exp == b.exp && a.zp == b.zp &&
    ([0, 1, 4] : List Nat).contains a.fmt

/-- R253: an output element of a Resampler. -/
def State.resampleOut (s : State) (k : Kernel) (c y x : Nat) : Converted :=
  let a := k.src
  let at_ := fun (iy ix : Nat) => s.num (planarAt a c iy ix) (fmtSize a.fmt)
  if k.spec 0x60 = 0 then { code := at_ (nearestAxis a.h k.dst.h y) (nearestAxis a.w k.dst.w x) }
  else
    let rx := resizeAxis a.w k.dst.w x
    let ry := resizeAxis a.h k.dst.h y
    let e := (at_ ry.1 rx.1, at_ ry.1 rx.2.1, at_ ry.2.1 rx.1, at_ ry.2.1 rx.2.1)
    if a.fmt = 4 then { code := bilinearBf16 e.1 e.2.1 e.2.2.1 e.2.2.2 rx.2.2 ry.2.2 }
    else
      let v := fun c => codeInt (actValue a.fmt c)
      { code := ofSigned 8 (bilinearInt (v e.1) (v e.2.1) (v e.2.2.1) (v e.2.2.2) rx.2.2 ry.2.2) }

/-- R253: the Resampler job's effect. -/
def State.resampleBody (s : State) (k : Kernel) : Run × Nat :=
  if k.resampleOk = false then ((s, some 0x02), 0)
  else if bytesMeet k.src.addr k.src.last k.dst.addr k.dst.last then ((s, some 0x30), 0)
  else
    let r := s.jobReads 4 k.partition (k.src.rows.map (fun e => (planarAt k.src e.1 e.2 0, fmtSize k.src.fmt * k.src.w)))
    if r.2.isSome then (r, 0)
    else writeRows 4 k.partition k.dst (fun t c y => (List.range k.dst.w).map (t.resampleOut k c y)) k.dst.rows r.1

/-! Pre-processing Engines (R254 to R259). -/

/-- Planes that a source gives. -/
def ppePlanes (r : Planar) : Nat := if 8 ≤ r.fmt then 3 else r.c

/-- The source has half-size chroma. -/
def is420 (fmt : Nat) : Bool := fmt == 8 || fmt == 9

/-- Bytes of a source row. -/
def ppeRowBytes (r : Planar) : Nat := match r.fmt with
  | 9 => 2 * r.w
  | 10 => 3 * r.w
  | _ => r.w

/-- Table VIS-5: the fields of a PPE source. -/
def ppeSrcOk (r : Planar) : Bool :=
  if 8 ≤ r.fmt then
    r.zero && decide (r.fmt ≤ 10 ∧ 1 ≤ r.w ∧ r.w ≤ 8192 ∧ 1 ≤ r.h ∧ r.h ≤ 8192 ∧ (ppeRowBytes r + 31) / 32 ≤ r.rowPitch) &&
      (!is420 r.fmt || decide (r.h * r.rowPitch ≤ r.planePitch))
  else planarOk r && r.fmt == 1 && decide (r.c ≤ 4)

/-- The byte after a PPE source's last byte. -/
def ppeSrcEnd (r : Planar) : Nat :=
  if is420 r.fmt then r.addr + 32 * r.planePitch + 32 * r.rowPitch * ((r.h + 1) / 2 - 1) + ppeRowBytes r
  else if r.fmt = 10 then r.addr + 32 * r.rowPitch * (r.h - 1) + ppeRowBytes r
  else r.last

/-- A plane of a 4:2:0 source other than Y. -/
def isChroma (fmt plane : Nat) : Bool := is420 fmt && plane != 0

/-- R254: the sample of a plane at its own coordinates, 0 to 255. -/
def State.ppeRead (s : State) (r : Planar) (plane y x : Nat) : Nat :=
  let ten := fun a => min 255 ((s.num a 2 / 64 + 2) / 4)
  let uv := r.addr + 32 * r.planePitch + 32 * r.rowPitch * y
  match r.fmt with
  | 8 => if plane = 0 then s.num (r.addr + 32 * r.rowPitch * y + x) 1 else s.num (uv + 2 * x + (plane - 1)) 1
  | 9 => if plane = 0 then ten (r.addr + 32 * r.rowPitch * y + 2 * x) else ten (uv + 4 * x + 2 * (plane - 1))
  | 10 => s.num (r.addr + 32 * r.rowPitch * y + 3 * x + plane) 1
  | _ => s.num (planarAt r plane y x) 1

/-- A PPE job's fields beyond the references. -/
structure PpeSpec where
  cx : Nat
  cy : Nat
  cw : Nat
  ch : Nat
  rot : Nat
  hflip : Bool
  vflip : Bool
  resize : Nat
  csc : Nat
  order : Nat
  shift : Nat
  norm : Nat
  deriving DecidableEq, Repr

/-- The fields read from the descriptor. -/
def Kernel.ppe5 (k : Kernel) : PpeSpec where
  cx := k.spec 0x60 2
  cy := k.spec 0x62 2
  cw := k.spec 0x64 2
  ch := k.spec 0x66 2
  rot := k.spec 0x68 % 4
  hflip := (k.spec 0x68).testBit 2
  vflip := (k.spec 0x68).testBit 3
  resize := k.spec 0x69
  csc := k.spec 0x6A
  order := k.spec 0x6B
  shift := k.spec 0x6C
  norm := k.specRef 0x70

/-- The oriented size of a plane of a crop of cw × ch. -/
def oriented (rot cw ch : Nat) : Nat × Nat := if rot % 2 = 1 then (ch, cw) else (cw, ch)

/-- R255: the crop coordinate of an oriented coordinate. -/
def orient (x : PpeSpec) (cw ch u v : Nat) : Nat × Nat :=
  let o := oriented x.rot cw ch
  let u := if x.hflip then o.1 - 1 - u else u
  let v := if x.vflip then o.2 - 1 - v else v
  match x.rot with
  | 0 => (u, v)
  | 1 => (v, ch - 1 - u)
  | 2 => (cw - 1 - u, ch - 1 - v)
  | _ => (cw - 1 - v, u)

/-- R254 to R256: the fields of a PPE job. -/
def Kernel.ppeOk (k : Kernel) : Bool :=
  let x := k.ppe5
  let a := k.src
  let b := k.dst
  let o := oriented x.rot x.cw x.ch
  k.jobOk 2 3 && ppeSrcOk a && planarOk b && ([0, 1, 4] : List Nat).contains b.fmt && k.specRefOk 0x70 &&
    decide (1 ≤ x.cw ∧ 1 ≤ x.ch ∧ x.cx + x.cw ≤ a.w ∧ x.cy + x.ch ≤ a.h) &&
    (!is420 a.fmt || (x.cx % 2 == 0 && x.cy % 2 == 0 && x.cw % 2 == 0 && x.ch % 2 == 0)) &&
    decide (k.spec 0x68 < 16 ∧ x.resize ≤ 1 ∧ x.csc ≤ 3 ∧ x.order ≤ 1 ∧ x.shift ≤ 24) && k.spec 0x6D 3 == 0 && k.spec 0x78 8 == 0 &&
    decide (b.w ≤ 16 * o.1 ∧ o.1 ≤ 16 * b.w ∧ b.h ≤ 16 * o.2 ∧ o.2 ≤ 16 * b.h) &&
    (x.csc == 0 || ppePlanes a == 3) && (x.order == 0 || 3 ≤ ppePlanes a) && b.c == ppePlanes a

/-- What R259 makes of the source's rows: all good; good up to a line; none good. -/
inductive GoodRows where
  | all
  | upTo (line : Nat)
  | none
  deriving DecidableEq, Repr

/-- R259: the row that a source row reads as. -/
def GoodRows.row (g : GoodRows) (chroma : Bool) (y : Nat) : Nat :=
  match g with
  | .upTo l => min y (if chroma then l / 2 else l)
  | _ => y

/-- The sample of a plane at an oriented coordinate. Where no line is good the sample is a free value (see log entry 46, DEDUCED). -/
def State.ppeSample (s : State) (k : Kernel) (g : GoodRows) (plane u v : Nat) : Nat :=
  let x := k.ppe5
  let h := if isChroma k.src.fmt plane then 2 else 1
  let c := orient x (x.cw / h) (x.ch / h) u v
  let y := x.cy / h + c.2
  if g = .none then ({ s with free := s.free + (2 ^ 28 * plane + 2 ^ 14 * y + c.1) }).freeNat 8
  else s.ppeRead k.src plane (g.row (isChroma k.src.fmt plane) y) (x.cx / h + c.1)

/-- R256: a plane's value at an output coordinate. -/
def State.ppeScaled (s : State) (k : Kernel) (g : GoodRows) (plane y x : Nat) : Int :=
  let p := k.ppe5
  let h := if isChroma k.src.fmt plane then 2 else 1
  let o := oriented p.rot (p.cw / h) (p.ch / h)
  let at_ := fun v u => s.ppeSample k g plane u v
  if p.resize = 0 then at_ (nearestAxis o.2 k.dst.h y) (nearestAxis o.1 k.dst.w x)
  else
    let rx := resizeAxis o.1 k.dst.w x
    let ry := resizeAxis o.2 k.dst.h y
    bilinearInt (at_ ry.1 rx.1) (at_ ry.1 rx.2.1) (at_ ry.2.1 rx.1) (at_ ry.2.1 rx.2.1) rx.2.2 ry.2.2

/-- R257: the coefficients of an output channel and oY. -/
def State.cscRow (s : State) (x : PpeSpec) (c : Nat) : Int × Int × Int × Int :=
  match x.csc, c with
  | 1, 0 => (4769, 0, 6537, 16)
  | 1, 1 => (4769, -1605, -3330, 16)
  | 1, _ => (4769, 8263, 0, 16)
  | 2, 0 => (4769, 0, 7343, 16)
  | 2, 1 => (4769, -873, -2183, 16)
  | 2, _ => (4769, 8652, 0, 16)
  | _, c =>
    let m := fun i => signedOf 16 (s.num (x.norm + 0x20 + 2 * (3 * c + i)) 2)
    (m 0, m 1, m 2, s.num (x.norm + 0x20 + 18) 2)

/-- R257: a produced plane's value. -/
def State.ppeColour (s : State) (k : Kernel) (g : GoodRows) (c y x : Nat) : Int :=
  let p := k.ppe5
  if p.csc = 0 then s.ppeScaled k g c y x
  else
    let r := s.cscRow p c
    clampInt 0 255 ((r.1 * (s.ppeScaled k g 0 y x - r.2.2.2) + r.2.1 * (s.ppeScaled k g 1 y x - 128) +
      r.2.2.1 * (s.ppeScaled k g 2 y x - 128) + 2048) / 4096)

/-- R258: normalisation of a value of output plane c. -/
def State.ppeNorm (s : State) (k : Kernel) (c : Nat) (v : Int) : Converted :=
  let p := k.ppe5
  let t := v * signedOf 16 (s.num (p.norm + 8 * c) 2) + signedOf 32 (s.num (p.norm + 8 * c + 4) 4)
  let r := if p.shift = 0 then t else (t + 2 ^ (p.shift - 1)) / 2 ^ p.shift
  let lo : Int := if k.dst.fmt = 0 then -128 else 0
  let hi : Int := if k.dst.fmt = 0 then 127 else 255
  if k.dst.fmt = 4 then { code := bf16.encode (Num.ofInt t (-p.shift)) }
  else { code := ofSigned 8 (clampInt lo hi r), sat := decide (r < lo ∨ hi < r) }

/-- An output of a PPE job. -/
def State.ppeOut (s : State) (k : Kernel) (g : GoodRows) (c y x : Nat) : Converted :=
  s.ppeNorm k c (s.ppeColour k g (if k.ppe5.order = 1 ∧ c ≠ 1 ∧ c < 3 then 2 - c else c) y x)

/-- R259: the frame status word that a job reads. -/
def State.frameStatus (s : State) (k : Kernel) : Nat := if leAt k.unitDesc 8 8 = 0 then 0 else s.num (leAt k.unitDesc 8 8) 4

/-- R259: the rows that a status word leaves good. -/
def goodRows (st : Nat) : GoodRows :=
  if st.testBit 30 = false then .all else if st % 65536 = 0xFFFF then .none else .upTo (st % 65536)

/-- R119, R261: the initiator class of a PPE job: a PPE's, or the application cores' for a routed one. -/
def Kernel.jobClass (k : Kernel) : Nat := if k.routed then 7 else 4

/-- R247, R254: what a PPE job reads: the rows of its crop window in each plane, as far as they are good (R259), and its table. -/
def Kernel.ppeReads (k : Kernel) (g : GoodRows) : List (Nat × Nat) :=
  let r := k.src
  let x := k.ppe5
  let rows := fun (h : Nat) => ((List.range (x.ch / h)).map (fun i => g.row (h == 2) (x.cy / h + i))).dedup
  let e := if r.fmt = 9 then 2 else 1
  let chroma := r.addr + 32 * r.planePitch
  (match g, r.fmt with
   | .none, _ => []
   | _, 10 => (rows 1).map (fun y => (r.addr + 32 * r.rowPitch * y + 3 * x.cx, 3 * x.cw))
   | _, 8 | _, 9 => (rows 1).map (fun y => (r.addr + 32 * r.rowPitch * y + e * x.cx, e * x.cw)) ++
       (rows 2).map (fun y => (chroma + 32 * r.rowPitch * y + e * x.cx, e * x.cw))
   | _, _ => (List.range r.c).flatMap (fun c => (rows 1).map (fun y => (planarAt r c y x.cx, x.cw)))) ++
    (List.range k.dst.c).map (fun c => (x.norm + 8 * c, 8)) ++ if x.csc = 3 then [(x.norm + 0x20, 20)] else []

/-- R254: the PPE job's effect: the fault, the outputs saturated and the frame status word. -/
def State.ppeBody (s : State) (k : Kernel) : Run × Nat × Nat :=
  if k.ppeOk = false then ((s, some 0x02), 0, 0)
  else if bytesMeet k.src.addr (ppeSrcEnd k.src) k.dst.addr k.dst.last then ((s, some 0x30), 0, 0)
  else
    let f := leAt k.unitDesc 8 8
    let r := if f = 0 then (s, none) else s.engCheck k.jobClass k.partition f 4 false
    let st := s.frameStatus k
    if r.2.isSome then (r, 0, 0)
    else if st.testBit 30 ∧ k.jobFlags.testBit 1 = false then (r, 0, st)
    else
      let r := r.1.jobReads k.jobClass k.partition (k.ppeReads (goodRows st))
      if r.2.isSome then (r, 0, 0)
      else
        let w := writeRows k.jobClass k.partition k.dst (fun t c y => (List.range k.dst.w).map (t.ppeOut k (goodRows st) c y)) k.dst.rows r.1
        ((if goodRows st = .none then { w.1.1 with free := w.1.1.free + 2 ^ 32 } else w.1.1, w.1.2), w.2, st)

/-! The end of a job. -/

/-- A job's status and RESULT. -/
def State.endJob (s : State) (k : Kernel) (st result : Nat) : State :=
  (s.setKernel { k with status := some st, result := result })

/-- The unit number of VIS of a kernel class's unit. -/
def visUnit (cls n : Nat) : Nat := 4 * (cls - 3) + n

/-- VIS_UFAULT takes a fault and the job ends, with the outputs that it had saturated. -/
def State.jobFault (s : State) (u : Option Nat) (k : Kernel) (cause sat : Nat) : State :=
  (match u with
   | some n => s.noteFault .VIS_UFAULT cause k.code n
   | none => s).endJob k (causeStatus cause) (2 * b2n k.routed + 2 ^ 32 * (sat % 2 ^ 32))

/-- Outputs counted for a unit. -/
def State.countOut (s : State) (u : Option Nat) (sat : Nat) (partly : Bool) : State :=
  match u with
  | some n => (s.addFld F.VIS_USAT_SAT_CNT sat n).addFld F.VIS_USAT_PARTIAL (b2n partly) n
  | none => s

/-- A job run to its end. st is the frame status word that a PPE read: a truncated frame ends FRAME_TRUNCATED with nothing written, or
DONE_CLAMPED with PARTIAL (R259). RESULT bit 0 is PARTIAL, bit 1 OVERFLOW, bits 63:32 the saturated outputs (R246). -/
def State.finishJob (u : Option Nat) (k : Kernel) (r : Run × Nat × Nat) : State :=
  match r.1.2 with
  | some c => (r.1.1.countOut u r.2.1 false).jobFault u k c r.2.1
  | none =>
    let cut := r.2.2.testBit 30
    if cut ∧ k.jobFlags.testBit 1 = false then r.1.1.endJob k csTruncated (2 * b2n k.routed)
    else (r.1.1.countOut u r.2.1 cut).endJob k (if cut then csClamped else csDone)
      (b2n cut + 2 * b2n k.routed + 2 ^ 32 * (r.2.1 % 2 ^ 32))

/-- A job with a memory error, or its body. -/
def State.jobRun (s : State) (u : Option Nat) (k : Kernel) (ecc : Option Nat) (body : State → Run × Nat × Nat) : State :=
  match ecc with
  | some a => State.finishJob u k ((s.uncorrectable a (u.getD 0) k.partition, some 0x09), 0, 0)
  | none => State.finishJob u k (body s)

/-- A job of a class on its unit. -/
def State.visRun (s : State) (cls : Nat) (x : VisRun) (body : State → Kernel → Run × Nat × Nat) : State :=
  match s.running cls x.unit with
  | none => s
  | some k =>
    let u := visUnit cls x.unit
    s.settled ((s.keyed (initiator 4 k.partition)).jobRun (some u) k x.ecc (fun t => body t k))

/-- EDGE_JOB (R248) (see log entry 46, DEDUCED). -/
def execEdgeJob (x : VisRun) (s : State) : Host.Outcome State Fault Refusal :=
  .next (s.visRun 3 x (fun t k => ((t.edgeBody k).1, (t.edgeBody k).2, 0)))

/-- RESAMPLE_JOB (R253) (see log entry 46, DEDUCED). -/
def execResampleJob (x : VisRun) (s : State) : Host.Outcome State Fault Refusal :=
  .next (s.visRun 4 x (fun t k => ((t.resampleBody k).1, (t.resampleBody k).2, 0)))

/-- PPE_JOB (R254) (see log entry 46, DEDUCED). -/
def execPpeJob (x : VisRun) (s : State) : Host.Outcome State Fault Refusal :=
  .next (s.visRun 5 x (fun t k => t.ppeBody k))

/-! VIS_RUN (R246). -/

/-- The kernel descriptor that stands for a VIS_RUN packet: its unit's class, its job descriptor's address, and TARGET as base 0. A UNIT that
Table VIS-3 does not list is an Edge Engine's to fault (see log entry 104, DESIGN CHOICE). -/
def visRunDesc (p : Packet) (addr : Nat) : List Byte :=
  toLe 1 (if pNum p 0 1 ≤ 2 then 3 + pNum p 0 1 else 3) ++ List.replicate 31 0 ++ toLe 8 addr ++ toLe 8 p.target ++ List.replicate 80 0

/-- R489: the zero fields of a packet's job descriptor: its own, its planar references' and its unit's. -/
def visRunZero (p : Packet) : Bool :=
  let ref := fun off => (planarOf id (bytesAt p.payload off 32)).zero
  let addr := fun off => bitsOf (pNum p off 8) 61 32 == 0
  pZero p 2 8 && pZero p 0x10 0x20 && ref 0x20 && ref 0x40 && (match pNum p 0 1 with
    | 0 => addr 0x68 && addr 0x70 && pZero p 0x7E 0x80
    | 1 => pZero p 0x61 0x80
    | 2 => pZero p 0x6D 0x70 && addr 0x70 && pZero p 0x78 0x80
    | _ => true)

/-- R490: the payload's fields that name an address: those of base 0, and FSTAT. -/
def visRunAddrs (p : Packet) : List Nat :=
  let refs := [0x20, 0x40] ++ (match pNum p 0 1 with
    | 0 => if pNum p 0x70 8 = 0 then [0x68] else [0x68, 0x70]
    | 2 => [0x70]
    | _ => [])
  (refs.filter (fun off => pNum p off 8 / 2 ^ 62 == 0)).map (fun off => p.target + 32 * (pNum p off 8 % 2 ^ 32)) ++
    if pNum p 0 1 = 2 ∧ pNum p 8 8 ≠ 0 then [pNum p 8 8] else []

/-- R246: the packet's job enters the operation table and is ready at once. -/
def visRunBody (p : Packet) (id : Nat) (s : State) : State :=
  let n := s.esc.nextId
  let head := (s.reg .CMDQ_QHEAD p.queue + 2 ^ 32 - pSlots p) % 2 ^ 32
  let a := s.subAddr p.queue (head + 1)
  let k : Kernel := { id := n, queue := p.queue, seq := p.seq % 2 ^ 32, partition := p.partition,
                      context := (s.ctxOf p.partition p.queue).getD 0, addr := a,
                      desc := visRunDesc p a, unitDesc := p.payload, flight := some id }
  ({ s with esc := { s.esc with kernels := s.esc.kernels ++ [k], nextId := n + 1 } }).makeReady n

/-- The checks of VIS_RUN. -/
def visRunRule (p : Packet) (s : State) : Rule where
  op := ⟨7, 1⟩
  format := p.plen == 4 && decide (p.target < 2 ^ 48 ∧ p.target % 32 = 0) && visRunZero p
  permit := (visRunAddrs p).all (fun a => s.mapped a 1)
  access := [(p.target, 1, false)]
  fn := some (fnVis, none)

/-- VIS_RUN (R246): the job of its payload; it completes when the job does. -/
def execVisRun (p : Packet) (s : State) : Host.Outcome State Fault Refusal :=
  .next (runPacket (.visRun p) (visRunRule p s) p (visRunBody p) s)

end Sys2Proof.Machine
end

