-- ==== Sys2Proof/Machine/Escapement.lean ====
section
/-! DEFINITION. The Escapement: launch, selection, completion and teardown of kernels, regulators, the latency guard, repair and
firewall regions (file 09: R264 to R289). -/

namespace Sys2Proof.Machine

/-! Engines and their owners (R271). -/

/-- The function and unit of an engine of a class; a General DMA channel is none's unit. -/
def engineUnit (cls n : Nat) : Option (Nat × Nat) :=
  match cls with
  | 0 => some (fnMe, n)
  | 1 => some (fnScan, n)
  | 2 => some (fnAdma, n)
  | 3 => some (fnVis, n)
  | 4 => some (fnVis, 4 + n)
  | 5 => some (fnVis, 8 + n)
  | _ => none

/-- Engines of a class. -/
def State.engines (s : State) (cls : Nat) : Nat :=
  match cls with
  | 0 => s.chip.slots
  | 1 => 8
  | 2 => 8
  | 6 => 16
  | _ => 4

/-- R271: a partition reserves an engine. -/
def State.reserves (s : State) (p cls n : Nat) : Bool :=
  match cls with
  | 0 => (s.fld F.ESC_RESV_ME p).testBit n
  | 1 => (s.fld F.ESC_RESV_SCAN p).testBit n
  | 2 => (s.fld F.ESC_RESV_ADMA p).testBit n
  | 6 => false
  | c => (s.fld F.ESC_RESV_VIS p).testBit (4 * (c - 3) + n)

/-- R271: the partition that reserves an engine. -/
def State.engineOwner (s : State) (cls n : Nat) : Option Nat := (List.range 64).find? (fun p => s.reserves p cls n)

/-- An engine can take a kernel: it is free and accepts work; no parked slot (R65), no channel of firmware (R149)
(see log entry 47, DEDUCED). -/
def State.engineFree (s : State) (cls n : Nat) : Bool :=
  decide (n < s.engines cls) && (s.kernelOn cls n).isNone &&
    (match engineUnit cls n with
     | some (f, u) => s.unitUsable f u
     | none => !(s.reg .DMA_FWMASK).testBit n) &&
    !(cls == 0 && (s.flag F.ME_STATE_PARKED n || s.clk.parkPending.contains n))

/-! Launch (R267, R269). -/

/-- The bytes of the unit descriptor that CODE names. -/
def unitBytes (cls : Nat) : Nat :=
  match cls with
  | 0 => 0
  | 1 => 64
  | 2 => 96
  | 6 => 32
  | _ => 128

/-- The initiator class of an engine class (Table MEM-2). -/
def engineInit (cls : Nat) : Nat :=
  match cls with
  | 0 => 1
  | 1 => 2
  | 2 => 3
  | 6 => 5
  | _ => 4

/-- The descriptors of an EXEC_LAUNCH. -/
def launchDescs (p : Packet) : List (List Byte) := pRecords p 128

/-- R269: a descriptor that rejects its payload. -/
def State.descBad (s : State) (d : List Byte) : Bool :=
  let q := s.reg .ESC_QCYC
  decide (6 < leAt d 0 1 ∨ leAt d 2 1 ≤ leAt d 1 1 ∨ leAt d 4 4 = 0 ∨ q < leAt d 4 4 ∨ 3 < leAt d 3 1) ||
    leAt d 0x14 4 != 0 || !allZero (bytesAt d 0x60 32) || ((leAt d 3 1).testBit 1 && leAt d 0x18 8 == 0)

/-- R269: the counters are the partition's own; the addresses that no firewall judges here are mapped (R490). -/
def State.descOwn (s : State) (p : Nat) (d : List Byte) : Bool :=
  (!(leAt d 3 1).testBit 0 || s.ownsCtr p (leAt d 0x10 2)) && (!(leAt d 3 1).testBit 1 || s.ownsCtr p (leAt d 0x12 2)) &&
    s.mapped (leAt d 0x48 8) 1 && s.mapped (leAt d 0x50 8) 1 && s.mapped (leAt d 0x58 8) 1

/-- R269: CODE and the bases, a base of 0 among them, as its engine class reads them (see log entry 47, DEDUCED). -/
def descReads (p : Nat) (d : List Byte) : List (Nat × Nat × Nat) :=
  let i := initiator (engineInit (leAt d 0 1)) p
  (i, leAt d 0x20 8, max 1 (unitBytes (leAt d 0 1))) :: (List.range 4).map (fun b => (i, leAt d (0x28 + 8 * b) 8, 1))

/-- R207: CODE of an ADMA kernel lies in no page of the pool that is another partition's (see log entry 47, DEDUCED). -/
def State.codeOwned (s : State) (p : Nat) (d : List Byte) : Bool :=
  s.poolOwned (engineInit (leAt d 0 1)) p (leAt d 0x20 8) (max 1 (unitBytes (leAt d 0 1)))

/-- The rule of EXEC_LAUNCH. -/
def execLaunchRule (p : Packet) (s : State) : Rule where
  op := ⟨4, 1⟩
  format := p.target == 0 && p.payload.length % 128 == 0 && decide (1 ≤ p.payload.length / 128 ∧ p.payload.length / 128 ≤ 511) &&
    decide (p.payload.length / 128 < s.fld F.CMDQ_OPQUOTA_QUOTA p.partition) && (launchDescs p).all (fun d => !s.descBad d)
  permit := (launchDescs p).all (s.descOwn p.partition) && (launchDescs p).all (s.codeOwned p.partition)
  reads := (launchDescs p).flatMap (descReads p.partition)
  fn := some (fnMgmt, some p.partition)

/-- R267: a kernel enters the table with copies of its descriptors, the unit descriptor read from CODE (R277); without a wait, or with one
that is met, it is ready (R270). -/
def State.takeKernel (s : State) (l : Launch) (addr : Nat) (d : List Byte) : State :=
  let n := s.esc.nextId
  let k : Kernel := { id := n, queue := l.queue, seq := l.seq, partition := l.partition, context := l.context, addr := addr,
                      desc := d, unitDesc := s.bytes (leAt d 0x20 8) (unitBytes (leAt d 0 1)) }
  let t := s.charge (initiator 6 l.partition) (leAt d 0x20 8) (unitBytes (leAt d 0 1))
  let t := { t with esc := { t.esc with kernels := t.esc.kernels ++ [k], nextId := n + 1 } }
  let t := if t.ctxState l.partition l.context = stReady then t.putFld F.ESC_CTX_STATE stRunning l.partition l.context else t
  if k.waitEn && !t.fullMet k.waitCtr k.waitVal then t else t.makeReady n

/-- R112, R269: kernels of a launch taken in order while entries are free, at most n. -/
def takeSome : Nat → Launch → State → Launch × State
  | 0, l, s => (l, s)
  | n + 1, l, s =>
    match l.waiting with
    | [] => (l, s)
    | (a, d) :: w =>
      if s.usedOps l.partition < s.fld F.CMDQ_OPQUOTA_QUOTA l.partition then
        takeSome n { l with waiting := w } (s.takeKernel l a d)
      else (l, s)

/-- The launches that wait, each taking what it can; one whose kernels are all taken completes with their number. -/
def takeLaunches : List Launch → State → State
  | [], s => s
  | l :: ls, s =>
    let r := takeSome l.waiting.length l (s.keyed (initiator 6 l.partition))
    let t := if r.1.waiting.isEmpty then r.2.complete l.flight csDone l.total
      else { r.2 with esc := { r.2.esc with launches := r.2.esc.launches ++ [r.1] } }
    takeLaunches ls t

/-- R112: kernels enter the table as entries free (see log entry 47, DEDUCED). -/
def State.moreKernels (s : State) : State := takeLaunches s.esc.launches { s with esc := { s.esc with launches := [] } }

/-- A launch could take a kernel now. -/
def State.canLaunch (s : State) : Bool :=
  s.esc.launches.any (fun l => decide (s.usedOps l.partition < s.fld F.CMDQ_OPQUOTA_QUOTA l.partition))

/-- EXEC_LAUNCH's effect. Descriptor n lies 4n slots behind the payload's first. -/
def execLaunchBody (p : Packet) (id : Nat) (s : State) : State :=
  let head := (s.reg .CMDQ_QHEAD p.queue + 2 ^ 32 - pSlots p) % 2 ^ 32
  let ds := launchDescs p
  let l : Launch := { flight := id, queue := p.queue, seq := p.seq % 2 ^ 32, partition := p.partition,
                      context := (s.ctxOf p.partition p.queue).getD 0, total := ds.length,
                      waiting := (List.range ds.length).map (fun n => (s.subAddr p.queue (head + 1 + 4 * n), ds.getD n [])) }
  ({ s with esc := { s.esc with launches := s.esc.launches ++ [l] } }).moreKernels

/-- EXEC_LAUNCH (R269). -/
def execExecLaunch (p : Packet) (s : State) : Host.Outcome State Fault Refusal :=
  .next (runPacket (.execLaunch p) (execLaunchRule p s) p (execLaunchBody p) s)

/-- The checks of EXEC_QUERY. -/
def execQueryRule (p : Packet) : Rule where
  op := ⟨4, 3⟩
  format := pTargetBits p 4 && p.plen == 0
  fn := some (fnMgmt, some p.partition)

/-- EXEC_QUERY (Table ESC-3). -/
def execExecQuery (p : Packet) (s : State) : Host.Outcome State Fault Refusal :=
  .next (runPacket (.execQuery p) (execQueryRule p) p
    (fun id t => t.finish id csDone (t.ctxState p.partition p.target +
      2 ^ 16 * (t.esc.kernels.filter (fun k => k.partition == p.partition && k.context == p.target)).length)) s)

/-! Dispatch (R270 to R272). -/

/-- R266, R274: the kernel may be dispatched. -/
def State.dispatchable (s : State) (cls n : Nat) (k : Kernel) (lent : Bool) : Bool :=
  k.cls == cls && k.isReady && usableCode (s.fld F.ESC_PCFG_STATE k.partition) &&
    s.ctxState k.partition k.context != stDraining && s.ctxState k.partition k.context != stFault &&
    (cls != 5 || lent || k.ppe == some n)

/-- R270: the oldest of a list of ready kernels. -/
def oldestReady (l : List Kernel) : Option Kernel :=
  l.foldl (fun m k => match m with
    | none => some k
    | some b => if k.ready.getD 0 < b.ready.getD 0 then some k else some b) none

/-- R272: the partition of least V among those of the kernels; the lowest number on a tie. -/
def State.leastV (s : State) (cls : Nat) (l : List Kernel) : Option Nat :=
  ((List.range 64).filter (fun p => l.any (fun k => k.partition == p))).foldl
    (fun m p => match m with
      | none => some p
      | some b => if vLess (s.reg .ESC_VTIME p cls) (s.reg .ESC_VTIME b cls) then some p else some b) none

/-- R272: what a pool engine, or a lent one, takes. -/
def State.poolChoice (s : State) (cls n : Nat) (lent : Bool) : Option Kernel :=
  let l := s.esc.kernels.filter (fun k => s.dispatchable cls n k lent)
  match s.leastV cls l with
  | some p => oldestReady (l.filter (fun k => k.partition == p))
  | none => none

/-- R271, R272: the kernel that a free engine takes, and whether the engine is lent to it. -/
def State.choose (s : State) (cls n : Nat) : Option (Kernel × Bool) :=
  match s.engineOwner cls n with
  | none => (s.poolChoice cls n false).map (fun k => (k, false))
  | some o =>
    match oldestReady (s.esc.kernels.filter (fun k => k.partition == o && s.dispatchable cls n k false)) with
    | some k => some (k, false)
    | none =>
      if s.flag F.ESC_RESV_LEND o && s.esc.lendable.contains (cls, n) then
        (s.poolChoice cls n true).map (fun k => (k, true))
      else none

/-- R272: STRIDE of a partition. -/
def State.stride (s : State) (p : Nat) : Nat := 2 ^ 24 / s.fld F.ESC_PCFG_SHARES p

/-- R272: V of a partition and class moved by a signed number of cycles times the stride. -/
def State.chargeV (s : State) (p cls : Nat) (cycles : Int) : State :=
  s.setReg .ESC_VTIME (ofSigned 64 ((s.reg .ESC_VTIME p cls : Int) + cycles * s.stride p)) p cls

/-- An address register's bits 47 to k of a value. -/
def alignedTo (k v : Nat) : Nat := v % 2 ^ 48 / 2 ^ k * 2 ^ k

/-- What dispatch loads into the engine's registers. -/
def State.loadEngine (s : State) (k : Kernel) (n : Nat) : State :=
  let p := k.partition
  match k.cls with
  | 0 =>
    let t := (List.range 4).foldl (fun u b => u.setReg .ME_BASE (alignedTo 5 (k.base b)) n b) s
    let t := ((t.setReg .ME_MASKTAB (alignedTo 4 (leAt k.desc 0x48 8)) n).setReg .ME_EWPLIST (alignedTo 7 (leAt k.desc 0x50 8)) n).setReg
      .ME_WINDESC (alignedTo 6 (leAt k.desc 0x58 8)) n
    (t.zeroStore n).putFld F.ME_STATE_PARTITION p n
  | 1 => (s.putFld F.SCAN_ESTATE_PARTITION p n).putFld F.SCAN_ESTATE_MODE (leAt k.unitDesc 0 1) n
  | 2 => (s.putFld F.ADMA_ESTATE_PARTITION p n).putFld F.ADMA_ESTATE_MODE (leAt k.unitDesc 0 1) n
  | 6 =>
    let fill := b2n ((leAt k.unitDesc 24 8).testBit 0)
    let t := ((s.setReg .DMA_SRC (leAt k.unitDesc 0 8) n).setReg .DMA_DST (alignedTo 0 (leAt k.unitDesc 8 8)) n).setReg .DMA_LEN
      (leAt k.unitDesc 16 8 % 2 ^ 33) n
    ((t.setReg .DMA_CTL (2 ^ 30 * fill + 2 ^ 22 * p) n).putFld F.DMA_STAT_STATE 1 n).putFld F.DMA_STAT_CAUSE 0 n
  | c => s.putFld F.VIS_USTATE_PARTITION p (visUnit c n)

/-- R271, R272: a kernel dispatched to an engine (see log entry 47, DEDUCED). -/
def State.dispatch (s : State) (k : Kernel) (n : Nat) (lent : Bool) : State :=
  let cls := k.cls
  let qs := (s.keyed (initiator 2 k.partition)).seqList k
  let t := (s.setKernel { k with unit := some n, lent := lent, startNs := s.dev.nowNs, startCyc := s.clk.cycles, order := s.esc.nextOrder,
                                 seqs := qs, ppe := if cls = 5 then some n else none }).takeLocks k qs
  let t := { t with esc := { t.esc with nextOrder := t.esc.nextOrder + 1 } }
  let t := (t.chargeV k.partition cls k.cycles).acceptUnit fnMgmt k.partition
  let t := match engineUnit cls n with
    | some (f, u) => t.acceptUnit f u
    | none => t
  let t := { t with esc := { t.esc with
    waits := t.esc.waits ++ [(k.partition, (s.dev.nowNs - k.readyNs) / 1000)],
    lendable := if lent then t.esc.lendable else t.esc.lendable.filter (fun e => e != (cls, n)) } }
  let t := if lent ∧ s.engineOwner cls n ≠ some k.partition then t.setFlag F.GLK_TBREAK_LEND else t
  (t.loadEngine k n).showBacklog

/-- R113: the most cycles that the path of a kernel takes: 36, and one more for each kernel of its class that the same signal released
before it, where it is dispatched as it becomes ready to an engine that no kernel left at that instant and that is not lent. -/
def State.pathBound (s : State) (k : Kernel) (n : Nat) (lent : Bool) : Option Nat :=
  if k.readyNs = s.dev.nowNs ∧ lent = false ∧ s.esc.freed.contains ((k.cls, n), s.dev.nowNs) = false then some (36 + k.behind) else none

/-- R113: SYNC_LAT takes the path of a kernel that a signal released, within its bound (see log entry 72, DESIGN CHOICE). -/
def State.showPath (s : State) (k : Kernel) (m : Nat) (lent : Bool) (path : Nat) : State :=
  if k.bySignal then
    let n := satNat 16 (max 1 ((s.pathBound k m lent).elim path (fun b => min path b)))
    let least := s.fld F.SYNC_LAT_MIN
    (s.putFld F.SYNC_LAT_MAX (max n (s.fld F.SYNC_LAT_MAX))).putFld F.SYNC_LAT_MIN (if least = 0 then n else min n least)
  else s

/-- KERNEL_DISPATCH (R272): a free engine takes the kernel that reservation, lending or virtual time gives it; path is the CLK_CORE cycles
from the signal to its first instruction. -/
def execKernelDispatch (cls n path : Nat) (s : State) : Host.Outcome State Fault Refusal :=
  .next (if s.engineFree cls n then
    match s.choose cls n with
    | some (k, lent) => (s.dispatch k n lent).showPath k n lent path
    | none => s
  else s)

/-- LEND_HOLD_EXPIRE (R271): a reserved engine that no kernel runs on, and whose owner lends, may be lent. -/
def execLendHoldExpire (cls n : Nat) (s : State) : Host.Outcome State Fault Refusal :=
  .next (match s.engineOwner cls n with
    | some o =>
      if s.flag F.ESC_RESV_LEND o && (s.kernelOn cls n).isNone && !s.esc.lendable.contains (cls, n) then
        { s with esc := { s.esc with lendable := s.esc.lendable ++ [(cls, n)] } }
      else s
    | none => s)

/-! Completion (R272). -/

/-- PWR_PARK and PWR_STATUS.ME_ACTIVE show the parked slots (R65). -/
def State.showPark (s : State) : State :=
  let l := (List.range s.chip.slots).filter (fun n => s.flag F.ME_STATE_PARKED n)
  (s.setReg .PWR_PARK (l.foldl (fun m n => m ||| 2 ^ s.fld F.ME_PHYS_PHYS n) 0)).putFld F.PWR_STATUS_ME_ACTIVE
    (s.chip.slots - l.length)

/-- A slot is parked or unparked. -/
def State.setParked (s : State) (n : Nat) (on : Bool) : State :=
  ({ s with clk := { s.clk with parkPending := s.clk.parkPending.filter (fun m => m != n) } }.putFld F.ME_STATE_PARKED
    (b2n on) n).showPark

/-- R65, R66: an engine that waits to be parked is parked as its kernel leaves it, unless a partition reserves it by then. -/
def State.parkDue (s : State) (cls n : Nat) : State :=
  if cls = 0 ∧ s.clk.parkPending.contains n = true then s.setParked n (s.engineOwner 0 n).isNone else s

/-- R263: VIS_UBUSY takes the cycles of a job's run that the clock's ticks have not counted. -/
def State.busyRest (s : State) (k : Kernel) (n run : Nat) : State :=
  if 3 ≤ k.cls ∧ k.cls ≤ 5 then s.addReg .VIS_UBUSY 64 (run - s.ranCycles k) (visUnit k.cls n) else s

/-- The kernel leaves its engine and the table: V, ESC_PTIME and VIS_UBUSY take its run. -/
def State.leaveTable (s : State) (k : Kernel) (run : Nat) : State :=
  let t := { s with esc := { s.esc with kernels := s.esc.kernels.filter (fun x => x.id != k.id) } }
  match k.unit with
  | some n =>
    let t := ((t.busyRest k n run).chargeV k.partition k.cls ((run : Int) - k.cycles)).parkDue k.cls n
    let t := { t with esc := { t.esc with freed := t.esc.freed.filter (fun (e : (Nat × Nat) × Nat) => e.1 != (k.cls, n)) ++ [((k.cls, n), s.dev.nowNs)] } }
    let t := t.setReg .ESC_PTIME ((t.reg .ESC_PTIME k.partition k.cls + run) % 2 ^ 64) k.partition k.cls
    if s.engineOwner k.cls n = some k.partition then
      { t with esc := { t.esc with lendable := t.esc.lendable.filter (fun e => e != (k.cls, n)) } }
    else t
  | none => t

/-- R107, R246: what a kernel that ended with a status completes: a VIS_RUN packet, or its signal. -/
def State.kernelDone (s : State) (k : Kernel) (st : Nat) (signals : Bool) : State :=
  match k.flight with
  | some f => s.complete f st k.result
  | none => if signals && csSignals st && k.sigEn then s.signal k.sigCtr k.sigInc else s

/-- A kernel ends with a status after run cycles. -/
def State.endOne (s : State) (k : Kernel) (st run : Nat) (signals : Bool) : State :=
  let t := (s.leaveTable k run).releaseStreams k
  ((t.kernelDone k st signals).countOps k.queue k.partition).showBacklog

/-! Teardown of a context (R274 to R276). -/

/-- ESC_STATUS takes an event; PARTITION and CONTEXT are those of the first. -/
def State.escStatus (s : State) (f : Fld) (p c : Nat) : State :=
  let t := if s.reg .ESC_STATUS / 2 ^ 28 = 0 then (s.putFld F.ESC_STATUS_PARTITION p).putFld F.ESC_STATUS_CONTEXT c else s
  t.setFlag f

/-- R274 step 2: a kernel of the context ends; one that runs has run until now. Step 3: its Matrix Engine is zeroed. -/
def State.killKernel (st : Nat) (s : State) (k : Kernel) : State :=
  let t := s.endOne k st (s.ranCycles k) false
  match k.unit with
  | some n =>
    if k.cls = 0 then t.zeroStore n else if k.cls = 6 then t.putFld F.DMA_STAT_STATE 3 n else t
  | none => t

/-- R274 step 3: streams of the context are unpinned to their slots. -/
def State.unpinContext (s : State) (p c : Nat) : State :=
  (s.streams.filter (fun x => x.partition == p && x.context == c && x.pin.isSome)).foldl (fun t x => t.unpinStream x) s

/-- R129: granules of a range scrubbed: they read as zero, and reads of them wait until the scrub ends. -/
def State.scrubRange (s : State) (a n : Nat) : State :=
  let gs := (List.range 256).filter (fun g => decide (0x100000 * g < a + n ∧ a < 0x100000 * (g + 1)))
  gs.foldl (fun t g => { t.clearMem (0x100000 * g) (0x100000 * (g + 1)) with
    scrub := if t.scrub.contains g then t.scrub else t.scrub ++ [g] }) s

/-- The granules of pieces scrubbed. -/
def State.scrubParts (s : State) (ps : List (Nat × Nat)) : State := ps.foldl (fun t e => t.scrubRange e.1 e.2) s

/-- R274 step 4: the context's objects are freed, those in SMEM after a scrub; a packet whose CRC pass ran ends with the status. -/
def State.dropObjects (s : State) (p c st : Nat) : State :=
  let mine := s.objs.filter (fun b => b.partition == p && b.context == c)
  let t := mine.foldl (fun t b => if b.smem then t.scrubParts b.parts else t) s
  let t := { t with objs := t.objs.filter (fun b => !(b.partition == p && b.context == c)) }
  (mine.flatMap (·.pass)).foldl (fun t f => t.complete f st 0) t

/-- R274: launches of the context that still take kernels end with the status. -/
def State.dropLaunches (s : State) (p c st : Nat) : State :=
  let mine := fun (l : Launch) => l.partition == p && l.context == c
  (s.esc.launches.filter mine).foldl (fun t l => t.complete l.flight st 0)
    { s with esc := { s.esc with launches := s.esc.launches.filter (fun l => !mine l) } }

/-- R274 step 5: a RUNNING queue enters FAULT; its packets that have not started complete with the status, those handed over and not yet
sent as commands when they come. -/
def State.faultQueue (st : Nat) (s : State) (q : Nat) : State :=
  if s.qState q = stRunning then
    let left := s.cq.ended.filter (fun e => e.1 != q) ++ [(q, st)]
    let t := { s.putFld F.CMDQ_QSTAT_STATE stFault q with cq := { s.cq with ended := left } }
    ((t.flushQueue q st).toRead q).retire q (s.qPart q)
  else s

/-- The queues of a context. -/
def State.ctxQueues (s : State) (p c : Nat) : List Nat :=
  (List.range (s.fld F.ESC_CTX_QCOUNT p c)).map (fun n => s.fld F.ESC_CTX_QBASE p c + n)

/-- R274, R275: a context torn down with a status; cause is the kernel whose fault it was (see log entry 47, DEDUCED). -/
def State.teardown (s : State) (p c st : Nat) (cause : Option Kernel) : State :=
  if s.ctxState p c = stDraining ∨ s.ctxState p c = stFault then s.escStatus F.ESC_STATUS_MULTI p c
  else
    let t := (s.putFld F.ESC_CTX_STATE stDraining p c).unpinContext p c
    let t := (t.esc.kernels.filter (fun k => k.partition == p && k.context == c)).foldl (State.killKernel st) t
    let t := (t.dropLaunches p c st).dropObjects p c st
    let t := (t.ctxQueues p c).foldl (State.faultQueue st) t
    let t := match cause with
      | some k => if k.flight.isNone then t.extraRecord k.queue k.seq 4 1 p st k.addr else t
      | none => t
    let t := (t.anyEvent 0x05 0x0001 p).escStatus F.ESC_STATUS_TEARDOWN p c
    (t.putFld F.ESC_CTX_STATE stFault p c).ctxRecover p c

/-- The contexts of a partition that hold queues. -/
def State.contexts (s : State) (p : Nat) : List Nat := (List.range 16).filter (fun c => s.fld F.ESC_CTX_QCOUNT p c != 0)

/-- R276, R197: every context of a partition torn down and its streams released; the partition reads STOPPED. -/
def State.teardownPartition (s : State) (p st : Nat) : State :=
  let t := (s.contexts p).foldl (fun t c => t.teardown p c st none) s
  ((t.streams.filter (fun x => x.partition == p)).foldl (fun u x => u.dropStream x) t).setUnit fnMgmt p stStopped

/-- A kernel leaves its engine with a status; a fault tears its context down (R274). -/
def State.completeKernel (s : State) (k : Kernel) (st run : Nat) : State :=
  let t := s.endOne k st run true
  (if 0x20 ≤ st ∧ st ≤ 0x23 then t.teardown k.partition k.context st (some k) else t).moreKernels

/-- KERNEL_COMPLETE (R272): the engine has ended its kernel and is idle, run cycles after dispatch (see log entry 72, DESIGN CHOICE). -/
def execKernelComplete (cls n run : Nat) (s : State) : Host.Outcome State Fault Refusal :=
  .next (match s.kernelOn cls n with
    | some k =>
      match k.status with
      | some st => s.completeKernel k st run
      | none => s
    | none => s)

/-- RUN_LIMIT (R273): a kernel that has run Q_cyc + 1,024 cycles since dispatch, and still runs, is stopped. -/
def execRunLimit (cls n run : Nat) (s : State) : Host.Outcome State Fault Refusal :=
  .next (match s.running cls n with
    | some k =>
      if run < s.reg .ESC_QCYC + 1024 then s
      else
        let t := (s.escStatus F.ESC_STATUS_RUN_LIMIT k.partition k.context).dataEvent 0x05 0x0002 k.addr k.partition
        let t := if cls = 0 then t.zeroStore n else if cls = 6 then t.putFld F.DMA_STAT_STATE 3 n else t
        t.completeKernel { k with status := some csPreempt } csPreempt run
    | none => s)

/-- EXEC_TEARDOWN's effect: RESULT is the kernels ended. It names no fault: its kernels end FAULT_ENGINE (see log entry 47, DEDUCED). -/
def execTeardownBody (p : Packet) (id : Nat) (s : State) : State :=
  if s.ctxOf p.partition p.queue = some p.target then s.finish id csFormat 0
  else
    let n := (s.esc.kernels.filter (fun k => k.partition == p.partition && k.context == p.target)).length
    (s.teardown p.partition p.target csEngine none).finish id csDone n

/-- The checks of EXEC_TEARDOWN. -/
def execTeardownRule (p : Packet) : Rule where
  op := ⟨4, 2⟩
  format := pTargetBits p 4 && p.plen == 0
  fn := some (fnMgmt, some p.partition)

/-- EXEC_TEARDOWN (R274). -/
def execExecTeardown (p : Packet) (s : State) : Host.Outcome State Fault Refusal :=
  .next (runPacket (.execTeardown p) (execTeardownRule p) p
    (execTeardownBody p) s)

/-! Regulators and the latency guard (R277 to R285). -/

/-- The register of a partition's regulator. -/
def regulator (dram : Bool) : Reg := if dram then .ESC_DREG else .ESC_SREG

/-- LIMIT and GUAR of a partition's regulator. -/
def State.limit (s : State) (dram : Bool) (p : Nat) : Nat := bitsOf (s.reg (regulator dram) p) 63 32
def State.guar (s : State) (dram : Bool) (p : Nat) : Nat := s.reg (regulator dram) p % 2 ^ 32

/-- LIMIT set. -/
def State.setLimit (s : State) (dram : Bool) (p n : Nat) : State := s.setReg (regulator dram) (2 ^ 32 * n + s.guar dram p) p

/-- A partition's bytes above GUAR in the epoch. -/
def State.excessOf (s : State) (p : Nat) : Nat := sparseGet (fun _ => 0) s.esc.excess p

/-- The key of a regulator. -/
def regKey (dram : Bool) (p : Nat) : Nat := if dram then 2 * p else 2 * p + 1

/-- R278: what a regulator accepts in a window: LIMIT, and the granule in flight when it is reached. -/
def State.windowMost (s : State) (dram : Bool) (p : Nat) : Nat := (s.limit dram p + 63) / 64 * 64

/-- R277, R278: a window of a partition's regulator ends: as many bytes as it accepts have passed, those above GUAR count to the guard's
epoch, and the rest is held into the next window, which ESC_REGSTAT counts (see log entry 97, DEDUCED). -/
def State.endWindow (s : State) (dram : Bool) (p harts : Nat) : State :=
  let asked := sparseGet (fun _ => 0) s.traffic (regKey dram p) + harts
  let passed := min asked (s.windowMost dram p)
  let t := { s with
    traffic := sparseSet (fun _ => 0) s.traffic (regKey dram p) (asked - passed)
    esc := { s.esc with excess := sparseSet (fun _ => 0) s.esc.excess p (s.excessOf p + (passed - s.guar dram p)) } }
  if passed < asked then t.addFld (if dram then F.ESC_REGSTAT_DRAM_HELD else F.ESC_REGSTAT_SMEM_HELD) 1 p else t

/-- REGULATOR_WINDOW (R277, R278) (see log entry 97, DEDUCED). -/
def execRegulatorWindow (x : Regulated) (s : State) : Host.Outcome State Fault Refusal :=
  .next (if s.dev.settings.isSome then
      (List.range 64).foldl (fun t p => t.endWindow x.dram p (((x.harts.filter (fun e => e.1 == p)).map (·.2)).sum)) s
    else s)

/-- R284: the 99th percentile of waits: the least one that 99 % of them do not exceed. -/
def p99 (l : List Nat) : Nat := (sortNat l).getD ((99 * l.length + 99) / 100 - 1) 0

/-- A partition's p99 of the epoch. -/
def State.p99Of (s : State) (p : Nat) : Nat := p99 ((s.esc.waits.filter (fun e => e.1 == p)).map (·.2))

/-- How often the guard has halved a partition's limits. -/
def State.halved (s : State) (p : Nat) : Nat := sparseGet (fun _ => 0) s.esc.halvings p

/-- The limit before the guard: the one it keeps where it holds the partition tightened. -/
def State.limitBefore (s : State) (dram : Bool) (p : Nat) : Nat :=
  if s.halved p = 0 then s.limit dram p else sparseGet (fun _ => 0) s.esc.limits (2 * p + b2n (!dram))

/-- The limits of a partition with the guard's hold on them: the factor 2^k, what the limits were before, and what they are. -/
def State.setGuard (s : State) (p k : Nat) (before now : Bool → Nat) : State :=
  let t := (s.setLimit true p (now true)).setLimit false p (now false)
  let kept := fun d => if k = 0 then 0 else before d
  { t with esc := { t.esc with
    halvings := sparseSet (fun _ => 0) t.esc.halvings p k,
    limits := sparseSet (fun _ => 0) (sparseSet (fun _ => 0) t.esc.limits (2 * p) (kept true)) (2 * p + 1) (kept false) } }

/-- R284: a partition's limits halved, never below GUAR nor below a quarter of the profile's. -/
def State.tighten (s : State) (p : Nat) : State :=
  s.setGuard p (min 2 (s.halved p + 1)) (fun d => s.limitBefore d p)
    (fun d => min (s.limit d p) (max (s.guar d p) (max (s.limitBefore d p / 4) (s.limit d p / 2))))

/-- R285: a partition's limits in force doubled, up to the profile's, where the guard lets go of them. -/
def State.loosen (s : State) (p : Nat) : State :=
  let now := fun d => min (s.limitBefore d p) (2 * s.limit d p)
  let free := now true = s.limitBefore true p ∧ now false = s.limitBefore false p
  s.setGuard p (if free then 0 else max 1 (s.halved p - 1)) (fun d => s.limitBefore d p) now

/-- R285: the limits that FN_START applies while the guard holds a partition at 2^k (see log entry 47, DEDUCED). -/
def State.retighten (s : State) (p k : Nat) : State :=
  s.setGuard p k (fun d => s.limit d p) (fun d => min (s.limit d p) (max (s.guar d p) (max (s.limit d p / 4) (s.limit d p / 2 ^ k))))

/-- R284: the aggressor for a victim (see log entry 47, DEDUCED). -/
def State.aggressor (s : State) (victim : Nat) : Option Nat :=
  ((List.range 64).filter (fun p => p != 0 && p != victim && s.excessOf p != 0)).foldl
    (fun m p => match m with
      | none => some p
      | some b => if s.excessOf b < s.excessOf p then some p else some b) none

/-- R284: a victim's breach: the aggressor's limits are halved, and the event's DATA names both (see log entry 100, DESIGN CHOICE). -/
def State.guardVictim (s : State) (victim : Nat) : State :=
  match s.aggressor victim with
  | some a => ((s.tighten a).dataEvent 0x05 0x0003 (256 * victim + a) a).escStatus F.ESC_STATUS_GUARD a 0
  | none => s

/-- R285: every tightened limit doubled. -/
def State.relax (s : State) : State :=
  ((List.range 64).filter (fun p => s.halved p != 0)).foldl (fun t p =>
    (t.loosen p).anyEvent 0x05 0x0004 p) s

/-- GUARD_EPOCH (R284, R285). -/
def execGuardEpoch (s : State) : Host.Outcome State Fault Refusal :=
  .next (if s.flag F.ESC_GUARD_EN then
    let t := (List.range 64).foldl (fun t p => t.putFld F.ESC_P99_P99_US (satNat 16 (s.p99Of p)) p) s
    let victims := (List.range 64).filter (fun p => s.fld F.ESC_P99_TARGET_US p != 0 && decide (s.fld F.ESC_P99_TARGET_US p < s.p99Of p))
    let t := victims.foldl State.guardVictim t
    let calm := if victims.isEmpty then s.esc.calm + 1 else 0
    let t := if 10 ≤ calm then t.relax else t
    { t with esc := { t.esc with waits := [], excess := [], calm := if 10 ≤ calm then 0 else calm } }
  else s)

/-! Repair in service (R286, R287). -/

/-- R287: why a repair is refused, or 0. -/
def State.repairRefusal (s : State) (slot spare : Nat) (persist : Bool) : Nat :=
  if s.unitState fnMe slot ≠ stStopped then 1
  else if (s.fld F.ESC_REPSTAT_SPARES).testBit spare = false then 2
  else if s.pinnedCols slot ≠ 0 then 3
  else if persist && decide (16 ≤ s.fld F.ESC_REPSTAT_OTP_USED) then 4 else 0

/-- ESC_REPAIR_SWAP (R286, R287). -/
def execEscRepairSwap (w : RegWrite) (s : State) : Host.Outcome State Fault Refusal :=
  let slot := w.value % 32
  let spare := bitsOf w.value 13 8
  let persist := w.value.testBit 27
  let r := s.repairRefusal slot spare persist
  .next (s.regWrite .ESC (s.p0 w.initiator) (if bitsOf w.value 31 28 ≠ 1 then s
    else
      let t := s.putFld F.ESC_REPSTAT_RESULT r
      if r = 0 then { t with esc := { t.esc with repairs := t.esc.repairs.filter (fun e => e.1 != slot) ++ [(slot, spare, persist)] } }
      else t))

/-- R71: every load band is unmeasured. -/
def State.bandsUnmeasured (s : State) : State :=
  (List.range 4).foldl (fun t b => t.putFld F.PWR_BAND_MEASURED 0 b) { s with clk := { s.clk with bandUs := [0, 0, 0, 0] } }

/-- A bit of a field cleared or set. -/
def State.setBitOf (s : State) (f : Fld) (n : Nat) (v : Bool) : State :=
  let x := s.fld f
  s.putFld f (if x.testBit n = v then x else if v then x + 2 ^ n else x - 2 ^ n)

/-- R286: the spare takes the slot. -/
def State.swapEngine (s : State) (slot spare : Nat) (persist : Bool) : State :=
  let old := s.fld F.ME_PHYS_PHYS slot
  let t := (s.putFld F.ME_PHYS_PHYS spare slot).setBitOf F.ESC_DISABLED_FAILED old true
  let t := (t.setBitOf F.ESC_REPSTAT_SPARES spare false).bumpGen.bandsUnmeasured
  let t := if persist then
      { t.addFld F.ESC_REPSTAT_OTP_USED 1 with chip := { t.chip with otp := { t.chip.otp with repairs := t.chip.otp.repairs ++ [(slot, spare)] } } }
    else t
  ((t.showPark.setFlag F.GLK_TBREAK_REPAIR).setUnit fnMe slot stReady).event 0x05 0x0006 slot

/-- ME_SPARE_TEST_DONE (R286, R287): the store test of a staged spare at FN_START ends. One that fails stays a spare and is marked failed in
ESC_DISABLED, which is a record of the digest (R322; see log entry 102, DEDUCED). -/
def execMeSpareTestDone (slot : Nat) (ok : Bool) (s : State) : Host.Outcome State Fault Refusal :=
  .next (match s.esc.repairs.find? (fun e => e.1 == slot) with
    | some (_, spare, persist) =>
      if s.unitState fnMe slot = stStarting then
        let t := { s with esc := { s.esc with repairs := s.esc.repairs.filter (fun e => e.1 != slot) } }
        if ok then t.swapEngine slot spare persist
        else (((t.setBitOf F.ESC_DISABLED_FAILED spare true).bumpGen.putFld F.ESC_REPSTAT_RESULT 5).setUnit fnMe slot stFault).event
          0x05 0x0007 slot
      else s
    | none => s)

/-! Firewall regions (R282). -/

/-- A partition that the profile creates. -/
def State.created (s : State) (p : Nat) : Bool :=
  match s.dev.settings with
  | some t => t.created.testBit p
  | none => p == 0

/-- R282: the write may change the region. attr is RATTR before and after (see log entry 23, DEDUCED). -/
def State.regionOpen (s : State) (before after : Nat) : Bool :=
  let stopped := fun p => s.fld F.ESC_PCFG_STATE p == stStopped
  s.devState == devBoot ||
    (if before.testBit 28 || after.testBit 28 then (List.range 64).all (fun p => p == 0 || !s.created p || stopped p)
     else stopped (bitsOf before 27 22) && stopped (bitsOf after 27 22))

/-- The register of a region at an offset. -/
def regionReg (off : Nat) : Option Reg :=
  match off with
  | 0x00 => some .FWL_RBASE
  | 0x08 => some .FWL_RLIMIT
  | 0x10 => some .FWL_RATTR
  | _ => none

/-- FWL_REGION_WRITE (R282): in BOOT at once; while the partitions concerned read STOPPED to staging (R38, R41); else ignored
(see log entry 23, DEDUCED). -/
def execFwlRegionWrite (t k off : Nat) (w : RegWrite) (s : State) : Host.Outcome State Fault Refusal :=
  .next (match regionReg off with
    | some r =>
      if 4 ≤ t ∨ 64 ≤ k ∨ s.p0 w.initiator = false then s.busErr
      else
        let v := w.value &&& r.params
        let before := s.seen .FWL_RATTR t k
        if s.regionOpen before (if r = .FWL_RATTR then v else before) = false then (s.setFlag F.FWL_DENY_LOCKED).accessed
        else if s.devState = devBoot then (s.setReg r v t k).accessed
        else s.stageReg r t k v w.initiator
    | none => s.busErr)

end Sys2Proof.Machine
end

