-- ==== Sys2Proof/Machine/Motion.lean ====
section
/-! DEFINITION. The Motion Control Engine (file 12: R359 to R391): samples, loops, set-points, ramp generator, observer, safe
states and trace buffers. -/

namespace Sys2Proof.Machine

/-! Access to an axis. -/

/-- An axis beyond its registers. -/
def State.ax (s : State) (a : Nat) : Axis := s.mot.axes.getD a {}

/-- An axis replaced. -/
def State.setAx (s : State) (a : Nat) (x : Axis) : State := { s with mot := { s.mot with axes := s.mot.axes.set a x } }

/-- An encoder interface beyond its registers. -/
def State.enc (s : State) (n : Nat) : Encoder := s.mot.encs.getD n {}

/-- An encoder interface replaced. -/
def State.setEnc (s : State) (n : Nat) (x : Encoder) : State := { s with mot := { s.mot with encs := s.mot.encs.set n x } }

/-- A trace buffer beyond its registers. -/
def State.trace (s : State) (t : Nat) : Trace := s.mot.traces.getD t {}

/-- A trace buffer replaced. -/
def State.setTrace (s : State) (t : Nat) (x : Trace) : State :=
  { s with mot := { s.mot with traces := s.mot.traces.set t x } }

/-- The partition that owns an axis. -/
def State.axPart (s : State) (a : Nat) : Nat := s.fld F.MOT_AXCFG_PARTITION a

/-- The state of an axis as a unit of FN_MOT. -/
def State.axState (s : State) (a : Nat) : Nat := s.fld F.MOT_AXSTATE_STATE a

/-- R360: MOT_CFG.MODE reads CASCADE. -/
def State.cascade (s : State) : Bool := !s.flag F.MOT_CFG_MODE

/-- The axis uses an encoder interface: for its angle or as backup. -/
def State.usesEncoder (s : State) (a : Nat) : Bool :=
  !s.flag F.MOT_AXCFG_ANGLE_SRC a || s.fld F.MOT_AXCFG_BACKUP a == 1

/-- R381: the axis runs an observer. -/
def State.usesObserver (s : State) (a : Nat) : Bool :=
  s.flag F.MOT_AXCFG_ANGLE_SRC a || s.fld F.MOT_AXCFG_BACKUP a == 2

/-- The axis has the observer alone. -/
def State.sensorless (s : State) (a : Nat) : Bool := s.flag F.MOT_AXCFG_ANGLE_SRC a && s.fld F.MOT_AXCFG_BACKUP a != 1

/-- A set of six PWM outputs of an axis held high, the others of the axis low. -/
def State.setPwm (s : State) (a mask : Nat) : State :=
  { s with pins := { s.pins with pwmOn :=
    s.pins.pwmOn / 2 ^ (6 * a + 6) * 2 ^ (6 * a + 6) + mask % 64 * 2 ^ (6 * a) + s.pins.pwmOn % 2 ^ (6 * a) } }

/-- A bit of a 16-bit per-axis summary field. -/
def State.sumBit (s : State) (f : Fld) (a : Nat) (b : Bool) : State :=
  let m := s.fld f
  s.putFld f (if m.testBit a then (if b then m else m - 2 ^ a) else if b then m + 2 ^ a else m)

/-! Conversions (R371, Table MOT-1). -/

/-- A signed register of an axis as binary32, its LSB 2^e. -/
def State.mS (s : State) (r : Reg) (a : Nat) (e : Int) : Nat := f32.ofInt (signedOf 32 (s.reg r a)) e

/-- An unsigned register of an axis as binary32, its LSB 2^e. -/
def State.mU (s : State) (r : Reg) (a : Nat) (e : Int) : Nat := f32.ofInt (s.reg r a) e

/-- The same in binary64. -/
def State.mD (s : State) (r : Reg) (a : Nat) (e : Int) : Nat := f64.ofInt (s.reg r a) e

/-- A register of an axis that holds a binary32. -/
def State.mF (s : State) (r : Reg) (a : Nat) : Nat := s.reg r a % 2 ^ 32

/-- A binary32 in a signed 32-bit format with LSB 2^-k, rounded toward zero and saturated. -/
def fix32 (x : Nat) (k : Int) : Int := clampSigned 32 ((f32.decode x).truncAt k)

/-- A binary32 as binary64, which holds it exactly. -/
def widen (x : Nat) : Nat := f64.encode (f32.decode x)

/-- A binary64 as binary32, rounded to nearest even. -/
def narrow (x : Nat) : Nat := f32.encode (f64.decode x)

/-- R362: k current-loop periods in seconds (see log entry 41, DEDUCED). -/
def State.loopTime (s : State) (f : FpFmt) (a k : Nat) : Nat :=
  f.ofRatio (k * 2 * s.fld F.MOT_PWMCFG_PERIOD a) (1000000000 * (1 + s.fld F.MOT_PWMCFG_SAMP a))

/-- R373: N current samples to a velocity period; one in CURRENT_ONLY, where N is ignored. -/
def State.loopN (s : State) (a : Nat) : Nat := if s.cascade then s.fld F.MOT_AXCFG_N_M1 a + 1 else 1

/-- R373: M velocity periods to a position period. -/
def State.loopM (s : State) (a : Nat) : Nat := s.fld F.MOT_AXCFG_M_M1 a + 1

/-- The pole pairs as binary32. -/
def State.polePairs (s : State) (a : Nat) : Nat := f32.ofInt (s.fld F.MOT_AXCFG_POLE_PAIRS a)

/-! Trace buffers (R387, R388). -/

/-- Records of a trace buffer's ring. -/
def State.traceCap (s : State) (t : Nat) : Nat := 2 ^ s.fld F.MOT_TRBASE_SIZE_LOG2 t / 32

/-- R388: the buffer stops and reads DONE. -/
def State.traceDone (s : State) (t : Nat) : State :=
  (s.putFld F.MOT_TRSTAT_STATE 3 t).event 0x09 0x0009 t (s.axPart (s.fld F.MOT_TRCFG_AXIS t))

/-- R388: an ARMED buffer is triggered; its last record is the trigger's. -/
def State.traceFire (s : State) (t : Nat) : State :=
  if s.fld F.MOT_TRSTAT_STATE t = 1 then
    let left := s.traceCap t - s.fld F.MOT_TRCFG_PRE t - 1
    let u := ((s.putFld F.MOT_TRSTAT_STATE 2 t).putFld F.MOT_TRSTAT_TRIG_INDEX ((s.trace t).written - 1) t).setTrace t
      { s.trace t with left := left }
    if left = 0 then u.traceDone t else u
  else s

/-- R388: a happening of an axis triggers the buffers that record it with TRIG 1. -/
def State.fireAxis (s : State) (a : Nat) : State :=
  [0, 1, 2, 3].foldl (fun u t =>
    if u.fld F.MOT_TRCFG_AXIS t = a ∧ u.fld F.MOT_TRCFG_TRIG t = 1 then u.traceFire t else u) s

/-- An event of an axis. -/
def State.motEvent (s : State) (a code : Nat) : State := (s.event 0x09 code a (s.axPart a)).fireAxis a

/-- Table MOT-5: a signal in its 32-bit format. -/
def State.traceSignal (s : State) (a code : Nat) : Int :=
  let x := s.ax a
  match code with
  | 1 => fix32 x.sig.ia 16
  | 2 => fix32 x.sig.ib 16
  | 3 => fix32 x.sig.in2 16
  | 4 => fix32 x.sig.id 16
  | 5 => fix32 x.sig.iq 16
  | 6 => fix32 x.idRef 16
  | 7 => fix32 x.iqRef 16
  | 8 => fix32 x.sig.vd 16
  | 9 => fix32 x.sig.vq 16
  | 10 => signedOf 32 x.sig.theta
  | 11 => fix32 x.w 16
  | 12 => clampSigned 32 ((f64.decode x.v).truncAt 16)
  | 13 => clampSigned 32 (divTrunc (x.p - x.pos) 256)
  | 14 => fix32 (x.obs.resid.headD 0) 16
  | 15 => ((f32.decode (x.duty.getD 0 0)).mul (.fin false (16 * s.fld F.MOT_PWMCFG_PERIOD a) 0)).truncAt 0
  | _ => 0

/-- The signal code of slot k, 1 to 7. -/
def State.traceCode (s : State) (t k : Nat) : Nat := s.reg .MOT_TRSIG t / 16 ^ (k - 1) % 16

/-- R387: a record. -/
def State.traceRecord (s : State) (t a : Nat) : List Byte :=
  toLe 4 s.time ++ [1, 2, 3, 4, 5, 6, 7].flatMap (fun k =>
    toLe 4 (ofSigned 32 (if s.traceCode t k = 0 then 0 else s.traceSignal a (s.traceCode t k))))

/-- R388: the signal crosses LEVEL in direction DIR. -/
def State.crosses (s : State) (t : Nat) (now : Int) : Bool :=
  let lv := signedOf 32 (s.fld F.MOT_TRTHR_LEVEL t)
  match (s.trace t).last with
  | some b => if s.flag F.MOT_TRTHR_DIR t then decide (b < lv ∧ lv ≤ now) else decide (lv < b ∧ now ≤ lv)
  | none => false

/-- A record written, then what the trigger or the end of the recording does. -/
def State.traceWrite (s : State) (t a : Nat) : State :=
  let addr := s.fld F.MOT_TRBASE_BASE t * 4096 + (s.trace t).written % s.traceCap t * 32
  let init := initiator 0xD (s.axPart a)
  if s.memOk init addr 32 true then
    let now := s.traceSignal a (s.traceCode t (s.fld F.MOT_TRTHR_SLOT t))
    let x := s.trace t
    let u := ((s.keyed (initiator 0xD (s.axPart a))).writeBytes addr (s.traceRecord t a)).setTrace t
      { x with samples := 0, written := x.written + 1, last := some now, left := x.left - 1 }
    if s.fld F.MOT_TRSTAT_STATE t = 2 then (if x.left ≤ 1 then u.traceDone t else u)
    else if s.fld F.MOT_TRCFG_TRIG t = 2 ∧ s.crosses t now then u.traceFire t else u
  else (s.recordDenial init addr 32 true).putFld F.MOT_TRSTAT_STATE 0 t

/-- R387: every 2^DIV_LOG2 current samples of its axis an ARMED or TRIGGERED buffer writes a record. -/
def State.traceSample (s : State) (a t : Nat) : State :=
  if s.fld F.MOT_TRCFG_AXIS t = a ∧ (s.fld F.MOT_TRSTAT_STATE t = 1 ∨ s.fld F.MOT_TRSTAT_STATE t = 2) then
    if (s.trace t).samples + 1 < 2 ^ s.fld F.MOT_TRCFG_DIV_LOG2 t then
      s.setTrace t { s.trace t with samples := (s.trace t).samples + 1 }
    else s.traceWrite t a
  else s

/-! The axis safe state (R384, R385). -/

/-- R384: the last known mechanical speed: the encoder's, or ω_g when the observer supplies the angle. -/
def State.lastSpeed (s : State) (a : Nat) : Nat :=
  if s.fld F.MOT_AXSTATE_ANGLE a = 0 then f32.abs (s.ax a).w
  else f32.abs (f32.div (s.ax a).obs.wGood (s.polePairs a))

/-- A safe pattern: 1 FREE_WHEEL, 2 ASC (every low gate on), 3 OFF_OC. The observer then takes 0 V as applied (see log entry 114,
DESIGN CHOICE). -/
def State.safePattern (s : State) (a pat : Nat) : State :=
  let t := ((s.putFld F.MOT_AXSTATE_SAFE pat a).sumBit F.MOT_FAULTSUM_SAFE a true).setPwm a (if pat = 2 then 0x2A else 0)
  t.setAx a { t.ax a with gates := [], volts := (0, 0), voltsLoaded := (0, 0) }

/-- R384: free-wheel, or active short circuit where it is allowed and the speed reaches ASC_SPEED; OFF_OC stays. -/
def State.takePattern (s : State) (a : Nat) : State :=
  if s.fld F.MOT_AXSTATE_SAFE a = 3 then s
  else if s.flag F.MOT_AXCFG_ASC_EN a ∧ f32.le (f32.ofInt (s.fld F.MOT_ASCCFG_ASC_SPEED a)) (s.lastSpeed a) then
    s.safePattern a 2
  else s.safePattern a 1

/-- MOT_AXFAULT takes a cause while VALID is 0 (see log entry 41, DEDUCED). -/
def State.axFault (s : State) (a cause detail : Nat) : State :=
  if s.flag F.MOT_AXFAULT_VALID a then s
  else s.setReg .MOT_AXFAULT (2 ^ 31 + 65536 * cause + detail % 4) a

/-- R384: an enabled axis trips into its safe state. -/
def State.axisTrip (s : State) (a cause : Nat) (detail : Nat := 0) : State :=
  if s.axState a = stFault then s
  else
    ((((s.takePattern a).setUnit fnMot a stFault).sumBit F.MOT_FAULTSUM_FAULT a true).axFault a cause detail).motEvent a 0x0003

/-- A stage of a sinc filter: the sums of n bits or sums in a row. -/
def boxcar (n : Nat) (l : List Int) : List Int := (List.range (l.length + 1 - n)).map (fun i => ((l.drop i).take n).foldl (· + ·) 0)

/-- A modulator bit as a sign. -/
def modSigns (bits : List Bool) : List Int := bits.map (fun b => if b then 1 else -1)

/-- R365: the sinc3 filter of a decimation over 3 × OSR modulator bits: its output as a signed 24-bit fraction of full scale. -/
def sinc3 (osr : Nat) (bits : List Bool) : Nat :=
  ofSigned 24 (clampSigned 24 (divTrunc ((boxcar osr (boxcar osr (boxcar osr (modSigns bits)))).getD 1 0 * 2 ^ 23) (osr ^ 3)))

/-- R367: the fast sinc2 filter crosses ±OC_LIMIT. -/
def State.fastCrosses (s : State) (a : Nat) (bits : List Bool) : Bool :=
  let n := s.fld F.MOT_SDCFG_OSR_FAST a
  (boxcar n (boxcar n (modSigns bits))).any (fun v => decide (s.fld F.MOT_SDCFG_OC_LIMIT a * n ^ 2 < v.natAbs * 2 ^ 15))

/-- OVERCURRENT (R367, R385): in every axis state all six outputs go low where the modulator bits of an input cross the limit. -/
def execOvercurrent (a input : Nat) (bits : List Bool) (s : State) : Host.Outcome State Fault Refusal :=
  .next (if 16 ≤ a ∨ s.fastCrosses a bits = false then s else
    (((((s.safePattern a 3).setUnit fnMot a stFault).sumBit F.MOT_FAULTSUM_FAULT a true).setReg .MOT_AXFAULT
      (2 ^ 31 + 65536 + input % 4) a).motEvent a 0x0004))

/-- R385: the axis's encoder still turns at ASC_SPEED or faster. -/
def State.ascHolds (s : State) (a : Nat) : Bool :=
  s.usesEncoder a && f32.le (f32.ofInt (s.fld F.MOT_ASCCFG_ASC_SPEED a)) (f32.abs (s.ax a).w)

/-- ASC_HOLD_END (R385): the encoder's speed has fallen below ASC_SPEED, or without an encoder ASC_HOLD_MS has passed; the axis goes from
ASC to free-wheel. -/
def execAscHoldEnd (a : Nat) (s : State) : Host.Outcome State Fault Refusal :=
  .next (if a < 16 ∧ s.fld F.MOT_AXSTATE_SAFE a = 2 ∧ s.ascHolds a = false then s.safePattern a 1 else s)

/-! The set-point queue (R375 to R377). -/

/-- The registers that show how full an axis's queue is. -/
def State.showQueue (s : State) (a : Nat) : State :=
  let n := (s.ax a).queue.length
  (s.putFld F.MOT_AXSTATE_QUEUED n a).putFld F.SPW_STAT_FREE (64 - n) a

/-- R376: why an entry is refused: 1 FULL, 2 ORDER, 3 TYPE, 4 STATE; 0 accepted. -/
def State.pushResult (s : State) (a : Nat) (e : SetPoint) : Nat :=
  let q := (s.ax a).queue
  if q.length = 64 then 1
  else if (q.getLast?.map (fun n => decide (e.time < n.time))).getD false then 2
  else if 4 < e.typ ∨ (!s.cascade ∧ (e.typ = 0 ∨ e.typ = 1 ∨ e.typ = 4)) then 3
  else if usableCode (s.axState a) && s.fnUsable fnMot then 0 else 4

/-- R377: an entry already due when it is pushed is counted in LATE, and logged at most once per 1 ms. -/
def State.noteLate (s : State) (a : Nat) (e : SetPoint) : State :=
  if e.time ≠ 0 ∧ e.time ≤ s.time then
    let t := s.addFld F.MOT_AXCNT_LATE 1 a
    if ((s.ax a).lateNs.map (fun n => decide (n + 1000000 ≤ s.dev.nowNs))).getD true then
      (t.setAx a { t.ax a with lateNs := some s.dev.nowNs }).motEvent a 0x0008
    else t
  else s

/-- R376: an entry is queued or refused. -/
def State.pushEntry (s : State) (a : Nat) (e : SetPoint) : State :=
  if s.pushResult a e = 0 then
    ((s.setAx a { s.ax a with queue := (s.ax a).queue ++ [e] }).showQueue a).noteLate a e
  else s.addFld F.MOT_AXCNT_REFUSED 1 a

/-- The queue emptied, the discarded entries counted in SKIPPED. -/
def State.flushAxis (s : State) (a : Nat) : State :=
  ((s.addFld F.MOT_AXCNT_SKIPPED (s.ax a).queue.length a).setAx a { s.ax a with queue := [] }).showQueue a

/-- R377: the newest entry of the given types that is due, with the state after the due ones left the queue. -/
def State.takeDue (s : State) (a : Nat) (kinds : List Nat) : Option SetPoint × State :=
  let due := fun (e : SetPoint) => decide (e.time ≤ s.time) && kinds.contains e.typ
  let hit := (s.ax a).queue.filter due
  match hit.getLast? with
  | none => (none, s)
  | some e => (some e, ((s.setAx a { s.ax a with queue := (s.ax a).queue.filter (fun x => !due x) }).addFld
      F.MOT_AXCNT_SKIPPED (hit.length - 1) a).showQueue a)

/-! References. -/

/-- A current reference clamped to ±IQ_MAX; a clamp is counted (R374). -/
def State.clampRef (s : State) (a x : Nat) : Nat × State :=
  let m := s.mU .MOT_IQMAX a (-16)
  let y := f32.clamp x (f32.neg m) m
  (y, if f32.lt x (f32.neg m) || f32.lt m x then s.addFld F.MOT_AXCNT_CLAMPED 1 a else s)

/-- The loop's value of iq_ref, in force unless a TQ_RAMP runs. -/
def Axis.setIq (x : Axis) (v : Nat) : Axis := { x with iqLoop := v, iqRef := if x.ramp.isNone then v else x.iqRef }

/-- The ramp generator restarts from the measured position and velocity with a = 0 (R374, R378, R383). -/
def Axis.restartRamp (x : Axis) : Axis := { x with p := x.pos, v := widen x.w, a := 0 }

/-- R382: the open-loop start of a sensorless axis. -/
def State.startObserver (s : State) (a : Nat) : State :=
  let t := (s.putFld F.MOT_AXSTATE_OBS 1 a).putFld F.MOT_AXSTATE_ANGLE 3 a
  t.setAx a { t.ax a with ramp := none, startW := 0, obs := { (t.ax a).obs with lockRun := 0 } }

/-- R377, R382: the first entry applied to a READY axis moves it to RUNNING. -/
def State.startAxis (s : State) (a : Nat) : State :=
  let t := s.acceptUnit fnMot a
  let t := t.setAx a { (t.ax a).restartRamp with xd := 0, xq := 0, xv := 0, ramp := none, feOver := false }
  if s.sensorless a then t.startObserver a
  else (t.putFld F.MOT_AXSTATE_ANGLE 0 a).putFld F.MOT_AXSTATE_OBS 0 a

/-- The set-point asks for motion (R382). -/
def SetPoint.moves (e : SetPoint) (pos : Int) : Bool :=
  match e.typ with
  | 0 => decide (signedOf 64 e.v0 ≠ pos)
  | 3 => e.v0 != 0 || e.v1 != 0
  | 4 => false
  | _ => e.v0 != 0

/-- The set-point in force is TORQUE or IDQ. -/
def State.directMode (s : State) (a : Nat) : Bool :=
  s.fld F.MOT_AXSTATE_SP_TYPE a == 2 || s.fld F.MOT_AXSTATE_SP_TYPE a == 3

/-- R378: an axis that leaves TORQUE or IDQ restarts the ramp generator. -/
def State.leaveDirect (s : State) (a typ : Nat) : State :=
  if s.directMode a && typ != 2 && typ != 3 then s.setAx a (s.ax a).restartRamp else s

/-- The effect of an entry on targets and references (R374, R378); TORQUE and IDQ have no following error (R379). -/
def State.applyEntry (s : State) (a : Nat) (e : SetPoint) : State :=
  let s := if s.axState a = stReady then s.startAxis a
    else if s.sensorless a ∧ s.fld F.MOT_AXSTATE_OBS a = 0 ∧ e.moves (s.ax a).pos then s.startObserver a else s
  let s := (s.leaveDirect a e.typ).putFld F.MOT_AXSTATE_SP_TYPE e.typ a
  let x := { s.ax a with hold := false }
  match e.typ with
  | 0 => s.setAx a { x with target := signedOf 64 e.v0 }
  | 1 => s.setAx a { x with target := signedOf 64 e.v0 }
  | 4 => s.setAx a { x with target := 0 }
  | 2 =>
    let r := s.clampRef a (f32.div (f32.ofInt (signedOf 64 e.v0) (-16)) (s.mF .MOT_KT a))
    r.2.setAx a ({ x with xv := 0, feOver := false, idRef := s.mS .MOT_IDREF a (-16) }.setIq r.1)
  | _ =>
    let d := s.clampRef a (f32.ofInt (signedOf 64 e.v0) (-16))
    let q := d.2.clampRef a (f32.ofInt (signedOf 32 e.v1) (-16))
    q.2.setAx a ({ x with xv := 0, feOver := false, idRef := d.1 }.setIq q.1)

/-- The due entries of a loop's types apply, unless the axis drains (see log entry 41, DEDUCED). -/
def State.applyDue (s : State) (a : Nat) (kinds : List Nat) : State :=
  if usableCode (s.axState a) then
    match s.takeDue a kinds with
    | (some e, t) => t.applyEntry a e
    | (none, t) => t
  else s

/-- How far a TQ_RAMP has come: the part done, as a ratio held at 1. -/
def State.rampPart (s : State) (a ticks : Nat) : Nat × Nat :=
  let whole := 10000 * s.fld F.MOT_OBSCFG_TQ_RAMP a * (1 + s.fld F.MOT_PWMCFG_SAMP a)
  (min (ticks * 2 * s.fld F.MOT_PWMCFG_PERIOD a) whole, whole)

/-- R383, R386: the references of a TQ_RAMP at a current sample. -/
def State.stepRamp (s : State) (a : Nat) : State :=
  let x := s.ax a
  match x.ramp with
  | none => s
  | some r =>
    let k := s.rampPart a (r.ticks + 1)
    let r' := { r with ticks := r.ticks + 1 }
    if r.up then
      if k.1 = k.2 then s.setAx a { x with iqRef := x.iqLoop, ramp := none }
      else s.setAx a { x with iqRef := f32.add r.iq0 (f32.mul (f32.sub x.iqLoop r.iq0) (f32.ofRatio k.1 k.2)), ramp := some r' }
    else
      let f := f32.ofRatio (k.2 - k.1) k.2
      s.setAx a { x with
        iqRef := f32.mul r.iq0 f, idRef := if r.both then f32.mul r.id0 f else x.idRef, ramp := some r' }

/-- Both references ramp to zero. -/
def Axis.rampsOff (x : Axis) : Bool := x.ramp.any (fun r => !r.up && r.both)

/-- The references start down to zero over TQ_RAMP, unless both do already. -/
def Axis.rampDown (x : Axis) (both : Bool) : Axis :=
  if x.rampsOff then x else { x with ramp := some { up := false, both := both, id0 := x.idRef, iq0 := x.iqRef } }

/-- R386: FN_STOP of a RUNNING axis: the queue is flushed; a CASCADE axis executes STOP, a CURRENT_ONLY axis ramps its
references to zero. -/
def State.drainAxis (s : State) (a : Nat) : State :=
  let t := s.flushAxis a
  if s.cascade then
    let t := t.leaveDirect a 4
    (t.putFld F.MOT_AXSTATE_SP_TYPE 4 a).setAx a { t.ax a with target := 0, hold := false }
  else t.setAx a ((t.ax a).rampDown true)

/-- R386: a draining axis's references have reached zero. -/
def State.axisDrained (s : State) (a : Nat) : Bool :=
  match (s.ax a).ramp with
  | some r => !r.up && r.both && (s.rampPart a r.ticks).1 == (s.rampPart a r.ticks).2
  | none => false

/-- A stopped or starting axis: its loops are reset; what it measures goes on, and a safe pattern that holds stays (R385). -/
def State.resetAxis (s : State) (a : Nat) : State :=
  let x := s.ax a
  let t := s.setAx a { accepted := x.accepted, pos := x.pos, posAtVel := x.posAtVel, w := x.w, thTotal := x.thTotal, lateNs := x.lateNs }
  let t := ((t.showQueue a).putFld F.MOT_AXSTATE_COMMAND_LAG 0 a).putFld F.MOT_AXSTATE_SP_TYPE 0 a
  let t := (t.putFld F.MOT_AXSTATE_OBS 0 a).putFld F.MOT_AXSTATE_ANGLE 0 a
  t.sumBit F.MOT_FAULTSUM_FAULT a false

/-- An axis that reads READY again: no safe pattern. -/
def State.readyAxis (s : State) (a : Nat) : State :=
  (((s.resetAxis a).putFld F.MOT_AXSTATE_SAFE 0 a).sumBit F.MOT_FAULTSUM_SAFE a false).setPwm a 0

/-! Encoders (R368 to R370). -/

/-- R368: the sector of a Hall state written UVW; 000 and 111 are invalid. -/
def hallSector (h : Nat) : Option Nat :=
  match h with
  | 1 => some 0
  | 3 => some 1
  | 2 => some 2
  | 6 => some 3
  | 4 => some 4
  | 5 => some 5
  | _ => none

/-- R368: the electrical angle of a sector: 60° each, and 30°. -/
def hallAngle (sector : Nat) : Nat := 2 ^ 32 * (2 * sector + 1) / 12

/-- R368: when in a piece of time an input that must be stable for some ns takes the piece's level. -/
def EncPin.takes (x : EncPin) (lvl : Bool) (need dur : Nat) : Option Nat :=
  if x.level = some lvl then none
  else
    let at_ := need - (if x.raw = lvl then x.age else 0)
    if at_ ≤ dur then some at_ else none

/-- An input after a piece of time at a level. -/
def EncPin.after (x : EncPin) (lvl : Bool) (need dur : Nat) : EncPin where
  raw := lvl
  age := if x.raw = lvl then x.age + dur else dur
  level := if (x.takes lvl need dur).isSome then some lvl else x.level

/-- The three levels taken, where all are known. -/
def Encoder.levels (x : Encoder) : Option (Bool × Bool × Bool) :=
  match x.pins.map (·.level) with
  | [some a, some b, some z] => some (a, b, z)
  | _ => none

/-- R368: the place of the levels of A and B in a quadrature cycle, A ahead of B counting up (see log entry 118, PRESUMED). -/
def quadPlace (a b : Bool) : Nat := if a then (if b then 2 else 1) else (if b then 3 else 0)

/-- A fault that ENCODER_FAULT can take up. -/
def Encoder.fail (x : Encoder) (f : EncFault) : Encoder := if x.faults.contains f then x else { x with faults := x.faults ++ [f] }

/-- R368: an index pulse: the first loads 0, a later one more than 4 counts from a multiple of CPR is an index error. -/
def Encoder.index (x : Encoder) (cpr : Nat) : Encoder × Bool :=
  let r := (x.carried % (max 1 cpr : Nat)).toNat
  if x.indexed = false then ({ x with carried := 0, indexed := true }, false)
  else if 4 < min r (max 1 cpr - r) then (x.fail .index, true)
  else (x, false)

/-- R368, R370: what a change of the levels taken does in ABZ mode. -/
def Encoder.quad (x : Encoder) (old new : Bool × Bool × Bool) (cpr : Nat) : Encoder × Nat × Nat :=
  let d := (quadPlace new.1 new.2.1 + 4 - quadPlace old.1 old.2.1) % 4
  let y := if d = 1 then { x with carried := x.carried + 1 } else if d = 3 then { x with carried := x.carried - 1 }
    else if d = 2 then x.fail .illegal else x
  let z := if new.2.2 && !old.2.2 then y.index cpr else (y, false)
  (z.1, b2n (d == 2), b2n z.2)

/-- R368, R370: what a change of the levels taken does in HALL mode; the count follows the sectors (see log entry 114, DESIGN CHOICE). -/
def Encoder.hall (x : Encoder) (new : Bool × Bool × Bool) : Encoder × Nat × Nat :=
  match hallSector (4 * b2n new.1 + 2 * b2n new.2.1 + b2n new.2.2) with
  | some k =>
    let step : Int := ((k : Int) + 9 - (x.last.getD k : Nat)) % 6 - 3
    ({ x with last := some k, carried := x.carried + step }, 0, 0)
  | none => (x.fail .hall, 1, 0)

/-- The interface's state and its error counts (illegal, index) as its inputs take levels; mode 0 ABZ, 2 HALL. -/
def Encoder.changed (r : Encoder × Nat × Nat) (pins : List EncPin) (mode cpr : Nat) : Encoder × Nat × Nat :=
  let y := { r.1 with pins := pins }
  match r.1.levels, y.levels with
  | some old, some new =>
    if old = new then (y, r.2)
    else
      let z := if mode = 2 then y.hall new else y.quad old new cpr
      (z.1, r.2.1 + z.2.1, r.2.2 + z.2.2)
  | none, some new => if mode = 2 then ((y.hall new).1, r.2.1 + (y.hall new).2.1, r.2.2) else (y, r.2)
  | _, none => (y, r.2)

/-- R368: a piece of time at the interface: its inputs take the levels in the order in which each has been stable long enough. -/
def Encoder.piece (mode cpr need : Nat) (r : Encoder × Nat × Nat) (e : Nat × Nat) : Encoder × Nat × Nat :=
  let ps := r.1.pins
  let lvl := fun k => e.2.testBit k
  let at_ := (List.range 3).map (fun k => (ps.getD k {}).takes (lvl k) need e.1)
  let times := ((at_.filterMap id).eraseDups).mergeSort (fun a b => decide (a ≤ b))
  let taken := fun (t : Nat) => (List.range 3).map (fun k =>
    let p := ps.getD k {}
    if (at_.getD k none).any (fun n => decide (n ≤ t)) then { p with level := some (lvl k) } else p)
  let q := times.foldl (fun r t => Encoder.changed r (taken t) mode cpr) r
  ({ q.1 with pins := (List.range 3).map (fun k => (ps.getD k {}).after (lvl k) need e.1) }, q.2)

/-- Gray code to binary, from the most significant bit. -/
def fromGray (acc : Bool) : List Bool → List Bool
  | [] => []
  | b :: l => xor acc b :: fromGray (xor acc b) l

/-- R368: the word of an SSI frame: start bit, data, an even parity bit where PARITY is set, and the line low after it; none where the frame
is in error (see log entry 118, PRESUMED). -/
def ssiWord (bits : Nat) (gray parity : Bool) (f : List Bool) : Option Nat :=
  let data := (f.drop 1).take bits
  let tail := f.drop (1 + bits)
  let even := !parity || (data ++ tail.take 1).foldl xor false == false
  if f.head? = some true ∧ data.length = bits ∧ even ∧ tail.drop (b2n parity) = [false] then
    some ((if gray then fromGray false data else data).foldl (fun n b => 2 * n + b2n b) 0)
  else none

/-- R368 to R370: an SSI frame at the interface: the count carried on across wraps, or a frame error, two in a row of which are a fault. -/
def Encoder.ssi (x : Encoder) (bits : Nat) (word : Option Nat) : Encoder × Nat × Nat :=
  match word with
  | some n =>
    let carried := match x.last with
      | some c => x.carried + signedOf bits ((n + 2 ^ bits - c) % 2 ^ bits)
      | none => (n : Int)
    ({ x with last := some n, carried := carried, frameRun := 0 }, 0, 0)
  | none => if x.frameRun = 0 then ({ x with frameRun := 1 }, 1, 0) else ({ x with frameRun := 0 }.fail .frame, 1, 0)

/-- R368, R369: the encoder's signals since the last tick, its errors counted, and the position at the sampling instant. -/
def State.readEncoder (s : State) (a : Nat) (x : MotSample) : State :=
  let n := s.fld F.MOT_AXCFG_ENC a
  let mode := s.fld F.MOT_ENCCFG_MODE n
  let cpr := s.reg .MOT_ENCCPR n
  let bits := s.fld F.MOT_ENCCFG_SSI_BITS n
  let r := if mode = 1 then (s.enc n).ssi bits (ssiWord bits (s.flag F.MOT_ENCCFG_GRAY n) (s.flag F.MOT_ENCCFG_PARITY n) x.frame)
    else x.enc.foldl (Encoder.piece mode cpr (8 * s.fld F.MOT_ENCCFG_FILTER n)) (s.enc n, 0, 0)
  let t := ((s.setEnc n r.1).addFld F.MOT_ENCERR_ILLEGAL r.2.1 n).addFld F.MOT_ENCERR_ZERR r.2.2 n
  let raw := if mode = 1 then r.1.last.getD 0 else (r.1.carried % 2 ^ 32).toNat
  (t.setReg .MOT_ENCCNT raw n).setAx a { t.ax a with pos := 2 ^ 32 * r.1.carried / (cpr : Int) }

/-- R369: the encoder's electrical angle; in HALL mode that of the last valid sector. -/
def State.encAngle (s : State) (a : Nat) : Nat :=
  let n := s.fld F.MOT_AXCFG_ENC a
  if s.fld F.MOT_ENCCFG_MODE n = 2 then hallAngle ((s.enc n).last.getD 0)
  else (((s.ax a).pos % 2 ^ 32).toNat * s.fld F.MOT_AXCFG_POLE_PAIRS a + s.reg .MOT_ENCOFF n) % 2 ^ 32

/-- R370: what an encoder fault does to an axis that uses the interface. -/
def State.encoderFault (s : State) (a : Nat) : State :=
  let t := s.motEvent a 0x0007
  if s.fld F.MOT_AXSTATE_ANGLE a = 0 ∧ s.fld F.MOT_AXCFG_BACKUP a = 2 ∧ s.fld F.MOT_AXSTATE_OBS a = 2 then
    t.putFld F.MOT_AXSTATE_ANGLE 1 a
  else t.axisTrip a 5

/-- The axis is enabled and uses the encoder interface. -/
def State.axisUses (s : State) (n a : Nat) : Bool :=
  s.flag F.MOT_AXCFG_EN a && s.usesEncoder a && s.fld F.MOT_AXCFG_ENC a == n

/-- The axis is enabled, works, and uses the encoder interface. -/
def State.axisOnEncoder (s : State) (n a : Nat) : Bool :=
  s.axisUses n a && (usableCode (s.axState a) || s.axState a == stDraining)

/-- A fault of an encoder interface is taken up. -/
def State.clearEnc (s : State) (n : Nat) (f : EncFault) : State :=
  s.setEnc n { s.enc n with faults := (s.enc n).faults.filter (fun g => g != f) }

/-- ENCODER_FAULT (R370): a fault that the interface's samples have shown acts on the axes that use it. -/
def execEncoderFault (n : Nat) (f : EncFault) (s : State) : Host.Outcome State Fault Refusal :=
  .next (if 16 ≤ n ∨ (s.enc n).faults.contains f = false then s else
    (List.range 16).foldl (fun t a => if t.axisOnEncoder n a then t.encoderFault a else t) (s.clearEnc n f))

/-! The rotor observer (R381 to R383). -/

/-- One step of the observer's equations on the measured current, with the residual (see log entry 41, DEDUCED). -/
def State.obsStep (s : State) (a ialpha ibeta : Nat) : Nat × State :=
  let x := s.ax a
  let o := x.obs
  let ti := s.loopTime f32 a 1
  let l := f32.mul (f32.add (s.mF .MOT_L_D a) (s.mF .MOT_L_Q a)) 0x3f000000
  let k := f32.div ti l
  let rs := s.mF .MOT_R_S a
  let ra := f32.sub ialpha o.ia
  let rb := f32.sub ibeta o.ib
  let nxt := fun (ih v im e r : Nat) =>
    f32.add (f32.add ih (f32.mul k (f32.sub (f32.sub v (f32.mul rs im)) e))) (f32.mul (s.mF .MOT_K1 a) r)
  let ia := nxt o.ia x.voltsLoaded.1 ialpha o.ea ra
  let ib := nxt o.ib x.voltsLoaded.2 ibeta o.eb rb
  let ea := f32.sub o.ea (f32.mul (s.mF .MOT_K2 a) ra)
  let eb := f32.sub o.eb (f32.mul (s.mF .MOT_K2 a) rb)
  let mag := f32.sqrt (f32.add (f32.mul ea ea) (f32.mul eb eb))
  let num := f32.sub (f32.mul (f32.neg ea) (cos32 o.th)) (f32.mul eb (sin32 o.th))
  let err := if mag = 0 then s.freeNat 32 else f32.div num mag
  let s := if mag = 0 then s.drawFree else s
  let w := f32.add o.w (f32.mul (f32.mul (s.mF .MOT_KI_PLL a) ti) err)
  let dth := (f32.decode (f32.mul ti w)).roundAt 32 +
    (f32.decode (f32.mul (f32.mul (s.mF .MOT_KP_PLL a) ti) err)).roundAt 32
  let r := f32.sqrt (f32.add (f32.mul ra ra) (f32.mul rb rb))
  let th := (((o.th : Int) + dth) % 2 ^ 32).toNat
  (r, s.setAx a { x with obs := { o with
    ia := ia, ib := ib, ea := ea, eb := eb, w := w, th := th, err := f32.abs err, resid := (r :: o.resid).take 16 } })

/-- The mechanical speed of ω̂. -/
def State.obsSpeed (s : State) (a : Nat) : Nat := f32.abs (f32.div (s.ax a).obs.w (s.polePairs a))

/-- The runs of samples that lock or lose the observer, with ω_g and the last good angles; th0 is θ̂ of this sample. -/
def State.obsRuns (s : State) (a r th0 : Nat) : State :=
  let o := (s.ax a).obs
  let lim := s.mS .MOT_RESLIM a (-16)
  let resBad := f32.lt lim r
  let errBad := f32.lt 0x3f000000 o.err
  let lock := f32.le r (f32.mul lim 0x3f000000) && f32.le o.err 0x3e800000 &&
    f32.le (s.mS .MOT_OBSMIN a (-16)) (s.obsSpeed a)
  s.setAx a { s.ax a with obs := { o with
    lockRun := if lock then o.lockRun + 1 else 0
    resRun := if resBad then o.resRun + 1 else 0
    errRun := if errBad then o.errRun + 1 else 0
    wGood := if resBad then o.wGood else o.w
    thRes := if resBad then o.thRes else th0
    thErr := if errBad then o.thErr else th0 } }

/-- The mean of the last residuals. -/
def meanResid (l : List Nat) : Nat := f32.div (l.foldr (fun r m => f32.add m r) 0) (f32.ofInt l.length)

/-- R381: CONF and RESIDUAL of MOT_OBSSTAT. -/
def State.showObs (s : State) (a r : Nat) : State :=
  let q := f32.sub 0x3f800000 (f32.div (meanResid (s.ax a).obs.resid) (s.mS .MOT_RESLIM a (-16)))
  let conf := (((f32.decode (f32.max 0 q)).mul (.fin false 255 0)).truncAt 0).toNat
  (s.putFld F.MOT_OBSSTAT_CONF (min conf 255) a).putFld F.MOT_OBSSTAT_RESIDUAL
    (min ((f32.decode r).truncAt 8).toNat (2 ^ 24 - 1)) a

/-- The angle's advance per sample at ω_g, in units of 2^-32 turn. -/
def State.flyStep (s : State) (a : Nat) : Int :=
  (f32.decode (f32.mul (s.loopTime f32 a 1) (s.ax a).obs.wGood)).roundAt 32

/-- R383: the observer seeded from the extrapolated angle and ω_g, with î the measured current. -/
def State.seedObs (s : State) (a ialpha ibeta : Nat) : State :=
  let x := s.ax a
  s.setAx a { x with obs := { x.obs with th := x.theta, w := x.obs.wGood, ia := ialpha, ib := ibeta } }

/-- R383: LOST: to the encoder backup, or the flywheel. -/
def State.loseObserver (s : State) (a ialpha ibeta : Nat) : State :=
  let o := (s.ax a).obs
  let t := (s.putFld F.MOT_AXSTATE_OBS 3 a).motEvent a 0x0001
  if s.fld F.MOT_AXSTATE_ANGLE a ≠ 1 then t
  else if s.fld F.MOT_AXCFG_ANGLE_SRC a = 1 ∧ s.fld F.MOT_AXCFG_BACKUP a = 1 then t.putFld F.MOT_AXSTATE_ANGLE 0 a
  else
    let byRes := decide (s.fld F.MOT_OBSCFG_K a ≤ o.resRun)
    let run := if byRes then o.resRun else o.errRun
    let th := ((((if byRes then o.thRes else o.thErr) : Int) + run * s.flyStep a) % 2 ^ 32).toNat
    let t := t.putFld F.MOT_AXSTATE_ANGLE 2 a
    (t.setAx a { (t.ax a).rampDown false with theta := th }).seedObs a ialpha ibeta

/-- R383: LOCKED again: the angle returns to the observer, and iq_ref ramps from its present value to the loop's. -/
def State.relock (s : State) (a : Nat) : State :=
  let t := s.putFld F.MOT_AXSTATE_OBS 2 a
  if s.fld F.MOT_AXSTATE_ANGLE a = 2 then
    let t := (t.putFld F.MOT_AXSTATE_ANGLE 1 a).motEvent a 0x0002
    let x := (t.ax a).restartRamp
    t.setAx a (if x.rampsOff then x else { x with ramp := some { up := true, both := false, id0 := 0, iq0 := x.iqRef } })
  else t

/-- R382, R383: the observer's state after a sample. -/
def State.obsDecide (s : State) (a ialpha ibeta : Nat) : State :=
  let o := (s.ax a).obs
  let k := s.fld F.MOT_OBSCFG_K a
  let locked := decide (s.fld F.MOT_OBSCFG_RELOCK_K a ≤ o.lockRun)
  match s.fld F.MOT_AXSTATE_OBS a with
  | 2 =>
    if k ≤ o.resRun ∨ k ≤ o.errRun then s.loseObserver a ialpha ibeta
    else if s.sensorless a ∧ f32.lt (s.obsSpeed a) (f32.mul (s.mS .MOT_OBSMIN a (-16)) 0x3f000000) then
      (s.putFld F.MOT_AXSTATE_OBS 0 a).setAx a ((s.ax a).rampDown true)
    else s
  | 1 =>
    if locked then
      let t := (s.putFld F.MOT_AXSTATE_OBS 2 a).putFld F.MOT_AXSTATE_ANGLE 1 a
      t.setAx a (if (t.ax a).ramp.isSome then t.ax a else { t.ax a with iqRef := (t.ax a).iqLoop })
    else s
  | 3 => if locked then s.relock a
    else if s.fld F.MOT_AXSTATE_ANGLE a = 2 ∧ f32.lt 0x3f000000 o.err then s.seedObs a ialpha ibeta else s
  | _ =>
    if locked ∧ s.sensorless a = false then
      let t := s.putFld F.MOT_AXSTATE_OBS 2 a
      if s.flag F.MOT_AXCFG_ANGLE_SRC a then t.putFld F.MOT_AXSTATE_ANGLE 1 a else t
    else s

/-- The observer at a current sample. -/
def State.runObserver (s : State) (a ialpha ibeta : Nat) : State :=
  if s.usesObserver a then
    let th0 := (s.ax a).obs.th
    let r := s.obsStep a ialpha ibeta
    ((r.2.obsRuns a r.1 th0).showObs a r.1).obsDecide a ialpha ibeta
  else s

/-- FLYWHEEL_TIMEOUT (R383): T_FLY ends without a relock. -/
def execFlywheelTimeout (a : Nat) (s : State) : Host.Outcome State Fault Refusal :=
  .next (if a < 16 ∧ s.fld F.MOT_AXSTATE_ANGLE a = 2 then s.axisTrip a 3 else s)

/-- OBSERVER_START_TIMEOUT (R382). -/
def execObserverStartTimeout (a : Nat) (s : State) : Host.Outcome State Fault Refusal :=
  .next (if a < 16 ∧ s.fld F.MOT_AXSTATE_OBS a = 1 then s.axisTrip a 3 else s)

/-! The current loop (R365, R366, R372). -/

/-- A difference of two 24-bit samples exceeds STEP_LIMIT. -/
def State.stepExceeds (s : State) (a x y : Nat) : Bool :=
  decide (s.fld F.MOT_STEPLIM_VALUE a * 2 ^ 12 < (signedOf 24 x - signedOf 24 y).natAbs)

/-- The three inputs of an axis after the main filters (R365). -/
structure MainSamples where
  a : Nat
  b : Nat
  c : Nat
  deriving DecidableEq, Repr

/-- R365: the main filters of an axis at a sampling instant. -/
def State.filtered (s : State) (a : Nat) (x : MotSample) : MainSamples :=
  let f := sinc3 (s.fld F.MOT_SDCFG_OSR a)
  { a := f x.a, b := f x.b, c := f x.c }

/-- R366: the three samples of an axis after the plausibility check, with which inputs were rejected. -/
def State.plausible (s : State) (a : Nat) (x : MainSamples) : (Nat × Nat × Nat) × List Bool :=
  let sumBad := !s.flag F.MOT_AXCFG_IN2 a && decide (s.fld F.MOT_STEPLIM_VALUE a * 2 ^ 12 <
    (signedOf 24 x.a + signedOf 24 x.b + signedOf 24 x.c).natAbs)
  match (s.ax a).accepted with
  | none => ((x.a, x.b, x.c), [sumBad, sumBad, sumBad])
  | some (a0, b0, c0) =>
    let ra := sumBad || s.stepExceeds a x.a a0
    let rb := sumBad || s.stepExceeds a x.b b0
    let rc := sumBad || s.stepExceeds a x.c c0
    ((if ra then a0 else x.a, if rb then b0 else x.b, if rc then c0 else x.c), [ra, rb, rc])

/-- R366: accepted samples, REJECT and the run of samples with a rejected input; the third trips the axis (see log entry 114, DESIGN
CHOICE). -/
def State.checkSamples (s : State) (a : Nat) (x : MainSamples) : State :=
  let r := s.plausible a x
  let n := (r.2.filter id).length
  let runs := if n = 0 then 0 else (s.ax a).rejects + 1
  let t := (s.addFld F.MOT_AXCNT_REJECT n a).setAx a { s.ax a with accepted := some r.1, rejects := runs }
  if runs = 3 ∧ (usableCode (s.axState a) ∨ s.axState a = stDraining) then (t.motEvent a 0x0005).axisTrip a 2 (r.2.findIdx id) else t

/-- A sample in amperes or volts. -/
def scaled (x fs : Nat) : Nat := f32.mul (f32.ofInt (signedOf 24 x) (-23)) fs

/-- The DC-link voltage (R364). -/
def State.vdc (s : State) (a : Nat) : Nat :=
  if s.flag F.MOT_AXCFG_IN2 a then scaled (((s.ax a).accepted.map (·.2.2)).getD 0) (s.mF .MOT_V_FS a)
  else s.mF .MOT_VDC_NOM a

/-- R363: the on-time of a gate in units of 125 ps: D × period or its complement, less the dead time; a pulse shorter than
MIN_PULSE is omitted. -/
def gateTime (whole on dt minPulse : Nat) (high : Bool) : Nat :=
  let ideal := if high then on else whole - on
  let t := ideal - dt
  if t < minPulse then 0 else t

/-- The six gates of an axis for three duties. -/
def State.gateTimes (s : State) (a : Nat) (duties : List Nat) : List Nat :=
  let whole := 16 * s.fld F.MOT_PWMCFG_PERIOD a
  duties.flatMap (fun d =>
    let on := (((f32.decode d).mul (.fin false whole 0)).truncAt 0).toNat
    let dt := s.fld F.MOT_PWMDT_DT a
    let mp := s.fld F.MOT_PWMDT_MIN_PULSE a
    [gateTime whole on dt mp true, gateTime whole on dt mp false])

/-- R372: a phase's duty; where vdc is zero the quotient of 0 by 0 is no number and the duty is a free value. -/
def State.duty (s : State) (vx vo vdc : Nat) : Nat × State :=
  let q := f32.add 0x3f000000 (f32.div (f32.sub vx vo) vdc)
  if f32.decode q = .nan then (f32.ofInt (s.freeNat 32) (-32), s.drawFree)
  else (f32.clamp q 0 0x3f800000, s)

/-- R372: the current loop on ia, ib, cos θe and sin θe (see log entry 41, DEDUCED). -/
def State.currentLoop (s : State) (a ialpha ibeta c sn : Nat) : State :=
  let x := s.ax a
  let idm := f32.add (f32.mul c ialpha) (f32.mul sn ibeta)
  let iqm := f32.add (f32.mul (f32.neg sn) ialpha) (f32.mul c ibeta)
  let ed := f32.sub x.idRef idm
  let eq := f32.sub x.iqRef iqm
  let vd := f32.add (f32.mul (s.mF .MOT_KP_I a) ed) x.xd
  let vq := f32.add (f32.mul (s.mF .MOT_KP_I a) eq) x.xq
  let vdc := s.vdc a
  let vlim := f32.mul 0x3f124745 vdc
  let m := f32.sqrt (f32.add (f32.mul vd vd) (f32.mul vq vq))
  let past := f32.lt vlim m
  let k := f32.mul (s.mF .MOT_KI_I a) (s.loopTime f32 a 1)
  let xd := if past then x.xd else f32.add x.xd (f32.mul k ed)
  let xq := if past then x.xq else f32.add x.xq (f32.mul k eq)
  let vd := if past then f32.mul vd (f32.div vlim m) else vd
  let vq := if past then f32.mul vq (f32.div vlim m) else vq
  let va := f32.sub (f32.mul c vd) (f32.mul sn vq)
  let vb' := f32.add (f32.mul sn vd) (f32.mul c vq)
  let half := f32.mul (f32.neg 0x3f000000) va
  let side := f32.mul 0x3f5db3d7 vb'
  let vb := f32.add half side
  let vc := f32.sub half side
  let vo := f32.mul (f32.add (f32.max (f32.max va vb) vc) (f32.min (f32.min va vb) vc)) 0x3f000000
  let da := s.duty va vo vdc
  let db := da.2.duty vb vo vdc
  let dc := db.2.duty vc vo vdc
  let t := dc.2.setReg .MOT_IDQ (2 ^ 32 * ofSigned 32 (fix32 idm 16) + ofSigned 32 (fix32 iqm 16)) a
  t.setAx a { x with
    xd := xd, xq := xq, duty := [da.1, db.1, dc.1], volts := (va, vb')
    sig := { x.sig with id := idm, iq := iqm, vd := vd, vq := vq } }

/-- R363: the duty computed before takes effect at this sampling instant. -/
def State.loadDuty (s : State) (a : Nat) : State :=
  let x := s.ax a
  s.setAx a { x with loaded := x.duty, voltsLoaded := x.volts, gates := s.gateTimes a x.duty }

/-- R382: the open-loop angle of the start: START_ACC up to OBS_MIN_SPEED, with iq = I_START. -/
def State.stepStart (s : State) (a : Nat) : State :=
  let x := s.ax a
  let ti := s.loopTime f32 a 1
  let w := f32.min (f32.add x.startW (f32.mul (s.mU .MOT_STARTACC a (-8)) ti)) (s.mS .MOT_OBSMIN a (-16))
  let d := (f32.decode (f32.mul (f32.mul ti w) (s.polePairs a))).roundAt 32
  s.setAx a { x with
    startW := w, theta := (((x.theta : Int) + d) % 2 ^ 32).toNat, iqRef := if x.ramp.isSome then x.iqRef else s.mF .MOT_I_START a }

/-- The angle in use at a sample: encoder, observer, extrapolated or start-up. -/
def State.angleNow (s : State) (a enc : Nat) : Nat :=
  match s.fld F.MOT_AXSTATE_ANGLE a with
  | 0 => enc
  | 1 => (s.ax a).obs.th
  | _ => (s.ax a).theta

/-- A sensorless axis's position follows its electrical angle. -/
def State.carryAngle (s : State) (a th : Nat) : State :=
  let x := s.ax a
  let total := x.thTotal + signedOf 32 (th + 2 ^ 32 - (x.thTotal % 2 ^ 32).toNat)
  if s.usesEncoder a then s
  else s.setAx a { x with thTotal := total, pos := total / (s.fld F.MOT_AXCFG_POLE_PAIRS a : Int) }

/-- A RUNNING or DRAINING axis at a sampling instant. -/
def State.runCurrent (s : State) (a ialpha ibeta enc : Nat) : State :=
  let s := (s.loadDuty a).stepRamp a
  let s := if s.fld F.MOT_AXSTATE_ANGLE a = 3 then s.stepStart a
    else if s.fld F.MOT_AXSTATE_ANGLE a = 2 then
      s.setAx a { s.ax a with theta := ((((s.ax a).theta : Int) + s.flyStep a) % 2 ^ 32).toNat }
    else s
  let th := s.angleNow a enc
  let s := s.carryAngle a th
  let s := (s.setAx a { s.ax a with sig := { (s.ax a).sig with theta := th } }).runObserver a ialpha ibeta
  if s.axState a = stFault then s else s.currentLoop a ialpha ibeta (cos32 th) (sin32 th)

/-- An axis at a sampling instant: encoder, main filters, plausibility, currents. -/
def State.sampleAxis (s : State) (a : Nat) (x : MotSample) : State :=
  let s := if s.usesEncoder a then s.readEncoder a x else s
  let s := s.checkSamples a (s.filtered a x)
  let acc := ((s.ax a).accepted).getD (0, 0, 0)
  let in2 := if s.flag F.MOT_AXCFG_IN2 a then s.vdc a else scaled acc.2.2 (s.mF .MOT_I_FS a)
  s.setAx a { s.ax a with sig := { (s.ax a).sig with
    ia := scaled acc.1 (s.mF .MOT_I_FS a), ib := scaled acc.2.1 (s.mF .MOT_I_FS a), in2 := in2 } }

/-- R372: iβ of the sampled currents. -/
def State.iBeta (s : State) (a : Nat) : Nat :=
  f32.mul (f32.add (s.ax a).sig.ia (f32.mul 0x40000000 (s.ax a).sig.ib)) 0x3f13cd3a

/-- R381, R387: an axis whose loops do not run: id, iq and the observer's residual are measured all the same, and the observer decides
nothing (see log entry 114, DESIGN CHOICE). -/
def State.watchAxis (s : State) (a : Nat) : State :=
  let th := s.angleNow a (s.encAngle a)
  let ia := (s.ax a).sig.ia
  let ib := s.iBeta a
  let idm := f32.add (f32.mul (cos32 th) ia) (f32.mul (sin32 th) ib)
  let iqm := f32.add (f32.mul (f32.neg (sin32 th)) ia) (f32.mul (cos32 th) ib)
  let t := (s.setAx a { s.ax a with sig := { (s.ax a).sig with theta := th, id := idm, iq := iqm } }).setReg .MOT_IDQ
    (2 ^ 32 * ofSigned 32 (fix32 idm 16) + ofSigned 32 (fix32 iqm 16)) a
  if t.usesObserver a then
    let r := t.obsStep a ia ib
    (r.2.obsRuns a r.1 (t.ax a).obs.th).showObs a r.1
  else t

/-- A working axis after its samples: set-points of the current loop, loop. -/
def State.workAxis (s : State) (a : Nat) : State :=
  let s := s.applyDue a [2, 3]
  if s.axState a = stReady ∨ (s.axState a = stDraining ∧ s.axisDrained a = true) then s.watchAxis a
  else s.runCurrent a (s.ax a).sig.ia (s.iBeta a) (s.encAngle a)

/-- The axis takes main samples: it is READY, RUNNING or DRAINING, or it has stopped. -/
def State.samples (s : State) (a : Nat) : Bool :=
  usableCode (s.axState a) || s.axState a == stDraining || s.axState a == stStopped || s.axState a == stFault

/-- CURRENT_LOOP_TICK (R364 to R366, R369, R372, R381 to R383, R387): the sampling instant of one axis. -/
def execCurrentLoopTick (a : Nat) (x : MotSample) (s : State) : Host.Outcome State Fault Refusal :=
  .next (if 16 ≤ a ∨ s.flag F.MOT_AXCFG_EN a = false then s
    else
      let t := if s.samples a then s.sampleAxis a x else s
      let t := if usableCode (t.axState a) || t.axState a == stDraining then t.workAxis a
        else if t.samples a then t.watchAxis a else t
      let t := t.setReg .MOT_POS (ofSigned 64 (t.ax a).pos) a
      [0, 1, 2, 3].foldl (fun u k => u.traceSample a k) t)

/-! The velocity loop (R369, R373). -/

/-- R369: the measured mechanical velocity: the position's difference over a velocity period. -/
def State.measureVel (s : State) (a : Nat) : State :=
  let x := s.ax a
  let w := f32.div (f32.ofInt (x.pos - x.posAtVel) (-32)) (s.loopTime f32 a (s.loopN a))
  (s.setReg .MOT_VEL (ofSigned 32 (fix32 w 16)) a).setAx a { x with w := w, posAtVel := x.pos }

/-- The set-point in force feeds the position loop: POSITION, or a STOP that holds. -/
def State.posMode (s : State) (a : Nat) : Bool := s.fld F.MOT_AXSTATE_SP_TYPE a == 0 || (s.ax a).hold

/-- R379: the check is suspended while the angle is extrapolated and during the TQ_RAMP after a relock. -/
def State.feSuspended (s : State) (a : Nat) : Bool :=
  s.fld F.MOT_AXSTATE_ANGLE a == 2 || ((s.ax a).ramp.map (·.up)).getD false

/-- R373: the velocity loop. The integrator is held on a clamp and in the flywheel. -/
def State.velocityLoop (s : State) (a : Nat) : State :=
  let x := s.ax a
  let vr := narrow x.v
  let wRef := if s.posMode a then x.wRef else vr
  let ev := f32.sub wRef x.w
  let u := f32.add (f32.add (f32.mul (s.mF .MOT_KP_V a) ev) x.xv) (f32.mul (s.mF .MOT_KFF_A a) (narrow x.a))
  let m := s.mU .MOT_IQMAX a (-16)
  let iq := f32.clamp u (f32.neg m) m
  let held := f32.lt u (f32.neg m) || f32.lt m u || s.fld F.MOT_AXSTATE_ANGLE a == 2
  let xv := if held then x.xv
    else f32.add x.xv (f32.mul (f32.mul (s.mF .MOT_KI_V a) (s.loopTime f32 a (s.loopN a))) ev)
  let past := if s.posMode a then x.feOver else f32.lt (s.mS .MOT_FEVLIM a (-16)) (f32.abs (f32.sub vr x.w))
  let idRef := if x.rampsOff then x.idRef else s.mS .MOT_IDREF a (-16)
  s.setAx a ({ x with xv := xv, feOver := past && !s.feSuspended a, idRef := idRef }.setIq iq)

/-- VELOCITY_LOOP_TICK (R369, R373, R377). -/
def execVelocityLoopTick (a : Nat) (s : State) : Host.Outcome State Fault Refusal :=
  .next (if 16 ≤ a ∨ s.flag F.MOT_AXCFG_EN a = false then s
    else
      let s := s.measureVel a
      if s.cascade = false then s
      else
        let s := s.applyDue a [1, 4]
        if s.axState a ≠ stRunning ∧ s.axState a ≠ stDraining then s
        else if s.directMode a then s.setAx a { (s.ax a).restartRamp with xv := 0, feOver := false }
        else s.velocityLoop a)

/-! The position loop and the ramp generator (R373, R378, R380). -/

/-- The sign of a binary64 as ±1, or 0. -/
def signOf (x : Nat) : Nat := if f64.lt x 0 then f64.ofInt (-1) else if f64.lt 0 x then f64.ofInt 1 else 0

/-- R378: the speed the generator aims at for a distance e. -/
def rampGoal (e vmax amax jmax : Nat) : Nat :=
  let d := f64.abs e
  let a2 := f64.mul amax amax
  let j2 := f64.mul jmax jmax
  let vs :=
    if f64.le (f64.div (f64.mul a2 amax) j2) d then
      let root := f64.sqrt (f64.add (f64.div (f64.mul a2 a2) j2) (f64.mul (f64.mul (f64.ofInt 8) amax) d))
      f64.div (f64.add (f64.div (f64.neg a2) jmax) root) (f64.ofInt 2)
    else f64.cbrt (f64.mul (f64.mul d d) jmax)
  f64.mul (signOf e) (f64.min vmax vs)

/-- R378: one tick of the ramp generator on p, v and a. pos: a POSITION target, else the velocity target vt. -/
def rampStep (x : Axis) (posT : Bool) (vt vmax amax jmax t : Nat) : Axis :=
  let e := f64.ofInt (x.target - x.p) (-32)
  let vg := if posT then rampGoal e vmax amax jmax else f64.clamp vt (f64.neg vmax) vmax
  let s := f64.sub (f64.sub vg x.v) (f64.div (f64.mul x.a (f64.abs x.a)) (f64.mul (f64.ofInt 2) jmax))
  let jt := f64.mul jmax t
  let jtt := f64.mul jmax (f64.mul t t)
  let ag := if f64.lt jtt s then amax else if f64.lt s (f64.neg jtt) then f64.neg amax else 0
  let a1 := f64.add x.a (f64.clamp (f64.sub ag x.a) (f64.neg jt) jt)
  let half := f64.div (f64.mul (f64.add x.a a1) t) (f64.ofInt 2)
  let v1 := f64.clamp (f64.add x.v half) (f64.neg vmax) vmax
  let dp := (f64.decode (f64.div (f64.mul (f64.add x.v v1) t) (f64.ofInt 2))).roundAt 32
  let jttt := f64.mul jmax (f64.mul (f64.mul t t) t)
  if posT && f64.le (f64.abs e) jttt && f64.le (f64.abs v1) jtt && f64.le (f64.abs a1) jt then
    { x with p := x.target, v := 0, a := 0 }
  else { x with p := signedOf 64 (ofSigned 64 (x.p + dp)), v := v1, a := a1 }

/-- R378: a STOP that has come to rest holds its position; a draining axis then ramps its references down (R386). -/
def State.stopHold (s : State) (a : Nat) : State :=
  let x := s.ax a
  if s.fld F.MOT_AXSTATE_SP_TYPE a = 4 ∧ x.hold = false ∧ f64.abs x.v = 0 ∧ f64.abs x.a = 0 then
    let y := { x with hold := true, target := x.p }
    s.setAx a (if s.axState a = stDraining then y.rampDown true else y)
  else s

/-- The ramp generator at a position tick, with COMMAND_LAG, whose rise triggers like an event (see log entry 103, DESIGN CHOICE). -/
def State.runRamp (s : State) (a : Nat) : State :=
  let x := s.ax a
  let t := s.loopTime f64 a (s.loopN a * s.loopM a)
  let vt := f64.ofInt x.target (-16)
  let y := rampStep x (s.posMode a) vt (s.mD .MOT_VMAX a (-16)) (s.mD .MOT_AMAX a (-8)) (s.mD .MOT_JMAX a (-4)) t
  let lag := if s.posMode a then decide (s.reg .MOT_LAGPOS a * 256 < (y.target - y.p).natAbs)
    else f64.lt (s.mD .MOT_LAGVEL a (-16)) (f64.abs (f64.sub vt y.v))
  let s := if lag && !s.flag F.MOT_AXSTATE_COMMAND_LAG a then s.fireAxis a else s
  ((s.setAx a y).putFld F.MOT_AXSTATE_COMMAND_LAG (b2n lag) a).stopHold a

/-- The position loop: w_ref, and the following error of a POSITION target (R373, R379). -/
def State.positionLoop (s : State) (a : Nat) : State :=
  let x := s.ax a
  if s.posMode a then
    let ep := f32.ofInt (x.p - x.pos) (-32)
    let m := s.mU .MOT_VMAX a (-16)
    let w := f32.clamp (f32.add (f32.mul (s.mF .MOT_KFF_V a) (narrow x.v)) (f32.mul (s.mF .MOT_KP_P a) ep)) (f32.neg m) m
    let past := decide (s.reg .MOT_FELIM a * 256 < (x.p - x.pos).natAbs)
    s.setAx a { x with wRef := w, feOver := past && !s.feSuspended a }
  else s

/-- MOT_RPOS and MOT_RVEL. -/
def State.showRamp (s : State) (a : Nat) : State :=
  (s.setReg .MOT_RPOS (ofSigned 64 (s.ax a).p) a).setReg .MOT_RVEL
    (ofSigned 32 (clampSigned 32 ((f64.decode (s.ax a).v).truncAt 16))) a

/-- POSITION_LOOP_TICK (R373, R377 to R380). -/
def execPositionLoopTick (a : Nat) (s : State) : Host.Outcome State Fault Refusal :=
  .next (if 16 ≤ a ∨ s.flag F.MOT_AXCFG_EN a = false ∨ s.cascade = false then s
    else
      let s := s.applyDue a [0]
      if s.axState a ≠ stRunning ∧ s.axState a ≠ stDraining then s
      else if s.directMode a then ((s.setAx a (s.ax a).restartRamp).putFld F.MOT_AXSTATE_COMMAND_LAG 0 a).showRamp a
      else ((s.runRamp a).positionLoop a).showRamp a)

/-- FOLLOWING_ERROR (R379): the error has exceeded its limit at every tick for FE_TIME. -/
def execFollowingError (a : Nat) (s : State) : Host.Outcome State Fault Refusal :=
  .next (if a < 16 ∧ (s.ax a).feOver ∧ s.directMode a = false ∧ (s.axState a = stRunning ∨ s.axState a = stDraining) ∧ s.feSuspended a = false then
      (s.motEvent a 0x0006).axisTrip a 4
    else s)

/-! Packets and register commands (R375, R389, R390). -/

/-- An entry of a MOT_SETPOINT payload with its axis. -/
def entryOf (b : List Byte) : Nat × SetPoint :=
  (leAt b 9 1 % 16, { time := leAt b 0 8, typ := leAt b 8 1, v0 := leAt b 0x10 8, v1 := leAt b 0x18 4 })

/-- The zero fields of an entry (Table MOT-2, R489). -/
def entryZero (b : List Byte) : Bool :=
  leAt b 9 1 < 16 && leAt b 0x0A 6 == 0 && leAt b 0x1C 4 == 0 && (leAt b 8 1 == 3 || leAt b 0x18 4 == 0) &&
    (leAt b 8 1 != 4 || leAt b 0x10 8 == 0)

/-- The rule of MOT_SETPOINT. -/
def setpointRule (p : Packet) (s : State) : Rule where
  op := ⟨8, 1⟩
  format := p.target == 0 && decide (1 ≤ p.plen) && (pRecords p 32).all entryZero
  permit := (pRecords p 32).all (fun b => s.axPart (entryOf b).1 == p.partition)
  fn := some (fnMot, none)

/-- Entries in payload order: accepted and refused counts. -/
def pushAll : List (Nat × SetPoint) → Nat → Nat → State → Nat × Nat × State
  | [], ok, no, s => (ok, no, s)
  | (a, e) :: l, ok, no, s =>
    if s.pushResult a e = 0 then pushAll l (ok + 1) no (s.pushEntry a e) else pushAll l ok (no + 1) (s.pushEntry a e)

/-- R389: RESULT bits 15:0 accepted, 31:16 refused. -/
def setpointBody (p : Packet) (id : Nat) (s : State) : State :=
  let r := pushAll ((pRecords p 32).map entryOf) 0 0 s
  r.2.2.finish id (if r.2.1 = 0 then csDone else csClamped) (65536 * r.2.1 + r.1)

/-- MOT_SETPOINT (R375, R376, R389). -/
def execMotSetpoint (p : Packet) (s : State) : Host.Outcome State Fault Refusal :=
  .next (runPacket (.motSetpoint p) (setpointRule p s) p (setpointBody p) s)

/-- A packet that names an axis in TARGET bits 3:0 (see log entry 41, DEDUCED). -/
def axisRule (code : Nat) (p : Packet) (s : State) (ext : Nat) : Rule where
  op := ⟨8, code⟩
  format := pTargetBits p 4 && p.plen == 0
  ext := ext
  permit := s.axPart p.target == p.partition
  fn := some (fnMot, none)

/-- MOT_FLUSH (R389). -/
def execMotFlush (p : Packet) (s : State) : Host.Outcome State Fault Refusal :=
  .next (runPacket (.motFlush p) (axisRule 2 p s 0) p
    (fun id t => (t.flushAxis p.target).finish id csDone (t.ax p.target).queue.length) s)

/-- R389: the two EXT slots of MOT_QUERY. -/
def State.axisExt (s : State) (a : Nat) : List Byte :=
  toLe 8 (s.reg .MOT_POS a) ++ toLe 8 (s.reg .MOT_RPOS a) ++ toLe 4 (s.reg .MOT_VEL a) ++ toLe 4 (s.reg .MOT_RVEL a) ++
    toLe 8 (s.reg .MOT_IDQ a) ++ List.replicate 32 0

/-- MOT_QUERY (R389). -/
def execMotQuery (p : Packet) (s : State) : Host.Outcome State Fault Refusal :=
  .next (runPacket (.motQuery p) (axisRule 3 p s 2) p
    (fun id t => t.finish id csDone (t.reg .MOT_AXSTATE p.target) (t.axisExt p.target)) s)

/-- SPW_PUSH (R375, R376): the staged values with TYPE from the written value. -/
def execSpwPush (a : Nat) (w : RegWrite) (s : State) : Host.Outcome State Fault Refusal :=
  let e : SetPoint := { time := s.reg .SPW_TIME a, typ := w.value % 8, v0 := s.reg .SPW_VAL0 a, v1 := s.reg .SPW_VAL1 a }
  .next (if 16 ≤ a then s.busErr
    else s.regWrite .MOT (s.ofPart w.initiator (s.axPart a))
      ((s.pushEntry a e).putFld F.SPW_STAT_RESULT (s.pushResult a e) a))

/-- RETURN (R383, R390): the angle goes back to the primary source if the observer is LOCKED (see log entry 41, DEDUCED). -/
def execReturnAngle (a : Nat) (w : RegWrite) (s : State) : Host.Outcome State Fault Refusal :=
  .next (if 16 ≤ a then s.busErr
    else s.regWrite .MOT (s.p0 w.initiator)
      (if s.fld F.MOT_AXSTATE_OBS a = 2 then s.putFld F.MOT_AXSTATE_ANGLE (s.fld F.MOT_AXCFG_ANGLE_SRC a) a else s))

/-- AXCTL_FLUSH (R390). -/
def execAxctlFlush (a : Nat) (w : RegWrite) (s : State) : Host.Outcome State Fault Refusal :=
  .next (if 16 ≤ a then s.busErr else s.regWrite .MOT (s.p0 w.initiator) (s.flushAxis a))

/-- ARM (R388): an IDLE or DONE buffer starts recording. -/
def execArm (t : Nat) (w : RegWrite) (s : State) : Host.Outcome State Fault Refusal :=
  .next (if 4 ≤ t then s.busErr
    else s.regWrite .MOT (s.p0 w.initiator)
      (if s.fld F.MOT_TRSTAT_STATE t = 0 ∨ s.fld F.MOT_TRSTAT_STATE t = 3 then
        (s.setReg .MOT_TRSTAT (2 ^ 29) t).setTrace t {}
      else s))

/-- TRIGGER (R388). -/
def execTrigger (t : Nat) (w : RegWrite) (s : State) : Host.Outcome State Fault Refusal :=
  .next (if 4 ≤ t then s.busErr else s.regWrite .MOT (s.p0 w.initiator) (s.traceFire t))

/-- TRACE_STOP (R388): the buffer reads IDLE. -/
def execTraceStop (t : Nat) (w : RegWrite) (s : State) : Host.Outcome State Fault Refusal :=
  .next (if 4 ≤ t then s.busErr else s.regWrite .MOT (s.p0 w.initiator) (s.putFld F.MOT_TRSTAT_STATE 0 t))

end Sys2Proof.Machine
end

