-- ==== Sys2Proof/Machine/Island.lean ====
section
/-! DEFINITION. The safety island: device SAFE, the lockstep pairs, window watchdogs and the Tourbillon (file 14: R435 to R449,
R461, R462). -/

namespace Sys2Proof.Machine

/-! SAFE_FAULT_N and device SAFE (R437, R447, R448). -/

/-- R437: a cause of SAFE_FAULT_N holds. -/
def State.safeCause (s : State) : Bool :=
  !s.safe.ready || s.devState == devHeld || s.devState == devSafe || s.dev.thermTrip

/-- R437: SAFE_FAULT_N follows its causes. -/
def State.showSafeFault (s : State) : State :=
  { s with pins := { s.pins with safeFault := s.safeCause } }.putFld F.SAFE_STATUS_SFN (b2n s.safeCause)

/-- SAFE_STATUS.CAUSE codes. -/
abbrev scWatchdog : Nat := 1
abbrev scLockstep : Nat := 2
abbrev scHeartbeat : Nat := 3
abbrev scTourbillon : Nat := 4
abbrev scStartFault : Nat := 5
abbrev scRcosc : Nat := 6
abbrev scCommand : Nat := 7

/-- Axes of a mask that exist trip with a cause. -/
def State.tripAxes (s : State) (mask cause : Nat) : State :=
  ((List.range 16).filter (fun a => mask.testBit a)).foldl
    (fun t a => if t.axState a = stOff ∨ t.axState a = stHeld then t else t.axisTrip a cause) s

/-- Table SAFE-4: CAN controllers STOPPED with TX recessive. -/
def State.stopCans (s : State) : State :=
  (s.enabledUnits fnCan).foldl (fun t c => t.setUnit fnCan c stStopped) { s with pins := { s.pins with canOn := 0 } }

/-- Table SAFE-4: the data Ethernet ports and the Grenlink lanes down. -/
def State.linksDown (s : State) : State :=
  let t := (List.range 8).foldl (fun t n => t.putFld F.ETH_PSTAT_LINK 0 n) s
  let t := (List.range 4).foldl (fun t n => (t.putFld F.GLK_PSTAT_WIDTH 0 n).putFld F.GLK_PSTAT_PEER_VALID 0 n) t
  { t with pins := { t.pins with ethTx := s.pins.ethTx / 2 ^ 8 % 2 * 2 ^ 8, glkTx := 0 } }

/-- Table SAFE-4: the outputs in SAFE. -/
def State.safeOutputs (s : State) : State :=
  let t := ((s.tripAxes 0xFFFF 7).stopCans).linksDown
  { t with pins := { t.pins with senseClk := 0, fsync := 0 } }

/-- R448: every context of every partition other than 0 torn down. -/
def State.tearDownOthers (s : State) (st : Nat) : State :=
  (List.range 64).foldl (fun t p => if p = 0 then t else (t.contexts p).foldl (fun u c => u.teardown p c st none) t) s

/-- R447, R448: the device enters SAFE; a second cause is logged and changes nothing (see log entry 31, DEDUCED). -/
def State.enterSafe (s : State) (cause : Nat) : State :=
  if s.devState = devSafe then s.anyEvent 0x0D 5
  else
    let t := (s.putFld F.SYS_DEVSTATE_DEVSTATE devSafe).putFld F.SAFE_STATUS_DEVSAFE 1
    let t := (t.putFld F.SAFE_STATUS_CAUSE cause).showSafeFault
    (t.safeOutputs.tearDownOthers (if cause = scWatchdog then csWatchdog else csEngine)).anyEvent 0x0D 5

/-! The lockstep pairs (R435, R436). -/

/-- The pairs run their firmware while FN_SAFE starts, is READY or RUNNING (see log entry 31, DEDUCED). -/
def State.pairsRun (s : State) : Bool := s.fnState fnSafe == stStarting || s.fnUsable fnSafe

/-- The field that shows a pair running. -/
def pairFld (pair : Nat) : Fld := if pair = 0 then F.SAFE_STATUS_PAIR0_OK else F.SAFE_STATUS_PAIR1_OK

/-- R436: a halted pair puts the device in SAFE. -/
def State.haltPair (s : State) (pair cause : Nat) : State :=
  if pair < 2 ∧ s.pairsRun = true ∧ s.flag (pairFld pair) = true then (s.putFld (pairFld pair) 0).enterSafe cause else s

/-- LOCKSTEP_MISMATCH (R436). -/
def execLockstepMismatch (pair : Nat) (s : State) : Host.Outcome State Fault Refusal := .next (s.haltPair pair scLockstep)

/-- SAFE_HEARTBEAT_MISS (R436): the second consecutive heartbeat that a pair misses (see log entry 31, DEDUCED). -/
def execSafeHeartbeatMiss (pair : Nat) (s : State) : Host.Outcome State Fault Refusal := .next (s.haltPair pair scHeartbeat)

/-! Window watchdogs (R438 to R443). -/

/-- A watchdog that acts: enabled, FN_SAFE usable, pair 0 running, and its partition READY or RUNNING. -/
def State.wdLive (s : State) (k : Nat) : Bool :=
  s.flag F.SAFE_WDCFG_EN k && s.fnUsable fnSafe && s.flag F.SAFE_STATUS_PAIR0_OK &&
    usableCode (s.unitState fnMgmt (s.fld F.SAFE_WDCFG_PARTITION k))

/-- When a watchdog's window opened. -/
def State.wdOpened (s : State) (k : Nat) : Option Nat := (s.safe.openNs.find? (fun e => e.1 == k)).map (·.2)

/-- R439: window time t in whole microseconds of CLK_SAFE, which scales with the root clock (R43). -/
def State.wdTime (s : State) (k : Nat) : Nat := (s.clk.edges - (s.wdOpened k).getD s.clk.edges) / 1000

/-- The open windows show their time (see log entry 21, DEDUCED). -/
def State.showDogs (s : State) : State :=
  s.safe.openNs.foldl (fun t e => t.putFld F.SAFE_WDSTAT_T_US (satNat 16 (t.wdTime e.1)) e.1) s

/-- A window opens at t = 0. -/
def State.wdOpen (s : State) (k : Nat) : State :=
  { (s.putFld F.SAFE_WDSTAT_STATE 1 k).putFld F.SAFE_WDSTAT_T_US 0 k with
    safe := { s.safe with openNs := s.safe.openNs.filter (fun e => e.1 != k) ++ [(k, s.clk.edges)] } }

/-- A window ends; the watchdog reads IDLE. -/
def State.wdClose (s : State) (k : Nat) : State :=
  { (s.putFld F.SAFE_WDSTAT_STATE 0 k).putFld F.SAFE_WDSTAT_T_US 0 k with
    safe := { s.safe with openNs := s.safe.openNs.filter (fun e => e.1 != k) } }

/-- R442: the reaction to the miss that a watchdog's RUN counts (see log entry 31, DEDUCED). -/
def State.wdReact (s : State) (k : Nat) : Nat :=
  if s.fld F.SAFE_WDCFG_ESC_N k ≠ 0 ∧ s.fld F.SAFE_WDCFG_ESC_N k ≤ s.fld F.SAFE_WDSTAT_RUN k then 4
  else s.fld F.SAFE_WDCFG_REACT k

/-- R441: a miss recorded: logged with the watchdog, the kind and t (see log entry 100, DESIGN CHOICE), SAFE_WDSUM, LAST and the run of
misses. -/
def State.wdRecord (s : State) (k kind time : Nat) : State :=
  let t := (s.emit 0x0D 1 k (2 ^ 32 * kind + satNat 32 time) (s.fld F.SAFE_WDCFG_PARTITION k)).setReg .SAFE_WDSUM (s.reg .SAFE_WDSUM ||| 2 ^ k)
  (t.putFld F.SAFE_WDSTAT_LAST kind k).addFld F.SAFE_WDSTAT_RUN 1 k

/-- R443: a watchdog whose stage was restarted ignores start events until the context reads READY. -/
def State.wdBlock (s : State) (k : Nat) : State :=
  let c := (s.fld F.SAFE_WDCFG_PARTITION k, s.fld F.SAFE_WDCFG_CONTEXT k)
  { s with safe := { s.safe with blocked := s.safe.blocked.filter (fun e => e.1 != k) ++ [(k, c)] } }

/-- Table SAFE-2: a reaction applied; codes that the table does not list have no effect. -/
def State.wdApply (s : State) (k react : Nat) : State :=
  let p := s.fld F.SAFE_WDCFG_PARTITION k
  let c := s.fld F.SAFE_WDCFG_CONTEXT k
  match react with
  | 1 => ((s.wdBlock k).teardown p c csWatchdog none).signal (s.fld F.SAFE_WDTGT_RESTART_CTR k) 1
  | 2 => s.teardownPartition p csWatchdog
  | 3 => s.tripAxes (s.fld F.SAFE_WDTGT_AXES k) 6
  | 4 => s.enterSafe scWatchdog
  | _ => s

/-- R441: a miss: the window has ended, the miss is recorded and the reaction applied. -/
def State.wdMiss (s : State) (k kind : Nat) : State :=
  let t := (s.wdClose k).wdRecord k kind (s.wdTime k)
  t.wdApply k (t.wdReact k)

/-- R439: the reaction ends the stage that the watchdog guards. -/
def endsStage (react : Nat) : Bool := react == 1 || react == 2 || react == 4

/-- Table SAFE-1: a start event. -/
def State.wdStartEvent (s : State) (k : Nat) : State :=
  if s.wdLive k = false ∨ s.safe.blocked.any (fun e => e.1 == k) = true then s
  else if (s.wdOpened k).isNone then s.wdOpen k
  else
    let t := (s.wdClose k).wdRecord k 3 (s.wdTime k)
    let u := t.wdApply k (t.wdReact k)
    if endsStage (t.wdReact k) then u else u.wdOpen k

/-- R439: a stray kick, logged at most once per 1 ms and watchdog. -/
def State.wdStray (s : State) (k : Nat) : State :=
  let t := s.addFld F.SAFE_WDSTAT_STRAY 1 k
  if (s.safe.strayNs.filter (fun e => e.1 == k)).all (fun e => decide (e.2 + 1000000 ≤ s.dev.nowNs)) then
    let u := t.event 0x0D 2 k (s.fld F.SAFE_WDCFG_PARTITION k)
    { u with safe := { u.safe with strayNs := u.safe.strayNs.filter (fun e => e.1 != k) ++ [(k, s.dev.nowNs)] } }
  else t

/-- Table SAFE-1, R442: a kick. -/
def State.wdKickEvent (s : State) (k : Nat) : State :=
  if s.wdLive k = false then s
  else if (s.wdOpened k).isNone then s.wdStray k
  else if s.wdTime k < s.fld F.SAFE_WDWIN_OPEN_US k then s.wdMiss k 1
  else if s.wdTime k ≤ s.fld F.SAFE_WDWIN_CLOSE_US k then (s.wdClose k).putFld F.SAFE_WDSTAT_RUN 0 k
  else s.wdMiss k 2

/-- R440: a kick that a counter owes the watchdog in this cycle is taken before a start event. -/
def State.kickFirst (s : State) (k : Nat) : State :=
  if s.due.contains (.wdKick k .counter) then (s.undue (.wdKick k .counter)).wdKickEvent k else s

/-- R438, R462: a write of SAFE_WDKICKk, from partition 0 or the watchdog's partition; a kick is taken before a start event (R440). -/
def State.wdWrite (s : State) (k : Nat) (w : RegWrite) : State :=
  let t := if w.value.testBit 0 then s.wdKickEvent k else s
  let t := if w.value.testBit 1 then t.kickFirst k else t
  s.regWrite .SAFE (decide (k < 64) && s.ofPart w.initiator (s.fld F.SAFE_WDCFG_PARTITION k))
    (if w.value.testBit 1 then t.wdStartEvent k else t)

/-- WD_START (R438): a start event that a counter owes (R107), after a kick that one owes in the same cycle (R440), or a write of
SAFE_WDKICKk (see log entry 19, DEDUCED). -/
def execWdStart (k : Nat) (src : WdSource) (s : State) : Host.Outcome State Fault Refusal :=
  .next (match src with
    | .register w => s.wdWrite k w
    | .counter =>
      if s.due.contains (.wdStart k .counter) then ((s.undue (.wdStart k .counter)).kickFirst k).wdStartEvent k else s)

/-- WD_KICK (R438, R439): a kick that a counter owes, or a write of SAFE_WDKICKk (see log entry 19, DEDUCED). -/
def execWdKick (k : Nat) (src : WdSource) (s : State) : Host.Outcome State Fault Refusal :=
  .next (match src with
    | .register w => s.wdWrite k w
    | .counter => if s.due.contains (.wdKick k .counter) then (s.undue (.wdKick k .counter)).wdKickEvent k else s)

/-- R439: a live watchdog's window whose t has reached CLOSE_US + 1 without a kick. -/
def State.wdExpired (s : State) (k : Nat) : Bool :=
  decide (k < 64) && s.wdLive k && (s.wdOpened k).isSome && decide (s.fld F.SAFE_WDWIN_CLOSE_US k < s.wdTime k)

/-- R439: such a window ends with a LATE miss. -/
def State.wdExpire (s : State) (k : Nat) : State := if s.wdExpired k then s.wdMiss k 2 else s

/-- R439: the windows that end as time passes. -/
def State.expireDogs (s : State) : State := (s.safe.openNs.map (·.1)).foldl State.wdExpire s

/-- WD_LATE (R439): t reaches CLOSE_US + 1 without a kick. -/
def execWdLate (k : Nat) (s : State) : Host.Outcome State Fault Refusal := .next (s.wdExpire k)

/-! The Tourbillon (R444 to R446). -/

/-- SAFE_TBFAILk: a checker has failed. -/
def State.tbFailed (s : State) (c : Nat) : Bool := (s.reg .SAFE_TBFAIL (c / 64)).testBit (c % 64)

/-- R444: the 408 checkers in the order of Table SAFE-3, pair by pair; the table does not number them, so the order is free
(see log entry 31, DEDUCED). -/
def checkerOrder : List Nat := (List.range 408).mergeSort (fun a b => decide (Config.checkerKey a ≤ Config.checkerKey b))

/-- The twin of a checker: the other one of its pair. -/
def twinOf (c : Nat) : Nat :=
  let i := checkerOrder.idxOf c
  checkerOrder.getD (if i % 2 = 0 then i + 1 else i - 1) c

/-- Table SAFE-3: 0 ECC decoder, 1 lockstep comparator, 2 window watchdog timer, 3 firewall, 4 clock monitor, 5 CRC unit. -/
def checkerKind (c : Nat) : Nat :=
  let i := checkerOrder.idxOf c
  if i < 176 then 0 else if i < 184 then 1 else if i < 312 then 2 else if i < 328 then 3 else if i < 352 then 4 else 5

/-- The function that a checker belongs to: the comparators' and the watchdogs' is FN_SAFE, the firewalls' and the clock monitors' FN_MGMT,
and Table SAFE-3 does not give the others' (see log entry 31, DEDUCED). -/
def checkerFn (c : Nat) : Nat :=
  match checkerKind c with
  | 1 => fnSafe
  | 2 => fnSafe
  | 3 => fnMgmt
  | 4 => fnMgmt
  | _ => Config.checkerFn c % 17

/-- R444: a checker that a rotation tests: neither failed (R446) nor of a gated function. -/
def State.tbTests (s : State) (c : Nat) : Bool := !s.tbFailed c && (s.reg .CLK_GATE).testBit (checkerFn c)

/-- R446: a checker failed its test. -/
def State.tbFail (s : State) (c : Nat) : State :=
  let t := (s.setReg .SAFE_TBFAIL (s.reg .SAFE_TBFAIL (c / 64) ||| 2 ^ (c % 64)) (c / 64)).event 0x0D 3 c
  if s.tbFailed (twinOf c) || s.fld F.SAFE_CFG_TB_REACT == 4 then t.enterSafe scTourbillon else t

/-- R444: the end of a rotation. -/
def State.tbRotation (s : State) : State :=
  { s with safe := { s.safe with overruns := if s.safe.late then s.safe.overruns else 0, late := false, tested := [] } }.addFld
    F.SAFE_TBSTAT_ROTATIONS 1

/-- R444: a rotation has ended when every checker that it tests has been tested. -/
def State.tbCovered (s : State) : Bool := (List.range 408).all (fun c => s.safe.tested.contains c || !s.tbTests c)

/-- R444: a checker has been tested, and the rotation ends where it was the last. -/
def State.tbTested (s : State) (c : Nat) : State :=
  let t := { s with safe := { s.safe with tested := if s.safe.tested.contains c then s.safe.tested else s.safe.tested ++ [c] } }
  if t.tbCovered then t.tbRotation else t

/-- R444, R445: the checker may be the one of the next slot: one whose test was discarded is repeated first. -/
def State.tbMay (s : State) (c : Nat) : Bool :=
  decide (c < 408) && s.tbTests c && s.safe.repeatNext.all (fun d => d == c || !s.tbTests d)

/-- TOURBILLON_SLOT (R444, R445): the test of one checker. While it is out of service its twin alone acts: the command of a real fault has
its whole effect as ever, the test's result is discarded and the next slot repeats it. -/
def execTourbillonSlot (x : TbSlot) (s : State) : Host.Outcome State Fault Refusal :=
  .next (if s.tbMay x.checker = true ∧ s.fnUsable fnSafe = true ∧ s.flag F.SAFE_STATUS_PAIR1_OK = true then
      let t := s.putFld F.SAFE_TBSTAT_CHECKER x.checker
      let t := { t with safe := { t.safe with repeatNext := if x.realFault then some x.checker else none } }
      if x.realFault then t else (if x.passed then t else t.tbFail x.checker).tbTested x.checker
    else s)

/-- SAFE_TB_LATE (R446): the rotation in progress overruns PERIOD_MS; the second rotation in a row enters SAFE. -/
def execSafeTbLate (s : State) : Host.Outcome State Fault Refusal :=
  .next (if s.fnUsable fnSafe = true ∧ s.flag F.SAFE_STATUS_PAIR1_OK = true ∧ s.safe.late = false then
      let t := { s with safe := { s.safe with late := true, overruns := s.safe.overruns + 1 } }.anyEvent 0x0D 4
      if 1 ≤ s.safe.overruns then t.enterSafe scTourbillon else t
    else s)

/-! SAFE operations (R461). -/

/-- The rule of a SAFE opcode (see log entry 31, DEDUCED). -/
def safeRule (code : Nat) (p : Packet) (bits fn : Nat) (ready : Bool) : Rule where
  op := ⟨0xB, code⟩
  format := pTargetBits p bits && p.plen == 0
  p0 := true
  ready := ready
  fn := some (fn, none)

/-- SAFE_ENTER (R447). -/
def execSafeEnter (p : Packet) (s : State) : Host.Outcome State Fault Refusal :=
  .next (runPacket (.safeEnter p) (safeRule 1 p 0 fnSafe true) p (doneBody csDone 0 [] (fun t => t.enterSafe scCommand)) s)

end Sys2Proof.Machine
end

