-- ==== Sys2Proof/Machine/Security.lean ====
section
/-! DEFINITION. The security engine: OTP, the rollback counter, debug unlock and memory keys (file 14: R450 to R454, R463). -/

namespace Sys2Proof.Machine

/-! OTP (R450). -/

/-- The registers that show OTP. -/
def State.showOtp (s : State) : State :=
  let o := s.chip.otp
  let t := (s.putFld F.SEC_OTPSTAT_ROLLBACK o.rollback).putFld F.SEC_OTPSTAT_MLDSA_VALID (writtenMask o.mldsa)
  let t := (t.putFld F.SEC_OTPSTAT_ECDSA_VALID (writtenMask o.ecdsa)).putFld F.SEC_OTPSTAT_MLDSA_REVOKED o.mldsaRevoked
  (t.putFld F.SEC_OTPSTAT_ECDSA_REVOKED o.ecdsaRevoked).putFld F.SEC_OTPSTAT_DBG_KEYS
    (b2n o.dbgMldsa.isSome * 2 + b2n o.dbgEcdsa.isSome)

/-- OTP replaced, with what shows it. -/
def State.setOtp (s : State) (o : Otp) : State := { s with chip := { s.chip with otp := o } }.showOtp

/-- SEC_OTPDATA: the hash of 48 bytes. -/
def State.otpHash (s : State) : Nat := (List.range 6).foldl (fun n j => n + s.reg .SEC_OTPDATA j * 2 ^ (64 * j)) 0

/-- A slot's hash written once: result 0 DONE, 1 WRITTEN. -/
def writeSlot (l : List (Option Nat)) (i h : Nat) : Nat × List (Option Nat) :=
  if (l.getD i none).isSome then (1, l) else (0, l.set i (some h))

/-- R450: a revocation; one that would leave no unrevoked written slot is refused with 2 LAST_SLOT, one already made with 1. -/
def revokeSlot (l : List (Option Nat)) (revoked i : Nat) : Nat × Nat :=
  if revoked.testBit i then (1, revoked)
  else if (List.range 4).all (fun j => (l.getD j none).isNone || (revoked ||| 2 ^ i).testBit j) then (2, revoked)
  else (0, revoked ||| 2 ^ i)

/-- An OTP item programmed: its result and the OTP after it. SECURED takes effect at the next power-on (see log entry 31, DEDUCED). -/
def otpItem (o : Otp) (item i h : Nat) : Nat × Otp :=
  match item with
  | 1 => ((writeSlot o.mldsa i h).1, { o with mldsa := (writeSlot o.mldsa i h).2 })
  | 2 => ((writeSlot o.ecdsa i h).1, { o with ecdsa := (writeSlot o.ecdsa i h).2 })
  | 3 => if o.dbgMldsa.isSome then (1, o) else (0, { o with dbgMldsa := some h })
  | 4 => if o.dbgEcdsa.isSome then (1, o) else (0, { o with dbgEcdsa := some h })
  | 5 => ((revokeSlot o.mldsa o.mldsaRevoked i).1, { o with mldsaRevoked := (revokeSlot o.mldsa o.mldsaRevoked i).2 })
  | 6 => ((revokeSlot o.ecdsa o.ecdsaRevoked i).1, { o with ecdsaRevoked := (revokeSlot o.ecdsa o.ecdsaRevoked i).2 })
  | 7 => if o.secured then (1, o) else (0, { o with secured := true })
  | _ => (0, o)

/-- R463: the SEC registers that an initiator reaches: partition 0, and before an unlock the debug initiator only the mailbox, at level
APP no debug access of class 0x7 any
(see log entry 22, DEDUCED). -/
def State.secReach (s : State) (i : Nat) (mailbox : Bool) : Bool := isP0 i && !debugClass i && (mailbox || !s.debugLocked i)

/-- SEC_OTPPROG (R450, R463): accepted only while the device is BLANK; otherwise the result is 3 NOT_BLANK. -/
def execSecOtpprog (w : RegWrite) (s : State) : Host.Outcome State Fault Refusal :=
  .next (s.regWrite .SEC (s.secReach w.initiator false)
    (if s.flag F.SEC_LIFECYCLE_STATE then s.putFld F.SEC_OTPRES_RESULT 3
     else
       let r := otpItem s.chip.otp (bitsOf w.value 31 28) (bitsOf w.value 27 26) s.otpHash
       (s.setOtp r.2).putFld F.SEC_OTPRES_RESULT r.1))

/-- R451: the new value of the rollback counter. -/
def State.advanced (s : State) : Nat := max s.chip.otp.rollback (min 128 s.dev.rollback)

/-- SEC_ADVANCE (R451). -/
def execSecAdvance (p : Packet) (s : State) : Host.Outcome State Fault Refusal :=
  .next (runPacket (.secAdvance p) (safeRule 0x10 p 0 fnMgmt (!s.flag F.SYS_DEVSTATE_RAM_PROFILE)) p
    (fun id t => (t.setOtp { t.chip.otp with rollback := t.advanced }).finish id csDone t.advanced) s)

/-! Memory keys (R454). -/

/-- R454: a new key for a partition: what was stored under the earlier one reads as free bytes. -/
def State.renewKey (s : State) (p : Nat) : State :=
  { s with keys := { s.keys with gens := sparseSet (fun _ => 0) s.keys.gens p (sparseGet (fun _ => 0) s.keys.gens p + 1) } }

/-- SEC_RENEW_KEY (R454). -/
def execSecRenewKey (p : Packet) (s : State) : Host.Outcome State Fault Refusal :=
  .next (runPacket (.secRenewKey p)
    (safeRule 0x11 p 6 fnMgmt (p.target != 0 && s.unitState fnMgmt p.target == stStopped)) p
    (doneBody csDone 0 [] (fun t => (t.renewKey p.target).anyEvent 0x0E 3 p.target)) s)

/-! Debug unlock (R452). -/

/-- SEC_DBGSTAT.RESULT set. -/
def State.dbgResult (s : State) (r : Nat) : State := s.putFld F.SEC_DBGSTAT_RESULT r

/-- The four words of a new nonce, drawn from the TRNG: free values. -/
def State.newNonce (s : State) : State :=
  (List.range 4).foldl (fun t k => (t.setReg .SEC_DBGNONCE (t.freeNat 64) k).drawFree) s

/-- CHALLENGE (R452): refused after 3 failures until the next warm start. -/
def execChallenge (w : RegWrite) (s : State) : Host.Outcome State Fault Refusal :=
  .next (s.regWrite .SEC (s.secReach w.initiator true)
    (if s.fld F.SEC_LIFECYCLE_DENIALS = 3 then s.dbgResult 4 else s.newNonce.dbgResult 0))

/-- The response's first 42 bytes: level, partition, GLK_UID and the nonce. -/
def State.dbgByte (s : State) (k : Nat) : Nat := s.reg .SEC_DBGRESP (k / 8) / 256 ^ (k % 8) % 256

/-- n bytes of the response as a number. -/
def State.dbgNum (s : State) (off n : Nat) : Nat := (List.range n).foldl (fun a j => a + s.dbgByte (off + j) * 256 ^ j) 0

/-- The nonce of the last challenge. -/
def State.nonce (s : State) : Nat := (List.range 4).foldl (fun a j => a + s.reg .SEC_DBGNONCE j * 2 ^ (64 * j)) 0

/-- R452: a failed response (see log entry 31, DEDUCED). -/
def State.dbgDeny (s : State) (r : Nat) : State := ((s.addFld F.SEC_LIFECYCLE_DENIALS 1).anyEvent 0x0E 2).dbgResult r

/-- R452: the level granted, with the partition of an APP unlock. -/
def State.dbgGrant (s : State) (level part : Nat) : State :=
  (((s.putFld F.SEC_LIFECYCLE_DEBUG level).putFld F.SEC_LIFECYCLE_DEBUG_PART (if level = 1 then part else 0)).anyEvent 0x0E 1).dbgResult 0

/-- Bytes of SEC_DBGRESP. -/
def State.dbgBytes (s : State) (off n : Nat) : List Byte := (List.range n).map (fun k => BitVec.ofNat 8 (s.dbgByte (off + k)))

/-- R452: the signature block that follows the 42 signed bytes, laid out as Table SYS-4: its public keys are the debug keys of OTP, and both
signatures verify (see log entry 31, DEDUCED). -/
def State.dbgSigned (s : State) : Bool :=
  let key := fun off n => s.dbgBytes (42 + off) n
  keyHashOk (key 0x10 1952) s.chip.otp.dbgMldsa && keyHashOk (key 0x7B0 97) s.chip.otp.dbgEcdsa &&
    Config.mldsaVerify (key 0x10 1952) (s.dbgBytes 0 42) (key 0x820 3309) &&
    Config.ecdsaVerify (key 0x7B0 97) (s.dbgBytes 0 42) (key 0x1510 96)

/-- RESPOND (R452). -/
def execRespond (w : RegWrite) (s : State) : Host.Outcome State Fault Refusal :=
  .next (s.regWrite .SEC (s.secReach w.initiator true)
    (if s.fld F.SEC_LIFECYCLE_DENIALS = 3 then s.dbgResult 4
     else if s.dbgSigned = false then s.dbgDeny 1
     else if s.dbgNum 10 32 ≠ s.nonce ∨ s.dbgNum 2 8 ≠ s.reg .GLK_UID then s.dbgDeny 2
     else if s.dbgByte 0 = 1 ∨ (s.dbgByte 0 = 2 ∧ (s.devState = devHeld ∨ s.devState = devSafe)) then
       s.dbgGrant (s.dbgByte 0) (s.dbgByte 1 % 64)
     else s.dbgDeny 3))

/-- LOCK (R452). -/
def execLock (w : RegWrite) (s : State) : Host.Outcome State Fault Refusal :=
  .next (s.regWrite .SEC (s.secReach w.initiator true)
    (((s.putFld F.SEC_LIFECYCLE_DEBUG 0).putFld F.SEC_LIFECYCLE_DEBUG_PART 0).dbgResult 0))

end Sys2Proof.Machine
end

