-- ==== Sys2Proof/Machine/Access.lean ====
section
/-! DEFINITION. Who may read and who may write a register (R42, R57 and the access rules of the register maps). -/

namespace Sys2Proof.Machine

/-- The blocks whose registers every initiator may read. -/
def Block.openRead : Block → Bool
  | .SYS => true
  | .CLK => true
  | .PWR => true
  | .CMDQ => true
  | .SYNC => true
  | .MEMC => true
  | _ => false

/-- R432: the registers of a controller that its partition reaches. -/
def canOwned : List Reg := [.CAN_TXREQ, .CAN_TXDONE, .CAN_TXLATE, .CAN_RXFACK, .CAN_HPBSTAT]

/-- R375, R390: the set-point window, which an axis's partition reaches. -/
def spwOwned : List Reg := [.SPW_TIME, .SPW_VAL0, .SPW_VAL1, .SPW_PUSH, .SPW_STAT]

/-- R463: the debug mailbox. -/
def mailbox : List Reg := [.SEC_LIFECYCLE, .SEC_DBGNONCE, .SEC_DBGCTL, .SEC_DBGSTAT, .SEC_DBGRESP]

/-- R42 and the register maps: who may read a register. A counter or watch of another partition reads as zero (R106, R111). -/
def State.mayRead (s : State) (r : Reg) (i init : Nat) : Bool :=
  match r.info.block with
  | .SEC => s.secReach init (mailbox.contains r)
  | .CHR => s.p0 init || (r == .CHR_TIME && !s.debugLocked init)
  | .CAN => s.p0 init || (canOwned.contains r && s.ofPart init (s.fld F.CAN_CTL_PARTITION i))
  | .MOT => s.p0 init || (spwOwned.contains r && s.ofPart init (s.axPart i))
  | b => s.p0 init || (b.openRead && !s.debugLocked init)

/-- Who may read an offset of a block that holds no register (see log entry 25, DEDUCED). -/
def State.mayReadHole (s : State) (b : Block) (init : Nat) : Bool := s.p0 init || (b.openRead && !s.debugLocked init)

/-- Who may write an offset of a block that holds no register: as its registers, and in CMDQ nobody (R77, R114; see log entry 25, DEDUCED). -/
def State.mayWriteHole (s : State) (b : Block) (init : Nat) : Bool :=
  match b with
  | .CMDQ => false
  | .SYS => !s.debugLocked init
  | .CLK => !s.debugLocked init
  | .SYNC => !s.debugLocked init
  | _ => s.p0 init

/-- R42, R76, R77, R114, R115, R144, R289, R433, R462 and the other register maps: who may write a register. The registers whose own
command judges the initiator are left to it (see log entry 27, DEDUCED). -/
def State.mayWrite (s : State) (r : Reg) (i init : Nat) : Bool :=
  match r.info.block with
  | .SYS => s.p0 init || (r != .SYS_FNCTL && r != .SYS_SELECT && !s.debugLocked init)
  | .CLK => s.p0 init || (!([Reg.CLK_SRCSEL, .CLK_NETREF, .CLK_GATE, .CLK_GATE_CAM, .CLK_GATE_CAN].contains r) && !s.debugLocked init)
  | .CMDQ =>
    match r with
    | .CMDQ_DB => true
    | .CMDQ_QCFG => true
    | .CMDQ_QCPLHEAD => true
    | .CMDQ_QBASE => s.p0 init && !s.flag F.CMDQ_QCFG_EN i
    | .CMDQ_QCPLBASE => s.p0 init && !s.flag F.CMDQ_QCFG_EN i
    | .CMDQ_QHEAD => s.p0 init && !s.flag F.CMDQ_QCFG_EN i
    | .CMDQ_ERR => s.p0 init
    | _ => false
  | .SYNC => if r = .SYNC_RANGE then s.p0 init else !s.debugLocked init
  | .PWR => s.p0 init
  | .MEMC => s.p0 init
  | .CHR => s.p0 init
  | .ETH => s.p0 init || r == .ETH_RDB
  | .SAFE => s.p0 init || r == .SAFE_WDKICK
  | _ => s.mayRead r i init

end Sys2Proof.Machine
end

