-- ==== Sys2Proof/Machine/Profile.lean ====
section
/-! DEFINITION. The Slath image and its checks: the image header, the container of a profile, and what its settings must satisfy
(file 01: R10 to R18, R486, R487; Table SYS-5). -/

namespace Sys2Proof.Machine

/-! The image header (R11, R12). -/

/-- A copy of the image header is valid: IH_MAGIC, FORMAT and IH_CRC. -/
def ihValid (h : List Byte) : Bool :=
  leAt h 0 4 == 0x534C5448 && leAt h 4 2 == 1 && leAt h 0x3C 4 == crc32c (h.take 0x3C)

/-- Copy 0 or 1 of the image header. -/
def State.ihCopy (s : State) (k : Nat) : List Byte := s.flashBytes (0x1000 * k) 64

/-- R12: the copy in use: the valid copy with the higher HDR_SEQ, copy 0 on a tie. -/
def State.ihUsed (s : State) : Option Nat :=
  let v0 := ihValid (s.ihCopy 0)
  let v1 := ihValid (s.ihCopy 1)
  if v0 && v1 then some (if leAt (s.ihCopy 0) 8 4 < leAt (s.ihCopy 1) 8 4 then 1 else 0)
  else if v0 then some 0
  else if v1 then some 1
  else none

/-- SLOT_MASK of a copy. -/
def State.slotMask (s : State) (k : Nat) : Nat := leAt (s.ihCopy k) 6 1 % 16

/-! The container (R13 to R17). img reads bytes of the profile image: offset and number. -/

/-- Table SYS-2: fields of the profile header. -/
def phNum (img : Nat → Nat → List Byte) (off n : Nat) : Nat := leNat (img off n)
def phSigned (img : Nat → Nat → List Byte) : Nat := phNum img 0x10 4
def phSigBlock (img : Nat → Nat → List Byte) : Nat := phNum img 0x14 4

/-- An entry of the section table (R14). -/
def sectionEntry (img : Nat → Nat → List Byte) (k : Nat) : List Byte := img (0x100 + 32 * k) 32
def seType (e : List Byte) : Nat := leAt e 0 2
def seOffset (e : List Byte) : Nat := leAt e 4 4
def seLength (e : List Byte) : Nat := leAt e 8 4
def seEnd (e : List Byte) : Nat := seOffset e + seLength e

/-- The used entries of the section table, with their numbers. -/
def usedSections (img : Nat → Nat → List Byte) : List (Nat × List Byte) :=
  ((List.range 32).map (fun k => (k, sectionEntry img k))).filter (fun e => seType e.2 != 0)

/-- R13: the header is consistent. -/
def headerConsistent (img : Nat → Nat → List Byte) : Bool :=
  decide (phNum img 7 1 ≤ 2) && decide (1 ≤ phNum img 0x0E 2 ∧ phNum img 0x0E 2 ≤ 32) &&
    phNum img 0x0E 2 == (usedSections img).length && phSigBlock img % 4096 == 0 && decide (phSigned img ≤ phSigBlock img) &&
    decide (phSigBlock img + 8192 ≤ 0xBFF000) && allZero (img 0x20 0xDC)

/-- Check 4: the profile header of a slot. -/
def headerOk (img : Nat → Nat → List Byte) (slot : Option Nat) : Bool :=
  phNum img 0 4 == 0x50524F46 && phNum img 4 2 == 1 && (slot.map (fun n => phNum img 6 1 == n)).getD true &&
    phNum img 0xFC 4 == crc32c (img 0 0xFC) && headerConsistent img

/-- Check 5: the commit marker is present and its CM_CRC correct. -/
def markerOk (m : List Byte) : Bool := leAt m 0 4 == 0x434D4954 && leAt m 0x1C 4 == crc32c (m.take 0x1C)

/-- R17: the commit marker of an image. -/
def marker (img : Nat → Nat → List Byte) : List Byte := img 0xBFF000 32

/-- Check 6: the marker matches the header and the signature block. -/
def markerMatches (img : Nat → Nat → List Byte) : Bool :=
  leAt (marker img) 4 4 == phNum img 8 4 && leAt (marker img) 8 4 == phSigned img &&
    leAt (marker img) 0x0C 4 == crc32c (img (phSigBlock img) 8192)

/-- R14: a section table entry is placed as required, against the earlier used entries. -/
def placed (img : Nat → Nat → List Byte) (k : Nat) : Bool :=
  let e := sectionEntry img k
  if seType e = 0 then allZero e
  else
    seOffset e % 4096 == 0 && decide (0x1000 ≤ seOffset e ∧ 1 ≤ seLength e ∧ seEnd e ≤ phSigned img) &&
      decide (leAt e 2 2 < 4) && allZero (bytesAt e 20 12) &&
      ((usedSections img).filter (fun x => decide (x.1 < k))).all
        (fun x => decide (seEnd x.2 ≤ seOffset e ∨ seEnd e ≤ seOffset x.2))

/-- The CRC of a section. -/
def sectionCrcOk (img : Nat → Nat → List Byte) (k : Nat) : Bool :=
  let e := sectionEntry img k
  seType e == 0 || leAt e 12 4 == crc32c (img (seOffset e) (seLength e))

/-- The used entry whose section ends last. -/
def lastSection (img : Nat → Nat → List Byte) : Nat × Nat :=
  (usedSections img).foldl (fun m e => if m.2 ≤ seEnd e.2 then (e.1, seEnd e.2) else m) (0, 0)

/-- Check 7, entry by entry: the CAUSE and the entry that fails. -/
def sectionFault (img : Nat → Nat → List Byte) : List Nat → Option (Nat × Nat)
  | [] => if (lastSection img).2 = phSigned img then none else some (0x16, (lastSection img).1)
  | k :: l => if !placed img k then some (0x16, k) else if !sectionCrcOk img k then some (0x06, k) else sectionFault img l

/-- A key slot that is written and not revoked, 0 to 3. -/
def keySlotOk (l : List (Option Nat)) (revoked n : Nat) : Bool := decide (n < 4) && (l.getD n none).isSome && !revoked.testBit n

/-- R18: both key slots, and both public keys against their hashes. -/
def keySlotsOk (o : Otp) (mslot eslot : Nat) (mkey ekey : List Byte) : Bool :=
  keySlotOk o.mldsa o.mldsaRevoked mslot && keySlotOk o.ecdsa o.ecdsaRevoked eslot &&
    keyHashOk mkey (o.mldsa.getD mslot none) && keyHashOk ekey (o.ecdsa.getD eslot none)

/-- Table SYS-4: the fields of the signature block at an offset of an image. -/
def sbMldsaKey (img : Nat → Nat → List Byte) (b : Nat) : List Byte := img (b + 0x10) 1952
def sbEcdsaKey (img : Nat → Nat → List Byte) (b : Nat) : List Byte := img (b + 0x7B0) 97
def sbMldsaSig (img : Nat → Nat → List Byte) (b : Nat) : List Byte := img (b + 0x820) 3309
def sbEcdsaSig (img : Nat → Nat → List Byte) (b : Nat) : List Byte := img (b + 0x1510) 96

/-- Check 8: the signature block, its key slots and its public keys (R16, R18). -/
def keysOk (o : Otp) (img : Nat → Nat → List Byte) : Bool :=
  let b := phSigBlock img
  phNum img b 4 == 0x53494742 && keySlotsOk o (phNum img (b + 4) 1) (phNum img (b + 5) 1) (sbMldsaKey img b) (sbEcdsaKey img b)

/-- R16: the message of both signatures. -/
def signedBytes (img : Nat → Nat → List Byte) : List Byte := img 0 (phSigned img)

/-- Check 9 (R16). -/
def mldsaOk (img : Nat → Nat → List Byte) : Bool :=
  Config.mldsaVerify (sbMldsaKey img (phSigBlock img)) (signedBytes img) (sbMldsaSig img (phSigBlock img))

/-- Check 10 (R16). -/
def ecdsaOk (img : Nat → Nat → List Byte) : Bool :=
  Config.ecdsaVerify (sbEcdsaKey img (phSigBlock img)) (signedBytes img) (sbEcdsaSig img (phSigBlock img))

/-- R41, R451: a function's firmware passes the key, signature and rollback checks of a profile. -/
def fwPasses (f : FwImage) (o : Otp) : Bool :=
  keySlotsOk o f.mldsaSlot f.ecdsaSlot f.mldsaKey f.ecdsaKey && Config.mldsaVerify f.mldsaKey f.image f.mldsaSig &&
    Config.ecdsaVerify f.ecdsaKey f.image f.ecdsaSig && decide (o.rollback ≤ f.rollback)

/-- R487: the bytes of the first section of a type; none where the profile has no such section. -/
def sectionOf (img : Nat → Nat → List Byte) (t : Nat) : Option (List Byte) :=
  ((usedSections img).find? (fun e => seType e.2 == t)).map (fun e => img (seOffset e.2) (seLength e.2))

/-- Table SYS-3: the section types that the boot ROM knows. -/
def knownType (t : Nat) : Bool := decide (1 ≤ t ∧ t ≤ 0x0F)

/-! The settings (R486, R487). -/

/-- A load's register, where its address is the register's own (see log entry 3, DESIGN CHOICE). -/
def loadReg (l : Nat × Nat) : Option (Reg × Nat × Nat) :=
  match findReg l.1 with
  | some (r, i, j, 0) => some (r, i, j)
  | _ => none

/-- R487: the read-only bits whose reset the register maps mark "profile". -/
def Reg.profileRo : Reg → Nat
  | .PWR_PROFILE => spanMask 9 0
  | .CMDQ_UDPCFG => spanMask 31 0
  | .CMDQ_UDPMTU => spanMask 13 0
  | .CMDQ_OPQUOTA => spanMask 31 16
  | .PCIE_CFG => spanMask 31 31
  | .MEMC_CFG => 0x1B
  | .DMA_FWMASK => spanMask 15 0
  | .SCAN_SLOTBASE => spanMask 47 20
  | .SCAN_SLOTCFG => spanMask 28 16 + spanMask 8 0
  | .SCAN_QUOTA => spanMask 31 16
  | .ADMA_POOL => spanMask 63 0
  | .ADMA_STACKBASE => spanMask 47 5
  | .ADMA_NODEBASE => spanMask 47 6
  | .ADMA_BKTBASE => spanMask 47 6
  | .ADMA_NODECFG => spanMask 31 0
  | .ADMA_SEQTAB => spanMask 47 6
  | .ADMA_SEQCNT => spanMask 23 0
  | .ADMA_PQUOTA => spanMask 63 0
  | .ADMA_BACKING => spanMask 63 48 + spanMask 47 16
  | .ADMA_APDTAB => spanMask 63 5
  | .ESC_CFG => spanMask 31 16
  | .GLK_CFG => spanMask 25 8 - spanMask 15 14
  | .GLK_ID => spanMask 19 0
  | .GLK_DIGCFG => spanMask 31 31 + spanMask 15 0
  | .CAM_SENSCFG => spanMask 31 26 + spanMask 21 16 + spanMask 10 8 + spanMask 6 0
  | .CAM_CTXTIME => spanMask 23 16
  | .MOT_CFG => spanMask 31 31 + spanMask 20 16 + spanMask 6 0
  | .CAN_CTL => spanMask 21 16
  | .LOG_RING => spanMask 47 20
  | .LOG_MIRROR => spanMask 47 20
  | _ => 0

/-- Registers that work at run time and that no section of a profile describes: selections, queue indexes, watches, sensor writes, trace
buffers, set-points, gate-list control and General DMA (see log entry 32, DEDUCED). -/
def Reg.runTime : Reg → Bool
  | .SYS_SELECT => true
  | .CLK_SRCSEL => true
  | .CLK_GATE => true
  | .CLK_GATE_CAM => true
  | .CLK_GATE_CAN => true
  | .CMDQ_QHEAD => true
  | .CMDQ_QCPLHEAD => true
  | .SYNC_WATCHCFG => true
  | .SYNC_WATCHVAL => true
  | .CAM_EXPO => true
  | .CAM_GAIN => true
  | .MOT_TRCFG => true
  | .MOT_TRSIG => true
  | .MOT_TRTHR => true
  | .MOT_TRBASE => true
  | .SPW_TIME => true
  | .SPW_VAL0 => true
  | .SPW_VAL1 => true
  | .ETH_GCLCTL => true
  | .DMA_SRC => true
  | .DMA_DST => true
  | .DMA_LEN => true
  | .DMA_CTL => true
  | .DMA_SIGINC => true
  | _ => false

/-- R487: the bits that a profile's setting may load: the register's parameters, those marked "profile", and the keys that the MEMORY
section and R228 let a profile fix (see log entry 32, DEDUCED). -/
def Reg.loadMask (r : Reg) : Nat :=
  if r.runTime then 0
  else if r = .MEMC_KEY then spanMask 31 0
  else if r = .ADMA_HKEY then spanMask 63 0
  else r.params ||| r.profileRo

/-- The register file after the profile's loads: each takes the bits that a setting may load, and leaves the rest of its register
(see log entry 3, DESIGN CHOICE; log entry 32, DEDUCED). -/
def applyLoads (s : State) : List (Nat × Nat) → State
  | [] => s
  | l :: ls =>
    match loadReg l with
    | some (r, i, j) => applyLoads (s.setReg r (mixBits (s.reg r i j) l.2 r.loadMask) i j) ls
    | none => applyLoads s ls

/-- The ranges that the manual gives for profile fields: the field, the field that puts it in force, and the intervals allowed. -/
def profileRanges : List (Fld × Option Fld × List (Nat × Nat)) :=
  [(F.PWR_PROFILE_PROFILE, none, [(0, 2)]), (F.CHR_JUMP_JUMP_NS, none, [(100, 1000000)]), (F.CHR_CFG_REVERT_S, none, [(1, 65535)]),
   (F.CAM_RXCFG_LANES, none, [(1, 4)]), (F.CAM_RXCFG_RATE, none, [(80, 6000)]), (F.CAM_CTXSTAT_STAT_LOG2, none, [(1, 10)]),
   (⟨.CAM_CTXSIZE, 31, 16⟩, none, [(16, 8192)]), (⟨.CAM_CTXSIZE, 15, 0⟩, none, [(16, 8192)]), (F.ETH_MACCFG_MODE1, none, [(0, 2)]),
   (F.ETH_MACCFG_MODE0, none, [(0, 2)]), (F.CLK_SENSFREQ_FREQ_HZ, none, [(6000000, 54000000)]), (F.CLK_SENSCTL_DEPTH, none, [(0, 20)]),
   (F.CLK_SENSCTL_RATE_KHZ, none, [(10, 100)]), (F.CLK_NETREF_WINDOW_PPM, none, [(1, 200)]), (F.CLK_NETREF_FREQ, none, [(0, 2)]),
   (F.CLK_NETREF_SEL, none, [(0, 2)]), (F.ADMA_BACKING_SIZE_GIB, some F.ADMA_BACKING_MODE, [(1, 16383)]),
   (F.PWR_CTL_DIV_MAX, none, [(4, 6), (8, 8)]),
   (F.CMDQ_QCFG_SQ_LOG2, some F.CMDQ_QCFG_EN, [(11, 21)]), (F.CMDQ_QCFG_CQ_LOG2, some F.CMDQ_QCFG_EN, [(8, 20)]),
   (F.CMDQ_UDPCFG_ACK_EVERY, none, [(1, 64)]), (F.CMDQ_UDPCFG_ACK_US, none, [(1, 100)]), (F.CMDQ_UDPMTU_MTU, none, [(1280, 9216)]),
   (F.SYNC_RANGE_COUNT, some F.SYNC_RANGE_EN, [(1, 65536)]), (F.PCIE_CFG_MAX_SPEED, none, [(1, 5)]),
   (F.PCIE_CFG_MAX_WIDTH, none, [(1, 2), (4, 4), (8, 8), (16, 16)]), (F.PCIE_CFG_NUM_VF, none, [(0, 64)]),
   (F.MEMC_SCRUB_SCRUB_HOURS, some F.MEMC_SCRUB_EN, [(1, 168)]), (F.SCAN_SLOTCFG_COUNT, none, [(0, 4096)]),
   (F.SCAN_SLOTCFG_SLOT_KIB, none, [(1, 256)]), (F.ADMA_NODECFG_NODE_LOG2, none, [(8, 12)]),
   (F.ADMA_NODECFG_BKT_LOG2, none, [(10, 24)]), (F.ADMA_LAYOUT_P_LOG2, some F.ADMA_LAYOUT_VALID, [(4, 8)]),
   (F.ADMA_LAYOUT_KFMT, some F.ADMA_LAYOUT_VALID, [(0, 0), (2, 4)]), (F.ADMA_BACKING_MODE, none, [(0, 2)]),
   (F.ESC_CFG_Q_US, none, [(20, 500)]), (F.ESC_PCFG_SHARES, none, [(1, 65535)]), (F.ESC_CTX_QCOUNT, none, [(0, 1024)]),
   (F.GLK_CFG_TOPO, none, [(0, 2)]), (F.CAM_SENSCFG_L_E, none, [(1, 4)]), (F.CAM_SENSCFG_L_G, none, [(1, 4)]),
   (F.CAM_SENSCFG_I3C, none, [(0, 7)]), (F.CAM_CTXCFG_NBUF, some F.CAM_CTXCFG_EN, [(2, 15)]),
   (F.CAM_CTXTIME_IN_LINES, none, [(8, 128)]), (F.CAM_CTXTIME_FE_TIMEOUT_US, none, [(100, 65535)]), (F.MOT_CFG_AXES, none, [(0, 16)]),
   (F.MOT_CFG_SD_DIV, none, [(20, 100)]), (F.MOT_AXCFG_BACKUP, some F.MOT_AXCFG_EN, [(0, 2)]),
   (F.MOT_AXCFG_POLE_PAIRS, some F.MOT_AXCFG_EN, [(1, 63)]), (F.MOT_PWMCFG_PERIOD, none, [(2500, 250000)]),
   (F.MOT_PWMDT_MIN_PULSE, none, [(0, 16000)]), (F.MOT_PWMDT_DT, none, [(0, 32000)]), (F.MOT_SDCFG_OSR, none, [(16, 255)]),
   (F.MOT_SDCFG_OSR_FAST, none, [(4, 32)]), (F.MOT_SDCFG_OC_LIMIT, none, [(1, 32767)]), (F.MOT_ASCCFG_ASC_SPEED, none, [(1, 65535)]),
   (F.MOT_ASCCFG_ASC_HOLD_MS, none, [(1, 65535)]), (F.MOT_STEPLIM_VALUE, none, [(1, 4095)]),
   (⟨.MOT_VMAX, 31, 0⟩, none, [(1, 2 ^ 31 - 1)]), (⟨.MOT_AMAX, 31, 0⟩, none, [(1, 2 ^ 32 - 1)]),
   (⟨.MOT_JMAX, 31, 0⟩, none, [(1, 2 ^ 32 - 1)]), (⟨.MOT_IQMAX, 31, 0⟩, none, [(1, 2 ^ 31 - 1)]),
   (⟨.MOT_FELIM, 31, 0⟩, none, [(1, 2 ^ 32 - 1)]), (⟨.MOT_FEVLIM, 31, 0⟩, none, [(1, 2 ^ 31 - 1)]),
   (⟨.MOT_FETIME, 31, 0⟩, none, [(1, 1000000)]), (F.MOT_OBSCFG_K, none, [(1, 15)]), (F.MOT_OBSCFG_RELOCK_K, none, [(8, 255)]),
   (F.MOT_OBSCFG_T_FLY, none, [(1, 1000)]), (F.MOT_OBSCFG_TQ_RAMP, none, [(1, 1000)]),
   (F.MOT_ENCCFG_MODE, none, [(0, 2)]), (F.MOT_ENCCFG_SSI_BITS, none, [(8, 32)]), (F.MOT_ENCCFG_SSI_DIV, none, [(24, 63)]),
   (F.CAN_CTL_NOMATCH, none, [(0, 2)]), (F.CAN_RAMCFG_NTX, none, [(0, 32)]), (F.CAN_TTCFG_CYCLE_MAX, none, [(0, 6)]),
   (F.ETH_RCFG_SIZE_LOG2, some F.ETH_RCFG_EN, [(6, 16)]), (F.CHR_DOMCFG_PORT, some F.CHR_DOMCFG_EN, [(0, 8)]),
   (F.SAFE_CFG_TB_REACT, none, [(0, 0), (4, 4)]), (F.SAFE_CFG_RCOSC_REACT, none, [(0, 0), (4, 4)]),
   (F.SAFE_TBCFG_PERIOD_MS, none, [(16, 64)]), (F.SAFE_WDCFG_REACT, some F.SAFE_WDCFG_EN, [(0, 4)]),
   (F.PCIE_OBWIN_ATTR_FN, none, [(0, 64)]), (F.ADMA_PMCFG_IDLE_MS, none, [(1, 65535)])]

/-- T_OFF of a layout. -/
def tokenOff (nlFull : Nat) : Nat := roundUp (0x40 + 4 * nlFull) 32

/-- R205, R230: the value may stand in a layout register. -/
def State.layoutOk (s : State) (v : Nat) : Bool :=
  let P := 2 ^ bitsOf v 55 52
  let full := bitsOf v 47 40
  let ring := bitsOf v 39 32
  !(v.testBit 63 && full + ring == 0) &&
    (!v.testBit 63 || (decide (4 ≤ bitsOf v 55 52 ∧ bitsOf v 55 52 ≤ 8) && ([0, 2, 3, 4] : List Nat).contains (bitsOf v 51 48))) &&
    (ring == 0 || (!v.testBit 62 && decide ((v % 2 ^ 20 + 127 + P - 1) / P + 1 ≤ bitsOf v 31 20))) &&
    (!v.testBit 62 || decide (tokenOff full + 4 * P ≤ 2 ^ s.fld F.ADMA_NODECFG_NODE_LOG2))

/-- Table CAM-1: the data types of an ISP context, and in addition those of a raw capture: YUV422 8-bit and embedded data
(see log entry 49, PRESUMED). -/
def dataTypeOk (raw : Bool) (dt : Nat) : Bool := decide (0x2A ≤ dt ∧ dt ≤ 0x2E) || (raw && (dt == 0x1E || dt == 0x12))

/-- R419: the time quanta of a bit whose timing register holds a value. -/
def bitQuanta (v : Nat) : Nat := 3 + bitsOf v 22 15 + bitsOf v 14 8

/-- Ranges that hang on another field of the register: a receiver's lanes and rate on its PHY, a context's size even, its data type, the
alignment of its statistics ring, TQ_RAMP at most T_FLY, an axis's backup beside its angle source (R391). -/
def jointOk (r : Reg) (v : Nat) : Bool :=
  match r with
  | .CAM_RXCFG =>
    if v.testBit 17 then decide (bitsOf v 16 14 ≤ 3) else [1, 2, 4].contains (bitsOf v 16 14) && decide (bitsOf v 12 0 ≤ 4500)
  | .CAM_CTXSIZE => !v.testBit 16 && !v.testBit 0
  | .CAM_CTXCFG => !v.testBit 31 || dataTypeOk (v.testBit 30) (bitsOf v 22 17)
  | .CAM_CTXSTAT => bitsOf v 11 0 == 0
  | .MOT_AXCFG => !v.testBit 31 || (if bitsOf v 29 28 = 1 then v.testBit 30 else if bitsOf v 29 28 = 2 then !v.testBit 30 else true)
  | .PWR_CTL => decide (bitsOf v 5 0 ≤ bitsOf v 13 8)
  | .MOT_OBSCFG => decide (bitsOf v 9 0 ≤ 10 * bitsOf v 19 10)
  | _ => true

/-- R486: every field of a register's value lies in a range that the manual gives for it. -/
def rangesHold (r : Reg) (n : Nat) : Bool :=
  (profileRanges.filter (fun e => e.1.reg == r)).all (fun e =>
    let v := BitVec.ofNat 64 n
    (e.2.1.map (fun f => f.of v == 0)).getD false || e.2.2.any (fun x => decide (x.1 ≤ e.1.of v ∧ e.1.of v ≤ x.2))) &&
  (writeRanges.filter (fun e => e.1.reg == r)).all (fun e => e.2.any (fun x => decide (x.1 ≤ bitsOf n e.1.hi e.1.lo ∧ bitsOf n e.1.hi e.1.lo ≤ x.2)))

/-- R486, R487: a load names a register, sets no bit but those that a setting may load, and keeps every field in its range. -/
def loadOk (l : Nat × Nat) : Bool :=
  match loadReg l with
  | some (r, _, _) => decide (l.2 &&& r.loadMask = l.2) && rangesHold r l.2 && jointOk r l.2
  | none => false

/-- Check 13: no ball given two functions (see log entry 73, DESIGN CHOICE). -/
def ballsOk (l : List (Nat × Nat)) : Bool := l.all (fun a => l.all (fun b => a.1 != b.1 || a.2 == b.2))

/-- A ball by row and column (see log entry 73, DESIGN CHOICE). -/
def ball (row col : Nat) : Nat := row * 256 + col

/-- The axis uses an encoder interface. -/
def State.axEncoder (s : State) (a : Nat) : Bool := !s.flag F.MOT_AXCFG_ANGLE_SRC a || s.fld F.MOT_AXCFG_BACKUP a == 1

/-- R359, Table PKG-2: the balls of an axis. -/
def State.axisBalls (s : State) (a : Nat) : List Nat :=
  (List.range 6).map (fun n => ball (10 + (6 * a + n) / 8) (2 + (6 * a + n) % 8)) ++
    (List.range 3).map (fun n => ball (23 + (3 * a + n) / 8) (2 + (3 * a + n) % 8)) ++ [ball 29 (2 + 2 * (a / 4))] ++
    (if s.axEncoder a then
      (List.range 4).map (fun i => ball (31 + s.fld F.MOT_AXCFG_ENC a / 2) (2 + 4 * (s.fld F.MOT_AXCFG_ENC a % 2) + i)) else [])

/-- The axes that the profile enables. -/
def State.axesOn (s : State) : List Nat := (List.range 16).filter (fun a => s.flag F.MOT_AXCFG_EN a)

/-- Check 14 (R359): the pins and encoder interfaces of the enabled axes (see log entry 73, DESIGN CHOICE). -/
def State.axisPinsOk (s : State) (balls : List (Nat × Nat)) : Bool :=
  s.axesOn.all (fun a =>
    (s.axisBalls a).all (fun b => balls.all (fun x => x.1 != b || x.2 == fnMot)) &&
      (!s.axEncoder a || s.axesOn.all (fun b => b == a || !s.axEncoder b || s.fld F.MOT_AXCFG_ENC a != s.fld F.MOT_AXCFG_ENC b)))

/-- Pairs of a list, the earlier first. -/
def pairsOf {α : Type} : List α → List (α × α)
  | [] => []
  | x :: l => l.map (fun y => (x, y)) ++ pairsOf l

/-- R115: the enabled ranges do not overlap, and none wraps, enabled or not (see log entry 77, DEDUCED). -/
def State.rangesOk (s : State) : Bool :=
  let on := (List.range 64).filter (fun k => s.flag F.SYNC_RANGE_EN k)
  (List.range 64).all (fun k => decide (s.fld F.SYNC_RANGE_BASE k + s.fld F.SYNC_RANGE_COUNT k ≤ 65536)) &&
    (pairsOf on).all (fun e => !rangesMeet (s.fld F.SYNC_RANGE_BASE e.1) (s.fld F.SYNC_RANGE_COUNT e.1) (s.fld F.SYNC_RANGE_BASE e.2)
      (s.fld F.SYNC_RANGE_COUNT e.2))

/-- R98: the outbound windows in force, in pages of 4 KiB: those enabled, and of a root port the fixed window 15. -/
def State.outWindows (s : State) : List (Nat × Nat) :=
  let root := s.flag F.PCIE_CFG_ROLE
  ((List.range (if root then 15 else 16)).filter (fun k => s.flag F.PCIE_OBWIN_ATTR_EN k)).map
    (fun k => (s.fld F.PCIE_OBWIN_BASE_BASE k, s.fld F.PCIE_OBWIN_SIZE_SIZE k)) ++ if root then [(0xFFFF0000, 0x10000)] else []

/-- R98: the outbound windows do not overlap. -/
def State.windowsOk (s : State) : Bool := (pairsOf s.outWindows).all (fun e => !rangesMeet e.1.1 e.1.2 e.2.1 e.2.2)

/-- R292: the members that the topology has, and a member index among them. -/
def State.clusterOk (s : State) : Bool :=
  let n := s.fld F.GLK_CFG_N_M1 + 1
  let x := s.fld F.GLK_CFG_X
  let y := s.fld F.GLK_CFG_Y
  decide (s.fld F.GLK_ID_MEMBER < n) &&
    (match s.fld F.GLK_CFG_TOPO with
     | 0 => n == 1
     | 1 => decide (2 ≤ n)
     | _ => decide (2 ≤ x ∧ x ≤ 8 ∧ 2 ≤ y ∧ y ≤ 8) && n == x * y)

/-- R97: MSI-X vectors of a function (Table CMDQ-11): 2,048 of the physical, 64 of a virtual function. -/
def vectorCount (f : Nat) : Nat := if f = 0 then 2048 else 64

/-- R96, R97: the PCIe function exists and is enabled: function 0 always, a virtual function below NUM_VF by its PCIE_FNMAP. -/
def State.fnMapped (s : State) (f : Nat) : Bool := f == 0 || (decide (f ≤ s.fld F.PCIE_CFG_NUM_VF) && s.flag F.PCIE_FNMAP_EN f)

/-- R97: each queue belongs to at most one function, which is enabled; it is one of the function's partition with the PCIe transport, and
its vector is one of the function's. -/
def State.queueFnsOk (s : State) (l : List (Nat × Nat)) : Bool :=
  l.all (fun e => decide (s.fld F.CMDQ_QCFG_IRQ_VEC e.1 < vectorCount e.2) && l.all (fun x => x.1 != e.1 || x.2 == e.2) &&
    s.fnMapped e.2 && s.qPart e.1 == s.fld F.PCIE_FNMAP_PARTITION e.2 && s.fld F.CMDQ_QCFG_TRANSPORT e.1 == 0)

/-- R127, R264: partition 0 holds bank group 0, each granule has one owner, and LOG_RING lies in the group's first 4 MiB. -/
def State.smemOk (s : State) (granules : List (Nat × Nat)) : Bool :=
  granules.all (fun e => decide (e.1 < 256) && decide (e.2 < 64)) && (List.range 16).all (fun g => granules.contains (g, 0)) &&
    (pairsOf granules).all (fun e => e.1.1 != e.2.1) && decide (s.fld F.LOG_RING_BASE < 4)

/-- R132, R136: DRAM left below the check bits and the reserve, in GiB. -/
def State.topGib (s : State) : Nat :=
  s.chip.gib - (if s.flag F.MEMC_CFG_ECC_EN then s.chip.gib / 32 else 0) - (if s.flag F.MEMC_CFG_RESERVE then 1 else 0)

/-- R264: the partitions' shares of DRAM lie in what the grade and the settings leave, and do not overlap. -/
def State.dramOk (s : State) (shares : List (Nat × Nat × Nat)) : Bool :=
  shares.all (fun e => decide (0x1000000000 ≤ e.2.1 ∧ e.2.1 + e.2.2 ≤ 0x1000000000 + 2 ^ 30 * s.topGib)) &&
    (pairsOf shares).all (fun e => !rangesMeet e.1.2.1 e.1.2.2 e.2.2.1 e.2.2.2)

/-- R145, R147: each hart is bound to at most one partition, only a bound hart is a unit of FN_APP, and a vector is routed to a file of a
hart of its partition (see log entry 77, DEDUCED). -/
def hartsOk (x : Settings) : Bool :=
  x.harts.all (fun e => decide (e.1 < 16) && decide (e.2 < 64)) && (pairsOf x.harts).all (fun e => e.1.1 != e.2.1) &&
    x.irqRoutes.all (fun e => x.harts.contains (e.2.2.1, e.1) && decide (e.2.2.2 < 6)) &&
    (x.units.filter (fun u => u.1 == fnApp)).all (fun u => x.harts.any (fun h => h.1 == u.2))

/-- R204: the KV pool lies in the DRAM that the grade and the settings leave. -/
def State.poolFits (s : State) : Bool :=
  decide (s.fld F.ADMA_POOL_PAGE_FIRST + s.fld F.ADMA_POOL_PAGE_COUNT ≤ 16384 * s.topGib)

/-- R205, R230: every layout that the profile loads may stand in its register. -/
def State.layoutsOk (s : State) : Bool := (List.range 64).all (fun n => s.layoutOk (s.reg .ADMA_LAYOUT n))

/-- The sum of a value over the partitions. -/
def sumParts (f : Nat → Nat) : Nat := (List.range 64).foldl (fun n p => n + f p) 0

/-- R226: the reserves do not exceed the pool. -/
def State.reservesOk (s : State) : Bool := decide (sumParts (fun p => s.fld F.ADMA_PQUOTA_RESERVE p) ≤ s.fld F.ADMA_POOL_PAGE_COUNT)

/-- The queues that the profile assigns to a partition: those whose CMDQ_QCFG it loads (see log entry 77, DEDUCED). -/
def profileQueues (x : Settings) : List Nat := (List.range 8192).filter (fun q => x.loads.any (fun l => l.1 == Block.base .CMDQ + 0x20 * q + 0x10))

/-- The queue lies in a context of a partition. -/
def State.inCtx (s : State) (p k q : Nat) : Bool :=
  decide (s.fld F.ESC_CTX_QBASE p k ≤ q ∧ q < s.fld F.ESC_CTX_QBASE p k + s.fld F.ESC_CTX_QCOUNT p k)

/-- R265: every queue of a partition lies in exactly one of its contexts, and a context holds only its partition's queues. -/
def State.contextsOk (s : State) (queues : List Nat) : Bool :=
  queues.all (fun q => ((List.range 16).filter (fun k => s.inCtx (s.qPart q) k q)).length == 1) &&
    (List.range 64).all (fun p => (List.range 16).all (fun k => s.fld F.ESC_CTX_QCOUNT p k == 0 ||
      (List.range' (s.fld F.ESC_CTX_QBASE p k) (s.fld F.ESC_CTX_QCOUNT p k)).all (fun q => decide (q < 8192) && s.qPart q == p)))

/-- R91, R264: at most 1,024 queues to a partition. -/
def State.queueCountsOk (s : State) (queues : List Nat) : Bool :=
  (List.range 64).all (fun p => decide ((queues.filter (fun q => s.qPart q == p)).length ≤ 1024))

/-- R271: no engine is reserved twice. -/
def State.reservedOnce (s : State) : Bool :=
  (pairsOf (List.range 64)).all (fun e => s.reg .ESC_RESV e.1 % 2 ^ 60 &&& s.reg .ESC_RESV e.2 % 2 ^ 60 == 0)

/-- R277, R278: GUAR is at most LIMIT, and the sum of GUAR at most 80 % of the window's capacity. -/
def State.regulatorsOk (s : State) (created : Nat) : Bool :=
  [true, false].all (fun d =>
    decide (sumParts (fun p => s.guar d p) * 10 ≤ 8 * (if d then (if s.chip.part = 0x9640 then 1228800 else 614400) else 12288000)) &&
      (List.range 64).all (fun p => !created.testBit p || decide (s.guar d p ≤ s.limit d p)))

/-- R112: the operation-table quotas fit the table, and partition 0 has at least 256 entries. -/
def State.quotasOk (s : State) : Bool :=
  decide (sumParts (fun p => s.fld F.CMDQ_OPQUOTA_QUOTA p) ≤ 32768) && decide (256 ≤ s.fld F.CMDQ_OPQUOTA_QUOTA 0)

/-- Table PWR-2: cap in W, start divider, most and fewest engines, and slowest divider of a power profile. -/
def powerCap (n : Nat) : Nat := if n = 0 then 240 else if n = 1 then 150 else 75
def startDiv (n : Nat) : Nat := if n = 0 then 4 else if n = 1 then 5 else 8
def State.powerMost (s : State) (n : Nat) : Nat := min (if n = 2 then 16 else 32) s.chip.slots
def powerFewest (n : Nat) : Nat := if n = 0 then 16 else 8
def powerDivMax (n : Nat) : Nat := if n = 0 then 6 else 8

/-- R67: the limits of the power profile that the header names; the SYSTEM section may narrow them. -/
def State.powerLimits (s : State) (n : Nat) : State :=
  s.loadRegs [(.PWR_PROFILE, 0, 0, 256 * n + powerCap n),
    (.PWR_CTL, 0, 0, 2 ^ 28 * powerDivMax n + 256 * s.powerMost n + powerFewest n)]

/-- R67: the loaded limits are not wider than the power profile's. -/
def State.powerOk (s : State) (n : Nat) : Bool :=
  s.fld F.PWR_PROFILE_PROFILE == n && decide (s.fld F.PWR_PROFILE_CAP_W ≤ powerCap n) && decide (s.fld F.PWR_CTL_ME_MAX ≤ s.powerMost n) &&
    decide (powerFewest n ≤ s.fld F.PWR_CTL_ME_MIN ∧ s.fld F.PWR_CTL_ME_MIN ≤ s.fld F.PWR_CTL_ME_MAX) &&
    decide (s.fld F.PWR_CTL_DIV_MAX ≤ powerDivMax n)

/-- R331: an enabled frame-sync output has its values in range. -/
def State.fsyncOk (s : State) (n : Nat) : Bool :=
  !s.flag F.CAM_FSYNCCFG_EN n ||
    (decide (1000000 ≤ s.fld F.CAM_FSYNCPER_PERIOD_NS n ∧ s.fld F.CAM_FSYNCPER_PERIOD_NS n ≤ 4000000000) &&
      decide (s.fld F.CAM_FSYNCPER_PHASE_NS n < s.fld F.CAM_FSYNCPER_PERIOD_NS n) &&
      decide (1 ≤ s.fld F.CAM_FSYNCCFG_WIDTH_US n ∧ 2000 * s.fld F.CAM_FSYNCCFG_WIDTH_US n ≤ s.fld F.CAM_FSYNCPER_PERIOD_NS n))

/-- R331: so have all. -/
def State.fsyncsOk (s : State) : Bool := (List.range 16).all s.fsyncOk

/-- R143, R304, R97: what the loads do not decide: a fixed key, no re-weave and no nap in timing-repeatable mode, and PCIe function 0
enabled. -/
def State.fixedFields (s : State) : State :=
  let t := if s.flag F.MEMC_CFG_REPEATABLE then
      ((s.putFld F.MEMC_CFG_REWEAVE_EN 0).setFlag F.MEMC_CFG_KEY_FIXED).putFld F.GLK_CFG_NAP_EN 0 else s
  t.setFlag F.PCIE_FNMAP_EN 0

/-- The settings in force: the power profile's limits, the default quantum of 100 µs and the default JUMP_NS of 1,000 (R67, R268, R403), then
the profile's loads. -/
def State.loaded (s : State) (power : Nat) (x : Settings) : State :=
  (applyLoads (((s.powerLimits power).putFld F.ESC_CFG_Q_US 100).setReg .CHR_JUMP 1000) x.loads).fixedFields

/-- R391: ID_REF within ±IQ_MAX, and the counts of a turn of an SSI encoder within its bits. -/
def State.axisScalarsOk (s : State) (a : Nat) : Bool :=
  let n := s.fld F.MOT_AXCFG_ENC a
  decide ((signedOf 32 (s.reg .MOT_IDREF a)).natAbs ≤ s.reg .MOT_IQMAX a) &&
    (!s.axEncoder a || s.fld F.MOT_ENCCFG_MODE n != 1 || decide (s.reg .MOT_ENCCPR n ≤ 2 ^ s.fld F.MOT_ENCCFG_SSI_BITS n))

/-- R360, R362, R365: the current-loop rates and the filters' delays of the enabled axes. -/
def State.motionOk (s : State) : Bool :=
  s.axesOn.all (fun a =>
    let n := s.fld F.MOT_PWMCFG_SAMP a + 1
    let per := s.fld F.MOT_PWMCFG_PERIOD a
    s.axisScalarsOk a && (s.cascade == decide (s.fld F.MOT_CFG_AXES ≤ 8)) && (!s.cascade || decide (a < 8)) &&
      decide (8000 * per ≤ 500000000 * n ∧ 500000000 * n ≤ (if s.cascade then 100000 else 50000) * per) &&
      decide (10 * (3 * s.fld F.MOT_SDCFG_OSR a * s.fld F.MOT_CFG_SD_DIV + 100) * n ≤ 8 * per))

/-- R420: the elements of a controller fit its message RAM. -/
def State.messageRamOk (s : State) (c : Nat) : Bool :=
  let size := 32 + (match s.fld F.CAN_RAMCFG_DSIZE c with
    | 0 => 8
    | 1 => 64
    | 2 => 256
    | _ => 2048)
  decide (size * (s.fld F.CAN_RAMCFG_NTX c + 4 + s.fld F.CAN_RAMCFG_NRX0 c + s.fld F.CAN_RAMCFG_NRX1 c) ≤ 32768)

/-- R419: the bits of an enabled controller's phases have their quanta. -/
def State.bitTimingOk (s : State) (c : Nat) : Bool :=
  decide (8 ≤ bitQuanta (s.reg .CAN_NBT c)) && (!s.flag F.CAN_CTL_FD_EN c || decide (4 ≤ bitQuanta (s.reg .CAN_DBT c))) &&
    (!s.flag F.CAN_CTL_XL_EN c || decide (4 ≤ bitQuanta (s.reg .CAN_XBT c)))

/-- R106: a range gives the counter to the partition. -/
def State.ownerIs (s : State) (p c : Nat) : Bool :=
  (List.range 64).any (fun k => s.flag F.SYNC_RANGE_EN k && s.fld F.SYNC_RANGE_PARTITION k == p &&
    decide (s.fld F.SYNC_RANGE_BASE k ≤ c ∧ c < s.fld F.SYNC_RANGE_BASE k + s.fld F.SYNC_RANGE_COUNT k))

/-- R438, Table SAFE-2: the counters and the window of an enabled watchdog. -/
def State.watchdogOk (s : State) (k : Nat) : Bool :=
  let p := s.fld F.SAFE_WDCFG_PARTITION k
  !s.flag F.SAFE_WDCFG_EN k ||
    (s.ownerIs p (s.fld F.SAFE_WDSRC_START_CTR k) && s.ownerIs p (s.fld F.SAFE_WDSRC_KICK_CTR k) &&
      s.ownerIs p (s.fld F.SAFE_WDTGT_RESTART_CTR k) && decide (s.fld F.SAFE_WDWIN_OPEN_US k < s.fld F.SAFE_WDWIN_CLOSE_US k))

/-- R337: the ISP contexts of a pipe stay within 1.9 Gpixel/s, and the IN_LINES lines of each context, of so many bytes a line, with the
decode contexts' share within 6 MiB. -/
def State.pipesOk (s : State) (rates lines : List (Nat × Nat)) (decode : Nat) : Bool :=
  let on := fun (e : Nat × Nat) => s.flag F.CAM_CTXCFG_EN e.1
  [0, 1].all (fun n => decide ((rates.filter (fun e => on e && !s.flag F.CAM_CTXCFG_MODE e.1 && s.fld F.CAM_CTXCFG_PIPE e.1 == n)).foldl
    (fun x e => x + e.2) 0 ≤ 1900000000)) &&
    decide ((lines.filter on).foldl (fun x e => x + s.fld F.CAM_CTXTIME_IN_LINES e.1 * e.2) decode ≤ 6 * 2 ^ 20)

/-- Check 15: every setting in its range and every allocation within the grade's resources; t has the loads applied, power is the header's
POWER_PROFILE, sections are the TYPEs of the used section table entries. A profile without FW_MGMT, whose settings nothing could decode
(R487), fails as well (see log entry 77, DEDUCED; log entry 79, DESIGN CHOICE). -/
def State.resourcesOk (t : State) (x : Settings) (power : Nat) (sections : List Nat) : Bool :=
  (x.tDrainMs.map (fun n => decide (1 ≤ n ∧ n ≤ 100))).getD true && sections.contains 0x0007 && x.loads.all loadOk && t.rangesOk &&
    t.windowsOk && t.queueFnsOk x.queueFns && t.smemOk x.smemGranules && t.dramOk x.dramShare && hartsOk x && t.reservesOk &&
    t.contextsOk (profileQueues x) && t.queueCountsOk (profileQueues x) && t.powerOk power && t.fsyncsOk &&
    t.reservedOnce && t.regulatorsOk x.created && t.quotasOk && (!x.enabled.testBit fnMot || t.motionOk) &&
    (List.range 8).all (fun c => !(x.units.contains (fnCan, c)) || (t.messageRamOk c && t.bitTimingOk c)) &&
    (List.range 64).all (fun k => t.watchdogOk k) && t.pipesOk x.pixelRates x.lineBytes x.decodeBytes && t.poolFits && t.layoutsOk &&
    t.clusterOk &&
    (!sections.contains 0x000D || t.flag F.MEMC_CFG_ECC_EN) &&
    x.units.all (fun u => (t.unitFld u.1 u.2).isSome && isOn x u.1)

/-- The effective prerequisites of a function (R27). -/
def prereqs (x : Settings) (n : Nat) : Nat := builtinDeps.getD n 0 ||| (x.deps.filter (fun e => e.1 == n)).foldl (fun m e => m ||| e.2) 0

/-- Functions reached in one more step along prerequisites. -/
def closeOver (x : Settings) (m : Nat) : Nat :=
  (List.range 17).foldl (fun a n => if m.testBit n then a ||| prereqs x n else a) m

/-- A function depends on itself. -/
def cyclic (x : Settings) (n : Nat) : Bool := ((List.range 17).foldl (fun m _ => closeOver x m) (prereqs x n)).testBit n

/-- Check 16: every prerequisite of an enabled function enabled; no cycle. -/
def depsOk (x : Settings) : Bool :=
  (List.range 17).all (fun n => !isOn x n || ((List.range 17).all (fun m => !(prereqs x n).testBit m || isOn x m) && !cyclic x n))

/-- Check 17: distinct reference identifiers on each bus. -/
def canRefsOk (l : List (Nat × Nat)) : Bool := (pairsOf l).all (fun e => e.1 != e.2)

/-! The checks of Table SYS-5 in order (R18): the CAUSE, the order number and the section of the first that fails. -/

/-- Checks 13 to 18 on the decoded settings, loaded in t (see log entry 32, DEDUCED; log entry 77, DEDUCED). -/
def State.settingsFault (t : State) (img : Nat → Nat → List Byte) (x : Settings) : Option (Nat × Nat) :=
  if !ballsOk x.balls then some (0x0B, 13)
  else if !t.axisPinsOk x.balls then some (0x0C, 14)
  else if !t.resourcesOk x (phNum img 7 1) ((usedSections img).map (fun e => seType e.2)) then some (0x0D, 15)
  else if !depsOk x then some (0x0E, 16)
  else if !canRefsOk x.canRefIds then some (0x0F, 17)
  else if (usedSections img).any (fun e => (leAt e.2 2 2).testBit 0 && !knownType (seType e.2)) then some (0x12, 18)
  else none

/-- Checks 5 to 18 (see log entry 32, DEDUCED). -/
def State.bodyFault (s : State) (img : Nat → Nat → List Byte) (r : Reading) : Option (Nat × Nat × Nat) :=
  if !markerOk (marker img) then some (0x04, 5, 0)
  else if !markerMatches img then some (0x05, 6, 0)
  else match sectionFault img (List.range 32) with
  | some (c, k) => some (c, 7, k)
  | none =>
    if !(s.flag F.SEC_LIFECYCLE_STATE && keysOk s.chip.otp img) then some (0x09, 8, 0)
    else if !mldsaOk img then some (0x07, 9, 0)
    else if !ecdsaOk img then some (0x08, 10, 0)
    else if phNum img 0x18 4 < s.chip.otp.rollback then some (0x0A, 11, 0)
    else if phNum img 0x0C 2 ≠ 0 ∧ phNum img 0x0C 2 ≠ s.chip.part then some (0x11, 12, 0)
    else ((s.loaded (phNum img 7 1) r.settings).settingsFault img r.settings).map (fun e => (e.1, e.2, 0))

/-- Checks 2 to 18 on a slot in flash (see log entry 32, DEDUCED). -/
def State.slotFault (s : State) (slot : Nat) (r : Reading) : Option (Nat × Nat × Nat) :=
  match s.ihUsed with
  | none => some (0x01, 2, 0)
  | some k =>
    let img := fun off n => s.flashBytes (slotBase slot + off) n
    if !(s.slotMask k).testBit slot then some (0x02, 3, 0)
    else if !headerOk img (some slot) then some (0x03, 4, 0)
    else s.bodyFault img r

end Sys2Proof.Machine
end

