-- ==== Sys2Proof/Machine/Camera.lean ====
section
/-! DEFINITION. The CSI-2 receivers, the Camera Control Unit and the ISP (file 11: R328 to R347). -/

namespace Sys2Proof.Machine

/-! Contexts, sensors and streams. -/

def State.camCtx (s : State) (k : Nat) : CamCtx := s.cam.ctxs.getD k {}
def State.setCamCtx (s : State) (k : Nat) (c : CamCtx) : State := { s with cam := { s.cam with ctxs := s.cam.ctxs.set k c } }
def State.sensor (s : State) (n : Nat) : Sensor := s.cam.sensors.getD n {}
def State.setSensor (s : State) (n : Nat) (q : Sensor) : State := { s with cam := { s.cam with sensors := s.cam.sensors.set n q } }

/-- The partition of a context, and its configuration. -/
def State.camPart (s : State) (k : Nat) : Nat := s.fld F.CAM_CTXCFG_PARTITION k
def State.camRaw (s : State) (k : Nat) : Bool := s.flag F.CAM_CTXCFG_MODE k
def State.camWidth (s : State) (k : Nat) : Nat := bitsOf (s.reg .CAM_CTXSIZE k) 15 0
def State.camHeight (s : State) (k : Nat) : Nat := bitsOf (s.reg .CAM_CTXSIZE k) 31 16

/-- R346: a unit of FN_CAM takes packets; a draining one those of its frame in progress (see log entry 48, DEDUCED). -/
def State.camLive (s : State) (u : Nat) : Bool := s.unitLive fnCam u

/-- R346: the pipe and raw capture go on with a context's frames while neither it nor its receiver has stopped. -/
def State.ctxLive (s : State) (k : Nat) : Bool := s.camLive (16 + k) && s.camLive (s.fld F.CAM_CTXCFG_RX k)

/-- R328, R56: a receiver takes packets while its clock bit is set. -/
def State.rxLive (s : State) (n : Nat) : Bool := decide (n < 16) && s.camLive n && (s.reg .CLK_GATE_CAM).testBit n

/-- R329: the contexts bound to a virtual channel of a receiver, with a data type that they support (Table CAM-1). -/
def State.bound (s : State) (rx vc : Nat) : List Nat :=
  (List.range 32).filter (fun k => s.flag F.CAM_CTXCFG_EN k &&
    dataTypeOk (s.flag F.CAM_CTXCFG_MODE k) (s.fld F.CAM_CTXCFG_DT k) && s.fld F.CAM_CTXCFG_RX k == rx && s.fld F.CAM_CTXCFG_VC k == vc &&
    s.camLive (16 + k))

/-- The virtual channel whose frames the CCU counts as the sensor's: the lowest that an enabled context of its receiver is bound to
(see log entry 48, DEDUCED). -/
def State.sensorVc (s : State) (n : Nat) : Option Nat := (List.range 16).find? (fun vc => !(s.bound n vc).isEmpty)

/-! Truncation (R343, R344). -/

/-- The last frame of a context changed. -/
def CamCtx.onLast (c : CamCtx) (g : CamFrame → CamFrame) : CamCtx :=
  match c.frames.getLast? with
  | some f => { c with frames := c.frames.dropLast ++ [g f] }
  | none => c

/-- The frame whose end is still to come takes lines. -/
def CamCtx.isOpen (c : CamCtx) : Bool := c.reading && (c.frames.getLast?).any (fun f => !f.ended)

/-- R344: CAM_FRAME_TRUNCATED is logged at most once per 1 ms per receiver. -/
def State.truncEvent (s : State) (k : Nat) : State :=
  let rx := s.fld F.CAM_CTXCFG_RX k
  if (s.cam.truncNs.filter (fun e => e.1 == rx)).all (fun e => decide (e.2 + 1000000 ≤ s.dev.nowNs)) then
    let l := s.cam.truncNs.filter (fun e => e.1 != rx) ++ [(rx, s.dev.nowNs)]
    { s with cam := { s.cam with truncNs := l } }.anyEvent 0x07 0x0001 (s.camPart k)
  else s

/-- A frame's readout ends at the present time with a cause. -/
def CamFrame.stop (f : CamFrame) (now cause : Nat) : CamFrame := { f with ended := true, eof := now, cause := cause }

/-- R343: the open frame of a context is truncated with a cause (see log entry 48, DEDUCED). -/
def State.truncate (s : State) (k cause : Nat) : State :=
  if (s.camCtx k).isOpen then
    ((s.setCamCtx k ((s.camCtx k).onLast (fun f => f.stop s.time cause))).addFld F.CAM_CTXSTATE_TRUNC_CNT 1 k).truncEvent k
  else s

/-! Frame start (R333, R335, R340, R341). -/

/-- Generations modulo 2^16. -/
def gen16 (n : Nat) : Nat := n % 65536

/-- R335: the settings due by the sensor's present frame are in effect (see log entry 50, DEDUCED). -/
def State.applyEffects (s : State) (n : Nat) : State :=
  let q := s.sensor n
  let due := q.effects.filter (fun e => decide (e.1 ≤ q.frame))
  let left := q.effects.filter (fun e => decide (q.frame < e.1))
  due.foldl (fun t e => t.putFld (if e.2.1 then F.CAM_EXPOGEN_GAIN_GEN else F.CAM_EXPOGEN_EXPO_GEN) (gen16 e.2.2) n)
    (s.setSensor n { q with effects := left })

/-- R333: the CCU counts a frame of a sensor; a jump of its frame number by k > 1 advances the count by k (see log entry 48, DEDUCED). -/
def State.countFrame (s : State) (n num : Nat) : State :=
  let q := s.sensor n
  let k := if num ≠ 0 ∧ q.lastNum ≠ 0 ∧ q.lastNum < num then num - q.lastNum else 1
  let t := (s.setSensor n { q with frame := q.frame + k, lastNum := num }).putFld F.CAM_SENSSTAT_FRAME (gen16 (q.frame + k)) n
  (if 1 < k then t.anyEvent 0x07 0x0005 else t).applyEffects n

/-- R341: the release counter admits frame f of a context. -/
def State.bufferFree (s : State) (k f : Nat) : Bool :=
  decide (f + 1 ≤ s.reg .SYNC_CTR (bitsOf (s.reg .CAM_CTXSYNC k) 31 16) + s.fld F.CAM_CTXCFG_NBUF k)

/-- R340: the shadow parameter block becomes active. -/
def State.takeShadow (s : State) (k : Nat) : State :=
  match (s.camCtx k).shadow with
  | some b => (s.setCamCtx k { s.camCtx k with params := b, shadow := none }).putFld F.CAM_CTXSTATE_PENDING 0 k
  | none => s

/-- A frame that starts now in a context. -/
def State.newFrame (s : State) (k num : Nat) : CamFrame where
  index := (s.camCtx k).next
  written := s.bufferFree k (s.camCtx k).next
  num := num
  expoGen := s.fld F.CAM_EXPOGEN_EXPO_GEN (s.fld F.CAM_CTXCFG_RX k)
  gainGen := s.fld F.CAM_EXPOGEN_GAIN_GEN (s.fld F.CAM_CTXCFG_RX k)
  sof := s.time
  block := (s.camCtx k).params

/-- R341, R343: a frame starts in a context: the one before is truncated where its end is missing; a frame without a free buffer is
dropped. A draining receiver starts none (R346) (see log entry 48, DEDUCED). -/
def State.startFrame (s : State) (rx num : Nat) (k : Nat) : State :=
  let t := s.truncate k 6
  let t := t.setCamCtx k { t.camCtx k with reading := false }
  if t.unitUsable fnCam rx && t.unitUsable fnCam (16 + k) then
    let t := (t.acceptUnit fnCam (16 + k)).takeShadow k
    let c := t.camCtx k
    let f := t.newFrame k num
    let u := t.setCamCtx k { c with frames := c.frames ++ [f], reading := true, next := if f.written then c.next + 1 else c.next }
    if f.written then u else (u.addFld F.CAM_CTXSTATE_DROP_CNT 1 k).anyEvent 0x07 0x0002 (u.camPart k)
  else t

/-- R328: a header that ECC corrected is counted. -/
def State.eccCorrected (s : State) (rx : Nat) (on : Bool) : State := if on then s.addFld F.CAM_RXERR_ECC_CORR 1 rx else s

/-- CSI2_FRAME_START: a frame start of a bound virtual channel. -/
def execCsi2FrameStart (x : ShortPacket) (s : State) : Host.Outcome State Fault Refusal :=
  .next (
    let l := s.bound x.rx x.vc
    if s.rxLive x.rx = false ∨ l = [] then s
    else
      let t := s.eccCorrected x.rx x.corrected
      let t := if t.unitUsable fnCam x.rx then t.acceptUnit fnCam x.rx else t
      let t := if s.sensorVc x.rx = some x.vc then t.countFrame x.rx x.num else t
      l.foldl (fun t k => t.startFrame x.rx x.num k) t)

/-! Long packets (R342, R343). -/

/-- Bits of a sample of a CSI-2 data type (see log entry 49, PRESUMED). -/
def dtBits (dt : Nat) : Nat :=
  match dt with
  | 0x2B => 10
  | 0x2C => 12
  | 0x2D => 14
  | 0x2E => 16
  | 0x1E => 16
  | _ => 8

/-- Packed samples: high bytes first, then the low bits of n samples, b bits each (see log entry 49, PRESUMED). -/
def unpack (n b : Nat) (g : List Byte) : List Nat :=
  (List.range n).map (fun i => (g.getD i 0).toNat * 2 ^ b + leNat (g.drop n) / 2 ^ (b * i) % 2 ^ b)

/-- The samples of a line of RAW10, RAW12, RAW14 or RAW16 (see log entry 49, PRESUMED). -/
def lineSamples (dt : Nat) (line : List Byte) : List Nat :=
  match dt with
  | 0x2B => (chunks 5 (line.length / 5) line).flatMap (unpack 4 2)
  | 0x2C => (chunks 3 (line.length / 3) line).flatMap (unpack 2 4)
  | 0x2D => (chunks 7 (line.length / 7) line).flatMap (unpack 4 6)
  | 0x2E => (chunks 2 (line.length / 2) line).flatMap (unpack 1 8)
  | _ => line.map (·.toNat)

/-- R342: what raw capture writes of a line: samples right-aligned in 16 bits, RAW8 in 8, YUV422 and embedded data as received. -/
def captured (dt : Nat) (line : List Byte) : List Byte :=
  if dt = 0x2B ∨ dt = 0x2C ∨ dt = 0x2D ∨ dt = 0x2E then (lineSamples dt line).flatMap (toLe 2) else line

/-- A context's accesses (R119: class 0xB); a denied one is recorded and dropped. -/
def State.camWrite (s : State) (k a : Nat) (bs : List Byte) : State :=
  let i := initiator 0xB (s.camPart k)
  let t := s.keyed i
  if t.memOk i a bs.length true then t.writeBytes a bs else t.recordDenial i a bs.length true

/-- R341: the address of the planar reference of the output buffer of frame f. -/
def State.camRefAt (s : State) (k f : Nat) : Nat := s.fld F.CAM_CTXBUF_BASE k * 32 + 32 * (f % max 1 (s.fld F.CAM_CTXCFG_NBUF k))

/-- R341: the planar reference of the output buffer of frame f, where its W and H are the context's (see log entry 51, DESIGN CHOICE). -/
def State.camBuffer (s : State) (k f : Nat) : Option Planar :=
  let i := initiator 0xB (s.camPart k)
  let a := s.camRefAt k f
  let r := planarOf (fun _ => 0) (if s.memOk i a 32 false then (s.keyed i).bytes a 32 else List.replicate 32 0)
  if r.w = s.camWidth k ∧ r.h = s.camHeight k then some r else none

/-- The read of that reference, charged or recorded as denied. -/
def State.readRef (s : State) (k f : Nat) : State :=
  let i := initiator 0xB (s.camPart k)
  if s.memOk i (s.camRefAt k f) 32 false then s.charge i (s.camRefAt k f) 32 else s.recordDenial i (s.camRefAt k f) 32 false

/-- Rows written to the output buffer of frame f, where it has one. -/
def State.camRows (s : State) (k f : Nat) (rows : Planar → List (Nat × List Byte)) : State :=
  ((s.camBuffer k f).elim [] rows).foldl (fun t e => t.camWrite k e.1 e.2) (s.readRef k f)

/-- Lines that wait in a context's input line buffer. -/
def CamCtx.buffered (c : CamCtx) : Nat := (c.frames.map (fun f => f.lines.length - f.fed)).foldl (· + ·) 0

/-- A good line arrives: to the line buffer, or in raw capture to memory. -/
def State.takeLine (s : State) (k dt : Nat) (f : CamFrame) (line : List Byte) : State :=
  let t := s.setCamCtx k ((s.camCtx k).onLast (fun f => { f with lines := f.lines ++ [line] }))
  if s.camRaw k ∧ f.written then
    t.camRows k f.index (fun r => [(r.addr + 32 * r.rowPitch * f.lines.length, captured dt line)])
  else t

/-- R343: a long packet of the open frame of a context, by the conditions of Table CAM-5 (see log entry 48, DEDUCED). -/
def State.longPacket (s : State) (k : Nat) (f : CamFrame) (x : LongPacket) : State :=
  if s.camHeight k ≤ f.lines.length then s.addFld F.CAM_RXERR_LEN 1 x.rx
  else if x.wc * 8 ≠ s.camWidth k * dtBits x.dt then (s.addFld F.CAM_RXERR_LEN 1 x.rx).truncate k 1
  else if x.crcOk = false then (s.addFld F.CAM_RXERR_CRC 1 x.rx).truncate k 3
  else if s.camRaw k = false ∧ s.fld F.CAM_CTXTIME_IN_LINES k ≤ (s.camCtx k).buffered then
    (s.addFld F.CAM_RXERR_OVF 1 x.rx).truncate k 4
  else s.takeLine k x.dt f x.data

/-- R329, R343: a long packet at its stream: before the frame start it is an orphan, after a truncation it is not used. -/
def State.streamPacket (s : State) (k : Nat) (x : LongPacket) : State :=
  let c := s.camCtx k
  if c.reading = false then s.addFld F.CAM_RXERR_ORPHAN 1 x.rx
  else match c.frames.getLast? with
    | some f => if f.ended then s else s.longPacket k f x
    | none => s

/-- CSI2_LONG_PACKET: an uncorrectable header names no stream, so it truncates every open frame of the receiver. -/
def execCsi2LongPacket (x : LongPacket) (s : State) : Host.Outcome State Fault Refusal :=
  .next (
    if s.rxLive x.rx = false then s
    else if x.ecc = .bad then
      (List.range 32).foldl (fun t k => if t.fld F.CAM_CTXCFG_RX k = x.rx then t.truncate k 2 else t)
        (s.addFld F.CAM_RXERR_ECC_UNCORR 1 x.rx)
    else
      match (s.bound x.rx x.vc).find? (fun k => s.fld F.CAM_CTXCFG_DT k == x.dt) with
      | some k => (s.eccCorrected x.rx (x.ecc == .corrected)).streamPacket k x
      | none => s)

/-! Frame end (R334, R343). -/

/-- R336: the exposure and the gain that a generation of a sensor stands for. -/
def State.setting (s : State) (n g : Nat) : Nat × Nat :=
  (((s.sensor n).settings.find? (fun e => e.1 == g)).map (·.2)).getD (if g = 0 then Config.sensorDefault n else (0, 0))

/-- R330: the register writes that carry an exposure and a gain to a sensor: the address and the byte of each. -/
def State.sensorBytes (s : State) (n expo gain : Nat) : List (Nat × Byte) :=
  match s.dev.settings with
  | some x => (x.sensorRegs.filter (fun e => e.1 == n)).map (fun e =>
      (e.2.1, (toLe 4 (if e.2.2.1 then gain else expo)).getD e.2.2.2 0))
  | none => []

/-- R330, R334: a generation's exposure and gain go to the sensor's address through its I3C controller. -/
def State.i3cWrite (s : State) (n g : Nat) : State :=
  let v := s.setting n g
  s.send (.i3c (s.fld F.CAM_SENSCFG_I3C n) (s.fld F.CAM_SENSCFG_ADDR n) v.1 v.2 (s.sensorBytes n v.1 v.2))

/-- R334: after a frame end the newest commit that waits goes to the I3C controller (see log entry 50, DEDUCED). -/
def State.issue (s : State) (n : Nat) : State :=
  let q := s.sensor n
  match q.waiting, q.writing with
  | some g, none => (s.i3cWrite n g).setSensor n { q with waiting := none, writing := some (g, q.frame, false) }
  | _, _ => s

/-- The frame of a context ends: complete, or short. -/
def State.endFrame (s : State) (k : Nat) : State :=
  let short := ((s.camCtx k).frames.getLast?).any (fun f => decide (f.lines.length < s.camHeight k))
  let t := if (s.camCtx k).isOpen then
      (if short then s.truncate k 7 else s.setCamCtx k ((s.camCtx k).onLast (fun f => f.stop s.time 0)))
    else s
  t.setCamCtx k { t.camCtx k with reading := false }

/-- CSI2_FRAME_END: a frame end of a bound virtual channel (see log entry 48, DEDUCED). -/
def execCsi2FrameEnd (x : ShortPacket) (s : State) : Host.Outcome State Fault Refusal :=
  .next (
    let l := s.bound x.rx x.vc
    if s.rxLive x.rx = false ∨ l = [] then s
    else
      let t := l.foldl State.endFrame (s.eccCorrected x.rx x.corrected)
      if s.sensorVc x.rx = some x.vc then t.issue x.rx else t)

/-- FE_TIMEOUT (Table CAM-5): no frame end within FE_TIMEOUT_US. -/
def execFeTimeout (k : Nat) (s : State) : Host.Outcome State Fault Refusal := .next (s.truncate k 5)

/-! Exposure and gain (R332 to R335). -/

/-- R332: the sensor's setting is committed as its next generation (see log entry 50, DEDUCED). -/
def State.commit (s : State) (n : Nat) : State :=
  let g := gen16 (s.fld F.CAM_EXPOGEN_COMMITTED n + 1)
  let q := s.sensor n
  let x := (g, s.reg .CAM_EXPO n % 2 ^ 24, s.reg .CAM_GAIN n % 2 ^ 16)
  (s.putFld F.CAM_EXPOGEN_COMMITTED g n).setSensor n
    { q with waiting := some g, settings := q.settings.filter (fun e => e.1 != g) ++ [x] }

/-- The checks of CAM_EXPO (see log entry 50, DEDUCED). -/
def camExpoRule (p : Packet) (s : State) : Rule where
  op := ⟨6, 1⟩
  format := pTargetBits p 4 && p.plen == 1 && pZero p 6 32
  permit := s.fld F.CAM_SENSCFG_PARTITION p.target == p.partition
  fn := some (fnCam, none)

/-- CAM_EXPO (R332, R356): RESULT is the generation committed. The packet's setting goes through CAM_EXPOs and CAM_GAINs. -/
def execCamExpo (p : Packet) (s : State) : Host.Outcome State Fault Refusal :=
  .next (runPacket (.camExpo p) (camExpoRule p s) p
    (fun id t =>
      let u := ((t.setReg .CAM_EXPO (pNum p 0 4 % 2 ^ 24) p.target).setReg .CAM_GAIN (pNum p 4 2) p.target).commit p.target
      u.finish id csDone (u.fld F.CAM_EXPOGEN_COMMITTED p.target)) s)

/-- CAM_EXPO_COMMIT (R332): writing 1 to bit 0 of CAM_EXPO_COMMITs commits. -/
def execCamExpoCommit (n : Nat) (w : RegWrite) (s : State) : Host.Outcome State Fault Refusal :=
  .next (if 16 ≤ n then s.busErr else s.regWrite .CAM (s.p0 w.initiator) (if w.value.testBit 0 then s.commit n else s))

/-- R334, R335: the commit is issued after frame N (see log entry 50, DEDUCED). -/
def State.issued (s : State) (n g frame : Nat) : State :=
  let q := s.sensor n
  let l := q.effects ++ [(frame + s.fld F.CAM_SENSCFG_L_E n, false, g), (frame + s.fld F.CAM_SENSCFG_L_G n, true, g)]
  (s.putFld F.CAM_EXPOGEN_ISSUED g n).setSensor n { q with writing := none, effects := l }

/-- I3C_WRITE_DONE: the last write of a sensor's commit is acknowledged, in time or after the next frame start, or it is not and is
retried once (see log entry 50, DEDUCED). -/
def execI3cWriteDone (n : Nat) (ok : Bool) (s : State) : Host.Outcome State Fault Refusal :=
  .next (
    let q := s.sensor n
    match q.writing with
    | none => s
    | some (g, frame, retried) =>
      if ok then
        if q.frame = frame then s.issued n g frame
        else ((s.issued n g (frame + 1)).addFld F.CAM_SENSSTAT_LATE_CNT 1 n).anyEvent 0x07 0x0003
      else if retried then ((s.setSensor n { q with writing := none }).addFld F.CAM_SENSSTAT_FAIL_CNT 1 n).anyEvent 0x07 0x0004
      else (s.i3cWrite n g).setSensor n { q with writing := some (g, frame, true) })

/-! The ISP (R337 to R341). -/

/-- What the pipe sees of a frame: parameter block, data type, width, height and the lines received. -/
structure IspView where
  block : List Byte
  dt : Nat
  w : Nat
  h : Nat
  lines : List (List Byte)

/-- The parameters of the block, and the colour of a place (0 R, 1 Gr, 2 Gb, 3 B). -/
def IspView.params (v : IspView) : Config.IspParams := Config.ispParams v.block
def IspView.place (x y : Nat) : Fin 4 := ⟨x % 2 + 2 * (y % 2), by omega⟩
def IspView.colour (v : IspView) (x y : Nat) : Nat := (Config.bayerColour v.block (IspView.place x y)).val

/-- R339: a stage's quotient, rounded down or up where it is not exact (see log entry 51, DESIGN CHOICE). -/
def ispQuot (stage : Nat) (n : Int) (d : Nat) : Int := n / d + (if n % d ≠ 0 ∧ Config.ispRoundsUp stage d n then 1 else 0)

/-- Clamped to 16 bits. -/
def clamp16 (n : Int) : Nat := min 65535 n.toNat

/-- Stage 1: a RAWb sample v becomes v << (16 − b) less its channel's offset, clamped at 0. -/
def IspView.black (v : IspView) (x y : Nat) : Nat :=
  (lineSamples v.dt (v.lines.getD y [])).getD x 0 * 2 ^ (16 - dtBits v.dt) - v.params.black.getD (v.colour x y) 0

/-- A stage's sample at a place offset by (dx, dy), the border value outside the frame. -/
def IspView.near (v : IspView) (stage : Nat) (f : Nat → Nat → Nat) (x y : Nat) (dx dy : Int) : Nat :=
  let a := (x : Int) + dx
  let b := (y : Int) + dy
  if 0 ≤ a ∧ a < v.w ∧ 0 ≤ b ∧ b < v.h then f a.toNat b.toNat else Config.ispBorder stage v.lines a b

/-- Stage 2: the median of the 4 same-colour neighbours: the middle two of the four in order. -/
def IspView.median (v : IspView) (x y : Nat) : Nat :=
  let n := ([(-2, 0), (2, 0), (0, -2), (0, 2)].map (fun (d : Int × Int) => v.near 2 v.black x y d.1 d.2)).mergeSort (fun a b => decide (a ≤ b))
  Config.ispMedian (n.getD 1 0) (n.getD 2 0)

/-- Stage 2: pixels in the map, and those that differ from the median by more than the threshold, become the median. -/
def IspView.defect (v : IspView) (x y : Nat) : Nat :=
  let m := v.median x y
  let d := v.black x y
  if v.params.map.contains (x, y) ∨ v.params.threshold < d - m ∨ v.params.threshold < m - d then m else d

/-- Stage 3: a place on an axis of the grid: the cell, and how far the place lies into it, in 4,096ths. -/
def gridCell (points size n : Nat) : Nat × Nat :=
  let a := min (Config.ispGridPlace points size n) (4096 * (points - 1))
  let c := min (a / 4096) (points - 2)
  (c, a - 4096 * c)

/-- Stage 3: the gain of a 33 × 25 grid at a place, interpolated bilinearly between the four points of its cell, 4.12. -/
def shadingGain (grid : List Nat) (w h x y : Nat) : Int :=
  let c := gridCell 33 w x
  let r := gridCell 25 h y
  let g := fun dx dy => grid.getD (33 * (r.1 + dy) + (c.1 + dx)) 0
  ispQuot 3 (((g 0 0 * (4096 - c.2) + g 1 0 * c.2) * (4096 - r.2) + (g 0 1 * (4096 - c.2) + g 1 1 * c.2) * r.2 : Nat) : Int) (2 ^ 24)

/-- Stage 3: the lens shading gain, 4.12, clamped to 16 bits. -/
def IspView.shaded (v : IspView) (x y : Nat) : Nat :=
  clamp16 (ispQuot 3 (v.defect x y * shadingGain (v.params.grids.getD (v.colour x y) []) v.w v.h x y) (2 ^ 12))

/-- Stage 4: white balance, 4.12, to 16 bits. -/
def IspView.balanced (v : IspView) (x y : Nat) : Nat :=
  clamp16 (ispQuot 4 (v.shaded x y * v.params.gains.getD (v.colour x y) 0) (2 ^ 12))

/-- Stage 5: the 5 × 5 demosaic to R, G and B. -/
def IspView.rgb (v : IspView) (x y : Nat) : List Nat :=
  let l := [-2, -1, 0, 1, 2].flatMap (fun (dy : Int) => [-2, -1, 0, 1, 2].map (fun (dx : Int) => v.near 5 v.balanced x y dx dy))
  (List.range 3).map (Config.ispDemosaic v.params.edge (IspView.place x y) l)

/-- Stage 6: the colour matrix with its offsets, clamped. -/
def IspView.matrixed (v : IspView) (x y : Nat) : List Nat :=
  let l := v.rgb x y
  (List.range 3).map (fun r =>
    clamp16 (ispQuot 6 (((List.range 3).map (fun c => v.params.matrix.getD (3 * r + c) 0 * (l.getD c 0 : Int))).foldl (· + ·) 0) (2 ^ 12) +
      v.params.offsets.getD r 0))

/-- Stage 7: a tone curve of 1,025 points, interpolated linearly, 12 bits out. -/
def toneCurve (t : List Nat) (n : Nat) : Nat :=
  let a := t.getD (n / 64) 0
  let b := t.getD (n / 64 + 1) 0
  (ispQuot 7 (64 * (a : Int) + ((b : Int) - a) * (n % 64 : Nat)) 64).toNat % 4096

/-- The three 12-bit values of a pixel. -/
def IspView.toned (v : IspView) (x y : Nat) : List Nat :=
  let l := v.matrixed x y
  (List.range 3).map (fun c => toneCurve (v.params.curves.getD c []) (l.getD c 0))

/-- Stage 8: luma (plane 0), Cb (1) or Cr (2) of a pixel's R, G and B at a number of bits, by BT.601 or BT.709 in full or limited range
(see log entry 119, PRESUMED). -/
def yuv (m : Bool × Bool) (bits plane : Nat) (rgb : List Nat) : Nat :=
  let kr : Nat := if m.1 then 2126 else 2990
  let kb : Nat := if m.1 then 722 else 1140
  let scale : Nat := if Config.ispFullScale then 4095 else 4096
  let luma := kr * rgb.getD 0 0 + (10000 - kr - kb) * rgb.getD 1 0 + kb * rgb.getD 2 0
  let k := if plane = 1 then kb else kr
  let e : Int × Nat := if plane = 0 then ((luma : Int), 10000 * scale)
    else (10000 * (rgb.getD (if plane = 1 then 2 else 0) 0 : Int) - luma, 2 * (10000 - k) * scale)
  let span : Nat := if m.2 then 2 ^ bits - 1 else (if plane = 0 then 219 else 224) * 2 ^ (bits - 8)
  let base : Nat := if plane ≠ 0 then 2 ^ (bits - 1) else if m.2 then 0 else 2 ^ (bits - 4)
  min (2 ^ bits - 1) (ispQuot 8 (e.1 * span + base * e.2) e.2).toNat

/-- Stage 8: a sample of an output plane; chroma of 4:2:0 is the average of 2 × 2 pixels, RGB the 8 high bits' value. -/
def IspView.output (v : IspView) (fmt plane y x : Nat) : Nat :=
  let m := Config.ispMatrix v.params.select
  let bits := if fmt = 9 then 10 else 8
  if is420 fmt then
    if plane = 0 then yuv m bits 0 (v.toned x y)
    else
      let l := [v.toned (2 * x) (2 * y), v.toned (2 * x + 1) (2 * y), v.toned (2 * x) (2 * y + 1), v.toned (2 * x + 1) (2 * y + 1)]
      (ispQuot 8 ((l.map (yuv m bits plane)).foldl (· + ·) 0 : Nat) 4).toNat
  else min 255 (ispQuot 8 ((v.toned x y).getD plane 0 : Nat) 16).toNat

/-- The bytes of a row of an output plane that the ISP writes, with its address; the lines are those within its vertical support. -/
def ispRow (v : IspView) (r : Planar) (y : Nat) : List (Nat × List Byte) :=
  let w := { v with lines := v.lines.take (y + 5) }
  let enc := fun n => if r.fmt = 9 then toLe 2 (n % 1024 * 64) else toLe 1 n
  if is420 r.fmt then
    (r.addr + 32 * r.rowPitch * y, (List.range v.w).flatMap (fun x => enc (w.output r.fmt 0 y x))) ::
      (if y % 2 = 1 then
        [(r.addr + 32 * r.planePitch + 32 * r.rowPitch * (y / 2),
          (List.range (v.w / 2)).flatMap (fun x => enc (w.output r.fmt 1 (y / 2) x) ++ enc (w.output r.fmt 2 (y / 2) x)))]
      else [])
  else (List.range 3).map (fun c => (planarAt r c y 0, (List.range v.w).flatMap (fun x => enc (w.output r.fmt c y x))))

/-- What the pipe sees of a context's frame. -/
def State.ispView (s : State) (k : Nat) (f : CamFrame) : IspView where
  block := f.block
  dt := s.fld F.CAM_CTXCFG_DT k
  w := s.camWidth k
  h := s.camHeight k
  lines := f.lines

/-- R344: output lines that a frame's fed lines allow. -/
def CamFrame.outLimit (f : CamFrame) (height : Nat) : Nat :=
  if f.ended ∧ f.cause = 0 ∧ f.fed = f.lines.length then height else f.fed - 4

/-- Output lines written from a frame's position to a limit. -/
def State.writeLines (s : State) (k : Nat) (f : CamFrame) (limit : Nat) : State :=
  s.camRows k f.index (fun r => (List.range (limit - f.out)).flatMap (fun j => ispRow (s.ispView k f) r (f.out + j)))

/-- A frame changed where it stands. -/
def CamCtx.putFrame (c : CamCtx) (i : Nat) (f : CamFrame) : CamCtx := { c with frames := c.frames.set i f }

/-- The pipe takes lines of a context's frame up to a count and writes the output lines that they allow (see log entry 51, DESIGN CHOICE). -/
def State.feed (s : State) (k i fed : Nat) : State :=
  match (s.camCtx k).frames[i]? with
  | none => s
  | some f =>
    let f := { f with fed := fed }
    let limit := max f.out (f.outLimit (s.camHeight k))
    let t := if f.written then s.writeLines k f limit else s
    t.setCamCtx k ((t.camCtx k).putFrame i { f with out := limit })

/-- R338: the first frame of a context with lines for a strip. -/
def CamCtx.strip (c : CamCtx) : Option Nat :=
  match c.frames.findIdx? (fun f => decide (f.fed < f.lines.length)) with
  | some i => if (c.frames[i]?).any (fun f => f.ended || decide (f.fed + 8 ≤ f.lines.length)) then some i else none
  | none => none

/-- R338: a pipe's context whose input buffer is fullest as a fraction of IN_LINES, the lowest index on a tie. -/
def State.fullest (s : State) (pipe : Nat) : Option Nat :=
  let l := (List.range 32).filter (fun k => s.flag F.CAM_CTXCFG_EN k && !s.camRaw k && s.fld F.CAM_CTXCFG_PIPE k == pipe &&
    s.ctxLive k && (s.camCtx k).strip.isSome)
  let size := fun k => max 1 (s.fld F.CAM_CTXTIME_IN_LINES k)
  l.foldl (fun m k => match m with
    | none => some k
    | some b => if (s.camCtx b).buffered * size k < (s.camCtx k).buffered * size b then some k else some b) none

/-- ISP_STRIP: a pipe takes a strip of 8 lines, or what an ended frame has left. -/
def execIspStrip (pipe : Nat) (s : State) : Host.Outcome State Fault Refusal :=
  .next (match s.fullest pipe with
    | some k =>
      (match (s.camCtx k).strip with
       | some i => s.feed k i (((s.camCtx k).frames[i]?.map (fun f => min (f.fed + 8) f.lines.length)).getD 0)
       | none => s)
    | none => s)

/-! Records (R342, R347). -/

/-- R344: LAST_GOOD_LINE. -/
def CamFrame.lastGood (f : CamFrame) (raw : Bool) : Nat :=
  let n := if f.cause ≠ 0 ∧ raw = false then f.lines.length - 4 else f.lines.length
  if n = 0 then 0xFFFF else n - 1

/-- Table CAM-4: the STATUS word. -/
def CamFrame.status (f : CamFrame) (raw : Bool) : Nat :=
  2 ^ 31 + 2 ^ 30 * b2n (f.cause != 0) + 2 ^ 24 * f.cause + f.lastGood raw

/-- Table CAM-4 after STATUS. -/
def CamFrame.record (f : CamFrame) : List Byte :=
  toLe 4 f.index ++ toLe 2 f.expoGen ++ toLe 2 f.gainGen ++ toLe 4 f.sof ++ toLe 4 f.eof ++ toLe 2 f.lines.length ++ toLe 2 f.num ++ toLe 8 0

/-- R342: the frame status record, STATUS last, then the signal. -/
def State.frameRecord (s : State) (k : Nat) (f : CamFrame) : State :=
  let a := s.fld F.CAM_CTXFSTAT_BASE k * 32 + 32 * (f.index % max 1 (s.fld F.CAM_CTXCFG_NBUF k))
  ((s.camWrite k (a + 4) f.record).camWrite k a (toLe 4 (f.status (s.camRaw k)))).signal (bitsOf (s.reg .CAM_CTXSYNC k) 15 0) 1

/-- The four samples of a quad after stage 3, by colour: R, Gr, Gb, B. -/
def quadSamples (v : IspView) (q : Nat × Nat) : List Nat :=
  (List.range 4).map (fun c => ((List.finRange 4).map (fun i =>
    if (Config.bayerColour v.block i).val = c then v.shaded (2 * q.1 + i.val % 2) (2 * q.2 + i.val / 2) else 0)).foldl (· + ·) 0)

/-- The quads of columns and rows lo to below hi. -/
def quads (x0 x1 y0 y1 : Nat) : List (Nat × Nat) :=
  (List.range ((y1 - y0) / 2)).flatMap (fun y => (List.range ((x1 - x0) / 2)).map (fun x => (x0 / 2 + x, y0 / 2 + y)))

/-- Table CAM-6: HIST over the lines covered (see log entry 51, DESIGN CHOICE). -/
def histogram (v : IspView) : List Byte :=
  let bins := (quads 0 v.w 0 v.lines.length).map (fun q => ((quadSamples v q).foldl (· + ·) 0 / 4) / 512)
  (List.range 128).flatMap (fun i => toLe 4 (bins.filter (· == i)).length)

/-- Table CAM-6: a zone boundary, rounded down to even. -/
def zoneEdge (size n i : Nat) : Nat := size * i / n / 2 * 2

/-- Table CAM-6: a zone over its unsaturated quads at 12 bits (see log entry 51, DESIGN CHOICE). -/
def zone (v : IspView) (i j : Nat) : List Byte :=
  let y1 := min (zoneEdge v.h 12 (j + 1)) (v.lines.length / 2 * 2)
  let l := (quads (zoneEdge v.w 16 i) (zoneEdge v.w 16 (i + 1)) (zoneEdge v.h 12 j) y1).map (quadSamples v)
  let l := l.filter (fun q => q.all (fun n => decide (n < Config.saturation v.block)))
  let sum := fun (g : List Nat → Nat) => (l.map g).foldl (· + ·) 0
  let at_ := fun (v : List Nat) c => v.getD c 0 / 16
  toLe 4 (sum (at_ · 0)) ++ toLe 4 (sum (fun v => (at_ v 1 + at_ v 2) / 2)) ++ toLe 4 (sum (at_ · 3)) ++ toLe 4 l.length

/-- Table CAM-6 after FLAGS. -/
def State.statRecord (s : State) (k : Nat) (f : CamFrame) : List Byte :=
  let rx := s.fld F.CAM_CTXCFG_RX k
  toLe 1 k ++ toLe 1 rx ++ toLe 2 f.num ++ toLe 4 f.index ++ toLe 2 f.expoGen ++ toLe 2 f.gainGen ++
    toLe 4 (s.setting rx f.expoGen).1 ++ toLe 2 (s.setting rx f.gainGen).2 ++ toLe 2 f.lines.length ++ toLe 4 f.sof ++ toLe 4 f.eof ++
    List.replicate 32 0 ++ histogram (s.ispView k f) ++
    (List.range 12).flatMap (fun j => (List.range 16).flatMap (fun i => zone (s.ispView k f) i j)) ++
    List.replicate 448 0

/-- R347: the statistics record, FLAGS last (see log entry 51, DESIGN CHOICE). -/
def State.statistics (s : State) (k : Nat) (f : CamFrame) : State :=
  let c := s.camCtx k
  let a := s.fld F.CAM_CTXSTAT_BASE k * 32 + 4096 * (c.records % 2 ^ s.fld F.CAM_CTXSTAT_STAT_LOG2 k)
  let flags := 2 ^ 31 + b2n (!f.written) * 2 + b2n (f.cause != 0)
  ((s.camWrite k (a + 4) (s.statRecord k f)).camWrite k a (toLe 4 flags)).setCamCtx k { c with records := c.records + 1 }

/-- The oldest frame of a context is finished: its records are written and it leaves. -/
def State.finishFrame (s : State) (k : Nat) (f : CamFrame) : State :=
  let t := if f.written then s.frameRecord k f else s
  let t := if s.camRaw k then t else t.statistics k f
  t.setCamCtx k { t.camCtx k with frames := (t.camCtx k).frames.drop 1 }

/-- The oldest frame of a context, its pipe lines taken, is finished. -/
def State.endOldest (s : State) (k : Nat) : State :=
  match (s.camCtx k).frames.head? with
  | some f => if s.camRaw k then s.finishFrame k f else (s.feed k 0 f.lines.length).finishFrame k f
  | none => s

/-- ISP_FRAME_DONE (R342): the last output line of a context's oldest frame. -/
def execIspFrameDone (k : Nat) (s : State) : Host.Outcome State Fault Refusal :=
  .next (match (s.camCtx k).frames.head? with
    | some f => if f.ended && s.ctxLive k && (s.camRaw k || f.fed == f.lines.length) then s.endOldest k else s
    | none => s)

/-- R346: the frames of a context that a drain's time limit finds: the open one truncated with cause 5, each written with its records. -/
def State.endFrames (s : State) (k : Nat) : State :=
  (s.camCtx k).frames.foldl (fun t _ => t.endOldest k) (s.truncate k 5)

/-- R329, R346: a context whose receiver or unit reads STOPPED holds no frame and reads none. -/
def State.clearFrames (s : State) (k : Nat) : State := s.setCamCtx k { s.camCtx k with frames := [], reading := false }

/-- The checks of CTX_COMMIT. -/
def ctxCommitRule (p : Packet) (s : State) : Rule where
  op := ⟨6, 2⟩
  format := pTargetBits p 5 && p.plen == 1 && pZero p 8 32
  permit := s.camPart p.target == p.partition
  access := [(pNum p 0 8, Config.paramBytes, false)]
  fn := some (fnCam, some (16 + p.target))

/-- CTX_COMMIT's effect: the block at an address becomes the shadow copy; with an uncorrectable error at an offset of it FAULT_ECC
(R128, R133). -/
def ctxCommitBody (p : Packet) (ue : Option Nat) (id : Nat) (s : State) : State :=
  let l := [(pNum p 0 8, Config.paramBytes)]
  let t := s.chargePieces (initiator 6 p.partition) l
  match ue with
  | some k => (t.uncorrectable (pieceAddr l k Config.paramBytes) 0 p.partition).finish id csEcc 0
  | none => ((t.setCamCtx p.target { t.camCtx p.target with shadow := some (s.readPieces l) }).putFld F.CAM_CTXSTATE_PENDING 1 p.target).finish
      id csDone 0

/-- CTX_COMMIT (R340) (see log entry 51, DESIGN CHOICE). ue: the offset at which its read meets an uncorrectable error. -/
def execCtxCommit (p : Packet) (ue : Option Nat) (s : State) : Host.Outcome State Fault Refusal :=
  .next (runPacket (.ctxCommit p ue) (ctxCommitRule p s) p (ctxCommitBody p ue) s)

/-- R331: how far the Chronometer's time lies behind the last phase of an output, in ns. -/
def State.fsyncAge (s : State) (n : Nat) : Nat :=
  let p := s.fld F.CAM_FSYNCPER_PERIOD_NS n
  (s.time % p + p - s.fld F.CAM_FSYNCPER_PHASE_NS n) % p

/-- R331: an output's edge is due: the rise at its phase, the fall once it has been high for WIDTH_US. -/
def State.fsyncDue (s : State) (n : Nat) (rise : Bool) : Bool :=
  if rise then s.fsyncAge n == 0 && decide (s.fld F.CAM_FSYNCPER_PHASE_NS n < s.fld F.CAM_FSYNCPER_PERIOD_NS n)
  else decide (1000 * s.fld F.CAM_FSYNCCFG_WIDTH_US n ≤ s.fsyncAge n)

/-- A frame-sync output at a level. -/
def State.setFsync (s : State) (n : Nat) (high : Bool) : State :=
  { s with pins := { s.pins with fsync := if high then s.pins.fsync ||| 2 ^ n else s.pins.fsync &&& (2 ^ 16 - 1 - 2 ^ n) } }

/-- FSYNC_PULSE (R331): an enabled output rises or falls. -/
def execFsyncPulse (n : Nat) (rise : Bool) (s : State) : Host.Outcome State Fault Refusal :=
  .next (if s.flag F.CAM_FSYNCCFG_EN n ∧ n < 16 ∧ s.devState ≠ devHeld ∧ s.devState ≠ devSafe ∧ s.fsyncDue n rise = true then
      s.setFsync n rise
    else s)

/-- R331, R357: after a write of a frame sync's enable: values out of range leave it at 0, and a disabled output is low. -/
def State.showFsync (s : State) (n : Nat) (was : Bool) : State :=
  let t := if was || s.fsyncOk n then s else s.putFld F.CAM_FSYNCCFG_EN 0 n
  if t.flag F.CAM_FSYNCCFG_EN n then t else t.setFsync n false

end Sys2Proof.Machine
end

