-- ==== Sys2Proof/Machine/Codec.lean ====
section
/-! DEFINITION. The decode and encode contexts and the JPEG engines (file 11: R348 to R356). -/

namespace Sys2Proof.Machine

/-! Cores and their load (R348, R349). -/

/-- Luma samples per second that a core sustains. -/
abbrev coreCapacity : Nat := 995328000

/-- The contexts of a core with their loads: decode cores 0 to 3, encode cores 4 and 5. -/
def State.coreLoads (s : State) (c : Nat) : List Nat :=
  if c < 4 then (s.vid.dec.filter (fun d => s.fld F.VID_DCTX_CORE d.ctx == c)).map (·.load)
  else (s.vid.enc.filter (fun e => e.core == c)).map (fun e => e.settings.w * e.settings.h * e.settings.fps)

/-- The load admitted on a core. -/
def State.coreSum (s : State) (c : Nat) : Nat := (s.coreLoads c).foldl (· + ·) 0

/-- VID_CORESTAT's contexts and load. -/
def State.showCores (s : State) : State :=
  (List.range 6).foldl (fun t c =>
    (t.putFld F.VID_CORESTAT_CONTEXTS (s.coreLoads c).length c).putFld F.VID_CORESTAT_LOAD (s.coreSum c * 100 / coreCapacity) c) s

/-- R349: of the usable cores with room for a load the one with the most spare capacity, the lowest on a tie (see log entry 52, DEDUCED). -/
def State.pickCore (s : State) (cores : List Nat) (load : Nat) : Option Nat :=
  (cores.filter (fun c => s.unitUsable fnVid c && decide (s.coreSum c + load ≤ coreCapacity))).foldl (fun m c => match m with
    | none => some c
    | some b => if s.coreSum c < s.coreSum b then some c else some b) none

/-- The supported level's largest picture in luma samples (R350): H.264 level 5.2, H.265 level 5.1 (see log entry 53, PRESUMED). -/
def levelSamples (codec : Nat) : Nat := if codec = 0 then 9437184 else 8912896

/-- A picture is within a level of n luma samples: its size, and either dimension squared within eight times it
(see log entry 53, PRESUMED). -/
def levelOk (n w h : Nat) : Bool := decide (w * h ≤ n ∧ w * w ≤ 8 * n ∧ h * h ≤ 8 * n)

/-! Decode contexts. -/

def State.decCtx (s : State) (n : Nat) : Option DecCtx := s.vid.dec.find? (fun d => d.ctx == n)
def State.setDec (s : State) (d : DecCtx) : State :=
  { s with vid := { s.vid with dec := s.vid.dec.map (fun x => if x.ctx = d.ctx then d else x) } }

/-- R349: the frame bytes F. -/
def frameBytes (w h depth : Nat) : Nat := roundUp w 64 * roundUp h 64 * 3 / 2 * (if depth = 10 then 2 else 1)

/-- Table VID-2's ranges. -/
def decCreateOk (p : Packet) : Bool :=
  let rng := fun n lo hi => decide (lo ≤ n ∧ n ≤ hi)
  rng (pNum p 0 1) 0 1 && (pNum p 1 1 == 8 || (pNum p 1 1 == 10 && pNum p 0 1 == 1)) && rng (pNum p 2 1) 1 16 &&
    rng (pNum p 3 1) 8 9 && rng (pNum p 4 2) 64 8192 && rng (pNum p 6 2) 64 8192 &&
    rng (pNum p 8 2) 1 240 && rng (pNum p 10 2) 64 16384

/-- The fields of DEC_CREATE that must be zero, and TARGET (see log entry 52, DEDUCED). -/
def decCreateForm (p : Packet) : Bool :=
  pTargetBits p 6 && p.plen == 1 && pZero p 0x0E 0x10 && pZero p 0x18 0x20 && decide (2 ^ 63 ≤ pNum p 0x10 8)

/-- The object of a handle reference in a packet's payload, with the offset. -/
def State.payloadObj (s : State) (p : Packet) (off : Nat) : Option (Obj × Nat) :=
  (s.obj? p.partition (bitsOf (pNum p off 8) 62 40)).map (fun b => (b, bitsOf (pNum p off 8) 39 0))

/-- The partition owns the context, or the context is free. -/
def State.decFree (s : State) (p : Packet) : Bool := (s.decCtx p.target).all (fun d => d.partition == p.partition)

/-- The context that a DEC_CREATE makes. -/
def newDec (p : Packet) (b : Obj) (off : Nat) : DecCtx where
  ctx := p.target
  partition := p.partition
  codec := pNum p 0 1
  depth := pNum p 1 1
  slots := pNum p 2 1
  fmt := pNum p 3 1
  maxW := pNum p 4 2
  maxH := pNum p 6 2
  load := pNum p 4 2 * pNum p 6 2 * pNum p 8 2
  bytes := pNum p 10 2 * 1024
  rel := pNum p 12 2
  area := b.pieces off (b.size - off)

/-- R349, R489: the context is set up on a core, or the detail that refuses it. -/
def decCreateBody (p : Packet) (id : Nat) (s : State) : State :=
  match s.payloadObj p 0x10 with
  | none => s.finish id csFirewall 8
  | some (b, off) =>
    let d := newDec p b off
    if b.smem || !decCreateOk p then s.finish id csFormat 0x0100
    else if b.size < off + (d.slots + 2) * frameBytes d.maxW d.maxH d.depth + d.bytes + 65536 then s.finish id csFormat 0x0600
    else
      match s.pickCore [0, 1, 2, 3] d.load with
      | none => s.finish id csFormat 0x0500
      | some c =>
        let v := 2 ^ 30 + 2 ^ 28 * c + 2 ^ 27 * d.codec + 2 ^ 21 * d.partition
        (({ s with vid := { s.vid with dec := s.vid.dec ++ [d] } }.setReg .VID_DCTX v d.ctx).showCores).finish id csDone c

/-- The checks of DEC_CREATE. -/
def decCreateRule (p : Packet) (s : State) : Rule where
  op := ⟨6, 0x10⟩
  format := decCreateForm p
  permit := s.decFree p && (s.payloadObj p 0x10).isSome && s.ownsCtr p.partition (pNum p 12 2)
  ready := (s.decCtx p.target).isNone
  fn := some (fnVid, none)

/-- DEC_CREATE (R349). -/
def execDecCreate (p : Packet) (s : State) : Host.Outcome State Fault Refusal :=
  .next (runPacket (.decCreate p) (decCreateRule p s) p (decCreateBody p) s)

/-! Decoding (R350 to R353). -/

/-- Bytes of an output sample. -/
def DecCtx.sampleBytes (d : DecCtx) : Nat := if d.fmt = 9 then 2 else 1

/-- Bytes from slot to slot: F, and twice as many where an 8-bit context writes P010 (see log entry 113, DESIGN CHOICE). -/
def DecCtx.slotBytes (d : DecCtx) : Nat := frameBytes d.maxW d.maxH (if d.fmt = 9 then 10 else d.depth)

/-- Bytes of a row of a slot, the place of its chroma plane, and the slot's place in the area. -/
def DecCtx.pitch (d : DecCtx) : Nat := roundUp d.maxW 64 * d.sampleBytes
def DecCtx.chroma (d : DecCtx) : Nat := d.pitch * roundUp d.maxH 64
def DecCtx.slotAt (d : DecCtx) (n : Nat) : Nat := d.slotBytes * n

/-- R353: the planar reference of a picture in a slot, its offset from the start of the area. -/
def DecCtx.reference (d : DecCtx) (q : DecPic) : List Byte :=
  toLe 8 (d.slotAt q.slot / 32) ++ toLe 4 (d.pitch / 32) ++ toLe 4 (d.chroma / 32) ++ toLe 2 q.w ++ toLe 2 q.h ++
    toLe 2 3 ++ toLe 1 d.fmt ++ toLe 9 0

/-- R353: a slot whose picture is no reference, does not wait for output, and was released if it was output (see log entry 52, DEDUCED). -/
def State.slotFree (s : State) (d : DecCtx) (n : Nat) : Bool :=
  d.pics.all (fun q => q.slot != n || (!q.ref && !q.waits && decide (q.outNo ≤ s.reg .SYNC_CTR d.rel)))

/-- The lowest free slot. -/
def State.freePicture (s : State) (d : DecCtx) : Option Nat := (List.range (d.slots + 2)).find? (s.slotFree d)

/-- R350: the picture is within every limit (see log entry 52, DEDUCED). -/
def DecCtx.admits (d : DecCtx) (u : AccessUnit) : Bool :=
  decide (1 ≤ u.w ∧ 1 ≤ u.h ∧ u.w ≤ d.maxW ∧ u.h ≤ d.maxH ∧ u.dpb ≤ d.slots) && levelOk u.level u.w u.h &&
    levelOk (levelSamples d.codec) u.w u.h

/-- The code of an output sample. -/
def DecCtx.code (d : DecCtx) (v : Nat) : Nat := if d.fmt = 9 then v % 1024 * 64 else v % 256

/-- R352: mid-grey. -/
def DecCtx.grey (d : DecCtx) : Nat := if d.fmt = 9 then 512 * 64 else 128

/-- The place in the area of a sample in a slot: plane 0 luma, 1 and 2 the interleaved chroma. -/
def DecCtx.sampleAt (d : DecCtx) (slot plane y x : Nat) : Nat :=
  if plane = 0 then d.slotAt slot + d.pitch * y + d.sampleBytes * x
  else d.slotAt slot + d.chroma + d.pitch * y + d.sampleBytes * (2 * x + plane - 1)

/-- R352: where a concealed block is copied from. -/
def DecCtx.concealFrom (d : DecCtx) (u : AccessUnit) : Option Nat :=
  match u.ref with
  | some n => if d.pics.any (fun q => q.slot == n) then some n else d.last
  | none => d.last

/-- R352: the block of a sample is damaged or follows the damage. -/
def unitDamaged (u : AccessUnit) (plane y x : Nat) : Bool :=
  let k := if plane = 0 then 1 else 2
  let b := max 1 u.block
  match u.damage with
  | some (a, _) => decide (a ≤ y * k / b * ((u.w + b - 1) / b) + x * k / b)
  | none => false

/-- A sample of the picture: decoded, or concealed. -/
def State.decSample (s : State) (d : DecCtx) (bs : List Byte) (u : AccessUnit) (plane y x : Nat) : Nat :=
  if unitDamaged u plane y x then
    match d.concealFrom u with
    | some n => leNat (s.readPieces (piecesOf d.area (d.sampleAt n plane y x) d.sampleBytes))
    | none => d.grey
  else d.code (Config.decodedSample d.codec d.token bs plane y x)

/-- The rows of a picture of 4:2:0 samples: addresses and bytes. -/
def pictureRows (w h size : Nat) (at_ : Nat → Nat → Nat → Nat) (sample : Nat → Nat → Nat → Nat) : List (Nat × List Byte) :=
  (List.range h).map (fun y => (at_ 0 y 0, (List.range w).flatMap (fun x => toLe size (sample 0 y x)))) ++
    (List.range ((h + 1) / 2)).map (fun y => (at_ 1 y 0,
      (List.range ((w + 1) / 2)).flatMap (fun x => toLe size (sample 1 y x) ++ toLe size (sample 2 y x))))

/-- R119: an access of the codecs (class 0xC); a denied one is recorded and dropped. -/
def State.vidWrite (s : State) (part a : Nat) (bs : List Byte) : State :=
  let i := initiator 0xC part
  if s.memOk i a bs.length true then (s.keyed i).writeBytes a bs else (s.keyed i).recordDenial i a bs.length true

/-- Rows written. -/
def State.vidRows (s : State) (part : Nat) (l : List (Nat × List Byte)) : State := l.foldl (fun t e => t.vidWrite part e.1 e.2) s

/-- Bytes cut over pieces of memory in order. -/
def cutRow : List (Nat × Nat) → List Byte → List (Nat × List Byte)
  | [], _ => []
  | (a, n) :: ps, bs => (a, bs.take n) :: cutRow ps (bs.drop n)

/-- The picture's samples land in a slot. -/
def State.writePicture (s : State) (d : DecCtx) (slot : Nat) (bs : List Byte) (u : AccessUnit) : State :=
  let r := s.keyed (initiator 0xC d.partition)
  s.vidRows d.partition ((pictureRows u.w u.h d.sampleBytes (d.sampleAt slot) (r.decSample d bs u)).flatMap (fun e =>
    cutRow (piecesOf d.area e.1 e.2.length) e.2))

/-- The context after a picture was decoded into a slot: the references that stay, and the new picture. -/
def DecCtx.decoded (d : DecCtx) (slot : Nat) (bs : List Byte) (u : AccessUnit) : DecCtx :=
  let held := (d.pics.filter (fun q => q.slot != slot)).map (fun q => { q with ref := u.keep.contains q.slot })
  let q : DecPic := { slot := slot, w := u.w, h := u.h, ref := u.keep.contains slot }
  { d with pics := held ++ [q], last := some slot, token := Config.decodeNext d.codec d.token bs }

/-- R353: a picture is output as the next of its context. -/
def DecCtx.outputSlot (d : DecCtx) (slot : Nat) : DecCtx :=
  let n := d.outputs + 1
  { d with outputs := n, pics := d.pics.map (fun q => if q.slot = slot then { q with waits := false, outNo := n } else q) }

/-- The slot that an access unit outputs, if a picture waits there. -/
def DecCtx.outSlot (d : DecCtx) (new : Nat) (u : AccessUnit) : Option Nat :=
  let pick := match u.output with
    | .nothing => none
    | .this => some new
    | .slot n => some n
  pick.bind (fun n => if d.pics.any (fun q => q.slot == n && q.waits) then some n else none)

/-- R352, R353: RESULT of a decoded picture (see log entry 52, DEDUCED). -/
def unitResult (u : AccessUnit) (out : Option Nat) : Nat :=
  out.getD 0xFF + (match u.damage with
    | some (a, o) => 2 ^ 20 * (a % 2 ^ 20) + 2 ^ 40 * (o % 2 ^ 24)
    | none => 0)

/-- R351: the access unit is rejected with a status and RESULT; the context waits for a random-access point. -/
def State.rejectUnit (s : State) (d : DecCtx) (id st result : Nat) : State :=
  (((s.setDec { d with last := none, rejected := st }).putFld F.VID_DCTX_STATE 2 d.ctx).addFld F.VID_DCNT_REJECTED 1 d.ctx).complete id st result

/-- The picture is decoded into a free slot, output and completed. -/
def State.decodeInto (s : State) (d : DecCtx) (id slot : Nat) (bs : List Byte) (u : AccessUnit) : State :=
  let t := s.writePicture d slot bs u
  let e := d.decoded slot bs u
  let out := e.outSlot slot u
  let ext := match out with
    | some n => ((e.pics.find? (fun q => q.slot == n)).map d.reference).getD []
    | none => []
  let t := (t.setDec (out.elim e e.outputSlot)).putFld F.VID_DCTX_STATE 1 d.ctx
  let t := (t.addFld F.VID_DCNT_PICTURES 1 d.ctx).addReg .VID_COREBUSY 64 u.cycles (t.fld F.VID_DCTX_CORE d.ctx)
  if u.damage.isSome then
    ((t.addFld F.VID_DCNT_CONCEALED 1 d.ctx).anyEvent 0x08 0x0002 d.partition).complete id csConcealed (unitResult u out) ext
  else t.complete id csDone (unitResult u out) ext

/-- R350 to R353: an access unit on its context: rejected, or decoded, or it waits for a slot, which leaves it first in line. -/
def State.decodeUnit (s : State) (d : DecCtx) (id : Nat) (bs : List Byte) (u : AccessUnit) : State × Bool :=
  if s.fld F.VID_DCTX_STATE d.ctx = 2 ∧ u.rap = false then
    ((s.setDec d).rejectUnit d id d.rejected (if d.rejected = csFormat then 0x0200 else 0x02FF), false)
  else if u.unsupported then ((s.anyEvent 0x08 0x0003 d.partition).rejectUnit d id csFormat 0x0700, false)
  else if d.admits u = false then ((s.anyEvent 0x08 0x0001 d.partition).rejectUnit d id csDimensions 0xFF, false)
  else match s.freePicture d with
    | some n => (s.decodeInto d id n bs u, false)
    | none => (s.setDec { d with waiting := (id, bs, u) :: d.waiting }, true)

/-- The access units that wait are taken in order, until one waits on. -/
def decodeWaiting (ctx : Nat) : Nat → State → State
  | 0, s => s
  | n + 1, s =>
    match s.decCtx ctx with
    | some d =>
      match d.waiting with
      | (id, bs, u) :: l =>
        let r := s.decodeUnit { d with waiting := l } id bs u
        if r.2 then r.1 else decodeWaiting ctx n r.1
      | [] => s
    | none => s

/-- R350: a packet's bytes join the access unit; the last one completes it, behind those that wait. -/
def decDecodeBody (p : Packet) (u : AccessUnit) (id : Nat) (s : State) : State :=
  match s.decCtx p.target with
  | none => s.finish id csState 9
  | some d =>
    let bs := (d.unit ++ p.payload).take d.bytes
    if pLast p then
      decodeWaiting d.ctx (d.waiting.length + 1) (s.setDec { d with unit := [], waiting := d.waiting ++ [(id, bs, u)] })
    else (s.setDec { d with unit := bs }).finish id csDone 0xFF

/-- The rule of a packet that names a decode context. -/
def decRule (code : Nat) (p : Packet) (s : State) (format : Bool) (ext : Nat) : Rule where
  op := ⟨6, code⟩
  format := pTargetBits p 6 && format
  ext := ext
  permit := s.decFree p
  ready := (s.decCtx p.target).isSome
  fn := some (fnVid, some (s.fld F.VID_DCTX_CORE p.target))

/-- DEC_DECODE (R350) (see log entry 54, DEDUCED). -/
def execDecDecode (p : Packet) (u : AccessUnit) (s : State) : Host.Outcome State Fault Refusal :=
  .next (runPacket (.decDecode p u) (decRule 0x11 p s true 1) p (decDecodeBody p u) s)

/-- DEC_RESUME (R353): decoding that waited for its release counter goes on. -/
def execDecResume (d : Nat) (s : State) : Host.Outcome State Fault Refusal :=
  .next (decodeWaiting d ((s.decCtx d).elim 0 (fun x => x.waiting.length)) s)

/-- R353: every remaining picture is output, in display order. -/
def decFlushBody (p : Packet) (order : List Nat) (id : Nat) (s : State) : State :=
  match s.decCtx p.target with
  | none => s.finish id csState 9
  | some d =>
    let rest := (d.pics.filter (·.waits)).map (·.slot)
    let l := (order.eraseDups.filter rest.contains) ++ rest.filter (fun n => !order.contains n)
    (s.setDec (l.foldl DecCtx.outputSlot d)).finish id csDone l.length (padTo 32 (l.map (BitVec.ofNat 8)))

/-- DEC_FLUSH (R353) (see log entry 52, DEDUCED). -/
def execDecFlush (p : Packet) (order : List Nat) (s : State) : Host.Outcome State Fault Refusal :=
  .next (runPacket (.decFlush p order) (decRule 0x12 p s (p.plen == 0) 1) p (decFlushBody p order) s)

/-- A decode context is freed; access units that wait on it complete REJECTED_STATE. -/
def State.freeDec (s : State) (d : DecCtx) : State :=
  let t := ({ s with vid := { s.vid with dec := s.vid.dec.filter (fun x => x.ctx != d.ctx) } }.setReg .VID_DCTX 0 d.ctx).showCores
  d.waiting.foldl (fun t e => t.complete e.1 csState 0) t

/-- DEC_DESTROY (Table VID-3). -/
def execDecDestroy (p : Packet) (s : State) : Host.Outcome State Fault Refusal :=
  .next (runPacket (.decDestroy p) (decRule 0x13 p s (p.plen == 0) 0) p
    (fun id t => ((t.decCtx p.target).elim t t.freeDec).finish id csDone 0) s)

/-! Encode contexts (R354). -/

def State.encCtx (s : State) (n : Nat) : Option EncCtx := s.vid.enc.find? (fun d => d.ctx == n)

/-- The partition owns the context, or the context is free. -/
def State.encFree (s : State) (p : Packet) : Bool := (s.encCtx p.target).all (fun d => d.partition == p.partition)

/-- R348, R354: the settings of an encode context in range. -/
def encOk (x : EncSettings) : Bool :=
  decide (x.codec ≤ 1 ∧ 1 ≤ x.w ∧ 1 ≤ x.h ∧ 1 ≤ x.fps) && levelOk (levelSamples x.codec) x.w x.h

/-- R354: the context is admitted to an encode core. -/
def encCreateBody (p : Packet) (x : EncSettings) (id : Nat) (s : State) : State :=
  match s.pickCore [4, 5] (x.w * x.h * x.fps) with
  | none => s.finish id csFormat 0x0500
  | some c =>
    let e : EncCtx := { ctx := p.target, partition := p.partition, core := c, settings := x }
    let v := 2 ^ 30 + 2 ^ 29 * (c - 4) + 2 ^ 28 * x.codec + 2 ^ 22 * p.partition
    (({ s with vid := { s.vid with enc := s.vid.enc ++ [e] } }.setReg .VID_ECTX v p.target).showCores).finish id csDone c

/-- The checks of ENC_CREATE. -/
def encCreateRule (p : Packet) (s : State) (x : EncSettings) : Rule where
  op := ⟨6, 0x20⟩
  format := pTargetBits p 4 && p.plen == 2 && encOk x
  detail := if pTargetBits p 4 && p.plen == 2 then 1 else 0
  permit := s.encFree p
  ready := (s.encCtx p.target).isNone
  fn := some (fnVid, none)

/-- ENC_CREATE (R354). -/
def execEncCreate (p : Packet) (x : EncSettings) (s : State) : Host.Outcome State Fault Refusal :=
  .next (runPacket (.encCreate p x) (encCreateRule p s x) p (encCreateBody p x) s)

/-- The rule of a packet that names an encode context. -/
def encRule (code : Nat) (p : Packet) (s : State) (format permit : Bool) (access : List (Nat × Nat × Bool)) : Rule where
  op := ⟨6, code⟩
  format := pTargetBits p 4 && format
  permit := s.encFree p && permit
  access := access
  ready := (s.encCtx p.target).isSome
  fn := some (fnVid, some (4 + s.fld F.VID_ECTX_CORE p.target))

/-- The planar reference at an address. -/
def State.planarRef (s : State) (part a : Nat) : Planar := planarOf (fun _ => 0) ((s.keyed (initiator 6 part)).bytes a 32)

/-- A source's rows of a 4:2:0 or planar reference: addresses and lengths. -/
def sourceRows (r : Planar) : List (Nat × Nat) :=
  if is420 r.fmt then
    (List.range r.h).map (fun y => (r.addr + 32 * r.rowPitch * y, ppeRowBytes r)) ++
      (List.range ((r.h + 1) / 2)).map (fun y => (r.addr + 32 * r.planePitch + 32 * r.rowPitch * y, ppeRowBytes r))
  else (List.range r.c).flatMap (fun c => (List.range r.h).map (fun y => (planarAt r c y 0, ppeRowBytes r)))

/-- The bytes of those rows. -/
def State.sourceBytes (s : State) (r : Planar) : List Byte := s.readPieces (sourceRows r)

/-- R119, R281: the accesses of a codec packet, class 0xC: where a firewall denies one, all denied ones are recorded and the packet
completes REJECTED_FIREWALL with no effect (R83); else reads are charged, and the packet goes on, or ends with FAULT_ECC where they meet
an uncorrectable error at an offset (R128, R133). -/
def State.vidAccess (s : State) (part id : Nat) (write : Bool) (l : List (Nat × Nat)) (ue : Option Nat) (go : State → State) : State :=
  let i := initiator 0xC part
  if l.all (fun e => s.memOk i e.1 e.2 write) then
    let t := if write then s else s.chargePieces i l
    match ue with
    | some k => (t.uncorrectable (pieceAddr l k (l.map (·.2)).sum) 0 part).finish id csEcc 0
    | none => go t
  else (l.foldl (fun t e => t.recordDenial i e.1 e.2 write) s).finish id csFirewall 8

/-- R354: the picture is encoded into the object, where it fits. -/
def encFrameBody (p : Packet) (cycles : Nat) (ue : Option Nat) (id : Nat) (s : State) : State :=
  match s.encCtx p.target, s.payloadObj p 8 with
  | some e, some (b, off) =>
    let r := s.planarRef p.partition (pNum p 0 8)
    let x := e.settings
    if is420 r.fmt = false ∨ r.w ≠ x.w ∨ r.h ≠ x.h then s.finish id csFormat 0x0100
    else
      s.vidAccess p.partition id false (sourceRows r) ue (fun s =>
        let src := (s.keyed (initiator 0xC p.partition)).sourceBytes r
        let out := Config.encoded x.codec x.profile x.rate e.token src
        let t := s.addReg .VID_COREBUSY 64 cycles e.core
        if b.size - off < out.length then t.finish id csFormat 0x0800
        else t.vidAccess p.partition id true (b.pieces off out.length) none (fun t =>
          let n := { e with token := Config.encodeNext x.codec x.profile x.rate e.token src }
          let u := (t.keyed (initiator 0xC p.partition)).writeObj b off out
          let l := u.vid.enc.map (fun (y : EncCtx) => if y.ctx = e.ctx then n else y)
          { u with vid := { u.vid with enc := l } }.finish id csDone out.length))
  | _, _ => s.finish id csState 9

/-- The checks of ENC_FRAME. -/
def encFrameRule (p : Packet) (s : State) : Rule :=
  { encRule 0x21 p s (p.plen == 1 && pZero p 16 32 && decide (2 ^ 63 ≤ pNum p 8 8)) (s.payloadObj p 8).isSome
      [(pNum p 0 8, 32, false)] with writes := (s.payloadObj p 8).map (·.1.handle) }

/-- ENC_FRAME (R354) (see log entry 54, DEDUCED). ue: the offset at which its read of the source meets an uncorrectable error. -/
def execEncFrame (p : Packet) (cycles : Nat) (ue : Option Nat) (s : State) : Host.Outcome State Fault Refusal :=
  .next (runPacket (.encFrame p cycles ue) (encFrameRule p s) p (encFrameBody p cycles ue) s)

/-- ENC_DESTROY (Table VID-3). -/
def execEncDestroy (p : Packet) (s : State) : Host.Outcome State Fault Refusal :=
  .next (runPacket (.encDestroy p) (encRule 0x22 p s (p.plen == 0) true []) p
    (fun id t =>
      let l := t.vid.enc.filter (fun x => x.ctx != p.target)
      (({ t with vid := { t.vid with enc := l } }.setReg .VID_ECTX 0 p.target).showCores).finish id csDone 0) s)

/-! JPEG (R355). -/

/-- The JPEG engine that takes a job: the first usable one (see log entry 54, DEDUCED). -/
def State.jpegEngine (s : State) : Nat := if s.unitUsable fnVid 6 then 6 else 7

/-- The rule of a JPEG job. -/
def jpegRule (code : Nat) (p : Packet) (s : State) (permit : Bool) (access : List (Nat × Nat × Bool)) : Rule where
  op := ⟨6, code⟩
  format := p.target == 0 && p.plen == 2
  permit := permit
  access := access
  fn := some (fnVid, some s.jpegEngine)

/-- The planar reference of a job. -/
def jpegRef (x : JpegJob) : Planar := planarOf (fun _ => 0) (padTo 32 x.planar)

/-- The destination takes samples: NV12, or planar UINT8 of one or three channels. -/
def jpegFormOk (x : JpegJob) : Bool := (jpegRef x).fmt == 8 || ((jpegRef x).fmt == 1 && ((jpegRef x).c == 1 || (jpegRef x).c == 3))

/-- R355: the limits. -/
def jpegAdmits (x : JpegJob) : Bool :=
  decide (1 ≤ x.w ∧ 1 ≤ x.h ∧ x.w ≤ min x.maxW 16384 ∧ x.h ≤ min x.maxH 16384 ∧ x.w ≤ (jpegRef x).w ∧ x.h ≤ (jpegRef x).h)

/-- The MCU of a sample lies in a damaged run. -/
def jpegDamaged (x : JpegJob) (y col : Nat) : Bool :=
  let mw := max 1 x.mcuW
  let n := y / max 1 x.mcuH * ((x.w + mw - 1) / mw) + col / mw
  x.damage.any (fun e => decide (e.1 ≤ n ∧ n < e.1 + e.2))

/-- A sample of a JPEG image as it is written. -/
def jpegPixel (x : JpegJob) (bs : List Byte) (plane y col : Nat) : Nat :=
  let k := if isChroma (jpegRef x).fmt plane then 2 else 1
  if jpegDamaged x (y * k) (col * k) then 128 else Config.jpegSample bs (jpegRef x).fmt plane y col % 256

/-- The rows of a decoded image. -/
def jpegRows (x : JpegJob) (bs : List Byte) : List (Nat × List Byte) :=
  let r := (jpegRef x)
  if r.fmt = 8 then
    pictureRows x.w x.h 1 (fun plane y _ => r.addr + 32 * r.rowPitch * y + (if plane = 0 then 0 else 32 * r.planePitch)) (jpegPixel x bs)
  else (List.range r.c).flatMap (fun c => (List.range x.h).map (fun y =>
    (planarAt r c y 0, (List.range x.w).flatMap (fun col => toLe 1 (jpegPixel x bs c y col)))))

/-- R355: the job: rejected, decoded, or concealed with mid-grey. -/
def jpegDecBody (p : Packet) (x : JpegJob) (id : Nat) (s : State) : State :=
  let e := s.jpegEngine
  if x.unsupported then (s.anyEvent 0x08 0x0003 p.partition).finish id csFormat 0x0700
  else if jpegFormOk x = false then s.finish id csFormat 0x0100
  else if jpegAdmits x = false then (s.anyEvent 0x08 0x0001 p.partition).finish id csDimensions 0
  else
    s.vidAccess p.partition id false [(x.addr, x.len)] x.ue (fun s =>
      let rows := jpegRows x ((s.keyed (initiator 0xC p.partition)).bytes x.addr x.len)
      s.vidAccess p.partition id true (rows.map (fun e => (e.1, e.2.length))) none (fun s =>
        let t := (s.vidRows p.partition rows).addReg .VID_COREBUSY 64 x.cycles e
        match x.damage with
        | [] => t.finish id csDone x.consumed
        | (a, _) :: _ => (t.anyEvent 0x08 0x0002 p.partition).finish id csConcealed (2 ^ 20 * (a % 2 ^ 20) + 2 ^ 40 * (x.offset % 2 ^ 24))))

/-- JPEG_DEC (R355): RESULT is the bytes consumed (see log entry 54, DEDUCED). -/
def execJpegDec (p : Packet) (x : JpegJob) (s : State) : Host.Outcome State Fault Refusal :=
  .next (runPacket (.jpegDec p x)
    (jpegRule 0x30 p s true [(x.addr, max 1 x.len, false), ((jpegRef x).addr, 1, true)]) p (jpegDecBody p x) s)

/-- The object that a JPEG_ENC writes, with the offset. -/
def State.jpegObj (s : State) (part : Nat) (x : JpegJob) : Option (Obj × Nat) :=
  (s.obj? part (bitsOf x.addr 62 40)).map (fun b => (b, bitsOf x.addr 39 0))

/-- R355: the image is encoded into the object, where it fits. -/
def jpegEncBody (p : Packet) (x : JpegJob) (id : Nat) (s : State) : State :=
  match s.jpegObj p.partition x with
  | none => s.finish id csFirewall 8
  | some (b, off) =>
    if jpegFormOk x = false ∨ min x.maxW 16384 < (jpegRef x).w ∨ min x.maxH 16384 < (jpegRef x).h then s.finish id csFormat 0x0100
    else
      s.vidAccess p.partition id false (sourceRows (jpegRef x)) x.ue (fun s =>
        let out := Config.jpegBytes x.select ((s.keyed (initiator 0xC p.partition)).sourceBytes (jpegRef x))
        let t := s.addReg .VID_COREBUSY 64 x.cycles s.jpegEngine
        if b.size - off < out.length then t.finish id csFormat 0x0800
        else t.vidAccess p.partition id true (b.pieces off out.length) none (fun t =>
          ((t.keyed (initiator 0xC p.partition)).writeObj b off out).finish id csDone out.length))

/-- JPEG_ENC (R355): RESULT is the bytes written (see log entry 54, DEDUCED). -/
def execJpegEnc (p : Packet) (x : JpegJob) (s : State) : Host.Outcome State Fault Refusal :=
  .next (runPacket (.jpegEnc p x)
    { jpegRule 0x31 p s (s.jpegObj p.partition x).isSome [((jpegRef x).addr, 1, false)] with
      writes := some (bitsOf x.addr 62 40) } p (jpegEncBody p x) s)

end Sys2Proof.Machine
end

