-- ==== Sys2Proof/Machine/Can.lean ====
section
/-! DEFINITION. The CAN controllers (file 13: R418 to R432). -/

namespace Sys2Proof.Machine

/-- A controller beyond its registers. -/
def State.canCtl (s : State) (c : Nat) : CanCtl := s.can.getD c {}
def State.setCan (s : State) (c : Nat) (x : CanCtl) : State := { s with can := s.can.set c x }

/-- The partition of a controller. -/
def State.canPart (s : State) (c : Nat) : Nat := s.fld F.CAN_CTL_PARTITION c

/-- R418, R427: the controller is on the bus: draining it completes the frame there. -/
def State.canBus (s : State) (c : Nat) : Bool :=
  decide (c < 8) && s.unitLive fnCan c && (s.reg .CLK_GATE_CAN).testBit c && s.fld F.CAN_ERR_ESTATE c != 2

/-- R418, R427: the controller takes part in the bus. -/
def State.canLive (s : State) (c : Nat) : Bool := s.canBus c && s.unitUsable fnCan c

/-- R426, R430: a frame of the controller's own may be on the bus, and it may send new ones. -/
def State.canOwn (s : State) (c : Nat) : Bool := s.canBus c && !s.flag F.CAN_CTL_ROP c && s.fld F.CAN_TTSTAT_ERRLVL c != 3
def State.canSends (s : State) (c : Nat) : Bool := s.canOwn c && s.unitUsable fnCan c

/-! The message RAM (R420). -/

/-- Data bytes of an element, and the bytes of an element in the message RAM and in a packet. -/
def State.canData (s : State) (c : Nat) : Nat := [8, 64, 256, 2048].getD (s.fld F.CAN_RAMCFG_DSIZE c) 8
def State.canElem (s : State) (c : Nat) : Nat := 32 + s.canData c
def State.canSlot (s : State) (c : Nat) : Nat := 32 + roundUp (s.canData c) 32

/-- Elements for sending. -/
def State.canNtx (s : State) (c : Nat) : Nat := s.fld F.CAN_RAMCFG_NTX c

/-- Elements of an RX FIFO. -/
def State.canNrx (s : State) (c fifo : Nat) : Nat := if fifo = 0 then s.fld F.CAN_RAMCFG_NRX0 c else s.fld F.CAN_RAMCFG_NRX1 c

/-- Where a high-priority buffer and an element of a FIFO stand among the elements. -/
def State.canHpb (s : State) (c n : Nat) : Nat := s.canNtx c + n
def State.canFifo (s : State) (c fifo i : Nat) : Nat := s.canNtx c + 4 + (if fifo = 0 then 0 else s.canNrx c 0) + i

/-- Bytes of an element from an offset. -/
def State.canBytes (s : State) (c e off n : Nat) : List Byte :=
  sparseGetList (fun _ => 0) (s.canCtl c).ram (s.canElem c * e + off) n

/-- Bytes written to an element. -/
def State.canWrite (s : State) (c e off : Nat) (bs : List Byte) : State :=
  let x := s.canCtl c
  s.setCan c { x with ram := sparseSetList (fun _ => 0) x.ram (s.canElem c * e + off) bs }

/-- Fields of an element (Table CAN-2). -/
def State.canId (s : State) (c e : Nat) : Nat := leNat (s.canBytes c e 0 4) % 2 ^ 29
def State.canFlags (s : State) (c e : Nat) : Nat := leNat (s.canBytes c e 4 4)
def State.canLaunchTime (s : State) (c e : Nat) : Nat := leNat (s.canBytes c e 0x18 8)

/-- FLAGS bits. -/
def canDar (flags : Nat) : Bool := flags.testBit 6
def canLaunchEn (flags : Nat) : Bool := flags.testBit 7

/-- R396: the Chronometer's time some ns ago, in the time scale of then (see log entry 115, DESIGN CHOICE). -/
def State.timeAgo (s : State) (age : Nat) : Nat :=
  let back : Int := 2 ^ 32 * (s.reg .CHR_TIME : Int) + s.chr.frac - age * (2 ^ 32 + signedOf 32 (s.reg .CHR_RATE))
  let stepped := ((s.chr.steps.filter (fun e => decide (s.dev.nowNs < e.1 + age))).map (·.2)).foldl (· + ·) 0
  ofSigned 64 (back / 2 ^ 32 - stepped)

/-- R393, R423: the stamp of a frame whose SOF or SFD was some ns ago; 0 while FN_CHR was not READY. -/
def State.stamp (s : State) (age : Nat) : Nat :=
  if s.fnUsable fnChr && s.chr.readyNs.any (fun t => decide (t + age ≤ s.dev.nowNs)) then s.timeAgo age % 2 ^ 32 else 0

/-- An event that is logged at most once per 1 ms per unit. -/
def State.oncePerMs (s : State) (last : Option Nat) : Bool := last.all (fun t => decide (t + 1000000 ≤ s.dev.nowNs))

/-! Sending (R424). -/

/-- A bit of a per-element register set or cleared. -/
def State.canBit (s : State) (r : Reg) (c e : Nat) (on : Bool) : State :=
  s.setReg r (if on then s.reg r c ||| 2 ^ e else if (s.reg r c).testBit e then s.reg r c - 2 ^ e else s.reg r c) c

/-- The element's request is set. -/
def State.canAsked (s : State) (c e : Nat) : Bool := (s.reg .CAN_TXREQ c).testBit e

/-- The request of an element clears. -/
def State.canDrop (s : State) (c e : Nat) : State :=
  let x := s.canCtl c
  (s.setCan c { x with
    waiting := x.waiting.filter (· != e), started := x.started.filter (· != e),
    onBus := if x.onBus = some e then none else x.onBus }).canBit .CAN_TXREQ c e false

/-- R424: the frame of an element has started. -/
def State.canStarted (s : State) (c e : Nat) : Bool := (s.canCtl c).started.contains e || (s.canCtl c).onBus == some e

/-- R424: the element is late now. -/
def State.canLate (s : State) (c e : Nat) : Bool :=
  s.canAsked c e && canLaunchEn (s.canFlags c e) && !s.canStarted c e && s.reg .CAN_LTCFG c != 0xFFFFFFFF &&
    decide (s.canLaunchTime c e + s.reg .CAN_LTCFG c < s.time)

/-- R424: a late element is not sent. -/
def State.canLateDrop (s : State) (c e : Nat) : State :=
  let t := (((s.canDrop c e).canBit .CAN_TXLATE c e true).canWrite c e 0x0C (toLe 4 0)).addReg .CAN_LATECNT 32 1 c
  if s.oncePerMs (s.canCtl c).lateNs then
    (t.setCan c { t.canCtl c with lateNs := some s.dev.nowNs }).event 0x0A 0x0006 c (s.canPart c)
  else t

/-- R406, R424: the check for late elements at a step of the Chronometer. -/
def State.canStepCheck (s : State) : State :=
  (List.range 8).foldl (fun t c => (List.range 32).foldl (fun t e => if t.canLate c e then t.canLateDrop c e else t) t) s

/-- Cell types. -/
abbrev cellExclusive : Nat := 1
abbrev cellArbitrating : Nat := 2
abbrev cellMerged : Nat := 3
abbrev cellRxCheck : Nat := 4

/-- The type and the index of a cell word. -/
def cellType (w : Nat) : Nat := bitsOf w 31 29
def cellIndex (w : Nat) : Nat := bitsOf w 7 0

/-- R428: in time-triggered operation an element is sent in its window only (see log entry 57, DEDUCED). -/
def State.inWindow (s : State) (c e : Nat) : Bool :=
  let w := (s.canCtl c).window
  !s.flag F.CAN_CTL_TT c || ((cellType w == cellExclusive || cellType w == cellArbitrating) && cellIndex w == e)

/-- R418: the controller has the frame format that FLAGS name: CAN FD with FD_EN, CAN XL with XL_EN. -/
def State.canFormat (s : State) (c flags : Nat) : Bool :=
  if flags.testBit 2 then s.flag F.CAN_CTL_XL_EN c else !flags.testBit 1 || s.flag F.CAN_CTL_FD_EN c

/-- R424: elements are pending: requested, their launch time not to come; one in a format that the controller does not have is never
sent (see log entry 116, DESIGN CHOICE). -/
def State.canPending (s : State) (c e : Nat) : Bool :=
  s.canAsked c e && !(s.canCtl c).waiting.contains e && s.canFormat c (s.canFlags c e)

/-- R424: lowest ID first, lowest element index first among equal IDs. -/
def State.canBefore (s : State) (c a b : Nat) : Bool :=
  decide (s.canId c a < s.canId c b) || (s.canId c a == s.canId c b && decide (a < b))

/-- R424, R428: of the pending elements, those in their window, the one that goes first. -/
def State.canFirst (s : State) (c : Nat) : Option Nat :=
  ((List.range 32).filter (fun e => s.canPending c e && s.inWindow c e)).foldl (fun m e => match m with
    | none => some e
    | some b => if s.canBefore c e b then some e else some b) none

/-- R424: with none of its frames on the bus a controller that sends starts the first of what is pending (see log entry 116, DESIGN
CHOICE). -/
def State.canStart (s : State) (c : Nat) : State :=
  if (s.canCtl c).onBus.isNone && s.canSends c then s.setCan c { s.canCtl c with onBus := s.canFirst c } else s

/-- The element whose frame is on the bus, or goes there now. -/
def State.canWire (s : State) (c : Nat) : Option Nat :=
  match (s.canCtl c).onBus with
  | some e => some e
  | none => if s.canSends c then s.canFirst c else none

/-- A frame on the bus has ended: what is pending enters arbitration. -/
def State.canFrameEnd (s : State) (c : Nat) : State := (s.setCan c { s.canCtl c with onBus := none }).canStart c

/-- An element is requested: with LAUNCH_EN it waits for its time, or is late when its request is due at once. -/
def State.canRequest (s : State) (c e : Nat) : State :=
  let t := s.canBit .CAN_TXREQ c e true
  if canLaunchEn (t.canFlags c e) then
    if t.time < t.canLaunchTime c e then t.setCan c { t.canCtl c with waiting := (t.canCtl c).waiting.filter (· != e) ++ [e] }
    else if t.canLate c e then t.canLateDrop c e else t.canStart c
  else t.canStart c

/-- CAN_TXREQ (R424): a write of 1 requests the TX elements that are not requested yet. -/
def execCanTxreq (c : Nat) (w : RegWrite) (s : State) : Host.Outcome State Fault Refusal :=
  .next (if 8 ≤ c then s.busErr else s.regWrite .CAN (s.ofPart w.initiator (s.canPart c))
    ((List.range (s.canNtx c)).foldl (fun t e => if w.value.testBit e && !t.canAsked c e then t.canRequest c e else t)
      (if s.unitUsable fnCan c then s.acceptUnit fnCan c else s)))

/-- CAN_LAUNCH (R424): the launch time of an element is reached: it is requested, or late. -/
def execCanLaunch (c e : Nat) (s : State) : Host.Outcome State Fault Refusal :=
  .next (
    let x := s.canCtl c
    if x.waiting.contains e ∧ s.canLaunchTime c e ≤ s.time then
      let t := s.setCan c { x with waiting := x.waiting.filter (· != e) }
      if t.canLate c e then t.canLateDrop c e else t.canStart c
    else s)

/-! Errors (R425), after ISO 11898-1. -/

/-- The error state that the counters give, with its events (see log entry 56, PRESUMED). -/
def State.canState (s : State) (c : Nat) (off : Bool) : State :=
  let was := s.fld F.CAN_ERR_ESTATE c
  let passive := decide (128 ≤ s.fld F.CAN_ERR_TEC c ∨ 128 ≤ s.fld F.CAN_ERR_REC c)
  let now := if off then 2 else if passive then 1 else 0
  let t := s.putFld F.CAN_ERR_ESTATE now c
  let t := if now = 1 ∧ was = 0 then t.event 0x0A 0x0002 c (s.canPart c) else t
  if now = 2 ∧ was ≠ 2 then
    (t.setCan c { t.canCtl c with recovering := s.flag F.CAN_CTL_AUTO_RECOVER c, started := [], onBus := none }).event 0x0A 0x0001 c (s.canPart c)
  else t

/-- A counter after a success (see log entry 56, PRESUMED). -/
def lessOne (n : Nat) : Nat := n - 1

/-- The transmit error counter after a frame sent, and the receive error counter after one received. -/
def State.canSent (s : State) (c : Nat) : State := (s.putFld F.CAN_ERR_TEC (lessOne (s.fld F.CAN_ERR_TEC c)) c).canState c false
def State.canGot (s : State) (c : Nat) : State :=
  let r := s.fld F.CAN_ERR_REC c
  (s.putFld F.CAN_ERR_REC (if 127 < r then 127 else lessOne r) c).canState c false

/-! Time-triggered windows (R428, R430). -/

/-- R430: the scheduling error level raised, with its event (see log entry 57, DEDUCED). -/
def State.ttError (s : State) (c level : Nat) : State :=
  (s.putFld F.CAN_TTSTAT_ERRLVL (max level (s.fld F.CAN_TTSTAT_ERRLVL c)) c).event 0x0A 0x0005 c (s.canPart c)

/-- R430: the window closes; a frame still to come is an error of its level. -/
def State.closeWindow (s : State) (c : Nat) : State :=
  let x := s.canCtl c
  let t := s.setCan c { x with window := 0, due := false }
  if x.due then t.ttError c (if cellType x.window = cellExclusive then 3 else 1) else t

/-- R428: a column's cell opens its window; a MERGED cell continues the arbitrating window before it (see log entry 57, DEDUCED). -/
def State.openWindow (s : State) (c w : Nat) : State :=
  let due := if cellType w = cellExclusive ∨ cellType w = cellArbitrating then
      s.canAsked c (cellIndex w) && !(s.canCtl c).waiting.contains (cellIndex w)
    else cellType w == cellRxCheck
  (s.setCan c { s.canCtl c with window := w, due := due }).canStart c

/-- CAN_TX_DONE (R424): an element that was requested has been sent: its stamp is written and its TXDONE bit set
(see log entry 116, DESIGN CHOICE). -/
def execCanTxDone (c e age : Nat) (s : State) : Host.Outcome State Fault Refusal :=
  .next (
    if s.canOwn c && s.canWire c == some e then
      let t := ((s.canWrite c e 0x0C (toLe 4 (s.stamp age))).canDrop c e).canBit .CAN_TXDONE c e true
      let t := if s.flag F.CAN_CTL_TT c then t.setCan c { t.canCtl c with due := false } else t
      (((t.acceptUnit fnCan c).canSent c).canFrameEnd c).send (.can c (s.canBytes c e 0 (s.canElem c)))
    else s)

/-- R425: by how much an error raises the sender's counter: not at a stuff error in arbitration, nor at an acknowledgement error of an
error-passive sender that sees no dominant bit in its error flag (see log entry 56, PRESUMED). -/
def State.txErrors (s : State) (c code : Nat) (kind : CanErrKind) : Nat :=
  if (kind = .arbitration ∧ code = 1) ∨ (kind = .plain ∧ code = 3 ∧ s.fld F.CAN_ERR_ESTATE c = 1) then 0 else 8

/-- R425: by how much an error raises a receiver's counter: 8 more where a dominant bit follows its error flag (see log entry 56,
PRESUMED). -/
def rxErrors (kind : CanErrKind) : Nat := if kind = .dominant then 9 else 1

/-- R425: the counters after an error (see log entry 56, PRESUMED). -/
def State.canCount (s : State) (c : Nat) (tx : Bool) (code : Nat) (kind : CanErrKind) : State :=
  let t := (s.addFld F.CAN_ECNT_ERR_FRAMES 1 c).putFld F.CAN_ERR_LEC code c
  let n := s.fld F.CAN_ERR_TEC c + s.txErrors c code kind
  if tx then (t.putFld F.CAN_ERR_TEC (min 255 n) c).canState c (decide (255 < n))
  else (t.addFld F.CAN_ERR_REC (rxErrors kind) c).canState c false

/-- R424, R428: a frame that met an error or lost arbitration is retried, unless it is a single shot or has an exclusive window. -/
def State.canRetry (s : State) (c e : Nat) : State :=
  let x := s.canCtl c
  let exclusive := s.flag F.CAN_CTL_TT c && cellType x.window == cellExclusive && cellIndex x.window == e
  if exclusive then ((s.canDrop c e).setCan c { (s.canDrop c e).canCtl c with due := false }).ttError c 3
  else if canDar (s.canFlags c e) then s.canDrop c e
  else if s.fld F.CAN_ERR_ESTATE c = 2 then s
  else s.setCan c { x with started := x.started.filter (· != e) ++ [e] }

/-- R430: the own reference message failed; twice in a row is an error of level S3 (see log entry 57, DEDUCED). -/
def State.refFailed (s : State) (c : Nat) : State :=
  let n := (s.canCtl c).refFails + 1
  let t := s.setCan c { s.canCtl c with refFails := n }
  if 2 ≤ n then t.ttError c 3 else t

/-- CAN_BUS_ERROR (R424 to R426): code 0 is a lost arbitration, after which the winner's frame is on the bus, 1 to 6 the error of
CAN_ERR.LEC. In restricted operation a corrupted frame is discarded silently (see log entry 56, PRESUMED). -/
def execCanBusError (c : Nat) (role : CanRole) (code : Nat) (kind : CanErrKind) (s : State) : Host.Outcome State Fault Refusal :=
  .next (
    if s.canBus c = false then s
    else if s.flag F.CAN_CTL_ROP c then (if code = 0 then s else s.addFld F.CAN_ECNT_SILENT_DROP 1 c)
    else
      let t := if code = 0 then s else s.canCount c (role != .receiver) (code % 8) kind
      match role with
      | .receiver => t.canFrameEnd c
      | .element e =>
        let u := if s.canOwn c && s.canWire c == some e then t.canRetry c e else t
        if code = 0 then u.setCan c { u.canCtl c with onBus := none } else u.canFrameEnd c
      | .reference => if code = 0 then t else t.refFailed c)

/-- CAN_BUS_OFF_RECOVERY (R425): 128 occurrences of 11 recessive bits end a recovery that was started (see log entry 56, PRESUMED). -/
def execCanBusOffRecovery (c : Nat) (s : State) : Host.Outcome State Fault Refusal :=
  .next (
    if s.fld F.CAN_ERR_ESTATE c = 2 ∧ (s.canCtl c).recovering then
      let t := ((s.putFld F.CAN_ERR_TEC 0 c).putFld F.CAN_ERR_REC 0 c).putFld F.CAN_ERR_ESTATE 0 c
      ((t.putFld F.CAN_CTL_RECOVER 0 c).setCan c { t.canCtl c with recovering := false }).canStart c
    else s)

/-- What a write of CAN_CTL does: its parameters, and RECOVER of a controller that is bus-off. -/
def State.writeCanCtl (s : State) (c v : Nat) : State :=
  let t := s.setReg .CAN_CTL (s.merged .CAN_CTL c 0 v (2 ^ 32 - 1)) c
  if v.testBit 22 ∧ s.fld F.CAN_ERR_ESTATE c = 2 then
    (t.setFlag F.CAN_CTL_RECOVER c).setCan c { t.canCtl c with recovering := true }
  else t

/-- RECOVER (R425): a write of CAN_CTL with RECOVER set. -/
def execRecover (c : Nat) (w : RegWrite) (s : State) : Host.Outcome State Fault Refusal :=
  .next (if 8 ≤ c then s.busErr
    else s.paramWrite (s.p0 w.initiator) .CAN_CTL c 0 w.value w.initiator (s.writeCanCtl c (w.value ||| 2 ^ 22)))

/-! Receiving (R421, R422). -/

/-- R421: a filter word matches an identifier. -/
def filterMatch (w id : Nat) : Bool :=
  let id1 := bitsOf w 28 0
  let id2 := bitsOf w 60 32
  match bitsOf w 31 30 with
  | 0 => (id &&& id2) == (id1 &&& id2)
  | 1 => decide (id1 ≤ id ∧ id ≤ id2)
  | 2 => id == id1 || id == id2
  | _ => false

/-- R421: the first filter of a bank that is not disabled and matches: its index and action. -/
def State.canFilter (s : State) (c : Nat) (x : CanRx) : Option (Nat × Nat) :=
  let r := if x.flags.testBit 0 && !x.flags.testBit 2 then (Reg.CAN_EXTFILT, 64, x.id % 2 ^ 29) else (Reg.CAN_STDFILT, 128, x.id % 2 ^ 11)
  ((List.range r.2.1).find? (fun n => bitsOf (s.reg r.1 c n) 63 61 != 0 && filterMatch (s.reg r.1 c n) r.2.2)).map
    (fun n => (n, bitsOf (s.reg r.1 c n) 63 61))

/-- A received frame as an element (see log entry 55, DEDUCED). -/
def State.rxElement (s : State) (c : Nat) (x : CanRx) (filter : Nat) : List Byte :=
  toLe 4 x.id ++ toLe 4 x.flags ++ toLe 2 x.data.length ++ toLe 2 filter ++ toLe 4 (s.stamp x.age) ++ toLe 4 x.af ++ toLe 12 0 ++
    padTo (s.canData c) (x.data.take (s.canData c))

/-- CAN_RXFSTAT: fill and read index of a FIFO. -/
def State.fifoFill (s : State) (c fifo : Nat) : Nat := bitsOf (s.reg .CAN_RXFSTAT c) (if fifo = 0 then 31 else 15) (if fifo = 0 then 24 else 8)
def State.fifoRead (s : State) (c fifo : Nat) : Nat := bitsOf (s.reg .CAN_RXFSTAT c) (if fifo = 0 then 23 else 7) (if fifo = 0 then 16 else 0)

/-- CAN_RXFSTAT with a FIFO's fill and read index. -/
def State.setFifo (s : State) (c fifo fill read : Nat) : State :=
  let half := fill % 256 * 256 + read % 256
  s.setReg .CAN_RXFSTAT (if fifo = 0 then 65536 * half + s.reg .CAN_RXFSTAT c % 65536 else 65536 * (s.reg .CAN_RXFSTAT c / 65536) + half) c

/-- The interrupt of a FIFO (0, 1) or a high-priority buffer (2 to 5) (see log entry 55, DEDUCED). -/
def State.canIrq (s : State) (c n : Nat) : State := s.raise (s.fld F.CAN_CTL_IRQ_VEC c + n) 0 (s.canPart c)

/-- R422: a frame for a full FIFO is discarded. -/
def State.fifoFull (s : State) (c : Nat) : State :=
  let t := s.addFld F.CAN_ECNT_FIFO_DROP 1 c
  if s.oncePerMs (s.canCtl c).fullNs then
    (t.setCan c { t.canCtl c with fullNs := some s.dev.nowNs }).event 0x0A 0x0003 c (s.canPart c)
  else t

/-- A frame for an RX FIFO. -/
def State.toFifo (s : State) (c fifo : Nat) (x : CanRx) (filter : Nat) : State :=
  let n := s.canNrx c fifo
  if n ≤ s.fifoFill c fifo then s.fifoFull c
  else
    let e := s.canFifo c fifo ((s.fifoRead c fifo + s.fifoFill c fifo) % n)
    ((s.canWrite c e 0 (s.rxElement c x filter)).setFifo c fifo (s.fifoFill c fifo + 1) (s.fifoRead c fifo)).canIrq c fifo

/-- R422: a frame for a high-priority buffer. -/
def State.toHpb (s : State) (c n : Nat) (x : CanRx) (filter : Nat) : State :=
  let t := if (s.reg .CAN_HPBSTAT c).testBit n then (s.addFld F.CAN_ECNT_HPB_OVR 1 c).event 0x0A 0x0004 c (s.canPart c) else s
  ((t.canWrite c (s.canHpb c n) 0 (s.rxElement c x filter)).canBit .CAN_HPBSTAT c n true).canIrq c (2 + n)

/-- R421: a frame goes where its filter's action, or NOMATCH, sends it. -/
def State.canDeliver (s : State) (c : Nat) (x : CanRx) (action filter : Nat) : State :=
  match action with
  | 1 => s.toFifo c 0 x filter
  | 2 => s.toFifo c 1 x filter
  | 4 => s.toHpb c 0 x filter
  | 5 => s.toHpb c 1 x filter
  | 6 => s.toHpb c 2 x filter
  | 7 => s.toHpb c 3 x filter
  | _ => s

/-- R430: a frame that an RX_CHECK window expects has come. -/
def State.checkSeen (s : State) (c filter : Nat) : State :=
  let x := s.canCtl c
  if cellType x.window = cellRxCheck ∧ cellIndex x.window = filter then s.setCan c { x with due := false } else s

/-- CAN_RX_FRAME (R421 to R423). -/
def execCanRxFrame (c : Nat) (x : CanRx) (s : State) : Host.Outcome State Fault Refusal :=
  .next (
    if s.canBus c = false ∨ s.canFormat c x.flags = false then s
    else
      let t := s.acceptUnit fnCan c
      let t := (if s.flag F.CAN_CTL_ROP c then t else t.canGot c).canFrameEnd c
      match s.canFilter c x with
      | some (n, a) => (t.canDeliver c x a n).checkSeen c n
      | none => t.canDeliver c x (s.fld F.CAN_CTL_NOMATCH c) 0xFFFF)

/-- Elements of a FIFO released. -/
def State.releaseFifo (s : State) (c fifo n : Nat) : State :=
  let k := min n (s.fifoFill c fifo)
  s.setFifo c fifo (s.fifoFill c fifo - k) ((s.fifoRead c fifo + k) % max 1 (s.canNrx c fifo))

/-- CAN_RXFACK: releases elements of an RX FIFO. -/
def execCanRxfack (c : Nat) (w : RegWrite) (s : State) : Host.Outcome State Fault Refusal :=
  .next (if 8 ≤ c then s.busErr else s.regWrite .CAN (s.ofPart w.initiator (s.canPart c))
    (s.releaseFifo c (bitsOf w.value 8 8) (bitsOf w.value 7 0)))

/-! Packets (R431). -/

/-- The elements of a CAN_TX packet: Table CAN-2 with data padded to 32 bytes. -/
def State.canTxElems (s : State) (p : Packet) : List (List Byte) := pRecords p (s.canSlot (p.target % 8))

/-- Table CAN-2: the reserved fields of an element to send, and its length. -/
def State.canElemOk (s : State) (c : Nat) (b : List Byte) : Bool :=
  leAt b 0 4 / 2 ^ 29 == 0 && leAt b 7 1 == 0 && leAt b 0x14 4 == 0 && decide (leAt b 8 2 ≤ s.canData c)

/-- CAN_TX places an element in the lowest free TX element and requests it. -/
def State.placeElem (s : State) (c : Nat) (b : List Byte) : State × Bool :=
  match (List.range (s.canNtx c)).find? (fun e => !s.canAsked c e) with
  | some e => ((s.canWrite c e 0 (b.take (s.canElem c))).canRequest c e, true)
  | none => (s, false)

/-- The elements placed in order, with how many were (see log entry 55, DEDUCED). -/
def placeElems (c : Nat) : List (List Byte) → State → State × Nat
  | [], s => (s, 0)
  | b :: l, s =>
    let r := s.placeElem c b
    let q := placeElems c l r.1
    (q.1, q.2 + b2n r.2)

/-- CAN_TX: RESULT holds the elements placed and refused. -/
def canTxBody (p : Packet) (id : Nat) (s : State) : State :=
  let l := s.canTxElems p
  let r := placeElems p.target l s
  r.1.finish id (if r.2 < l.length then csClamped else csDone) (r.2 % 2 ^ 16 + 2 ^ 16 * ((l.length - r.2) % 2 ^ 16))

/-- The checks of CAN_TX. -/
def canTxRule (p : Packet) (s : State) : Rule where
  op := ⟨9, 1⟩
  format := pTargetBits p 3 && decide (0 < p.payload.length ∧ p.payload.length % s.canSlot p.target = 0) &&
    (s.canTxElems p).all (s.canElemOk p.target)
  permit := s.canPart p.target == p.partition
  fn := some (fnCan, some p.target)

/-- CAN_TX (R431). -/
def execCanTx (p : Packet) (s : State) : Host.Outcome State Fault Refusal :=
  .next (runPacket (.canTx p) (canTxRule p s) p (canTxBody p) s)

/-- The elements of a FIFO in order, as a packet returns them. -/
def State.fifoElems (s : State) (c fifo n : Nat) : List Byte :=
  (List.range n).flatMap (fun i =>
    padTo (s.canSlot c) (s.canBytes c (s.canFifo c fifo ((s.fifoRead c fifo + i) % max 1 (s.canNrx c fifo))) 0 (s.canElem c)))

/-- CAN_RX returns elements and releases them (see log entry 55, DEDUCED). -/
def canRxBody (p : Packet) (id : Nat) (s : State) : State :=
  let c := p.target % 8
  let fifo := bitsOf p.target 8 8
  let n := min (pNum p 0 4) (s.fifoFill c fifo)
  (s.releaseFifo c fifo n).finish id csDone n (s.fifoElems c fifo n)

/-- The checks of CAN_RX. -/
def canRxRule (p : Packet) (s : State) : Rule where
  op := ⟨9, 2⟩
  format := p.target % 256 < 8 && pTargetBits p 9 && p.plen == 1 && pZero p 4 32
  ext := min (pNum p 0 4) (s.fifoFill (p.target % 8) (bitsOf p.target 8 8)) * s.canSlot (p.target % 8) / 32
  permit := s.canPart (p.target % 8) == p.partition
  fn := some (fnCan, some (p.target % 8))

/-- CAN_RX (R431). -/
def execCanRx (p : Packet) (s : State) : Host.Outcome State Fault Refusal :=
  .next (runPacket (.canRx p) (canRxRule p s) p (canRxBody p) s)

/-! Time-triggered operation (R428 to R430). -/

/-- Basic cycles of the matrix. -/
def State.ttCycles (s : State) (c : Nat) : Nat := 2 ^ min 6 (s.fld F.CAN_TTCFG_CYCLE_MAX c)

/-- R428: the cycle count of the next basic cycle. -/
def State.nextCycle (s : State) (c : Nat) : Nat :=
  if (s.canCtl c).synced then (s.fld F.CAN_TTSTAT_CYCLE c + 1) % s.ttCycles c else 0

/-- R429: the controller requests its reference message at a cycle start: it is a potential time master and may send. -/
def State.refRequest (s : State) (c : Nat) : Bool := s.flag F.CAN_TTCFG_TTROLE c && s.canSends c

/-- CAN_TT_CYCLE_START (R428, R429): a reference message with its identifier and cycle count starts a basic cycle. A potential master's own
request has won where the identifier is its own; else it is withdrawn (see log entry 57, DEDUCED). -/
def execCanTtCycleStart (c refId cycle : Nat) (s : State) : Host.Outcome State Fault Refusal :=
  .next (
    if s.canLive c && s.flag F.CAN_CTL_TT c then
      let t := s.closeWindow c
      let asks := t.refRequest c
      let won := asks && refId == s.fld F.CAN_TTCFG_REF_ID c
      let n := if won then s.nextCycle c else cycle % 64
      let t := if s.ttCycles c ≤ n ∨ ((s.canCtl c).synced ∧ n ≠ s.nextCycle c) then t.ttError c 2 else t
      let role := if s.flag F.CAN_TTCFG_TTROLE c then (if won then 2 else 1) else 0
      let t := (t.putFld F.CAN_TTSTAT_CYCLE (n % s.ttCycles c) c).putFld F.CAN_TTSTAT_MASTER role c
      let t := if asks && !(s.canCtl c).refReq then t.send (.canReference c (s.fld F.CAN_TTCFG_REF_ID c) (s.nextCycle c)) else t
      t.setCan c { t.canCtl c with synced := true, refReq := false, refFails := if won then 0 else (t.canCtl c).refFails }
    else s)

/-- CAN_TT_COLUMN (R428): a column's mark is reached (see log entry 57, DEDUCED). -/
def execCanTtColumn (c j : Nat) (s : State) : Host.Outcome State Fault Refusal :=
  .next (
    if s.canLive c && s.flag F.CAN_CTL_TT c && decide (j < 32) then
      let w := s.reg .CAN_TTCELL c (32 * s.fld F.CAN_TTSTAT_CYCLE c + j)
      if cellType w = cellMerged then s else (s.closeWindow c).openWindow c w
    else s)

/-- CAN_TT_REF_TIMEOUT (R429, R430): no reference message for a cycle; a potential master requests its own. -/
def execCanTtRefTimeout (c : Nat) (s : State) : Host.Outcome State Fault Refusal :=
  .next (
    if s.canLive c && s.flag F.CAN_CTL_TT c then
      let t := s.ttError c 2
      if s.refRequest c then
        (t.setCan c { t.canCtl c with refReq := true }).send (.canReference c (s.fld F.CAN_TTCFG_REF_ID c) (s.nextCycle c))
      else t
    else s)

/-! Stopping and starting a controller (R427). -/

/-- Bus integration done: the schedule and its errors start afresh, and what is pending goes first. -/
def State.startCan (s : State) (c : Nat) : State :=
  let x := s.canCtl c
  (((s.setReg .CAN_TTSTAT 0 c).setReg .CAN_ERR 0 c).setCan c
    { x with started := [], onBus := none, recovering := false, window := 0, due := false, synced := false, refReq := false, refFails := 0 }).canStart c

end Sys2Proof.Machine
end

