-- ==== Sys2Proof/Machine/Chronometer.lean ====
section
/-! DEFINITION. The Chronometer, its gPTP domains and its servo (file 13: R392 to R406). -/

namespace Sys2Proof.Machine

/-! Domains. -/

/-- The state of a domain: 0 is A, 1 is B. -/
def Chr.dom (x : Chr) (d : Nat) : ChrDom := if d = 0 then x.a else x.b
def State.setDom (s : State) (d : Nat) (x : ChrDom) : State :=
  { s with chr := if d = 0 then { s.chr with a := x } else { s.chr with b := x } }

/-- Table CHR-2. -/
abbrev chrUnset : Nat := 0
abbrev chrHoldover : Nat := 3

def State.chrState (s : State) : Nat := s.fld F.CHR_STATUS_STATE

/-- The domain followed. -/
def State.followed (s : State) : Option Nat :=
  match s.chrState with
  | 1 => some 0
  | 2 => some 1
  | _ => none

/-- R399: a domain is qualified. -/
def State.qualified (s : State) (d : Nat) : Bool := s.flag F.CHR_DOMSTAT_QUALIFIED d

/-- RCOSC is the active clock source. -/
def State.onRcosc (s : State) : Bool := s.fld F.CLK_STATUS_ACTIVE == 2

/-- A domain's offset in 1/16 ns, and JUMP_NS in the same units. -/
def State.domOffset (s : State) (d : Nat) : Int := signedOf 64 (s.reg .CHR_DOMOFF d)
def State.jump16 (s : State) : Int := (s.reg .CHR_JUMP : Int) * 16

/-- R403: the offset is beyond JUMP_NS. -/
def State.beyondJump (s : State) (x : Int) : Bool := decide (s.jump16 < x.natAbs)

/-- R400: the rank of A's grandmaster lies below B's: the first field that differs is higher. -/
def ranksBelow : List Nat → List Nat → Bool
  | x :: xs, y :: ys => decide (y < x) || (x == y && ranksBelow xs ys)
  | _, _ => false

/-! State changes (R400 to R404). -/

/-- R402: no domain is followed. -/
def State.toHoldover (s : State) : State :=
  (((s.putFld F.CHR_STATUS_STATE chrHoldover).putFld F.CHR_STATUS_SLEWING 0).setFlag F.CHR_EVENTS_HOLDOVER).anyEvent 0x0B 0x0011

/-- No correction is pending. -/
def State.dropPending (s : State) : State :=
  { s.putFld F.CHR_STATUS_JUMP_PENDING 0 with chr := { s.chr with pendingDom := none } }

/-- CHR_PENDING holds a domain's offset in ns (see log entry 59, DEDUCED). -/
def State.showPending (s : State) (d : Nat) : State := s.setReg .CHR_PENDING (ofSigned 64 (s.domOffset d / 16))

/-- R403: a correction is refused: HOLDOVER, with the domain pending. -/
def State.refuseJump (s : State) (d : Nat) : State :=
  let t := ((s.putFld F.CHR_STATUS_STATE chrHoldover).putFld F.CHR_STATUS_SLEWING 0).putFld F.CHR_STATUS_JUMP_PENDING 1
  let t := ({ t with chr := { t.chr with pendingDom := some d } }.showPending d).setFlag F.CHR_EVENTS_JUMP_REFUSED
  t.anyEvent 0x0B 0x0012

/-- R401: the domain is followed, its offset to be slewed away. -/
def State.switchTo (s : State) (d : Nat) : State :=
  let t := (s.dropPending.putFld F.CHR_STATUS_STATE (1 + d)).putFld F.CHR_STATUS_SLEWING (b2n (decide (16 ≤ (s.domOffset d).natAbs)))
  let t := { t with chr := { t.chr with slewLeft := 2 ^ 28 * s.domOffset d } }
  (((t.setDom d { t.chr.dom d with beyond := 0 }).setFlag F.CHR_EVENTS_SWITCH).anyEvent 0x0B 0x0010)

/-- The count changed by Δ ns; both domains' offsets from it change with it, and a stamp taken before it keeps its time scale (R396). -/
def State.moveCount (s : State) (delta : Int) : State :=
  let l := s.chr.steps.filter (fun e => decide (s.dev.nowNs < e.1 + 2000000000)) ++ [(s.dev.nowNs, delta)]
  let t := { s with chr := { s.chr with steps := l } }.setReg .CHR_TIME (ofSigned 64 (s.reg .CHR_TIME + delta))
  (t.setReg .CHR_DOMOFF (ofSigned 64 (s.domOffset 0 - 16 * delta)) 0).setReg .CHR_DOMOFF (ofSigned 64 (s.domOffset 1 - 16 * delta)) 1

/-- R404: the count takes the domain's time. -/
def State.acquire (s : State) (d : Nat) : State :=
  ((((s.moveCount (s.domOffset d / 16)).putFld F.CHR_STATUS_STATE (1 + d)).setFlag F.CHR_EVENTS_ACQUIRED).anyEvent 0x0B 0x0014)

/-- R401 to R404: the Chronometer turns to a domain (see log entry 59, DEDUCED). -/
def State.follow (s : State) (d : Nat) : State :=
  if s.onRcosc then s
  else if s.chrState = chrUnset then (if s.flag F.CHR_CFG_ACQUIRE then s.acquire d else s)
  else if s.beyondJump (s.domOffset d) then s.refuseJump d
  else s.switchTo d

/-- R400, R402: what is followed when nothing is: A while it is qualified, else B. A refused correction waits for its command, unless
another domain qualifies (see log entry 59, DEDUCED). -/
def State.seek (s : State) : State :=
  if s.followed.isSome ∨ s.flag F.CHR_STATUS_JUMP_PENDING then s
  else if s.qualified 0 then s.follow 0
  else if s.qualified 1 then s.follow 1
  else s

/-- CHR_STATUS and CHR_DOMSTAT show whether a domain is qualified. -/
def State.showQualified (s : State) (d : Nat) (on : Bool) : State :=
  (s.putFld F.CHR_DOMSTAT_QUALIFIED (b2n on) d).putFld (if d = 0 then F.CHR_STATUS_QUAL_A else F.CHR_STATUS_QUAL_B) (b2n on)

/-- R399: a domain with an Announce and 4 Syncs in a row is qualified. -/
def State.judgeDomain (s : State) (d : Nat) : State :=
  let x := s.chr.dom d
  if x.announced && decide (4 ≤ x.syncs) && !s.qualified d then s.showQualified d true else s

/-- R402: after a message of a domain that may have qualified it. -/
def State.seekAfter (s : State) (was : Bool) (d : Nat) : State :=
  if s.followed = none ∧ s.qualified d = true ∧ was = false then
    (if s.flag F.CHR_STATUS_JUMP_PENDING then s.follow d else s.seek)
  else s.seek

/-- R400, R402: a domain stops being qualified (see log entry 59, DEDUCED). -/
def State.loseDomain (s : State) (d : Nat) : State :=
  let t := (s.showQualified d false).setDom d { (s.chr.dom d) with announced := false, syncs := 0, lastSeq := none, below := 0, beyond := 0 }
  let t := if s.chr.pendingDom = some d then t.dropPending else t
  if s.followed = some d then
    (if t.qualified (1 - d) then t.follow (1 - d) else t.toHoldover)
  else t.seek

/-- The block tracks a domain: FN_CHR runs, the domain is enabled and its port accepts work (see log entry 58, DESIGN CHOICE). -/
def State.tracks (s : State) (d : Nat) : Bool :=
  decide (d < 2) && s.fnUsable fnChr && s.flag F.CHR_DOMCFG_EN d && s.unitUsable fnEth (s.fld F.CHR_DOMCFG_PORT d)

/-! Messages (R398 to R403). -/

/-- R392: CHR_RATE, held within ±4,194,304. -/
def State.setRate (s : State) (r : Int) : State := s.setReg .CHR_RATE (ofSigned 32 (clampInt (-4194304) 4194304 r))

/-- R392, R399, R401: the servo at a Sync: a slew goes on with the offset that the Sync shows, or is over; else the servo's rate word
(see log entry 58, DESIGN CHOICE). -/
def State.servo (s : State) (d : Nat) : State :=
  let ratio := signedOf 32 (s.reg .CHR_DOMRATE d)
  let t := { s with chr := { s.chr with slewLeft := 2 ^ 28 * s.domOffset d } }
  if s.flag F.CHR_STATUS_SLEWING = false then s.setRate (Config.servoRate (s.domOffset d) ratio (signedOf 32 (s.reg .CHR_RATE)))
  else if (s.domOffset d).natAbs < 16 then (t.setRate ratio).putFld F.CHR_STATUS_SLEWING 0
  else t

/-- R399, R403: a Sync of the followed domain: a correction, an outlier, or the refusal of the 4th in a row
(see log entry 58, DESIGN CHOICE; log entry 59, DEDUCED). -/
def State.correct (s : State) (d : Nat) : State :=
  let x := s.chr.dom d
  if s.beyondJump (s.domOffset d) then
    let t := s.setDom d { x with beyond := x.beyond + 1 }
    if x.beyond < 3 then t.addFld F.CHR_DOMSTAT_OUTLIERS 1 d else t.refuseJump d
  else (s.setDom d { x with beyond := 0 }).servo d

/-- R398: the domains that a message belongs to: those tracked on its port with its domainNumber, its interval a supported one. -/
def State.domainsOf (s : State) (x : PtpMsg) : List Nat :=
  [0, 1].filter (fun d => s.tracks d && s.fld F.CHR_DOMCFG_PORT d == x.port && s.fld F.CHR_DOMCFG_DOMAIN d == x.domain &&
    decide (-7 ≤ x.interval ∧ x.interval ≤ 3))

/-- R398: the mean link delay of a port, shared by both domains, in 1/16 ns. -/
def State.linkDelay (s : State) (port : Nat) : Nat := ((s.chr.delays.find? (fun e => e.1 == port)).map (·.2)).getD 0

/-- R399: a Sync's offset and rate ratio are a domain's, and it counts in the row of Syncs. -/
def State.noteSync (s : State) (d : Nat) (x : PtpMsg) (offset ratio : Int) : State :=
  let t := (s.setReg .CHR_DOMOFF (ofSigned 64 (offset + s.linkDelay x.port)) d).setReg .CHR_DOMRATE (ofSigned 32 ratio) d
  let c := t.chr.dom d
  let n := if c.lastSeq.all (fun k => (k + 1) % 65536 == x.seq % 65536) then c.syncs + 1 else 1
  (t.setDom d { c with syncs := n, lastSeq := some (x.seq % 65536) }).judgeDomain d

/-- R399 to R403: a Sync of a domain. -/
def State.takeSync (x : PtpMsg) (offset ratio : Int) (s : State) (d : Nat) : State :=
  let t := s.noteSync d x offset ratio
  if s.followed = some d then (if s.onRcosc then t else t.correct d)
  else if s.chr.pendingDom = some d then t.showPending d
  else t.seekAfter (s.qualified d) d

/-- PTP_SYNC (R398, R399): a Sync's offset before the link delay (domain time − Chronometer, 1/16 ns) and rate ratio. -/
def execPtpSync (x : PtpMsg) (offset ratio : Int) (s : State) : Host.Outcome State Fault Refusal :=
  .next ((s.domainsOf x).foldl (State.takeSync x offset ratio) s)

/-- R400: at an Announce of A its grandmaster's rank is compared with B's. -/
def State.judgeRank (s : State) : State :=
  let x := s.chr.a
  let n := if s.qualified 1 && ranksBelow x.rank s.chr.b.rank then x.below + 1 else 0
  let t := s.setDom 0 { x with below := n }
  if 2 ≤ n ∧ s.followed = some 0 then t.follow 1 else t

/-- R399, R400: an Announce of a domain. -/
def State.takeAnnounce (rank : List Nat) (s : State) (d : Nat) : State :=
  let t := (s.putFld F.CHR_DOMSTAT_MISSED 0 d).putFld F.CHR_DOMSTAT_CLOCK_CLASS (rank.getD 1 0) d
  let t := (t.setDom d { t.chr.dom d with announced := true, rank := rank }).judgeDomain d
  (if d = 0 then t.judgeRank else t).seekAfter (s.qualified d) d

/-- PTP_ANNOUNCE (R398 to R400): the grandmaster's priority1, clockClass, clockAccuracy, offsetScaledLogVariance, priority2 and
clockIdentity. -/
def execPtpAnnounce (x : PtpMsg) (rank : List Nat) (s : State) : Host.Outcome State Fault Refusal :=
  .next ((s.domainsOf x).foldl (State.takeAnnounce rank) s)

/-- PTP_PDELAY (R398): the mean link delay of a port in 1/16 ns. -/
def execPtpPdelay (port delay : Nat) (s : State) : Host.Outcome State Fault Refusal :=
  .next (if s.fnUsable fnChr then
      let l := s.chr.delays.filter (fun (e : Nat × Nat) => e.1 != port) ++ [(port, delay)]
      { s with chr := { s.chr with delays := l } }
    else s)

/-- ANNOUNCE_TIMEOUT (R399): announce intervals that passed in a row without an Announce; the third disqualifies the domain
(see log entry 59, DEDUCED). -/
def execAnnounceTimeout (d missed : Nat) (s : State) : Host.Outcome State Fault Refusal :=
  .next (
    if 2 ≤ d ∨ s.fnUsable fnChr = false then s
    else
      let t := s.putFld F.CHR_DOMSTAT_MISSED (min 3 missed) d
      if 3 ≤ missed then t.loseDomain d else t)

/-- REVERT_TIMER (R400): A has been qualified and ranked no lower than B for REVERT_S seconds. -/
def execRevertTimer (s : State) : Host.Outcome State Fault Refusal :=
  .next (if s.flag F.CHR_CFG_REVERT && s.followed == some 1 && s.qualified 0 && !ranksBelow s.chr.a.rank s.chr.b.rank then s.follow 0 else s)

/-! Commands (R393, R405). -/

/-- The checks of CHR_READ. -/
def chrReadRule (p : Packet) : Rule where
  op := ⟨9, 0x20⟩
  format := p.target == 0 && p.plen == 0
  fn := some (fnChr, none)

/-- CHR_READ (R393): RESULT is the time. -/
def execChrRead (p : Packet) (s : State) : Host.Outcome State Fault Refusal :=
  .next (runPacket (.chrRead p) (chrReadRule p) p
    (fun id t => t.finish id csDone t.time) s)

/-- R377, R406: the set-points of an axis that a step has put into the past are late. -/
def State.motStepCheck (s : State) (before : Nat) : State :=
  (List.range 16).foldl (fun t a => ((t.ax a).queue.filter (fun e => decide (before < e.time))).foldl (fun u e => u.noteLate a e) t) s

/-- R405, R406: a step of the count, with the set-points and CAN elements that it makes late; a phase that it passes has no edge
(see log entry 59, DEDUCED). -/
def State.stepCount (s : State) (delta : Int) : State :=
  let t := ((s.moveCount delta).addReg .CHR_STEPCNT 32 1).setFlag F.CHR_EVENTS_STEPPED
  ((t.dataEvent 0x0B 0x0013 (ofSigned 64 delta)).motStepCheck s.time).canStepCheck

/-- R405: the step needs FORCE and does not have it. -/
def State.needsForce (s : State) (p : Packet) (delta : Int) : Bool :=
  decide ((s.reg .CHR_JUMP : Int) < delta.natAbs) && !p.flags.testBit 4 && s.chrState != chrUnset

/-- R405: the modes of a CHR_STEP packet. -/
def chrStepBody (p : Packet) (id : Nat) (s : State) : State :=
  match pNum p 0 1 with
  | 0 =>
    match s.chr.pendingDom with
    | some d =>
      let delta := signedOf 64 (s.reg .CHR_PENDING)
      let t := (s.stepCount delta).dropPending
      let t := t.setDom d { t.chr.dom d with beyond := 0 }
      (if s.onRcosc then t else t.putFld F.CHR_STATUS_STATE (1 + d)).finish id csDone (ofSigned 64 delta)
    | none => s.finish id csState 0
  | 1 =>
    let delta := signedOf 64 (pNum p 8 8)
    if s.needsForce p delta then s.finish id csTimeJump 0 else (s.stepCount delta).finish id csDone (ofSigned 64 delta)
  | _ =>
    let delta : Int := (pNum p 8 8 : Int) - s.time
    if s.needsForce p delta then s.finish id csTimeJump 0
    else
      let t := s.stepCount delta
      (if s.chrState = chrUnset then t.toHoldover.seek else t).finish id csDone (ofSigned 64 delta)

/-- Table NET-1: the rule of CHR_STEP. -/
def chrStepRule (p : Packet) : Rule where
  op := ⟨9, 0x21⟩
  opf := 1
  format := p.target == 0 && p.plen == 1 && decide (pNum p 0 1 ≤ 2) && pZero p 1 8 && pZero p 16 32
  p0 := true
  fn := some (fnChr, none)

/-- APPLY_PENDING (R405): mode 0. -/
def execApplyPending (p : Packet) (s : State) : Host.Outcome State Fault Refusal :=
  .next (runPacket (.applyPending p) (chrStepRule p) p (chrStepBody p) s)

/-- CHR_STEP (R405): mode 1. -/
def execChrStep (p : Packet) (s : State) : Host.Outcome State Fault Refusal :=
  .next (runPacket (.chrStep p) (chrStepRule p) p (chrStepBody p) s)

/-- CHR_SET (R404, R405): mode 2. -/
def execChrSet (p : Packet) (s : State) : Host.Outcome State Fault Refusal :=
  .next (runPacket (.chrSet p) (chrStepRule p) p (chrStepBody p) s)

/-! The count (R392, R393, R396). -/

/-- R396: a 32-bit stamp extended with a full read of CHR_TIME taken within 2 s of it. -/
def extendStamp (stamp full : Nat) : Int :=
  let d : Int := ((stamp : Int) - (full % 2 ^ 32 : Nat)) % 2 ^ 32
  full + (if 2 ^ 31 ≤ d then d - 2 ^ 32 else d)

/-- R401: the rate word of a slew: beyond the followed domain's rate ratio by at most 10 ppm, towards its time. -/
def State.slewWord (s : State) : Int :=
  let n : Int := (Config.slewStep s.chr.slewLeft).val + 1
  signedOf 32 (s.reg .CHR_DOMRATE (s.followed.getD 0)) + (if 0 ≤ s.chr.slewLeft then n else -n)

/-- R401: a slew sets the rate until it has removed the offset; then the rate is the domain's (see log entry 58, DESIGN CHOICE). -/
def State.slew (s : State) : State :=
  if s.flag F.CHR_STATUS_SLEWING then
    let ratio := signedOf 32 (s.reg .CHR_DOMRATE (s.followed.getD 0))
    let left := s.chr.slewLeft - (s.slewWord - ratio)
    let done := decide (left = 0 ∨ (0 < left) ≠ (0 < s.chr.slewLeft))
    let t := { s with chr := { s.chr with slewLeft := if done then 0 else left } }
    if done then (t.setRate ratio).putFld F.CHR_STATUS_SLEWING 0 else t.setRate s.slewWord
  else s

/-- R392, R43: the CLK_CHR edge of one ns, where there was one since the edge count was e (see log entry 21, DEDUCED). -/
def State.chrTick (s : State) (e : Nat) : State :=
  if s.fnUsable fnChr ∧ e < s.clk.edges then
    let n := (2 ^ 32 * (s.reg .CHR_TIME : Int) + s.chr.frac + 2 ^ 32 + signedOf 32 (s.reg .CHR_RATE)) % 2 ^ 96
    ({ s.setReg .CHR_TIME (n.toNat / 2 ^ 32) with chr := { s.chr with frac := n.toNat % 2 ^ 32 } }).slew
  else s

/-- R402: while RCOSC is the active source the state is HOLDOVER. -/
def State.chrRcosc (s : State) : State :=
  if s.fnUsable fnChr ∧ s.chrState ≠ chrHoldover then s.toHoldover else s

/-- R393: FN_CHR reads READY: the count starts from 0 in state UNSET, on RCOSC in HOLDOVER. -/
def State.chrReady (s : State) : State :=
  let t := ({ s with chr := { readyNs := some s.dev.nowNs } }.setReg .CHR_TIME 0).setReg .CHR_STATUS 0
  let t := ((t.setReg .CHR_RATE 0).setReg .CHR_DOMSTAT 0 0).setReg .CHR_DOMSTAT 0 1
  if s.onRcosc then t.chrRcosc else t

end Sys2Proof.Machine
end

