-- ==== Sys2Proof/Machine/Ethernet.lean ====
section
/-! DEFINITION. The Ethernet ports (file 13: R407 to R417, R433). -/

namespace Sys2Proof.Machine

def State.ethPort (s : State) (p : Nat) : EthPort := s.eth.getD p {}
def State.setEth (s : State) (p : Nat) (x : EthPort) : State := { s with eth := s.eth.set p x }

/-! Rings (R410). -/

/-- The partition and the size of a port's ring, and whether it is enabled. -/
def State.ringPart (s : State) (p q : Nat) : Nat := s.fld F.ETH_RCFG_PARTITION p q
def State.ringSize (s : State) (p q : Nat) : Nat := 2 ^ s.fld F.ETH_RCFG_SIZE_LOG2 p q
def State.ringOn (s : State) (p q : Nat) : Bool := s.flag F.ETH_RCFG_EN p q

/-- The address of a slot of a ring. -/
def State.ethSlotAddr (s : State) (p q i : Nat) : Nat := s.fld F.ETH_RBASE_BASE p q * 4096 + i % s.ringSize p q * 32

/-- Slots handed over and not consumed. -/
def State.ringAvail (s : State) (p q : Nat) : Nat := (s.reg .ETH_RDB p q + 2 ^ 32 - s.reg .ETH_RHEAD p q) % 2 ^ 32

/-- A ring's slot is consumed and its interrupt raised: to the application cores where its vector is routed, else as MSI-X. -/
def State.ringNext (s : State) (p q : Nat) : State :=
  let part := s.ringPart p q
  let v := s.fld F.ETH_RCFG_IRQ_VEC p q
  let t := s.setReg .ETH_RHEAD ((s.reg .ETH_RHEAD p q + 1) % 2 ^ 32) p q
  if s.flag F.ETH_RCFG_IRQ_EN p q then t.raise v (if s.routed part v then 0 else 1) part else t

/-- R119: a ring's accesses carry class 0x9; a denied one is recorded. -/
def State.ethCheck (s : State) (part a n : Nat) (write : Bool) : State × Bool :=
  let i := initiator 9 part
  if s.memOk i a n write then ((if write then s else s.charge i a n).keyed i, true) else ((s.keyed i).recordDenial i a n write, false)

/-- A ring's write; a denied one has no effect. -/
def State.ethWrite (s : State) (part a : Nat) (bs : List Byte) : State :=
  let r := s.ethCheck part a bs.length true
  if r.2 then r.1.writeBytes a bs else r.1

/-! Links (R407, R413). -/

/-- Table ETH-1: the speed of a port in its MAC's mode; 0 for a port that the mode does not have. -/
def State.ethSpeed (s : State) (p : Nat) : Nat :=
  if p = 8 then 1
  else
    let mode := if p < 4 then s.fld F.ETH_MACCFG_MODE0 else s.fld F.ETH_MACCFG_MODE1
    match mode with
    | 0 => if p % 4 = 0 then 4 else 0
    | 1 => if p % 2 = 0 then 3 else 0
    | 2 => 2
    | _ => 0

/-- ETH_LINK_UP (R407): a port of its MAC's mode comes up; where preemption is requested it is verified unless the verification fails
(see log entry 61, DEDUCED). -/
def execEthLinkUp (port : Nat) (s : State) : Host.Outcome State Fault Refusal :=
  .next (
    if port < 9 ∧ s.unitUsable fnEth port ∧ s.ethSpeed port ≠ 0 ∧ s.mayDrive fnEth port = true then
      let t := (s.putFld F.ETH_PSTAT_LINK 1 port).putFld F.ETH_PSTAT_SPEED (s.ethSpeed port) port
      let t := (t.putFld F.ETH_PREEMPT_VERIFY_FAIL 0 port).putFld F.ETH_PSTAT_PREEMPT (b2n (port != 8 && s.flag F.ETH_PREEMPT_EN port)) port
      t.event 0x0B 0x0001 port
    else s)

/-- ETH_LINK_DOWN (R407). -/
def execEthLinkDown (port : Nat) (s : State) : Host.Outcome State Fault Refusal :=
  .next (
    if port < 9 ∧ s.flag F.ETH_PSTAT_LINK port then
      (((s.putFld F.ETH_PSTAT_LINK 0 port).putFld F.ETH_PSTAT_SPEED 0 port).putFld F.ETH_PSTAT_PREEMPT 0 port).event 0x0B 0x0002 port
    else s)

/-- ETH_PREEMPT_VERIFY_FAIL (R413): preemption is off. -/
def execEthPreemptVerifyFail (port : Nat) (s : State) : Host.Outcome State Fault Refusal :=
  .next (
    if port < 8 ∧ s.flag F.ETH_PREEMPT_EN port then
      ((s.putFld F.ETH_PSTAT_PREEMPT 0 port).setFlag F.ETH_PREEMPT_VERIFY_FAIL port).event 0x0B 0x0004 port
    else s)

/-! Receiving (R408 to R410). -/

/-- A big-endian 16-bit field of a frame. -/
def be16 (b : List Byte) (off : Nat) : Nat := (b.getD off 0).toNat * 256 + (b.getD (off + 1) 0).toNat

/-- The frame carries an IEEE 802.1Q tag; its tag control information, or 0; its EtherType and where its content starts. -/
def isTagged (b : List Byte) : Bool := be16 b 12 == 0x8100
def tagOf (b : List Byte) : Nat := if isTagged b then be16 b 14 else 0
def typeAt (b : List Byte) : Nat := if isTagged b then 16 else 12
def etherType (b : List Byte) : Nat := be16 b (typeAt b)

/-- The UDP destination port of a frame over IPv4 or IPv6 (see log entry 60, DEDUCED). -/
def udpPort (b : List Byte) : Option Nat :=
  let a := typeAt b + 2
  match etherType b with
  | 0x0800 => if (b.getD (a + 9) 0).toNat = 17 then some (be16 b (a + (b.getD a 0).toNat % 16 * 4 + 2)) else none
  | 0x86DD => if (b.getD (a + 6) 0).toNat = 17 then some (be16 b (a + 40 + 2)) else none
  | _ => none

/-- R99, R323: the UDP ports that the command engine and the heartbeat logic take (see log entry 60, DEDUCED). -/
def State.deviceUdp (s : State) : List Nat := s.dev.settings.elim [47011] (·.udpPorts)

/-- R323, R409: the frame is a heartbeat: it comes on the heartbeats' MAC, to their IPv6 multicast address and UDP port. -/
def State.heartbeatFrame (s : State) (x : EthRx) : Bool :=
  let a := typeAt x.data + 2
  (s.dev.settings.bind (·.heartbeatTo)).any (fun e => e.1 == x.port && etherType x.data == 0x86DD && udpPort x.data == some e.2.2 &&
    leNat ((x.data.drop (a + 24)).take 16).reverse == e.2.1)

/-- R409: the Chronometer, the command engine or the heartbeat logic takes the frame (see log entry 60, DEDUCED). -/
def State.consumed (s : State) (x : EthRx) : Bool :=
  (etherType x.data == 0x88F7 && (List.range 2).any (fun d => s.flag F.CHR_DOMCFG_EN d && s.fld F.CHR_DOMCFG_PORT d == x.port)) ||
    (udpPort x.data).any s.deviceUdp.contains || s.heartbeatFrame x

/-! Stream filters (R416). -/

/-- A MAC address of a frame: the destination at 0, the source at 6. -/
def macAt (b : List Byte) (off : Nat) : Nat := leNat ((b.drop off).take 6).reverse

/-- R416: a filter identifies a frame by its destination or source MAC and its VLAN ID. -/
def streamMatch (f : Config.StreamFilter) (b : List Byte) : Bool :=
  f.used && macAt b (if f.bySource then 6 else 0) == f.mac && tagOf b % 4096 == f.vid

/-- The stream filter i of a port. -/
def State.streamFilter (s : State) (p i : Nat) : Config.StreamFilter :=
  Config.streamFilter (s.reg .ETH_FILTER p (2 * i)) (s.reg .ETH_FILTER p (2 * i + 1))

/-- R416: the first filter of a data port that identifies a frame (see log entry 115, DESIGN CHOICE). -/
def State.streamOf (s : State) (x : EthRx) : Option (Nat × Config.StreamFilter) :=
  if x.port = 8 then none
  else ((List.range 128).find? (fun i => streamMatch (s.streamFilter x.port i) x.data)).map (fun i => (i, s.streamFilter x.port i))

/-- A gate's state at a place in its cycle; past its list it keeps the last entry's. -/
def gateState : List (Bool × Nat) → Bool → Nat → Bool
  | [], last, _ => last
  | (o, n) :: l, _, at_ => if at_ < n then o else gateState l o (at_ - n)

/-- R416: a stream gate is open at the Chronometer's time; one without a list is. -/
def State.streamOpen (s : State) (p g : Nat) : Bool :=
  match s.dev.settings.bind (fun x => x.streamGates.find? (fun e => e.1 == p && e.2.1 == g)) with
  | some (_, _, x) => gateState (x.entries.take 64) true (((s.time : Int) - x.base) % (max 1 x.cycle : Nat)).toNat
  | none => true

/-- R416: bytes of a frame's SDU: what follows its header (see log entry 115, DESIGN CHOICE). -/
def sduBytes (b : List Byte) : Nat := b.length - (typeAt b + 2)

/-- R416: a meter's tokens now, committed and excess, in 10^-9 bit (see log entry 117, PRESUMED). -/
def State.tokens (s : State) (p m : Nat) (x : FlowMeter) : Nat × Nat :=
  let full := (x.cbs * 8000000000, x.ebs * 8000000000)
  match (s.ethPort p).meters.find? (fun e => e.1 == m) with
  | some (_, c, e, at_) => (min full.1 (c + x.cir * (s.dev.nowNs - at_)), min full.2 (e + x.eir * (s.dev.nowNs - at_)))
  | none => full

/-- R416: a frame of n bytes at a meter: whether it is marked red, and the tokens that it leaves. -/
def State.meter (s : State) (p m n : Nat) : Bool × State :=
  match s.dev.settings.bind (fun x => x.flowMeters.find? (fun e => e.1 == p && e.2.1 == m)) with
  | some (_, _, x) =>
    let t := s.tokens p m x
    let need := n * 8000000000
    let left := if need ≤ t.1 then (t.1 - need, t.2) else if need ≤ t.2 then (t.1, t.2 - need) else t
    let y := s.ethPort p
    (decide (t.1 < need ∧ t.2 < need),
      s.setEth p { y with meters := y.meters.filter (fun e => e.1 != m) ++ [(m, left.1, left.2, s.dev.nowNs)] })
  | none => (false, s)

/-- R416: the filter of a frame drops it at its gate, at its maximum SDU size or at its meter. -/
def State.streamFiltered (s : State) (x : EthRx) : Bool × State :=
  match s.streamOf x with
  | some (_, f) =>
    if f.gate.any (fun g => !s.streamOpen x.port (g % 64)) ∨ (f.maxSdu ≠ 0 ∧ f.maxSdu < sduBytes x.data) then (true, s)
    else match f.meter with
      | some m => s.meter x.port (m % 64) x.data.length
      | none => (false, s)
  | none => (false, s)

/-- R409: the RX ring of a frame. -/
def State.rxRing (s : State) (x : EthRx) : Nat :=
  match (s.streamOf x).bind (fun e => e.2.ring) with
  | some q => q
  | none => if isTagged x.data then 8 + tagOf x.data / 8192 else 8

/-- R410: the rings that a port has. -/
def ringExists (p q : Nat) : Bool := if p = 8 then q == 0 || q == 8 else decide (q < 16)

/-- A frame that its ring cannot take. -/
def State.rxDrop (s : State) (p : Nat) : State := s.addFld F.ETH_CNT_RX_DROP 1 p

/-- R395, R417: the stamp of a frame received (see log entry 61, DEDUCED). -/
def State.rxStamp (s : State) (x : EthRx) : Nat := s.stamp (x.age + bitsOf (s.reg .ETH_TSCOMP x.port) 15 0)

/-- Table ETH-3: the fields written back to an RX slot, after BUF_LEN. -/
def State.rxSlot (s : State) (x : EthRx) : List Byte :=
  toLe 2 x.data.length ++ toLe 4 (s.rxStamp x) ++ toLe 2 (tagOf x.data) ++ toLe 2 (((s.streamOf x).map (·.1)).getD 0xFFFF) ++ toLe 8 0 ++
    toLe 4 (2 ^ 31)

/-- R410: a frame goes to a slot of its ring; one longer than the slot's buffer is dropped, as is one whose accesses are denied
(see log entry 61, DEDUCED). -/
def State.toRxRing (s : State) (x : EthRx) (q : Nat) : State :=
  let part := s.ringPart x.port q
  let a := s.ethSlotAddr x.port q (s.reg .ETH_RHEAD x.port q)
  let r := s.ethCheck part a 32 false
  if r.2 = false then r.1
  else
    let slot := r.1.bytes a 32
    if leAt slot 8 2 < x.data.length then r.1
    else
      let r := r.1.ethCheck part (leAt slot 0 8) (max 1 x.data.length) true
      if r.2 = false then r.1
      else ((r.1.writeBytes (leAt slot 0 8) x.data).ethWrite part (a + 0x0A) (s.rxSlot x)).ringNext x.port q

/-- ETH_RX_FRAME (R408, R409, R416). What the Chronometer, the command engine and the heartbeat logic do with their frames are commands of
their own (see log entry 60, DEDUCED). -/
def execEthRxFrame (x : EthRx) (s : State) : Host.Outcome State Fault Refusal :=
  .next (
    if 9 ≤ x.port ∨ s.unitUsable fnEth x.port = false then s
    else if x.fcsOk = false ∨ x.data.length < 60 ∨ 9212 < x.data.length then s.addFld F.ETH_CNT_FCS_ERR 1 x.port
    else if (s.streamFiltered x).1 then (s.streamFiltered x).2.addFld F.ETH_CNT_QCI_DROP 1 x.port
    else if s.consumed x then (s.streamFiltered x).2.acceptUnit fnEth x.port
    else
      let q := s.rxRing x
      let t := (s.streamFiltered x).2.acceptUnit fnEth x.port
      if q < 8 ∨ ringExists x.port q = false ∨ s.ringOn x.port q = false ∨ s.ringAvail x.port q = 0 then t.rxDrop x.port else t.toRxRing x q)

/-! Sending (R410, R411). -/

/-- A frame that joins its class. -/
def State.queueFrame (s : State) (p : Nat) (f : EthFrame) : State := s.setEth p { s.ethPort p with frames := (s.ethPort p).frames ++ [f] }

/-- Table NET-1: the header of an ETH_TX payload, TARGET and length. -/
def ethTxFormat (p : Packet) : Bool :=
  let n := pNum p 10 2
  let port := p.target % 16
  p.target &&& 0x70F == p.target && decide (port ≤ 8 ∧ 60 ≤ n ∧ n ≤ 9212 ∧ p.payload.length = roundUp (32 + n) 32) &&
    pNum p 8 2 < 4 && pZero p 12 32

/-- The frame that an ETH_TX queues. -/
def ethTxFrame (p : Packet) (id : Nat) : EthFrame where
  cls := bitsOf p.target 10 8
  flight := some id
  partition := p.partition
  data := bytesAt p.payload 32 (pNum p 10 2)
  len := pNum p 10 2
  flags := pNum p 8 2
  launch := pNum p 0 8

/-- The checks of ETH_TX. -/
def ethTxRule (p : Packet) (s : State) : Rule where
  op := ⟨9, 0x10⟩
  format := ethTxFormat p
  permit := s.ringOn (p.target % 16) (bitsOf p.target 10 8) && s.ringPart (p.target % 16) (bitsOf p.target 10 8) == p.partition &&
    (p.target % 16 != 8 || bitsOf p.target 10 8 == 0)
  fn := some (fnEth, some (p.target % 16))

/-- ETH_TX (R431): it completes when its frame has left or is dropped. -/
def execEthTx (p : Packet) (s : State) : Host.Outcome State Fault Refusal :=
  .next (runPacket (.ethTx p) (ethTxRule p s) p (fun id t => t.queueFrame (p.target % 16) (ethTxFrame p id)) s)

/-- Table ETH-2: a TX slot's frame. -/
def txSlotFrame (q part i : Nat) (b : List Byte) : EthFrame where
  cls := q
  partition := part
  slot := i
  buf := leAt b 0 8
  len := leAt b 8 2
  flags := leAt b 0x0A 2
  launch := leAt b 0x10 8

/-- The new slots of a TX ring join its class; a slot that cannot be read sends nothing. -/
def State.takeSlots (s : State) (p q : Nat) : Nat → Nat → State
  | 0, _ => s
  | n + 1, i =>
    let part := s.ringPart p q
    let r := s.ethCheck part (s.ethSlotAddr p q i) 32 false
    let b := if r.2 then r.1.bytes (s.ethSlotAddr p q i) 32 else List.replicate 32 0
    (r.1.queueFrame p (txSlotFrame q part i b)).takeSlots p q n ((i + 1) % 2 ^ 32)

/-- R410: an initiator's partition: 0 of a partition 0 initiator. -/
def initPart (i : Nat) : Nat := if isP0 i then 0 else iInst i

/-- ETH_RDB (R410): a doorbell hands slots over; one of another partition, of a ring that is off or that the port does not have, or past the
ring is ignored (see log entry 61, DEDUCED). -/
def execEthRdb (port q : Nat) (w : RegWrite) (s : State) : Host.Outcome State Fault Refusal :=
  .next (
    if 9 ≤ port ∨ 16 ≤ q then s.busErr
    else s.regWrite .ETH true (
      let tail := w.value % 2 ^ 32
      let old := s.reg .ETH_RDB port q
      if initPart w.initiator == s.ringPart port q && ringExists port q && s.ringOn port q && s.unitUsable fnEth port &&
          decide ((tail + 2 ^ 32 - s.reg .ETH_RHEAD port q) % 2 ^ 32 ≤ s.ringSize port q) then
        let t := (s.setReg .ETH_RDB tail port q).acceptUnit fnEth port
        if q < 8 then t.takeSlots port q ((tail + 2 ^ 32 - old) % 2 ^ 32) old else t
      else s))

/-! Gates (R412). -/

/-- The gates of the present entry: every gate is open without a list in force. -/
def EthPort.gateBits (x : EthPort) : Nat := if x.gates = [] then 255 else (x.gates.getD (x.entry % x.gates.length) (255, 0)).1

/-- A class's gate is open. -/
def State.gateOpen (s : State) (p cls : Nat) : Bool := !s.flag F.ETH_GCLCTL_EN p || (s.ethPort p).gateBits.testBit cls

/-- Bits per ns, times 10, of a port's speed. -/
def speedRate (speed : Nat) : Nat :=
  match speed with
  | 1 => 10
  | 2 => 250
  | 3 => 500
  | 4 => 1000
  | _ => 1

/-- The admin list as the registers hold it. -/
def State.adminList (s : State) (p : Nat) : List (Nat × Nat) :=
  (List.range (s.fld F.ETH_GCLCTL_LEN p)).map (fun i => (s.fld F.ETH_GCL_GATES p i, s.fld F.ETH_GCL_INTERVAL p i))

/-- The first entry of a list in a cycle that starts at a time; the last entry of a list lasts to the end of its cycle. -/
def EthPort.newCycle (x : EthPort) (start : Nat) : EthPort :=
  { x with entry := 0, cycleStart := start,
           entryEnd := if x.gates.length = 1 then start + x.cycle else start + min (x.gates.headD (0, 0)).2 x.cycle }

/-- The next entry, or the next cycle. -/
def EthPort.nextEntry (x : EthPort) : EthPort :=
  if x.entry + 1 < x.gates.length ∧ x.entryEnd < x.cycleStart + x.cycle then
    let n := x.entry + 1
    let e := if n + 1 = x.gates.length then x.cycleStart + x.cycle
      else min (x.entryEnd + (x.gates.getD n (0, 0)).2) (x.cycleStart + x.cycle)
    { x with entry := n, entryEnd := e }
  else x.newCycle (x.cycleStart + x.cycle)

/-- R412: an admin list takes over at a cycle start. -/
def EthPort.takeList (x : EthPort) (l : List (Nat × Nat)) (cycle start : Nat) : EthPort :=
  { x with gates := l, cycle := cycle, adminAt := none }.newCycle start

/-- When the present entry gives way: at its end, or where the admin list takes over before that. -/
def EthPort.endsAt (x : EthPort) : Nat :=
  match x.adminAt with
  | some a => if x.gates = [] then a else min a x.entryEnd
  | none => x.entryEnd

/-- What follows the present entry. -/
def EthPort.after (x : EthPort) (l : List (Nat × Nat)) (cycle : Nat) : EthPort :=
  match x.adminAt with
  | some a => if x.gates = [] ∨ a ≤ x.entryEnd then x.takeList l cycle a else x.nextEntry
  | none => x.nextEntry

/-- R412: when the gate of a class that is open closes, over at most n further entries. -/
def EthPort.closesAt (l : List (Nat × Nat)) (cycle cls : Nat) : Nat → EthPort → Nat
  | 0, x => x.endsAt
  | n + 1, x => if (x.after l cycle).gateBits.testBit cls then EthPort.closesAt l cycle cls n (x.after l cycle) else x.endsAt

/-- R412: the frame's last byte leaves before its gate closes. Preamble, SFD and FCS count (see log entry 61, DEDUCED). -/
def State.fitsGate (s : State) (p : Nat) (f : EthFrame) : Bool :=
  let x := s.ethPort p
  let l := if x.adminAt.isSome then s.adminList p else []
  let rate := speedRate (s.fld F.ETH_PSTAT_SPEED p)
  let ns := ((f.len + 12) * 80 + rate - 1) / rate
  s.gateOpen p f.cls && (!s.flag F.ETH_GCLCTL_EN p || (x.gates ++ l).all (fun g => g.1.testBit f.cls) ||
    decide (s.time + ns ≤ x.closesAt l (s.reg .ETH_GCLCYCLE p) f.cls (x.gates.length + l.length)))

/-- R412: the admin list takes over at a cycle start (see log entry 61, DEDUCED). -/
def State.takeAdmin (s : State) (p start : Nat) : State :=
  (s.setEth p ((s.ethPort p).takeList (s.adminList p) (s.reg .ETH_GCLCYCLE p) start)).putFld F.ETH_GCLCTL_PENDING 0 p

/-- GATE_INTERVAL (R412): an entry's interval ends: the admin list takes over where its time has come, else the next entry applies. -/
def execGateInterval (port : Nat) (s : State) : Host.Outcome State Fault Refusal :=
  .next (
    let x := s.ethPort port
    if 8 ≤ port ∨ s.flag F.ETH_GCLCTL_EN port = false then s
    else match x.adminAt with
      | some a => if a ≤ s.time then s.takeAdmin port a else if x.gates = [] ∨ s.time < x.entryEnd then s else s.setEth port x.nextEntry
      | none => if x.gates = [] ∨ s.time < x.entryEnd then s else s.setEth port x.nextEntry)

/-- R412: the first cycle start at or after AdminBaseTime; a base in the past is advanced by whole cycles. -/
def adminStart (base cycle now : Nat) : Nat := if now ≤ base then base else base + (now - base + cycle - 1) / cycle * cycle

/-- What a write of ETH_GCLCTL does: EN and LEN taken; CHANGE schedules the admin list. A LEN outside 1 to 256 or a cycle of 0 or above
1 s schedules nothing. -/
def State.writeGclctl (s : State) (p v : Nat) : State :=
  let t := (s.putFld F.ETH_GCLCTL_EN (bitsOf v 31 31) p).putFld F.ETH_GCLCTL_LEN (bitsOf v 8 0) p
  let t := if v.testBit 31 then t else t.setEth p { t.ethPort p with gates := [], entry := 0 }
  let c := s.reg .ETH_GCLCYCLE p
  if v.testBit 30 && decide (1 ≤ bitsOf v 8 0 ∧ bitsOf v 8 0 ≤ 256 ∧ 1 ≤ c ∧ c ≤ 1000000000) then
    (t.setEth p { t.ethPort p with adminAt := some (adminStart (s.reg .ETH_GCLBASE p) c s.time) }).putFld F.ETH_GCLCTL_PENDING 1 p
  else t

/-- GCL_CHANGE (R412): a write of ETH_GCLCTL with CHANGE set. -/
def execGclChange (port : Nat) (w : RegWrite) (s : State) : Host.Outcome State Fault Refusal :=
  .next (if 8 ≤ port then s.busErr
    else s.paramWrite (s.p0 w.initiator) .ETH_GCLCTL port 0 w.value w.initiator (s.writeGclctl port (w.value ||| 2 ^ 30)))

/-! Launching (R411 to R415). -/

/-- Table ETH-2: LAUNCH_EN and TS_REQ. -/
def launchEn (f : EthFrame) : Bool := f.flags.testBit 0
def tsReq (f : EthFrame) : Bool := f.flags.testBit 1

/-- R415: the frame could start only too late. -/
def State.pastLate (s : State) (p : Nat) (f : EthFrame) : Bool :=
  launchEn f && s.reg .ETH_LTCFG p != 0xFFFFFFFF && decide (f.launch + s.reg .ETH_LTCFG p < s.time)

/-- R413, R414: the class is preemptable. -/
def State.preemptable (s : State) (p cls : Nat) : Bool := s.flag F.ETH_PSTAT_PREEMPT p && (s.fld F.ETH_PREEMPT_MASK p).testBit cls

/-- R414: the port is idle, or its frame on the wire can be preempted by an express class. -/
def State.portFree (s : State) (p cls : Nat) : Bool :=
  match (s.ethPort p).sending with
  | [] => true
  | (f, _, _) :: l => l.isEmpty && s.preemptable p f.cls && !s.preemptable p cls

/-- R411, R412, R414: the head frame of a class may start now. -/
def State.mayStart (s : State) (p : Nat) (f : EthFrame) : Bool :=
  (!launchEn f || decide (f.launch ≤ s.time)) && !s.pastLate p f && s.fitsGate p f && s.portFree p f.cls

/-- The head frame of a class. -/
def EthPort.headOf (x : EthPort) (cls : Nat) : Option EthFrame := x.frames.find? (fun f => f.cls == cls)

/-- R411: the frame of the highest class that may start. -/
def State.nextFrame (s : State) (p : Nat) : Option EthFrame :=
  ([7, 6, 5, 4, 3, 2, 1, 0] : List Nat).findSome? (fun c => ((s.ethPort p).headOf c).bind (fun f => if s.mayStart p f then some f else none))

/-- A frame leaves its class. -/
def State.unqueue (s : State) (p : Nat) (f : EthFrame) : State := s.setEth p { s.ethPort p with frames := (s.ethPort p).frames.erase f }

/-- R410: the status of a ring frame, with the stamp where one was asked for. -/
def State.slotStatus (s : State) (p : Nat) (f : EthFrame) (code stamp : Nat) : State :=
  let a := s.ethSlotAddr p f.cls f.slot
  let t := if tsReq f then s.ethWrite f.partition (a + 0x1C) (toLe 4 stamp) else s
  (t.ethWrite f.partition (a + 0x18) (toLe 4 (2 ^ 31 + code))).ringNext p f.cls

/-- A frame goes on the wire with its bytes; its stamp is that of its SFD (see log entry 61, DEDUCED). -/
def State.onWire (s : State) (p : Nat) (f : EthFrame) (bs : List Byte) : State :=
  let t := s.unqueue p f
  let stamp := if s.fnUsable fnChr then (s.time + bitsOf (s.reg .ETH_TSCOMP p) 31 16) % 2 ^ 64 else 0
  t.setEth p { t.ethPort p with sending := (f, bs, stamp) :: (t.ethPort p).sending }

/-- A ring frame at the head of its class: its bytes are read; a denied read ends it FIREWALL, a length out of range with a status that
the manual does not give. -/
def State.startRing (s : State) (p : Nat) (f : EthFrame) : State :=
  if f.len < 60 ∨ 9212 < f.len then (s.unqueue p f).drawFree.slotStatus p f (s.freeNat 8) 0
  else
    let r := s.ethCheck f.partition f.buf f.len false
    if r.2 then r.1.onWire p f (r.1.bytes f.buf f.len) else (r.1.unqueue p f).slotStatus p f 2 0

/-- ETH_LAUNCH (R411 to R414): the next frame of a port starts (see log entry 61, DEDUCED). -/
def execEthLaunch (port : Nat) (s : State) : Host.Outcome State Fault Refusal :=
  .next (
    if 9 ≤ port ∨ s.flag F.ETH_PSTAT_LINK port = false then s
    else match s.nextFrame port with
      | some f => if f.flight.isSome then s.onWire port f f.data else s.startRing port f
      | none => s)

/-- ETH_TX_DONE (R410, R431): the frame on the wire has left. -/
def execEthTxDone (port : Nat) (s : State) : Host.Outcome State Fault Refusal :=
  .next (match (s.ethPort port).sending with
    | (f, bs, stamp) :: l =>
      let t := (s.setEth port { s.ethPort port with sending := l }).send (.frame port bs)
      (match f.flight with
       | some id => t.complete id csDone stamp
       | none => t.slotStatus port f 0 (stamp % 2 ^ 32))
    | [] => s)

/-- R415: ETH_LAUNCH_LATE is logged at most once per 1 ms per port. -/
def State.lateEvent (s : State) (p part : Nat) : State :=
  if s.oncePerMs (s.ethPort p).lateNs then
    (s.setEth p { s.ethPort p with lateNs := some s.dev.nowNs }).event 0x0B 0x0003 p part
  else s

/-- ETH_LAUNCH_LATE (R415): the head frame of a class could first start later than LAUNCH_TIME + LATE_NS and is dropped. -/
def execEthLaunchLate (port cls : Nat) (s : State) : Host.Outcome State Fault Refusal :=
  .next (match (s.ethPort port).headOf cls with
    | some f =>
      if s.pastLate port f then
        let t := ((s.unqueue port f).addFld F.ETH_CNT_LATE 1 port).lateEvent port f.partition
        (match f.flight with
         | some id => t.complete id csState 0x0900
         | none => t.slotStatus port f 1 0)
      else s
    | none => s)

end Sys2Proof.Machine
end

