-- ==== Sys2Proof/Machine/EventLog.lean ====
section
/-! DEFINITION. The event log: the writer and its turn, the ring and its mirror, persistence in flash and LOG_READ (file 14: R455
to R460, R464). -/

namespace Sys2Proof.Machine

/-! The ring (R455, R456). -/

/-- Table LOG-1: bytes 0x00 to 0x1B of a record; TIME is the time of writing (Table CHR-1). -/
def logBytes (time : Nat) (e : LogEvent) (seq flags : Nat) : List Byte :=
  toLe 8 time ++ toLe 4 seq ++ toLe 1 e.cls ++ toLe 1 e.partition ++ toLe 2 e.code ++ toLe 2 e.source ++ toLe 2 flags ++ toLe 8 e.data

/-- The VALID word: VALID, PHASE equal to SEQ bit 15, and the CRC-16 of the record's bytes. -/
def validWord (bs : List Byte) (seq : Nat) : Nat := 2 ^ 31 + 2 ^ 30 * b2n (seq.testBit 15) + crc16 bs

/-- A complete record of 32 bytes. -/
def logRecord (time : Nat) (e : LogEvent) (seq flags : Nat) : List Byte :=
  let bs := logBytes time e seq flags
  bs ++ toLe 4 (validWord bs seq)

/-- The address of a record's slot in a ring. -/
def recordAddr (base seq : Nat) : Nat := base + 32 * (seq % 32768)

/-- The ring's address; LOG_RING reads 0 until a profile is accepted. -/
def State.ringBase (s : State) : Nat := 0x100000 * s.fld F.LOG_RING_BASE

/-- R456: the oldest record that the ring holds. -/
def State.oldestRecord (s : State) : Nat := s.log.written - 32768

/-- R456: records copied to the mirror in DRAM, from a number on, n of them. -/
def mirrorFrom : Nat → Nat → State → State
  | 0, _, s => s
  | n + 1, seq, s =>
    mirrorFrom n (seq + 1) (s.sysWrite (recordAddr (0x100000 * s.fld F.LOG_MIRROR_BASE) seq) (s.sysBytes (recordAddr s.ringBase seq) 32))

/-- R456: the mirror catches up while FN_DRAM is RUNNING, and waits otherwise (see log entry 30, DESIGN CHOICE). -/
def State.catchUp (s : State) : State :=
  if s.fnState fnDram = stRunning then
    let k := max s.log.mirrored s.oldestRecord
    let t := mirrorFrom (s.log.written - k) k s
    { t with log := { t.log with mirrored := t.log.written } }.putFld F.LOG_STATUS_MIRROR_LAG 0
  else s.putFld F.LOG_STATUS_MIRROR_LAG (b2n (decide (s.log.mirrored < s.log.written)))

/-- R459: a class 0x0D record waits for flash; a full queue discards its oldest. -/
def State.toPersist (s : State) (rec : List Byte) : State :=
  let t := if s.log.persist.length = 256 then
      { s with log := { s.log with persist := s.log.persist.drop 1 } }.setFlag F.LOG_STATUS_PERSIST_FAIL
    else s
  let t := { t with log := { t.log with persist := t.log.persist ++ [rec] } }
  t.putFld F.LOG_STATUS_PERSIST_PENDING t.log.persist.length

/-- R464: LOG_IRQ raises its vector on a record of a selected class: the AIA where a route exists, else the management core
(see log entry 30, DESIGN CHOICE). -/
def State.logIrq (s : State) (cls : Nat) : State :=
  if s.flag F.LOG_IRQ_EN && (s.reg .LOG_IRQ).testBit (15 + cls) then
    s.raise (s.fld F.LOG_IRQ_VEC) (if s.routed 0 (s.fld F.LOG_IRQ_VEC) then 0 else 2) 0
  else s

/-- R455: one record written: VALID first zero and last set is one step here (see log entry 30, DESIGN CHOICE). -/
def State.writeLog (s : State) (e : LogEvent) : State :=
  let seq := s.log.written
  let rec32 := logRecord s.time e (seq % 2 ^ 32) 0
  let t := s.sysWrite (recordAddr s.ringBase seq) rec32
  let t := { t with log := { t.log with written := seq + 1 } }.setReg .LOG_SEQ ((seq + 1) % 2 ^ 32)
  let t := if e.cls = 0x0D then t.toPersist rec32 else t
  (t.logIrq e.cls).catchUp

/-! The writer (R457, R458). -/

/-- R457: the classes other than SAFE in the order of the turn, from the class after the last one served. -/
def turnOrder (last : Nat) : List Nat :=
  ((List.range 15).map (fun k => (last + k) % 15 + 1)).filter (fun c => c != 0x0D)

/-- R457: the class that the writer serves next. -/
def Log.nextClass (l : Log) : Option Nat :=
  if 0 < l.staging 0x0D then some 0x0D else (turnOrder l.turn).find? (fun c => decide (0 < l.staging c))

/-- The oldest event of a class leaves its FIFO. -/
def takeClass (c : Nat) : List LogEvent → Option LogEvent × List LogEvent
  | [] => (none, [])
  | e :: l =>
    if e.cls = c then (some e, l)
    else
      let r := takeClass c l
      (r.1, e :: r.2)

/-- R458: the summary of a class's drops. -/
def overflowRecord (cls : Nat) (d : Nat × Nat) : LogEvent :=
  { cls := 0x0F, partition := 0xFF, code := 1, source := cls, data := 2 ^ 32 * (d.2 % 2 ^ 32) + satNat 32 d.1 }

/-- R457, R458: the event taken from a class; where drops wait, LOG_OVERFLOW is written before it, as one pair
(see log entry 30, DESIGN CHOICE). -/
def State.serve (s : State) (c : Nat) : State :=
  match takeClass c s.log.staged with
  | (some e, rest) =>
    let t := { s with log := { s.log with staged := rest, turn := if c = 0x0D then s.log.turn else c } }
    match s.log.dropped c with
    | some d =>
      { t with log := { t.log with held := some e, drops := t.log.drops.filter (fun x => x.1 != c) } }.writeLog
        (overflowRecord c d)
    | none => t.writeLog e
  | (none, _) => s

/-- LOG_WRITE (R457) (see log entry 30, DESIGN CHOICE). -/
def execLogWrite (s : State) : Host.Outcome State Fault Refusal :=
  .next (match s.log.held with
    | some e => { s with log := { s.log with held := none } }.writeLog e
    | none =>
      match s.log.nextClass with
      | some c => s.serve c
      | none => s.catchUp)

/-! Persistence (R459). -/

/-- R459: the slot that the next record is programmed into: after the last one used of the current sector. -/
def State.persistSlot (s : State) : Nat :=
  match s.persistSector with
  | some c => ((s.persistUsed.filter (fun k => k / 128 == c)).foldl max 0 + 1) % 32768
  | none => 0

/-- R459: the copy in flash: FLAGS bit 0 PERSISTED set, and the CRC-16 computed over it. -/
def persistCopy (rec : List Byte) : List Byte :=
  let bs := bytesAt rec 0 0x12 ++ toLe 2 1 ++ bytesAt rec 0x14 8
  bs ++ toLe 4 (validWord bs (leAt rec 8 4))

/-- The sector after a slot's is erased when the slot is its sector's first. -/
def State.keepErased (s : State) (slot : Nat) : State :=
  let next := (slot / 128 + 1) % 256
  if slot % 128 = 0 then s.flashErase (persistBase + 4096 * next) (persistBase + 4096 * next + 4096) else s

/-- LOG_PERSIST (R459): a flash error leaves the record to be retried; what the failed program left in its slot is free values
(see log entry 30, DESIGN CHOICE). -/
def execLogPersist (ok : Bool) (s : State) : Host.Outcome State Fault Refusal :=
  .next (match s.log.persist with
    | [] => s
    | r :: rest =>
      let k := s.persistSlot
      let t := s.keepErased k
      if ok then
        let t := t.flashWrite (persistBase + 32 * k) (persistCopy r)
        ({ t with log := { t.log with persist := rest } }.putFld F.LOG_STATUS_PERSIST_PENDING rest.length).addReg .LOG_PERSIST 32 1
      else
        let junk := (List.range 32).map (fun j => Config.freeByte (t.free + j))
        ({ t.flashWrite (persistBase + 32 * k) junk with free := t.free + 32 }.setFlag F.LOG_STATUS_PERSIST_FAIL).anyEvent 0x0F 2)

/-! LOG_READ (R460). -/

/-- A record selected by class and partition. -/
def logSelected (mask part : Nat) (r : List Byte) : Bool :=
  mask.testBit (leAt r 0x0C 1) && (part == 0 || leAt r 0x0D 1 == part)

/-- A list with its positions. -/
def numbered {α : Type} : Nat → List α → List (Nat × α)
  | _, [] => []
  | n, x :: l => (n, x) :: numbered (n + 1) l

/-- R460: with STORE 0, the SEQ that a read starts at, compared modulo 2^32. -/
def State.readFrom (s : State) (seq : Nat) : Nat :=
  let ahead := (seq + 2 ^ 32 - s.oldestRecord % 2 ^ 32) % 2 ^ 32
  if ahead < 2 ^ 31 then s.oldestRecord + ahead else s.oldestRecord

/-- R460: the records of a store from a place on, with SEQ or position (see log entry 30, DESIGN CHOICE). -/
def State.logFrom (s : State) (store seq : Nat) : List (Nat × List Byte) :=
  if store = 1 then (numbered 0 s.persisted).filter (fun e => decide (seq ≤ e.1))
  else (List.range (s.log.written - s.readFrom seq)).map (fun k =>
    ((s.readFrom seq + k) % 2 ^ 32, s.sysBytes (recordAddr s.ringBase (s.readFrom seq + k)) 32))

/-- R460: the records selected from a place on; a position of the persisted records that none selected lies at or after starts the read at
position 0, unless it lies beyond the newest. -/
def State.logChosen (s : State) (store seq mask part : Nat) : List (Nat × List Byte) :=
  let pick := fun (n : Nat) => (s.logFrom store n).filter (fun e => logSelected mask part e.2)
  if store = 1 ∧ (pick seq).isEmpty = true ∧ seq < s.persisted.length then pick 0 else pick seq

/-- The format of LOG_READ's selection record. -/
def logReadFormat (p : Packet) : Bool :=
  p.target == 0 && p.plen == 1 && decide (1 ≤ pNum p 4 2 ∧ pNum p 4 2 ≤ 2046) && decide (pNum p 6 1 ≤ 1) && pZero p 7 8 && pZero p 10 32

/-- LOG_READ's effect: RESULT bits 15:0 the records returned, bits 47:16 the SEQ or position of the first; where none is returned
those bits are a free value. -/
def logReadBody (p : Packet) (id : Nat) (s : State) : State :=
  let l := (s.logChosen (pNum p 6 1) (pNum p 0 4) (pNum p 8 2) p.partition).take (pNum p 4 2)
  match l with
  | [] => s.drawFree.finish id csDone (65536 * s.freeNat 32)
  | e :: _ => s.finish id csDone (65536 * e.1 + l.length) (l.flatMap (·.2))

/-- The rule of LOG_READ; HELD and SAFE accept it. -/
def logReadRule (p : Packet) : Rule where
  op := ⟨1, 0x21⟩
  format := logReadFormat p
  ext := pNum p 4 2
  inHeld := true
  inSafe := true
  fn := some (fnMgmt, none)

/-- LOG_READ (R460). -/
def execLogRead (p : Packet) (s : State) : Host.Outcome State Fault Refusal :=
  .next (runPacket (.logRead p) (logReadRule p) p (logReadBody p) s)

end Sys2Proof.Machine
end

