-- ==== Sys2Proof/Machine/Faults.lean ====
section
/-! DEFINITION. The end of STARTING and a fault while starting (file 01: R28; Tables SYS-7 and SYS-13). -/

namespace Sys2Proof.Machine

/-- R37: the unit number of a whole function. -/
abbrev whole : Nat := 0xFF

/-- R27: the effective prerequisites that SYS_DEPEND shows. -/
def State.needs (s : State) (n m : Nat) : Bool := (s.fld F.SYS_DEPEND_PREREQ n).testBit m

/-- R28: STARTING ends when every enabled function reads READY, RUNNING or FAULT; SYS_GEN becomes 1. -/
def State.settle (s : State) : State :=
  let t := s.showFnFault
  if s.devState = devStarting ∧ s.enabledFns.all (fun n => usableCode (s.fnState n) || s.fnState n == stFault) = true then
    ((t.putFld F.SYS_DEVSTATE_DEVSTATE devRunning).setReg .SYS_GEN 1).showDigest
  else t

/-- The start of a target is over; a target that was to stop passes straight to STOPPED (Table SYS-9). -/
def State.started (s : State) (fn unit : Nat) : Bool × State :=
  (s.dev.stopAfterStart.contains (fn, unit),
    { s with dev := { s.dev with
        begun := s.dev.begun.filter (fun e => e != (fn, unit))
        stopAfterStart := s.dev.stopAfterStart.filter (fun e => e != (fn, unit)) } })

/-- R28: a function that still waits for a prerequisite. -/
def State.waitsFor' (s : State) (n m : Nat) : Bool :=
  s.enabledFns.contains n && s.fnState n == stStarting && !s.dev.begun.contains (n, whole) && s.needs n m

/-- R28: the dependents that wait for a faulted function fault as well, and theirs after them. -/
def faultDependents : Nat → Nat → State → State
  | 0, _, s => s
  | k + 1, m, s =>
    (List.range 17).foldl (fun t n =>
      if t.waitsFor' n m then faultDependents k n ((t.setFn n stFault).emit 0x01 0x0002 n m) else t) s

/-- A function of the essential mask reads FAULT. -/
def State.essentialFault (s : State) : Bool :=
  match s.dev.settings with
  | some x => (List.range 17).any (fun n => x.essential.testBit n && s.fnState n == stFault)
  | none => false

/-- A function faults while starting (R28, Table SYS-13) (see log entry 62, DEDUCED). -/
def State.faultFn (s : State) (fn : Nat) : State :=
  let t := faultDependents 17 fn ((s.setFn fn stFault).emit 0x01 0x0001 fn 0)
  if t.essentialFault then t.showFnFault.enterSafe scStartFault else t.settle

/-- A function goes to FAULT by itself: one that starts as R28 says, any other with SYS_DEVSTATE.FN_FAULT. -/
def State.fnToFault (s : State) (fn : Nat) : State :=
  if s.fnState fn = stStarting then (s.started fn whole).2.faultFn fn else (s.setFn fn stFault).showFnFault

end Sys2Proof.Machine
end

