-- ==== Sys2Proof/Machine/Grenlink.lean ====
section
/-! DEFINITION. Grenlink: links, announcements, the root election, retry, nap, cluster time, the start barrier, program images and
heartbeats (file 10: R290 to R326). -/

namespace Sys2Proof.Machine

/-! Links (R291, R293, R298, R300). -/

/-- The ports act while FN_GLK starts, is READY or RUNNING, and the port's own state allows. -/
def State.glkPortLive (s : State) (n : Nat) : Bool :=
  decide (n < 4) && s.mayDrive fnGlk n && (s.fnState fnGlk == stStarting || s.fnUsable fnGlk) &&
    (s.fld F.GLK_PSTAT_STATE n == stStarting || usableCode (s.fld F.GLK_PSTAT_STATE n))

/-- R291: GLK_PSTATn.WIDTH by the lanes that trained; none: fewer than a pair. -/
def widthOf (lanes : Nat) : Option Nat :=
  if lanes % 16 = 15 then some 2 else if lanes % 4 = 3 ∨ lanes / 4 % 4 = 3 then some 1 else none

/-- The own unique ID and place in the cluster. -/
def State.ownHello (s : State) (n : Nat) : Hello where
  member := s.self
  cluster := s.fld F.GLK_ID_CLUSTER
  uid := s.reg .GLK_UID
  port := n

/-- R291: an own port has trained, at full or half width, or reads FAULT; HELLO goes out. -/
def State.ownLinkUp (s : State) (x : LinkUp) : State :=
  let n := x.port
  match widthOf x.lanes with
  | some w =>
    let t := ((s.putFld F.GLK_PSTAT_WIDTH w n).putFld F.GLK_PSTAT_REVERSED (b2n x.reversed) n).event 0x0C 0x0001 n
    let t := if w = 1 then (t.event 0x0C 0x000B n).setFlag F.GLK_TBREAK_WIDTH else t
    t.send (.link n (.hello (s.ownHello n)))
  | none => (s.setUnit fnGlk n stFault).setFlag F.GLK_TBREAK_WIDTH

/-- GLK_LINK_UP (R291): an own port, or a link elsewhere in the cluster. -/
def execGlkLinkUp (x : LinkUp) (s : State) : Host.Outcome State Fault Refusal :=
  .next (if x.member = s.self then
      (if s.glkPortLive x.port ∧ s.fld F.GLK_PSTAT_WIDTH x.port = 0 then s.linkChange (fun t => t.ownLinkUp x) else s)
    else s.linkChange (fun t => { t with glk := { t.glk with down := t.glk.down.filter (fun l => l != s.linkOf x.member x.port) } }))

/-- An own port no longer carries traffic; a nap of it ends. -/
def State.portDown (s : State) (n : Nat) : State :=
  let t := ((s.putFld F.GLK_PSTAT_WIDTH 0 n).putFld F.GLK_PSTAT_PEER_VALID 0 n).putFld F.GLK_PSTAT_NAP 0 n
  let t := t.putFld F.GLK_PDELAY_CAL 0 n
  { t with glk := { t.glk with
    naps := t.glk.naps.filter (fun x => x.port != n), retrain := t.glk.retrain.filter (fun m => m != n)
    waiting := t.glk.waiting.filter (fun e => e.1 != n), retry := t.glk.retry.filter (fun e => e.1 != n) } }

/-- GLK_LINK_DOWN (R293). -/
def execGlkLinkDown (member n : Nat) (s : State) : Host.Outcome State Fault Refusal :=
  .next (if member = s.self then
      (if n < 4 ∧ s.fld F.GLK_PSTAT_WIDTH n ≠ 0 then
        s.linkChange (fun t => ((t.portDown n).event 0x0C 0x0002 n).setFlag F.GLK_TBREAK_WIDTH)
      else s)
    else if s.glk.down.contains (s.linkOf member n) then s
    else s.linkChange (fun t => { t with glk := { t.glk with down := t.glk.down ++ [s.linkOf member n] } }))

/-- REROUTE_DONE (R294): every message on the old route is acknowledged or replayed. -/
def execRerouteDone (dest : Nat) (s : State) : Host.Outcome State Fault Refusal :=
  .next ({ s with glk := { s.glk with moving := s.glk.moving.filter (fun d => d != dest) } }.flow)

/-- R298: the neighbour is the one expected: its member index, the own cluster ID, and the port at the link's far end. -/
def State.helloOk (s : State) (n : Nat) (h : Hello) : Bool :=
  s.neighbour s.self n == some h.member && h.cluster == s.fld F.GLK_ID_CLUSTER && h.port == farPort n

/-- HELLO (R298). -/
def execHello (n : Nat) (h : Hello) (s : State) : Host.Outcome State Fault Refusal :=
  .next (if s.glkPortLive n ∧ s.fld F.GLK_PSTAT_WIDTH n ≠ 0 then
      if s.helloOk n h then
        s.linkChange (fun t =>
          let t := ((t.setFlag F.GLK_PSTAT_PEER_VALID n).putFld F.GLK_PSTAT_PEER_MEMBER h.member n).putFld F.GLK_PSTAT_PEER_PORT h.port n
          let t := { t with glk := { t.glk with peerUid := sparseSet (fun _ => 0) t.glk.peerUid n h.uid } }
          if t.fld F.GLK_PSTAT_STATE n = stStarting then t.setUnit fnGlk n stReady else t)
      else (s.linkChange (fun t => ((t.putFld F.GLK_PSTAT_PEER_VALID 0 n).setUnit fnGlk n stFault).setFlag F.GLK_TBREAK_WIDTH)).event 0x0C 0x0006 n
    else s)

/-- PORT_WAIT (R300): a port that the topology uses is down. -/
def execPortWait (n : Nat) (s : State) : Host.Outcome State Fault Refusal :=
  .next (if s.glkPortLive n = true ∧ (s.neighbour s.self n).isSome = true ∧ s.portUp n = false then
      (s.setUnit fnGlk n stFault).setFlag F.GLK_TBREAK_WIDTH else s)

/-! Announcements (R299). -/

/-- The announcements held: each for 300 ms after it last came (see log entry 38, DEDUCED). -/
def State.liveMembers (s : State) : List (Announce × Nat) :=
  s.glk.members.filter (fun e => decide (s.dev.nowNs < e.2 + 300000000))

/-- The own announcement. -/
def State.ownAnnounce (s : State) : Announce where
  member := s.self
  cluster := s.fld F.GLK_ID_CLUSTER
  uid := s.reg .GLK_UID
  prio := s.fld F.GLK_CFG_ROOT_PRIO

/-- The unique IDs that claim a member index. -/
def State.claimants (s : State) (m : Nat) : List Announce :=
  (if m = s.self then [s.ownAnnounce] else []) ++ (s.liveMembers.map (·.1)).filter (fun a => a.member == m)

/-- Two unique IDs claim a member index (see log entry 38, DEDUCED). -/
def State.conflict (s : State) (m : Nat) : Bool := (s.claimants m).any (fun a => (s.claimants m).any (fun b => a.uid != b.uid))

/-- One pair of priority and unique ID is lower than another. -/
def pairLess (p u q v : Nat) : Bool := decide (p < q ∨ (p = q ∧ u < v))

/-- R299: a conflict found: logged, and the lower of the two devices moves FN_GLK to FAULT; the others drop their routes. -/
def State.showConflict (s : State) (m : Nat) (before : Bool) : State :=
  if s.conflict m then
    let t := if before then s else s.event 0x0C 0x0007 m
    if m = s.self then
      (if (s.claimants m).any (fun a => pairLess (s.fld F.GLK_CFG_ROOT_PRIO) (s.reg .GLK_UID) a.prio a.uid) then
        (t.fnToFault fnGlk).showPeers else t)
    else
      { t with glk := { t.glk with apart := t.glk.apart.filter (fun (e : Nat × Nat) => e.1 != m) ++ [(m, s.dev.nowNs)] } }.showPeers
  else s

/-- R299: announcements of a member index are held, and of one unique ID alone. -/
def State.aloneIn (s : State) (m : Nat) : Bool := !(s.claimants m).isEmpty && !s.conflict m

/-- R299: a member index of which announcements of one unique ID alone have been held for 300 ms is reached again
(see log entry 38, DEDUCED). -/
def State.rejoin (s : State) : State :=
  let apart := s.glk.apart.map (fun e => if s.aloneIn e.1 then e else (e.1, s.dev.nowNs))
  let keep := apart.filter (fun e => decide (s.dev.nowNs < e.2 + 300000000))
  let t := { s with glk := { s.glk with apart := keep, members := s.liveMembers } }
  if keep.length = apart.length then t else t.showPeers

/-- R299: how far apart a member's announcements are. -/
def State.announceNs (s : State) : Nat :=
  if s.fnUsable fnGlk then 100000000 else 1000 * s.fld F.GLK_CLAIMCFG_CLAIM_US

/-- R299: an announcement has been seen before: one of its member index and unique ID came less than half of the interval at which members
announce ago (see log entry 112, DESIGN CHOICE). -/
def State.seenBefore (s : State) (a : Announce) : Bool :=
  s.glk.members.any (fun e => e.1.member == a.member && e.1.uid == a.uid && decide (2 * (s.dev.nowNs - e.2) < s.announceNs))

/-- MEMBER_ANNOUNCEMENT (R299). -/
def execMemberAnnouncement (n : Nat) (a : Announce) (s : State) : Host.Outcome State Fault Refusal :=
  .next (if s.portUp n = false ∨ 64 ≤ a.hops ∨ a.cluster ≠ s.fld F.GLK_ID_CLUSTER ∨ a.uid = s.reg .GLK_UID then s
    else
      let before := s.conflict a.member
      let keep := s.liveMembers.filter (fun e => !(e.1.member == a.member && e.1.uid == a.uid))
      let t := { s with glk := { s.glk with members := keep ++ [(a, s.dev.nowNs)] } }
      let t := if s.seenBefore a then t else t.toPorts (some n) (.announce { a with hops := a.hops + 1 })
      t.showConflict a.member before)

/-- ANNOUNCE_TIMER (R299). -/
def execAnnounceTimer (s : State) : Host.Outcome State Fault Refusal :=
  .next (if s.fnState fnGlk = stStarting ∨ s.fnUsable fnGlk = true then s.rejoin.toPorts none (.announce s.ownAnnounce) else s)

/-! The root election (R301, R302). -/

/-- A claim is better than another. -/
def betterClaim (a : Nat × Nat) (b : Option (Nat × Nat)) : Bool :=
  match b with
  | none => true
  | some x => pairLess x.1 x.2 a.1 a.2

/-- The best claim heard. -/
def State.setBest (s : State) (c : Nat × Nat) : State := { s with glk := { s.glk with best := some c, bestFor := 0 } }

/-- ROOT_CLAIM (R301): a better claim is taken and forwarded. -/
def execRootClaim (n prio uid : Nat) (s : State) : Host.Outcome State Fault Refusal :=
  .next (if s.portUp n = true ∧ prio ≠ 0 ∧ betterClaim (prio, uid) s.glk.best = true then
      (s.setBest (prio, uid)).toPorts (some n) (.claim prio uid)
    else s)

/-- The member index of a unique ID: the own one's, or an announced one's. -/
def State.memberOf (s : State) (uid : Nat) : Nat :=
  if uid = s.reg .GLK_UID then s.self else ((s.glk.members.find? (fun e => e.1.uid == uid)).map (·.1.member)).getD 0

/-- R301: the best claim is adopted; the offset of another root's time and the barriers that it has not confirmed are gone (R307, R312). -/
def State.adopt (s : State) (uid : Nat) : State :=
  let own := uid == s.reg .GLK_UID
  let g := { s.glk.voidBars with toffNs := none, routeCal := false }
  let t := ({ s with glk := g }.setReg .GLK_ROOT_UID uid).putFld F.GLK_ROOTSTAT_IS_ROOT (b2n own)
  let t := (t.setFlag F.GLK_ROOTSTAT_ELECTED).putFld F.GLK_ROOTSTAT_ROOT_MEMBER (s.memberOf uid)
  ((t.addFld F.GLK_ROOTSTAT_ELECTIONS 1).anyEvent 0x0C 0x0005).showClusterTime

/-- A claim interval ends: an own claim that is better than what was heard is taken; the best one, own or heard, goes out, ages, and is
adopted at 3 (see log entry 38, DEDUCED). -/
def State.claimInterval (s : State) : State :=
  let own := (s.fld F.GLK_CFG_ROOT_PRIO, s.reg .GLK_UID)
  let t := if own.1 ≠ 0 ∧ betterClaim own s.glk.best = true then s.setBest own
    else { s with glk := { s.glk with bestFor := s.glk.bestFor + 1 } }
  let t := match t.glk.best with
    | some b => t.toPorts none (.claim b.1 b.2)
    | none => t
  match t.glk.best with
  | some (_, uid) =>
    if 3 ≤ t.glk.bestFor ∧ (t.flag F.GLK_ROOTSTAT_ELECTED = false ∨ t.reg .GLK_ROOT_UID ≠ uid) then t.adopt uid else t
  | none => t

/-- CLAIM_TIMER (R301). -/
def execClaimTimer (s : State) : Host.Outcome State Fault Refusal :=
  .next (if s.fnState fnGlk = stStarting ∨ s.fnUsable fnGlk = true then s.claimInterval else s)

/-- ROOT_LOST (R302): the root's heartbeat is missing for 3 intervals. -/
def execRootLost (s : State) : Host.Outcome State Fault Refusal :=
  .next (if s.flag F.GLK_ROOTSTAT_ELECTED ∧ s.flag F.GLK_ROOTSTAT_IS_ROOT = false then s.loseRoot else s)

/-- R300: FN_GLK may read READY. -/
def State.glkReady (s : State) : Bool :=
  (List.range 4).all (fun n => (s.neighbour s.self n).isNone || s.portUp n || s.fld F.GLK_PSTAT_STATE n == stFault) &&
    (s.flag F.GLK_ROOTSTAT_ELECTED ||
      (s.fld F.GLK_CFG_ROOT_PRIO == 0 && s.liveMembers.all (fun e => e.1.prio == 0) && s.glk.best.isNone))

/-! Retry (R303). -/

/-- Replays of a flit that have failed in a row at a port: 0 at its first. -/
def State.badReplays (s : State) (n flit : Nat) : Nat :=
  ((s.glk.replays.find? (fun e => e.1 == n && e.2.1 == flit)).map (fun e => e.2.2 + 1)).getD 0

/-- The port retrains; messages for it are held. -/
def State.retrainPort (s : State) (n : Nat) : State :=
  { s with glk := { s.glk with
    retrain := s.glk.retrain.filter (fun m => m != n) ++ [n], replays := s.glk.replays.filter (fun e => e.1 != n) } }

/-- R303: a replay from a flit's number on, out of the retry buffer. -/
def State.replayFrom (s : State) (n flit : Nat) : State :=
  (s.glk.retry.filter (fun e => e.1 == n && decide (flit ≤ e.2.1))).foldl (fun t e => t.send e.2.2) s

/-- FLIT_REPLAY (R303): a bad flit asks for a replay from its number on; after 16 failed replays of it the port retrains. asked: the
neighbour asks, and the port replays; either end counts the replay (see log entry 112, DESIGN CHOICE). -/
def execFlitReplay (n flit : Nat) (asked : Bool) (s : State) : Host.Outcome State Fault Refusal :=
  .next (if s.portUp n = false then s
    else if asked then (s.replayFrom n flit).addFld F.GLK_PCNT_RETRY 1 n
    else
      let k := s.badReplays n flit
      if 16 ≤ k then ((s.retrainPort n).addFld F.GLK_PCNT_RETRAIN 1 n).event 0x0C 0x0003 n
      else
        ({ s with glk := { s.glk with replays := s.glk.replays.filter (fun (e : Nat × Nat × Nat) => e.1 != n) ++ [(n, flit, k)] } }.addFld
          F.GLK_PCNT_RETRY 1 n).send (.link n (.replay flit)))

/-- GLK_RETRAIN_DONE (R303, R306). -/
def execGlkRetrainDone (n : Nat) (s : State) : Host.Outcome State Fault Refusal :=
  .next ({ s with glk := { s.glk with retrain := s.glk.retrain.filter (fun m => m != n) } }.flow)

/-! Nap (R304 to R306). -/

/-- NAP_EN, which reads 0 in timing-repeatable mode. -/
def State.napEnabled (s : State) : Bool := s.flag F.GLK_CFG_NAP_EN && !s.flag F.MEMC_CFG_REPEATABLE

/-- The nap of a port, begun, or proposed with its T_wake still to come (see log entry 112, DESIGN CHOICE). -/
def State.napOf (s : State) (n : Nat) : Option Nap :=
  s.glk.naps.find? (fun x => x.port == n && (x.asleep || decide (s.time < x.wake)))

/-- A port's nap replaced. -/
def State.setNap (s : State) (x : Nap) : State :=
  { s with glk := { s.glk with naps := s.glk.naps.filter (fun y => y.port != x.port) ++ [x] } }

/-- A port without a nap. -/
def State.dropNap (s : State) (n : Nat) : State :=
  { s with glk := { s.glk with naps := s.glk.naps.filter (fun y => y.port != n) } }

/-- Messages wait for a port. -/
def State.portBusy (s : State) (n : Nat) : Bool :=
  s.glk.retrain.contains n || s.glk.waiting.any (fun e => e.1 == n) || s.glk.held.any (fun e => (s.route e.1).any (fun r => r.2 == n))

/-- NAP_PROPOSE (R304): T_wake is at most NAP_MAX_US away. -/
def execNapPropose (n wake : Nat) (s : State) : Host.Outcome State Fault Refusal :=
  .next (if s.napEnabled ∧ s.portUp n ∧ (s.napOf n).isNone ∧ s.portBusy n = false ∧ s.time < wake ∧
      wake ≤ s.time + bitsOf (s.reg .GLK_NAPMAX) 15 0 * 1000 then
      (s.setNap { port := n, wake := wake }).toPort n (.napProposal wake)
    else s)

/-- A port falls asleep at a flit boundary. -/
def State.fallAsleep (s : State) (x : Nap) : State :=
  (((s.setNap { x with asleep := true }).setFlag F.GLK_PSTAT_NAP x.port)).setFlag F.GLK_TBREAK_NAP

/-- R304: a nap proposed at both ends: the higher unique ID's stands. -/
def State.ownStands (s : State) (n : Nat) : Bool :=
  (s.napOf n).isSome && decide (sparseGet (fun _ => 0) s.glk.peerUid n < s.reg .GLK_UID)

/-- R304: T_wake on the own Chronometer, through the offset last measured (the neighbour's minus the own, in 1/16 ns). -/
def State.localWake (s : State) (n wake : Nat) : Nat :=
  ((wake : Int) - ((s.glk.offsets.find? (fun e => e.1 == n)).map (·.2)).getD 0 / 16).toNat

/-- NAP_PROPOSAL (R304): accepted unless traffic is queued, or in timing-repeatable mode, which disables nap (Table GLK-5). -/
def execNapProposal (n wake : Nat) (traffic : Bool) (s : State) : Host.Outcome State Fault Refusal :=
  .next (if s.portUp n = false ∨ s.flag F.MEMC_CFG_REPEATABLE = true ∨ s.flag F.GLK_PSTAT_NAP n = true ∨ traffic = true ∨ s.portBusy n = true ∨ s.ownStands n = true then s
    else (s.toPort n .napAccept).fallAsleep { port := n, wake := s.localWake n wake, mine := false })

/-- NAP_ACCEPT (R304): the partner accepted the own proposal. -/
def execNapAccept (n : Nat) (s : State) : Host.Outcome State Fault Refusal :=
  .next (match s.napOf n with
    | some x => if x.mine && !x.asleep && s.portUp n then s.fallAsleep x else s
    | none => s)

/-- NAP_WAKE (R306): the wake sequence goes out. -/
def execNapWake (n : Nat) (s : State) : Host.Outcome State Fault Refusal :=
  .next (if (s.napOf n).any (fun x => x.asleep) then s.send (.link n .wake) else s)

/-- R306: the time lies in the listen window. -/
def State.listens (s : State) (x : Nap) : Bool :=
  decide (x.wake ≤ s.time + s.fld F.GLK_NAPCFG_GUARD_NS ∧ s.time ≤ x.wake + s.fld F.GLK_NAPCFG_GUARD_NS)

/-- WAKE_SEQUENCE (R306): one that the window receives resumes the link. -/
def execWakeSequence (n : Nat) (s : State) : Host.Outcome State Fault Refusal :=
  .next (match s.napOf n with
    | some x => if x.asleep && s.listens x then ((s.dropNap n).putFld F.GLK_PSTAT_NAP 0 n).flow else s
    | none => s)

/-- NAP_RESYNC (R306): the window closed without a wake. -/
def execNapResync (n : Nat) (s : State) : Host.Outcome State Fault Refusal :=
  .next (match s.napOf n with
    | some x =>
      if x.asleep then
        ((((s.dropNap n).putFld F.GLK_PSTAT_NAP 0 n).retrainPort n).addFld F.GLK_PCNT_NAP_RESYNC 1 n).event 0x0C 0x0004 n
      else s
    | none => s)

/-! Cluster time (R307). -/

/-- The port towards the root. -/
def State.rootPort (s : State) : Option Nat :=
  if s.flag F.GLK_ROOTSTAT_ELECTED && !s.flag F.GLK_ROOTSTAT_IS_ROOT then (s.route (s.fld F.GLK_ROOTSTAT_ROOT_MEMBER)).map (·.2)
  else none

/-- LINK_DELAY_MEASURE (R307) (see log entry 39, DEDUCED). -/
def execLinkDelayMeasure (x : DelayMeasure) (s : State) : Host.Outcome State Fault Refusal :=
  let n := x.port
  .next (if s.portUp n then
      let t := (s.putFld F.GLK_PDELAY_DELAY x.delay n).putFld F.GLK_PDELAY_CAL 1 n
      let t := { t with glk := { t.glk with offsets := t.glk.offsets.filter (fun (e : Nat × Int) => e.1 != n) ++ [(n, x.offset)] } }
      let t := if s.rootPort = some n then
          { t.setReg .GLK_TOFF (ofSigned 64 (x.offset + x.peerToff)) with
            glk := { t.glk with toffNs := some s.dev.nowNs, routeCal := x.calibrated } }
        else t
      t.showClusterTime
    else s)

/-- R307: cluster time. -/
def State.clusterTime (s : State) : Nat := ((s.time : Int) + signedOf 64 (s.reg .GLK_TOFF) / 16).toNat

/-! The start barrier (R308 to R312). -/

/-- GLK_BARSTAT.ARMED: the barriers armed as root or as a member. -/
def State.showArmed (s : State) : State :=
  s.putFld F.GLK_BARSTAT_ARMED (min 8 (max s.glk.roots.length s.glk.bars.length))

/-- A barrier at the root replaced. -/
def State.setRoot (s : State) (b : RootBar) : State :=
  { s with glk := { s.glk with roots := s.glk.roots.map (fun x => if x.id = b.id then b else x) } }

/-- A barrier leaves the root. -/
def State.dropRoot (s : State) (id : Nat) : State :=
  { s with glk := { s.glk with roots := s.glk.roots.filter (fun x => x.id != id) } }.showArmed

/-- A member that reports to the root: the root itself directly. -/
def State.toRoot (s : State) (m : GlkMsg) (here : State → State) : State :=
  if s.flag F.GLK_ROOTSTAT_IS_ROOT then here s
  else s.toMember (s.fld F.GLK_ROOTSTAT_ROOT_MEMBER) (.member (s.fld F.GLK_ROOTSTAT_ROOT_MEMBER) m)

/-- R308 step 3: the root takes a reply. -/
def State.takeReply (s : State) (id member : Nat) (ack : Bool) : State :=
  match s.glk.roots.find? (fun b => b.id == id) with
  | some b =>
    if b.members.testBit member && !b.acks.testBit member && !b.nacks.testBit member then
      (if ack then s.setRoot { b with acks := b.acks + 2 ^ member } else s.setRoot { b with nacks := b.nacks + 2 ^ member })
    else s
  | none => s

/-- R308 step 3: a named member answers ARM. -/
def State.takeArm (s : State) (x : BarArm) : State :=
  let ack := s.flag F.GLK_TIMESTAT_LOCKED && s.ownsCtr x.partition x.ctr
  let t := { s with glk := { s.glk with
    bars := s.glk.bars.filter (fun (b : BarArm × Bool) => b.1.id != x.id) ++ [(x, false)]
    void := s.glk.void.filter (fun i => i != x.id) } }.showArmed
  t.toRoot (.reply x.id ack) (fun u => u.takeReply x.id s.self ack)

/-- BARRIER_ARM (R308). -/
def execBarrierArm (x : BarArm) (s : State) : Host.Outcome State Fault Refusal := .next (s.takeArm x)

/-- R308 step 2: ARM goes to every named member; one that is unreachable counts as a NACK. -/
def State.sendArms (s : State) (x : BarArm) (members : Nat) : State :=
  ((List.range 64).filter (fun m => members.testBit m)).foldl (fun t m =>
    if m = t.self then t.takeArm x
    else if (t.reg .GLK_PEERS).testBit m then t.toMember m (.member m (.arm x))
    else t.takeReply x.id m false) s

/-- The lead of a barrier in nanoseconds. -/
def barLead (p : Packet) : Nat := (if pNum p 0x14 4 = 0 then 50 else pNum p 0x14 4) * 1000

/-- GLK_BARRIER's effect at the root (R308). -/
def barrierBody (p : Packet) (id : Nat) (s : State) : State :=
  if s.flag F.GLK_TIMESTAT_LOCKED = false ∨ 8 ≤ s.glk.roots.length then s.finish id csState 0
  else
    let x : BarArm := { id := id, partition := p.partition, ctr := pNum p 0x10 2, inc := pNum p 8 8, start := s.clusterTime + barLead p }
    let b : RootBar := { id := id, members := pNum p 0 8 }
    ({ s with glk := { s.glk with roots := s.glk.roots ++ [b] } }.showArmed).sendArms x (pNum p 0 8)

/-- A member that is not the root forwards the packet to the root, which completes it. -/
def barrierForward (p : Packet) (id : Nat) (s : State) : State :=
  let r := s.fld F.GLK_ROOTSTAT_ROOT_MEMBER
  if s.flag F.GLK_ROOTSTAT_ELECTED = false ∨ (s.reg .GLK_PEERS).testBit r = false then s.finish id csState 0
  else { s with cq := { s.cq with flight := s.cq.flight.filter (fun f => f.id != id) } }.toMember r (.forward r 0xA 1 p)

/-- The rule of GLK_BARRIER (see log entry 39, DEDUCED). -/
def barrierRule (p : Packet) : Rule where
  op := ⟨0xA, 1⟩
  format := p.target == 0 && p.plen == 1 && pZero p 0x12 0x14 && pZero p 0x18 0x20 &&
    (pNum p 0x14 4 == 0 || decide (20 ≤ pNum p 0x14 4 ∧ pNum p 0x14 4 ≤ 10000))
  fn := some (fnGlk, none)

/-- GLK_BARRIER (R308). -/
def execGlkBarrier (p : Packet) (s : State) : Host.Outcome State Fault Refusal :=
  .next (runPacket (.glkBarrier p) (barrierRule p) p
    (fun id t => if t.flag F.GLK_ROOTSTAT_IS_ROOT then barrierBody p id t else barrierForward p id t) s)

/-- BARRIER_REPLY (R308). -/
def execBarrierReply (id member : Nat) (ack : Bool) (s : State) : Host.Outcome State Fault Refusal := .next (s.takeReply id member ack)

/-- R308 step 4, R309: CONFIRM or CANCEL at a named member; no CONFIRM counts for a barrier whose root was lost before it (R312). -/
def State.takeDecision (s : State) (id : Nat) (confirm : Bool) : State :=
  if confirm then
    if s.glk.void.contains id then s else { s with glk := { s.glk with bars := s.glk.bars.map (fun b => if b.1.id = id then (b.1, true) else b) } }
  else { s with glk := { s.glk with bars := s.glk.bars.filter (fun b => b.1.id != id) } }.showArmed

/-- The decision goes to every named member that is reachable. -/
def State.sendDecision (s : State) (b : RootBar) (confirm : Bool) : State :=
  ((List.range 64).filter (fun m => b.members.testBit m)).foldl (fun t m =>
    if m = t.self then t.takeDecision b.id confirm
    else if (t.reg .GLK_PEERS).testBit m then t.toMember m (.member m (.decision b.id confirm))
    else t) s

/-- The barrier's packet completes. -/
def State.endBarrier (s : State) (id st result : Nat) : State := (s.dropRoot id).complete id st result

/-- BARRIER_DECIDE (R308, R310); a member that is no longer the root confirms nothing (R312). -/
def execBarrierDecide (id : Nat) (s : State) : Host.Outcome State Fault Refusal :=
  .next (match s.glk.roots.find? (fun b => b.id == id && !b.confirmed) with
    | some b =>
      if b.acks = b.members ∧ s.flag F.GLK_ROOTSTAT_IS_ROOT = true then
        let t := (s.setRoot { b with confirmed := true }).sendDecision b true
        if b.members = 0 then t.endBarrier id csDone 0 else t
      else
        let t := ((s.sendDecision b false).setFlag F.GLK_BARSTAT_CANCELLED).anyEvent 0x0C 0x0008
        t.endBarrier id csState (b.members - b.acks)
    | none => s)

/-- BARRIER_CONFIRM (R309). -/
def execBarrierConfirm (id : Nat) (confirm : Bool) (s : State) : Host.Outcome State Fault Refusal := .next (s.takeDecision id confirm)

/-- R310: the root takes a report; with the last one the packet completes. -/
def State.takeReport (s : State) (id member : Nat) (released : Bool) : State :=
  match s.glk.roots.find? (fun b => b.id == id && b.confirmed) with
  | some b =>
    if b.members.testBit member && !b.released.testBit member && !b.missed.testBit member then
      let c := if released then { b with released := b.released + 2 ^ member } else { b with missed := b.missed + 2 ^ member }
      if c.released + c.missed = c.members then
        (s.setRoot c).endBarrier id (if c.missed = 0 then csDone else csClamped) c.missed
      else s.setRoot c
    else s
  | none => s

/-- BARRIER_RELEASE (R309): at T_start a member with CONFIRM signals; one without sets MISSED. -/
def execBarrierRelease (id : Nat) (s : State) : Host.Outcome State Fault Refusal :=
  .next (match s.glk.bars.find? (fun b => b.1.id == id) with
    | some (x, ok) =>
      let t := { s with glk := { s.glk with bars := s.glk.bars.filter (fun b => b.1.id != id) } }.showArmed
      let t := if ok then t.signal x.ctr x.inc else (t.setFlag F.GLK_BARSTAT_MISSED).anyEvent 0x0C 0x0009
      t.toRoot (.report id ok) (fun u => u.takeReport id s.self ok)
    | none => s)

/-- BARRIER_REPORT (R310). -/
def execBarrierReport (id member : Nat) (released : Bool) (s : State) : Host.Outcome State Fault Refusal :=
  .next (s.takeReport id member released)

/-! Program images and the digest (R321, R322; Table GLK-8). -/

/-- An image in the order of Table GLK-6: by partition, then identifier. -/
def insertImage (e : Nat × Nat) : List (Nat × Nat) → List (Nat × Nat)
  | [] => [e]
  | x :: l => if pairLess e.1 e.2 x.1 x.2 then e :: x :: l else x :: insertImage e l

/-- Images of a partition. -/
def State.imagesOf (s : State) (p : Nat) : Nat := (s.glk.images.filter (fun e => e.1 == p)).length

/-- GLK_IMAGE's effect (R322). -/
def imageBody (p : Packet) (id : Nat) (s : State) : State :=
  let e := (p.partition, pNum p 0 16)
  if p.target = 0 then
    (if s.glk.images.contains e = true ∨ 1024 ≤ s.glk.images.length then s.finish id csFormat 0
    else
      let t := { s with glk := { s.glk with images := insertImage e s.glk.images } }.bumpGen
      t.finish id csDone (t.imagesOf p.partition))
  else if s.glk.images.contains e then
    let t := { s with glk := { s.glk with images := s.glk.images.filter (fun x => x != e) } }.bumpGen
    t.finish id csDone (t.imagesOf p.partition)
  else s.finish id csFormat 0

/-- The checks of GLK_IMAGE (see log entry 39, DEDUCED). -/
def glkImageRule (p : Packet) : Rule where
  op := ⟨0xA, 2⟩
  format := pTargetBits p 1 && p.plen == 1 && pZero p 16 32
  fn := some (fnMgmt, none)

/-- GLK_IMAGE (R322, Table GLK-8). -/
def execGlkImage (p : Packet) (s : State) : Host.Outcome State Fault Refusal :=
  .next (runPacket (.glkImage p) (glkImageRule p) p
    (imageBody p) s)

/-- The checks of GLK_DIGEST_READ (see log entry 39, DEDUCED). -/
def glkDigestReadRule (p : Packet) : Rule where
  op := ⟨0xA, 3⟩
  format := p.target == 0 && p.plen == 0
  ext := 2
  fn := some (fnMgmt, none)

/-- GLK_DIGEST_READ (Table GLK-8). -/
def execGlkDigestRead (p : Packet) (s : State) : Host.Outcome State Fault Refusal :=
  .next (runPacket (.glkDigestRead p) (glkDigestReadRule p) p
    (fun id t => t.finish id csDone (t.reg .SYS_DIGEST_TAG) (t.digest ++ toLe 4 (t.reg .SYS_GEN) ++ toLe 12 0)) s)

/-- R325: fencing ends. -/
def State.unfence (s : State) : State := s.putFld F.GLK_DIGSTAT_FENCED 0

/-- The checks of GLK_FENCE_CLEAR (see log entry 39, DEDUCED). -/
def glkFenceClearRule (p : Packet) : Rule where
  op := ⟨0xA, 4⟩
  format := p.target == 0 && p.plen == 0
  p0 := true
  fn := some (fnMgmt, none)

/-- GLK_FENCE_CLEAR (R325, R326). -/
def execGlkFenceClear (p : Packet) (s : State) : Host.Outcome State Fault Refusal :=
  .next (runPacket (.glkFenceClear p) (glkFenceClearRule p) p
    (doneBody csDone 0 [] (fun t => { t.unfence with glk := { t.glk with suspended := true } })) s)

/-- R325: a device whose mismatch is raised fences itself, unless fencing is suspended (see log entry 39, DEDUCED). -/
def State.fence (s : State) : State :=
  if s.flag F.GLK_DIGCFG_FENCE_EN && s.glk.raised && !s.glk.suspended then s.setFlag F.GLK_DIGSTAT_FENCED else s

/-- FENCE_SUSPEND_END (R325): CLEAR_S has passed. -/
def execFenceSuspendEnd (s : State) : Host.Outcome State Fault Refusal :=
  .next (if s.glk.suspended then { s with glk := { s.glk with suspended := false } }.fence else s)

/-! Heartbeats (R323 to R325). -/

/-- Table GLK-7: the own heartbeat. -/
def State.heartbeat (s : State) : List Byte :=
  let flags := b2n (s.flag F.GLK_ROOTSTAT_IS_ROOT) + 2 * b2n (s.flag F.GLK_DIGSTAT_FENCED) + 4 * b2n s.glk.raised +
    8 * b2n (s.flag F.MEMC_CFG_REPEATABLE)
  let bs := toLe 4 0x48424541 ++ toLe 1 1 ++ toLe 1 flags ++ toLe 2 (s.fld F.GLK_DIGCFG_DIGEST_GROUP) ++ toLe 8 (s.reg .GLK_UID) ++
    toLe 4 s.deviceId ++ toLe 4 (s.reg .SYS_GEN) ++ toLe 8 (s.reg .SYS_DIGEST_TAG) ++ toLe 8 s.time ++ toLe 8 (s.reg .GLK_ROOT_UID) ++
    toLe 12 0
  bs ++ toLe 4 (crc32c bs)

/-- R323: the peers of the own group heard within 300 ms. -/
def State.heardPeers (s : State) : List Heard :=
  s.glk.heard.filter (fun h => decide (s.dev.nowNs < h.ns + 300000000) && h.group == s.fld F.GLK_DIGCFG_DIGEST_GROUP)

/-- R324: tags and generations that vote. -/
def State.votes (s : State) : List (Nat × Nat) :=
  (s.reg .SYS_DIGEST_TAG, s.reg .SYS_GEN) :: s.heardPeers.map (fun h => (h.tag, h.gen))

/-- R324: how many hold a tag, and the highest generation with it. -/
def votesFor (l : List (Nat × Nat)) (tag : Nat) : Nat := (l.filter (fun e => e.1 == tag)).length
def topGen (l : List (Nat × Nat)) (tag : Nat) : Nat := ((l.filter (fun e => e.1 == tag)).map (·.2)).foldl max 0

/-- R324: one tag goes before another. -/
def tagBefore (l : List (Nat × Nat)) (a b : Nat) : Bool :=
  let n := votesFor l a
  let m := votesFor l b
  decide (m < n) || (n == m && (decide (topGen l b < topGen l a) || (topGen l a == topGen l b && decide (b < a))))

/-- R324: the reference tag. -/
def referenceTag (l : List (Nat × Nat)) : Nat :=
  (l.map (·.1)).foldl (fun b t => if tagBefore l t b then t else b) ((l.map (·.1)).headD 0)

/-- R324: SYS_CONFIG_MISMATCH with the own tag, the reference tag and both GEN values, which take three records, SOURCE 0 to 2
(see log entry 112, DESIGN CHOICE). -/
def State.logMismatch (s : State) (ref : Nat) : State :=
  ((s.emit 0x01 0x0010 0 (s.reg .SYS_DIGEST_TAG)).emit 0x01 0x0010 1 ref).emit 0x01 0x0010 2 (2 ^ 32 * s.reg .SYS_GEN + topGen s.votes ref % 2 ^ 32)

/-- R324, R325: the own tag against the reference. -/
def State.judgeTag (s : State) (ref : Nat) : State :=
  if s.reg .SYS_DIGEST_TAG = ref then
    let n := min 3 (s.glk.agrees + 1)
    let t := { s with glk := { s.glk with agrees := n, differs := 0, raised := s.glk.raised && decide (n < 3) } }
    if n = 3 ∧ s.flag F.GLK_DIGSTAT_FENCED then t.unfence.anyEvent 0x01 0x0011 else t
  else
    let n := min 3 (s.glk.differs + 1)
    let t := { s with glk := { s.glk with agrees := 0, differs := n } }
    if n = 3 ∧ s.glk.raised = false then
      (({ t with glk := { t.glk with raised := true } }.setFlag F.GLK_DIGSTAT_MISMATCH).logMismatch ref).fence
    else t

/-- R323: the heartbeat goes to every member of the cluster, and to the multicast address and UDP port on the MAC that NETWORK names. -/
def State.sendHeartbeat (s : State) : State := s.send (.heartbeat (s.reg .GLK_PEERS) (s.dev.settings.bind (·.heartbeatTo)) s.heartbeat)

/-- HEARTBEAT_TIMER (R323 to R325): the heartbeat goes out and the tags are compared. -/
def execHeartbeatTimer (s : State) : Host.Outcome State Fault Refusal :=
  .next (if s.dev.settings.isSome then
      let ref := referenceTag s.votes
      let peers := s.heardPeers
      let t := (s.setReg .GLK_REFTAG ref).putFld F.GLK_DIGSTAT_PEERS_HEARD (satNat 13 peers.length)
      let t := t.putFld F.GLK_DIGSTAT_PEERS_DIFF (satNat 13 (peers.filter (fun h => h.tag != ref)).length)
      let t := t.judgeTag ref
      t.sendHeartbeat
    else s)

/-- HEARTBEAT_RX (R323): a heartbeat with a correct CRC marks its peer heard. -/
def execHeartbeatRx (data : List Byte) (s : State) : Host.Outcome State Fault Refusal :=
  let uid := leAt data 8 8
  .next (if data.length = 64 ∧ leAt data 0 4 = 0x48424541 ∧ leAt data 4 1 = 1 ∧ leAt data 0x3C 4 = crc32c (data.take 0x3C) ∧
      uid ≠ s.reg .GLK_UID then
      let h : Heard := { uid := uid, group := leAt data 6 2, gen := leAt data 0x14 4, tag := leAt data 0x18 8, ns := s.dev.nowNs }
      { s with glk := { s.glk with heard := s.glk.heard.filter (fun x => x.uid != uid) ++ [h] } }
    else s)

end Sys2Proof.Machine
end

