-- ==== Sys2Proof/Machine/KvCache.lean ====
section
/-! DEFINITION. The paged key-value cache: the free-page stack, sequences and steps, the prefix tree, the page manager, and
gathers (file 07: R204 to R217, R221 to R241). -/

namespace Sys2Proof.Machine

/-! The free-page stack (R225 to R227). -/

/-- The address of an entry of the stack. -/
def State.stackAddr (s : State) (i : Nat) : Nat := s.fld F.ADMA_STACKBASE_BASE * 32 + 4 * i

/-- HELD of a partition. -/
def State.pagesHeld (s : State) (p : Nat) : Nat := s.reg .ADMA_PHELD p

/-- R226: the reserve of a partition that it has not used. -/
def State.unusedReserve (s : State) (p : Nat) : Nat := s.fld F.ADMA_PQUOTA_RESERVE p - s.pagesHeld p

/-- R226: RES_OUT. -/
def State.resOut (s : State) : Nat := (List.range 64).foldl (fun n q => n + s.unusedReserve q) 0

/-- ADMA_STACKCNT.RES_OUT as the partitions hold pages. -/
def State.showRes (s : State) : State := s.putFld F.ADMA_STACKCNT_RES_OUT s.resOut

/-- R226: pages that a partition could pop. -/
def State.available (s : State) (p : Nat) : Nat :=
  s.fld F.ADMA_STACKCNT_COUNT - (s.resOut - s.unusedReserve p)

/-- R226: a request for k pages is granted. -/
def State.grants (s : State) (p k : Nat) : Bool :=
  decide (s.pagesHeld p + k ≤ s.fld F.ADMA_PQUOTA_QUOTA p ∧ k ≤ s.available p)

/-- The k topmost pages popped for a partition. -/
def State.popPages (p : Nat) : Nat → State → List Nat × State
  | 0, s => ([], s)
  | k + 1, s =>
    let n := s.fld F.ADMA_STACKCNT_COUNT - 1
    let page := s.sysNum (s.stackAddr n) 4
    let t := ((s.putFld F.ADMA_STACKCNT_COUNT n).setOwner page p).setReg .ADMA_PHELD (s.pagesHeld p + 1) p
    let r := State.popPages p k t.showRes
    (page :: r.1, r.2)

/-- R227: a push that is ignored. -/
def State.doubleFree (s : State) (page part : Nat) : State :=
  (s.setFlag F.ADMA_STATUS_DOUBLE_FREE).dataEvent 0x06 0x0009 page part

/-- R227: a page pushed, or ignored as outside the pool or already on the stack. -/
def State.pushPage (s : State) (page : Nat) : State :=
  let o := s.pageOwner page
  if s.inPool page = false ∨ o = 0xFF then s.doubleFree page 0xFF
  else
    let n := s.fld F.ADMA_STACKCNT_COUNT
    let t := (s.sysWriteNum (s.stackAddr n) 4 page).putFld F.ADMA_STACKCNT_COUNT (n + 1)
    ((t.setOwner page 0xFF).setReg .ADMA_PHELD (s.pagesHeld o - 1) o).showRes

/-- ADMA_PUSH (R227). -/
def execAdmaPush (w : RegWrite) (s : State) : Host.Outcome State Fault Refusal :=
  .next (s.regWrite .ADMA (s.p0 w.initiator) (s.pushPage (w.value % 2 ^ 32)))

/-- R210, R220: a page of a sequence of the partition pushed; one of another owner fails the owner check. -/
def State.pushOwn (s : State) (p page : Nat) : State × Nat :=
  if s.pageOwner page = p ∧ s.inPool page then (s.pushPage page, 1)
  else if s.inPool page ∧ s.pageOwner page ≠ 0xFF then (s.ownerFail (initiator 3 p), 0)
  else (s.pushPage page, 0)

/-- Pages of a partition pushed in order, counted. -/
def pushPages (p : Nat) : List Nat → State → State × Nat
  | [], s => (s, 0)
  | g :: l, s =>
    let a := s.pushOwn p g
    let b := pushPages p l a.1
    (b.1, a.2 + b.2)

/-! Nodes (R230, Table ADMA-5). -/

/-- The address of a node. -/
def State.nodeAddr (s : State) (k : Nat) : Nat :=
  s.fld F.ADMA_NODEBASE_BASE * 64 + k * 2 ^ s.fld F.ADMA_NODECFG_NODE_LOG2

/-- A field of a node. -/
def State.nodeNum (s : State) (k off n : Nat) : Nat := s.sysNum (s.nodeAddr k + off) n

/-- A field of a node written. -/
def State.nodePut (s : State) (k off n v : Nat) : State := s.sysWriteNum (s.nodeAddr k + off) n v

def State.nodeHash (s : State) (k : Nat) : Nat := s.nodeNum k 0x00 8
def State.nodeParent (s : State) (k : Nat) : Nat := s.nodeNum k 0x08 4
def State.nodeRefs (s : State) (k : Nat) : Nat := s.nodeNum k 0x10 4
def State.nodeChildren (s : State) (k : Nat) : Nat := s.nodeNum k 0x14 4
def State.nodeUsed (s : State) (k : Nat) : Nat := s.nodeNum k 0x18 8
def State.nodeValid (s : State) (k : Nat) : Bool := s.nodeNum k 0x20 1 == 1
def State.nodeLayout (s : State) (k : Nat) : Nat := s.nodeNum k 0x21 1
def State.nodePart (s : State) (k : Nat) : Nat := s.nodeNum k 0x22 1

/-- The pages of a node. -/
def State.nodePages (s : State) (k l : Nat) : List Nat := (List.range (s.layFull l)).map (fun i => s.nodeNum k (0x40 + 4 * i) 4)

/-- The node index exists. -/
def State.nodeExists (s : State) (k : Nat) : Bool := decide (k < s.fld F.ADMA_NODECFG_NODE_COUNT)

/-- The address of a hash's bucket. -/
def State.bucketAddr (s : State) (hash : Nat) : Nat :=
  s.fld F.ADMA_BKTBASE_BASE * 64 + 4 * (hash % 2 ^ s.fld F.ADMA_NODECFG_BKT_LOG2)

/-- The nodes of a chain from one on, at most as many as there are nodes. -/
def State.chainFrom (s : State) : Nat → Nat → List Nat
  | 0, _ => []
  | n + 1, k => if s.nodeExists k then k :: s.chainFrom n (s.nodeNum k 0x0C 4) else []

/-- The nodes of a hash's bucket in order. -/
def State.chain (s : State) (hash : Nat) : List Nat :=
  s.chainFrom (s.fld F.ADMA_NODECFG_NODE_COUNT) (s.sysNum (s.bucketAddr hash) 4)

/-- The links of a chain's nodes written. -/
def linkNodes : List Nat → State → State
  | [], s => s
  | k :: l, s => linkNodes l (s.nodePut k 0x0C 4 (l.headD noneWord))

/-- A hash's bucket made of nodes in order. -/
def State.setChain (s : State) (hash : Nat) (l : List Nat) : State :=
  linkNodes l (s.sysWriteNum (s.bucketAddr hash) 4 (l.headD noneWord))

/-- The neighbours of the reclaim list's nodes written. -/
def linkReclaim : Nat → List Nat → State → State
  | _, [], s => s
  | prev, k :: l, s => linkReclaim k l ((s.nodePut k 0x24 4 prev).nodePut k 0x28 4 (l.headD noneWord))

/-- The reclaim list set. -/
def State.setReclaim (s : State) (l : List Nat) : State :=
  linkReclaim noneWord l { s with kv := { s.kv with reclaim := l } }

/-- A node put on the reclaim list by its LAST_USE, behind those with an equal one. -/
def State.listNode (s : State) (k : Nat) : State :=
  let u := s.nodeUsed k
  s.setReclaim (s.kv.reclaim.filter (fun x => decide (s.nodeUsed x ≤ u)) ++ k ::
    s.kv.reclaim.filter (fun x => decide (u < s.nodeUsed x)))

/-- R234: a node with neither references nor children goes on the reclaim list. -/
def State.checkReclaim (s : State) (k : Nat) : State :=
  if s.nodeValid k && s.nodeRefs k == 0 && s.nodeChildren k == 0 && !s.kv.reclaim.contains k then s.listNode k else s

/-- A node taken off the reclaim list. -/
def State.unlistNode (s : State) (k : Nat) : State :=
  if s.kv.reclaim.contains k then
    ((s.setReclaim (s.kv.reclaim.filter (fun x => x != k))).nodePut k 0x24 4 noneWord).nodePut k 0x28 4 noneWord
  else s

/-- R234: a shared row's node loses a reference. -/
def State.releaseNode (s : State) (p k : Nat) : State :=
  if s.nodeExists k && s.nodeValid k && s.nodePart k == p then
    ((s.nodePut k 0x10 4 (s.nodeRefs k - 1)).nodePut k 0x18 8 s.time).checkReclaim k
  else s.ownerFail (initiator 3 p)

/-- Nodes that a partition holds. -/
def State.nodesOf (s : State) (p : Nat) : Nat := sparseGet (fun _ => 0) s.kv.nodesHeld p

/-- Nodes of a partition set. -/
def State.setNodesOf (s : State) (p n : Nat) : State :=
  { s with kv := { s.kv with nodesHeld := sparseSet (fun _ => 0) s.kv.nodesHeld p n } }

/-- R234: a node reclaimed: its pages pushed, its parent's CHILDREN less by one, the node free. Answers the pages. -/
def State.reclaimNode (s : State) (k : Nat) : State × Nat :=
  let p := s.nodePart k
  let par := s.nodeParent k
  let a := pushPages p (s.nodePages k (s.nodeLayout k)) (s.unlistNode k)
  let t := a.1.setChain (s.nodeHash k) ((a.1.chain (s.nodeHash k)).filter (fun x => x != k))
  let t := (t.nodePut k 0x20 1 0).nodePut k 0x0C 4 (t.kv.nodeFree.headD noneWord)
  let t := { t.setNodesOf p (t.nodesOf p - 1) with kv := { (t.setNodesOf p (t.nodesOf p - 1)).kv with nodeFree := k :: t.kv.nodeFree } }
  (if par = noneWord then t else (t.nodePut par 0x14 4 (t.nodeChildren par - 1)).checkReclaim par, a.2)

/-! SipHash-2-4 (R229). -/

/-- Addition modulo 2^64. -/
def add64 (a b : Nat) : Nat := (a + b) % 2 ^ 64

/-- Rotation left of 64 bits. -/
def rotl64 (a n : Nat) : Nat := a * 2 ^ n % 2 ^ 64 + a / 2 ^ (64 - n)

/-- SipHash's four words. -/
structure Sip where
  a : Nat
  b : Nat
  c : Nat
  d : Nat
  deriving DecidableEq, Repr

/-- One SipRound. -/
def Sip.round (v : Sip) : Sip :=
  let a := add64 v.a v.b
  let b := rotl64 v.b 13 ^^^ a
  let a := rotl64 a 32
  let c := add64 v.c v.d
  let d := rotl64 v.d 16 ^^^ c
  let a := add64 a d
  let d := rotl64 d 21 ^^^ a
  let c := add64 c b
  let b := rotl64 b 17 ^^^ c
  { a := a, b := b, c := rotl64 c 32, d := d }

/-- A message word taken in with two rounds. -/
def Sip.absorb (v : Sip) (m : Nat) : Sip :=
  let w := ({ v with d := v.d ^^^ m }).round.round
  { w with a := w.a ^^^ m }

/-- Whole words of a message, as many as given. -/
def Sip.words : Nat → List Byte → Sip → Sip
  | 0, _, v => v
  | n + 1, bs, v => Sip.words n (bs.drop 8) (v.absorb (leNat (bs.take 8)))

/-- SipHash-2-4 under a key of two words. -/
def siphash (k0 k1 : Nat) (m : List Byte) : Nat :=
  let v : Sip := ⟨k0 ^^^ 0x736f6d6570736575, k1 ^^^ 0x646f72616e646f6d, k0 ^^^ 0x6c7967656e657261, k1 ^^^ 0x7465646279746573⟩
  let n := m.length / 8
  let v := (Sip.words n m v).absorb (2 ^ 56 * (m.length % 256) + leNat (m.drop (8 * n)))
  let v := ({ v with c := v.c ^^^ 0xFF }).round.round.round.round
  v.a ^^^ v.b ^^^ v.c ^^^ v.d

/-- R229: the hash of a block: the hash before it, the layout, P and the token IDs. -/
def State.blockHash (s : State) (p l before : Nat) (tokens : List Byte) : Nat :=
  siphash (s.reg .ADMA_HKEY p 0) (s.reg .ADMA_HKEY p 1) (toLe 8 before ++ toLe 4 l ++ toLe 4 (s.layP l) ++ tokens)

/-- R229: the sequence uses the tree. -/
def State.usesTree (s : State) (p q : Nat) : Bool :=
  s.seqPosBase p q == 0 && !s.seqFlag p q 1 && s.flag F.ADMA_LAYOUT_PREFIX_EN (s.seqLayout p q)

/-- The node of block j - 1, none for block 0; absent where the last shared node is not that block's. -/
def State.prevNode (s : State) (p q j : Nat) : Option Nat :=
  if j = 0 then some noneWord
  else if s.seqLastNode p q ≠ noneWord ∧ s.sysNum (s.rowAddr p q (j - 1) 0) 4 = s.seqLastNode p q then some (s.seqLastNode p q)
  else none

/-- The hash that block j's message starts with. -/
def State.prevHash (s : State) (node : Nat) : Nat := if node = noneWord then 0 else s.nodeHash node

/-- The first VALID node of a partition in a bucket with a hash. -/
def State.hashNode (s : State) (p hash : Nat) : Option Nat :=
  (s.chain hash).find? (fun k => s.nodeValid k && s.nodePart k == p && s.nodeHash k == hash)

/-- R231: the node that matches a block. -/
def State.matchNode (s : State) (p l parent hash : Nat) (tokens : List Byte) : Option Nat :=
  match s.hashNode p hash with
  | some k =>
    if s.nodeLayout k = l ∧ s.nodeParent k = parent ∧
        s.sysBytes (s.nodeAddr k + tokenOff (s.layFull l)) (4 * s.layP l) = tokens then some k else none
  | none => none

/-! Sequences. -/

/-- The parked sequences shown in ADMA_PMSTAT, with the pages that they want. -/
def State.showParked (s : State) : State :=
  (s.putFld F.ADMA_PMSTAT_PARKED (satNat 16 s.kv.parked.length)).putFld F.ADMA_PMSTAT_DEMAND
    (satNat 16 (s.kv.parked.foldl (fun n e => n + s.seqDemand e.1 e.2) 0))

/-- A sequence that is no longer parked: its PARK_TIME is 0 (Table ADMA-1). -/
def State.unpark (s : State) (p q : Nat) : State :=
  let t := s.seqPut p q 0x30 8 0
  ({ t with kv := { t.kv with
      parked := t.kv.parked.filter (fun e => e != (p, q)), signalled := t.kv.signalled.filter (fun e => e != (p, q)) } }).showParked

/-- R236: a sequence that becomes PARKED for a starvation of a time; the first PARK_TIME is kept. -/
def State.park (s : State) (p q at_ : Nat) : State :=
  let t := s.seqPut p q 0 1 2
  let t := if s.seqParkTime p q = 0 then t.seqPut p q 0x30 8 at_ else t
  ({ t with kv := { t.kv with
      parked := t.kv.parked.filter (fun e => e != (p, q)) ++ [(p, q)],
      signalled := t.kv.signalled.filter (fun e => e != (p, q)) } }).showParked

/-- The pages of a block row. -/
def State.rowPages (s : State) (p q j : Nat) : List Nat :=
  (List.range (s.layFull (s.seqLayout p q))).map (fun l => s.sysNum (s.rowAddr p q j (1 + l)) 4)

/-- The pages in a sequence's ring table, by layer and slot. -/
def State.ringPages (s : State) (p q : Nat) : List Nat :=
  (List.range (s.layRing (s.seqLayout p q))).flatMap (fun l =>
    ((List.range (s.layWPages (s.seqLayout p q))).map (fun k => s.sysNum (s.ringAddr p q l k) 4)).filter (fun g => g != noneWord))

/-- R234: a row released: private pages pushed, a shared row's node released. -/
def State.freeRow (s : State) (p q j : Nat) : State × Nat :=
  let node := s.sysNum (s.rowAddr p q j 0) 4
  if node = noneWord then pushPages p (s.rowPages p q j) s else (s.releaseNode p node, 0)

/-- R234: the rows of a list released. -/
def freeRows (p q : Nat) : List Nat → State → State × Nat
  | [], s => (s, 0)
  | j :: l, s =>
    let a := s.freeRow p q j
    let b := freeRows p q l a.1
    (b.1, a.2 + b.2)

/-- R234: a sequence's blocks and ring released; the pages pushed. -/
def State.freeSeq (s : State) (p q : Nat) : State × Nat :=
  let a := freeRows p q (List.range (s.seqBlocks p q)) s
  let b := pushPages p (s.ringPages p q) a.1
  (b.1, a.2 + b.2)

/-- EVT_CTR signalled by 1 where EVT_EN is set (Table ADMA-1). -/
def State.signalSeq (s : State) (p q : Nat) : State :=
  if s.seqFlag p q 0 then s.signal (s.seqNum p q 0x38 2) 1 else s

/-! Packets (R240). -/

/-- The rule of a KV packet that names a sequence. -/
def kvRule (code : Nat) (p : Packet) (s : State) (format : Bool) : Rule where
  op := ⟨5, code⟩
  format := p.target < s.reg .ADMA_SEQCNT p.partition % 2 ^ 24 && format
  fn := some (fnAdma, none)

/-- A KV packet on a sequence in a state that accepts it; a TERMINATED one completes KV_TERMINATED. -/
def kvBody (p : Packet) (accepts : State → Bool) (body : Nat → State → State) (id : Nat) (s : State) : State :=
  if s.seqState p.partition p.target = 4 then s.finish id csTerminated 0
  else if accepts s then body id s else s.finish id csState 0

/-- KV_CREATE's layout. -/
def kvLayout (p : Packet) : Nat := pNum p 1 1

/-- R489, R205, R208: KV_CREATE's fields. -/
def kvCreateFormat (p : Packet) (s : State) : Bool :=
  p.plen == 2 && pZero p 0 1 && pZero p 4 8 && pZero p 0x0C 0x10 && pZero p 0x1C 0x20 && pZero p 0x30 0x38 && pZero p 0x3A 0x40 &&
    decide (kvLayout p < 64 ∧ pNum p 2 2 < 4) && s.flag F.ADMA_LAYOUT_VALID (kvLayout p) &&
    (s.layRing (kvLayout p) != 0 || pNum p 0x20 8 == 0)

/-- R210: what KV_CREATE names lies in the partition's memory: page list, ring table and token list. -/
def kvCreateAccess (p : Packet) (s : State) : List (Nat × Nat × Bool) :=
  let l := kvLayout p
  let cap := pNum p 0x18 4
  [(pNum p 0x10 8, max 1 (4 * (1 + s.layFull l) * cap), true), (pNum p 0x28 8, max 1 (4 * s.layP l * cap), true)] ++
    (if s.layRing l = 0 then [] else [(pNum p 0x20 8, max 1 (4 * s.layRing l * s.layWPages l), true)])

/-- The rule of KV_CREATE. -/
def kvCreateRule (p : Packet) (s : State) : Rule :=
  { kvRule 1 p s (kvCreateFormat p s) with
    access := kvCreateAccess p s
    permit := s.fld F.ADMA_LAYOUT_PARTITION (kvLayout p) == p.partition &&
      ((pNum p 2 2).testBit 0 == false || s.ownsCtr p.partition (pNum p 0x38 2)) }

/-- R229, R240: the entry written; PRIVATE_ONLY is set for a sequence that cannot use the tree, and the ring is marked empty. -/
def kvCreateBody (p : Packet) (id : Nat) (s : State) : State :=
  let part := p.partition
  let q := p.target
  let l := kvLayout p
  let tree := pNum p 8 4 == 0 && s.flag F.ADMA_LAYOUT_PREFIX_EN l
  let flags := pNum p 2 2 % 2 + (if tree && !(pNum p 2 2).testBit 1 then 0 else 2)
  let e := toLe 1 1 ++ toLe 1 l ++ toLe 2 flags ++ toLe 4 0 ++ toLe 4 (pNum p 8 4) ++ toLe 4 0 ++ toLe 8 (pNum p 0x10 8) ++
    toLe 4 (pNum p 0x18 4) ++ toLe 4 noneWord ++ toLe 8 (pNum p 0x20 8) ++ toLe 8 (pNum p 0x28 8) ++ toLe 8 0 ++
    toLe 2 (pNum p 0x38 2) ++ toLe 2 0 ++ toLe 4 0
  ((s.sysWrite (s.seqAddr part q) e).sysWrite (pNum p 0x20 8)
    (List.replicate (4 * s.layRing l * s.layWPages l) 0xFF)).finish id csDone 0

/-- KV_CREATE (R240). -/
def execKvCreate (p : Packet) (s : State) : Host.Outcome State Fault Refusal :=
  .next (runPacket (.kvCreate p) (kvCreateRule p s) p
    (kvBody p (fun t => t.seqState p.partition p.target == 0) (kvCreateBody p)) s)

/-- R232: blocks matched in order; the tokens matched. n bounds the blocks. -/
def attachBlocks (p q : Nat) : Nat → List Byte → State → State × Nat
  | 0, _, s => (s, 0)
  | n + 1, toks, s =>
    let l := s.seqLayout p q
    let j := s.seqBlocks p q
    let bs := toks.take (4 * s.layP l)
    if s.seqCap p q ≤ j then (s, 0)
    else
      match s.prevNode p q j with
      | none => (s.addFld F.ADMA_PIUCNT_MISS 1, 0)
      | some par =>
        match s.matchNode p l par (s.blockHash p l (s.prevHash par) bs) bs with
        | none => (s.addFld F.ADMA_PIUCNT_MISS 1, 0)
        | some k =>
          let t := ((s.nodePut k 0x10 4 (s.nodeRefs k + 1)).unlistNode k).nodePut k 0x18 8 s.time
          let t := t.sysWrite (s.rowAddr p q j 0) (toLe 4 k ++ (s.nodePages k l).flatMap (toLe 4))
          let t := t.sysWrite (s.seqTokens p q + 4 * s.seqLength p q) bs
          let t := ((t.seqPut p q 0x04 4 (s.seqLength p q + s.layP l)).seqPut p q 0x0C 4 (j + 1)).seqPut p q 0x1C 4 k
          let r := attachBlocks p q n (toks.drop (4 * s.layP l)) (t.addFld F.ADMA_PIUCNT_HIT 1)
          (r.1, r.2 + s.layP l)

/-- R489: the format of KV_ATTACH. -/
def kvAttachFormat (p : Packet) : Bool :=
  let n := pNum p 0 4
  decide (1 ≤ p.plen) && p.plen == 1 + (n + 7) / 8 && pZero p 4 32 && pZero p (32 + 4 * n) (32 * p.plen)

/-- Table ADMA-6: the state that KV_ATTACH requires. -/
def kvAttachOk (p : Packet) (s : State) : Bool :=
  let a := p.partition
  let q := p.target
  s.seqState a q == 1 && !s.seqFlag a q 2 && !s.seqFlag a q 3 && s.seqLength a q == s.seqBlocks a q * s.layP (s.seqLayout a q)

/-- R232: the match of KV_ATTACH. -/
def kvAttachBody (p : Packet) (id : Nat) (s : State) : State :=
  if s.usesTree p.partition p.target then
    let n := pNum p 0 4 / s.layP (s.seqLayout p.partition p.target)
    let r := attachBlocks p.partition p.target n (bytesAt p.payload 32 (4 * pNum p 0 4)) s
    r.1.finish id csDone r.2
  else s.finish id csDone 0

/-- KV_ATTACH (R232). -/
def execKvAttach (p : Packet) (s : State) : Host.Outcome State Fault Refusal :=
  .next (runPacket (.kvAttach p) (kvRule 2 p s (kvAttachFormat p)) p (kvBody p (kvAttachOk p) (kvAttachBody p)) s)

/-! KV_STEP (R211 to R214). -/

/-- COUNT of a step table. -/
def stepCount (p : Packet) : Nat := pNum p 0 2

/-- Entry e of a step table. -/
def stepEntry (p : Packet) (e : Nat) : Nat := pNum p (0x20 + 8 * e) 8

/-- The tokens of an entry. -/
def stepNew (p : Packet) (e : Nat) : Nat := bitsOf (stepEntry p e) 39 32 + 1

/-- The sequence of an entry. -/
def stepSeq (p : Packet) (e : Nat) : Nat := stepEntry p e % 2 ^ 24

/-- The first row of entry e: the sum of NEW over the earlier entries. -/
def stepRow (p : Packet) : Nat → Nat
  | 0 => 0
  | e + 1 => stepRow p e + stepNew p e

/-- Where the token IDs start. -/
def stepTokens (p : Packet) : Nat := roundUp (0x20 + 8 * stepCount p) 32

/-- R211: the format of KV_STEP. -/
def kvStepFormat (p : Packet) : Bool :=
  let n := stepCount p
  decide (1 ≤ p.plen ∧ 1 ≤ n ∧ n ≤ 128 ∧ stepRow p n ≤ 128) && p.target == 0 && pZero p 3 8 &&
    decide (stepTokens p + 4 * stepRow p n ≤ 32 * p.plen ∧ pNum p 8 8 % 32 = 0) &&
    (List.range n).all (fun e => bitsOf (stepEntry p e) 31 24 == 0 && bitsOf (stepEntry p e) 63 40 == 0)

/-- The rule of KV_STEP. -/
def kvStepRule (p : Packet) : Rule where
  op := ⟨5, 3⟩
  format := kvStepFormat p
  access := [(pNum p 8 8, 1024, true), (pNum p 0x10 8, 16, true), (pNum p 0x18 8, max 1 (stepCount p), true)]
  fn := some (fnAdma, none)

/-- When a swapped sequence was first asked in. -/
def State.askedAt (s : State) (p q : Nat) : Option Nat := (s.kv.wanted.find? (fun e => e.1 == (p, q))).map (·.2)

/-- R236: an entry starves. A SWAPPED sequence stays so and is asked in (R238; see log entry 101, DESIGN CHOICE). -/
def State.starve (s : State) (p q want : Nat) : State :=
  let t := (s.seqPut p q 0x3A 2 (satNat 16 want)).setFlag F.ADMA_STATUS_STARVED
  let t := if s.seqState p q = 3 then
      if (s.askedAt p q).isSome then t else { t with kv := { t.kv with wanted := t.kv.wanted ++ [((p, q), s.time)] } }
    else t.park p q s.time
  t.dataEvent 0x06 0x0001 q p

/-- The pages of a new block written: its row, then its ring slots. -/
def State.writeBlock (s : State) (p q j : Nat) (pages : List Nat) : State :=
  let l := s.seqLayout p q
  let n := s.layFull l
  let t := s.sysWrite (s.rowAddr p q j 0) (toLe 4 noneWord ++ (pages.take n).flatMap (toLe 4))
  if j < s.layWPages l then
    (List.range (s.layRing l)).foldl (fun u k => u.sysWriteNum (s.ringAddr p q k j) 4 ((pages.drop n).getD k noneWord)) t
  else t

/-- The pages of new blocks from j on. -/
def writeBlocks (p q : Nat) : Nat → Nat → List Nat → State → State
  | 0, _, _, s => s
  | n + 1, j, pages, s =>
    let d := s.demand (s.seqLayout p q) j
    writeBlocks p q n (j + 1) (pages.drop d) (s.writeBlock p q j (pages.take d))

/-- R212 step 4: an entry admitted. n new blocks, pages for them, and the token IDs. -/
def State.admitPages (s : State) (p q n : Nat) (pages : List Nat) (toks : List Byte) : State :=
  let j := s.seqBlocks p q
  let t := writeBlocks p q n j pages s
  let t := (t.seqPut p q 0x0C 4 (j + n)).seqPut p q 0x3C 4 (s.time / 1000000 % 2 ^ 32)
  let t := (t.sysWrite (s.seqTokens p q + 4 * s.seqLength p q) toks).seqSetFlag p q 2 true
  if s.seqState p q = 2 then
    ((t.seqPut p q 0 1 1).unpark p q).dataEvent 0x06 0x0002 q p
  else t

/-- R212: one entry: its status, the pages popped, and the state. -/
def State.stepOne (s : State) (p l q new : Nat) (toks : List Byte) : Nat × Nat × State :=
  if s.seqExists p q = false then (csFormat, 0, s)
  else if s.seqFlag p q 2 ∨ s.seqState p q = 0 ∨ s.seqLayout p q ≠ l then (csState, 0, s)
  else if s.seqState p q = 4 then (csTerminated, 0, s)
  else
    let j := s.seqBlocks p q
    let n := (s.seqLength p q + new - 1) / s.layP l + 1 - j
    let want := (List.range n).foldl (fun k i => k + s.demand l (j + i)) 0
    if s.seqState p q = 3 then (csStarved, 0, s.starve p q want)
    else if n ≠ 0 ∧ s.seqCap p q < j + n then (csFormat, 0, s)
    else if want ≠ 0 ∧ s.grants p want = false then (csStarved, 0, s.starve p q want)
    else
      let r := State.popPages p want s
      (csDone, want, r.2.admitPages p q n r.1 toks)

/-- What KV_STEP gathers over its entries: row map entries, status bytes, rows admitted, entries refused, pages popped. -/
structure StepOut where
  rows : List Nat := []
  status : List Nat := []
  admitted : Nat := 0
  refused : Nat := 0
  popped : Nat := 0
  deriving DecidableEq, Repr

/-- R213: the row map entries of an entry of n rows. -/
def rowWords (pos q n : Nat) (ok : Bool) : List Nat :=
  (List.range n).map (fun i => (pos + i) % 2 ^ 32 + 2 ^ 32 * q + 2 ^ 60 * b2n (i == 0) + 2 ^ 61 * b2n (!ok) +
    2 ^ 62 * b2n (i + 1 == n) + 2 ^ 63 * b2n ok)

/-- The entries of a step in order. -/
def stepAll (p : Packet) : List Nat → StepOut × State → StepOut × State
  | [], r => r
  | e :: l, (o, s) =>
    let part := p.partition
    let q := stepSeq p e
    let new := stepNew p e
    let toks := bytesAt p.payload (stepTokens p + 4 * stepRow p e) (4 * new)
    let pos := if s.seqExists part q then s.seqPosBase part q + s.seqLength part q else 0
    let r := s.stepOne part (pNum p 2 1) q new toks
    let ok := r.1 == csDone
    stepAll p l ({ rows := o.rows ++ rowWords pos q new ok, status := o.status ++ [r.1],
                   admitted := o.admitted + (if ok then new else 0), refused := o.refused + b2n (!ok),
                   popped := o.popped + r.2.1 }, r.2.2)

/-- R213: the mask of a row map: bit r is VALID of row r. -/
def maskOf : List Nat → Nat
  | [] => 0
  | w :: l => b2n (w.testBit 63) + 2 * maskOf l

/-- KV_STEP's effect: the entries, then row map, mask and status array, then the completion (R213, R214). -/
def kvStepBody (p : Packet) (id : Nat) (s : State) : State :=
  let r := stepAll p (List.range (stepCount p)) ({}, s)
  let o := r.1
  let t := r.2.writeBytes (pNum p 8 8) (padTo 1024 (o.rows.flatMap (toLe 8)))
  let t := (t.writeNum (pNum p 0x10 8) 16 (maskOf o.rows)).writeBytes (pNum p 0x18 8) (o.status.map (BitVec.ofNat 8))
  t.finish id (if o.refused = 0 then csDone else csClamped) (o.admitted + 2 ^ 16 * o.refused + 2 ^ 32 * o.popped)

/-- KV_STEP (R212). -/
def execKvStep (p : Packet) (s : State) : Host.Outcome State Fault Refusal :=
  .next (runPacket (.kvStep p) (kvStepRule p) p (kvStepBody p) s)

/-! KV_COMMIT (R216, R233). -/

/-- R233: an insertion that leaves the block private. -/
def State.breakChain (s : State) (p q : Nat) : State := s.seqSetFlag p q 3 true

/-- R233: a free node: one that came back, or the next never used (see log entry 45, DESIGN CHOICE). -/
def State.takeNode (s : State) : Option (Nat × State) :=
  match s.kv.nodeFree with
  | k :: l => some (k, { s with kv := { s.kv with nodeFree := l } })
  | [] => if s.nodeExists s.kv.nodeNext then
      some (s.kv.nodeNext, { s with kv := { s.kv with nodeNext := s.kv.nodeNext + 1 } }) else none

/-- R233: the partition's node quota is reached; a partition without one has none. -/
def State.nodeQuotaFull (s : State) (p : Nat) : Bool :=
  match s.dev.settings with
  | some t => ((t.nodeQuota.find? (fun e => e.1 == p)).map (fun e => decide (e.2 ≤ s.nodesOf p))).getD false
  | none => false

/-- A node's contents written (Table ADMA-5). -/
def State.fillNode (s : State) (k p l hash par : Nat) (pages : List Nat) (toks : List Byte) : State :=
  let t := s.sysWrite (s.nodeAddr k) (toLe 8 hash ++ toLe 4 par ++ toLe 4 noneWord ++ toLe 4 1 ++ toLe 4 0 ++ toLe 8 s.time ++
    toLe 1 1 ++ toLe 1 l ++ toLe 1 p ++ toLe 1 0 ++ toLe 4 noneWord ++ toLe 4 noneWord ++ List.replicate 20 0 ++
    pages.flatMap (toLe 4))
  t.sysWrite (s.nodeAddr k + tokenOff pages.length) toks

/-- R233: NODE_FULL. -/
def State.nodeFull (s : State) (p q : Nat) : State :=
  ((s.setFlag F.ADMA_STATUS_NODE_FULL).breakChain p q).dataEvent 0x06 0x0008 q p

/-- R233: block j inserted, with whether it was. -/
def State.insertBlock (s : State) (p q j : Nat) : State × Nat :=
  let l := s.seqLayout p q
  let toks := s.sysBytes (s.seqTokens p q + 4 * (j * s.layP l)) (4 * s.layP l)
  if s.usesTree p q = false ∨ s.seqFlag p q 3 ∨ s.seqBlocks p q ≤ j then (s, 0)
  else
    match s.prevNode p q j with
    | none => (s, 0)
    | some par =>
      let hash := s.blockHash p l (s.prevHash par) toks
      if (s.hashNode p hash).isSome then
        (((s.addFld F.ADMA_PIUCNT_COLLIDE 1).breakChain p q).dataEvent 0x06 0x0007 q p, 0)
      else if s.nodeQuotaFull p then (s.nodeFull p q, 0)
      else
        match s.takeNode with
        | none => (s.nodeFull p q, 0)
        | some (k, t) =>
          let t := t.fillNode k p l hash par (s.rowPages p q j) toks
          let t := (t.setChain hash (k :: t.chain hash)).setNodesOf p (s.nodesOf p + 1)
          let t := (t.sysWriteNum (s.rowAddr p q j 0) 4 k).seqPut p q 0x1C 4 k
          (if par = noneWord then t else t.nodePut par 0x14 4 (s.nodeChildren par + 1), 1)

/-- Blocks inserted in order. -/
def insertBlocks (p q : Nat) : List Nat → State → State × Nat
  | [], s => (s, 0)
  | j :: l, s =>
    let a := s.insertBlock p q j
    let b := insertBlocks p q l a.1
    (b.1, a.2 + b.2)

/-- R216: a row with VALID and LAST whose sequence is IN_STEP. -/
def State.commitRow (s : State) (p rowmap r : Nat) : State × Nat :=
  let e := s.rowEntry rowmap r
  if e.valid ∧ e.last ∧ s.seqExists p e.seq ∧ s.seqFlag p e.seq 2 then
    let old := s.seqLength p e.seq
    let len := (e.pos + 2 ^ 32 - s.seqPosBase p e.seq + 1) % 2 ^ 32
    let P := s.layP (s.seqLayout p e.seq)
    let t := (s.seqPut p e.seq 4 4 len).seqSetFlag p e.seq 2 false
    insertBlocks p e.seq ((List.range (len / P)).filter (fun j => decide (old / P ≤ j))) t
  else (s, 0)

/-- The rows of a row map committed. -/
def commitRows (p rowmap : Nat) : List Nat → State → State × Nat
  | [], s => (s, 0)
  | r :: l, s =>
    let a := s.commitRow p rowmap r
    let b := commitRows p rowmap l a.1
    (b.1, a.2 + b.2)

/-- The checks of KV_COMMIT. -/
def kvCommitRule (p : Packet) : Rule where
  op := ⟨5, 4⟩
  format := p.target < 2 ^ 48 && p.target % 32 == 0 && p.plen == 0
  access := [(p.target, 1024, false)]
  fn := some (fnAdma, none)

/-- KV_COMMIT (R216): RESULT is the blocks inserted. -/
def execKvCommit (p : Packet) (s : State) : Host.Outcome State Fault Refusal :=
  .next (runPacket (.kvCommit p) (kvCommitRule p) p
    (fun id t =>
      let r := commitRows p.partition p.target (List.range 128) t
      r.1.finish id csDone r.2) s)

/-! KV_FREE, KV_QUERY. -/

/-- A sequence's swapped copy discarded. -/
def State.dropCopy (s : State) (p q : Nat) : State :=
  { s with kv := { s.kv with swapped := s.kv.swapped.filter (fun e => !(e.1 == p && e.2.1 == q)),
                             wanted := s.kv.wanted.filter (fun e => e.1 != (p, q)) } }

/-- KV_FREE's effect (R234, R240). -/
def kvFreeBody (p : Packet) (id : Nat) (s : State) : State :=
  let a := p.partition
  let q := p.target
  if s.seqState a q = 0 ∨ s.seqFlag a q 2 ∨ s.seqFlag a q 4 then s.finish id csState 0
  else
    let r := if s.seqState a q = 1 ∨ s.seqState a q = 2 then s.freeSeq a q else (s, 0)
    (((r.1.seqPut a q 0 1 0).unpark a q).dropCopy a q).finish id csDone r.2

/-- KV_FREE (R234). -/
def execKvFree (p : Packet) (s : State) : Host.Outcome State Fault Refusal :=
  .next (runPacket (.kvFree p) (kvRule 5 p s (p.plen == 0)) p (kvFreeBody p) s)

/-- The checks of KV_QUERY. -/
def kvQueryRule (p : Packet) (s : State) : Rule := { kvRule 6 p s (p.plen == 0) with ext := 2 }

/-- KV_QUERY (R240): RESULT is STATE, and the entry follows in two EXT slots. -/
def execKvQuery (p : Packet) (s : State) : Host.Outcome State Fault Refusal :=
  .next (runPacket (.kvQuery p) (kvQueryRule p s) p
    (fun id t => t.finish id csDone (t.seqState p.partition p.target) (t.sysBytes (t.seqAddr p.partition p.target) 64)) s)

/-! The page manager (R237 to R239). -/

/-- R237 step 1: the oldest node that may be reclaimed for a partition. -/
def State.oldNode (s : State) (p : Nat) : Option Nat :=
  s.kv.reclaim.find? (fun k => s.nodePart k == p ||
    decide (s.fld F.ADMA_PQUOTA_RESERVE (s.nodePart k) < s.pagesHeld (s.nodePart k)))

/-- R237 step 1: nodes reclaimed until a demand would be granted, at most n of them. -/
def reclaimFor (p want : Nat) : Nat → State → State
  | 0, s => s
  | n + 1, s =>
    if s.grants p want then s
    else match s.oldNode p with
      | none => s
      | some k =>
        let r := s.reclaimNode k
        reclaimFor p want n (r.1.dataEvent 0x06 0x0003 r.2 (s.nodePart k))

/-- R237 step 2: the partition that swaps come from: with a backing store, above its reserve, of lowest shares. -/
def State.swapPart (s : State) : Option Nat :=
  ((List.range 64).filter (fun p => s.fld F.ADMA_BACKING_MODE p != 0 &&
    decide (s.fld F.ADMA_PQUOTA_RESERVE p < s.pagesHeld p))).foldl
    (fun m p => match m with
      | none => some p
      | some b => if s.fld F.ESC_PCFG_SHARES p < s.fld F.ESC_PCFG_SHARES b then some p else some b) none

/-- Milliseconds since a sequence's last admission. -/
def State.idleMs (s : State) (p q : Nat) : Nat := (s.time / 1000000 % 2 ^ 32 + 2 ^ 32 - s.seqNum p q 0x3C 4) % 2 ^ 32

/-- The pages of a sequence in the order that a swap copies them: rows, then the ring. -/
def State.seqPages (s : State) (p q : Nat) : List Nat :=
  (List.range (s.seqBlocks p q)).flatMap (s.rowPages p q) ++ s.ringPages p q

/-- R238: the lowest n places of 64 KiB of a partition's backing store that no swapped page holds; none where fewer are free (see log entry
101, DESIGN CHOICE). -/
def State.freePlaces (s : State) (p n : Nat) : Option (List Nat) :=
  let used := (s.kv.swapped.filter (fun e => e.1 == p)).flatMap (fun e => e.2.2)
  let l := ((List.range (used.length + n)).filter (fun k => !used.contains k)).take n
  if l.all (fun k => decide (k < 16384 * s.fld F.ADMA_BACKING_SIZE_GIB p)) then some l else none

/-- R237 step 2: a sequence may be swapped out: not the starved one, not IN_STEP, not being swapped, with places for its pages. -/
def State.swappable (s : State) (starved : Nat × Nat) (p q : Nat) : Bool :=
  (p, q) != starved && (s.freePlaces p (s.seqPages p q).length).isSome && !s.seqFlag p q 2 && !s.seqFlag p q 4 && s.seqState p q != 0 &&
    (s.seqState p q == 2 || (s.seqState p q == 1 && decide (s.fld F.ADMA_PMCFG_IDLE_MS ≤ s.idleMs p q)))

/-- R237 step 2: a PARKED sequence goes first, else the least recent LAST_MS (see log entry 45, DESIGN CHOICE). -/
def State.swapBefore (s : State) (p a b : Nat) : Bool :=
  if s.seqState p a = s.seqState p b then decide (s.idleMs p b < s.idleMs p a) else s.seqState p a == 2

/-- R237 step 2: the sequence of a partition to swap out. -/
def State.swapSeq (s : State) (starved : Nat × Nat) (p : Nat) : Option Nat :=
  ((List.range (s.reg .ADMA_SEQCNT p % 2 ^ 24)).filter (s.swappable starved p)).foldl
    (fun m q => match m with
      | none => some q
      | some b => if s.swapBefore p q b then some q else some b) none

/-- Pages that swap-outs under way will push. -/
def State.busyPages (s : State) (p : Nat) : Nat :=
  (List.range (s.reg .ADMA_SEQCNT p % 2 ^ 24)).foldl (fun n q =>
    if s.seqState p q ≠ 0 ∧ s.seqFlag p q 4 then
      n + ((List.range (s.seqBlocks p q)).filter (fun j => s.sysNum (s.rowAddr p q j 0) 4 == noneWord)).length *
        s.layFull (s.seqLayout p q) + (s.ringPages p q).length
    else n) 0

/-- R237: the pages that swap-outs under way push would let R226 grant a request. -/
def State.covers (s : State) (p k : Nat) : Bool :=
  decide (s.pagesHeld p + k ≤ s.fld F.ADMA_PQUOTA_QUOTA p + s.busyPages p ∧
    k ≤ s.available p + (List.range 64).foldl (fun n q => n + s.busyPages q) 0)

/-- R237 step 2: swap-outs begun until they cover a demand; n, the sequences that there are, bounds them. -/
def beginSwaps (e : Nat × Nat) (want : Nat) : Nat → State → State
  | 0, s => s
  | n + 1, s =>
    match s.swapPart with
    | none => s
    | some p =>
      if s.covers e.1 want then s
      else match s.swapSeq e p with
        | none => s
        | some q => beginSwaps e want n (s.seqSetFlag p q 4 true)

/-- R237 step 3: a sequence has been parked for T_park. -/
def State.parkedOut (s : State) (p q : Nat) : Bool :=
  decide (s.seqParkTime p q + 1000000 * s.fld F.ADMA_PMCFG_T_PARK_MS ≤ s.time)

/-- The entries of all sequence tables. -/
def State.seqCount (s : State) : Nat := (List.range 64).foldl (fun n p => n + s.reg .ADMA_SEQCNT p % 2 ^ 24) 0

/-- R237: one parked sequence's turn; EVT_CTR is signalled once for a starvation. -/
def State.manage (s : State) (e : Nat × Nat) : State :=
  let want := s.seqDemand e.1 e.2
  let t := reclaimFor e.1 want (s.fld F.ADMA_NODECFG_NODE_COUNT) s
  if t.grants e.1 want then
    if t.kv.signalled.contains e then t
    else { t with kv := { t.kv with signalled := t.kv.signalled ++ [e] } }.signalSeq e.1 e.2
  else
    let t := beginSwaps e want t.seqCount t
    if t.parkedOut e.1 e.2 then t.owe (.kvTermination e.1 e.2) else t

/-- A parked sequence placed by its PARK_TIME. -/
def State.byParkTime (s : State) (l : List (Nat × Nat)) (e : Nat × Nat) : List (Nat × Nat) :=
  l.filter (fun x => decide (s.seqParkTime x.1 x.2 ≤ s.seqParkTime e.1 e.2)) ++ e ::
    l.filter (fun x => decide (s.seqParkTime e.1 e.2 < s.seqParkTime x.1 x.2))

/-- PAGE_MANAGER_RUN (R237): every parked sequence, oldest PARK_TIME first (see log entry 45, DESIGN CHOICE). -/
def execPageManagerRun (s : State) : Host.Outcome State Fault Refusal :=
  .next ((s.kv.parked.foldl s.byParkTime []).foldl State.manage s)

/-- R239: the sequence terminated; a swap-out of it under way ends with it. -/
def State.terminate (s : State) (p q : Nat) : State :=
  let r := s.freeSeq p q
  let t := (((r.1.seqPut p q 0 1 4).seqSetFlag p q 4 false).unpark p q).setFlag F.ADMA_STATUS_TERMINATED
  (t.signalSeq p q).dataEvent 0x06 0x0006 r.2 p

/-- KV_TERMINATION (R239): a parked sequence whose time is up and whose demand would not be granted. -/
def execKvTermination (p q : Nat) (s : State) : Host.Outcome State Fault Refusal :=
  let t := { s with due := s.due.erase (.kvTermination p q) }
  .next (if s.seqExists p q ∧ s.seqState p q = 2 ∧ s.kv.parked.contains (p, q) ∧ s.parkedOut p q ∧
      s.grants p (s.seqDemand p q) = false then t.terminate p q else t)

/-- Where a place of a partition's backing store lies. -/
def State.backingAddr (s : State) (p k : Nat) : Nat := s.fld F.ADMA_BACKING_BASE p * 0x10000 + 0x10000 * k

/-- R207, R227, R238: one page moved between the pool and a place of the backing store with the General DMA: a class 0x5 transfer of the
partition with the KV swap attribute. A page of another owner, or an access that a firewall denies, ends it. -/
def State.swapPage (s : State) (p page place : Nat) (out : Bool) : State × Bool :=
  let i := kvSwapInit p
  let pool := pageAddr page
  let back := s.backingAddr p place
  if s.inPool page = false ∨ s.pageOwner page ≠ p then (s.ownerFail (initiator 5 p), false)
  else if s.memOk i pool 0x10000 (!out) = false then (s.recordDenial i pool 0x10000 (!out), false)
  else if s.memOk i back 0x10000 out = false then (s.recordDenial i back 0x10000 out, false)
  else
    let src := if out then pool else back
    let t := s.keyed i
    (((t.charge i src 0x10000).writeBytes (if out then back else pool) (t.bytes src 0x10000)).keyed s.keys.user, true)

/-- R238: pages and their places moved in order, as far as every move goes on. -/
def swapPages (p : Nat) (out : Bool) : List (Nat × Nat) → State → State × Bool
  | [], s => (s, true)
  | (page, place) :: l, s =>
    let r := s.swapPage p page place out
    if r.2 then swapPages p out l r.1 else r

/-- KV_SWAP_OUT (R238): the copy under way is made and complete. A copy that cannot be made ends the swap-out, and the sequence stays
(see log entry 101, DESIGN CHOICE). -/
def execKvSwapOut (p q : Nat) (s : State) : Host.Outcome State Fault Refusal :=
  .next (if s.seqExists p q ∧ (s.seqState p q = 1 ∨ s.seqState p q = 2) ∧ s.seqFlag p q 4 ∧ s.seqFlag p q 2 = false then
    let pages := s.seqPages p q
    match s.freePlaces p pages.length with
    | none => s.seqSetFlag p q 4 false
    | some places =>
      let r := swapPages p true (pages.zip places) s
      if r.2 then
        let t := (r.1.freeSeq p q).1
        let t := (((t.seqSetFlag p q 4 false).seqPut p q 0 1 3).unpark p q).dropCopy p q
        ({ t with kv := { t.kv with swapped := t.kv.swapped ++ [(p, q, places)] } }).dataEvent 0x06 0x0004 q p
      else r.1.seqSetFlag p q 4 false
  else s)

/-- R238: pages of a sequence's rows, and then of its ring, written as private ones. -/
def State.restorePages (s : State) (p q : Nat) (pages : List Nat) : State :=
  let l := s.seqLayout p q
  let n := s.layFull l
  let b := s.seqBlocks p q
  let t := (List.range b).foldl (fun u j =>
    u.sysWrite (s.rowAddr p q j 0) (toLe 4 noneWord ++ ((pages.drop (n * j)).take n).flatMap (toLe 4))) s
  let w := min b (s.layWPages l)
  (List.range (s.layRing l)).foldl (fun u k => (List.range w).foldl (fun v i =>
    v.sysWriteNum (s.ringAddr p q k i) 4 ((pages.drop (n * b)).getD (k * w + i) noneWord)) u) t

/-- KV_SWAP_IN (R238): a swapped sequence that was asked in, where R226 grants its pages. A copy that cannot be made leaves it SWAPPED
(see log entry 101, DESIGN CHOICE). -/
def execKvSwapIn (p q : Nat) (s : State) : Host.Outcome State Fault Refusal :=
  .next (match s.kv.swapped.find? (fun e => e.1 == p && e.2.1 == q), s.askedAt p q with
    | some (_, _, places), some asked =>
      if s.seqState p q = 3 ∧ s.grants p places.length then
        let r := State.popPages p places.length s
        let m := swapPages p false (r.1.zip places) r.2
        if m.2 then
          let t := ((m.1.restorePages p q r.1).seqSetFlag p q 3 true).seqPut p q 0x1C 4 noneWord
          ((t.dropCopy p q).park p q asked).dataEvent 0x06 0x0005 q p
        else (pushPages p r.1.reverse m.1).1
      else s
    | _, _ => s)

/-! Layouts (R205). -/

/-- A sequence of the layout is not FREE. -/
def State.layoutUsed (s : State) (n : Nat) : Bool :=
  (List.range 64).any (fun p => (List.range (s.reg .ADMA_SEQCNT p % 2 ^ 24)).any (fun q =>
    s.seqState p q != 0 && s.seqLayout p q == n))

/-- ADMA_LAYOUT_WRITE (R205). -/
def execAdmaLayoutWrite (n : Nat) (w : RegWrite) (s : State) : Host.Outcome State Fault Refusal :=
  let v := w.value % 2 ^ 64
  let allowed := s.p0 w.initiator && decide (n < 64)
  .next (if s.layoutOk v && !s.layoutUsed n then s.paramWrite allowed .ADMA_LAYOUT n 0 v w.initiator (s.setReg .ADMA_LAYOUT v n)
    else s.regWrite .ADMA allowed (s.setFlag F.ADMA_STATUS_LAYOUT))

/-! Gathers (R222 to R224). -/

/-- The fields of a gather descriptor (Table ADMA-4). -/
structure GatherDesc where
  mode : Nat
  ring : Bool
  layer : Nat
  row : Nat
  elems : Nat
  headOff : Nat
  span : Nat
  stride : Nat
  chunks : Nat
  zero : Bool
  deriving DecidableEq, Repr

/-- A gather's descriptor read from its bytes. -/
def Kernel.gather (k : Kernel) : GatherDesc where
  mode := leAt k.unitDesc 0 1
  ring := (leAt k.unitDesc 1 1).testBit 0
  layer := leAt k.unitDesc 2 2
  row := leAt k.unitDesc 4 1
  elems := leAt k.unitDesc 6 2
  headOff := leAt k.unitDesc 8 2
  span := leAt k.unitDesc 0x0A 2
  stride := leAt k.unitDesc 0x0C 2
  chunks := leAt k.unitDesc 0x0E 2
  zero := leAt k.unitDesc 1 1 < 2 && leAt k.unitDesc 5 1 == 0 && leAt k.unitDesc 0x28 8 == 0 && allZero (bytesAt k.unitDesc 0x50 16)

/-- An address of the descriptor. -/
def Kernel.gatherRef (k : Kernel) (off : Nat) : Nat := k.ref (leAt k.unitDesc off 8)

/-- A template instruction. -/
def Kernel.template (k : Kernel) (i : Nat) : Nat := leAt k.unitDesc (0x30 + 16 * i) 16

/-- R222: POS of the FIRST row of the sequence of a row: the nearest one at or before it. -/
def State.firstPos (s : State) (rowmap : Nat) : Nat → Nat
  | 0 => (s.rowEntry rowmap 0).pos
  | r + 1 => if (s.rowEntry rowmap (r + 1)).first then (s.rowEntry rowmap (r + 1)).pos else s.firstPos rowmap r

/-- R222: the first position of a span and how many it holds. A row that was not admitted has none. -/
def State.spanOf (s : State) (p : Nat) (g : GatherDesc) (rowmap : Nat) : Nat × Nat :=
  let e := s.rowEntry rowmap g.row
  let base := s.seqPosBase p e.seq
  let win := s.fld F.ADMA_LAYOUT_WINDOW (s.seqLayout p e.seq)
  let lo := if g.ring then max base (s.firstPos rowmap g.row + 1 - win) else base
  let a := lo + 65280 * g.span
  (a, if e.valid then min 65280 (e.pos + 1 - a) else 0)

/-- R219, R220, R224: the address of a position's token row in the half that the mode reads, or the fault. -/
def State.tokenRow (s : State) (p q : Nat) (g : GatherDesc) (t : Nat) : Nat ⊕ Nat :=
  let l := s.seqLayout p q
  let i := t - s.seqPosBase p q
  let j := i / s.layP l
  if s.seqBlocks p q ≤ j then .inr 0x22
  else
    let page := s.blockPage p q j g.layer g.ring
    if s.pageOwner page ≠ p then .inr 0x20
    else .inl (pageAddr page + 0x8000 * g.mode + i % s.layP l * s.layRow l + g.headOff)

/-- The token rows of a span's positions in order, and the fault of the first position that has one. -/
def State.spanRows (s : State) (p q : Nat) (g : GatherDesc) : List Nat → List Nat × Option Nat
  | [] => ([], none)
  | t :: l =>
    match s.tokenRow p q g t with
    | .inr c => ([], some c)
    | .inl a =>
      let r := s.spanRows p q g l
      (a :: r.1, r.2)

/-- An instruction word with a field at a value. -/
def patch (w hi lo v : Nat) : Nat := w - bitsOf w hi lo * 2 ^ lo + v % 2 ^ (hi + 1 - lo) * 2 ^ lo

/-- R223, K mode: the vectors and the STR. -/
def gatherK (k : Kernel) (size n : Nat) (codes : List (List Nat)) : List (Nat × List Byte) :=
  [(k.gatherRef 0x18, codes.flatMap (fun c => padTo (128 * size) (c.flatMap (toLe size)))),
   (k.gatherRef 0x20, toLe 16 (if n = 0 then 0 else patch (k.template 0) 15 0 n))]

/-- R223, VT mode: one chunk's vectors. -/
def vtChunk (size elems : Nat) (codes : List (List Nat)) : List Byte :=
  (List.range elems).flatMap (fun e => padTo (128 * size) (codes.flatMap (fun c => toLe size (c.getD e 0))))

/-- R223, VT mode: the instruction pair of chunk c with m positions. -/
def vtPair (k : Kernel) (g : GatherDesc) (size c m : Nat) : List Byte :=
  let ldt := k.template 0
  let str := k.template 1
  let ldt := patch (patch ldt 95 64 (bitsOf ldt 95 64 + c * g.stride)) 12 6 (m - 1)
  let str := patch str 95 64 (bitsOf str 95 64 + c * g.elems * 4 * size)
  toLe 16 ldt ++ toLe 16 (if c = 0 then str else patch str 17 16 1)

/-- R223, VT mode: all chunks and pairs; pairs up to MAX_CHUNKS are NOPs. -/
def gatherVt (k : Kernel) (g : GatherDesc) (size n : Nat) (codes : List (List Nat)) : List (Nat × List Byte) :=
  let m := (n + 127) / 128
  [(k.gatherRef 0x18, (List.range m).flatMap (fun c => vtChunk size g.elems ((codes.drop (128 * c)).take 128))),
   (k.gatherRef 0x20, (List.range m).flatMap (fun c => vtPair k g size c (min 128 (n - 128 * c))) ++
     List.replicate (32 * (g.chunks - m)) 0)]

/-- The fields of a gather out of range. -/
def State.gatherBad (s : State) (g : GatherDesc) (l : Nat) : Bool :=
  !g.zero || decide (1 < g.mode ∨ 127 < g.row ∨ g.elems = 0 ∨ 128 < g.elems) ||
    (g.mode == 1 && decide (g.chunks = 0 ∨ 510 < g.chunks)) ||
    decide ((if g.ring then s.layRing l else s.layFull l) ≤ g.layer) ||
    decide (s.layRow l < g.headOff + g.elems * s.layEsize l)

/-- A gather's writes, each checked. -/
def gatherWrites (p : Nat) : List (Nat × List Byte) → State → Run
  | [], s => (s, none)
  | (a, b) :: l, s => (if b.isEmpty then (s, none) else s.engWrite 3 p a b : Run).next (gatherWrites p l)

/-- R223: the gather's effect. -/
def State.gatherBody (s : State) (x : GatherRun) (k : Kernel) (g : GatherDesc) : Run :=
  let p := k.partition
  let rowmap := k.gatherRef 0x10
  (s.engCheck 3 p rowmap (8 * (g.row + 1)) false).next (fun s =>
    let q := (s.rowEntry rowmap g.row).seq
    let l := s.seqLayout p q
    let size := s.layEsize l
    let sp := s.spanOf p g rowmap
    if s.seqExists p q = false then (s, some 0x21)
    else if s.gatherBad g l ∨ (g.mode = 1 ∧ g.chunks * 128 < sp.2) then (s, some 0x02)
    else if x.ecc.isSome then (s.uncorrectable (x.ecc.getD 0) x.engine p, some 0x09)
    else
      let rows := s.spanRows p q g ((List.range sp.2).map (fun i => sp.1 + i))
      (runAll (fun (a : Nat) t => t.engCheck 3 p a (g.elems * size) false) rows.1 s).next (fun t =>
        match rows.2 with
        | some c => (if c = 0x20 then t.ownerFail (initiator 3 p) else t, some c)
        | none =>
          let codes := rows.1.map (fun a => t.elems a size g.elems)
          gatherWrites p (if g.mode = 0 then gatherK k size sp.2 codes else gatherVt k g size sp.2 codes) t))

/-- A gather of a mode on an ADMA engine; mode 0 also takes the modes that do not exist. -/
def State.gatherRun (s0 : State) (mode : Nat) (x : GatherRun) : State :=
  match s0.running 2 x.engine with
  | none => s0
  | some k =>
    let s := s0.keyed (initiator 3 k.partition)
    let g := k.gather
    if (if g.mode = 1 then 1 else 0) ≠ mode then s
    else
      let q := (s.rowEntry (k.gatherRef 0x10) g.row).seq
      s0.settled (State.endRun (s.gatherBody x k g) k (fun t c => t.admaFault x.engine c k.partition q))

/-- GATHER_K (R223). -/
def execGatherK (g : GatherRun) (s : State) : Host.Outcome State Fault Refusal := .next (s.gatherRun 0 g)

/-- GATHER_VT (R223). -/
def execGatherVt (g : GatherRun) (s : State) : Host.Outcome State Fault Refusal := .next (s.gatherRun 1 g)

end Sys2Proof.Machine
end

