-- ==== Sys2Proof/Machine/Memory.lean ====
section
/-! DEFINITION. General DMA, the Randing hash, hotspots and re-weave, SMEM scrubs and inbound PCIe requests (file 04: R118, R129,
R134 to R143, R149; file 03: R97, R98). -/

namespace Sys2Proof.Machine

/-! General DMA (R149). -/

/-- The channel is firmware's (see log entry 27, DEDUCED). -/
def State.fwChannel (s : State) (c : Nat) : Bool := (s.reg .DMA_FWMASK).testBit c

/-- KVSWAP, which counts on firmware's channels only. -/
def State.kvSwap (s : State) (c : Nat) : Bool := s.flag F.DMA_CTL_KVSWAP c && s.fwChannel c

/-- The initiator of a channel's transfer (R118, R149, R207). -/
def State.dmaInit (s : State) (c : Nat) : Nat :=
  if s.kvSwap c then kvSwapInit (s.fld F.DMA_CTL_PARTITION c) else initiator 5 (s.fld F.DMA_CTL_PARTITION c)

/-- R149, R207, R227: with KVSWAP a byte of the pool lies in a page that the channel's partition owns. -/
def State.poolOk (s : State) (c a : Nat) : Bool :=
  !s.kvSwap c || !s.poolByte a || s.pageOwner (dramPage (s.localAddr a)) == s.fld F.DMA_CTL_PARTITION c

/-- A channel may read or write a byte. -/
def State.dmaOk (s : State) (c a : Nat) (write : Bool) : Bool := s.memOk (s.dmaInit c) a 1 write && s.poolOk c a

/-- The addresses of byte j of a transfer. -/
def State.dmaSrc (s : State) (c j : Nat) : Nat := s.reg .DMA_SRC c % 2 ^ 48 + j
def State.dmaDst (s : State) (c j : Nat) : Nat := s.reg .DMA_DST c % 2 ^ 48 + j

/-- R118: bytes of a transfer, at most 4 GiB (see log entry 98, DESIGN CHOICE). -/
def State.dmaLen (s : State) (c : Nat) : Nat := min (2 ^ 32) (s.reg .DMA_LEN c % 2 ^ 33)

/-- Byte j of a transfer: of the pattern or of the source. -/
def State.dmaByte (s : State) (c j : Nat) : Byte :=
  if s.flag F.DMA_CTL_FILL c then BitVec.ofNat 8 (s.reg .DMA_SRC c / 2 ^ (8 * (j % 8))) else s.byte (s.dmaSrc c j)

/-- The address and direction that a denied byte fails at, a byte at an address that nothing answers among them (see log entry 36, DEDUCED;
log entry 99, DESIGN CHOICE). -/
def State.dmaDenied (s : State) (c j : Nat) : Option (Nat × Bool) :=
  if !s.flag F.DMA_CTL_FILL c && !s.dmaOk c (s.dmaSrc c j) false then some (s.dmaSrc c j, false)
  else if !s.dmaOk c (s.dmaDst c j) true then some (s.dmaDst c j, true)
  else none

/-- n bytes moved in ascending order from byte j on; answers the byte that is denied (see log entry 36, DEDUCED). -/
def dmaMove (c : Nat) : Nat → Nat → State → State × Option Nat
  | 0, _, s => (s, none)
  | n + 1, j, s =>
    if (s.dmaDenied c j).isSome then (s, some j)
    else dmaMove c n (j + 1) (s.putBytes (s.dmaDst c j) [s.dmaByte c j])

/-- R279: the bytes that a transfer moved are charged to the partition that it serves. -/
def State.chargeMoved (s : State) (c moved : Nat) : State :=
  let i := initiator 5 (s.fld F.DMA_CTL_PARTITION c)
  (if s.flag F.DMA_CTL_FILL c then s else s.charge i (s.dmaSrc c 0) moved).charge i (s.dmaDst c 0) moved

/-- Bytes moved are shown, the state set, and a kernel that runs on the channel ended. -/
def State.dmaEnd (s : State) (c moved code cause st : Nat) : State :=
  let t := (((s.chargeMoved c moved).setReg .DMA_DONE moved c).putFld F.DMA_STAT_STATE code c).putFld F.DMA_STAT_CAUSE cause c
  match s.running 6 c with
  | some k => t.endKernel k.id st
  | none => t

/-- R149: a transfer that ended signals. -/
def State.dmaSignal (s : State) (c : Nat) : State :=
  if s.flag F.DMA_CTL_SIG_EN c ∧ s.reg .DMA_SIGINC c ≠ 0 then s.signal (s.fld F.DMA_CTL_SIG_CTR c) (s.reg .DMA_SIGINC c) else s

/-- A denial recorded: an owner check's in ADMA_STATUS, a firewall's in FWL_DENY. -/
def State.dmaDeny (s : State) (c j : Nat) : State :=
  let i := s.dmaInit c
  match s.dmaDenied c j with
  | some (a, w) => if s.memOk i a 1 w then s.ownerFail (i % 1024) else s.recordDenial i a 1 w
  | none => s

/-- R149: a write of DMA_CTLc by firmware on one of its channels that is not BUSY; a length of 0 completes at once. The rule holds back no
write of DMA_SRC, DMA_DST, DMA_LEN or DMA_SIGINC while the channel is BUSY (see log entry 108, DESIGN CHOICE). -/
def State.dmaControl (s : State) (c v : Nat) : State :=
  if s.fwChannel c = false ∨ s.fld F.DMA_STAT_STATE c = 1 then s
  else
    let t := s.setReg .DMA_CTL (2 ^ 22 * bitsOf v 30 22 + v % 2 ^ 16) c
    if v.testBit 31 = false then t
    else if s.dmaLen c = 0 then (t.dmaEnd c 0 2 0 csDone).dmaSignal c
    else ((t.setReg .DMA_DONE 0 c).putFld F.DMA_STAT_STATE 1 c).putFld F.DMA_STAT_CAUSE 0 c

/-- DMA_GO (R118, R149): a write of DMA_CTLc with GO set (see log entry 36, DEDUCED). -/
def execDmaGo (c : Nat) (w : RegWrite) (s : State) : Host.Outcome State Fault Refusal :=
  .next (s.regWrite .DMA (decide (c < 16) && s.p0 w.initiator) (s.dmaControl c (withBit w.value 31)))

/-- R129: the source of a channel's transfer meets a granule under scrub. -/
def State.dmaWaits (s : State) (c : Nat) : Bool := !s.flag F.DMA_CTL_FILL c && s.scrubbing (s.localAddr (s.dmaSrc c 0)) (s.dmaLen c)

/-- DMA_DONE (R149): the transfer, its bytes in ascending order, where none of them is denied (see log entry 36, DEDUCED), as the registers
stand then (see log entry 108, DESIGN CHOICE). One whose source is under scrub waits (R129). -/
def execDmaDone (c : Nat) (s : State) : Host.Outcome State Fault Refusal :=
  .next (if c < 16 ∧ s.fld F.DMA_STAT_STATE c = 1 ∧ s.dmaWaits c = false then
      let r := dmaMove c (s.dmaLen c) 0 (s.keyed (initiator 5 (s.fld F.DMA_CTL_PARTITION c)))
      if r.2.isNone then (r.1.dmaEnd c (s.dmaLen c) 2 0 csDone).dmaSignal c else s
    else s)

/-- DMA_FAULT (R149): a denial, at the first byte that is denied, or an uncorrectable error after moved bytes; bytes moved stay. -/
def execDmaFault (c moved : Nat) (ecc : Bool) (s : State) : Host.Outcome State Fault Refusal :=
  .next (if c < 16 ∧ s.fld F.DMA_STAT_STATE c = 1 then
      let p := s.fld F.DMA_CTL_PARTITION c
      let n := if ecc then min moved (s.dmaLen c - 1) else s.dmaLen c
      let r := dmaMove c n 0 (s.keyed (initiator 5 p))
      match r.2 with
      | some j => (r.1.dmaDeny c j).dmaEnd c j 3 0x07 csEngine
      | none =>
        if ecc && !s.flag F.DMA_CTL_FILL c then (r.1.uncorrectable (s.dmaSrc c n) c p).dmaEnd c n 3 0x09 csEcc else s
    else s)

/-! The Randing hash (R134). -/

/-- The parity of a number's low 16 bits. -/
def parity16 (u : Nat) : Nat := (List.range 16).foldl (fun n i => n ^^^ b2n (u.testBit i)) 0

/-- R134: the six bits that a key folds out of u. -/
def randingFold (key u : Nat) : Nat := (List.range 6).foldl (fun n i => n + parity16 (u &&& (key / 2 ^ (16 * i) % 65536)) * 2 ^ i) 0

/-- R134: the channel and the offset in the frame's share of it, of an offset in a region. -/
def randing (key channels o : Nat) : Nat × Nat :=
  let g := o / 256
  let u := g / 64
  let v := (g % 64) ^^^ randingFold key u
  if channels = 64 then (v, u * 256 + o % 256) else (v / 2, (u * 2 + v % 2) * 256 + o % 256)

/-- The key of a region. -/
def State.regionKey (s : State) (n : Nat) : Nat := sparseGet (fun _ => 0) s.memc.keys n

/-- R134: the channel and channel offset of a DRAM address. -/
def State.channelOf (s : State) (a : Nat) : Nat × Nat :=
  let n := a / 2 ^ 30 - 64
  let ch := s.fld F.MEMC_CAP_CHANNELS
  let r := randing (s.regionKey n) ch (a % 2 ^ 30)
  (r.1, s.fld F.MEMC_REGION_FRAME n * (if ch = 64 then 0x1000000 else 0x2000000) + r.2)

/-! Re-weave (R139 to R143). -/

/-- R139: when a region may be re-woven. R143: not in timing-repeatable mode. R142: not after an ECC abort. -/
def State.mayReweave (s : State) (n : Nat) : Bool :=
  s.flag F.MEMC_CFG_REWEAVE_EN && !s.flag F.MEMC_CFG_REPEATABLE && s.flag F.MEMC_CFG_RESERVE && s.fnUsable fnDram &&
    s.fld F.MEMC_RW_STAT_STATE == 0 && decide (n < s.fld F.MEMC_CAP_TOP_GIB) && !s.flag F.MEMC_REGION_ECC_BLOCKED n &&
    (s.memc.doneNs.filter (fun e => e.1 == n)).all (fun e => decide (e.2 + 1000000 * s.fld F.MEMC_RW_CFG_HOLDOFF_MS ≤ s.dev.nowNs))

/-- R133: MEM_ECC_CORRECTED of a channel is logged at most once per 1 ms, its DATA the error's address (see log entry 100, DESIGN CHOICE). -/
def State.logCorrected (s : State) (a : Nat) : State :=
  let c := (s.channelOf a).1
  if (s.memc.ceNs.filter (fun e => e.1 == c)).all (fun e => decide (e.2 + 1000000 ≤ s.dev.nowNs)) then
    let done := s.memc.ceNs.filter (fun e => e.1 != c) ++ [(c, s.dev.nowNs)]
    { s with memc := { s.memc with ceNs := done } }.dataEvent 0x04 0x0005 a
  else s

/-- R128, R133: an error that ECC corrected: counted, and one of DRAM logged. -/
def State.corrected (s : State) (a : Nat) : State :=
  match s.region a with
  | .smem => s.addFld F.MEMC_ECC_STAT_SMEM_CE 1
  | .dram => (s.addFld F.MEMC_ECC_STAT_DRAM_CE 1).logCorrected a
  | _ => s

/-- R140: a re-weave starts: a new key is drawn and the copy into the reserve frame begins (see log entry 37, DEDUCED). -/
def State.startReweave (s : State) (n : Nat) : State :=
  let t := s.loadRegs [(.MEMC_RW_STAT, 0, 0, 2 ^ 30 + 2 ^ 28 * s.fld F.MEMC_RW_STAT_LAST_ABORT + 2 ^ 16 * (n % 256) +
    s.fld F.MEMC_REGION_FRAME n * 2 ^ 8 + s.fld F.MEMC_CAP_RESERVE_FRAME), (.MEMC_RW_PTR, 0, 0, 0)]
  let key := t.freeNat 64 + 2 ^ 64 * t.drawFree.freeNat 32
  let t := t.drawFree.drawFree
  ({ t with memc := { t.memc with copied := 0, newKey := key } }.anyEvent 0x04 0x0002).setFlag F.GLK_TBREAK_REWEAVE

/-- R142: a re-weave stops; the region table is unchanged. The event's DATA is the cause as LAST_ABORT shows it
(see log entry 100, DESIGN CHOICE). -/
def State.abortReweave (s : State) (cause : Nat) : State :=
  if s.fld F.MEMC_RW_STAT_STATE = 0 then s
  else
    let n := s.fld F.MEMC_RW_STAT_REGION
    let t := (s.putFld F.MEMC_RW_STAT_STATE 0).putFld F.MEMC_RW_STAT_LAST_ABORT cause
    let t := (t.addFld F.MEMC_RW_COUNT_ABORTS 1).dataEvent 0x04 0x0004 cause
    if cause = 1 then t.setFlag F.MEMC_REGION_ECC_BLOCKED n else t

/-- R142: CLEAR_ECC_BLOCK frees every blocked region: the register's REGION is START's. -/
def State.clearEccBlock (s : State) : State :=
  (List.range 192).foldl (fun t n => t.putFld F.MEMC_REGION_ECC_BLOCKED 0 n) s

/-- R139, R142: a write of MEMC_RW_CTL: CLEAR_ECC_BLOCK, then ABORT of a re-weave that runs, or START of one. -/
def State.reweaveControl (s : State) (v : Nat) : State :=
  let t := if v.testBit 29 then s.clearEccBlock else s
  if s.fld F.MEMC_RW_STAT_STATE ≠ 0 then (if v.testBit 30 then t.abortReweave 3 else t)
  else if v.testBit 31 && t.mayReweave (v % 256) then t.startReweave (v % 256) else t

/-- R144: a write of MEMC_RW_CTL. -/
def State.writeRwCtl (s : State) (init v : Nat) : State := s.regWrite .MEMC (s.p0 init) (s.reweaveControl v)

/-- REWEAVE_START (R139): a write of MEMC_RW_CTL with START set. -/
def execReweaveStart (w : RegWrite) (s : State) : Host.Outcome State Fault Refusal :=
  .next (s.writeRwCtl w.initiator (withBit w.value 31))

/-- The copy reads on at RATE_GBPS, a byte per nanosecond each; P is the granule's offset. What it reads and writes is partition 0's
DRAM traffic (see log entry 21, DEDUCED; log entry 37, DEDUCED). -/
def State.reweaveTick (s : State) : State :=
  if s.fld F.MEMC_RW_STAT_STATE = 1 then
    let n := min (2 ^ 30 - 256) (s.memc.copied + s.fld F.MEMC_RW_CFG_RATE_GBPS)
    ({ s with memc := { s.memc with copied := n } }.chargeKey 0 (128 * (n / 64 - s.memc.copied / 64))).setReg .MEMC_RW_PTR (n / 256 * 256)
  else s

/-- REWEAVE_DONE (R141): the entry swaps to the new frame and key, and the old frame becomes the reserve (see log entry 37, DEDUCED). -/
def execReweaveDone (s : State) : Host.Outcome State Fault Refusal :=
  let n := s.fld F.MEMC_RW_STAT_REGION
  .next (if s.fld F.MEMC_RW_STAT_STATE = 1 then
      let t := (s.putFld F.MEMC_REGION_FRAME (s.fld F.MEMC_RW_STAT_TO_FRAME) n).addFld F.MEMC_REGION_KEY_GEN 1 n
      let t := (t.putFld F.MEMC_CAP_RESERVE_FRAME (s.fld F.MEMC_RW_STAT_FROM_FRAME)).putFld F.MEMC_RW_STAT_STATE 0
      let t := (t.addFld F.MEMC_RW_COUNT_DONE 1).setReg .MEMC_RW_PTR (2 ^ 30 - 256)
      let done := t.memc.doneNs.filter (fun e => e.1 != n) ++ [(n, t.dev.nowNs)]
      let t := { t with memc := { t.memc with keys := sparseSet (fun _ => 0) t.memc.keys n t.memc.newKey, doneNs := done } }
      t.anyEvent 0x04 0x0003
    else s)

/-- REWEAVE_ABORT (R142). An uncorrectable block is one of the granule at P. -/
def execReweaveAbort (a : RwAbort) (s : State) : Host.Outcome State Fault Refusal :=
  .next (match a with
    | .ecc =>
      if s.fld F.MEMC_RW_STAT_STATE = 0 then s
      else (s.uncorrectable (0x1000000000 + 2 ^ 30 * s.fld F.MEMC_RW_STAT_REGION + s.reg .MEMC_RW_PTR) 0 0).abortReweave 1
    | .fnStop => if s.fnState fnDram = stDraining then s.abortReweave 2 else s
    | .firmware w => s.writeRwCtl w.initiator (withBit w.value 30))

/-- CLEAR_ECC_BLOCK (R142): a write of MEMC_RW_CTL with CLEAR_ECC_BLOCK set. -/
def execClearEccBlock (w : RegWrite) (s : State) : Host.Outcome State Fault Refusal :=
  .next (s.writeRwCtl w.initiator (withBit w.value 29))

/-! Hotspots (R137, R138). -/

/-- Occupancies of the channels present, in units of 0.1 %. -/
def State.occOf (s : State) (x : Occupancy) : List Nat :=
  (List.range (s.fld F.MEMC_CAP_CHANNELS)).map (fun c => min 1000 (x.occ.getD c 0))

/-- R137: in the window, a channel exceeds twice the mean, which reaches MIN_MEAN. -/
def State.isHot (s : State) (occ : List Nat) (c : Nat) : Bool :=
  decide (2 * occ.sum < occ.getD c 0 * occ.length ∧ 10 * s.fld F.MEMC_HS_CFG_MIN_MEAN * occ.length ≤ occ.sum)

/-- Consecutive windows of a channel. -/
def State.streak (s : State) (c : Nat) : Nat := sparseGet (fun _ => 0) s.memc.streaks c

/-- The windows and requests of every channel after a window. -/
def State.countWindow (s : State) (occ : List Nat) (req : List (Nat × Nat × Nat)) : State :=
  let hot := (List.range occ.length).filter (s.isHot occ)
  let reqs := (s.memc.requests ++ req).filter (fun e => hot.contains e.1)
  { s with memc := { s.memc with streaks := hot.map (fun c => (c, s.streak c + 1)), requests := reqs } }

/-- MEMC_OCCn after a window. -/
def State.showOcc (s : State) (occ : List Nat) : State :=
  (List.range occ.length).foldl (fun t c =>
    let o := occ.getD c 0
    t.setReg .MEMC_OCC (65536 * max (t.fld F.MEMC_OCC_MAX c) o + o) c) s

/-- R137: the channel taken: the highest occupancy, then the lowest number. -/
def State.hotChannel (s : State) (occ : List Nat) : Option Nat :=
  ((s.memc.streaks.filter (fun e => decide (100 ≤ e.2))).map (·.1)).foldl (fun m c => match m with
    | none => some c
    | some b => if occ.getD b 0 < occ.getD c 0 then some c else some b) none

/-- R138: requests of a region to a channel over the windows. -/
def State.requestsOf (s : State) (c n : Nat) : Nat :=
  ((s.memc.requests.filter (fun e => e.1 == c && e.2.1 == n)).map (·.2.2)).sum

/-- R138: the affected region of a channel: the one of most requests, then the lowest number. -/
def State.affected (s : State) (c : Nat) : Nat :=
  (List.range 192).foldl (fun b n => if s.requestsOf c b < s.requestsOf c n then n else b) 0

/-- R138, R139: the DATA of MEM_HOTSPOT: RW_SKIPPED, the region and the channel, where MEMC_HS_STAT has them
(see log entry 100, DESIGN CHOICE). -/
def hotspotData (c n : Nat) (skipped : Bool) : Nat := 2 ^ 30 * b2n skipped + 2 ^ 14 * n + c

/-- R138, R139: a hotspot is reported and its region re-woven, or RW_SKIPPED set; detection restarts (see log entry 37, DEDUCED). -/
def State.hotspot (s : State) (c : Nat) : State :=
  let n := s.affected c
  let t := ((s.setFlag F.MEMC_HS_STAT_HOTSPOT).putFld F.MEMC_HS_STAT_CHANNEL c).putFld F.MEMC_HS_STAT_REGION n
  let t := { t with memc := { t.memc with streaks := [], requests := [] } }.dataEvent 0x04 0x0001 (hotspotData c n (!s.mayReweave n))
  if s.mayReweave n then t.startReweave n else t.setFlag F.MEMC_HS_STAT_RW_SKIPPED

/-- R133: what the patrol scrub met, which reads DRAM where MEMC_SCRUB.EN is set: each uncorrectable error counted and logged
(see log entry 94, DEDUCED). -/
def State.patrol (s : State) (l : List Nat) : State :=
  if s.flag F.MEMC_SCRUB_EN then (l.filter (fun a => s.region a == .dram)).foldl (fun t a => t.uncorrectable a 0 0) s else s

/-- OCCUPANCY_WINDOW (R137, R138; R128, R133) (see log entry 36, DEDUCED; log entry 94, DEDUCED). -/
def execOccupancyWindow (x : Occupancy) (s : State) : Host.Outcome State Fault Refusal :=
  let s := (x.corrected.foldl State.corrected s).patrol x.uncorrected
  .next (if s.fnUsable fnDram then
      let occ := s.occOf x
      let t := (s.countWindow occ x.requests).showOcc occ
      match t.hotChannel occ with
      | some c => t.hotspot c
      | none => t
    else s)

/-! Scrubs (R129). -/

/-- A read's answer. -/
def State.answered (s : State) (l : List Byte) : State := { s with busError := false, readValue := leNat l }

/-- A read of memory by an initiator, charged to it (R277) and answered. -/
def State.readMem (s : State) (init a n : Nat) : State := (s.charge init a n).answered ((s.keyed init).bytes a n)

/-- R129: the inbound reads that waited for a scrub and wait for none any more are answered, in order. -/
def State.endReads (s : State) : State :=
  let waits := fun (e : Nat × Nat × Nat) => s.scrubbing (s.localAddr e.2.1) e.2.2
  (s.memc.reads.filter (fun e => !waits e)).foldl (fun t e => t.readMem e.1 e.2.1 e.2.2)
    { s with memc := { s.memc with reads := s.memc.reads.filter waits } }

/-- R129: a read that waited for a scrub ends, with zero for what the granules under scrub held. -/
def State.endRead (s : State) (f : Flight) : State := s.complete f.id csDone f.len f.ext

/-- SMEM_SCRUB_DONE (R129). -/
def execSmemScrubDone (g : Nat) (s : State) : Host.Outcome State Fault Refusal :=
  let t := { s with scrub := s.scrub.filter (fun x => x != g) }
  .next ((t.cq.flight.filter (fun f => f.cls == 2 && f.code == 2 && f.status.isNone && !f.reads.isEmpty &&
      f.reads.all (fun e => !t.scrubbing (t.localAddr e.1) e.2))).foldl
    State.endRead t).endReads

end Sys2Proof.Machine
end

