-- ==== Sys2Proof/Machine/Functions.lean ====
section
/-! DEFINITION. Starting, stopping, changing and restarting functions and units (file 01: R25 to R29, R37 to R41; Tables SYS-9,
SYS-11, SYS-12 and SYS-13). -/

namespace Sys2Proof.Machine

/-- The state of a target. -/
def State.target (s : State) (fn unit : Nat) : Nat := if unit = whole then s.fnState fn else s.unitState fn unit

/-- R27: every prerequisite reads READY or RUNNING; a unit's is its function. -/
def State.prereqsMet (s : State) (fn unit : Nat) : Bool :=
  if unit = whole then (List.range 17).all (fun m => !s.needs fn m || s.fnUsable m) else s.fnUsable fn

/-! Pins that follow a unit's state (Tables SYS-8 and CLK-3). -/

/-- The transmitters of a unit enabled or idle (see log entry 73, DESIGN CHOICE). -/
def State.drive (s : State) (fn unit : Nat) (on : Bool) : State :=
  let bit := fun n => if on && s.mayDrive fn unit then withBit n unit else if n.testBit unit then n - 2 ^ unit else n
  if fn = fnEth then { s with pins := { s.pins with ethTx := bit s.pins.ethTx, mgmtOut := s.pins.mgmtOut || (unit == 8 && on) } }
  else if fn = fnGlk then { s with pins := { s.pins with glkTx := bit s.pins.glkTx } }
  else if fn = fnCan then { s with pins := { s.pins with canOn := bit s.pins.canOn } }
  else s

/-- R364, R368, Table PKG-5: the clock outputs of an axis's modulators and of its SSI encoder run (see log entry 73, DESIGN CHOICE). -/
def State.clockAxis (s : State) (a : Nat) : State :=
  let n := s.fld F.MOT_AXCFG_ENC a
  let enc := if s.axEncoder a && s.fld F.MOT_ENCCFG_MODE n == 1 then withBit s.pins.encClk n else s.pins.encClk
  { s with pins := { s.pins with sdClk := withBit s.pins.sdClk (a / 4), encClk := enc } }

/-! What a start does (R129, R135, R146, R183, R225, R228). -/

/-- The preloaded program images that lie in a range (see log entry 64, DESIGN CHOICE). -/
def State.preload (s : State) (dram : Bool) : State :=
  match s.dev.settings with
  | some x => (x.program.filter (fun e => inDram e.1 == dram)).foldl (fun t e => t.sysWrite e.1 e.2) s
  | none => s

/-- R183: the function tables, with their set version (see log entry 64, DESIGN CHOICE). -/
def State.loadTables (s : State) : State :=
  match s.dev.settings with
  | some x =>
    let slots := (List.range 16).foldl (fun m n => if (x.ewpTables.getD n none).isSome then m + 2 ^ n else m) 0
    (List.range 32).foldl (fun t e => t.setReg .ME_EWPTAB (65536 * slots + x.ewpVersion % 65536) e)
      { s with me := { s.me with tables := x.ewpTables } }
  | none => s

/-- R225, R230: every page on the stack, in descending order, and every bucket empty, where no page is held yet
(see log entry 45, DESIGN CHOICE). -/
def State.fillPool (s : State) : State :=
  if s.kv.owner.isEmpty ∧ s.fld F.ADMA_STACKCNT_COUNT = 0 then
    let n := s.fld F.ADMA_POOL_PAGE_COUNT
    let t := s.sysWrite (s.stackAddr 0) ((List.range n).flatMap (fun i => toLe 4 (s.fld F.ADMA_POOL_PAGE_FIRST + n - 1 - i)))
    ((t.sysWrite (s.fld F.ADMA_BKTBASE_BASE * 64) (List.replicate (4 * 2 ^ s.fld F.ADMA_NODECFG_BKT_LOG2) 0xFF)).putFld
      F.ADMA_STACKCNT_COUNT n).showRes
  else s

/-- R146: what a partition's hart information block names: the partition, its hart mask, its SMEM granules and DRAM firewall regions, its
queue range, its sync counter ranges, its overflow ring and its interrupt routes. -/
def State.hartNames (s : State) (x : Settings) (p : Nat) : List (List Nat) :=
  let queues := (List.range 16).flatMap (fun c => [s.fld F.ESC_CTX_QBASE p c, s.fld F.ESC_CTX_QCOUNT p c])
  let regions := (List.range 64).filter (fun k => s.flag F.FWL_RATTR_EN 1 k && s.fld F.FWL_RATTR_PART 1 k == p)
  let ranges := (List.range 64).filter (fun k => s.flag F.SYNC_RANGE_EN k && s.fld F.SYNC_RANGE_PARTITION k == p)
  [[p], [(s.hartsOf p).foldl (fun m h => m + 2 ^ h) 0], (x.smemGranules.filter (fun g => g.2 == p)).map (·.1),
    regions.flatMap (fun k => [s.reg .FWL_RBASE 1 k, s.reg .FWL_RLIMIT 1 k, s.reg .FWL_RATTR 1 k]), queues,
    ranges.flatMap (fun k => [s.fld F.SYNC_RANGE_BASE k, s.fld F.SYNC_RANGE_COUNT k]),
    (x.overflow.filter (fun e => e.1 == p)).flatMap (fun e => [e.2.1, e.2.2.1, e.2.2.2]),
    (x.irqRoutes.filter (fun e => e.1 == p)).flatMap (fun e => [e.2.1, e.2.2.1, e.2.2.2])]

/-- R146: the boot loader of each partition that has harts, with the hart information block behind it (see log entry 64, DESIGN CHOICE). -/
def State.loadApp (s : State) : State :=
  match s.dev.settings with
  | some x => (x.appLoad.filter (fun e => !(s.hartsOf e.1).isEmpty)).foldl (fun t e =>
      t.sysWrite e.2.1 (e.2.2 ++ (List.range 256).map (Config.hartInfo (t.hartNames x e.1)))) s
  | none => s

/-- A hart as it stands in reset or as it was released. -/
def State.setHart (s : State) (h : Nat) (x : Option Hart) : State := { s with app := { s.app with harts := s.app.harts.set h x } }

/-- R146, R148: a hart is reset and released in M-mode at its load address, with its number in a0 and the block's address in a1; nothing is
pending in its files (see log entry 96, DESIGN CHOICE). -/
def State.releaseHart (s : State) (h : Nat) : State :=
  let t := { s with app := { s.app with files := s.app.files.filter (fun e => e.1 != h) } }
  match s.dev.settings with
  | some x =>
    match (x.harts.find? (fun e => e.1 == h)).bind (fun b => x.appLoad.find? (fun e => e.1 == b.2)) with
    | some e => t.setHart h (some { pc := e.2.1, a0 := h, a1 := e.2.1 + e.2.2.length })
    | none => t
  | none => t

/-- The transmitters and bus outputs of a whole function: the PCIe lanes, and SCL and SDA of the I3C controllers (Tables SYS-8, CLK-3)
(see log entry 73, DESIGN CHOICE). -/
def State.driveFn (s : State) (fn : Nat) (on : Bool) : State :=
  if fn = fnPcie then { s with pins := { s.pins with pcieTx := on && s.mayDrive fnPcie whole } }
  else if fn = fnCam then { s with pins := { s.pins with i3c := if on then 0xFF else 0 } }
  else s

/-- What a function's start does before it reads READY: BIST writes every word of bank groups 1 to 15 (R128) (see log entry 63, DEDUCED). -/
def State.beginFn (s : State) (fn : Nat) : State :=
  if fn = fnSmem then s.clearMem 0x1000000 0x10000000
  else if fn = fnMe then s.loadTables
  else if fn = fnAdma then s.fillPool
  else if fn = fnApp then s.loadApp
  else if fn = fnGlk then (s.enabledUnits fnGlk).foldl (fun t n => t.drive fnGlk n true) s
  else s

/-- A target's units as a start finds them. -/
def State.startUnits (s : State) (fn : Nat) : State :=
  (s.enabledUnits fn).foldl (fun t u => t.setUnit fn u stStarting) s

/-- R34, R55: a function that was stopped to restart starts again once it reads STOPPED. -/
def State.restartFn (s : State) (fn : Nat) : State :=
  if s.dev.restart.contains fn && s.fnState fn == stStopped then
    ({ s with dev := { s.dev with restart := s.dev.restart.filter (fun n => n != fn) } }.setFn fn stStarting).startUnits fn
  else s

/-- The start of a target begins. -/
def State.begin (s : State) (fn unit : Nat) : State :=
  if s.target fn unit = stStarting ∧ s.prereqsMet fn unit = true ∧ s.dev.begun.contains (fn, unit) = false ∧
      s.rcoscHolds fn = false then
    let t := { s with dev := { s.dev with begun := s.dev.begun ++ [(fn, unit)] } }
    if unit = whole then t.beginFn fn else t
  else s

/-- FUNCTION_START (R27); it also starts a function that stopped to restart (R34, R55) (see log entry 81, DEDUCED). -/
def execFunctionStart (fn unit : Nat) (s : State) : Host.Outcome State Fault Refusal :=
  .next ((if unit = whole then s.restartFn fn else s).begin fn unit)

/-! READY (R25, R29). -/

/-- SYS_FNTIME at the first READY. -/
def State.recordTime (s : State) (fn : Nat) : State :=
  if s.reg .SYS_FNTIME fn = 0 then s.setReg .SYS_FNTIME ((s.dev.nowNs - s.dev.releaseNs) / 1000 % 2 ^ 32) fn else s

/-- The lanes that a receiver's configuration uses are up. -/
def State.lanesUp (s : State) (n : Nat) : State :=
  s.putFld F.CAM_RXSTAT_LANES_UP (2 ^ s.fld F.CAM_RXCFG_LANES n - 1) n

/-- A unit reads READY; in SAFE a CAN controller reads STOPPED (Table SAFE-4) (see log entry 62, DEDUCED). -/
def State.readyUnit (s : State) (fn unit : Nat) : State :=
  let t := (s.setUnit fn unit stReady).drive fn unit true
  if fn = fnMot then (t.readyAxis unit).clockAxis unit
  else if fn = fnCan ∧ s.devState = devSafe then t.setUnit fnCan unit stStopped
  else if fn = fnCan then t.startCan unit
  else if fn = fnCam ∧ unit < 16 then t.lanesUp unit
  else if fn = fnApp then t.releaseHart unit
  else t

/-- The starting units of a function read READY; Grenlink's ports do when they have trained (R292). -/
def State.readyUnits (s : State) (fn : Nat) : State :=
  if fn = fnGlk then s
  else (s.enabledUnits fn).foldl (fun t u => if t.unitState fn u = stStarting then t.readyUnit fn u else t) s

/-- R30: in HELD the clock gates of FN_PCIE and FN_ETH are set while those functions read READY. -/
def State.heldGate (s : State) (fn : Nat) : State :=
  if s.devState = devHeld then s.setReg .CLK_GATE (withBit (s.reg .CLK_GATE) fn) else s

/-- What else a function's READY does. -/
def State.readyFn (s : State) (fn : Nat) : State :=
  if fn = fnSafe then { s with safe := { s.safe with ready := true } }.showSafeFault
  else if fn = fnChr then s.chrReady
  else if fn = fnSmem then s.preload false
  else if fn = fnDram then s.preload true
  else if fn = fnPcie then ({ s with pins := { s.pins with pciePerst := false } }.driveFn fn true).trainPcie.heldGate fn
  else (s.driveFn fn true).heldGate fn

/-- The contexts that a receiver, or a context, feeds. -/
def State.fedCtxs (s : State) (unit : Nat) : List Nat :=
  if unit < 16 then (List.range 32).filter (fun k => s.flag F.CAM_CTXCFG_EN k && s.fld F.CAM_CTXCFG_RX k == unit) else [unit - 16]

/-- A unit or function reads STOPPED: its transmitters are idle and its links down. -/
def State.stopUnit (s : State) (fn unit : Nat) : State :=
  let t := s.drive fn unit false
  let t := if fn = fnEth then (t.putFld F.ETH_PSTAT_LINK 0 unit).putFld F.ETH_PSTAT_SPEED 0 unit
    else if fn = fnGlk then t.linkChange (fun u => u.portDown unit)
    else if fn = fnMot then (t.resetAxis unit).setPwm unit (if t.fld F.MOT_AXSTATE_SAFE unit = 2 then 0x2A else 0)
    else if fn = fnMe then t.zeroStore unit
    else if fn = fnCam then
      let u := (t.fedCtxs unit).foldl State.clearFrames t
      if unit < 16 then u.putFld F.CAM_RXSTAT_LANES_UP 0 unit else u
    else t
  t.setUnit fn unit stStopped

/-- A target reads STOPPED, a whole function with its units (see log entry 62, DEDUCED). -/
def State.stopTarget (s : State) (fn unit : Nat) : State :=
  if unit = whole then (((s.enabledUnits fn).foldl (fun t u => t.stopUnit fn u) s).driveFn fn false).setFn fn stStopped
  else s.stopUnit fn unit

/-- R287: a repair of a Matrix Engine's slot waits for its spare's test. -/
def State.repairWaits (s : State) (fn unit : Nat) : Bool := fn == fnMe && s.esc.repairs.any (fun e => e.1 == unit)

/-- FUNCTION_READY (R25, R28, R29). -/
def execFunctionReady (fn unit : Nat) (s : State) : Host.Outcome State Fault Refusal :=
  .next (if s.target fn unit = stStarting ∧ s.dev.begun.contains (fn, unit) = true ∧ s.repairWaits fn unit = false ∧
      (fn = fnGlk → s.glkReady = true) then
      let r := s.started fn unit
      if unit = whole then
        let t := ((r.2.setFn fn stReady).readyUnits fn).recordTime fn
        (if r.1 then (t.readyFn fn).stopTarget fn unit else t.readyFn fn).settle
      else if r.1 then r.2.stopTarget fn unit else r.2.readyUnit fn unit
    else s)

/-- FUNCTION_START_FAULT (R28) (see log entry 62, DEDUCED). -/
def execFunctionStartFault (fn unit : Nat) (s : State) : Host.Outcome State Fault Refusal :=
  .next (if s.target fn unit = stStarting ∧ s.dev.begun.contains (fn, unit) = true then
      let t := (s.started fn unit).2
      if unit = whole then t.faultFn fn
      else
        let u := t.setUnit fn unit stFault
        if fn = fnMot then u.sumBit F.MOT_FAULTSUM_FAULT unit true else u
    else s)

/-! FN_STOP (R37 to R40, Table SYS-9). -/

/-- SYS_FNCTLSTAT.RESULT codes. -/
abbrev frAccepted : Nat := 0
abbrev frState : Nat := 1
abbrev frDependent : Nat := 2
abbrev frUnit : Nat := 3

/-- R39: a dependent function reads STARTING, READY, RUNNING or DRAINING. -/
def State.hasDependent (s : State) (fn : Nat) : Bool :=
  (List.range 17).any (fun n => s.needs n fn && decide (1 ≤ s.fnState n ∧ s.fnState n ≤ 4))

/-- R201: columns of the target are pinned. -/
def State.pinnedTarget (s : State) (fn unit : Nat) : Bool :=
  fn == fnMe && (if unit = whole then s.enabledUnits fn else [unit]).any (fun u => s.pinnedCols u != 0)

/-- Table SYS-9: what FN_STOP answers. A unit index that is not listed answers REFUSED_UNIT whatever state the function reads
(see log entry 82, DESIGN CHOICE). -/
def State.stopResult (s : State) (fn unit : Nat) : Nat :=
  let c := s.target fn unit
  if unit ≠ whole ∧ (s.unitFld fn unit).isNone = true then frUnit
  else if unit ≠ whole ∧ (s.fnUsable fn = false ∨ (fn = fnMgmt ∧ unit = 0)) then frState
  else if c = stOff ∨ c = stHeld then frState
  else if (c = stStarting ∨ usableCode c = true) ∧ unit = whole ∧ s.hasDependent fn = true then frDependent
  else if usableCode c = true ∧ s.pinnedTarget fn unit = true then frState
  else frAccepted

/-- R386: a draining axis, with its ramp to zero; one that has not run has nothing to ramp. -/
def State.drainMotion (s : State) (a : Nat) (ran : Bool) : State :=
  if ran then s.drainAxis a
  else
    let t := s.flushAxis a
    let r : TqRamp := { up := false, both := true, id0 := 0, iq0 := 0, ticks := (t.rampPart a 0).2 }
    t.setAx a { t.ax a with ramp := some r }

/-- A unit moves to DRAINING. -/
def State.drainUnit (s : State) (fn unit : Nat) : State :=
  let c := s.unitState fn unit
  if c = stFault then s.stopUnit fn unit
  else if c = stStarting then s.setUnit fn unit stDraining
  else if usableCode c then
    let t := s.setUnit fn unit stDraining
    if fn = fnMot then t.drainMotion unit (c == stRunning) else t
  else s

/-- An accepted target moves to DRAINING. R142: a running re-weave aborts. -/
def State.drainTarget (s : State) (fn unit : Nat) : State :=
  let t := s.setFlag F.GLK_TBREAK_FN_STOP
  if unit = whole then
    let t := ((t.enabledUnits fn).foldl (fun u n => u.drainUnit fn n) t).setFn fn stDraining
    if fn = fnDram then t.abortReweave 2 else t
  else t.drainUnit fn unit

/-- FN_STOP of a target (Table SYS-9). -/
def State.fnStop (s : State) (fn unit : Nat) : State :=
  let c := s.target fn unit
  let t := s.setFlag F.GLK_TBREAK_FN_STOP
  if s.stopResult fn unit ≠ frAccepted then s
  else if c = stStarting then
    { t with dev := { s.dev with
        stopAfterStart := if s.dev.stopAfterStart.contains (fn, unit) then s.dev.stopAfterStart
          else s.dev.stopAfterStart ++ [(fn, unit)] } }
  else if c = stFault then (t.stopTarget fn unit).showFnFault
  else if usableCode c then s.drainTarget fn unit
  else s

/-! FN_START (R38, R41). -/

/-- R266, R282: a firewall region belongs to the partition that its active or staged attributes name, and with ANY_PART to every
partition (see log entry 23, DEDUCED). -/
def State.regionOf (s : State) (i j p : Nat) : Bool :=
  let mine := fun v => v.testBit 28 || bitsOf v 27 22 == p
  mine (s.reg .FWL_RATTR i j) || mine (s.seen .FWL_RATTR i j)

/-- A staged value belongs to a target (see log entry 23, DEDUCED). -/
def State.stagedFor (s : State) (fn unit a : Nat) : Bool :=
  match findReg a with
  | some (r, i, j, _) =>
    r.info.block.fn == fn && (unit == whole || r.unit i == some unit || (r.info.block == .FWL && s.regionOf i j unit))
  | none => false

/-- The order of Table GLK-6's changes. -/
def changeBefore (a b : Nat × Nat × Nat × Nat) : Bool :=
  decide (a.1 < b.1 ∨ (a.1 = b.1 ∧ (a.2.1 < b.2.1 ∨ (a.2.1 = b.2.1 ∧ a.2.2.1 < b.2.2.1))))

/-- A change put in its place, in place of an earlier one of the same parameter. -/
def insertChange (e : Nat × Nat × Nat × Nat) : List (Nat × Nat × Nat × Nat) → List (Nat × Nat × Nat × Nat)
  | [] => [e]
  | x :: l => if changeBefore e x then e :: x :: l else if changeBefore x e then x :: insertChange e l else e :: l

/-- The changes that one parameter leaves: four bytes each (see log entry 40, DEDUCED; log entry 63, DEDUCED). -/
def changesOf (r : Reg) (i a v : Nat) : List (Nat × Nat × Nat × Nat) :=
  let e := fun n => (r.info.block.fn, (r.unit i).getD whole, a + 4 * n, v / 2 ^ (32 * n) % 2 ^ 32)
  (List.range (r.info.width / 32)).map e

/-- One staged value made active: whether it differs, and the state (see log entry 63, DEDUCED). -/
def State.applyOne (s : State) (e : Nat × Word) : Bool × State :=
  match findReg e.1 with
  | some (r, i, j, _) =>
    let v := mixBits (s.reg r i j) e.2.toNat r.params
    if s.reg r i j = v then (false, s)
    else
      let t := s.setReg r v i j
      (true, { t with dev := { t.dev with changes := (changesOf r i e.1 v).foldl (fun l c => insertChange c l) t.dev.changes } })
  | none => (false, s)

/-- R38: the staged values of a target become active: whether any differs, and the state (see log entry 63, DEDUCED). -/
def State.applyStaged (s : State) (fn unit : Nat) : Bool × State :=
  let mine := s.dev.staged.filter (fun e => s.stagedFor fn unit e.1)
  let s := { s with dev := { s.dev with staged := s.dev.staged.filter (fun e => !s.stagedFor fn unit e.1) } }
  mine.foldl (fun (x : Bool × State) e => ((x.1 || (x.2.applyOne e).1), (x.2.applyOne e).2)) (false, s)

/-- R285: a staged LIMIT is applied with the tightening in force (see log entry 23, DEDUCED). -/
def State.applyPartition (s : State) (p : Nat) : Bool × State :=
  let k := s.halved p
  if k = 0 then s.applyStaged fnMgmt p
  else
    let r := (s.setGuard p 0 (fun _ => 0) (fun d => s.limitBefore d p)).applyStaged fnMgmt p
    (r.1, r.2.retighten p k)

/-- R41: new firmware of a function becomes active where its checks pass, else the previous stays (see log entry 78, DEDUCED). -/
def State.loadFirmware (s : State) (fn : Nat) : Option FwImage → Bool × State
  | some f =>
    if fwPasses f s.chip.otp then (true, { s with dev := { s.dev with firmware := sparseSet (fun _ => 0) s.dev.firmware fn f.version } })
    else (false, s)
  | none => (false, s)

/-- R66: the slots that a partition reserves are unparked, and none of them waits to be parked. -/
def State.unparkReserved (s : State) (p : Nat) : State :=
  let mine := (List.range s.chip.slots).filter (fun n => s.reserves p 0 n)
  mine.foldl (fun t n => (if t.flag F.ME_STATE_PARKED n then t.setFlag F.GLK_TBREAK_PARK else t).setParked n false)
    { s with clk := { s.clk with parkPending := s.clk.parkPending.filter (fun n => !mine.contains n) } }

/-- R38, R41: what an FN_START makes active; SYS_GEN counts once where anything changes (see log entry 63, DEDUCED). -/
def State.activate (s : State) (fn unit : Nat) (fw : Option FwImage) : State :=
  let r := if fn = fnMgmt ∧ unit ≠ whole then s.applyPartition unit else s.applyStaged fn unit
  let q := if s.target fn unit = stStopped then r.2.loadFirmware fn fw else (false, r.2)
  let t := if r.1 || q.1 then q.2.bumpGen else q.2
  if fn = fnMgmt ∧ unit ≠ whole then t.unparkReserved unit else if fn = fnSafe then t.suspendAll else t

/-- Table SYS-9: what FN_START answers (see log entry 82, DESIGN CHOICE). -/
def State.startResult (s : State) (fn unit : Nat) : Nat :=
  let c := s.target fn unit
  if unit ≠ whole ∧ (s.unitFld fn unit).isNone = true then frUnit
  else if unit ≠ whole ∧ s.fnUsable fn = false then frState
  else if c = stOff then
    (if (unit = whole ∧ s.enabledFns.contains fn = true) ∨ (unit ≠ whole ∧ (s.enabledUnits fn).contains unit = true) then frAccepted
     else frState)
  else if c = stDraining ∨ c = stFault ∨ c = stHeld then frState
  else frAccepted

/-- FN_START of a target: the staging copy becomes active and the target passes through STARTING (see log entry 63, DEDUCED). -/
def State.fnStart (s : State) (fn unit : Nat) (fw : Option FwImage) : State :=
  let c := s.target fn unit
  if s.startResult fn unit = frAccepted ∧ (c = stOff ∨ c = stStopped) then
    let t := s.activate fn unit fw
    let t := { t with dev := { t.dev with
      begun := t.dev.begun.filter (fun e => e != (fn, unit)), restart := t.dev.restart.filter (fun n => n != fn) } }
    if unit = whole then (t.setFn fn stStarting).startUnits fn else t.setUnit fn unit stStarting
  else s

/-! FN_STOP and FN_START as packets and as writes of SYS_FNCTL (R37, R85). -/

/-- The rule of an FN packet: TARGET bits 20:16 FN, 7:0 UNIT. -/
def fnRule (code : Nat) (p : Packet) : Rule where
  op := ⟨1, code⟩
  format := pTargetBits p 21 && bitsOf p.target 15 8 == 0 && decide (bitsOf p.target 20 16 ≤ 16) && p.plen == 0
  p0 := true
  fn := some (fnMgmt, none)

/-- R85: a result of 0 completes DONE, any other REJECTED_STATE. -/
def fnBody (result : Nat → Nat → State → Nat) (act : Nat → Nat → State → State) (p : Packet) (id : Nat) (s : State) : State :=
  let fn := bitsOf p.target 20 16
  let unit := p.target % 256
  let r := result fn unit s
  (act fn unit s).finish id (if r = 0 then csDone else csState) r

/-- A write of SYS_FNCTL: OP in bits 31:28, FN in 20:16, UNIT in 7:0; a function above 16 is ignored (R37). -/
def State.writeFnctl (s : State) (w : RegWrite) (fw : Option FwImage := none) : State :=
  let fn := bitsOf w.value 20 16
  let unit := w.value % 256
  let op := bitsOf w.value 31 28
  s.regWrite .SYS (s.p0 w.initiator)
    (if 16 < fn then s
     else if op = 1 then (s.fnStop fn unit).putFld F.SYS_FNCTLSTAT_RESULT (s.stopResult fn unit)
     else if op = 2 then (s.fnStart fn unit fw).putFld F.SYS_FNCTLSTAT_RESULT (s.startResult fn unit)
     else s)

/-- FN_STOP (R37 to R39). -/
def execFnStop (r : FnReq) (s : State) : Host.Outcome State Fault Refusal :=
  .next (match r with
    | .packet p => runPacket (.fnStop (.packet p)) (fnRule 0x10 p) p (fnBody (fun f u t => t.stopResult f u) (fun f u t => t.fnStop f u) p) s
    | .fnctl w => s.writeFnctl { w with value := w.value % 2 ^ 28 + 2 ^ 28 })

/-- FN_START (R37, R38, R41); fw is function firmware loaded since the target stopped (see log entry 78, DEDUCED). -/
def execFnStart (r : FnReq) (fw : Option FwImage) (s : State) : Host.Outcome State Fault Refusal :=
  .next (match r with
    | .packet p =>
      runPacket (.fnStart (.packet p) fw) (fnRule 0x11 p) p
        (fnBody (fun f u t => t.startResult f u) (fun f u t => t.fnStart f u fw) p) s
    | .fnctl w => s.writeFnctl { w with value := w.value % 2 ^ 28 + 2 ^ 29 } fw)

/-! The end of draining (R38, R40). -/

/-- The engine class and number of a unit that runs kernels. -/
def engineOf (fn unit : Nat) : Option (Nat × Nat) :=
  if fn = fnMe then some (0, unit)
  else if fn = fnScan then some (1, unit)
  else if fn = fnAdma then some (2, unit)
  else if fn = fnVis then some (3 + unit / 4, unit % 4)
  else none

/-- The decode contexts of a core whose access units wait. -/
def State.waitingOn (s : State) (core : Nat) : List DecCtx :=
  s.vid.dec.filter (fun d => s.fld F.VID_DCTX_CORE d.ctx == core && !d.waiting.isEmpty)

/-- R38: work of a unit is in flight. -/
def State.unitBusy (s : State) (fn unit : Nat) : Bool :=
  match engineOf fn unit with
  | some e => (s.kernelOn e.1 e.2).isSome
  | none =>
    if fn = fnMgmt then s.esc.kernels.any (fun k => k.partition == unit && k.unit.isSome)
    else if fn = fnEth then !(s.ethPort unit).frames.isEmpty || !(s.ethPort unit).sending.isEmpty
    else if fn = fnCam then (s.fedCtxs unit).any (fun k => !(s.camCtx k).frames.isEmpty)
    else if fn = fnVid then !(s.waitingOn unit).isEmpty
    else if fn = fnMot then s.unitState fnMot unit == stDraining && !s.axisDrained unit
    else if fn = fnCan then (s.canCtl unit).onBus.isSome
    else false

/-- Packets that wait on the memory of FN_SMEM or FN_DRAM: reads of granules under scrub and CRC passes. -/
def State.memFlights (s : State) (fn : Nat) : List Nat :=
  ((s.cq.flight.filter (fun f => f.cls == 2 && f.code == 2 && f.status.isNone && f.reads.any (fun e => s.addrFn e.1 == fn))).map (·.id)) ++
    ((s.objs.filter (fun b => placeFn b.smem == fn)).flatMap (·.pass))

/-- R38: work of a target is in flight (see log entry 62, DEDUCED). -/
def State.busy (s : State) (fn unit : Nat) : Bool :=
  if unit = whole then (s.enabledUnits fn).any (fun u => s.unitBusy fn u) || !(s.memFlights fn).isEmpty else s.unitBusy fn unit

/-- R34: what a function that stopped to restart leaves where the new profile does not enable it or its unit: OFF. -/
def State.endRestart (s : State) (fn unit : Nat) : State :=
  if unit = whole ∧ s.dev.restart.contains fn = true then
    let t := (List.range 9).foldl (fun u n => if (u.enabledUnits fn).contains n then u else u.setUnit fn n stOff) s
    if t.enabledFns.contains fn then t
    else { t.setFn fn stOff with dev := { t.dev with restart := t.dev.restart.filter (fun n => n != fn) } }
  else s

/-- DRAIN_COMPLETE (R38) (see log entry 62, DEDUCED; log entry 81, DEDUCED). -/
def execDrainComplete (fn unit : Nat) (s : State) : Host.Outcome State Fault Refusal :=
  .next (if s.target fn unit = stDraining ∧ s.busy fn unit = false then ((s.stopTarget fn unit).endRestart fn unit).moreKernels
    else s)

/-- R40: a kernel still in flight ends with FAULT_PREEMPT_TIMEOUT; one that the teardown of another's context has ended is no more
(see log entry 62, DEDUCED). -/
def State.preempt (s : State) (k : Kernel) : State :=
  match k.unit with
  | some n =>
    if s.esc.kernels.any (fun x => x.id == k.id) = false then s else
    let t := if k.cls = 0 then s.zeroStore n else if k.cls = 6 then s.putFld F.DMA_STAT_STATE 3 n else s
    t.completeKernel { k with status := some csPreempt } csPreempt (s.ranCycles k)
  | none => s

/-- The frames of a port end. -/
def State.preemptPort (s : State) (p : Nat) : State :=
  let x := s.ethPort p
  let l := x.sending.map (·.1) ++ x.frames
  (l.filterMap (·.flight)).foldl (fun t f => t.complete f csPreempt 0) (s.setEth p { x with frames := [], sending := [] })

/-- R40: what a unit has in flight ends. -/
def State.preemptUnit (s : State) (fn unit : Nat) : State :=
  match engineOf fn unit with
  | some e =>
    match s.kernelOn e.1 e.2 with
    | some k => s.preempt k
    | none => s
  | none =>
    if fn = fnMgmt then (s.esc.kernels.filter (fun k => k.partition == unit && k.unit.isSome)).foldl State.preempt s
    else if fn = fnEth then s.preemptPort unit
    else if fn = fnCam then (s.fedCtxs unit).foldl State.endFrames s
    else if fn = fnVid then (s.waitingOn unit).foldl (fun t d =>
      d.waiting.foldl (fun u e => u.complete e.1 csPreempt 0)
        { t with vid := { t.vid with dec := t.vid.dec.map (fun x => if x.ctx = d.ctx then { x with waiting := [] } else x) } }) s
    else if fn = fnMot then
      (if s.unitState fnMot unit = stDraining ∧ s.axisDrained unit = false then
        ((s.takePattern unit).axFault unit 8 0).motEvent unit 0x0003
       else s)
    else if fn = fnCan then s.setCan unit { s.canCtl unit with started := [], onBus := none }
    else s

/-- The packets that wait on a memory end. -/
def State.preemptMem (s : State) (fn : Nat) : State :=
  let ids := s.memFlights fn
  let objs := s.objs.map (fun b => if placeFn b.smem = fn ∧ b.pass.isEmpty = false then { b with pass := [], valid := false } else b)
  ids.foldl (fun t f => t.complete f csPreempt 0) { s with objs := objs }

/-- DRAIN_TIMEOUT (R40): T_drain has passed (see log entry 62, DEDUCED). -/
def execDrainTimeout (fn unit : Nat) (s : State) : Host.Outcome State Fault Refusal :=
  .next (if s.target fn unit = stDraining then
      let t := if unit = whole then ((s.enabledUnits fn).foldl (fun t u => t.preemptUnit fn u) s).preemptMem fn
        else s.preemptUnit fn unit
      ((t.stopTarget fn unit).endRestart fn unit).moreKernels
    else s)

end Sys2Proof.Machine
end

