-- ==== Sys2Proof/Machine/Clocks.lean ====
section
/-! DEFINITION. Clock sources and their monitors, clock gates, sensor clocks, power capping, voltage margins, droop and throttling
(file 02: R43 to R77; THERMTRIP_N is in Boot). -/

namespace Sys2Proof.Machine

/-! Sources (R46 to R51). A source is coded as CLK_STATUS.ACTIVE: 0 REFCLK, 1 SYNCREF-derived, 2 RCOSC. -/

/-- A source is READY. -/
def State.srcReady (s : State) (n : Nat) : Bool :=
  if n = 0 then s.flag F.CLK_STATUS_READY_REFCLK else if n = 1 then s.flag F.CLK_STATUS_READY_NET else n == 2

/-- The active source. -/
def State.active (s : State) : Nat := s.fld F.CLK_STATUS_ACTIVE

/-- The network reference's qualification starts from zero, unless it is READY (see log entry 65, DEDUCED). -/
def State.restartNet (s : State) : State :=
  if s.srcReady 1 then s else { s.putFld F.CLK_QUAL_NET_US 0 with clk := { s.clk with netNs := 0 } }

/-- R46, CLK_QUAL: one ns of REFCLK's count, half a cycle of 50 MHz every 10 ns; READY ends it (see log entry 65, DEDUCED). -/
def State.countRef (s : State) : State :=
  if s.srcReady 0 then s
  else
    let n := s.clk.refNs + 1
    let t := { s with clk := { s.clk with refNs := n } }
    if n % 40 = 0 then t.putFld F.CLK_QUAL_REFCLK_COUNT (min 32767 (n / 40)) else t

/-- R47, CLK_QUAL: one ns of the network reference's window, while REFCLK is READY (see log entry 65, DEDUCED). -/
def State.countNet (s : State) : State :=
  if s.srcReady 1 || !s.srcReady 0 || !s.flag F.CLK_NETREF_EN then s
  else
    let n := s.clk.netNs + 1
    let t := { s with clk := { s.clk with netNs := n } }
    if n % 1000 = 0 then t.putFld F.CLK_QUAL_NET_US (min 999 (n / 1000)) else t

/-- CLK_CORE cycles that have passed; VIS_UBUSY of a unit that runs a job grows with them (R44, R263). -/
def State.addCycles (s : State) (n : Nat) : State :=
  (s.esc.kernels.filter (fun k => decide (3 ≤ k.cls ∧ k.cls ≤ 5))).foldl (fun t k => match k.unit with
    | some u => t.addReg .VIS_UBUSY 64 n (visUnit k.cls u)
    | none => t) { s with clk := { s.clk with cycles := s.clk.cycles + n } }

/-- R44, R73: one ns of CLK_CORE, which runs once it has a divider; cycles of a droop are counted at its end. -/
def State.coreTick (s : State) : State :=
  let d := 1000 * s.fld F.PWR_STATUS_CORE_DIV
  if d = 0 then s
  else
    let p := s.clk.part + s.rootMhz
    let t := { s with clk := { s.clk with part := p % d } }
    if s.clk.droop then { t with clk := { t.clk with inDroop := t.clk.inDroop + p / d } } else t.addCycles (p / d)

/-- R43: one ns of CLK_CHR, a sixth of the root clock. -/
def State.edgeTick (s : State) : State :=
  let p := s.clk.edgePart + s.rootMhz
  { s with clk := { s.clk with edges := s.clk.edges + p / 6000, edgePart := p % 6000 } }

/-- One ns of the qualification counts, of CLK_CORE and of CLK_CHR, with the backlogs that fall as jobs run (R43, R46, R47, R44, R260). -/
def State.clockTick (s : State) : State :=
  let t := (if s.devState = devCold then s else s.countRef.countNet).coreTick.edgeTick
  if t.esc.kernels.any (fun k => k.cls == 5 && k.unit.isSome) then t.showBacklog else t
/-- A source loses READY and its qualification starts from zero; without REFCLK the network's does as well (R46 to R48). -/
def State.loseSource (s : State) (n : Nat) : State :=
  if n = 0 then
    { (s.putFld F.CLK_STATUS_READY_REFCLK 0).putFld F.CLK_QUAL_REFCLK_COUNT 0 with clk := { s.clk with refNs := 0 } }.restartNet
  else if n = 1 then (s.putFld F.CLK_STATUS_READY_NET 0).restartNet
  else s

/-- R51: the multiplexer switches to a source; the root PLL is unlocked until it relocks (see log entry 65, DEDUCED). -/
def State.switchSource (s : State) (n : Nat) (software : Bool) : State :=
  { ((s.putFld F.CLK_STATUS_SWITCHING 1).putFld F.CLK_STATUS_PLL_LOCK 0).putFld F.CLK_STATUS_ACTIVE n with
    clk := { s.clk with softwareSwitch := software } }

/-- What a switch to RCOSC starts (R320, R402, Table CLK-3) (see log entry 65, DEDUCED). -/
def State.onRcoscEntry (s : State) : State :=
  let t := s.chrRcosc.setFlag F.GLK_TBREAK_RCOSC
  if t.fld F.SAFE_CFG_RCOSC_REACT = 4 then t.enterSafe scRcosc else t

/-- R50: the source that the fallback order takes after a trip of one. -/
def State.fallbackOf (s : State) (n : Nat) : Nat := if n = 0 ∧ s.srcReady 1 = true then 1 else 2

/-- R50, R51: a trip of the active source. RCOSC is never left, so a trip there only unlocks the PLL. -/
def State.fallback (s : State) : State :=
  let n := s.active
  let skip := n == 0 && !s.srcReady 1
  let t := s.loseSource n
  if n = 2 then t.switchSource 2 s.clk.softwareSwitch
  else
    let t := t.setFlag F.CLK_FLAGS_FALLBACK
    let t := if skip then t.setFlag F.CLK_FLAGS_FALLBACK_SKIP else t
    let t := (t.anyEvent 0x02 (if skip then 2 else 1)).switchSource (s.fallbackOf n) false
    if t.active = 2 then t.onRcoscEntry else t

/-- The source that a monitor watches (R49): the PLL's trip is the active source's. -/
def State.tripSource (s : State) : ClockTrip → Nat
  | .refMissing => 0
  | .refAmplitude => 0
  | .refCoarse => 0
  | .netMissing => 1
  | .netCoarse => 1
  | .netWindow => 1
  | .pllUnlock => s.active

/-- Table CLK-2: the bit of CLK_TRIP. -/
def tripBit : ClockTrip → Nat
  | .refMissing => 0
  | .refAmplitude => 1
  | .refCoarse => 2
  | .pllUnlock => 4
  | .netMissing => 8
  | .netCoarse => 10
  | .netWindow => 11

/-- Table CLK-2: the monitor is in service: the network's while it is enabled, its window's while REFCLK is READY. -/
def State.monitored (s : State) : ClockTrip → Bool
  | .netMissing => s.flag F.CLK_NETREF_EN
  | .netCoarse => s.flag F.CLK_NETREF_EN
  | .netWindow => s.flag F.CLK_NETREF_EN && s.srcReady 0
  | _ => true

/-- R53: a trip of a source that is not selected. -/
def State.tripOther (s : State) (n : Nat) : State := if s.srcReady n then s.loseSource n else (s.loseSource n).anyEvent 0x02 4

/-- CLOCK_MONITOR_TRIP (R49 to R53). -/
def execClockMonitorTrip (t : ClockTrip) (s : State) : Host.Outcome State Fault Refusal :=
  .next (if s.monitored t ∧ s.devState ≠ devCold then
      let u := s.setReg .CLK_TRIP (withBit (s.reg .CLK_TRIP) (tripBit t))
      if s.tripSource t = s.active then u.fallback else u.tripOther (s.tripSource t)
    else s)

/-- R47: NETREF_READY: 1 ms within the window of REFCLK. -/
def execNetrefReady (s : State) : Host.Outcome State Fault Refusal :=
  .next (if s.flag F.CLK_NETREF_EN ∧ s.srcReady 0 = true then
      (s.putFld F.CLK_STATUS_READY_NET 1).putFld F.CLK_QUAL_NET_US 1000
    else s)

/-- Table CLK-3: a function stopped for RCOSC, whatever depends on it and whatever the device's state; one whose start has not begun waits
(see log entry 65, DEDUCED; log entry 80, DESIGN CHOICE). -/
def State.stopForRcosc (s : State) (fn : Nat) : State :=
  let c := s.fnState fn
  let note := fun (t : State) => { t with clk := { t.clk with stopped := if t.clk.stopped.contains fn then t.clk.stopped else t.clk.stopped ++ [fn] } }
  if usableCode c then note (s.drainTarget fn whole)
  else if c = stStarting ∧ s.dev.begun.contains (fn, whole) = true then
    note { s with dev := { s.dev with stopAfterStart := if s.dev.stopAfterStart.contains (fn, whole) then s.dev.stopAfterStart
      else s.dev.stopAfterStart ++ [(fn, whole)] } }
  else s

/-- R55: the management core's FN_START of a function that it stopped for RCOSC: at once where it reads STOPPED, else as soon as it does; a
start still under way then goes on to READY (see log entry 80, DESIGN CHOICE). -/
def State.resumeFn (s : State) (fn : Nat) : State :=
  let t := { s with dev := { s.dev with stopAfterStart := s.dev.stopAfterStart.filter (fun e => e != (fn, whole)) } }
  if t.fnState fn = stDraining then { t with dev := { t.dev with restart := t.dev.restart.filter (fun n => n != fn) ++ [fn] } }
  else t.fnStart fn whole none

/-- PLL_RELOCK (R51, R55) (see log entry 65, DEDUCED). -/
def execPllRelock (s : State) : Host.Outcome State Fault Refusal :=
  .next (if s.flag F.CLK_STATUS_SWITCHING then
      let t := (s.putFld F.CLK_STATUS_SWITCHING 0).putFld F.CLK_STATUS_PLL_LOCK 1
      if t.active = 2 then
        rcoscFns.foldl State.stopForRcosc t
      else if t.clk.softwareSwitch then
        let u := t.clk.stopped.foldl State.resumeFn t
        { u with clk := { u.clk with stopped := [], softwareSwitch := false } }.seek
      else t
    else s)

/-! Software's requests (R52, R54). -/

/-- R52: a request for a source; 3 is ignored. While a switch is in progress the reason is BUSY, whether or not the source named is READY
(see log entry 84, DESIGN CHOICE). -/
def State.requestSource (s : State) (n : Nat) : State :=
  let t := s.putFld F.CLK_SRCSEL_REQ n
  if n = 3 then s
  else if s.flag F.CLK_STATUS_SWITCHING then (t.switchRefused 2).anyEvent 0x02 3
  else if s.srcReady n = false then (t.switchRefused 1).anyEvent 0x02 3
  else
    let u := t.switchSource n true
    if n = 2 ∧ s.active ≠ 2 then u.onRcoscEntry else u

/-- CLK_SRCSEL_REQ (R52). -/
def execClkSrcselReq (w : RegWrite) (s : State) : Host.Outcome State Fault Refusal :=
  .next (s.regWrite .CLK (s.p0 w.initiator) (s.requestSource (w.value % 4)))

/-- A window out of 1 to 200 ppm reads back as 20 (see log entry 18, DEDUCED). -/
def netWindow (v : Nat) : Nat := if 1 ≤ v ∧ v ≤ 200 then v else 20

/-- R54: a write of CLK_NETREF (see log entry 18, DEDUCED). -/
def State.writeNetref (s : State) (v : Nat) : State :=
  let win := s.putFld F.CLK_NETREF_WINDOW_PPM (netWindow (bitsOf v 23 16))
  if s.active = 1 then win.switchRefused 3
  else
    let same := bitsOf v 1 0 == s.fld F.CLK_NETREF_SEL && bitsOf v 9 8 == s.fld F.CLK_NETREF_FREQ
    let t := ((win.putFld F.CLK_NETREF_EN (bitsOf v 31 31)).putFld F.CLK_NETREF_FREQ (bitsOf v 9 8)).putFld F.CLK_NETREF_SEL (v % 4)
    if same ∧ v.testBit 31 = s.flag F.CLK_NETREF_EN then t else t.loseSource 1

/-- CLK_NETREF_WRITE (R54) (see log entry 18, DEDUCED). -/
def execClkNetrefWrite (w : RegWrite) (s : State) : Host.Outcome State Fault Refusal :=
  .next (s.regWrite .CLK (s.p0 w.initiator) (s.writeNetref w.value))

/-! Clock gates (R56, R58). -/

/-- The bits of a gate register that exist, and those that always read 1. -/
def gateMask (k : Nat) : Nat := if k = 0 then 0x1FFFF else if k = 1 then 0xFFFF else 0xFF
def gateFixed (k : Nat) : Nat := if k = 0 then 0x8001 else 0

/-- The gate registers. -/
def gateReg (k : Nat) : Reg := if k = 0 then .CLK_GATE else if k = 1 then .CLK_GATE_CAM else .CLK_GATE_CAN

/-- R58: what a gate bit gates reads OFF or STOPPED. -/
def State.mayGate (s : State) (k n : Nat) : Bool :=
  let c := if k = 0 then s.fnState n else s.unitState (if k = 1 then fnCam else fnCan) n
  c == stOff || c == stStopped

/-- R58: a write of a gate register (see log entry 66, DEDUCED). -/
def State.writeGate (s : State) (k v : Nat) : State :=
  let old := s.reg (gateReg k)
  let ask := (v ||| gateFixed k) &&& gateMask k
  let kept := ((List.range 17).filter (fun n => old.testBit n && !ask.testBit n && !s.mayGate k n)).foldl (fun m n => m + 2 ^ n) 0
  let t := s.setReg (gateReg k) (ask ||| kept)
  if kept = 0 then t else t.setFlag F.CLK_FLAGS_GATE_REFUSED

/-- CLK_GATE_WRITE (R58): k names CLK_GATE, CLK_GATE_CAM or CLK_GATE_CAN. -/
def execClkGateWrite (k : Nat) (w : RegWrite) (s : State) : Host.Outcome State Fault Refusal :=
  .next (s.regWrite .CLK (s.p0 w.initiator) (s.writeGate k w.value))

/-! Sensor clocks (R59, R60). -/

/-- A sensor clock's output; low in HELD, in SAFE and in COLD. -/
def State.senseOut (s : State) (n : Nat) (on : Bool) : State :=
  let m := s.pins.senseClk
  let live := on && s.devState != devHeld && s.devState != devSafe && s.devState != devCold
  { s with pins := { s.pins with senseClk := if live then withBit m n else if m.testBit n then m - 2 ^ n else m } }

/-- R59: the values of a sensor clock are in range. -/
def State.senseOk (s : State) (n : Nat) : Bool :=
  decide (6000000 ≤ s.fld F.CLK_SENSFREQ_FREQ_HZ n ∧ s.fld F.CLK_SENSFREQ_FREQ_HZ n ≤ 54000000 ∧ s.fld F.CLK_SENSCTL_DEPTH n ≤ 20 ∧
    10 ≤ s.fld F.CLK_SENSCTL_RATE_KHZ n ∧ s.fld F.CLK_SENSCTL_RATE_KHZ n ≤ 100)

/-- R60: a write of CLK_SENSCTLn (see log entry 66, DEDUCED). -/
def State.writeSensctl (s : State) (n v : Nat) : State :=
  if s.flag F.CLK_SENSCTL_EN n then (if v.testBit 31 then s else (s.putFld F.CLK_SENSCTL_EN 0 n).senseOut n false)
  else
    let t := (s.putFld F.CLK_SENSCTL_DEPTH (bitsOf v 20 16) n).putFld F.CLK_SENSCTL_RATE_KHZ (bitsOf v 6 0) n
    if v.testBit 31 = false then t
    else if t.senseOk n then (t.setFlag F.CLK_SENSCTL_EN n).senseOut n true
    else t.setFlag F.CLK_FLAGS_SENSCLK_RANGE

/-- SENSCLK_ENABLE (R60) (see log entry 66, DEDUCED). -/
def execSensclkEnable (n : Nat) (w : RegWrite) (s : State) : Host.Outcome State Fault Refusal :=
  .next (s.regWrite .CLK (decide (n < 8) && !s.debugLocked w.initiator) (s.writeSensctl n w.value))

/-! Voltage margins (R68 to R72). -/

/-- The measured offset of a band in mV. -/
def State.bandOffset (s : State) (b : Nat) : Int := signedOf 8 (s.fld F.PWR_BAND_OFFSET_MV b)

/-- R70: the largest offset among the measured bands below a band, or 0. -/
def State.lighterOffset (s : State) (b : Nat) : Int :=
  (((List.range b).filter (fun n => s.flag F.PWR_BAND_MEASURED n)).foldl (fun (m : Option Int) n => match m with
    | none => some (s.bandOffset n)
    | some x => some (max x (s.bandOffset n))) none).getD 0

/-- R70: the offset of a band, with the guard step of 25 mV while it is not measured. -/
def State.offsetOf (s : State) (b : Nat) : Int :=
  if s.flag F.PWR_BAND_MEASURED b then s.bandOffset b else s.lighterOffset b + 25

/-- R70: the VDD_CORE target of a band at the present divider (see log entry 67, DEDUCED). -/
def State.bandTarget (s : State) (b : Nat) : Int := (Config.vcalMv (s.fld F.PWR_STATUS_CORE_DIV) : Int) + s.offsetOf b

/-- R44: the divider one step slower; 8 is the slowest. -/
def slower (d : Nat) : Nat := if d = 4 then 5 else if d = 5 then 6 else 8

/-- R44: the divider one step faster. -/
def faster (d : Nat) : Nat := if d = 8 then 6 else if d = 6 then 5 else 4

/-- A new CLK_CORE divider, with its V_cal (see log entry 67, DEDUCED). -/
def State.setDiv (s : State) (d : Nat) : State :=
  if s.fld F.PWR_STATUS_CORE_DIV = d then s
  else ((s.putFld F.PWR_STATUS_CORE_DIV d).putFld F.PWR_VCORE_VCAL_MV (Config.vcalMv d)).setFlag F.GLK_TBREAK_DIVIDER

/-- R72: the load bands that VDD_CORE still serves: the present one, and those left less than 1 ms ago. -/
def State.heldBands (s : State) : List Nat :=
  (List.range 4).filter (fun b => b == s.fld F.PWR_STATUS_BAND || decide (s.clk.outUs.getD b 1000 < 1000))

/-- R72: the target that the served bands ask for. -/
def State.wantMv (s : State) : Int := s.heldBands.foldl (fun m b => max m (s.bandTarget b)) 0

/-- R72, R475: the target of the bands served, within 600 to 900 mV; beyond 900 mV the divider goes one step slower, also beyond
PWR_CTL.DIV_MAX (see log entry 107, DESIGN CHOICE). -/
def State.aim (s : State) : State :=
  let t := if 900 < s.wantMv then s.setDiv (slower (s.fld F.PWR_STATUS_CORE_DIV)) else s
  t.putFld F.PWR_VCORE_TARGET_MV (max 600 (min 900 t.wantMv)).toNat

/-- PWR_BANDn.GUARD: the guard step applies to the present band while it is not measured. -/
def State.showGuard (s : State) : State :=
  (List.range 4).foldl (fun t b => t.putFld F.PWR_BAND_GUARD (b2n (b == s.fld F.PWR_STATUS_BAND && !s.flag F.PWR_BAND_MEASURED b)) b) s

/-- A guard step begins: PWR_EVENTS.AVS_GUARD. -/
def State.noteGuard (s : State) (b : Nat) : State :=
  if s.flag F.PWR_BAND_MEASURED b ∨ s.flag F.PWR_BAND_GUARD b then s
  else (s.setFlag F.PWR_EVENTS_AVS_GUARD).anyEvent 0x03 3

/-- Residency of a band. -/
def State.bandTime (s : State) (b us : Nat) : State :=
  { s with clk := { s.clk with bandUs := s.clk.bandUs.set b (s.clk.bandUs.getD b 0 + us) } }

/-- R72: a window of 10 µs: how long ago each band was left. -/
def State.windowOut (s : State) (b : Nat) : State :=
  { s with clk := { s.clk with outUs := (List.range 4).map (fun j => if j = b then 0 else min 1000 (s.clk.outUs.getD j 1000 + 10)) } }

/-- R69: the load band of a utilisation in percent. -/
def loadBand (busy : Nat) : Nat := min 3 (busy / 25)

/-- LOAD_BAND_WINDOW (R69 to R72): a higher target is taken at once, a lower one after 1 ms. -/
def execLoadBandWindow (busyPercent : Nat) (s : State) : Host.Outcome State Fault Refusal :=
  .next (if s.fld F.PWR_STATUS_CORE_DIV = 0 then s
    else
      let b := loadBand busyPercent
      let t := (((s.noteGuard b).putFld F.PWR_STATUS_BAND b).showGuard.bandTime b 10).windowOut b
      if t.fld F.PWR_VCORE_TARGET_MV < t.wantMv then t.aim else t)

/-- R71: the bands whose Tj at measurement lies more than 25 °C from the present one, in 1/8 °C, are unmeasured. -/
def State.coolBands (s : State) (tj : Int) : State :=
  (List.range 4).foldl (fun t b =>
    if t.flag F.PWR_BAND_MEASURED b ∧ 200 < (tj - 8 * signedOf 8 (t.fld F.PWR_BAND_TJ_MEAS b)).natAbs then
      { t.putFld F.PWR_BAND_MEASURED 0 b with clk := { t.clk with bandUs := t.clk.bandUs.set b 0 } }
    else t) s

/-- BAND_MEASURED (R70): after 2 ms of residency; offset and Tj as 8-bit signed patterns (see log entry 7, DESIGN CHOICE). -/
def execBandMeasured (band offset tj : Nat) (s : State) : Host.Outcome State Fault Refusal :=
  .next (if band < 4 ∧ s.flag F.PWR_BAND_MEASURED band = false ∧ 2000 ≤ s.clk.bandUs.getD band 0 then
      let t := s.setReg .PWR_BAND (2 ^ 31 + offset % 256 * 256 + tj % 256) band
      (t.coolBands (8 * signedOf 8 tj)).showGuard.aim
    else s)

/-- AVS_LOWER (R72): the target falls to what the bands still served ask for: a band left less than 1 ms ago keeps it up
(see log entry 7, DESIGN CHOICE). -/
def execAvsLower (s : State) : Host.Outcome State Fault Refusal :=
  .next (if s.fld F.PWR_STATUS_CORE_DIV = 0 then s else s.aim)

/-- R71: firmware marks bands unmeasured; INVALIDATE itself reads 0. -/
def State.invalidateBands (s : State) (v : Nat) : State :=
  ((List.range 4).filter (fun b => v.testBit b)).foldl (fun t b =>
    { t.putFld F.PWR_BAND_MEASURED 0 b with clk := { t.clk with bandUs := t.clk.bandUs.set b 0 } }) s

/-- PWR_AVS_INVALIDATE (R71). -/
def execPwrAvsInvalidate (w : RegWrite) (s : State) : Host.Outcome State Fault Refusal :=
  .next (s.regWrite .PWR (s.p0 w.initiator) (s.invalidateBands w.value))

/-! Droop (R73). -/

/-- DROOP_DETECT (R73): VDD_CORE lies belowMv below its target. -/
def execDroopDetect (belowMv : Nat) (s : State) : Host.Outcome State Fault Refusal :=
  .next (if s.fld F.PWR_DROOP_CFG_THRESH_MV < belowMv then { s with clk := { s.clk with droop := true } } else s)

/-- DROOP_RECOVERY (R73): the supply has recovered after skipped CLK_CORE cycles; a skipped cycle is not a CLK_CORE cycle. -/
def execDroopRecovery (skipped : Nat) (s : State) : Host.Outcome State Fault Refusal :=
  .next (if s.clk.droop then
      { s.setReg .PWR_DROOP_SKIPS ((s.reg .PWR_DROOP_SKIPS + skipped) % 2 ^ 64) with
        clk := { s.clk with droop := false, inDroop := 0 } }.addCycles (s.clk.inDroop - skipped)
    else s)

/-! Power capping (R61 to R67). -/

/-- Slots that no partition reserves. -/
def State.unreserved (s : State) (n : Nat) : Bool := (s.engineOwner 0 n).isNone

/-- A slot is parked or will be at its kernel's end. -/
def State.parks (s : State) (n : Nat) : Bool := s.flag F.ME_STATE_PARKED n || s.clk.parkPending.contains n

/-- Slots that are not parked and not to be parked. -/
def State.unparked (s : State) : List Nat := (List.range s.chip.slots).filter (fun n => !s.parks n)

/-- R66: the floor of parking. -/
def State.parkFloor (s : State) : Nat :=
  max (s.fld F.PWR_CTL_ME_MIN) ((List.range s.chip.slots).filter (fun n => !s.unreserved n)).length

/-- R66: the slot parked next: the highest that nobody reserves. -/
def State.parkNext (s : State) : Option Nat :=
  if s.unparked.length ≤ s.parkFloor then none else (s.unparked.filter s.unreserved).getLast?

/-- R67: the most engines that may be unparked. -/
def State.meMost (s : State) : Nat := min (s.powerMost (s.fld F.PWR_PROFILE_PROFILE)) (s.fld F.PWR_CTL_ME_MAX)

/-- R66: the slot unparked next: the lowest. -/
def State.unparkNext (s : State) : Option Nat :=
  if s.meMost ≤ s.unparked.length then none
  else (List.range s.chip.slots).find? (fun n => s.parks n)

/-- R65: a slot is parked at once, or at the end of its kernel. -/
def State.park1 (s : State) (n : Nat) : State :=
  let t := s.setFlag F.GLK_TBREAK_PARK
  if (t.kernelOn 0 n).isSome then { t with clk := { t.clk with parkPending := t.clk.parkPending ++ [n] } } else t.setParked n true

/-- R67: no more engines than the limit stay unparked, but for reserved ones (see log entry 67, DEDUCED). -/
def State.trimEngines (s : State) : State :=
  ((s.unparked.filter s.unreserved).reverse.take (s.unparked.length - s.meMost)).foldl State.park1 s

/-- The cap in force in 0.1 W: 90 % of it while telemetry is lost (R62). -/
def State.cap (s : State) : Nat := if s.flag F.PWR_STATUS_PMBUS_LOST then s.clk.capDw * 9 / 10 else s.clk.capDw

/-- R63, R320: one step against the cap: an engine parked, else the divider one step slower (see log entry 67, DEDUCED). -/
def State.capStep (s : State) : State :=
  match s.parkNext with
  | some n => (s.park1 n).setFlag F.GLK_TBREAK_THROTTLE
  | none =>
    if s.fld F.PWR_STATUS_CORE_DIV < s.fld F.PWR_CTL_DIV_MAX then
      ((s.setDiv (slower (s.fld F.PWR_STATUS_CORE_DIV))).aim).setFlag F.GLK_TBREAK_THROTTLE
    else s

/-- R63, R64: nothing is left to lower. -/
def State.atLimits (s : State) : Bool := s.parkNext.isNone && decide (s.fld F.PWR_CTL_DIV_MAX ≤ s.fld F.PWR_STATUS_CORE_DIV)

/-- R63: what recovery gives back: the divider to the profile's start, then engines (see log entry 67, DEDUCED). -/
def State.recoverStep (s : State) : State :=
  if startDiv (s.fld F.PWR_PROFILE_PROFILE) < s.fld F.PWR_STATUS_CORE_DIV then (s.setDiv (faster (s.fld F.PWR_STATUS_CORE_DIV))).aim
  else
    match s.unparkNext with
    | some n => (s.setParked n false).setFlag F.GLK_TBREAK_PARK
    | none => s

/-- Everything is given back. -/
def State.recovered (s : State) : Bool :=
  decide (s.fld F.PWR_STATUS_CORE_DIV ≤ startDiv (s.fld F.PWR_PROFILE_PROFILE)) && s.unparkNext.isNone

/-- R61: the average of the readings kept: before ten have come, of those that have (see log entry 85, DESIGN CHOICE). -/
def average (l : List Nat) : Nat := l.foldl (· + ·) 0 / max 1 l.length

/-- PWR_POWER after a reading. -/
def State.takeReading (s : State) (r : Nat) : State :=
  let l := (s.clk.readings ++ [r]).drop (s.clk.readings.length + 1 - 10)
  { (s.putFld F.PWR_POWER_AVG_DW (satNat 16 (average l))).putFld F.PWR_POWER_PEAK_DW (satNat 16 (l.foldl max 0)) with
    clk := { s.clk with readings := l } }

/-- CAP_STATE: 0 under the cap with nothing held back, 1 capping, 2 unmet. -/
def State.showCap (s : State) (above : Bool) : State :=
  let c := s.fld F.PWR_STATUS_CAP_STATE
  if above then
    (if c = 0 then ((s.putFld F.PWR_STATUS_CAP_STATE 1).setFlag F.PWR_EVENTS_CAP_ACTIVE).anyEvent 0x03 1 else s)
  else s.putFld F.PWR_STATUS_CAP_STATE (if c = 0 ∨ s.recovered = true then 0 else 1)

/-- R63: the 1 ms step on the average. -/
def State.powerAct (s : State) : State :=
  let avg := average s.clk.readings
  let s := s.trimEngines.showCap (decide (s.cap < avg))
  if s.cap < avg then
    let ms := if s.atLimits then s.clk.overMs + 1 else 0
    { s.capStep with clk := { s.capStep.clk with overMs := ms, recoverMs := 0 } }
  else if 100 * avg < 95 * s.cap then
    let n := s.clk.recoverMs + 1
    let t := if 10 ≤ n then s.recoverStep else s
    { t with clk := { t.clk with overMs := 0, recoverMs := if 10 ≤ n then 0 else n } }
  else { s with clk := { s.clk with overMs := 0, recoverMs := 0 } }

/-- POWER_MANAGER_STEP (R61 to R63): the telemetry's reading in 0.1 W, or while it is lost the activity estimate. -/
def execPowerManagerStep (reading : Option Nat) (estimate : Nat) (s : State) : Host.Outcome State Fault Refusal :=
  .next (if s.fld F.PWR_STATUS_CORE_DIV = 0 then s
    else
      match reading with
      | some r => ((s.putFld F.PWR_STATUS_PMBUS_LOST 0).takeReading r).powerAct
      | none => if s.flag F.PWR_STATUS_PMBUS_LOST then (s.takeReading estimate).powerAct else s.powerAct)

/-- PMBUS_LOST (R62). -/
def execPmbusLost (s : State) : Host.Outcome State Fault Refusal :=
  .next (if s.flag F.PWR_STATUS_PMBUS_LOST then s
    else ((s.putFld F.PWR_STATUS_PMBUS_LOST 1).setFlag F.PWR_EVENTS_PMBUS_LOST).anyEvent 0x03 4)

/-- PWR_CAP_UNMET (R64): above the cap for 100 ms at the limits (see log entry 7, DESIGN CHOICE). -/
def execPwrCapUnmet (s : State) : Host.Outcome State Fault Refusal :=
  .next (if 100 ≤ s.clk.overMs ∧ s.fld F.PWR_STATUS_CAP_STATE ≠ 2 then
      ((s.putFld F.PWR_STATUS_CAP_STATE 2).setFlag F.PWR_EVENTS_CAP_UNMET).anyEvent 0x03 2
    else s)

/-- A write of PWR_CTL: one that makes ME_MIN exceed ME_MAX is ignored, as is a divider beyond the profile's limit; ME_MAX and ME_MIN
are stored as written (see log entry 67, DEDUCED; log entry 107, DESIGN CHOICE). -/
def State.writePwrCtl (s : State) (v : Nat) : State :=
  let d := bitsOf v 31 28
  let limit := powerDivMax (s.fld F.PWR_PROFILE_PROFILE)
  if bitsOf v 13 8 < bitsOf v 5 0 then s
  else
    let t := (s.putFld F.PWR_CTL_ME_MAX (bitsOf v 13 8)).putFld F.PWR_CTL_ME_MIN (bitsOf v 5 0)
    if [4, 5, 6, 8].contains d && decide (d ≤ limit) then t.putFld F.PWR_CTL_DIV_MAX d else t

/-- R67, R68: power management starts with the profile's limits: the divider, the engines beyond ME_MAX parked, no band measured. The guard
step of band 0 is no event; PMBus and AVSBus are in use (see log entry 107, DESIGN CHOICE). -/
def State.startPower (s : State) : State :=
  let d := startDiv (s.fld F.PWR_PROFILE_PROFILE)
  let t := { (s.putFld F.PWR_STATUS_CORE_DIV d).putFld F.PWR_VCORE_VCAL_MV (Config.vcalMv d) with
    clk := { s.clk with capDw := 10 * s.fld F.PWR_PROFILE_CAP_W, readings := [], overMs := 0, recoverMs := 0, parkPending := [] } }
  let t := (((List.range t.chip.slots).filter t.unreserved).reverse.take (t.chip.slots - t.meMost)).foldl
    (fun u n => u.setParked n true) t
  { t.showPark.showGuard.aim with pins := { t.pins with pmbus := true, avs := true } }

/-! Throttling (R74). -/

/-- PWR_TEMP takes the hottest sensor. -/
def State.showTemp (s : State) (sensor tj : Nat) : State :=
  ((s.putFld F.PWR_TEMP_SENSOR sensor).putFld F.PWR_TEMP_TJ tj).coolBands (signedOf 12 tj)

/-- THERMAL_THROTTLE (R74): the hottest sensor and its Tj in 1/8 °C as a 12-bit signed pattern, every 10 ms while it throttles. When
throttling ends the profile's cap returns at once (see log entry 67, DEDUCED; log entry 86, DESIGN CHOICE). -/
def execThermalThrottle (sensor tj : Nat) (s : State) : Host.Outcome State Fault Refusal :=
  let limit : Int := 8 * s.fld F.PWR_TLIMITS_THROTTLE_C
  let t := s.showTemp sensor tj
  .next (if limit ≤ signedOf 12 tj ∨ (s.flag F.PWR_STATUS_THROTTLE ∧ limit - 24 ≤ signedOf 12 tj) then
      let t := { t with clk := { t.clk with capDw := t.clk.capDw * 9 / 10 } }
      if s.flag F.PWR_STATUS_THROTTLE then t
      else (((t.putFld F.PWR_STATUS_THROTTLE 1).setFlag F.PWR_EVENTS_THROTTLE).setFlag F.GLK_TBREAK_THROTTLE).anyEvent 0x03 5
    else
      { t.putFld F.PWR_STATUS_THROTTLE 0 with
        clk := { t.clk with capDw := if s.flag F.PWR_STATUS_THROTTLE then 10 * s.fld F.PWR_PROFILE_CAP_W else t.clk.capDw } })

end Sys2Proof.Machine
end

