-- ==== Sys2Proof/Machine/Boot.lean ====
section
/-! DEFINITION. Reset, BOOT, the acceptance of a profile, HELD, and the packets that load and select profiles (file 01: R19 to R24,
R30 to R36; files 02 and 15: R46, R75, R472, R478). -/

namespace Sys2Proof.Machine

/-! Resets (R36, R472, R478). -/

/-- The device in COLD (see log entry 33, DEDUCED; log entry 68, DEDUCED). -/
def State.cold (s : State) (porstN rails : Bool) : State :=
  let v := s.reg .SYS_SELECT
  let t := ((s.setReg .SYS_DEVSTATE devCold).putFld F.SYS_DEVSTATE_SELECT_VALID (v % 2)).putFld F.SYS_DEVSTATE_SELECT_SLOT (v / 2 % 4)
  { t with dev := { t.dev with porstN := porstN, railsValid := rails }, pins := { t.pins with xspiReset := true } }

/-- R36: a power-on reset clears the always-on domain as well (see log entry 33, DEDUCED). -/
def State.powerOn (s : State) (rails : Bool) : State :=
  let t := s.resetAll.setReg .SEC_LIFECYCLE (b2n s.chip.otp.secured)
  { t with dev := { t.dev with nowNs := 0, releaseNs := 0 } }.cold false rails

/-- POWER_ON_RESET (R36): the first ramp of VDD_AON. -/
def execPowerOnReset (s : State) : Host.Outcome State Fault Refusal := .next (s.powerOn true)

/-- RAIL_MONITOR_TRIP (R478): the reset lasts until every monitor reports valid, which is a release of PORST_N (see log entry 33, DEDUCED). -/
def execRailMonitorTrip (_rail : Nat) (s : State) : Host.Outcome State Fault Refusal := .next (s.powerOn false)

/-- What SYS_SELECT and SYS_RSTCAUSE keep through a reset, with one more cause. -/
def State.keepAlwaysOn (t s : State) (cause : Fld) : State :=
  ((t.setReg .SYS_RSTCAUSE (s.reg .SYS_RSTCAUSE)).setReg .SYS_SELECT (s.reg .SYS_SELECT)).setFlag cause

/-- PORST_N_ASSERT (R36): with every rail valid (see log entry 33, DEDUCED). -/
def execPorstNAssert (s : State) : Host.Outcome State Fault Refusal :=
  .next (if s.dev.railsValid then (s.resetAll.keepAlwaysOn s F.SYS_RSTCAUSE_PORST).cold false true
    else { s with dev := { s.dev with porstN := false } })

/-- PORST_N_RELEASE (R19, R29, R472): CROWN1, CROWN0 and REFSEL are sampled and BOOT starts on RCOSC (see log entry 33, DEDUCED). -/
def execPorstNRelease (crown1 crown0 refsel : Bool) (s : State) : Host.Outcome State Fault Refusal :=
  .next (if s.devState = devCold ∧ (s.dev.porstN = false ∨ s.dev.railsValid = false) then
      { s with
        dev := { s.dev with
          porstN := true, railsValid := true, releaseNs := s.dev.nowNs, boot := .qualifying
          crown := 2 * b2n crown1 + b2n crown0, refsel := refsel }
        pins := { s.pins with xspiReset := false } }.showStart
    else s)

/-- THERMTRIP_N (R75): every function is held in reset, outputs at the levels of Table SYS-8
(see log entry 33, DEDUCED; log entry 68, DEDUCED). -/
def execThermtripN (sensor : Nat) (s : State) : Host.Outcome State Fault Refusal :=
  .next (if s.dev.thermTrip ∨ 24 ≤ sensor then s
    else
      let t := (s.resetAll.keepAlwaysOn s F.SYS_RSTCAUSE_THERMTRIP).cold true true
      let t := { t with dev := { t.dev with thermTrip := true, crown := s.dev.crown, refsel := s.dev.refsel },
                        pins := { t.pins with thermtrip := true } }
      t.putFld F.SYS_DEVSTATE_CROWN s.dev.crown)

/-! HELD (R24, R30). -/

/-- SYS_BOOTSTAT (see log entry 34, DEDUCED). -/
def State.bootStat (s : State) (cause step sec : Nat) : State :=
  s.setReg .SYS_BOOTSTAT (2 ^ 24 * (cause % 256) + 2 ^ 16 * (sec % 32) + step % 32)

/-- The one queue of HELD: queue 0 of partition 0, with the smallest rings, and the UDP command port of Table SYS-8
(see log entry 34, DEDUCED). -/
def State.heldQueue (s : State) : State :=
  { s with dev := { s.dev with linkLocal := some (Config.linkLocal s.chip.uid) } }.loadRegs [(.CMDQ_UDPCFG, 0, 0, 47011 * 65536),(.CMDQ_QBASE, 0, 0, 0x200000000000), (.CMDQ_QCPLBASE, 0, 0, 0x200000100000),
    (.CMDQ_QCFG, 0, 0, 2 ^ 31 + 11 * 2 ^ 23 + 8 * 2 ^ 18), (.CMDQ_QSTAT, 0, 0, 2 ^ 29 * stRunning),
    (.CMDQ_OPQUOTA, 0, 0, 256 * 65536), (.PCIE_FNMAP, 0, 0, 2 ^ 31)]

/-- R30, R25: FN_PCIE and FN_ETH in HELD, with their clocks, transmitters and times; without REFCLK neither is up, and on RCOSC both are
stopped until another source is active (R55) (see log entry 34, DEDUCED; log entry 110, DESIGN CHOICE). -/
def State.heldLinks (s : State) (absent : Bool) : State :=
  if absent then
    (s.setFn fnPcie stHeld).setFn fnEth stHeld
  else
    let t := (List.range 8).foldl (fun t p => t.setUnit fnEth p stOff) s
    if s.rcoscHolds fnPcie then
      { ((t.setFn fnPcie stStopped).setFn fnEth stStopped).setUnit fnEth 8 stStopped with
        clk := { t.clk with stopped := [fnPcie, fnEth] } }.heldQueue
    else
      let t := ((t.setFn fnPcie stReady).setFn fnEth stReady).setReg .CLK_GATE 0x8007
      ((((t.setUnit fnEth 8 stReady).drive fnEth 8 true).driveFn fnPcie true).trainPcie.recordTime fnPcie).recordTime fnEth |>.heldQueue

/-- The functions whose units the states of Table SYS-11 show, partitions apart (Table SYS-12). -/
def unitFns : List Nat := [fnEth, fnGlk, fnMe, fnScan, fnAdma, fnVis, fnCam, fnVid, fnMot, fnCan, fnApp]

/-- Every unit of those functions in one state. -/
def State.markUnits (s : State) (code : Nat) : State :=
  unitFns.foldl (fun t fn => (List.range 48).foldl (fun u k =>
    match u.unitFld fn k with
    | some (f, i) => u.putFld f code i
    | none => u) t) s

/-- R32, R128: the test of SMEM banks 0 to 7 writes every word but those of the event ring, which stays (see log entry 34, DEDUCED). -/
def State.testGroup0 (s : State) : State := s.clearMem 0x100000 0x1000000

/-- R30: the device enters HELD (see log entry 34, DEDUCED). -/
def State.enterHeld (s : State) (cause step sec : Nat) : State :=
  let t := (s.testGroup0.putFld F.SYS_DEVSTATE_DEVSTATE devHeld).putFld F.SYS_DEVSTATE_ACTIVE_SLOT s.dev.slot
  let t := (List.range 17).foldl (fun t n => t.setFn n (if n = fnMgmt then stRunning else stHeld)) (t.bootStat cause step sec)
  let t := { t with dev := { t.dev with boot := .done }, pins := { t.pins with senseClk := 0, fsync := 0, i3c := 0 } }
  (((t.markUnits stHeld).recordTime fnMgmt).heldLinks (cause == 0x13)).showSafeFault

/-- The function and unit states of BOOT. -/
def State.bootStates (s : State) : State :=
  ((List.range 17).foldl (fun t n => t.setFn n stOff) s).markUnits stOff

/-! REFCLK in BOOT (R23, R24, R46). -/

/-- R23: REFCLK has qualified: the root PLL locks to it and the profile is read. -/
def State.lockRoot (s : State) : State :=
  { (s.putFld F.CLK_STATUS_ACTIVE 0).putFld F.CLK_STATUS_PLL_LOCK 1 with
    dev := { s.dev with boot := .reading }, pins := { s.pins with xspi := true } }

/-- REFCLK_READY (R46): BOOT goes on; a HELD of REFCLK_ABSENT resumes BOOT (R24). -/
def execRefclkReady (s : State) : Host.Outcome State Fault Refusal :=
  .next (if s.devState = devCold ∨ s.srcReady 0 = true then s
    else
      let t := (s.putFld F.CLK_STATUS_READY_REFCLK 1).putFld F.CLK_QUAL_REFCLK_COUNT 32768
      if s.devState = devBoot ∧ s.dev.boot = .qualifying then t.lockRoot
      else if s.devState = devHeld ∧ s.fld F.SYS_BOOTSTAT_CAUSE = 0x13 then
        (t.putFld F.SYS_DEVSTATE_DEVSTATE devBoot).bootStates.lockRoot.showSafeFault
      else t)

/-- REFCLK_ABSENT (R24): not qualified within 20 ms of the release. -/
def execRefclkAbsent (s : State) : Host.Outcome State Fault Refusal :=
  .next (if s.devState = devBoot ∧ s.dev.boot = .qualifying then s.enterHeld 0x13 0 0 else s)

/-! The acceptance of a profile (R18, R25 to R27). -/

/-- R228: the prefix keys that the profile does not fix are drawn (see log entry 77, DEDUCED). -/
def State.drawPrefixKeys (s : State) (x : Settings) : State :=
  ((List.range 64).filter (fun p => !x.loads.any (fun l => l.1 / 16 == (Block.base .ADMA + 0x2030 + 0x40 * p) / 16))).foldl
    (fun t p => ((t.setReg .ADMA_HKEY (t.freeNat 64) p 0).drawFree.setReg .ADMA_HKEY (t.drawFree.freeNat 64) p 1).drawFree) s

/-- R135: every region takes the boot key: the profile's, or one drawn. -/
def State.drawRanding (s : State) : State :=
  let fixed := s.reg .MEMC_KEY 0 + 2 ^ 32 * s.reg .MEMC_KEY 1 + 2 ^ 64 * s.reg .MEMC_KEY 2
  let put := fun (t : State) key => { t with memc := { t.memc with
    keys := (List.range s.chip.gib).foldl (fun m n => sparseSet (fun _ => 0) m n key) [] } }
  if s.flag F.MEMC_CFG_KEY_FIXED then put s fixed
  else put s.drawFree.drawFree (s.freeNat 64 + 2 ^ 64 * s.drawFree.freeNat 32)

/-- R132, R136: the regions that are left below the check bits and the reserve (see log entry 77, DEDUCED). -/
def State.layFrames (s : State) : State :=
  let t := (s.putFld F.MEMC_CAP_TOP_GIB s.topGib).putFld F.MEMC_CAP_RESERVE_FRAME (if s.flag F.MEMC_CFG_RESERVE then s.topGib else 0xFF)
  (List.range 192).foldl (fun u n => u.putFld F.MEMC_REGION_PRESENT (b2n (decide (n < t.fld F.MEMC_CAP_TOP_GIB))) n) t

/-- R456: the ring moves to the profile's LOG_RING with every record. -/
def State.moveRing (s : State) (before : Nat) : State :=
  if s.ringBase = before then s else s.sysWrite s.ringBase (s.sysBytes before 0x100000)

/-- R56: the clock gates of what the profile enables and configures. -/
def State.openGates (s : State) (x : Settings) : State :=
  let mask := fun fn k => ((x.units.filter (fun e => e.1 == fn && decide (e.2 < k))).map (·.2)).foldl (fun m n => withBit m n) 0
  ((s.setReg .CLK_GATE ((x.enabled % 2 ^ 17) ||| 0x8001)).setReg .CLK_GATE_CAM
    (if x.enabled.testBit fnCam then mask fnCam 16 else 0)).setReg .CLK_GATE_CAN (if x.enabled.testBit fnCan then mask fnCan 8 else 0)

/-- R34: the functions that HELD left up drain before they restart with the profile's settings. -/
def State.restarts (s : State) : List Nat := if s.devState = devHeld then [fnPcie, fnEth].filter (fun n => s.fnUsable n) else []

/-- R25: every enabled function and unit reads STARTING, every other OFF; those that restart drain first (R34), as does the management
port; partitions, their contexts and enabled queues are in service with FN_MGMT (see log entry 81, DEDUCED). -/
def State.showAccepted (s : State) (x : Settings) (again : List Nat) : State :=
  let t := ((List.range 17).foldl (fun t n =>
    t.setFn n (if again.contains n then stDraining else if isOn x n then stStarting else stOff)) s).markUnits stOff
  let t := if again.contains fnEth then t.setUnit fnEth 8 stDraining else t
  let t := { t with dev := { t.dev with restart := again } }
  let t := (x.units.filter (fun e => e.1 != fnMgmt && !again.contains e.1)).foldl (fun t e => t.setUnit e.1 e.2 stStarting) t
  let t := ((List.range 64).filter (fun p => x.created.testBit p)).foldl (fun t p =>
    (t.contexts p).foldl (fun u c => u.putFld F.ESC_CTX_STATE stReady p c) (t.setUnit fnMgmt p stReady)) t
  let t := ((List.range 8192).filter (fun q => s.flag F.CMDQ_QCFG_EN q)).foldl (fun t q => t.putFld F.CMDQ_QSTAT_STATE stRunning q) t
  ((t.setFn fnMgmt stRunning).recordTime fnMgmt).suspendAll

/-- Queue 0 as HELD left it goes. -/
def State.dropHeldQueue (s : State) : State :=
  let t := s.loadRegs [(.CMDQ_QBASE, 0, 0, 0), (.CMDQ_QCPLBASE, 0, 0, 0), (.CMDQ_QCFG, 0, 0, 0), (.CMDQ_QSTAT, 0, 0, 0),
    (.CMDQ_QHEAD, 0, 0, 0), (.CMDQ_QTAIL, 0, 0, 0), (.CMDQ_QCPLHEAD, 0, 0, 0), (.CMDQ_QSEQ, 0, 0, 0), (.CMDQ_OPQUOTA, 0, 0, 0),
    (.CMDQ_UDPCFG, 0, 0, 0), (.PCIE_FNMAP, 0, 0, 0)]
  { t with
    dev := { t.dev with linkLocal := none }
    cq := { t.cq with held := [], heads := [], fresh := [], waitMet := [], stuck := [], flight := [], cplIndex := [], udp := [] } }

/-- R60: the sensor clocks that the profile enables start. -/
def State.startSense (s : State) : State :=
  (List.range 8).foldl (fun t n => if t.flag F.CLK_SENSCTL_EN n then t.senseOut n true else t) s

/-- The profile of an image is accepted: its settings are in force, its management firmware runs (R487) and STARTING begins. SYS_BOOTSTAT
keeps the CAUSE, SECTION and STEP of the last failure (see log entry 77, DEDUCED; log entry 87, DESIGN CHOICE). -/
def State.accept (s : State) (img : Nat → Nat → List Byte) (x : Settings) (slot : Nat) (ram : Bool) : State :=
  let before := s.ringBase
  let again := s.restarts
  let fw := (sectionOf img 0x0007).getD []
  let t := if s.devState = devHeld then s.dropHeldQueue else s
  let t := t.loaded (phNum img 7 1) x
  let t := { t with dev := { t.dev with
    settings := some x, firmware := x.firmware, rollback := phNum img 0x18 4, boot := .done, load := none, slot := slot, mgmtFw := fw } }
  let t := (List.range 17).foldl (fun t n => t.setReg .SYS_DEPEND (prereqs x n) n) t
  let t := (((t.moveRing before).drawPrefixKeys x).drawRanding).layFrames
  let t := (t.setReg .ESC_QCYC (t.fld F.ESC_CFG_Q_US * 1500)).openGates x
  let t := ((t.putFld F.SYS_DEVSTATE_DEVSTATE devStarting).putFld F.SYS_DEVSTATE_ACTIVE_SLOT slot).putFld
    F.SYS_DEVSTATE_RAM_PROFILE (b2n ram)
  ((t.showAccepted x again).startPower.startSense.refreshUnits.showSafeFault).settle

/-- The bytes of a slot's image in flash. -/
def State.slotImage (s : State) (slot off n : Nat) : List Byte := s.flashBytes (slotBase slot + off) n

/-- PROFILE_READ_DONE (R18): the checks of Table SYS-5 on the selected slot. -/
def execProfileReadDone (r : Reading) (s : State) : Host.Outcome State Fault Refusal :=
  .next (if s.devState = devBoot ∧ s.dev.boot = .reading then
      match s.slotFault s.dev.slot r with
      | some (c, n, k) => s.enterHeld c n k
      | none => s.accept (s.slotImage s.dev.slot) r.settings s.dev.slot false
    else s)

/-- FLASH_READ_TIMEOUT (R18 check 1). -/
def execFlashReadTimeout (s : State) : Host.Outcome State Fault Refusal :=
  .next (if s.devState = devBoot ∧ s.dev.boot = .reading then s.enterHeld 0x10 1 0 else s)

/-! LOAD_PROFILE (R32 to R34). -/

/-- The staging buffer's bytes as a profile image. -/
def State.stagedImage (s : State) (off n : Nat) : List Byte := s.sysBytes (stagingBase + off) n

/-- From a byte on, how far the ranges that arrived reach without a gap. -/
def reach (l : List (Nat × Nat)) : Nat → Nat → Nat
  | 0, x => x
  | k + 1, x =>
    match l.find? (fun e => decide (e.1 ≤ x ∧ x < e.2)) with
    | some e => reach l k e.2
    | none => x

/-- Every byte from lo to below hi has arrived. -/
def arrived (l : List (Nat × Nat)) (lo hi : Nat) : Bool := decide (hi ≤ reach l l.length lo)

/-- The ranges that have arrived of the load in progress (see log entry 35, DEDUCED). -/
def State.loadRanges (s : State) : List (Nat × Nat) := (s.dev.load.map (·.arrived)).getD []

/-- R32: payload bytes are staged at their offset; another SIGNED_LENGTH at offset 0 starts a new load. -/
def State.stage (s : State) (off : Nat) (data : List Byte) : State :=
  if data.isEmpty then s
  else
    let l := s.dev.load.getD {}
    let n := if off = 0 then some (leAt data 0x10 4) else l.signedLength
    let fresh := off == 0 && l.signedLength.isSome && l.signedLength != n
    let old := if fresh then [] else l.arrived
    let t := s.sysWrite (stagingBase + off) data
    { t with dev := { t.dev with load := some { signedLength := n, arrived := old ++ [(off, off + data.length)] } } }

/-- R12: the header copy that a write of a slot's bit needs: its number, HDR_SEQ and SLOT_MASK; none where the bit is set
(see log entry 35, DEDUCED). -/
def State.headerWrite (s : State) (slot : Nat) : Option (Nat × Nat × Nat) :=
  match s.ihUsed with
  | none => some (0, 1, 2 ^ slot)
  | some k =>
    if (s.slotMask k).testBit slot then none else some (1 - k, leAt (s.ihCopy k) 8 4 + 1, s.slotMask k + 2 ^ slot)

/-- R33: the checks on the staged image from step 4: CAUSE, step and section of the first that fails. -/
def State.stagedFault (s : State) (p : Packet) (r : Reading) : Option (Nat × Nat × Nat) :=
  let l := s.loadRanges
  let img := s.stagedImage
  let slot := bitsOf p.flags 7 6
  if !arrived l 0 256 then some (0x14, 0, 0)
  else if !headerOk img (if p.flags.testBit 4 then some slot else none) then some (0x03, 4, 0)
  else if !(arrived l 0 (phSigned img) && arrived l (phSigBlock img) (phSigBlock img + 8192) && arrived l 0xBFF000 0xBFF020) then
    some (0x14, 0, 0)
  else
    match s.bodyFault img r with
    | some e => some e
    | none => if p.flags.testBit 4 && (s.headerWrite slot).any (fun h => h.2.1 == 0xFFFFFFFF) then some (0x15, 0, 0) else none

/-- R34: RUN: the load completes and the device goes from HELD to STARTING under the loaded profile. ACTIVE_SLOT shows the slot bits of
the packet's FLAGS, also for a profile that lies in no slot (see log entry 88, DESIGN CHOICE). -/
def State.runLoaded (s : State) (id slot : Nat) (x : Settings) (ram : Bool) : State :=
  (s.complete id csDone 0).accept s.stagedImage x slot ram

/-- LOAD_PROFILE's effect; a LAST packet whose image fails its checks leaves the staging buffer as it was before it (R83)
(see log entry 35, DEDUCED). -/
def loadProfileBody (p : Packet) (r : Reading) (id : Nat) (s : State) : State :=
  let t := s.stage p.target p.payload
  let slot := bitsOf p.flags 7 6
  if pLast p = false then t.finish id csDone 0
  else
    match t.stagedFault p r with
    | some (c, n, k) => (s.bootStat c n k).finish id csFormat c
    | none =>
      if p.flags.testBit 4 then { t with dev := { t.dev with flashWrite := some (id, slot, p.flags, r.settings) } }
      else if p.flags.testBit 5 then t.runLoaded id slot r.settings true
      else t.finish id csDone 0

/-- The checks of LOAD_PROFILE (see log entry 35, DEDUCED). -/
def loadProfileRule (p : Packet) (s : State) : Rule where
  op := ⟨1, 1⟩
  opf := 15
  format := decide (p.target + p.payload.length ≤ 0xC00000)
  p0 := true
  inHeld := true
  ready := s.devState == devHeld && s.dev.flashWrite.isNone
  fn := some (fnMgmt, none)

/-- LOAD_PROFILE (R32, R33). -/
def execLoadProfile (p : Packet) (r : Reading) (s : State) : Host.Outcome State Fault Refusal :=
  .next (runPacket (.loadProfile p r) (loadProfileRule p s) p (loadProfileBody p r) s)

/-- R11: an image header. -/
def imageHeader (seq mask sizeLog2 : Nat) : List Byte :=
  let h := toLe 4 0x534C5448 ++ toLe 2 1 ++ toLe 1 mask ++ toLe 1 sizeLog2 ++ toLe 4 seq ++ List.replicate 48 0
  h ++ toLe 4 (crc32c h)

/-- R12: the header change of a slot, where one is needed. Without a valid copy the size is the flash's own (JESD216). -/
def State.writeHeader (s : State) (slot sizeLog2 : Nat) : State :=
  match s.headerWrite slot with
  | none => s
  | some (k, seq, mask) =>
    let size := match s.ihUsed with
      | some u => leAt (s.ihCopy u) 7 1
      | none => sizeLog2
    (s.flashErase (0x1000 * k) (0x1000 * k + 0x1000)).flashWrite (0x1000 * k) (imageHeader seq mask size)

/-- R17: the staged image in its slot, the commit marker last. -/
def State.writeSlot (s : State) (slot : Nat) : State :=
  let img := s.stagedImage
  let b := slotBase slot
  let t := (s.flashErase b (b + 0xC00000)).flashWrite b (img 0 (phSigned img))
  (t.flashWrite (b + phSigBlock img) (img (phSigBlock img) 8192)).flashWrite (b + 0xBFF000) (img 0xBFF000 32)

/-- R34: a slot whose write failed lacks its marker; what stands before it is free (see log entry 35, DEDUCED). -/
def State.spoilSlot (s : State) (slot : Nat) : State :=
  let b := slotBase slot
  let junk := (List.range 0xBFF000).map (fun n => Config.freeByte (s.free + n))
  { (s.flashErase b (b + 0xC00000)).flashWrite b junk with free := s.free + 0xBFF000 }

/-- R34, R12: a header write that failed, after its slot's marker: the copy not in use is erased, and what stands before its IH_CRC, which
is written last, is free; the copy in use is unchanged (see log entry 35, DEDUCED). -/
def State.spoilHeader (s : State) (slot : Nat) : State :=
  match s.headerWrite slot with
  | none => s
  | some (k, _, _) =>
    let junk := (List.range 0x3C).map (fun n => Config.freeByte (s.free + n))
    { (s.flashErase (0x1000 * k) (0x1000 * k + 0x1000)).flashWrite (0x1000 * k) junk with free := s.free + 0x3C }

/-- R34: how the flash writes leave the flash. -/
def State.flashEnded (s : State) (slot sizeLog2 : Nat) : FlashEnd → State
  | .done => (s.writeSlot slot).writeHeader slot sizeLog2
  | .slotFailed => s.spoilSlot slot
  | .headerFailed => (s.writeSlot slot).spoilHeader slot

/-- LOAD_PROFILE_FLASH_DONE (R34). A failure also shows in SYS_BOOTSTAT as CAUSE 0x10 with STEP 1, the order number of FLASH_ERROR in Table
SYS-5 (see log entry 35, DEDUCED; log entry 89, DESIGN CHOICE). -/
def execLoadProfileFlashDone (e : FlashEnd) (sizeLog2 : Nat) (s : State) : Host.Outcome State Fault Refusal :=
  .next (match s.dev.flashWrite with
    | none => s
    | some (id, slot, flags, x) =>
      let t := { s with dev := { s.dev with flashWrite := none } }.flashEnded slot sizeLog2 e
      if e = .done then (if flags.testBit 5 then t.runLoaded id slot x false else t.complete id csDone 0)
      else (t.bootStat 0x10 1 0).complete id csFormat 0x10)

/-! SELECT_PROFILE and WARM_RESET (R21, R22, R35). -/

/-- R22: why a slot cannot be selected, or 0. -/
def State.selectFault (s : State) (slot : Nat) (flashOk : Bool) : Nat :=
  if !flashOk then 0x10
  else
    match s.ihUsed with
    | none => 0x01
    | some k =>
      if !(s.slotMask k).testBit slot then 0x02
      else if !markerOk (s.flashBytes (slotBase slot + 0xBFF000) 32) then 0x04 else 0

/-- R21: SYS_SELECT with its copy in SYS_DEVSTATE. -/
def State.setSelect (s : State) (v : Nat) : State :=
  let t := s.setReg .SYS_SELECT (v % 8)
  (t.putFld F.SYS_DEVSTATE_SELECT_VALID (v % 2)).putFld F.SYS_DEVSTATE_SELECT_SLOT (v / 2 % 4)

/-- SELECT_PROFILE's effect. -/
def selectProfileBody (p : Packet) (flashOk : Bool) (id : Nat) (s : State) : State :=
  let slot := bitsOf p.flags 7 6
  let c := s.selectFault slot flashOk
  if c = 0 then (s.setSelect (2 * slot + 1)).finish id csDone 0 else s.finish id csFormat c

/-- The checks of SELECT_PROFILE. -/
def selectProfileRule (p : Packet) : Rule where
  op := ⟨1, 2⟩
  opf := 13
  format := p.target == 0 && p.plen == 0
  p0 := true
  inHeld := true
  inSafe := true
  fn := some (fnMgmt, none)
  warm := if p.flags.testBit 4 then some F.SYS_RSTCAUSE_WARM_SELECT else none

/-- SELECT_PROFILE (R22): flashOk: the flash answers within 100 ms. -/
def execSelectProfile (p : Packet) (flashOk : Bool) (s : State) : Host.Outcome State Fault Refusal :=
  .next (runPacket (.selectProfile p flashOk) (selectProfileRule p) p
    (selectProfileBody p flashOk) s)

/-- The checks of WARM_RESET. -/
def warmResetRule (p : Packet) : Rule where
  op := ⟨1, 3⟩
  format := p.target == 0 && p.plen == 0
  p0 := true
  inHeld := true
  inSafe := true
  fn := some (fnMgmt, none)
  warm := some F.SYS_RSTCAUSE_WARM_CMD

/-- WARM_RESET (R36, R85). -/
def execWarmReset (p : Packet) (s : State) : Host.Outcome State Fault Refusal :=
  .next (runPacket (.warmReset p) (warmResetRule p) p (doneBody csDone 0) s)

end Sys2Proof.Machine
end

