-- ==== Sys2Proof/Machine/Registers.lean ====
section
/-! DEFINITION. Reads and writes of registers by address (R42, R57 and the register maps), STATUS_READ (R491), inbound PCIe requests (R97,
R98) and the jobs of the overflow library (R261). -/

namespace Sys2Proof.Machine

/-! Reads. -/

/-- The bits that a read clears: RC fields, and the maximum of MEMC_OCC, which its table says a read clears (see log entry 75, DEDUCED). -/
def Reg.readClears (r : Reg) : Nat := if r = .MEMC_OCC then spanMask 25 16 else r.mask [.rc]

/-- What a register reads, and the state after the read: WO fields read 0, RC fields are cleared, and a counter or watch of another
partition reads 0 (R106, R111) (see log entry 75, DEDUCED). -/
def State.readReg (s : State) (r : Reg) (i j init : Nat) : Nat × State :=
  let mine := fun p => s.ofPart init p
  if r = .CHR_TIME then (s.time, s)
  else if r = .SYNC_CTR ∧ s.p0 init = false ∧ s.ownsCtr (iInst init) i = false then (0, s.syncRefuse F.SYNC_STATUS_DENIED init i)
  else if (r = .SYNC_WATCHCFG ∨ r = .SYNC_WATCHVAL) ∧ mine (s.watchOwner i) = false then
    (0, s.syncRefuse F.SYNC_STATUS_DENIED init (s.fld F.SYNC_WATCHCFG_COUNTER i))
  else (mixBits (s.seen r i j) 0 (r.mask [.wo]),
    if r.readClears = 0 then s else s.setReg r (mixBits (s.reg r i j) 0 r.readClears) i j)

/-- The controller whose message RAM an address lies in, with the offset in it (R432). -/
def canRamAt (a : Nat) : Option (Nat × Nat) :=
  let o := a - Block.base .CAN
  if blockOf a = some .CAN ∧ o < 0x80000 ∧ 0x8000 ≤ o % 0x10000 then some (o / 0x10000, o % 0x8000) else none

/-- The element that a read at a word meets: whether the initiator may read it, the bytes it gives from there on, their value as a
number, and the state after the read. -/
def State.readAt (s : State) (a init : Nat) : Bool × Nat × Nat × State :=
  match blockOf a, findReg a with
  | some b, some (r, i, j, off) =>
    let n := r.info.width / 8 - off
    if s.mayRead r i init = false then (false, n, 0, s)
    else if s.gated b then (true, n, 0, s.gatedRead init a)
    else (true, n, (s.readReg r i j init).1 / 256 ^ off, (s.readReg r i j init).2)
  | some b, none =>
    match canRamAt a with
    | some (c, off) =>
      if s.ofPart init (s.canPart c) = false then (false, 4, 0, s)
      else if s.gated b then (true, 4, 0, s.gatedRead init a)
      else (true, 4, leNat (sparseGetList (fun _ => 0) (s.canCtl c).ram off 4), s)
    | none =>
      if s.mayReadHole b init = false then (false, 4, 0, s)
      else if s.gated b then (true, 4, 0, s.gatedRead init a)
      else (true, 4, 0, s)
  | none, _ => (false, 4, 0, s)

/-- The bytes of a range of a block, in address order, each register read once; fuel bounds the words (see log entry 75, DEDUCED). -/
def readRange (init : Nat) : Nat → Nat → Nat → State → List Byte × State
  | 0, _, _, s => ([], s)
  | _ + 1, _, 0, s => ([], s)
  | k + 1, a, n, s =>
    let r := s.readAt a init
    let m := min r.2.1 n
    let q := readRange init k (a + m) (n - m) r.2.2.2
    (toLe m (r.2.2.1 % 256 ^ m) ++ q.1, q.2)

/-- GATED_READ (R57): a read of a register by address. A gated block reads zero and records its initiator; an address that holds no
register reads zero; an initiator that the access rule does not allow, or a block that is not present, gives a bus error
(see log entry 75, DEDUCED). -/
def execGatedRead (addr initiator : Nat) (s : State) : Host.Outcome State Fault Refusal :=
  let r := s.readAt addr initiator
  .next (if addr % 4 ≠ 0 ∨ s.blockHere addr = false ∨ r.1 = false then s.busErr
    else if (blockOf addr).any s.gated then { s.gatedRead initiator addr with busError := false, readValue := 0 }
    else { r.2.2.2 with busError := false, readValue := r.2.2.1 })

/-! STATUS_READ (R490, R491). -/

/-- A packet of the partition may read the word: the access rule admits it, and a counter or watch is its own. -/
def State.packetReads (s : State) (p a : Nat) : Bool :=
  let init := initiator 6 p
  s.blockHere a && (s.readAt a init).1 &&
    (match findReg a with
     | some (.SYNC_CTR, i, _) => p == 0 || s.ownsCtr p i
     | some (.SYNC_WATCHCFG, i, _) => s.ofPart init (s.watchOwner i)
     | some (.SYNC_WATCHVAL, i, _) => s.ofPart init (s.watchOwner i)
     | _ => true)

/-- STATUS_READ's length. -/
def statusLen (p : Packet) : Nat := pNum p 0 8

/-- R491: the range lies within one block that exists and that the partition may read. -/
def State.statusOk (s : State) (p : Packet) : Bool :=
  blockOf p.target == blockOf (p.target + statusLen p - 1) &&
    (List.range (statusLen p / 4)).all (fun k => s.packetReads p.partition (p.target + 4 * k))

/-- The format of STATUS_READ. -/
def statusFormat (p : Packet) : Bool :=
  p.plen == 1 && pZero p 8 32 && decide (4 ≤ statusLen p ∧ statusLen p ≤ 4096) && statusLen p % 4 == 0 && pTargetBits p 48 &&
    p.target % 4 == 0

/-- STATUS_READ's effect: RESULT is the bytes returned. -/
def statusBody (p : Packet) (id : Nat) (s : State) : State :=
  let r := readRange (initiator 6 p.partition) 1024 p.target (statusLen p) s
  r.2.finish id csDone (statusLen p) r.1

/-- The checks of STATUS_READ. -/
def statusReadRule (p : Packet) (s : State) : Rule where
  op := ⟨1, 0x20⟩
  format := statusFormat p
  ext := (statusLen p + 31) / 32
  permit := s.statusOk p
  inHeld := true
  inSafe := true
  fn := some (fnMgmt, none)

/-- STATUS_READ (R491). -/
def execStatusRead (p : Packet) (s : State) : Host.Outcome State Fault Refusal :=
  .next (runPacket (.statusRead p) (statusReadRule p s) p (statusBody p) s)

/-! Writes. -/

/-- The state that a command of a register leads to. -/
def State.after (s : State) (o : Host.Outcome State Fault Refusal) : State :=
  match o with
  | .next t => t
  | _ => s

/-- Writes that the manual ignores in a state of the register's unit: keys outside BOOT (R135, R228), OTP data of a device that is not
BLANK (R463), a sensor clock's frequency (R60), a frame sync's times (R331), a trace's set-up while it records (R388), an armed watch's
value, and a DMA channel that is not firmware's (R149) (see log entry 27, DEDUCED). -/
def State.writeIgnored (s : State) (r : Reg) (i : Nat) : Bool :=
  match r with
  | .MEMC_KEY => s.devState != devBoot
  | .ADMA_HKEY => s.devState != devBoot
  | .SEC_OTPDATA => s.flag F.SEC_LIFECYCLE_STATE
  | .CLK_SENSFREQ => s.flag F.CLK_SENSCTL_EN i
  | .CAM_FSYNCPER => s.flag F.CAM_FSYNCCFG_EN i
  | .MOT_TRCFG => s.fld F.MOT_TRSTAT_STATE i == 1 || s.fld F.MOT_TRSTAT_STATE i == 2
  | .SYNC_WATCHVAL => s.flag F.SYNC_WATCHCFG_ARMED i
  | .DMA_SRC => !s.fwChannel i
  | .DMA_DST => !s.fwChannel i
  | .DMA_LEN => !s.fwChannel i
  | .DMA_SIGINC => !s.fwChannel i
  | _ => false

/-- The bits of a register that a write leaves as they are in the state: the width of an enabled frame sync (R331), REWEAVE_EN and NAP_EN
in timing-repeatable mode (R143, R304), and the enable of PCIe function 0, which reads 1 (R97). -/
def State.writeKeeps (s : State) (r : Reg) (i : Nat) : Nat :=
  match r with
  | .CAM_FSYNCCFG => if s.flag F.CAM_FSYNCCFG_EN i then spanMask 15 0 else 0
  | .MEMC_CFG => if s.flag F.MEMC_CFG_REPEATABLE then spanMask 2 2 else 0
  | .GLK_CFG => if s.flag F.MEMC_CFG_REPEATABLE then spanMask 31 31 else 0
  | .PCIE_FNMAP => if i = 0 then spanMask 31 31 else 0
  | _ => 0

/-- The flags whose clearing clears more of their register, and those bits. -/
def clearsWith : List (Fld × Nat) :=
  [(F.CLK_FLAGS_GATED_READ, spanMask 25 16), (F.MEMC_ECC_ADDR_VALID, spanMask 62 0), (F.ME_FAULT_VALID, spanMask 62 0),
   (F.SCAN_FAULT_VALID, spanMask 62 0), (F.ADMA_FAULT_VALID, spanMask 55 48 + spanMask 23 0), (F.VIS_UFAULT_VALID, spanMask 62 0),
   (F.FWL_DENY_VALID, spanMask 61 0), (F.MOT_AXFAULT_VALID, spanMask 30 0)]

/-- What a cleared flag takes with it: GATED_READ its initiator, a VALID bit what it recorded (see log entry 25, DEDUCED). -/
def State.clearedWith (s : State) (r : Reg) (i j : Nat) : State :=
  match clearsWith.find? (fun e => e.1.reg == r) with
  | some (f, m) => if s.flag f i j then s else s.setReg r (mixBits (s.reg r i j) 0 m) i j
  | none => s

/-- R419, R357: a value that a register may not hold: a bit timing with too few quanta, a statistics ring that is not aligned
(see log entry 111, DESIGN CHOICE). -/
def Reg.refuses (r : Reg) (v : Nat) : Bool :=
  match r with
  | .CAN_NBT => decide (bitQuanta v < 8)
  | .CAN_DBT => decide (bitQuanta v < 4)
  | .CAN_XBT => decide (bitQuanta v < 4)
  | .CAM_CTXSTAT => !jointOk .CAM_CTXSTAT v
  | _ => false

/-- The write-only registers that hold what is written for a later command. -/
def keptWo : List Reg := [.MEMC_KEY, .ADMA_HKEY, .SPW_TIME, .SPW_VAL0, .SPW_VAL1, .SEC_OTPDATA, .SEC_DBGRESP]

/-- A write of a register whose access codes say all that it does. -/
def State.plainWrite (s : State) (r : Reg) (i j v lanes : Nat) : State :=
  if s.writeIgnored r i || r.refuses v then s.accessed
  else if keptWo.contains r then (s.setReg r (mixBits (s.reg r i j) v (r.mask [.wo] &&& lanes)) i j).accessed
  else ((s.setReg r (s.merged r i j v (lanes - (lanes &&& s.writeKeeps r i))) i j).clearedWith r i j).accessed

/-- A write to the staging copy (R38, R41). -/
def State.plainStage (s : State) (r : Reg) (i j v lanes init : Nat) : State :=
  if s.writeIgnored r i || r.refuses v then s.accessed
  else s.stageReg r i j (s.stagedValue r i j v (lanes - (lanes &&& s.writeKeeps r i))) init

/-- The registers whose command itself tells staging from a direct write (see log entry 23, DEDUCED). -/
def stagesItself : List Reg := [.FWL_RBASE, .FWL_RLIMIT, .FWL_RATTR, .ADMA_LAYOUT, .CMDQ_QCFG, .CMDQ_QCPLHEAD, .SYNC_RANGE]

/-- The write of the axis control register: 1 RETURN, 2 FLUSH. -/
def State.writeAxctl (s : State) (a : Nat) (w : RegWrite) : State :=
  match bitsOf w.value 31 28 with
  | 1 => s.after (execReturnAngle a w s)
  | 2 => s.after (execAxctlFlush a w s)
  | _ => s.accessed

/-- The write of a trace buffer's control register: 1 ARM, 2 TRIGGER, 3 STOP. -/
def State.writeTrctl (s : State) (t : Nat) (w : RegWrite) : State :=
  match bitsOf w.value 31 28 with
  | 1 => s.after (execArm t w s)
  | 2 => s.after (execTrigger t w s)
  | 3 => s.after (execTraceStop t w s)
  | _ => s.accessed

/-- The write of SCAN_PINCTL: 1 PIN, 2 UNPIN. -/
def State.writePinctl (s : State) (w : RegWrite) : State :=
  match bitsOf w.value 63 60 with
  | 1 => s.after (execPin w s)
  | 2 => s.after (execUnpin w s)
  | _ => s.accessed

/-- The write of SEC_DBGCTL: 1 CHALLENGE, 2 RESPOND, 3 LOCK. -/
def State.writeDbgctl (s : State) (w : RegWrite) : State :=
  match bitsOf w.value 31 28 with
  | 1 => s.after (execChallenge w s)
  | 2 => s.after (execRespond w s)
  | 3 => s.after (execLock w s)
  | _ => s.accessed

/-- A write of a register that has a command of its own, or an effect beyond its access codes, is that command. v is the register's
whole new value; lanes are the bits written (see log entry 26, DEDUCED). -/
def State.ownWrite (s : State) (r : Reg) (i j v lanes : Nat) (w : RegWrite) : State :=
  let w := { w with value := v }
  match r with
  | .SYS_FNCTL => s.writeFnctl w
  | .SYS_SELECT => (s.setSelect v).accessed
  | .CLK_SRCSEL => s.after (execClkSrcselReq w s)
  | .CLK_NETREF => s.after (execClkNetrefWrite w s)
  | .CLK_GATE => s.after (execClkGateWrite 0 w s)
  | .CLK_GATE_CAM => s.after (execClkGateWrite 1 w s)
  | .CLK_GATE_CAN => s.after (execClkGateWrite 2 w s)
  | .CLK_SENSCTL => s.after (execSensclkEnable i w s)
  | .PWR_CTL => (s.writePwrCtl v).accessed
  | .PWR_AVS_CTL => s.after (execPwrAvsInvalidate w s)
  | .CMDQ_QCFG => s.writeQcfg i w
  | .CMDQ_QCPLHEAD => s.after (execCplHeadWrite i w s)
  | .CMDQ_DB => s.after (execCmdqDb i w s)
  | .SYNC_ADD => s.after (execSyncAddWrite i w s)
  | .SYNC_RANGE => s.after (execSyncRangeWrite i w s)
  | .SYNC_WATCHCFG => s.writeWatch i w
  | .SYNC_WATCHVAL =>
    if s.ofPart w.initiator (s.watchOwner i) then s.plainWrite r i j v lanes
    else (s.syncRefuse F.SYNC_STATUS_DENIED w.initiator (s.fld F.SYNC_WATCHCFG_COUNTER i)).busErr
  | .ESC_REPAIR => s.after (execEscRepairSwap w s)
  | .FWL_RBASE => s.after (execFwlRegionWrite i j 0 w s)
  | .FWL_RLIMIT => s.after (execFwlRegionWrite i j 8 w s)
  | .FWL_RATTR => s.after (execFwlRegionWrite i j 16 w s)
  | .MEMC_RW_CTL => s.writeRwCtl w.initiator v
  | .SCAN_PINCTL => s.writePinctl w
  | .ADMA_PUSH => s.after (execAdmaPush w s)
  | .ADMA_LAYOUT => s.after (execAdmaLayoutWrite i w s)
  | .CAM_EXPO_COMMIT => s.after (execCamExpoCommit i w s)
  | .MOT_AXCTL => s.writeAxctl i w
  | .MOT_TRCTL => s.writeTrctl i w
  | .SPW_PUSH => s.after (execSpwPush i w s)
  | .CAN_CTL => (s.writeCanCtl i v).accessed
  | .CAN_TXREQ => s.after (execCanTxreq i w s)
  | .CAN_RXFACK => s.after (execCanRxfack i w s)
  | .ETH_GCLCTL => (s.writeGclctl i v).accessed
  | .ETH_RDB => s.after (execEthRdb i j w s)
  | .SAFE_WDKICK => s.wdWrite i w
  | .CAM_FSYNCCFG => (s.plainWrite r i j v lanes).showFsync i (s.flag F.CAM_FSYNCCFG_EN i)
  | .SAFE_WDCFG => (s.plainWrite r i j v lanes).suspendDog i
  | .SEC_DBGCTL => s.writeDbgctl w
  | .SEC_OTPPROG => s.after (execSecOtpprog w s)
  | .DMA_CTL => (s.dmaControl i v).accessed
  | _ => s.plainWrite r i j v lanes

/-- A write of n bytes to a register's element from a byte of it on; n = 0 writes to the element's end. While the target reads STOPPED a
register with parameters stages them; one without (W1C, W1S and WO registers) acts at once (see log entry 25, DEDUCED; log entry 90,
DESIGN CHOICE). -/
def State.writeElem (s : State) (r : Reg) (i j off n : Nat) (w : RegWrite) : State :=
  let lanes := (2 ^ (8 * (if n = 0 then r.info.width / 8 - off else n)) - 1) * 256 ^ off &&& (2 ^ r.info.width - 1)
  let v := mixBits (s.seen r i j) (w.value * 256 ^ off) lanes
  if s.mayWrite r i w.initiator = false ∨ s.gated r.info.block = true then s.busErr
  else if s.regStopped r i && r.params != 0 && !stagesItself.contains r then s.plainStage r i j v lanes w.initiator
  else s.ownWrite r i j v lanes w

/-- A write of n bytes (0: 4) to an offset that holds no register: the message RAM of a CAN controller (R432), else nothing
(see log entry 25, DEDUCED). -/
def State.writeHole (s : State) (b : Block) (a n : Nat) (w : RegWrite) : State :=
  match canRamAt a with
  | some (c, off) =>
    let x := s.canCtl c
    s.regWrite b (s.ofPart w.initiator (s.canPart c))
      (s.setCan c { x with ram := sparseSetList (fun _ => 0) x.ram off ((toLe (if n = 0 then 4 else n) w.value).take (0x8000 - off)) })
  | none => s.regWrite b (s.mayWriteHole b w.initiator) s

/-- A write of n bytes to the register space at a word; n = 0 writes to the end of the register's element there
(see log entry 25, DEDUCED; log entry 26, DEDUCED). -/
def State.writeAt (s : State) (a n : Nat) (w : RegWrite) : State :=
  if a % 4 ≠ 0 ∨ s.blockHere a = false then s.busErr
  else
    match blockOf a, findReg a with
    | some _, some (r, i, j, off) => s.writeElem r i j off n w
    | some b, none => s.writeHole b a n w
    | none, _ => s.busErr

/-- REGISTER_WRITE (R42, R57 and the register maps) (see log entry 25, DEDUCED). -/
def execRegisterWrite (addr : Nat) (w : RegWrite) (s : State) : Host.Outcome State Fault Refusal := .next (s.writeAt addr 0 w)

/-! Inbound PCIe requests (R97, R98). -/

/-- A request answered with Unsupported Request. -/
def State.unsupported (s : State) : State := (s.addFld F.PCIE_ERR_UR 1).busErr

/-- A read of n bytes of the device's address space by an initiator; one of a granule under scrub waits for its end (R129). -/
def State.spaceRead (s : State) (init a n : Nat) : State :=
  if s.region a = .regs then
    if a % 4 = 0 ∧ (n = 4 ∨ n = 8) ∧ s.blockHere a = true ∧ (s.readAt a init).1 = true then
      let r := readRange init 2 a n s
      r.2.answered r.1
    else s.busErr
  else if s.memOk init a n false then
    if s.scrubbing (s.localAddr a) n then { s with memc := { s.memc with reads := s.memc.reads ++ [(init, a, n)] } } else s.readMem init a n
  else (s.recordDenial init a n false).busErr

/-- A write of bytes of the device's address space by an initiator. -/
def State.spaceWrite (s : State) (init a : Nat) (data : List Byte) : State :=
  if s.region a = .regs then
    if data.length = 4 ∨ data.length = 8 then s.writeAt a data.length { value := leNat data, initiator := init } else s.busErr
  else if s.memOk init a data.length true then ((s.keyed init).writeBytes a data).accessed
  else (s.recordDenial init a data.length true).busErr

/-- R98: the inbound window that a request falls in. -/
def State.inbound (s : State) (a n : Nat) : Option Nat :=
  (List.range 8).find? (fun k =>
    let b := s.fld F.PCIE_IBWIN_PBASE_PBASE k * 4096
    s.flag F.PCIE_IBWIN_ATTR_EN k && decide (b ≤ a ∧ a + n ≤ b + s.fld F.PCIE_IBWIN_SIZE_SIZE k * 4096))

/-- The address that an inbound window maps a request to, and its initiator (see log entry 28, DESIGN CHOICE). -/
def State.inboundTo (s : State) (k a : Nat) : Nat × Nat :=
  (s.fld F.PCIE_IBWIN_UADDR_UADDR k * 4096 + (a - s.fld F.PCIE_IBWIN_PBASE_PBASE k * 4096),
    initiator 8 (s.fld F.PCIE_IBWIN_ATTR_PARTITION k))

/-- R98: a write from downstream is an MSI where it meets PCIE_RPMSI, else it goes through a window. -/
def State.portWrite (s : State) (a : Nat) (data : List Byte) : State :=
  if a / 4 = s.reg .PCIE_RPMSI / 4 then (s.raise (leNat data) 0 (s.fld F.PCIE_IBWIN_ATTR_PARTITION 0)).accessed
  else
    match s.inbound a data.length with
    | some k => s.spaceWrite (s.inboundTo k a).2 (s.inboundTo k a).1 data
    | none => s.unsupported

/-- R98: a read from downstream. -/
def State.portRead (s : State) (a n : Nat) : State :=
  match s.inbound a n with
  | some k => s.spaceRead (s.inboundTo k a).2 (s.inboundTo k a).1 n
  | none => s.unsupported

/-- R30, R97: a function of the endpoint that is enabled. -/
def State.pcieFn (s : State) (f : Nat) : Bool := f == 0 || (decide (f ≤ 64) && s.devState != devHeld && s.fnMapped f)

/-- R96: a function answers requests to its BARs: it is enabled and in D0; a function in D3hot answers none (see log entry 92, PRESUMED). -/
def State.pcieAnswers (s : State) (f : Nat) : Bool := s.pcieFn f && !s.dev.d3hot.contains f

/-- The partition of a function. -/
def State.pciePart (s : State) (f : Nat) : Nat := if s.devState = devHeld then 0 else s.fld F.PCIE_FNMAP_PARTITION f

/-- R97: a function's queues in ascending order; in HELD queue 0 is the physical function's. -/
def State.pcieQueues (s : State) (f : Nat) : List Nat :=
  if s.devState = devHeld then (if f = 0 then [0] else [])
  else
    match s.dev.settings with
    | some x => (((x.queueFns.filter (fun e => e.2 == f)).map (·.1)).mergeSort (fun a b => decide (a ≤ b))).take 1024
    | none => []

/-- Bytes of a BAR (Table CMDQ-12). -/
def barSize (f bar : Nat) : Nat :=
  match bar with
  | 0 => 0x10000
  | 2 => if f = 0 then 0x10000 else 0x1000
  | 4 => if f = 0 then 0x1000 else 0
  | _ => 0

/-- FUNC_INFO. -/
def State.funcInfo (s : State) (f : Nat) : Nat := 2 ^ 26 * s.pciePart f + (s.pcieQueues f).length * 2 ^ 12 + f

/-- A byte of BAR0. -/
def State.bar0Byte (s : State) (f o : Nat) : Byte :=
  let q := s.pcieQueues f
  if 0x8000 ≤ o ∧ o < 0x8004 then (toLe 4 (s.funcInfo f)).getD (o % 0x8000) 0
  else if 0x8100 ≤ o ∧ o < 0x8900 then ((q[(o % 0x8000 - 0x100) / 2]?).map (fun n => (toLe 2 n).getD ((o % 0x8000 - 0x100) % 2) 0)).getD 0
  else if 0x8900 ≤ o ∧ o < 0x9900 then
    ((q[(o % 0x8000 - 0x900) / 4]?).map (fun n => (toLe 4 (s.reg .CMDQ_QSTAT n)).getD ((o % 0x8000 - 0x900) % 4) 0)).getD 0
  else 0

/-- Bytes of a function's MSI-X table. -/
def msixBytes (f : Nat) : Nat := 16 * vectorCount f

/-- A byte of BAR2: the MSI-X table; what the pending bit array shows is not stated. -/
def State.bar2Byte (s : State) (f o : Nat) : Byte :=
  if o < msixBytes f then sparseGet (fun _ => 0) s.msix (0x10000 * f + o)
  else if (if f = 0 then 0x8000 else 0x800) ≤ o ∧ o < (if f = 0 then 0x8000 else 0x800) + (vectorCount f + 7) / 8 then
    Config.freeByte (s.free + o)
  else 0

/-- A byte of BAR4: copies of the SYS registers (see log entry 28, DESIGN CHOICE). -/
def State.bar4Byte (s : State) (o : Nat) : Byte :=
  if o < 0x100 then
    match findReg (Block.base .SYS + o) with
    | some (r, i, j, b) => (toLe 8 (s.seen r i j - (s.seen r i j &&& r.mask [.wo]))).getD b 0
    | none => 0
  else 0

/-- A byte of a function's BAR (see log entry 28, DESIGN CHOICE). -/
def State.barByte (s : State) (f bar o : Nat) : Byte :=
  match bar with
  | 0 => s.bar0Byte f o
  | 2 => s.bar2Byte f o
  | 4 => s.bar4Byte o
  | _ => 0

/-- R97: a write to a function's BAR: a doorbell of its i-th queue, or its MSI-X table; every other write is ignored
(see log entry 28, DESIGN CHOICE). -/
def State.barWrite (s : State) (f bar o : Nat) (data : List Byte) : State :=
  if bar = 0 ∧ o < 0x8000 ∧ o % 4 = 0 ∧ data.length = 4 then
    match (s.pcieQueues f)[o / 4]? with
    | some q => s.doorbell q (leNat data) (initiator 8 (s.pciePart f))
    | none => s.accessed
  else if bar = 2 then
    { s with msix := sparseSetList (fun _ => 0) s.msix (0x10000 * f + o) (data.take (msixBytes f - o)) }.accessed
  else s.accessed

/-- The count of an error. -/
def pcieErrFld : PcieError → Fld
  | .correctable => F.PCIE_ERR_CORR
  | .nonFatal => F.PCIE_ERR_NONFATAL
  | .fatal => F.PCIE_ERR_FATAL

/-- PCIE_INBOUND (R96 to R98): a request that FN_PCIE takes; the endpoint answers its functions' BARs, the root port its windows, and
everything else is an Unsupported Request (see log entry 28, DESIGN CHOICE). -/
def execPcieInbound (x : PcieReq) (s : State) : Host.Outcome State Fault Refusal :=
  let root := s.flag F.PCIE_CFG_ROLE && s.devState != devHeld
  let t := s.acceptFn fnPcie
  .next (if s.fnUsable fnPcie = false then s
    else
      match x with
      | .power f d3 => { s with dev := { s.dev with
          d3hot := (s.dev.d3hot.filter (fun g => g != f)) ++ if d3 && s.pcieFn f then [f] else [] } }
      | .error e => s.addFld (pcieErrFld e) 1
      | .ltssm n => s.putFld F.PCIE_LSTAT_LTSSM n
      | .read a n => if root then t.portRead a n else t.unsupported
      | .write a data => if root then t.portWrite a data else t.unsupported
      | .barRead f bar o n =>
        if !root && s.pcieAnswers f && decide (o + n ≤ barSize f bar) then
          let u := t.answered ((List.range n).map (fun k => t.barByte f bar (o + k)))
          if bar = 2 then { u with free := u.free + barSize f bar } else u
        else t.unsupported
      | .barWrite f bar o data =>
        if !root && s.pcieAnswers f && decide (o + data.length ≤ barSize f bar) then t.barWrite f bar o data else t.unsupported)

/-! The overflow library (R148, R261). -/

/-- R148: the routed job of a partition that the library takes next: the one that became ready first (see log entry 46, DEDUCED). -/
def State.nextRouted (s : State) (p : Nat) : Option Kernel :=
  (s.esc.kernels.filter (fun k => k.partition == p && k.routed && k.status.isNone)).foldl (fun m k =>
    match m with
    | some b => if k.ready.getD 0 < b.ready.getD 0 then some k else some b
    | none => some k) none

/-- R148, R261: the library runs on the harts of the partition that accept work. -/
def State.libraryRuns (s : State) (p : Nat) : Bool := (s.hartsOf p).any (fun h => s.unitUsable fnApp h)

/-- OVERFLOW_JOB_DONE (R261): the library has run the job as a PPE would, and completes it through its own completion path
(see log entry 46, DEDUCED; log entry 71, DESIGN CHOICE). -/
def execOverflowJobDone (partition : Nat) (ecc : Option Nat) (s : State) : Host.Outcome State Fault Refusal :=
  .next (match s.nextRouted partition with
    | some k =>
      if s.libraryRuns partition then
        let t := (s.keyed (initiator 7 partition)).jobRun none k ecc (fun u => u.ppeBody k)
        s.settled (match t.esc.kernels.find? (fun x => x.id == k.id) with
          | some x => t.completeKernel x (x.status.getD csDone) 0
          | none => t)
      else s
    | none => s)

end Sys2Proof.Machine
end

