-- ==== Sys2Proof/Machine/Dispatch.lean ====
section
/-! DEFINITION. The dispatch: one arm per command, each a direct call of its meaning. -/

namespace Sys2Proof.Machine

/-- The effect of a command on everything but the queue of pending commands. -/
def exec (i : Instr) (s : State) : Host.Outcome State Fault Refusal :=
  match i with
  | .powerOnReset => Sys2Proof.Machine.execPowerOnReset s
  | .railMonitorTrip rail => Sys2Proof.Machine.execRailMonitorTrip rail s
  | .porstNAssert => Sys2Proof.Machine.execPorstNAssert s
  | .porstNRelease crown1 crown0 refsel => Sys2Proof.Machine.execPorstNRelease crown1 crown0 refsel s
  | .thermtripN sensor => Sys2Proof.Machine.execThermtripN sensor s
  | .refclkReady => Sys2Proof.Machine.execRefclkReady s
  | .refclkAbsent => Sys2Proof.Machine.execRefclkAbsent s
  | .flashReadTimeout => Sys2Proof.Machine.execFlashReadTimeout s
  | .profileReadDone r => Sys2Proof.Machine.execProfileReadDone r s
  | .functionStart fn unit => Sys2Proof.Machine.execFunctionStart fn unit s
  | .functionReady fn unit => Sys2Proof.Machine.execFunctionReady fn unit s
  | .functionStartFault fn unit => Sys2Proof.Machine.execFunctionStartFault fn unit s
  | .loadProfile p r => Sys2Proof.Machine.execLoadProfile p r s
  | .loadProfileFlashDone e sizeLog2 => Sys2Proof.Machine.execLoadProfileFlashDone e sizeLog2 s
  | .selectProfile p flashOk => Sys2Proof.Machine.execSelectProfile p flashOk s
  | .warmReset p => Sys2Proof.Machine.execWarmReset p s
  | .fnStop r => Sys2Proof.Machine.execFnStop r s
  | .fnStart r fw => Sys2Proof.Machine.execFnStart r fw s
  | .drainComplete fn unit => Sys2Proof.Machine.execDrainComplete fn unit s
  | .drainTimeout fn unit => Sys2Proof.Machine.execDrainTimeout fn unit s
  | .statusRead p => Sys2Proof.Machine.execStatusRead p s
  | .logRead p => Sys2Proof.Machine.execLogRead p s
  | .clockMonitorTrip t => Sys2Proof.Machine.execClockMonitorTrip t s
  | .pllRelock => Sys2Proof.Machine.execPllRelock s
  | .netrefReady => Sys2Proof.Machine.execNetrefReady s
  | .clkSrcselReq w => Sys2Proof.Machine.execClkSrcselReq w s
  | .clkNetrefWrite w => Sys2Proof.Machine.execClkNetrefWrite w s
  | .clkGateWrite k w => Sys2Proof.Machine.execClkGateWrite k w s
  | .gatedRead addr initiator => Sys2Proof.Machine.execGatedRead addr initiator s
  | .sensclkEnable n w => Sys2Proof.Machine.execSensclkEnable n w s
  | .powerManagerStep reading estimate => Sys2Proof.Machine.execPowerManagerStep reading estimate s
  | .pmbusLost => Sys2Proof.Machine.execPmbusLost s
  | .pwrCapUnmet => Sys2Proof.Machine.execPwrCapUnmet s
  | .loadBandWindow busyPercent => Sys2Proof.Machine.execLoadBandWindow busyPercent s
  | .bandMeasured band offset tj => Sys2Proof.Machine.execBandMeasured band offset tj s
  | .avsLower => Sys2Proof.Machine.execAvsLower s
  | .pwrAvsInvalidate w => Sys2Proof.Machine.execPwrAvsInvalidate w s
  | .droopDetect belowMv => Sys2Proof.Machine.execDroopDetect belowMv s
  | .thermalThrottle sensor tj => Sys2Proof.Machine.execThermalThrottle sensor tj s
  | .cmdqDb q w => Sys2Proof.Machine.execCmdqDb q w s
  | .udpDatagram d => Sys2Proof.Machine.execUdpDatagram d s
  | .udpAckTimer q => Sys2Proof.Machine.execUdpAckTimer q s
  | .cplAck d => Sys2Proof.Machine.execCplAck d s
  | .cplResend q => Sys2Proof.Machine.execCplResend q s
  | .glkMessageRx cls code p => Sys2Proof.Machine.execGlkMessageRx cls code p s
  | .ringAccessFault q write initiator => Sys2Proof.Machine.execRingAccessFault q write initiator s
  | .queueEnable q w => Sys2Proof.Machine.execQueueEnable q w s
  | .queueDisable q w => Sys2Proof.Machine.execQueueDisable q w s
  | .queueDrained q => Sys2Proof.Machine.execQueueDrained q s
  | .cplHeadWrite q w => Sys2Proof.Machine.execCplHeadWrite q w s
  | .nop p => Sys2Proof.Machine.execNop p s
  | .memWrite p => Sys2Proof.Machine.execMemWrite p s
  | .memRead p ue => Sys2Proof.Machine.execMemRead p ue s
  | .memFill p => Sys2Proof.Machine.execMemFill p s
  | .objCreate p => Sys2Proof.Machine.execObjCreate p s
  | .objWrite p => Sys2Proof.Machine.execObjWrite p s
  | .objCrcPassDone partition handle ue => Sys2Proof.Machine.execObjCrcPassDone partition handle ue s
  | .objFree p => Sys2Proof.Machine.execObjFree p s
  | .syncAdd p => Sys2Proof.Machine.execSyncAdd p s
  | .syncSet p => Sys2Proof.Machine.execSyncSet p s
  | .syncRead p => Sys2Proof.Machine.execSyncRead p s
  | .syncWait p => Sys2Proof.Machine.execSyncWait p s
  | .syncWaitSatisfied q seq => Sys2Proof.Machine.execSyncWaitSatisfied q seq s
  | .syncAddWrite n w => Sys2Proof.Machine.execSyncAddWrite n w s
  | .watchArm k w => Sys2Proof.Machine.execWatchArm k w s
  | .syncRangeWrite k w => Sys2Proof.Machine.execSyncRangeWrite k w s
  | .kernelDispatch cls unit path => Sys2Proof.Machine.execKernelDispatch cls unit path s
  | .lendHoldExpire cls unit => Sys2Proof.Machine.execLendHoldExpire cls unit s
  | .kernelComplete cls unit run => Sys2Proof.Machine.execKernelComplete cls unit run s
  | .runLimit cls unit run => Sys2Proof.Machine.execRunLimit cls unit run s
  | .execLaunch p => Sys2Proof.Machine.execExecLaunch p s
  | .execTeardown p => Sys2Proof.Machine.execExecTeardown p s
  | .execQuery p => Sys2Proof.Machine.execExecQuery p s
  | .regulatorWindow x => Sys2Proof.Machine.execRegulatorWindow x s
  | .guardEpoch => Sys2Proof.Machine.execGuardEpoch s
  | .escRepairSwap w => Sys2Proof.Machine.execEscRepairSwap w s
  | .meSpareTestDone slot ok => Sys2Proof.Machine.execMeSpareTestDone slot ok s
  | .fwlRegionWrite target region offset w => Sys2Proof.Machine.execFwlRegionWrite target region offset w s
  | .dmaGo c w => Sys2Proof.Machine.execDmaGo c w s
  | .dmaDone c => Sys2Proof.Machine.execDmaDone c s
  | .dmaFault c moved ecc => Sys2Proof.Machine.execDmaFault c moved ecc s
  | .occupancyWindow x => Sys2Proof.Machine.execOccupancyWindow x s
  | .reweaveStart w => Sys2Proof.Machine.execReweaveStart w s
  | .reweaveDone => Sys2Proof.Machine.execReweaveDone s
  | .reweaveAbort a => Sys2Proof.Machine.execReweaveAbort a s
  | .clearEccBlock w => Sys2Proof.Machine.execClearEccBlock w s
  | .smemScrubDone g => Sys2Proof.Machine.execSmemScrubDone g s
  | .ldt m => Sys2Proof.Machine.execLdt m s
  | .str m => Sys2Proof.Machine.execStr m s
  | .dcf m => Sys2Proof.Machine.execDcf m s
  | .drn m => Sys2Proof.Machine.execDrn m s
  | .acl m => Sys2Proof.Machine.execAcl m s
  | .bar m => Sys2Proof.Machine.execBar m s
  | .meNop m => Sys2Proof.Machine.execMeNop m s
  | .endStream m => Sys2Proof.Machine.execEndStream m s
  | .scanChunk x => Sys2Proof.Machine.execScanChunk x s
  | .scanStep x => Sys2Proof.Machine.execScanStep x s
  | .scanCombine x => Sys2Proof.Machine.execScanCombine x s
  | .scanSwapOut partition seq => Sys2Proof.Machine.execScanSwapOut partition seq s
  | .scanSwapIn partition seq => Sys2Proof.Machine.execScanSwapIn partition seq s
  | .pin w => Sys2Proof.Machine.execPin w s
  | .unpin w => Sys2Proof.Machine.execUnpin w s
  | .kvCreate p => Sys2Proof.Machine.execKvCreate p s
  | .kvAttach p => Sys2Proof.Machine.execKvAttach p s
  | .kvStep p => Sys2Proof.Machine.execKvStep p s
  | .kvCommit p => Sys2Proof.Machine.execKvCommit p s
  | .kvFree p => Sys2Proof.Machine.execKvFree p s
  | .kvQuery p => Sys2Proof.Machine.execKvQuery p s
  | .gatherK g => Sys2Proof.Machine.execGatherK g s
  | .gatherVt g => Sys2Proof.Machine.execGatherVt g s
  | .pageManagerRun => Sys2Proof.Machine.execPageManagerRun s
  | .kvTermination partition seq => Sys2Proof.Machine.execKvTermination partition seq s
  | .kvSwapOut partition seq => Sys2Proof.Machine.execKvSwapOut partition seq s
  | .kvSwapIn partition seq => Sys2Proof.Machine.execKvSwapIn partition seq s
  | .admaPush w => Sys2Proof.Machine.execAdmaPush w s
  | .admaLayoutWrite n w => Sys2Proof.Machine.execAdmaLayoutWrite n w s
  | .visRun p => Sys2Proof.Machine.execVisRun p s
  | .edgeJob x => Sys2Proof.Machine.execEdgeJob x s
  | .resampleJob x => Sys2Proof.Machine.execResampleJob x s
  | .ppeJob x => Sys2Proof.Machine.execPpeJob x s
  | .overflowJobDone partition ecc => Sys2Proof.Machine.execOverflowJobDone partition ecc s
  | .pcieInbound x => Sys2Proof.Machine.execPcieInbound x s
  | .glkLinkUp x => Sys2Proof.Machine.execGlkLinkUp x s
  | .glkLinkDown member port => Sys2Proof.Machine.execGlkLinkDown member port s
  | .rerouteDone dest => Sys2Proof.Machine.execRerouteDone dest s
  | .hello n h => Sys2Proof.Machine.execHello n h s
  | .memberAnnouncement n a => Sys2Proof.Machine.execMemberAnnouncement n a s
  | .announceTimer => Sys2Proof.Machine.execAnnounceTimer s
  | .portWait n => Sys2Proof.Machine.execPortWait n s
  | .rootClaim n prio uid => Sys2Proof.Machine.execRootClaim n prio uid s
  | .claimTimer => Sys2Proof.Machine.execClaimTimer s
  | .rootLost => Sys2Proof.Machine.execRootLost s
  | .flitReplay n flit asked => Sys2Proof.Machine.execFlitReplay n flit asked s
  | .glkRetrainDone n => Sys2Proof.Machine.execGlkRetrainDone n s
  | .napPropose n wake => Sys2Proof.Machine.execNapPropose n wake s
  | .napProposal n wake traffic => Sys2Proof.Machine.execNapProposal n wake traffic s
  | .napWake n => Sys2Proof.Machine.execNapWake n s
  | .wakeSequence n => Sys2Proof.Machine.execWakeSequence n s
  | .napResync n => Sys2Proof.Machine.execNapResync n s
  | .linkDelayMeasure x => Sys2Proof.Machine.execLinkDelayMeasure x s
  | .glkBarrier p => Sys2Proof.Machine.execGlkBarrier p s
  | .barrierArm x => Sys2Proof.Machine.execBarrierArm x s
  | .barrierReply id member ack => Sys2Proof.Machine.execBarrierReply id member ack s
  | .barrierDecide id => Sys2Proof.Machine.execBarrierDecide id s
  | .barrierConfirm id confirm => Sys2Proof.Machine.execBarrierConfirm id confirm s
  | .barrierRelease id => Sys2Proof.Machine.execBarrierRelease id s
  | .barrierReport id member released => Sys2Proof.Machine.execBarrierReport id member released s
  | .glkImage p => Sys2Proof.Machine.execGlkImage p s
  | .glkDigestRead p => Sys2Proof.Machine.execGlkDigestRead p s
  | .glkFenceClear p => Sys2Proof.Machine.execGlkFenceClear p s
  | .fenceSuspendEnd => Sys2Proof.Machine.execFenceSuspendEnd s
  | .heartbeatTimer => Sys2Proof.Machine.execHeartbeatTimer s
  | .heartbeatRx data => Sys2Proof.Machine.execHeartbeatRx data s
  | .csi2FrameStart x => Sys2Proof.Machine.execCsi2FrameStart x s
  | .csi2LongPacket x => Sys2Proof.Machine.execCsi2LongPacket x s
  | .csi2FrameEnd x => Sys2Proof.Machine.execCsi2FrameEnd x s
  | .feTimeout k => Sys2Proof.Machine.execFeTimeout k s
  | .camExpo p => Sys2Proof.Machine.execCamExpo p s
  | .camExpoCommit n w => Sys2Proof.Machine.execCamExpoCommit n w s
  | .i3cWriteDone n ok => Sys2Proof.Machine.execI3cWriteDone n ok s
  | .ispStrip pipe => Sys2Proof.Machine.execIspStrip pipe s
  | .ispFrameDone k => Sys2Proof.Machine.execIspFrameDone k s
  | .ctxCommit p ue => Sys2Proof.Machine.execCtxCommit p ue s
  | .fsyncPulse n rise => Sys2Proof.Machine.execFsyncPulse n rise s
  | .decCreate p => Sys2Proof.Machine.execDecCreate p s
  | .decDecode p u => Sys2Proof.Machine.execDecDecode p u s
  | .decResume d => Sys2Proof.Machine.execDecResume d s
  | .decFlush p order => Sys2Proof.Machine.execDecFlush p order s
  | .decDestroy p => Sys2Proof.Machine.execDecDestroy p s
  | .encCreate p x => Sys2Proof.Machine.execEncCreate p x s
  | .encFrame p cycles ue => Sys2Proof.Machine.execEncFrame p cycles ue s
  | .encDestroy p => Sys2Proof.Machine.execEncDestroy p s
  | .jpegDec p x => Sys2Proof.Machine.execJpegDec p x s
  | .jpegEnc p x => Sys2Proof.Machine.execJpegEnc p x s
  | .currentLoopTick a x => Sys2Proof.Machine.execCurrentLoopTick a x s
  | .velocityLoopTick a => Sys2Proof.Machine.execVelocityLoopTick a s
  | .positionLoopTick a => Sys2Proof.Machine.execPositionLoopTick a s
  | .overcurrent a input bits => Sys2Proof.Machine.execOvercurrent a input bits s
  | .encoderFault n f => Sys2Proof.Machine.execEncoderFault n f s
  | .flywheelTimeout a => Sys2Proof.Machine.execFlywheelTimeout a s
  | .observerStartTimeout a => Sys2Proof.Machine.execObserverStartTimeout a s
  | .followingError a => Sys2Proof.Machine.execFollowingError a s
  | .ascHoldEnd a => Sys2Proof.Machine.execAscHoldEnd a s
  | .motSetpoint p => Sys2Proof.Machine.execMotSetpoint p s
  | .spwPush a w => Sys2Proof.Machine.execSpwPush a w s
  | .motFlush p => Sys2Proof.Machine.execMotFlush p s
  | .motQuery p => Sys2Proof.Machine.execMotQuery p s
  | .returnAngle a w => Sys2Proof.Machine.execReturnAngle a w s
  | .axctlFlush a w => Sys2Proof.Machine.execAxctlFlush a w s
  | .arm t w => Sys2Proof.Machine.execArm t w s
  | .trigger t w => Sys2Proof.Machine.execTrigger t w s
  | .traceStop t w => Sys2Proof.Machine.execTraceStop t w s
  | .ptpSync x offset ratio => Sys2Proof.Machine.execPtpSync x offset ratio s
  | .ptpAnnounce x rank => Sys2Proof.Machine.execPtpAnnounce x rank s
  | .ptpPdelay port delay => Sys2Proof.Machine.execPtpPdelay port delay s
  | .announceTimeout d missed => Sys2Proof.Machine.execAnnounceTimeout d missed s
  | .revertTimer => Sys2Proof.Machine.execRevertTimer s
  | .chrRead p => Sys2Proof.Machine.execChrRead p s
  | .applyPending p => Sys2Proof.Machine.execApplyPending p s
  | .chrStep p => Sys2Proof.Machine.execChrStep p s
  | .chrSet p => Sys2Proof.Machine.execChrSet p s
  | .ethRxFrame x => Sys2Proof.Machine.execEthRxFrame x s
  | .ethTx p => Sys2Proof.Machine.execEthTx p s
  | .ethRdb port q w => Sys2Proof.Machine.execEthRdb port q w s
  | .ethLaunch port => Sys2Proof.Machine.execEthLaunch port s
  | .ethTxDone port => Sys2Proof.Machine.execEthTxDone port s
  | .ethLaunchLate port cls => Sys2Proof.Machine.execEthLaunchLate port cls s
  | .gateInterval port => Sys2Proof.Machine.execGateInterval port s
  | .gclChange port w => Sys2Proof.Machine.execGclChange port w s
  | .ethLinkUp port => Sys2Proof.Machine.execEthLinkUp port s
  | .ethLinkDown port => Sys2Proof.Machine.execEthLinkDown port s
  | .ethPreemptVerifyFail port => Sys2Proof.Machine.execEthPreemptVerifyFail port s
  | .canRxFrame c x => Sys2Proof.Machine.execCanRxFrame c x s
  | .canTx p => Sys2Proof.Machine.execCanTx p s
  | .canTxreq c w => Sys2Proof.Machine.execCanTxreq c w s
  | .canLaunch c e => Sys2Proof.Machine.execCanLaunch c e s
  | .canTxDone c e age => Sys2Proof.Machine.execCanTxDone c e age s
  | .canBusError c role code kind => Sys2Proof.Machine.execCanBusError c role code kind s
  | .canBusOffRecovery c => Sys2Proof.Machine.execCanBusOffRecovery c s
  | .recover c w => Sys2Proof.Machine.execRecover c w s
  | .canRx p => Sys2Proof.Machine.execCanRx p s
  | .canRxfack c w => Sys2Proof.Machine.execCanRxfack c w s
  | .canTtCycleStart c refId cycle => Sys2Proof.Machine.execCanTtCycleStart c refId cycle s
  | .canTtColumn c j => Sys2Proof.Machine.execCanTtColumn c j s
  | .canTtRefTimeout c => Sys2Proof.Machine.execCanTtRefTimeout c s
  | .lockstepMismatch pair => Sys2Proof.Machine.execLockstepMismatch pair s
  | .safeHeartbeatMiss pair => Sys2Proof.Machine.execSafeHeartbeatMiss pair s
  | .wdStart k src => Sys2Proof.Machine.execWdStart k src s
  | .wdKick k src => Sys2Proof.Machine.execWdKick k src s
  | .wdLate k => Sys2Proof.Machine.execWdLate k s
  | .tourbillonSlot x => Sys2Proof.Machine.execTourbillonSlot x s
  | .safeTbLate => Sys2Proof.Machine.execSafeTbLate s
  | .safeEnter p => Sys2Proof.Machine.execSafeEnter p s
  | .secAdvance p => Sys2Proof.Machine.execSecAdvance p s
  | .secRenewKey p => Sys2Proof.Machine.execSecRenewKey p s
  | .challenge w => Sys2Proof.Machine.execChallenge w s
  | .respond w => Sys2Proof.Machine.execRespond w s
  | .lock w => Sys2Proof.Machine.execLock w s
  | .secOtpprog w => Sys2Proof.Machine.execSecOtpprog w s
  | .logWrite => Sys2Proof.Machine.execLogWrite s
  | .logPersist ok => Sys2Proof.Machine.execLogPersist ok s
  | .registerWrite addr w => Sys2Proof.Machine.execRegisterWrite addr w s
  | .droopRecovery skipped => Sys2Proof.Machine.execDroopRecovery skipped s
  | .napAccept n => Sys2Proof.Machine.execNapAccept n s

end Sys2Proof.Machine
end

