-- ==== Sys2Proof/Machine/Step.lean ====
section
/-! DEFINITION. The step: the command at the front of the queue; on an empty queue what the block does by itself. -/

namespace Sys2Proof.Machine

/-- One edge of CLK_CHR, 1 ns, and what shows time (R392, R44, R46, R47, R140, R299, R307, R439) (see log entry 5, DESIGN CHOICE; log entry
21, DEDUCED). -/
def State.tick (s : State) : State :=
  let t := { s with dev := { s.dev with nowNs := s.dev.nowNs + 1 } }.clockTick.chrTick s.clk.edges |>.showDogs.expireDogs.reweaveTick.showClusterTime
  if t.glk.apart.isEmpty then t else t.rejoin

/-- What the block does while no command waits: an event that it owes itself, a ring's head to be read, a held packet that can be taken, a
launch that can take more kernels, else one tick of its clock (see log entry 5, DESIGN CHOICE). -/
def State.idle (s : State) : Host.Outcome State Fault Refusal :=
  match s.due with
  | i :: _ => exec i s
  | [] =>
    match s.cq.fresh with
    | q :: _ => .next (s.readHead q)
    | [] =>
      match s.takeHeld with
      | some (i, t) => exec i t
      | none => if s.canLaunch then .next s.moreKernels else .next s.tick

/-- One step: the command at the front of the queue, with the queue's rest; on an empty queue what the block does by itself. -/
def step (s : State) : Host.Outcome State Fault Refusal :=
  match s.pending with
  | c :: l => exec c { s with pending := l }
  | [] => s.idle

/-- The state with the command that a word spells put at the front of its queue; unchanged where the word spells none
(see log entry 6, DESIGN CHOICE). -/
def State.withFetchWord (s : State) (nbits w : Nat) : State :=
  match decodeTableWord nbits w with
  | some i => { s with pending := i :: s.pending }
  | none => s

end Sys2Proof.Machine
end

