-- ==== Sys2Proof/Safety.lean ====
section
/-! DEFINITION. What counts as a safe run, in the terms that claims use: the canonical form of memory, one-time-programmable memory that
only grows, and outputs at their safe levels. -/

namespace Sys2Proof.Machine

/-- What a list of slots holds, another list still holds: a slot's hash is written once (R450). -/
def slotsKept (a b : List (Option Nat)) : Prop := ∀ i h, a.getD i none = some h → b.getD i none = some h

/-- R450, R451: OTP only grows: written hashes stay, revocations stay, SECURED stays, the rollback counter never falls, and repair rows
are only added. -/
structure OtpGrows (a b : Otp) : Prop where
  rollback : a.rollback ≤ b.rollback
  mldsa : slotsKept a.mldsa b.mldsa
  ecdsa : slotsKept a.ecdsa b.ecdsa
  mldsaRevoked : ∀ i, a.mldsaRevoked.testBit i = true → b.mldsaRevoked.testBit i = true
  ecdsaRevoked : ∀ i, a.ecdsaRevoked.testBit i = true → b.ecdsaRevoked.testBit i = true
  dbgMldsa : ∀ h, a.dbgMldsa = some h → b.dbgMldsa = some h
  dbgEcdsa : ∀ h, a.dbgEcdsa = some h → b.dbgEcdsa = some h
  secured : a.secured = true → b.secured = true
  repairs : a.repairs <+: b.repairs

/-- Table SYS-8: the levels that HELD gives the outputs which no register shows: PWM, data Ethernet and Grenlink transmitters, SENSCLK and
frame sync low or idle, SAFE_FAULT_N asserted. -/
def Pins.heldLevels (p : Pins) : Prop :=
  p.safeFault = true ∧ p.senseClk = 0 ∧ p.fsync = 0 ∧ p.glkTx = 0 ∧ p.pwmOn = 0 ∧ p.canOn = 0

/-- A step answered a next state. -/
def stepsTo (s t : State) : Prop := step s = .next t

/-- The register file is in canonical form. -/
abbrev State.regsWf (s : State) : Prop := sparseWf (fun _ => (0 : Word)) s.regs = true

/-- Memory, flash and the register file are in canonical form. -/
abbrev State.canonicalForm (s : State) : Prop := Memory.wf s = true ∧ s.regsWf

/-- What a command leaves alone: memory, flash, the package with its one-time memory, and every register outside the blocks bs. -/
def State.sameOutside (s t : State) (bs : List Block) : Prop :=
  t.mem = s.mem ∧ t.flash = s.flash ∧ t.chip = s.chip ∧ ∀ r i j, r.info.block ∉ bs → t.word r i j = s.word r i j

/-! Memory that a command writes. -/

/-- A cell of memory belongs to n bytes written from an address. A write to DRAM takes whole blocks of 64 bytes, which are enciphered as one
(R453) (see log entry 29, DESIGN CHOICE). -/
def State.touches (s : State) (e : Nat × Nat) (c : Nat) : Bool :=
  let b := s.cell e.1
  if inDram b then decide (64 * (b / 64) ≤ c ∧ c < 64 * ((b + e.2 + 63) / 64)) else decide (b ≤ c ∧ c < b + e.2)

/-- Every cell of memory outside what the ranges, each an address and a number of bytes, touch reads as before. -/
def State.memOutside (s t : State) (ranges : List (Nat × Nat)) : Prop :=
  ∀ c, (∀ e ∈ ranges, s.touches e c = false) → sparseGet (fun _ => (0 : Byte)) t.mem c = sparseGet (fun _ => 0) s.mem c

/-- What a command leaves alone that writes memory: flash, the package, and every register outside the blocks bs. -/
def State.regsOutside (s t : State) (bs : List Block) : Prop :=
  t.flash = s.flash ∧ t.chip = s.chip ∧ ∀ r i j, r.info.block ∉ bs → t.word r i j = s.word r i j

/-- R199: where a stream's slot is copied as it is swapped out. -/
def State.swapOutRange (s : State) (p q : Nat) : List (Nat × Nat) :=
  match s.stream? p q, s.freeEntry p with
  | some _, some e => [(s.swapAddr p e, s.slotBytes)]
  | _, _ => []

/-- R201: where an unpinned stream's state is written: an entry of the swap area while FN_SMEM is not RUNNING, else the copy of its slot that is
not current, and the slot's header; a stream without a slot gets the header of its copy in the swap area. -/
def State.unpinRanges (s : State) (p q : Nat) : List (Nat × Nat) :=
  match s.stream? p q with
  | some x =>
    if x.pin.isNone ∨ x.lock.isSome then []
    else match (if s.fnState fnSmem = stRunning then none else s.freeEntry p), x.slot with
      | some e, _ => [(s.swapAddr p e, 32 + (x.held.bytes x.fmt).length)]
      | none, some k => [(s.slotAddr k + x.copyOff (!x.current), (x.held.bytes x.fmt).length), (s.slotAddr k, 32)]
      | none, none => match x.swap with
        | some e => [(s.swapAddr x.partition e, 32)]
        | none => []
  | none => []

/-! Packets. -/

/-- The packet is the next of its queue, brought by its own command, and starts: the queue is RUNNING, its slots are handed over and can be
read, and no packet of it is held before it (R92, R103, R492); it is not forwarded (R296) and passes checks 1 to 8 of Table CMDQ-3; nothing
holds it (R108, R112), the device is not fenced against it (R325), and check 9 passes. -/
def State.starts (s : State) (r : Rule) (p : Packet) : Bool :=
  decide (p.queue < 8192 ∧ s.qAvail p.queue ≠ 0 ∧ s.qState p.queue = stRunning) && !s.cq.taking && !s.qHeld p.queue && s.fetches p &&
    !s.headChecked p.queue && (s.badSlot p.queue (pSlots p)).isNone && !s.forwards r.op p && (s.headCheck r p).isNone &&
    !s.mustHold r.writes p && !s.fencedOut r p && s.check9 r

/-- The state in which an opcode's own effect begins: the packet's slots are consumed (R92), its operation-table entry is taken (R112), the
function that takes the work is RUNNING (R26), and memory accesses are the queue's partition's. -/
def State.entered (s : State) (r : Rule) (p : Packet) : State :=
  ((((s.consume p).launch r p).countOps p.queue p.partition).acceptWork r p).keyed (initiator 6 p.partition)

/-- The state after an opcode's own effect f, given the number of the packet's flight, and the completions in ring order that it allows
(R103). -/
def State.ran (s : State) (r : Rule) (p : Packet) (f : Nat → State → State) : State :=
  (f s.cq.nextId (s.entered r p)).retire p.queue p.partition

end Sys2Proof.Machine
end

