-- ==== Sys2Proof/Certificates/Slice0/Obligations.lean ====
section
/-! DEFINITION. The statements about the block: what each command does where it completes, what it leaves, what each step keeps, and how a
packet's bytes are read. -/

open Sys2Proof Sys2Proof.Machine

/-- Reset commands: power-on, rail trip, PORST_N and THERMTRIP_N (R36, R75, R472, R478, spec/01_slath_and_crown.md). Whenever its conditions
on the state hold, each reset command answers a next state: POWER_ON_RESET and RAIL_MONITOR_TRIP in any state, PORST_N_ASSERT with every
rail valid, and THERMTRIP_N of a sensor below 24 before a first trip leave the device in COLD with the package and flash as they were;
PORST_N_ASSERT also keeps SYS_SELECT and records PORST; PORST_N_RELEASE from COLD starts BOOT with the CROWN strap latched. COLD as the
state after these resets is the model's reading (log entry 33). -/
def Obligations.ResetCommands : Prop :=
  (∀ s : State, ∃ t, exec .powerOnReset s = .next t ∧ t.devState = devCold ∧ t.dev.railsValid = true ∧ t.chip = s.chip ∧ t.flash = s.flash) ∧
  (∀ (s : State) (rail : Nat), ∃ t, exec (.railMonitorTrip rail) s = .next t ∧ t.devState = devCold ∧ t.dev.railsValid = false ∧
    t.chip = s.chip ∧ t.flash = s.flash) ∧
  (∀ s : State, s.dev.railsValid = true → ∃ t, exec .porstNAssert s = .next t ∧ t.devState = devCold ∧ t.dev.porstN = false ∧
    t.reg .SYS_SELECT = s.reg .SYS_SELECT ∧ t.flag F.SYS_RSTCAUSE_PORST = true ∧ t.chip = s.chip ∧ t.flash = s.flash) ∧
  (∀ (s : State) (c1 c0 ref : Bool), s.regsWf → s.devState = devCold → s.dev.porstN = false → ∃ t, exec (.porstNRelease c1 c0 ref) s = .next t ∧
    t.devState = devBoot ∧ t.dev.crown = 2 * b2n c1 + b2n c0 ∧ t.dev.refsel = ref ∧ t.dev.boot = .qualifying) ∧
  (∀ (s : State) (n : Nat), s.dev.thermTrip = false → n < 24 → ∃ t, exec (.thermtripN n) s = .next t ∧ t.devState = devCold ∧
    t.pins.thermtrip = true ∧ t.flag F.SYS_RSTCAUSE_THERMTRIP = true ∧ t.chip = s.chip ∧ t.flash = s.flash)

/-- The commands of BOOT: REFCLK, the flash read and the profile that it reads (R18, R23, R24, R25, R30, R46, spec/01_slath_and_crown.md).
In BOOT, REFCLK_READY shows the source qualified with a count of 32768, locks the root PLL and starts the flash read, and REFCLK_ABSENT
enters HELD with cause 0x13; in the read, FLASH_READ_TIMEOUT enters HELD with cause 0x10 at step 1, and PROFILE_READ_DONE enters HELD with
the cause, step and section of the first check that fails or takes the profile in force from its slot, as one that was not loaded to RAM
only. REFCLK_READY out of a HELD of cause 0x13 resumes BOOT. That a profile's decoded settings come with the command that reads it, and that
HELD shows STEP 1 for a read that timed out, are the model's reading (log entries 32 and 34). -/
def Obligations.BootCommands : Prop :=
  (∀ s : State, s.regsWf → s.devState = devBoot → s.dev.boot = .qualifying → s.srcReady 0 = false → ∃ t, exec .refclkReady s = .next t ∧
    t.devState = devBoot ∧ t.fld F.CLK_STATUS_READY_REFCLK = 1 ∧ t.fld F.CLK_QUAL_REFCLK_COUNT = 32768 ∧ t.fld F.CLK_STATUS_PLL_LOCK = 1 ∧
    t.fld F.CLK_STATUS_ACTIVE = 0 ∧ t.dev.boot = .reading ∧ t.mem = s.mem ∧ t.cq = s.cq) ∧
  (∀ s : State, s.regsWf → s.devState = devHeld → s.fld F.SYS_BOOTSTAT_CAUSE = 0x13 → s.srcReady 0 = false →
    exec .refclkReady s = .next (((s.putFld F.CLK_STATUS_READY_REFCLK 1).putFld F.CLK_QUAL_REFCLK_COUNT 32768).putFld
      F.SYS_DEVSTATE_DEVSTATE devBoot).bootStates.lockRoot.showSafeFault) ∧
  (∀ s : State, s.devState = devBoot → s.dev.boot = .qualifying → exec .refclkAbsent s = .next (s.enterHeld 0x13 0 0)) ∧
  (∀ s : State, s.devState = devBoot → s.dev.boot = .reading → exec .flashReadTimeout s = .next (s.enterHeld 0x10 1 0)) ∧
  (∀ (s : State) (r : Reading) (c n k : Nat), s.devState = devBoot → s.dev.boot = .reading → s.slotFault s.dev.slot r = some (c, n, k) →
    exec (.profileReadDone r) s = .next (s.enterHeld c n k)) ∧
  (∀ (s : State) (r : Reading), s.devState = devBoot → s.dev.boot = .reading → s.slotFault s.dev.slot r = none →
    exec (.profileReadDone r) s =
      .next (s.accept (s.slotImage s.dev.slot) r.settings s.dev.slot false))

/-- LOAD_PROFILE, SELECT_PROFILE and WARM_RESET that start (R22, R32, R33, R34, R35, R85, spec/01_slath_and_crown.md). A LOAD_PROFILE that
starts stages its payload at its offset; without LAST it is then DONE; with LAST it completes with the cause of the first check of the
staged image that fails, also in SYS_BOOTSTAT and with the staging buffer as it was before it, or begins its flash write (PERSIST), or runs
the loaded profile (RUN), or is DONE. The end of the flash write leaves the slot with its commit marker and the header, and completes the
packet or runs the profile; a failed write of the slot leaves no marker, one of the header leaves the slot and the header copy in use, and
both complete it with cause 0x10. SELECT_PROFILE records the slot in SYS_SELECT or completes with the cause that refuses it; WARM_RESET is
DONE, and its flight carries the warm start. The model's choices and readings here: PROFILE_NUM is compared where PERSIST is set, and what a
failed slot or header write leaves (log entry 35); SYS_BOOTSTAT of a failed flash write (log entry 89); ACTIVE_SLOT of a profile in no slot
(log entry 88); the settings that come with the packet (log entry 32). -/
def Obligations.ProfilePackets : Prop :=
  (∀ (s : State) (p : Packet) (r : Reading), s.starts (loadProfileRule p s) p = true →
    (pLast p = false → exec (.loadProfile p r) s = .next (s.ran (loadProfileRule p s) p (fun id t => (t.stage p.target p.payload).finish id csDone 0))) ∧
    (∀ c n k, pLast p = true → ((s.entered (loadProfileRule p s) p).stage p.target p.payload).stagedFault p r = some (c, n, k) →
      exec (.loadProfile p r) s = .next (s.ran (loadProfileRule p s) p (fun id t => (t.bootStat c n k).finish id csFormat c))) ∧
    (pLast p = true → ((s.entered (loadProfileRule p s) p).stage p.target p.payload).stagedFault p r = none → p.flags.testBit 4 = true →
      exec (.loadProfile p r) s = .next (s.ran (loadProfileRule p s) p (fun id t =>
        let u := t.stage p.target p.payload
        { u with dev := { u.dev with flashWrite := some (id, bitsOf p.flags 7 6, p.flags, r.settings) } }))) ∧
    (pLast p = true → ((s.entered (loadProfileRule p s) p).stage p.target p.payload).stagedFault p r = none → p.flags.testBit 4 = false →
      p.flags.testBit 5 = true → exec (.loadProfile p r) s = .next (s.ran (loadProfileRule p s) p (fun id t =>
        (t.stage p.target p.payload).runLoaded id (bitsOf p.flags 7 6) r.settings true))) ∧
    (pLast p = true → ((s.entered (loadProfileRule p s) p).stage p.target p.payload).stagedFault p r = none → p.flags.testBit 4 = false →
      p.flags.testBit 5 = false → exec (.loadProfile p r) s = .next (s.ran (loadProfileRule p s) p (fun id t =>
        (t.stage p.target p.payload).finish id csDone 0)))) ∧
  (∀ (s : State) (id slot flags z : Nat) (x : Settings), s.dev.flashWrite = some (id, slot, flags, x) →
    ∃ t : State, t = { s with dev := { s.dev with flashWrite := none } } ∧
    exec (.loadProfileFlashDone .slotFailed z) s = .next (((t.spoilSlot slot).bootStat 0x10 1 0).complete id csFormat 0x10) ∧
    exec (.loadProfileFlashDone .headerFailed z) s =
      .next ((((t.writeSlot slot).spoilHeader slot).bootStat 0x10 1 0).complete id csFormat 0x10) ∧
    (flags.testBit 5 = false → exec (.loadProfileFlashDone .done z) s =
      .next (((t.writeSlot slot).writeHeader slot z).complete id csDone 0)) ∧
    (flags.testBit 5 = true → exec (.loadProfileFlashDone .done z) s =
      .next (((t.writeSlot slot).writeHeader slot z).runLoaded id slot x false))) ∧
  (∀ (s : State) (p : Packet) (ok : Bool), s.starts (selectProfileRule p) p = true →
    ((s.entered (selectProfileRule p) p).selectFault (bitsOf p.flags 7 6) ok = 0 → exec (.selectProfile p ok) s =
      .next (s.ran (selectProfileRule p) p (fun id t => (t.setSelect (2 * bitsOf p.flags 7 6 + 1)).finish id csDone 0))) ∧
    (∀ c, (s.entered (selectProfileRule p) p).selectFault (bitsOf p.flags 7 6) ok = c → c ≠ 0 → exec (.selectProfile p ok) s =
      .next (s.ran (selectProfileRule p) p (fun id t => t.finish id csFormat c)))) ∧
  (∀ (s : State) (p : Packet), s.starts (warmResetRule p) p = true →
    (warmResetRule p).warm = some F.SYS_RSTCAUSE_WARM_CMD ∧
    exec (.warmReset p) s = .next (s.ran (warmResetRule p) p (fun id t => t.finish id csDone 0)))

/-- A start begins, and a started target reads READY or FAULT (R25, R27, R28, R29, spec/01_slath_and_crown.md). A target that reads STARTING
begins its start once its prerequisites read READY or RUNNING, it has not begun and RCOSC does not hold it; a function that stopped to
restart reads STARTING first. A unit whose start has begun then reads READY by FUNCTION_READY, or passes on to STOPPED where FN_STOP asked
for that; a whole function reads READY with its units, its time is recorded and the device settles. FUNCTION_START_FAULT makes a unit read
FAULT, an axis also in MOT_FAULTSUM, and a function FAULT with what depends on it. The model's choices and readings here: which starts wait
on RCOSC (log entry 80), the restart of FN_PCIE and FN_ETH (log entry 81), and that a unit's fault while it starts is the unit's alone (log
entry 62). -/
def Obligations.FunctionStarts : Prop :=
  (∀ (s : State) (fn unit : Nat), s.target fn unit = stStarting → s.prereqsMet fn unit = true → s.dev.begun.contains (fn, unit) = false →
    s.rcoscHolds fn = false → ∃ t : State, t = { s with dev := { s.dev with begun := s.dev.begun ++ [(fn, unit)] } } ∧
      (unit ≠ whole → exec (.functionStart fn unit) s = .next t) ∧ (unit = whole → exec (.functionStart fn unit) s = .next (t.beginFn fn))) ∧
  (∀ (s : State) (fn : Nat), fn < 17 → s.fnState fn = stStopped → s.dev.restart.contains fn = true → exec (.functionStart fn whole) s =
    .next ((({ s with dev := { s.dev with restart := s.dev.restart.filter (fun n => n != fn) } } : State).setFn fn stStarting).startUnits fn
      |>.begin fn whole)) ∧
  (∀ (s : State) (fn unit : Nat), s.target fn unit = stStarting → s.dev.begun.contains (fn, unit) = true → s.repairWaits fn unit = false →
    (fn = fnGlk → s.glkReady = true) →
    (unit ≠ whole → s.dev.stopAfterStart.contains (fn, unit) = false →
      exec (.functionReady fn unit) s = .next ((s.started fn unit).2.readyUnit fn unit)) ∧
    (unit ≠ whole → s.dev.stopAfterStart.contains (fn, unit) = true →
      exec (.functionReady fn unit) s = .next ((s.started fn unit).2.stopUnit fn unit)) ∧
    (unit = whole → s.dev.stopAfterStart.contains (fn, unit) = false → exec (.functionReady fn unit) s =
      .next ((((((s.started fn unit).2.setFn fn stReady).readyUnits fn).recordTime fn).readyFn fn).settle)) ∧
    (unit = whole → s.dev.stopAfterStart.contains (fn, unit) = true → exec (.functionReady fn unit) s =
      .next (((((((s.started fn unit).2.setFn fn stReady).readyUnits fn).recordTime fn).readyFn fn).stopTarget fn whole).settle))) ∧
  (∀ (s : State) (fn unit : Nat), s.target fn unit = stStarting → s.dev.begun.contains (fn, unit) = true →
    (unit ≠ whole → fn ≠ fnMot → exec (.functionStartFault fn unit) s = .next ((s.started fn unit).2.setUnit fn unit stFault)) ∧
    (unit ≠ whole → fn = fnMot → exec (.functionStartFault fn unit) s =
      .next (((s.started fn unit).2.setUnit fn unit stFault).sumBit F.MOT_FAULTSUM_FAULT unit true)) ∧
    (unit = whole → exec (.functionStartFault fn unit) s = .next ((s.started fn unit).2.faultFn fn)))

/-- FN_STOP and FN_START as packets and as writes of SYS_FNCTL, and the end of draining (R37, R38, R39, R40, R41, R85, R201,
spec/01_slath_and_crown.md). An FN_STOP or FN_START packet that starts completes DONE where Table SYS-9 accepts it and REJECTED_STATE
otherwise, with the code in RESULT, after the stop or start of its target; a write of SYS_FNCTL by partition 0 with the block's clock
running does the same for a function up to 16 and shows the code in SYS_FNCTLSTAT. A draining target whose work is done reads STOPPED by
DRAIN_COMPLETE and freed kernels start; DRAIN_TIMEOUT first ends what is in flight. The model's readings and choices here: when a target's
work is done and how DRAIN_TIMEOUT ends it (log entry 62), what FN_START applies (log entry 63), firmware as an operand (log entry 78), and
REFUSED_UNIT before other refusals (log entry 82). -/
def Obligations.FunctionStops : Prop :=
  (∀ (s : State) (p : Packet), s.starts (fnRule 0x10 p) p = true → exec (.fnStop (.packet p)) s =
    .next (s.ran (fnRule 0x10 p) p (fun id t => (t.fnStop (bitsOf p.target 20 16) (p.target % 256)).finish id
      (if t.stopResult (bitsOf p.target 20 16) (p.target % 256) = 0 then csDone else csState) (t.stopResult (bitsOf p.target 20 16) (p.target % 256))))) ∧
  (∀ (s : State) (p : Packet) (fw : Option FwImage), s.starts (fnRule 0x11 p) p = true → exec (.fnStart (.packet p) fw) s =
    .next (s.ran (fnRule 0x11 p) p (fun id t => (t.fnStart (bitsOf p.target 20 16) (p.target % 256) fw).finish id
      (if t.startResult (bitsOf p.target 20 16) (p.target % 256) = 0 then csDone else csState) (t.startResult (bitsOf p.target 20 16) (p.target % 256))))) ∧
  (∀ (s : State) (w : RegWrite) (fw : Option FwImage), s.p0 w.initiator = true → s.gated .SYS = false → bitsOf w.value 20 16 ≤ 16 →
    exec (.fnStop (.fnctl w)) s = .next (((s.fnStop (bitsOf w.value 20 16) (w.value % 256)).putFld F.SYS_FNCTLSTAT_RESULT
      (s.stopResult (bitsOf w.value 20 16) (w.value % 256))).accessed) ∧
    exec (.fnStart (.fnctl w) fw) s = .next (((s.fnStart (bitsOf w.value 20 16) (w.value % 256) fw).putFld F.SYS_FNCTLSTAT_RESULT
      (s.startResult (bitsOf w.value 20 16) (w.value % 256))).accessed)) ∧
  (∀ (s : State) (fn unit : Nat), s.target fn unit = stDraining → s.busy fn unit = false →
    exec (.drainComplete fn unit) s = .next (((s.stopTarget fn unit).endRestart fn unit).moreKernels)) ∧
  (∀ (s : State) (fn unit : Nat), s.target fn unit = stDraining →
    (unit ≠ whole → exec (.drainTimeout fn unit) s = .next (((s.preemptUnit fn unit).stopTarget fn unit).moreKernels)) ∧
    (unit = whole → exec (.drainTimeout fn unit) s =
      .next (((((((s.enabledUnits fn).foldl (fun t u => t.preemptUnit fn u) s).preemptMem fn).stopTarget fn whole).endRestart fn whole).moreKernels))))

/-- Clock monitors, references, the multiplexer and its registers (R47, R49, R50, R51, R52, R53, R54, R55,
spec/02_clocks_power_and_margins.md). A trip of a monitor in service is recorded in CLK_TRIP, then the fallback of the active source is
taken or the other source loses READY. NETREF_READY shows the network reference qualified. PLL_RELOCK ends a switch with the PLL locked; on
RCOSC the functions that do not run from it are stopped, and after software's switch away from it those stopped so are started again. A
write of CLK_SRCSEL by partition 0 with the clock running switches to a ready source, and is refused with reason 2 during a switch and
reason 1 for a source that is not READY; a write of CLK_NETREF changes its window alone, refused with reason 3, while the network is the
active source. The model's choices and readings here: ACTIVE changes at the trip or request and SWITCHING lasts until PLL_RELOCK, with the
functions stopped regardless of dependents (log entry 65), reason 2 before reason 1 (log entry 84), and WINDOW_PPM that is taken (log entry
18). -/
def Obligations.ClockCommands : Prop :=
  (∀ (s : State) (m : ClockTrip), s.monitored m = true → s.devState ≠ devCold →
    (s.tripSource m = s.active → exec (.clockMonitorTrip m) s = .next ((s.setReg .CLK_TRIP (withBit (s.reg .CLK_TRIP) (tripBit m))).fallback)) ∧
    (s.tripSource m ≠ s.active → exec (.clockMonitorTrip m) s =
      .next ((s.setReg .CLK_TRIP (withBit (s.reg .CLK_TRIP) (tripBit m))).tripOther (s.tripSource m)))) ∧
  (∀ s : State, s.regsWf → s.flag F.CLK_NETREF_EN = true → s.srcReady 0 = true → ∃ t, exec .netrefReady s = .next t ∧
    t.srcReady 1 = true ∧ t.fld F.CLK_QUAL_NET_US = 1000 ∧ t.active = s.active ∧ t.mem = s.mem ∧ t.cq = s.cq) ∧
  (∀ s : State, s.regsWf → s.flag F.CLK_STATUS_SWITCHING = true → ∃ t : State,
    t = (s.putFld F.CLK_STATUS_SWITCHING 0).putFld F.CLK_STATUS_PLL_LOCK 1 ∧ t.flag F.CLK_STATUS_SWITCHING = false ∧
    t.flag F.CLK_STATUS_PLL_LOCK = true ∧ t.active = s.active ∧
    (s.active = 2 → exec .pllRelock s = .next (rcoscFns.foldl State.stopForRcosc t)) ∧
    (s.active ≠ 2 → s.clk.softwareSwitch = false → exec .pllRelock s = .next t) ∧
    (s.active ≠ 2 → s.clk.softwareSwitch = true → ∃ u : State, u = s.clk.stopped.foldl State.resumeFn t ∧
      exec .pllRelock s = .next ({ u with clk := { u.clk with stopped := [], softwareSwitch := false } } : State).seek)) ∧
  (∀ (s : State) (w : RegWrite), s.regsWf → s.p0 w.initiator = true → s.gated .CLK = false → w.value % 4 ≠ 3 →
    (s.flag F.CLK_STATUS_SWITCHING = true → ∃ t, exec (.clkSrcselReq w) s = .next t ∧ t.flag F.CLK_FLAGS_SW_REFUSED = true ∧
      t.fld F.CLK_FLAGS_REFUSE_REASON = 2 ∧ t.active = s.active) ∧
    (s.flag F.CLK_STATUS_SWITCHING = false → s.srcReady (w.value % 4) = false → ∃ t, exec (.clkSrcselReq w) s = .next t ∧
      t.flag F.CLK_FLAGS_SW_REFUSED = true ∧ t.fld F.CLK_FLAGS_REFUSE_REASON = 1 ∧ t.active = s.active) ∧
    (s.flag F.CLK_STATUS_SWITCHING = false → s.srcReady (w.value % 4) = true → w.value % 4 ≠ 2 → ∃ t, exec (.clkSrcselReq w) s = .next t ∧
      t.fld F.CLK_SRCSEL_REQ = w.value % 4 ∧ t.active = w.value % 4 ∧ t.flag F.CLK_STATUS_SWITCHING = true ∧ t.flag F.CLK_STATUS_PLL_LOCK = false ∧
      t.clk.softwareSwitch = true ∧ t.busError = false)) ∧
  (∀ (s : State) (w : RegWrite), s.regsWf → s.p0 w.initiator = true → s.gated .CLK = false → s.active = 1 → ∃ t, exec (.clkNetrefWrite w) s = .next t ∧
    t.fld F.CLK_NETREF_WINDOW_PPM = netWindow (bitsOf w.value 23 16) ∧ t.fld F.CLK_FLAGS_REFUSE_REASON = 3 ∧
    t.fld F.CLK_NETREF_EN = s.fld F.CLK_NETREF_EN ∧ t.fld F.CLK_NETREF_SEL = s.fld F.CLK_NETREF_SEL)

/-- Clock gates, a gated read, and the sensor clocks (R56, R57, R58, R59, R60, spec/02_clocks_power_and_margins.md). A write of CLK_GATE,
CLK_GATE_CAM or CLK_GATE_CAN by partition 0 completes; where it closes no gate of what reads neither OFF nor STOPPED, the register takes
exactly the bits asked for with the fixed ones and GATE_REFUSED stays, else each such gate stays open and GATE_REFUSED is set. A read of a
word of a gated block by an initiator that may read it answers zero without a bus error and is recorded with its initiator and address; of a
block that is not gated it answers the word; a read that is unaligned, of no block, or not allowed is a bus error. SENSCLK_ENABLE stops a
running sensor clock when EN is written 0 and leaves it as it is otherwise; a stopped one takes DEPTH and RATE_KHZ, and starts when EN is
written 1 with every value in range; a value out of range sets SENSCLK_RANGE instead. The model's choices and readings here: a fixed bit of
CLK_GATE is no refusal, and any initiator may write the sensor clocks (log entry 66); which gate a block lies behind (log entry 91), one
receiver's or controller's gating no register (log entry 105); where a read's answer stands (log entry 75). -/
def Obligations.GateCommands : Prop :=
  (∀ (s : State) (k : Nat) (w : RegWrite) (ask : Nat), s.regsWf → k < 3 → s.p0 w.initiator = true → s.gated .CLK = false →
    ask = (w.value ||| gateFixed k) &&& gateMask k →
    ((∀ n, n < 17 → (s.reg (gateReg k)).testBit n = true → ask.testBit n = true ∨ s.mayGate k n = true) →
      ∃ t, exec (.clkGateWrite k w) s = .next t ∧ t.reg (gateReg k) = ask ∧
        t.flag F.CLK_FLAGS_GATE_REFUSED = s.flag F.CLK_FLAGS_GATE_REFUSED ∧ t.mem = s.mem ∧ t.busError = false) ∧
    (∀ n, n < 17 → (s.reg (gateReg k)).testBit n = true → ask.testBit n = false → s.mayGate k n = false →
      ∃ t, exec (.clkGateWrite k w) s = .next t ∧ (t.reg (gateReg k)).testBit n = true ∧
        t.flag F.CLK_FLAGS_GATE_REFUSED = true ∧ t.mem = s.mem ∧ t.busError = false)) ∧
  (∀ (s : State) (a i : Nat), a % 4 = 0 → s.blockHere a = true → (s.readAt a i).1 = true →
    ((blockOf a).any s.gated = true →
      exec (.gatedRead a i) s = .next { s.gatedRead i a with busError := false, readValue := 0 }) ∧
    ((blockOf a).any s.gated = false →
      exec (.gatedRead a i) s = .next { (s.readAt a i).2.2.2 with busError := false, readValue := (s.readAt a i).2.2.1 })) ∧
  (∀ (s : State) (a i : Nat), a % 4 ≠ 0 ∨ s.blockHere a = false ∨ (s.readAt a i).1 = false → exec (.gatedRead a i) s = .next s.busErr) ∧
  (∀ (s : State) (i a : Nat), s.regsWf → ∃ t, t = s.gatedRead i a ∧ t.flag F.CLK_FLAGS_GATED_READ = true ∧
    (s.flag F.CLK_FLAGS_GATED_READ = false → t.fld F.CLK_FLAGS_GATED_INIT = i % 2 ^ 10) ∧
    (s.flag F.CLK_FLAGS_GATED_READ = true → t.flag F.CLK_FLAGS_GATED_MULTI = true ∧ t.fld F.CLK_FLAGS_GATED_INIT = s.fld F.CLK_FLAGS_GATED_INIT)) ∧
  (∀ (s : State) (n : Nat) (w : RegWrite), s.regsWf → n < 8 → s.debugLocked w.initiator = false → s.gated .CLK = false →
    (s.flag F.CLK_SENSCTL_EN n = true → w.value.testBit 31 = false →
      exec (.sensclkEnable n w) s = .next ((s.putFld F.CLK_SENSCTL_EN 0 n).senseOut n false).accessed) ∧
    (s.flag F.CLK_SENSCTL_EN n = true → w.value.testBit 31 = true → exec (.sensclkEnable n w) s = .next s.accessed) ∧
    (s.flag F.CLK_SENSCTL_EN n = false → ∃ t : State,
      t = (s.putFld F.CLK_SENSCTL_DEPTH (bitsOf w.value 20 16) n).putFld F.CLK_SENSCTL_RATE_KHZ (bitsOf w.value 6 0) n ∧
      t.fld F.CLK_SENSCTL_DEPTH n = bitsOf w.value 20 16 ∧ t.fld F.CLK_SENSCTL_RATE_KHZ n = bitsOf w.value 6 0 ∧
      (w.value.testBit 31 = false → exec (.sensclkEnable n w) s = .next t.accessed) ∧
      (w.value.testBit 31 = true → 6000000 ≤ s.fld F.CLK_SENSFREQ_FREQ_HZ n → s.fld F.CLK_SENSFREQ_FREQ_HZ n ≤ 54000000 →
        bitsOf w.value 20 16 ≤ 20 → 10 ≤ bitsOf w.value 6 0 → bitsOf w.value 6 0 ≤ 100 →
        exec (.sensclkEnable n w) s = .next ((t.setFlag F.CLK_SENSCTL_EN n).senseOut n true).accessed) ∧
      (w.value.testBit 31 = true → s.fld F.CLK_SENSFREQ_FREQ_HZ n < 6000000 ∨ 54000000 < s.fld F.CLK_SENSFREQ_FREQ_HZ n ∨
          20 < bitsOf w.value 20 16 ∨ bitsOf w.value 6 0 < 10 ∨ 100 < bitsOf w.value 6 0 →
        exec (.sensclkEnable n w) s = .next (t.setFlag F.CLK_FLAGS_SENSCLK_RANGE).accessed)))

/-- Power telemetry, capping, voltage bands, droop and throttling (R61, R62, R63, R64, R69, R70, R71, R72, R73, R74,
spec/02_clocks_power_and_margins.md). With power management running, a step acts on a telemetry reading, on the estimate while telemetry is
lost, or on the readings kept. PMBUS_LOST and PWR_CAP_UNMET set their status and event bits. A load window takes its band and raises the
target at once where the bands served ask for more; a measurement after 2 ms of residency is recorded and the target follows; AVS_LOWER
takes what the bands served ask for; an INVALIDATE write unmeasures the named bands; a droop below the threshold is noted, and its recovery
counts the skipped cycles. A Tj at the throttle limit, or within 3 °C below it while throttling, lowers the cap by a tenth and sets
THROTTLE; below that THROTTLE reads 0 and the profile's cap returns. The model's choices and readings here: V_cal, the bands served and the
cap's steps (log entry 67), the target's clamp and the guard at power start (log entry 107), the average before ten readings (log entry 85),
the cap's return (log entry 86), and the times checked (log entry 7). -/
def Obligations.PowerCommands : Prop :=
  (∀ (s : State) (e : Nat), s.fld F.PWR_STATUS_CORE_DIV ≠ 0 →
    (∀ r, exec (.powerManagerStep (some r) e) s = .next (((s.putFld F.PWR_STATUS_PMBUS_LOST 0).takeReading r).powerAct)) ∧
    (s.flag F.PWR_STATUS_PMBUS_LOST = true → exec (.powerManagerStep none e) s = .next ((s.takeReading e).powerAct)) ∧
    (s.flag F.PWR_STATUS_PMBUS_LOST = false → exec (.powerManagerStep none e) s = .next s.powerAct)) ∧
  (∀ s : State, s.regsWf → s.flag F.PWR_STATUS_PMBUS_LOST = false → ∃ t, exec .pmbusLost s = .next t ∧
    t.flag F.PWR_STATUS_PMBUS_LOST = true ∧ t.flag F.PWR_EVENTS_PMBUS_LOST = true ∧ t.clk = s.clk ∧ t.mem = s.mem) ∧
  (∀ s : State, s.regsWf → 100 ≤ s.clk.overMs → s.fld F.PWR_STATUS_CAP_STATE ≠ 2 → ∃ t, exec .pwrCapUnmet s = .next t ∧
    t.fld F.PWR_STATUS_CAP_STATE = 2 ∧ t.flag F.PWR_EVENTS_CAP_UNMET = true ∧ t.clk = s.clk ∧ t.mem = s.mem) ∧
  (∀ (s : State) (busy : Nat), s.fld F.PWR_STATUS_CORE_DIV ≠ 0 → ∃ u : State, u = ((((s.noteGuard (loadBand busy)).putFld F.PWR_STATUS_BAND
      (loadBand busy)).showGuard.bandTime (loadBand busy) 10).windowOut (loadBand busy)) ∧
    ((u.fld F.PWR_VCORE_TARGET_MV : Int) < u.wantMv → exec (.loadBandWindow busy) s = .next u.aim) ∧
    (u.wantMv ≤ (u.fld F.PWR_VCORE_TARGET_MV : Int) → exec (.loadBandWindow busy) s = .next u)) ∧
  (∀ (s : State) (b o tj : Nat), b < 4 → s.flag F.PWR_BAND_MEASURED b = false → 2000 ≤ s.clk.bandUs.getD b 0 →
    exec (.bandMeasured b o tj) s =
      .next (((s.setReg .PWR_BAND (2 ^ 31 + o % 256 * 256 + tj % 256) b).coolBands (8 * signedOf 8 tj)).showGuard.aim)) ∧
  (∀ s : State, s.fld F.PWR_STATUS_CORE_DIV ≠ 0 → exec .avsLower s = .next s.aim) ∧
  (∀ (s : State) (w : RegWrite), s.p0 w.initiator = true → s.gated .PWR = false →
    exec (.pwrAvsInvalidate w) s = .next ((s.invalidateBands w.value).accessed)) ∧
  (∀ (s : State) (mv : Nat), s.fld F.PWR_DROOP_CFG_THRESH_MV < mv → ∃ t, exec (.droopDetect mv) s = .next t ∧ t.clk.droop = true ∧
    t.regs = s.regs ∧ t.mem = s.mem) ∧
  (∀ (s : State) (n : Nat), s.regsWf → s.clk.droop = true → ∃ t, exec (.droopRecovery n) s = .next t ∧ t.clk.droop = false ∧
    t.reg .PWR_DROOP_SKIPS = (s.reg .PWR_DROOP_SKIPS + n) % 2 ^ 64 ∧ t.mem = s.mem) ∧
  (∀ (s t : State) (n tj : Nat) (limit : Int), limit = (8 * s.fld F.PWR_TLIMITS_THROTTLE_C : Int) → t = s.showTemp n tj →
    (s.flag F.PWR_STATUS_THROTTLE = true → limit - 24 ≤ signedOf 12 tj → exec (.thermalThrottle n tj) s =
      .next { t with clk := { t.clk with capDw := t.clk.capDw * 9 / 10 } }) ∧
    (s.flag F.PWR_STATUS_THROTTLE = false → limit ≤ signedOf 12 tj → exec (.thermalThrottle n tj) s =
      .next (((((({ t with clk := { t.clk with capDw := t.clk.capDw * 9 / 10 } } : State).putFld F.PWR_STATUS_THROTTLE 1).setFlag
        F.PWR_EVENTS_THROTTLE).setFlag F.GLK_TBREAK_THROTTLE).anyEvent 0x03 5))) ∧
    (s.flag F.PWR_STATUS_THROTTLE = true → signedOf 12 tj < limit - 24 → exec (.thermalThrottle n tj) s =
      .next { t.putFld F.PWR_STATUS_THROTTLE 0 with clk := { t.clk with capDw := 10 * s.fld F.PWR_PROFILE_CAP_W } }) ∧
    (s.flag F.PWR_STATUS_THROTTLE = false → signedOf 12 tj < limit →
      exec (.thermalThrottle n tj) s = .next (t.putFld F.PWR_STATUS_THROTTLE 0)))

/-- Doorbells, queue states, completion heads and ring faults (R92, R93, R94, R114, R275, R492, spec/03_command_packets_queues_and_sync.md).
A doorbell of the owner of a RUNNING queue that hands over no more slots than the ring has sets CMDQ_QTAIL and no other register, and leaves
the ring's head to be read; one by another initiator, in another state or beyond the ring sets its error bit and counts, with no bus error.
Setting EN of an OFF queue makes it RUNNING with an empty ring; of a draining or faulted one it changes nothing; clearing EN drains it;
while FN_MGMT reads STOPPED what the initiator may write of either goes to staging; a draining queue that is empty reads OFF, and its
context may recover. A write of CMDQ_QCPLHEAD lets records follow. Writes of these registers by an initiator of another partition are bus
errors. A ring fault of a queue that is not OFF puts it in FAULT, on a write also losing the record. The model's readings here: a queue that
is OFF or in FAULT is not read and QUEUE_DRAINED asks for an empty ring (log entry 10), which queues a ring fault moves (log entry 12), and
what CMDQ_ERR keeps (log entry 76). -/
def Obligations.QueueRegisterCommands : Prop :=
  (∀ (s : State) (q : Nat) (w : RegWrite), s.regsWf → q < 8192 →
    (s.ofPart w.initiator (s.qPart q) = false → exec (.cmdqDb q w) s =
      .next (((s.cmdqError F.CMDQ_ERR_DB_DENIED q (some w.initiator)).addFld F.CMDQ_ERRCNT_DB_CNT 1).accessed)) ∧
    (s.ofPart w.initiator (s.qPart q) = true → s.qState q ≠ stRunning → exec (.cmdqDb q w) s =
      .next (((s.cmdqError F.CMDQ_ERR_DB_STATE q (some w.initiator)).addFld F.CMDQ_ERRCNT_DB_CNT 1).accessed)) ∧
    (s.ofPart w.initiator (s.qPart q) = true → s.qState q = stRunning →
      2 ^ s.fld F.CMDQ_QCFG_SQ_LOG2 q < (w.value % 2 ^ 32 + 2 ^ 32 - s.reg .CMDQ_QHEAD q) % 2 ^ 32 → exec (.cmdqDb q w) s =
      .next (((s.cmdqError F.CMDQ_ERR_DB_OVERRUN q (some w.initiator)).addFld F.CMDQ_ERRCNT_DB_CNT 1).accessed)) ∧
    (s.ofPart w.initiator (s.qPart q) = true → s.qState q = stRunning →
      (w.value % 2 ^ 32 + 2 ^ 32 - s.reg .CMDQ_QHEAD q) % 2 ^ 32 ≤ 2 ^ s.fld F.CMDQ_QCFG_SQ_LOG2 q → ∃ t, exec (.cmdqDb q w) s = .next t ∧
      t.reg .CMDQ_QTAIL q = w.value % 2 ^ 32 ∧ (∀ r i j, ¬(r = .CMDQ_QTAIL ∧ i = q ∧ j = 0) → t.reg r i j = s.reg r i j) ∧
      t.mem = s.mem ∧ t.cq.fresh.contains q = true ∧ t.cq.flight = s.cq.flight ∧ t.cq.held = s.cq.held ∧ t.busError = false)) ∧
  (∀ (s t : State) (q : Nat) (w : RegWrite), q < 8192 → s.ofPart w.initiator (s.qPart q) = true →
    s.regStopped .CMDQ_QCFG q = false →
    t = (if s.p0 w.initiator then s.setReg .CMDQ_QCFG (2 ^ 31 * s.fld F.CMDQ_QCFG_EN q + w.value % 2 ^ 31) q else s) →
    (s.qState q ≠ stDraining → s.qState q ≠ stFault → exec (.queueEnable q w) s = .next (t.enableQueue q).accessed) ∧
    (s.qState q = stDraining ∨ s.qState q = stFault → exec (.queueEnable q w) s = .next s.accessed) ∧
    exec (.queueDisable q w) s = .next (t.drainQueue q).accessed) ∧
  (∀ (s : State) (q m : Nat) (w : RegWrite), q < 8192 → s.ofPart w.initiator (s.qPart q) = true → s.regStopped .CMDQ_QCFG q = true →
    m = (if s.p0 w.initiator then 2 ^ 32 - 1 else 2 ^ 31) →
    exec (.queueEnable q w) s =
      .next (s.stageReg .CMDQ_QCFG q 0 (mixBits (s.seen .CMDQ_QCFG q 0) (w.value % 2 ^ 31 + 2 ^ 31) m) w.initiator) ∧
    exec (.queueDisable q w) s = .next (s.stageReg .CMDQ_QCFG q 0 (mixBits (s.seen .CMDQ_QCFG q 0) (w.value % 2 ^ 31) m) w.initiator)) ∧
  (∀ (s : State) (q : Nat), s.regsWf → s.qState q = stOff → ∃ t, t = s.enableQueue q ∧ t.qState q = stRunning ∧
    t.flag F.CMDQ_QCFG_EN q = true ∧ t.reg .CMDQ_QTAIL q = s.reg .CMDQ_QHEAD q ∧ t.reg .CMDQ_QHEAD q = s.reg .CMDQ_QHEAD q ∧
    t.qPart q = s.qPart q ∧ t.mem = s.mem) ∧
  (∀ (s t : State) (q : Nat), s.qState q = stDraining → s.queueEmpty q = true → t = s.putFld F.CMDQ_QSTAT_STATE stOff q →
    (s.regsWf → t.qState q = stOff) ∧
    (t.ctxOf (t.qPart q) q = none → exec (.queueDrained q) s = .next t) ∧
    (∀ k, t.ctxOf (t.qPart q) q = some k → exec (.queueDrained q) s = .next (t.ctxRecover (t.qPart q) k))) ∧
  (∀ (s : State) (q : Nat) (w : RegWrite), q < 8192 → s.ofPart w.initiator (s.qPart q) = true →
    exec (.cplHeadWrite q w) s = .next (((s.setReg .CMDQ_QCPLHEAD (w.value % 2 ^ 32) q).retire q (s.qPart q)).accessed)) ∧
  (∀ (s : State) (q : Nat) (w : RegWrite), q < 8192 → s.ofPart w.initiator (s.qPart q) = false →
    exec (.queueEnable q w) s = .next s.busErr ∧ exec (.queueDisable q w) s = .next s.busErr ∧ exec (.cplHeadWrite q w) s = .next s.busErr) ∧
  (∀ (s : State) (q i : Nat), s.qState q ≠ stOff →
    exec (.ringAccessFault q false i) s = .next (s.ringFault q i true) ∧
    exec (.ringAccessFault q true i) s = .next ((s.ringFault q i).loseRecord q))

/-- Writes of sync counters, watches and counter ranges (R106, R107, R111, R115, spec/03_command_packets_queues_and_sync.md). A write of
SYNC_ADD by an owner of the counter signals it with the value, and a write of 0 changes nothing; by another initiator it is a bus error
recorded in SYNC_STATUS. A write of a watch by its owner, on a counter that its owner owns, arms it as written and lets it fire if its wait
is satisfied already. A write of SYNC_RANGE by partition 0 takes effect, in staging while FN_MGMT reads STOPPED, unless the range passes the
last counter or meets another enabled range, which is refused without a bus error. That SYNC_STATUS names the BASE of a refused range and
the first refusal after a clear is the model's choice (log entry 93), and how staged writes wait its reading (log entry 23). -/
def Obligations.SyncRegisterCommands : Prop :=
  (∀ (s : State) (n : Nat) (w : RegWrite), n < 65536 →
    ((s.p0 w.initiator || (!isP0 w.initiator && s.ownsCtr (iInst w.initiator) n)) = true →
      (w.value % 2 ^ 32 ≠ 0 → exec (.syncAddWrite n w) s = .next (s.signal n (w.value % 2 ^ 32)).accessed) ∧
      (w.value % 2 ^ 32 = 0 → exec (.syncAddWrite n w) s = .next s.accessed)) ∧
    ((s.p0 w.initiator || (!isP0 w.initiator && s.ownsCtr (iInst w.initiator) n)) = false →
      exec (.syncAddWrite n w) s = .next (s.syncRefuse F.SYNC_STATUS_DENIED w.initiator n).busErr)) ∧
  (∀ (s : State) (k : Nat) (w : RegWrite), k < 256 → s.ofPart w.initiator (s.watchOwner k) = true →
    s.ownsCtr (s.watchOwner k) (w.value % 65536) = true → exec (.watchArm k w) s =
      .next (((s.setReg .SYNC_WATCHCFG (2 ^ 31 * (w.value % 2 ^ 32 / 2 ^ 31) + 2 ^ 30 *
        (if w.value.testBit 30 then 0 else s.fld F.SYNC_WATCHCFG_FIRED k) + 2 ^ 28 * bitsOf w.value 29 28 + w.value % 2 ^ 27) k).fireWatch k).accessed)) ∧
  (∀ (s : State) (k : Nat) (w : RegWrite), s.regsWf → k < 64 → s.p0 w.initiator = true →
    (s.rangeBad k w.value = false → s.gated .SYNC = false → s.regStopped .SYNC_RANGE k = true → exec (.syncRangeWrite k w) s =
      .next (s.stageReg .SYNC_RANGE k 0 (2 ^ 63 * b2n (w.value.testBit 63) + 2 ^ 34 * bitsOf w.value 39 34 + 2 ^ 17 * bitsOf w.value 33 17 +
        w.value % 65536) w.initiator)) ∧
    (s.rangeBad k w.value = false → s.gated .SYNC = false → s.regStopped .SYNC_RANGE k = false → ∃ t, exec (.syncRangeWrite k w) s = .next t ∧
      t.reg .SYNC_RANGE k = 2 ^ 63 * b2n (w.value.testBit 63) + 2 ^ 34 * bitsOf w.value 39 34 + 2 ^ 17 * bitsOf w.value 33 17 + w.value % 65536 ∧
      (∀ r i j, ¬(r = .SYNC_RANGE ∧ i = k ∧ j = 0) → t.reg r i j = s.reg r i j) ∧ t.mem = s.mem ∧ t.busError = false) ∧
    (s.rangeBad k w.value = true → exec (.syncRangeWrite k w) s =
      .next (s.syncRefuse F.SYNC_STATUS_RANGE_REFUSED w.initiator (w.value % 65536)).accessed))

/-- Datagrams, acknowledgements and Grenlink messages (R99, R100, R101, R102, R296, R85, spec/03_command_packets_queues_and_sync.md). A
datagram that its queue does not take is dropped and counted; one whose header CRC fails, or of VERSION 1 whose trailer CRC fails, is
counted; one in order is taken into the ring, where another VERSION and an unknown opcode fail their checks, one ahead is dropped with a
NAK, and one behind is acknowledged again; a transport packet is not taken into the ring. The acknowledgement timer answers to the queue's
peer for what is unacknowledged; CPL_ACK that reaches its queue and passes both CRCs moves the completion head, and is dropped or counted
otherwise; CPL_RESEND sends the slots from the head to the peer again. A Grenlink message whose header CRC fails is counted; one whose
checks 1 to 3 pass for another reachable member goes on; any other goes into the ring of its RUNNING Grenlink queue, or completes
REJECTED_QUEUE_FULL. The model's readings and choices here: what a datagram carries and where answers go (log entry 70), the empty address
of an ACK before any packet was accepted (log entry 106), and the messages dropped (log entry 16). -/
def Obligations.TransportCommands : Prop :=
  (∀ (s : State) (d : Datagram), s.udpAdmits d = false → exec (.udpDatagram d) s = .next (s.udpDrop d.packet.queue)) ∧
  (∀ (s : State) (d : Datagram), s.udpAdmits d = true → d.packet.hcrc ≠ hcrcOf ⟨d.cls, d.code⟩ d.packet → exec (.udpDatagram d) s =
    .next ((s.cmdqError F.CMDQ_ERR_HCRC d.packet.queue none).addFld F.CMDQ_ERRCNT_HCRC_CNT 1)) ∧
  (∀ (s : State) (d : Datagram), s.udpAdmits d = true → d.packet.hcrc = hcrcOf ⟨d.cls, d.code⟩ d.packet → d.packet.version = 1 →
    d.packet.trailer ≠ trailerOf ⟨d.cls, d.code⟩ d.packet → exec (.udpDatagram d) s =
    .next ((s.cmdqError F.CMDQ_ERR_TCRC d.packet.queue none).addFld F.CMDQ_ERRCNT_TCRC_CNT 1)) ∧
  (∀ (s : State) (d : Datagram), s.udpAdmits d = true → d.packet.hcrc = hcrcOf ⟨d.cls, d.code⟩ d.packet →
    d.packet.version ≠ 1 ∨ d.packet.trailer = trailerOf ⟨d.cls, d.code⟩ d.packet →
    (d.cls = 0 → 1 ≤ d.code → d.code ≤ 4 → exec (.udpDatagram d) s = .next s) ∧
    (d.cls ≠ 0 ∨ d.code = 0 ∨ 5 ≤ d.code →
      ((d.packet.seq + 2 ^ 32 - s.reg .CMDQ_QSEQ d.packet.queue) % 2 ^ 32 = 0 → exec (.udpDatagram d) s = .next (s.udpInOrder d)) ∧
      (0 < (d.packet.seq + 2 ^ 32 - s.reg .CMDQ_QSEQ d.packet.queue) % 2 ^ 32 →
        (d.packet.seq + 2 ^ 32 - s.reg .CMDQ_QSEQ d.packet.queue) % 2 ^ 32 < 2 ^ 31 → exec (.udpDatagram d) s = .next (s.udpAhead d)) ∧
      (2 ^ 31 ≤ (d.packet.seq + 2 ^ 32 - s.reg .CMDQ_QSEQ d.packet.queue) % 2 ^ 32 →
        exec (.udpDatagram d) s = .next (s.sendAck d.packet.queue)))) ∧
  (∀ (s : State) (q : Nat), (s.udpOf q).unacked ≠ 0 → ∃ t, exec (.udpAckTimer q) s = .next t ∧
    t.sent = s.sent ++ [.ack q ((s.reg .CMDQ_QSEQ q + 2 ^ 32 - 1) % 2 ^ 32) (t.peerOf q)] ∧ t.regs = s.regs ∧ t.mem = s.mem) ∧
  (∀ (s : State) (d : Datagram),
    (s.udpReaches d = false → exec (.cplAck d) s = .next (s.udpDrop d.packet.queue)) ∧
    (s.udpReaches d = true → d.packet.hcrc ≠ hcrcOf ⟨0, 4⟩ d.packet →
      exec (.cplAck d) s = .next ((s.cmdqError F.CMDQ_ERR_HCRC d.packet.queue none).addFld F.CMDQ_ERRCNT_HCRC_CNT 1)) ∧
    (s.udpReaches d = true → d.packet.hcrc = hcrcOf ⟨0, 4⟩ d.packet → d.packet.version ≠ 1 → exec (.cplAck d) s = .next s) ∧
    (s.udpReaches d = true → d.packet.hcrc = hcrcOf ⟨0, 4⟩ d.packet → d.packet.version = 1 → d.packet.trailer ≠ trailerOf ⟨0, 4⟩ d.packet →
      exec (.cplAck d) s = .next ((s.cmdqError F.CMDQ_ERR_TCRC d.packet.queue none).addFld F.CMDQ_ERRCNT_TCRC_CNT 1)) ∧
    (s.udpReaches d = true → d.packet.hcrc = hcrcOf ⟨0, 4⟩ d.packet → d.packet.version = 1 → d.packet.trailer = trailerOf ⟨0, 4⟩ d.packet →
      exec (.cplAck d) s =
        .next ((s.setReg .CMDQ_QCPLHEAD (d.packet.target % 2 ^ 32) d.packet.queue).retire d.packet.queue (s.qPart d.packet.queue)))) ∧
  (∀ (s : State) (q : Nat), s.overUdp q = true → (s.cplIndex q + 2 ^ 32 - s.reg .CMDQ_QCPLHEAD q) % 2 ^ 32 ≠ 0 →
    ∃ t, exec (.cplResend q) s = .next t ∧ t.regs = s.regs ∧ t.mem = s.mem ∧
      t.sent = s.sent ++ [.cpl q (s.reg .CMDQ_QCPLHEAD q) ((s.cplIndex q + 2 ^ 32 - s.reg .CMDQ_QCPLHEAD q) % 2 ^ 32) (s.peerOf q)]) ∧
  (∀ (s : State) (cls code : Nat) (p : Packet), p.hcrc ≠ hcrcOf ⟨cls, code⟩ p → exec (.glkMessageRx cls code p) s =
    .next ((s.cmdqError F.CMDQ_ERR_HCRC p.queue none).addFld F.CMDQ_ERRCNT_HCRC_CNT 1)) ∧
  (∀ (s : State) (cls code : Nat) (p : Packet), p.hcrc = hcrcOf ⟨cls, code⟩ p → s.fnUsable fnGlk = true →
    (s.forwards ⟨cls, code⟩ p = false → p.queue < 8192 → s.fld F.CMDQ_QCFG_TRANSPORT p.queue = 3 → s.qState p.queue = stRunning →
      (s.subFits p.queue (pSlots p) = true → exec (.glkMessageRx cls code p) s =
        .next ((s.acceptFn fnGlk).takeIn ⟨cls, code⟩ p (initiator 0xA p.partition))) ∧
      (s.subFits p.queue (pSlots p) = false → exec (.glkMessageRx cls code p) s =
        .next (s.extraRecord p.queue p.seq cls code p.partition csQueueFull 0))) ∧
    (s.forwards ⟨cls, code⟩ p = true → exec (.glkMessageRx cls code p) s =
      .next (s.toMember (p.destDev % 64) (.forward p.destDev cls code p))))

/-- NOP and the MEM packets that start (R85, R86, R87, R88, R89, R90, R491, spec/03_command_packets_queues_and_sync.md). A NOP that starts
is DONE. MEM_WRITE and MEM_FILL store their bytes at their address or in their object, with their count in RESULT, MEM_FILL's from its
8-byte pattern; beyond the object they are rejected. MEM_READ returns the bytes, completes FAULT_ECC on an uncorrectable error, waits
while a granule of it is scrubbed, and is REJECTED_STATE for an invalid object. The bytes of each move over a General DMA channel that is
idle (which one it is, is the model's choice, log entry 98). OBJ_CREATE makes an object of the pieces that fit, or is refused with detail
2 (which pieces is the model's choice, log entry 14); OBJ_WRITE stores its bytes and with LAST starts the CRC pass, whose end, once no
earlier packet that writes the object is in flight and no granule of it is scrubbed, makes the object valid or rejects the packet, or fails
it with FAULT_ECC on an uncorrectable error; OBJ_FREE frees an object whose pass does not run. -/
def Obligations.QueueAndMemoryPackets : Prop :=
  (∀ (s : State) (p : Packet), s.starts (nopRule p) p = true → exec (.nop p) s = .next (s.ran (nopRule p) p (fun id t => t.finish id csDone 0))) ∧
  (∀ (c : Instr) (s : State) (p : Packet) (r : Rule) (f : Option Nat) (data : List Byte),
    (c = .memWrite p ∧ data = p.payload ∧ f = none ∧ r = memRule ⟨2, 1⟩ p s p.payload.length true true 0) ∨
      (c = .memFill p ∧ data = fillBytes (pNum p 8 8) (pNum p 0 8) ∧ f = some (pNum p 8 8) ∧
        r = memRule ⟨2, 3⟩ p s (pNum p 0 8) true (memFillFormat p) 0) →
    s.starts r p = true →
    (pIsHandle p = false → exec c s = .next (s.ran r p (fun id t =>
      ((t.writeBytes p.target data).viaChannel p.partition true f [(p.target, data.length)]).finish id csDone data.length))) ∧
    (∀ b, pIsHandle p = true → (s.entered r p).pObj p = some b →
      (pOffset p + data.length ≤ b.size → exec c s = .next (s.ran r p (fun id t =>
        ((t.writeObj b (pOffset p) data).viaChannel p.partition true f (b.pieces (pOffset p) data.length)).finish id csDone data.length))) ∧
      (b.size < pOffset p + data.length → exec c s = .next (s.ran r p (fun id t => t.finish id csFormat 0))))) ∧
  (∀ (s u : State) (p : Packet) (r : Rule) (n : Nat) (ps : List (Nat × Nat)), n = pNum p 0 8 →
    r = memRule ⟨2, 2⟩ p s n false (memReadFormat p) ((n + 31) / 32) → s.starts r p = true →
    (pIsHandle p = false ∧ ps = [(p.target, n)]) ∨ (∃ b, pIsHandle p = true ∧ (s.entered r p).pObj p = some b ∧ pOffset p + n ≤ b.size ∧
      b.valid = true ∧ ps = b.pieces (pOffset p) n) → u = s.entered r p →
    (∀ k, exec (.memRead p (some k)) s = .next (s.ran r p (fun id t =>
      (((t.chargePieces (initiator 6 p.partition) ps).uncorrectable (pieceAddr ps k n) 0 p.partition).viaChannel p.partition false none ps
        (some (k % max n 1))).finish id csEcc 0))) ∧
    (u.underScrub ps = false → exec (.memRead p none) s = .next (s.ran r p (fun id t =>
      ((t.chargePieces (initiator 6 p.partition) ps).viaChannel p.partition false none ps).finish id csDone n (t.readPieces ps)))) ∧
    (u.underScrub ps = true → exec (.memRead p none) s = .next (s.ran r p (fun id t =>
      ((t.chargePieces (initiator 6 p.partition) ps).viaChannel p.partition false none ps).waitRead id ps n (t.readPieces ps))))) ∧
  (∀ (s : State) (p : Packet) (r : Rule) (n : Nat) (b : Obj), n = pNum p 0 8 → r = memRule ⟨2, 2⟩ p s n false (memReadFormat p) ((n + 31) / 32) →
    s.starts r p = true → pIsHandle p = true → (s.entered r p).pObj p = some b → pOffset p + n ≤ b.size → b.valid = false →
    ∀ k, exec (.memRead p k) s = .next (s.ran r p (fun id t => t.finish id csState 0))) ∧
  (∀ (s t : State) (p : Packet) (ctx : Nat), s.starts (objCreateRule p) p = true → pNum p 12 1 ≤ 1 → pNum p 0 8 ≠ 0 → pNum p 0 8 ≤ 2 ^ 36 →
    t = s.entered (objCreateRule p) p → ctx = (t.ctxOf p.partition p.queue).getD 0 → t.pObj p = none →
    (∀ ps, firstFit (t.objs.flatMap (·.parts)) (t.objRegions p.partition ctx (pNum p 12 1 == 1)) (pNum p 0 8) = some ps →
      exec (.objCreate p) s = .next (s.ran (objCreateRule p) p (fun id t =>
        ({ t with objs := t.objs ++ [newObj p ctx ps] } : State).finish id csDone 0))) ∧
    (firstFit (t.objs.flatMap (·.parts)) (t.objRegions p.partition ctx (pNum p 12 1 == 1)) (pNum p 0 8) = none →
      exec (.objCreate p) s = .next (s.ran (objCreateRule p) p (fun id t => t.finish id csFormat 0x0200)))) ∧
  (∀ (s : State) (p : Packet) (r : Rule) (b : Obj), r = objRule ⟨2, 0x11⟩ p s true true → s.starts r p = true →
    (s.entered r p).pObj p = some b → pOffset p < b.size →
    (pLast p = false → exec (.objWrite p) s = .next (s.ran r p
      (fun id t => (t.writeObj b (pOffset p) p.payload).finish id csDone (min p.payload.length (b.size - pOffset p))))) ∧
    (pLast p = true → exec (.objWrite p) s = .next (s.ran r p (fun id t =>
      ((t.fillObj b (pOffset p) p.payload).setObj { b with pass := b.pass ++ [id] }).waitRead id [] (min p.payload.length (b.size - pOffset p)))))) ∧
  (∀ (s t : State) (part h id : Nat) (b : Obj) (ps : List (Nat × Nat)) (left : List Nat), s.obj? part h = some b → s.passOf b = some id →
    ps = b.pieces 0 b.size → t = s.chargePieces (initiator 6 b.partition) ps → left = b.pass.filter (fun f => f != id) →
    (∀ ue, s.underScrub ps = true → exec (.objCrcPassDone part h ue) s = .next s) ∧
    (s.underScrub ps = false →
      (∀ k, exec (.objCrcPassDone part h (some k)) s = .next (((t.uncorrectable (pieceAddr ps k b.size) 0 b.partition).setObj
        { b with valid := false, pass := left }).complete id csEcc 0)) ∧
      (crc32c ((s.keyed (initiator 6 b.partition)).readPieces ps) = b.crc → exec (.objCrcPassDone part h none) s =
        .next ((t.setObj { b with valid := true, pass := left }).complete id csDone
          (((s.cq.flight.find? (fun f => f.id == id)).map (·.len)).getD 0))) ∧
      (crc32c ((s.keyed (initiator 6 b.partition)).readPieces ps) ≠ b.crc → exec (.objCrcPassDone part h none) s =
        .next ((t.setObj { b with valid := false, pass := left }).complete id csFormat 0x0300)))) ∧
  (∀ (s : State) (part h : Nat) (b : Obj) (ue : Option Nat), s.obj? part h = some b → s.passOf b = none →
    exec (.objCrcPassDone part h ue) s = .next s) ∧
  (∀ (s : State) (p : Packet) (b : Obj), s.starts (objRule ⟨2, 0x12⟩ p s (pOffset p == 0 && p.plen == 0)) p = true →
    (s.entered (objRule ⟨2, 0x12⟩ p s (pOffset p == 0 && p.plen == 0)) p).pObj p = some b →
    (b.pass = [] → exec (.objFree p) s = .next (s.ran (objRule ⟨2, 0x12⟩ p s (pOffset p == 0 && p.plen == 0)) p (fun id t =>
      ({ t with objs := t.objs.filter (fun x => !(x.partition == b.partition && x.handle == b.handle)) } : State).finish id csDone 0))) ∧
    (b.pass ≠ [] → exec (.objFree p) s = .next (s.ran (objRule ⟨2, 0x12⟩ p s (pOffset p == 0 && p.plen == 0)) p (fun id t =>
      t.finish id csState 0))))

/-- The SYNC packets that start (R103, R106, R107, R108, R110, spec/03_command_packets_queues_and_sync.md). SYNC_ADD leaves its flight done
with the add to be applied when it completes; SYNC_SET sets a counter that nothing waits on, with the old value in RESULT, and is
REJECTED_STATE otherwise; SYNC_READ returns the value; SYNC_WAIT completes at once where the counter has reached the value and waits
otherwise; a waiting one whose wait was met completes with the value at its release. That SYNC_ADD adds as its record is written is the
model's reading (log entry 13). -/
def Obligations.SyncPackets : Prop :=
  (∀ (s : State) (p : Packet), s.starts (syncRule ⟨3, 1⟩ p s true) p = true → exec (.syncAdd p) s =
    .next (s.ran (syncRule ⟨3, 1⟩ p s true) p (fun id t => (t.addAtEnd id p.target (pNum p 0 8)).finish id csDone 0))) ∧
  (∀ (s : State) (p : Packet), s.starts (syncRule ⟨3, 2⟩ p s true) p = true →
    ((s.entered (syncRule ⟨3, 2⟩ p s true) p).waitedOn p.target = true → exec (.syncSet p) s =
      .next (s.ran (syncRule ⟨3, 2⟩ p s true) p (fun id t => t.finish id csState 0))) ∧
    ((s.entered (syncRule ⟨3, 2⟩ p s true) p).waitedOn p.target = false → exec (.syncSet p) s =
      .next (s.ran (syncRule ⟨3, 2⟩ p s true) p
        (fun id t => (t.setReg .SYNC_CTR (pNum p 0 8) p.target).finish id csDone (t.reg .SYNC_CTR p.target))))) ∧
  (∀ (s : State) (p : Packet), s.starts (syncRule ⟨3, 3⟩ p s false) p = true → exec (.syncRead p) s =
    .next (s.ran (syncRule ⟨3, 3⟩ p s false) p (fun id t => t.finish id csDone (t.reg .SYNC_CTR p.target)))) ∧
  (∀ (s : State) (p : Packet), s.starts (syncRule ⟨3, 4⟩ p s true) p = true →
    (pNum p 0 8 ≤ (s.entered (syncRule ⟨3, 4⟩ p s true) p).reg .SYNC_CTR p.target → exec (.syncWait p) s =
      .next (s.ran (syncRule ⟨3, 4⟩ p s true) p (fun id t => t.finish id csDone (t.reg .SYNC_CTR p.target)))) ∧
    ((s.entered (syncRule ⟨3, 4⟩ p s true) p).reg .SYNC_CTR p.target < pNum p 0 8 → exec (.syncWait p) s =
      .next (s.ran (syncRule ⟨3, 4⟩ p s true) p (fun id t => { t with cq := { t.cq with flight := t.cq.flight.map (fun f =>
        if f.id = id then { f with waitCtr := p.target, waitVal := pNum p 0 8 } else f) } })))) ∧
  (∀ (s : State) (q seq : Nat) (f : Flight), s.cq.flight.find? (fun f =>
      f.queue == q && f.seq == seq && f.cls == 3 && f.code == 4 && f.waitMet && f.status.isNone) = some f →
    exec (.syncWaitSatisfied q seq) s = .next ((s.undue (.syncWaitSatisfied q seq)).complete f.id csDone f.result))

/-- Launch, dispatch, completion and teardown of kernels (R267, R269, R270, R271, R272, R273, R274,
spec/09_escapement_sharing_and_isolation.md). An EXEC_LAUNCH that starts queues its descriptors, and kernels enter the table while entries
are free. EXEC_QUERY answers the context's state and its kernels. EXEC_TEARDOWN of another context tears it down with FAULT_ENGINE and
counts its kernels; of its own context it is refused. A free engine dispatches the kernel chosen for it; an owned engine that lends and runs
nothing becomes lendable; a kernel that has ended completes with its status, and one that has run Q_cyc + 1,024 cycles or more with
FAULT_PREEMPT_TIMEOUT, its event naming its descriptor, while one that has run less goes on. The model's readings and choices here:
FAULT_ENGINE of kernels that a teardown ends, the order in which a launch's kernels enter, and the free engine as an operand (log entry 47);
the path of SYNC_LAT as an operand (log entry 72). -/
def Obligations.KernelCommands : Prop :=
  (∀ (s : State) (p : Packet), s.starts (execLaunchRule p s) p = true → exec (.execLaunch p) s =
    .next (s.ran (execLaunchRule p s) p (fun id t =>
      let head := (t.reg .CMDQ_QHEAD p.queue + 2 ^ 32 - pSlots p) % 2 ^ 32
      let l : Launch := { flight := id, queue := p.queue, seq := p.seq % 2 ^ 32, partition := p.partition,
                          context := (t.ctxOf p.partition p.queue).getD 0, total := (launchDescs p).length,
                          waiting := (List.range (launchDescs p).length).map (fun n =>
                            (t.subAddr p.queue (head + 1 + 4 * n), (launchDescs p).getD n [])) }
      ({ t with esc := { t.esc with launches := t.esc.launches ++ [l] } }).moreKernels))) ∧
  (∀ (s : State) (p : Packet), s.starts (execQueryRule p) p = true → exec (.execQuery p) s =
    .next (s.ran (execQueryRule p) p (fun id t => t.finish id csDone (t.ctxState p.partition p.target +
      2 ^ 16 * (t.esc.kernels.filter (fun k => k.partition == p.partition && k.context == p.target)).length)))) ∧
  (∀ (s : State) (p : Packet), s.starts (execTeardownRule p) p = true →
    ((s.entered (execTeardownRule p) p).ctxOf p.partition p.queue = some p.target → exec (.execTeardown p) s =
      .next (s.ran (execTeardownRule p) p (fun id t => t.finish id csFormat 0))) ∧
    ((s.entered (execTeardownRule p) p).ctxOf p.partition p.queue ≠ some p.target → exec (.execTeardown p) s =
      .next (s.ran (execTeardownRule p) p (fun id t => (t.teardown p.partition p.target csEngine none).finish id csDone
        (t.esc.kernels.filter (fun k => k.partition == p.partition && k.context == p.target)).length)))) ∧
  (∀ (s : State) (cls n path : Nat) (k : Kernel) (lent : Bool), s.engineFree cls n = true → s.choose cls n = some (k, lent) →
    exec (.kernelDispatch cls n path) s = .next ((s.dispatch k n lent).showPath k n lent path)) ∧
  (∀ (s : State) (cls n o : Nat), s.engineOwner cls n = some o → s.flag F.ESC_RESV_LEND o = true → s.kernelOn cls n = none →
    (cls, n) ∉ s.esc.lendable → ∃ t, exec (.lendHoldExpire cls n) s = .next t ∧ t.esc.lendable = s.esc.lendable ++ [(cls, n)] ∧
      t.regs = s.regs ∧ t.mem = s.mem) ∧
  (∀ (s : State) (cls n run st : Nat) (k : Kernel), s.kernelOn cls n = some k → k.status = some st →
    exec (.kernelComplete cls n run) s = .next (s.completeKernel k st run)) ∧
  (∀ (s t : State) (cls n run : Nat) (k : Kernel), s.running cls n = some k →
    t = (s.escStatus F.ESC_STATUS_RUN_LIMIT k.partition k.context).dataEvent 0x05 0x0002 k.addr k.partition →
    (run < s.reg .ESC_QCYC + 1024 → exec (.runLimit cls n run) s = .next s) ∧
    (s.reg .ESC_QCYC + 1024 ≤ run →
      (cls = 0 → exec (.runLimit cls n run) s = .next ((t.zeroStore n).completeKernel { k with status := some csPreempt } csPreempt run)) ∧
      (cls = 6 → exec (.runLimit cls n run) s =
        .next ((t.putFld F.DMA_STAT_STATE 3 n).completeKernel { k with status := some csPreempt } csPreempt run)) ∧
      (cls ≠ 0 → cls ≠ 6 → exec (.runLimit cls n run) s = .next (t.completeKernel { k with status := some csPreempt } csPreempt run))))

/-- Regulators, the latency guard, repair in service and firewall regions (R277, R278, R279, R282, R284, R285, R286, R287, R71,
spec/09_escapement_sharing_and_isolation.md). At the end of a regulator's window, under a profile, each partition's window passes the bytes
asked for up to LIMIT's last granule, counts what passed above GUAR to the guard's epoch and holds the rest over, which ESC_REGSTAT counts.
An epoch of the enabled guard shows every p99, halves the limits of the aggressor of every victim, or with no victim counts a calm epoch, of
which the tenth relaxes; halved limits go no lower than GUAR and a quarter of the profile's. A SWAP by partition 0 shows its result and is
staged where it is not refused; the end of its spare's test swaps the engine or makes the slot read FAULT with the spare marked failed. A
firewall region written by partition 0 takes the value in BOOT at once, goes to staging where its partitions are stopped, and is otherwise
ignored with LOCKED set; written by another initiator it is a bus error. The model's readings and choices here: the bytes that a window
holds over (log entry 97), the choice of the aggressor (log entry 47), the layout of the guard's event (log entry 100), where a failed spare
shows (log entry 102), and how firewall regions are staged (log entry 23). -/
def Obligations.SharingCommands : Prop :=
  (∀ (s : State) (x : Regulated), s.dev.settings.isSome = true → exec (.regulatorWindow x) s = .next ((List.range 64).foldl (fun t p =>
    t.endWindow x.dram p (((x.harts.filter (fun e => e.1 == p)).map (·.2)).sum)) s)) ∧
  (∀ (s : State) (dram : Bool) (p harts asked : Nat), sparseWf (fun _ => 0) s.traffic = true → sparseWf (fun _ => 0) s.esc.excess = true →
    asked = sparseGet (fun _ => 0) s.traffic (regKey dram p) + harts → ∃ t, t = s.endWindow dram p harts ∧
      (asked ≤ s.windowMost dram p → sparseGet (fun _ => 0) t.traffic (regKey dram p) = 0 ∧
        t.excessOf p = s.excessOf p + (asked - s.guar dram p) ∧ t.regs = s.regs) ∧
      (s.windowMost dram p < asked → sparseGet (fun _ => 0) t.traffic (regKey dram p) = asked - s.windowMost dram p ∧
        t.excessOf p = s.excessOf p + (s.windowMost dram p - s.guar dram p) ∧
        t.regs = (s.addFld (if dram then F.ESC_REGSTAT_DRAM_HELD else F.ESC_REGSTAT_SMEM_HELD) 1 p).regs) ∧ t.mem = s.mem) ∧
  (∀ (s t : State) (victims : List Nat), s.flag F.ESC_GUARD_EN = true →
    t = (List.range 64).foldl (fun u p => u.putFld F.ESC_P99_P99_US (satNat 16 (s.p99Of p)) p) s →
    victims = (List.range 64).filter (fun p => s.fld F.ESC_P99_TARGET_US p != 0 && decide (s.fld F.ESC_P99_TARGET_US p < s.p99Of p)) →
    (∀ u, victims ≠ [] → u = victims.foldl State.guardVictim t →
      exec .guardEpoch s = .next { u with esc := { u.esc with waits := [], excess := [], calm := 0 } }) ∧
    (victims = [] → s.esc.calm < 9 →
      exec .guardEpoch s = .next { t with esc := { t.esc with waits := [], excess := [], calm := s.esc.calm + 1 } }) ∧
    (victims = [] → 9 ≤ s.esc.calm →
      exec .guardEpoch s = .next { t.relax with esc := { t.relax.esc with waits := [], excess := [], calm := 0 } })) ∧
  (∀ (s t : State) (p : Nat) (d : Bool), s.regsWf → t = s.tighten p → t.guar d p = s.guar d p ∧
    t.limit d p = min (s.limit d p) (max (s.guar d p) (max (s.limitBefore d p / 4) (s.limit d p / 2)))) ∧
  (∀ (s : State) (w : RegWrite) (r : Nat), s.p0 w.initiator = true → s.gated .ESC = false →
    r = s.repairRefusal (w.value % 32) (bitsOf w.value 13 8) (w.value.testBit 27) →
    (bitsOf w.value 31 28 = 1 → ∃ t : State, t = s.putFld F.ESC_REPSTAT_RESULT r ∧
      (r ≠ 0 → exec (.escRepairSwap w) s = .next t.accessed) ∧
      (r = 0 → exec (.escRepairSwap w) s = .next ({ t with esc := { t.esc with
        repairs := t.esc.repairs.filter (fun e => e.1 != w.value % 32) ++ [(w.value % 32, bitsOf w.value 13 8, w.value.testBit 27)] } } : State).accessed)) ∧
    (bitsOf w.value 31 28 ≠ 1 → exec (.escRepairSwap w) s = .next s.accessed)) ∧
  (∀ (s t : State) (slot spare : Nat) (persist : Bool), s.esc.repairs.find? (fun e => e.1 == slot) = some (slot, spare, persist) →
    s.unitState fnMe slot = stStarting → t = { s with esc := { s.esc with repairs := s.esc.repairs.filter (fun e => e.1 != slot) } } →
    exec (.meSpareTestDone slot true) s = .next (t.swapEngine slot spare persist) ∧
    exec (.meSpareTestDone slot false) s = .next ((((t.setBitOf F.ESC_DISABLED_FAILED spare true).bumpGen.putFld F.ESC_REPSTAT_RESULT 5).setUnit
      fnMe slot stFault).event 0x05 0x0007 slot)) ∧
  (∀ (s : State) (t k off : Nat) (r : Reg) (w : RegWrite), regionReg off = some r → t < 4 → k < 64 →
    (s.p0 w.initiator = true → s.devState = devBoot → exec (.fwlRegionWrite t k off w) s = .next (s.setReg r (w.value &&& r.params) t k).accessed) ∧
    (s.p0 w.initiator = true → s.devState ≠ devBoot →
      s.regionOpen (s.seen .FWL_RATTR t k) (if r = .FWL_RATTR then w.value &&& r.params else s.seen .FWL_RATTR t k) = true →
      exec (.fwlRegionWrite t k off w) s = .next (s.stageReg r t k (w.value &&& r.params) w.initiator)) ∧
    (s.p0 w.initiator = true →
      s.regionOpen (s.seen .FWL_RATTR t k) (if r = .FWL_RATTR then w.value &&& r.params else s.seen .FWL_RATTR t k) = false →
      exec (.fwlRegionWrite t k off w) s = .next (s.setFlag F.FWL_DENY_LOCKED).accessed) ∧
    (s.p0 w.initiator = false → exec (.fwlRegionWrite t k off w) s = .next s.busErr))

/-- General DMA, hotspots, re-weave and scrubs (R118, R129, R137, R138, R139, R141, R142, R144, R149, spec/04_engine_complex_and_memory.md).
GO of partition 0 on a channel of firmware that is not busy starts a transfer, or completes one of length 0; on any other channel it changes
nothing. The end of a transfer whose bytes are all permitted has moved them in ascending order and signals; a denied byte or an
uncorrectable error leaves the bytes before it and shows the cause, and one whose source is under scrub waits. At an occupancy window errors
that ECC corrected and that the patrol scrub met are counted, and a hot channel is reported (that they come with the window is the model's
reading, log entry 94). A write of MEMC_RW_CTL by partition 0 frees blocked regions with CLEAR_ECC_BLOCK; while a re-weave runs ABORT stops
it, and else START starts one of a region that may be re-woven. The end of a re-weave swaps the region's frame and key and makes its old
frame the reserve; an abort leaves every region's frame. A scrub's end completes the reads that waited for it. A channel's end as one
effect, in the order of its bytes, is the model's reading (log entry 36), and that GO of length 0 ends at once with DMA_DONE's state as
shown (log entry 98). What DATA of the events holds is the model's choice (log entry 100), as is that a transfer takes its registers as they
stand at its end (log entry 108). -/
def Obligations.MemoryCommands : Prop :=
  (∀ (s t : State) (c v : Nat) (w : RegWrite), c < 16 → s.p0 w.initiator = true → s.gated .DMA = false → v = withBit w.value 31 →
    t = s.setReg .DMA_CTL (2 ^ 22 * bitsOf v 30 22 + v % 2 ^ 16) c →
    (s.fwChannel c = false ∨ s.fld F.DMA_STAT_STATE c = 1 → exec (.dmaGo c w) s = .next s.accessed) ∧
    (s.fwChannel c = true → s.fld F.DMA_STAT_STATE c ≠ 1 → s.dmaLen c = 0 →
      exec (.dmaGo c w) s = .next ((t.dmaEnd c 0 2 0 csDone).dmaSignal c).accessed) ∧
    (s.fwChannel c = true → s.fld F.DMA_STAT_STATE c ≠ 1 → s.dmaLen c ≠ 0 → exec (.dmaGo c w) s =
      .next (((t.setReg .DMA_DONE 0 c).putFld F.DMA_STAT_STATE 1 c).putFld F.DMA_STAT_CAUSE 0 c).accessed)) ∧
  (∀ (s : State) (c : Nat) (t : State), c < 16 → s.fld F.DMA_STAT_STATE c = 1 →
    (s.dmaWaits c = true → exec (.dmaDone c) s = .next s) ∧
    (s.dmaWaits c = false → dmaMove c (s.dmaLen c) 0 (s.keyed (initiator 5 (s.fld F.DMA_CTL_PARTITION c))) = (t, none) →
      exec (.dmaDone c) s = .next ((t.dmaEnd c (s.dmaLen c) 2 0 csDone).dmaSignal c))) ∧
  (∀ (s : State) (c m j : Nat) (t : State), c < 16 → s.fld F.DMA_STAT_STATE c = 1 →
    dmaMove c (s.dmaLen c) 0 (s.keyed (initiator 5 (s.fld F.DMA_CTL_PARTITION c))) = (t, some j) →
    exec (.dmaFault c m false) s = .next ((t.dmaDeny c j).dmaEnd c j 3 0x07 csEngine)) ∧
  (∀ (s : State) (c m : Nat) (t : State), c < 16 → s.fld F.DMA_STAT_STATE c = 1 →
    (∀ j, dmaMove c (min m (s.dmaLen c - 1)) 0 (s.keyed (initiator 5 (s.fld F.DMA_CTL_PARTITION c))) = (t, some j) →
      exec (.dmaFault c m true) s = .next ((t.dmaDeny c j).dmaEnd c j 3 0x07 csEngine)) ∧
    (s.flag F.DMA_CTL_FILL c = false →
      dmaMove c (min m (s.dmaLen c - 1)) 0 (s.keyed (initiator 5 (s.fld F.DMA_CTL_PARTITION c))) = (t, none) →
      exec (.dmaFault c m true) s = .next ((t.uncorrectable (s.dmaSrc c (min m (s.dmaLen c - 1))) c (s.fld F.DMA_CTL_PARTITION c)).dmaEnd c
        (min m (s.dmaLen c - 1)) 3 0x09 csEcc))) ∧
  (∀ (s t u : State) (x : Occupancy), t = (x.corrected.foldl State.corrected s).patrol x.uncorrected →
    t.fnUsable fnDram = true → u = (t.countWindow (t.occOf x) x.requests).showOcc (t.occOf x) →
    (u.hotChannel (t.occOf x) = none → exec (.occupancyWindow x) s = .next u) ∧
    (∀ c, u.hotChannel (t.occOf x) = some c → exec (.occupancyWindow x) s = .next (u.hotspot c))) ∧
  (∀ (s t : State) (w : RegWrite) (c : Instr) (b v : Nat), (c, b) ∈ [(Instr.reweaveStart w, 31), (.reweaveAbort (.firmware w), 30), (.clearEccBlock w, 29)] →
    s.p0 w.initiator = true → s.gated .MEMC = false → v = withBit w.value b → t = (if v.testBit 29 then s.clearEccBlock else s) →
    (s.fld F.MEMC_RW_STAT_STATE ≠ 0 → v.testBit 30 = true → exec c s = .next (t.abortReweave 3).accessed) ∧
    (s.fld F.MEMC_RW_STAT_STATE ≠ 0 → v.testBit 30 = false → exec c s = .next t.accessed) ∧
    (s.fld F.MEMC_RW_STAT_STATE = 0 → (v.testBit 31 && t.mayReweave (v % 256)) = true → exec c s = .next (t.startReweave (v % 256)).accessed) ∧
    (s.fld F.MEMC_RW_STAT_STATE = 0 → (v.testBit 31 && t.mayReweave (v % 256)) = false → exec c s = .next t.accessed)) ∧
  (∀ (s : State) (c n : Nat), s.regsWf → (s.abortReweave c).fld F.MEMC_REGION_FRAME n = s.fld F.MEMC_REGION_FRAME n ∧
    (n < 192 → s.clearEccBlock.flag F.MEMC_REGION_ECC_BLOCKED n = false)) ∧
  (∀ s : State, s.regsWf → s.fld F.MEMC_RW_STAT_STATE = 1 → sparseWf (fun _ => 0) s.memc.keys = true → ∃ t, exec .reweaveDone s = .next t ∧
    t.fld F.MEMC_REGION_FRAME (s.fld F.MEMC_RW_STAT_REGION) = s.fld F.MEMC_RW_STAT_TO_FRAME % 256 ∧
    t.fld F.MEMC_CAP_RESERVE_FRAME = s.fld F.MEMC_RW_STAT_FROM_FRAME % 256 ∧ t.fld F.MEMC_RW_STAT_STATE = 0 ∧
    t.regionKey (s.fld F.MEMC_RW_STAT_REGION) = s.memc.newKey ∧ t.mem = s.mem) ∧
  (∀ s : State, s.fld F.MEMC_RW_STAT_STATE ≠ 0 → exec (.reweaveAbort .ecc) s = .next ((s.uncorrectable (0x1000000000 +
    2 ^ 30 * s.fld F.MEMC_RW_STAT_REGION + s.reg .MEMC_RW_PTR) 0 0).abortReweave 1)) ∧
  (∀ s : State, s.fnState fnDram = stDraining → exec (.reweaveAbort .fnStop) s = .next (s.abortReweave 2)) ∧
  (∀ (s t : State) (g : Nat), t = { s with scrub := s.scrub.filter (fun x => x != g) } → exec (.smemScrubDone g) s =
    .next ((t.cq.flight.filter (fun f => f.cls == 2 && f.code == 2 && f.status.isNone && !f.reads.isEmpty &&
      f.reads.all (fun e => !t.scrubbing (t.localAddr e.1) e.2))).foldl (fun u f => u.complete f.id csDone f.len f.ext) t).endReads)

/-- Register accesses by packet, by bus and by PCIe, and LOG_READ (R42, R57, R96, R97, R98, R490, R491, R460,
spec/03_command_packets_queues_and_sync.md). A STATUS_READ that starts returns the words of its range, and a LOG_READ the records selected,
with their number and the place of the first, or a free value where none is. A register write at an unaligned address, or where no block is,
is a bus error and changes nothing else; one of a register by an initiator that may not write it, or in a gated block, is a bus error; any
other goes to the staging copy where its target reads STOPPED and the register has parameters, and is the register's own write else. A
request that reaches a usable FN_PCIE is answered: reads and writes from downstream by the root port's windows, reads and writes of the BARs
of a function that answers by the endpoint, every other as an Unsupported Request; an error is counted, and a power state and the LTSSM's
state are shown. The model's choices and readings here: offsets without a register (log entry 25), the width of a write (log entry 26),
registers without parameters (log entry 90), what PCIe requests reach (log entry 28) and what the PCI Express specification gives (log entry
92, PRESUMED), and LOG_READ of nothing (log entry 30). -/
def Obligations.RegisterCommands : Prop :=
  (∀ (s : State) (p : Packet), s.starts (statusReadRule p s) p = true → exec (.statusRead p) s =
    .next (s.ran (statusReadRule p s) p (fun id t =>
      (readRange (initiator 6 p.partition) 1024 p.target (statusLen p) t).2.finish id csDone (statusLen p)
        (readRange (initiator 6 p.partition) 1024 p.target (statusLen p) t).1))) ∧
  (∀ (s : State) (p : Packet), s.starts (logReadRule p) p = true →
    (∀ l e m, l = e :: m →
      ((s.entered (logReadRule p) p).logChosen (pNum p 6 1) (pNum p 0 4) (pNum p 8 2) p.partition).take (pNum p 4 2) = l →
      exec (.logRead p) s = .next (s.ran (logReadRule p) p (fun id t => t.finish id csDone (65536 * e.1 + l.length) (l.flatMap (·.2))))) ∧
    (((s.entered (logReadRule p) p).logChosen (pNum p 6 1) (pNum p 0 4) (pNum p 8 2) p.partition).take (pNum p 4 2) = [] →
      exec (.logRead p) s = .next (s.ran (logReadRule p) p (fun id t => t.drawFree.finish id csDone (65536 * t.freeNat 32))))) ∧
  (∀ (s : State) (a : Nat) (w : RegWrite), a % 4 ≠ 0 ∨ s.blockHere a = false → ∃ t, exec (.registerWrite a w) s = .next t ∧
    t.busError = true ∧ t.regs = s.regs ∧ t.mem = s.mem ∧ t.cq = s.cq) ∧
  (∀ (s : State) (a i j off v lanes : Nat) (b : Block) (r : Reg) (w : RegWrite), a % 4 = 0 → s.blockHere a = true → blockOf a = some b →
    findReg a = some (r, i, j, off) → lanes = (2 ^ (8 * (r.info.width / 8 - off)) - 1) * 256 ^ off &&& (2 ^ r.info.width - 1) →
    v = mixBits (s.seen r i j) (w.value * 256 ^ off) lanes →
    (s.mayWrite r i w.initiator = false ∨ s.gated r.info.block = true → exec (.registerWrite a w) s = .next s.busErr) ∧
    (s.mayWrite r i w.initiator = true → s.gated r.info.block = false →
      ((s.regStopped r i && r.params != 0 && !stagesItself.contains r) = true →
        exec (.registerWrite a w) s = .next (s.plainStage r i j v lanes w.initiator)) ∧
      ((s.regStopped r i && r.params != 0 && !stagesItself.contains r) = false →
        exec (.registerWrite a w) s = .next (s.ownWrite r i j v lanes w)))) ∧
  (∀ (s t : State) (root : Bool), s.fnUsable fnPcie = true → root = (s.flag F.PCIE_CFG_ROLE && s.devState != devHeld) → t = s.acceptFn fnPcie →
    (∀ a n, root = true → exec (.pcieInbound (.read a n)) s = .next (t.portRead a n)) ∧
    (∀ a data, root = true → exec (.pcieInbound (.write a data)) s = .next (t.portWrite a data)) ∧
    (∀ a n data, root = false → exec (.pcieInbound (.read a n)) s = .next t.unsupported ∧
      exec (.pcieInbound (.write a data)) s = .next t.unsupported) ∧
    (∀ f bar o n, root = false → s.pcieAnswers f = true → o + n ≤ barSize f bar → ∃ u,
      u = t.answered ((List.range n).map (fun k => t.barByte f bar (o + k))) ∧
      (bar ≠ 2 → exec (.pcieInbound (.barRead f bar o n)) s = .next u) ∧
      (bar = 2 → exec (.pcieInbound (.barRead f bar o n)) s = .next { u with free := u.free + barSize f bar })) ∧
    (∀ f bar o data, root = false → s.pcieAnswers f = true → o + data.length ≤ barSize f bar →
      exec (.pcieInbound (.barWrite f bar o data)) s = .next (t.barWrite f bar o data)) ∧
    (∀ f bar o n data, root = true ∨ s.pcieAnswers f = false →
      exec (.pcieInbound (.barRead f bar o n)) s = .next t.unsupported ∧ exec (.pcieInbound (.barWrite f bar o data)) s = .next t.unsupported) ∧
    (∀ e n, exec (.pcieInbound (.error e)) s = .next (s.addFld (pcieErrFld e) 1) ∧
      exec (.pcieInbound (.ltssm n)) s = .next (s.putFld F.PCIE_LSTAT_LTSSM n)) ∧
    (∀ f d, exec (.pcieInbound (.power f d)) s = .next { s with dev := { s.dev with
      d3hot := s.dev.d3hot.filter (fun g => g != f) ++ if d && s.pcieFn f then [f] else [] } })) ∧
  (∀ (t : State) (f o q : Nat) (data : List Byte), o < 0x8000 → o % 4 = 0 → data.length = 4 → (t.pcieQueues f)[o / 4]? = some q →
    t.barWrite f 0 o data = t.doorbell q (leNat data) (initiator 8 (t.pciePart f)))

/-- The instructions of a Matrix Engine's kernel (R151, R152, R153, R155, R156, R158, R171, R175, R177,
spec/05_matrix_engines_and_number_formats.md). Each command brings the next instruction of a kernel that runs in a slot; the OP of its row
takes its effect. Where that raises no cause, the bubbles and busy cycles are counted and the stream goes to the next instruction; where it
raises one, they are counted, ME_FAULT records it and the kernel ends. An OP that Table ME-1 does not list is an illegal opcode; an
uncorrectable error of memory or of the store takes the place of the effect, and one of an appending kernel's access is shown in ADMA_FAULT
too; an instruction whose reads meet a granule under scrub waits. BAR and NOP whose other fields are zero do nothing else; a legal DCF
without EWP takes its word as the drain configuration; END of a kernel with no open block zeroes the stores and ends the kernel. The model's
readings and choices here: which OP decides and the order of the faults (log entry 42), and the corners of drains and columns (log entry
109). -/
def Obligations.MatrixEngineInstructions : Prop :=
  (∀ (c : MeStep → Instr) (op : Nat) (b : Nat → Kernel → Nat → State → Run),
    (c = .meNop ∧ op = 0 ∧ b = fun _ _ => plainBody) ∨ (c = .ldt ∧ op = 1 ∧ b = ldtBody) ∨ (c = .str ∧ op = 2 ∧ b = strBody) ∨
      (c = .dcf ∧ op = 3 ∧ b = dcfBody) ∨ (c = .drn ∧ op = 4 ∧ b = drnBody) ∨ (c = .acl ∧ op = 5 ∧ b = aclBody) ∨
      (c = .bar ∧ op = 6 ∧ b = fun _ _ => plainBody) ∨ (c = .endStream ∧ op = 0x3F ∧ b = endBody) →
    ∀ (s u : State) (m : MeStep) (k : Kernel), s.kernelOn 0 m.slot = some k → k.status = none → bitsOf (m.word % 2 ^ 128) 31 26 = op →
      (m.ecc = .none ∧ u = s.keyed (initiator 1 k.partition)) ∨
        (m.ecc = .storeCorrected ∧ u = (s.keyed (initiator 1 k.partition)).addFld F.ME_ECC_CE 1 m.slot) ∨
        (∃ a q, m.ecc = .append a q ∧ ((s.meSt m.slot).stages.getD []).any (fun w => stOp w == 0x0D) = false ∧
          u = s.keyed (initiator 1 k.partition)) →
      (∀ t v, b m.slot k (m.word % 2 ^ 128) u = (t, none) → v = t.meTiming m →
        exec (c m) s = .next (s.settled (v.setSt m.slot { v.meSt m.slot with pc := (v.meSt m.slot).pc + 1 }))) ∧
      (∀ t cause, b m.slot k (m.word % 2 ^ 128) u = (t, some cause) →
        exec (c m) s = .next (s.settled ((t.meTiming m).meFault m.slot k cause)))) ∧
  (∀ s t : State, (t.scrubHit = true → s.settled t = s) ∧ (t.scrubHit = false → s.settled t = t)) ∧
  (∀ (c : MeStep → Instr) (s u : State) (m : MeStep) (k : Kernel), c ∈ [Instr.meNop, .ldt, .str, .dcf, .drn, .acl, .bar, .endStream] →
    s.kernelOn 0 m.slot = some k → k.status = none → s.scrubHit = false → u = s.keyed (initiator 1 k.partition) →
    (meListed (bitsOf (m.word % 2 ^ 128) 31 26) = false → m.ecc = .none → exec (c m) s = .next ((u.meTiming m).meFault m.slot k 0x01)) ∧
    (∀ a, m.ecc = .memory a →
      exec (c m) s = .next (((u.uncorrectable a m.slot k.partition).meTiming m).meFault m.slot k 0x09)) ∧
    (∀ a q, m.ecc = .append a q → ((s.meSt m.slot).stages.getD []).any (fun w => stOp w == 0x0D) = true → exec (c m) s =
      .next ((((u.uncorrectable a m.slot k.partition).admaFault (m.slot % 8) 0x09 k.partition q).meTiming m).meFault m.slot k 0x09)) ∧
    (m.ecc = .storeUncorrectable → exec (c m) s = .next (((u.addFld F.ME_ECC_UE 1 m.slot).meTiming m).meFault m.slot k 0x08))) ∧
  (∀ (s : State) (m : MeStep) (k : Kernel), s.kernelOn 0 m.slot = some k → k.status = none → s.scrubHit = false → m.ecc = .none →
    plainWord (m.word % 2 ^ 128) = true → m.slot < s.me.stores.length →
    (bitsOf (m.word % 2 ^ 128) 31 26 = 6 → ∃ t, exec (.bar m) s = .next t ∧ (t.meSt m.slot).pc = (s.meSt m.slot).pc + 1 ∧ t.mem = s.mem) ∧
    (bitsOf (m.word % 2 ^ 128) 31 26 = 0 → ∃ t, exec (.meNop m) s = .next t ∧ (t.meSt m.slot).pc = (s.meSt m.slot).pc + 1 ∧ t.mem = s.mem)) ∧
  (∀ (s u v : State) (m : MeStep) (k : Kernel), s.kernelOn 0 m.slot = some k → k.status = none → m.ecc = .none →
    s.scrubHit = false → bitsOf (m.word % 2 ^ 128) 31 26 = 3 → dcfBad (m.word % 2 ^ 128) = false → dcfEwp (m.word % 2 ^ 128) = false →
    u = s.keyed (initiator 1 k.partition) → v = (u.setSt m.slot { u.meSt m.slot with dcf := m.word % 2 ^ 128 }).meTiming m →
    exec (.dcf m) s = .next (v.setSt m.slot { v.meSt m.slot with pc := (v.meSt m.slot).pc + 1 })) ∧
  (∀ (s u v : State) (m : MeStep) (k : Kernel), s.kernelOn 0 m.slot = some k → k.status = none → m.ecc = .none →
    s.scrubHit = false → bitsOf (m.word % 2 ^ 128) 31 26 = 0x3F → plainWord (m.word % 2 ^ 128) = true → u = s.keyed (initiator 1 k.partition) →
    (u.meSt m.slot).block = none →
    v = ((u.zeroStore m.slot).endKernel k.id (if (u.meSt m.slot).clamped then csClamped else csDone)).meTiming m →
    exec (.endStream m) s = .next (v.setSt m.slot { v.meSt m.slot with pc := (v.meSt m.slot).pc + 1 }))

/-- Scan kernels, stream swaps and pinned columns (R192, R195, R196, R197, R198, R199, R200, R201,
spec/06_element_wise_and_recurrent_state.md). A Scan Engine's kernel of the command's mode ends with FAULT_ENGINE where its descriptor is
bad or its sequence list denied; it waits while a stream of it does; with a stream that cannot come back its slot is exhausted; else it
runs, and its run's fault or end sets the kernel's status. A stream that has rested, or whose slot its partition needs, and that is neither
pinned nor locked is swapped out, and a swapped one takes a free slot again. A PIN or UNPIN by partition 0, while no request waits, takes
the request as written; one while a request waits changes nothing. A run that reads a granule under scrub waits. That a kernel of one
command commits at its end, the place of a swapped stream and the stream taken for a slot are the model's readings (log entry 44). -/
def Obligations.ScanCommands : Prop :=
  (∀ (c : ScanRun → Instr) (mode : Nat), (c, mode) ∈ [(Instr.scanChunk, 0), (.scanStep, 1), (.scanCombine, 2)] →
    ∀ (s u : State) (r : ScanRun) (k : Kernel), s.running 1 r.engine = some k →
      (if k.scan.mode = 1 ∨ k.scan.mode = 2 then k.scan.mode else 0) = mode → u = s.keyed (initiator 2 k.partition) →
      (k.scan.bad = true → exec (c r) s = .next ((u.scanFault r.engine 0x02 0).endKernel k.id csEngine)) ∧
      (k.scan.bad = false → mode = 2 → ∃ o, o = u.combine r k.scan k ∧
        exec (c r) s = .next (s.settled ((State.endRun o.1 k (fun t c => t.scanFault r.engine c o.2)).addReg .SCAN_BUSY 64 r.cycles r.engine))) ∧
      (k.scan.bad = false → mode ≠ 2 →
        (u.memOk (initiator 2 k.partition) (k.scanRef 0x10) (4 * k.scan.batch) false = false → exec (c r) s =
          .next (((u.recordDenial (initiator 2 k.partition) (k.scanRef 0x10) (4 * k.scan.batch) false).scanFault r.engine 0x07 0).endKernel
            k.id csEngine)) ∧
        (u.memOk (initiator 2 k.partition) (k.scanRef 0x10) (4 * k.scan.batch) false = true → u.scanWaits k k.scan = true →
          exec (c r) s = .next u) ∧
        (u.memOk (initiator 2 k.partition) (k.scanRef 0x10) (4 * k.scan.batch) false = true → u.scanWaits k k.scan = false →
          (∀ q, u.scanLost k k.scan = some q → s.scrubHit = false → exec (c r) s = .next ((((u.stepFault k.partition q).scanFault r.engine 0x11 q).endKernel
            k.id csEngine).addReg .SCAN_BUSY 64 r.cycles r.engine)) ∧
          (u.scanLost k k.scan = none → ∃ o, o = scanBatch r k.scan k (List.range k.scan.batch) u ∧
            exec (c r) s = .next (s.settled ((State.endRun o.1 k (fun t c => t.scanFault r.engine c o.2)).addReg .SCAN_BUSY 64 r.cycles
              r.engine)))))) ∧
  (∀ (s : State) (p q : Nat) (x : Stream), s.stream? p q = some x → x.slot.isSome = true → x.pin = none → x.lock = none →
    (s.reg .SCAN_SWAPCFG ≠ 0 ∧ x.used + 1000 * s.reg .SCAN_SWAPCFG ≤ s.dev.nowNs) ∨ (s.freeSlot p = none ∧ s.victim p = some x) →
    exec (.scanSwapOut p q) s = .next (s.swapOut x)) ∧
  (∀ (s : State) (p q : Nat) (x : Stream), s.stream? p q = some x → x.slot = none → x.pin = none →
    (∀ k t, s.takeSlot p = some (k, t) → exec (.scanSwapIn p q) s = .next (t.swapIn x k)) ∧
    (s.takeSlot p = none → exec (.scanSwapIn p q) s = .next s)) ∧
  (∀ (s : State) (w : RegWrite), s.p0 w.initiator = true → s.gated .SCAN = false →
    (s.flag F.SCAN_PINSTAT_BUSY = false →
      exec (.pin w) s = .next ((s.setReg .SCAN_PINCTL (2 ^ 60 * 1 + w.value % 2 ^ 60)).doPin).accessed ∧
      exec (.unpin w) s = .next ((s.setReg .SCAN_PINCTL (2 ^ 60 * 2 + w.value % 2 ^ 60)).doPin).accessed) ∧
    (s.flag F.SCAN_PINSTAT_BUSY = true → exec (.pin w) s = .next s.accessed ∧ exec (.unpin w) s = .next s.accessed))

/-- The KV packets that start (R212, R213, R216, R229, R232, R234, R239, R240, spec/07_attention_and_kv_cache.md). KV_CREATE of a FREE
sequence creates it, one of a TERMINATED sequence completes KV_TERMINATED and any other REJECTED_STATE. KV_ATTACH of a TERMINATED sequence
completes KV_TERMINATED, of one that cannot take it REJECTED_STATE, of one that uses the tree it attaches the blocks that match, and of any
other it is DONE with RESULT 0. KV_STEP takes its entries, writes row map, mask and status and reports the numbers admitted, refused and
popped, with DONE_CLAMPED where one was refused; KV_COMMIT inserts the rows' blocks; KV_FREE of a sequence that is FREE, IN_STEP or being
copied completes REJECTED_STATE, and of any other the sequence becomes FREE, an ACTIVE or PARKED one with its blocks and ring released;
KV_QUERY returns the entry. Which free node a block takes is the model's choice (log entry 45). -/
def Obligations.KvPackets : Prop :=
  (∀ (s : State) (p : Packet) (r : Rule) (n : Nat), r = kvCreateRule p s → s.starts r p = true →
    n = (s.entered r p).seqState p.partition p.target →
    (n = 0 → exec (.kvCreate p) s = .next (s.ran r p (kvCreateBody p))) ∧
    (n = 4 → exec (.kvCreate p) s = .next (s.ran r p (fun id t => t.finish id csTerminated 0))) ∧
    (n ≠ 0 → n ≠ 4 → exec (.kvCreate p) s = .next (s.ran r p (fun id t => t.finish id csState 0)))) ∧
  (∀ (s u : State) (p : Packet) (r : Rule), r = kvRule 2 p s (kvAttachFormat p) → s.starts r p = true → u = s.entered r p →
    (u.seqState p.partition p.target = 4 → exec (.kvAttach p) s = .next (s.ran r p (fun id t => t.finish id csTerminated 0))) ∧
    (u.seqState p.partition p.target ≠ 4 → kvAttachOk p u = false →
      exec (.kvAttach p) s = .next (s.ran r p (fun id t => t.finish id csState 0))) ∧
    (u.seqState p.partition p.target ≠ 4 → kvAttachOk p u = true → u.usesTree p.partition p.target = true → exec (.kvAttach p) s =
      .next (s.ran r p (fun id t =>
        let a := attachBlocks p.partition p.target (pNum p 0 4 / t.layP (t.seqLayout p.partition p.target))
          (bytesAt p.payload 32 (4 * pNum p 0 4)) t
        a.1.finish id csDone a.2))) ∧
    (u.seqState p.partition p.target ≠ 4 → kvAttachOk p u = true → u.usesTree p.partition p.target = false → exec (.kvAttach p) s =
      .next (s.ran r p (fun id t => t.finish id csDone 0)))) ∧
  (∀ (s : State) (p : Packet), s.starts (kvStepRule p) p = true → exec (.kvStep p) s =
    .next (s.ran (kvStepRule p) p (fun id t =>
      let r := stepAll p (List.range (stepCount p)) ({}, t)
      let u := r.2.writeBytes (pNum p 8 8) (padTo 1024 (r.1.rows.flatMap (toLe 8)))
      ((u.writeNum (pNum p 0x10 8) 16 (maskOf r.1.rows)).writeBytes (pNum p 0x18 8) (r.1.status.map (BitVec.ofNat 8))).finish id
        (if r.1.refused = 0 then csDone else csClamped) (r.1.admitted + 2 ^ 16 * r.1.refused + 2 ^ 32 * r.1.popped)))) ∧
  (∀ (s : State) (p : Packet), s.starts (kvCommitRule p) p = true → exec (.kvCommit p) s =
    .next (s.ran (kvCommitRule p) p (fun id t => (commitRows p.partition p.target (List.range 128) t).1.finish id csDone
      (commitRows p.partition p.target (List.range 128) t).2))) ∧
  (∀ (s u : State) (p : Packet) (r : Rule) (n : Nat), r = kvRule 5 p s (p.plen == 0) → s.starts r p = true → u = s.entered r p →
    n = u.seqState p.partition p.target →
    (n = 0 ∨ u.seqFlag p.partition p.target 2 = true ∨ u.seqFlag p.partition p.target 4 = true →
      exec (.kvFree p) s = .next (s.ran r p (fun id t => t.finish id csState 0))) ∧
    (u.seqFlag p.partition p.target 2 = false → u.seqFlag p.partition p.target 4 = false →
      (n = 1 ∨ n = 2 → exec (.kvFree p) s =
        .next (s.ran r p (fun id t => ((((t.freeSeq p.partition p.target).1.seqPut p.partition p.target 0 1 0).unpark
          p.partition p.target).dropCopy p.partition p.target).finish id csDone (t.freeSeq p.partition p.target).2))) ∧
      (n ≠ 0 → n ≠ 1 → n ≠ 2 → exec (.kvFree p) s =
        .next (s.ran r p (fun id t => (((t.seqPut p.partition p.target 0 1 0).unpark p.partition p.target).dropCopy
          p.partition p.target).finish id csDone 0))))) ∧
  (∀ (s : State) (p : Packet), s.starts (kvQueryRule p s) p = true → exec (.kvQuery p) s =
    .next (s.ran (kvQueryRule p s) p (fun id t => t.finish id csDone (t.seqState p.partition p.target)
      (t.sysBytes (t.seqAddr p.partition p.target) 64))))

/-- Gathers, the page manager, swaps, pushes and layouts (R205, R207, R223, R227, R237, R238, R239, R220,
spec/07_attention_and_kv_cache.md). A gather kernel of the command's mode runs and its fault or end sets its status. The page manager visits
every parked sequence, oldest first; a parked sequence whose time is up and whose demand would not be granted is terminated, and one whose
demand would be granted, or whose time is not up, is not. A copy under way that completes leaves the sequence swapped, with its pages
released and their places named; one that has no places, or whose transfer is denied, ends and leaves the sequence as it is. A sequence
asked in takes its pages back where R226 grants them, and stays swapped where it does not or where a transfer is denied. A page pushed by
partition 0 is pushed by R227. A layout that is legal and unused takes its value, or its staging copy, and any other write sets the flag.
The model's choices here: when swaps begin and the order of the manager (log entry 45), and the places and failures of a swap's copy (log
entry 101). -/
def Obligations.KvEngineCommands : Prop :=
  (∀ (s : State) (x : GatherRun) (k : Kernel), s.running 2 x.engine = some k → ∃ u, u = s.keyed (initiator 3 k.partition) ∧
    (k.gather.mode = 1 → exec (.gatherVt x) s = .next (s.settled (State.endRun (u.gatherBody x k k.gather) k
      (fun t c => t.admaFault x.engine c k.partition (u.rowEntry (k.gatherRef 0x10) k.gather.row).seq)))) ∧
    (k.gather.mode ≠ 1 → exec (.gatherK x) s = .next (s.settled (State.endRun (u.gatherBody x k k.gather) k
      (fun t c => t.admaFault x.engine c k.partition (u.rowEntry (k.gatherRef 0x10) k.gather.row).seq))))) ∧
  (∀ s : State, exec .pageManagerRun s = .next ((s.kv.parked.foldl s.byParkTime []).foldl State.manage s) ∧
    (s.kv.parked = [] → exec .pageManagerRun s = .next s)) ∧
  (∀ (s t : State) (p q : Nat), s.seqExists p q = true → s.seqState p q = 2 → s.kv.parked.contains (p, q) = true →
    t = { s with due := s.due.erase (.kvTermination p q) } →
    (s.parkedOut p q = true → s.grants p (s.seqDemand p q) = false → exec (.kvTermination p q) s = .next (t.terminate p q)) ∧
    (s.parkedOut p q = false ∨ s.grants p (s.seqDemand p q) = true → exec (.kvTermination p q) s = .next t)) ∧
  (∀ (s : State) (p q : Nat), s.seqExists p q = true → s.seqState p q = 1 ∨ s.seqState p q = 2 → s.seqFlag p q 4 = true → s.seqFlag p q 2 = false →
    (s.freePlaces p (s.seqPages p q).length = none → exec (.kvSwapOut p q) s = .next (s.seqSetFlag p q 4 false)) ∧
    (∀ (places : List Nat) (r : State × Bool), s.freePlaces p (s.seqPages p q).length = some places →
      r = swapPages p true ((s.seqPages p q).zip places) s →
      (r.2 = false → exec (.kvSwapOut p q) s = .next (r.1.seqSetFlag p q 4 false)) ∧
      (r.2 = true → ∃ t, t = (((((r.1.freeSeq p q).1.seqSetFlag p q 4 false).seqPut p q 0 1 3).unpark p q).dropCopy p q) ∧
        exec (.kvSwapOut p q) s = .next (({ t with kv := { t.kv with
          swapped := t.kv.swapped ++ [(p, q, places)] } } : State).dataEvent 0x06 0x0004 q p)))) ∧
  (∀ (s : State) (p q asked : Nat) (places : List Nat), s.kv.swapped.find? (fun e => e.1 == p && e.2.1 == q) = some (p, q, places) →
    s.askedAt p q = some asked → s.seqState p q = 3 →
    (s.grants p places.length = false → exec (.kvSwapIn p q) s = .next s) ∧
    (∀ (r : List Nat × State) (m : State × Bool), s.grants p places.length = true → r = State.popPages p places.length s →
      m = swapPages p false (r.1.zip places) r.2 →
      (m.2 = false → exec (.kvSwapIn p q) s = .next (pushPages p r.1.reverse m.1).1) ∧
      (m.2 = true → exec (.kvSwapIn p q) s =
        .next ((((((m.1.restorePages p q r.1).seqSetFlag p q 3 true).seqPut p q 0x1C 4 noneWord).dropCopy p q).park p q asked).dataEvent
          0x06 0x0005 q p)))) ∧
  (∀ (s : State) (w : RegWrite), s.p0 w.initiator = true → s.gated .ADMA = false →
    exec (.admaPush w) s = .next (s.pushPage (w.value % 2 ^ 32)).accessed) ∧
  (∀ (s : State) (n : Nat) (w : RegWrite), s.p0 w.initiator = true → s.gated .ADMA = false → n < 64 →
    (s.layoutOk (w.value % 2 ^ 64) = true → s.layoutUsed n = false → exec (.admaLayoutWrite n w) s =
      .next (s.paramWrite true .ADMA_LAYOUT n 0 (w.value % 2 ^ 64) w.initiator (s.setReg .ADMA_LAYOUT (w.value % 2 ^ 64) n))) ∧
    (s.layoutOk (w.value % 2 ^ 64) = false ∨ s.layoutUsed n = true → exec (.admaLayoutWrite n w) s =
      .next (s.setFlag F.ADMA_STATUS_LAYOUT).accessed))

/-- Vision jobs as packets, on their units, and in the overflow library (R246, R248, R253, R254, R261, R148,
spec/08_vision_operators_and_preprocessing.md). A VIS_RUN that starts enters its job in the operation table as a ready kernel of its own
flight. A job that runs on a unit of its class runs to its end or fault there, or ends with the memory error that it met; one that reads a
granule under scrub waits. The overflow library of a partition that runs completes the job that was routed first, with the status that its
run gave. That a job is one command, judged row by row, and a sample outside its source free where no edge rule gives it, is the model's
reading (log entry 46), and a UNIT above 2 taken by an Edge Engine its choice (log entry 104). -/
def Obligations.VisionCommands : Prop :=
  (∀ (s : State) (p : Packet), s.starts (visRunRule p s) p = true → exec (.visRun p) s =
    .next (s.ran (visRunRule p s) p (fun id t =>
      let a := t.subAddr p.queue ((t.reg .CMDQ_QHEAD p.queue + 2 ^ 32 - pSlots p) % 2 ^ 32 + 1)
      let k : Kernel := { id := t.esc.nextId, queue := p.queue, seq := p.seq % 2 ^ 32, partition := p.partition,
                          context := (t.ctxOf p.partition p.queue).getD 0, addr := a,
                          desc := visRunDesc p a, unitDesc := p.payload, flight := some id }
      ({ t with esc := { t.esc with kernels := t.esc.kernels ++ [k], nextId := t.esc.nextId + 1 } }).makeReady t.esc.nextId))) ∧
  (∀ (s : State) (x : VisRun) (k : Kernel), s.scrubHit = false → ∃ u, u = s.keyed (initiator 4 k.partition) ∧
    (s.running 3 x.unit = some k →
      (x.ecc = none →
        exec (.edgeJob x) s = .next (s.settled (State.finishJob (some (visUnit 3 x.unit)) k ((u.edgeBody k).1, (u.edgeBody k).2, 0)))) ∧
      (∀ a, x.ecc = some a → exec (.edgeJob x) s = .next (State.finishJob (some (visUnit 3 x.unit)) k
        ((u.uncorrectable a (visUnit 3 x.unit) k.partition, some 0x09), 0, 0)))) ∧
    (s.running 4 x.unit = some k →
      (x.ecc = none → exec (.resampleJob x) s = .next (s.settled (State.finishJob (some (visUnit 4 x.unit)) k
        ((u.resampleBody k).1, (u.resampleBody k).2, 0)))) ∧
      (∀ a, x.ecc = some a → exec (.resampleJob x) s = .next (State.finishJob (some (visUnit 4 x.unit)) k
        ((u.uncorrectable a (visUnit 4 x.unit) k.partition, some 0x09), 0, 0)))) ∧
    (s.running 5 x.unit = some k →
      (x.ecc = none → exec (.ppeJob x) s = .next (s.settled (State.finishJob (some (visUnit 5 x.unit)) k (u.ppeBody k)))) ∧
      (∀ a, x.ecc = some a → exec (.ppeJob x) s = .next (State.finishJob (some (visUnit 5 x.unit)) k
        ((u.uncorrectable a (visUnit 5 x.unit) k.partition, some 0x09), 0, 0))))) ∧
  (∀ (s t : State) (part : Nat) (ecc : Option Nat) (k x : Kernel), s.nextRouted part = some k → s.libraryRuns part = true →
    t = (s.keyed (initiator 7 part)).jobRun none k ecc (fun u => u.ppeBody k) → t.esc.kernels.find? (fun x => x.id == k.id) = some x →
    exec (.overflowJobDone part ecc) s = .next (s.settled (t.completeKernel x (x.status.getD csDone) 0)))

/-- Links, members, retraining and link delay (R291, R293, R294, R298, R299, R300, R303, R306, R307,
spec/10_grenlink_sequence_layout_and_determinism.md). An own live port without width comes up by the lanes that trained, a link elsewhere
is up again; an own port with width goes down with an event, and a link elsewhere is named down once. The route of a destination flows
again after REROUTE_DONE. A hello that matches the topology shows the peer, and a mismatch makes the port read FAULT; a port that the
topology uses and that stays down reads FAULT. An announcement of another member of the cluster replaces its old one, goes on by the other
ports unless seen before, and a conflict that it makes shows; any other announcement is ignored; the own announcement goes out on the
timer. A bad flit is counted and its replay asked for, one that the neighbour asks for is sent again out of the retry buffer, and at 16
failed replays the port retrains; the end of retraining lets traffic flow. What counts as seen before, and a message as one flit, are the
model's choice (log entry 112). A measured
delay and offset are kept, on the port to the root with the offset to cluster time, and cluster time shows. -/
def Obligations.GrenlinkLinkCommands : Prop :=
  (∀ (s : State) (x : LinkUp),
    (x.member = s.self → s.glkPortLive x.port = true → s.fld F.GLK_PSTAT_WIDTH x.port = 0 →
      exec (.glkLinkUp x) s = .next (s.linkChange (fun t => t.ownLinkUp x))) ∧
    (x.member = s.self → s.glkPortLive x.port = false ∨ s.fld F.GLK_PSTAT_WIDTH x.port ≠ 0 → exec (.glkLinkUp x) s = .next s) ∧
    (x.member ≠ s.self → exec (.glkLinkUp x) s = .next (s.linkChange (fun t =>
      { t with glk := { t.glk with down := t.glk.down.filter (fun l => l != s.linkOf x.member x.port) } })))) ∧
  (∀ (s : State) (m n : Nat),
    (m = s.self → n < 4 → s.fld F.GLK_PSTAT_WIDTH n ≠ 0 → exec (.glkLinkDown m n) s = .next (s.linkChange (fun t =>
      ((t.portDown n).event 0x0C 0x0002 n).setFlag F.GLK_TBREAK_WIDTH))) ∧
    (m ≠ s.self → s.glk.down.contains (s.linkOf m n) = false → exec (.glkLinkDown m n) s = .next (s.linkChange (fun t =>
      { t with glk := { t.glk with down := t.glk.down ++ [s.linkOf m n] } }))) ∧
    (m ≠ s.self → s.glk.down.contains (s.linkOf m n) = true → exec (.glkLinkDown m n) s = .next s)) ∧
  (∀ (s : State) (d : Nat), exec (.rerouteDone d) s =
    .next ({ s with glk := { s.glk with moving := s.glk.moving.filter (fun e => e != d) } }.flow)) ∧
  (∀ (s : State) (n : Nat) (h : Hello), s.glkPortLive n = true → s.fld F.GLK_PSTAT_WIDTH n ≠ 0 →
    (s.helloOk n h = false → exec (.hello n h) s =
      .next ((s.linkChange (fun t => ((t.putFld F.GLK_PSTAT_PEER_VALID 0 n).setUnit fnGlk n stFault).setFlag F.GLK_TBREAK_WIDTH)).event 0x0C 0x0006 n)) ∧
    (s.helloOk n h = true → exec (.hello n h) s = .next (s.linkChange (fun t =>
      let t := ((t.setFlag F.GLK_PSTAT_PEER_VALID n).putFld F.GLK_PSTAT_PEER_MEMBER h.member n).putFld F.GLK_PSTAT_PEER_PORT h.port n
      let t := { t with glk := { t.glk with peerUid := sparseSet (fun _ => 0) t.glk.peerUid n h.uid } }
      if t.fld F.GLK_PSTAT_STATE n = stStarting then t.setUnit fnGlk n stReady else t)))) ∧
  (∀ (s : State) (n : Nat), s.glkPortLive n = true →
    ((s.neighbour s.self n).isSome = true → s.portUp n = false →
      exec (.portWait n) s = .next ((s.setUnit fnGlk n stFault).setFlag F.GLK_TBREAK_WIDTH)) ∧
    ((s.neighbour s.self n).isSome = false ∨ s.portUp n = true → exec (.portWait n) s = .next s)) ∧
  (∀ (s : State) (n : Nat) (a : Announce),
    (s.portUp n = false ∨ 64 ≤ a.hops ∨ a.cluster ≠ s.fld F.GLK_ID_CLUSTER ∨ a.uid = s.reg .GLK_UID →
      exec (.memberAnnouncement n a) s = .next s) ∧
    (s.portUp n = true → a.hops < 64 → a.cluster = s.fld F.GLK_ID_CLUSTER → a.uid ≠ s.reg .GLK_UID →
      ∃ keep t, keep = s.liveMembers.filter (fun e => !(e.1.member == a.member && e.1.uid == a.uid)) ∧
        t = { s with glk := { s.glk with members := keep ++ [(a, s.dev.nowNs)] } } ∧
        (s.seenBefore a = true → exec (.memberAnnouncement n a) s = .next (t.showConflict a.member (s.conflict a.member))) ∧
        (s.seenBefore a = false → exec (.memberAnnouncement n a) s =
          .next ((t.toPorts (some n) (.announce { a with hops := a.hops + 1 })).showConflict a.member (s.conflict a.member))))) ∧
  (∀ s : State, s.fnState fnGlk = stStarting ∨ s.fnUsable fnGlk = true →
    exec .announceTimer s = .next (s.rejoin.toPorts none (.announce s.ownAnnounce))) ∧
  (∀ (s : State) (n flit : Nat), s.portUp n = true →
    exec (.flitReplay n flit true) s = .next ((s.replayFrom n flit).addFld F.GLK_PCNT_RETRY 1 n) ∧
    (16 ≤ s.badReplays n flit → exec (.flitReplay n flit false) s =
      .next (((s.retrainPort n).addFld F.GLK_PCNT_RETRAIN 1 n).event 0x0C 0x0003 n)) ∧
    (s.badReplays n flit < 16 → ∃ l, l = s.glk.replays.filter (fun (e : Nat × Nat × Nat) => e.1 != n) ∧ exec (.flitReplay n flit false) s =
      .next ((({ s with glk := { s.glk with replays := l ++ [(n, flit, s.badReplays n flit)] } } : State).addFld F.GLK_PCNT_RETRY 1 n).send
        (.link n (.replay flit))))) ∧
  (∀ (s : State) (n flit : Nat), ∃ l, l = s.glk.retry.filter (fun e => e.1 == n && decide (flit ≤ e.2.1)) ∧
    (s.replayFrom n flit).sent = s.sent ++ l.map (·.2.2) ∧ (s.replayFrom n flit).regs = s.regs) ∧
  (∀ (s : State) (n : Nat), exec (.glkRetrainDone n) s =
    .next ({ s with glk := { s.glk with retrain := s.glk.retrain.filter (fun m => m != n) } }.flow)) ∧
  (∀ (s t u : State) (x : DelayMeasure), s.portUp x.port = true →
    t = (s.putFld F.GLK_PDELAY_DELAY x.delay x.port).putFld F.GLK_PDELAY_CAL 1 x.port →
    u = { t with glk := { t.glk with offsets := t.glk.offsets.filter (fun (e : Nat × Int) => e.1 != x.port) ++ [(x.port, x.offset)] } } →
    (s.rootPort ≠ some x.port → exec (.linkDelayMeasure x) s = .next u.showClusterTime) ∧
    (s.rootPort = some x.port → exec (.linkDelayMeasure x) s =
      .next ({ u.setReg .GLK_TOFF (ofSigned 64 (x.offset + x.peerToff)) with
        glk := { u.glk with toffNs := some s.dev.nowNs, routeCal := x.calibrated } } : State).showClusterTime))

/-- The election of the root and naps (R301, R302, R304, R305, R306, spec/10_grenlink_sequence_layout_and_determinism.md). A better claim
becomes the best and goes on, and any other is ignored; the claim goes out on its timer; a member that loses its root forgets it. An idle
awake link with naps enabled and T_wake within its bound proposes a nap. An idle awake link that gets a proposal accepts and sleeps; where
traffic waits, it sleeps, its own proposal stands or the device is timing-repeatable, it does not. An accepted proposer sleeps. A sleeping
port wakes its partner, resumes at the wake sequence in its window, or retrains and counts where the window closed. That the best claim goes
on in each interval is the model's reading (log entry 38), and that a proposal not accepted is gone at its T_wake its choice (log entry
112). -/
def Obligations.GrenlinkTimeCommands : Prop :=
  (∀ (s : State) (n prio uid : Nat), s.portUp n = true →
    (prio ≠ 0 → betterClaim (prio, uid) s.glk.best = true →
      exec (.rootClaim n prio uid) s = .next ((s.setBest (prio, uid)).toPorts (some n) (.claim prio uid))) ∧
    (prio = 0 ∨ betterClaim (prio, uid) s.glk.best = false → exec (.rootClaim n prio uid) s = .next s)) ∧
  (∀ s : State, s.fnState fnGlk = stStarting ∨ s.fnUsable fnGlk = true → exec .claimTimer s = .next s.claimInterval) ∧
  (∀ s : State, s.flag F.GLK_ROOTSTAT_ELECTED = true → s.flag F.GLK_ROOTSTAT_IS_ROOT = false → exec .rootLost s = .next s.loseRoot) ∧
  (∀ (s : State) (n wake : Nat), s.napEnabled = true → s.portUp n = true → s.napOf n = none → s.portBusy n = false → s.time < wake →
    wake ≤ s.time + bitsOf (s.reg .GLK_NAPMAX) 15 0 * 1000 →
    exec (.napPropose n wake) s = .next ((s.setNap { port := n, wake := wake }).toPort n (.napProposal wake))) ∧
  (∀ (s : State) (n wake : Nat), s.portUp n = true → s.flag F.MEMC_CFG_REPEATABLE = false → s.flag F.GLK_PSTAT_NAP n = false →
    s.portBusy n = false → s.ownStands n = false → exec (.napProposal n wake false) s =
      .next ((s.toPort n .napAccept).fallAsleep { port := n, wake := s.localWake n wake, mine := false })) ∧
  (∀ (s : State) (n wake : Nat) (b : Bool), s.portUp n = false ∨ s.flag F.MEMC_CFG_REPEATABLE = true ∨ s.flag F.GLK_PSTAT_NAP n = true ∨
    b = true ∨ s.portBusy n = true ∨ s.ownStands n = true → exec (.napProposal n wake b) s = .next s) ∧
  (∀ (s : State) (n : Nat) (x : Nap), s.napOf n = some x →
    (x.mine = true → x.asleep = false → s.portUp n = true → exec (.napAccept n) s = .next (s.fallAsleep x)) ∧
    (x.asleep = true → exec (.napWake n) s = .next (s.send (.link n .wake))) ∧
    (x.asleep = true → s.listens x = true → exec (.wakeSequence n) s = .next (((s.dropNap n).putFld F.GLK_PSTAT_NAP 0 n).flow)) ∧
    (x.asleep = true → exec (.napResync n) s =
      .next (((((s.dropNap n).putFld F.GLK_PSTAT_NAP 0 n).retrainPort n).addFld F.GLK_PCNT_NAP_RESYNC 1 n).event 0x0C 0x0004 n)))

/-- Cluster barriers (R308, R309, R310, spec/10_grenlink_sequence_layout_and_determinism.md). A GLK_BARRIER that starts is arranged at the
root, where cluster time is locked and fewer than 8 stand, and refused there otherwise; elsewhere it goes to the root. A member armed
answers ACK where its cluster time is locked and the counter is the partition's, else NACK; the root counts each member's first reply and
first report, and the last report completes the packet, DONE_CLAMPED with the members that missed; a confirm marks a member's barrier and a
cancel drops it; after its root is lost no confirm counts for a barrier that none confirmed. At the decision, all acknowledged confirms at a
member that is still the root, and anything less cancels with the missing members in RESULT; at T_start a confirmed member signals its
counter and one without a confirmation sets MISSED, and both report. The barrier's number and that GLK_BARRIER targets FN_GLK are the
model's readings (log entry 39). -/
def Obligations.BarrierCommands : Prop :=
  (∀ (s : State) (p : Packet), s.starts (barrierRule p) p = true →
    ((s.entered (barrierRule p) p).flag F.GLK_ROOTSTAT_IS_ROOT = false → exec (.glkBarrier p) s =
      .next (s.ran (barrierRule p) p (fun id t => barrierForward p id t))) ∧
    ((s.entered (barrierRule p) p).flag F.GLK_ROOTSTAT_IS_ROOT = true →
      ((s.entered (barrierRule p) p).flag F.GLK_TIMESTAT_LOCKED = false ∨ 8 ≤ (s.entered (barrierRule p) p).glk.roots.length) →
      exec (.glkBarrier p) s = .next (s.ran (barrierRule p) p (fun id t => t.finish id csState 0))) ∧
    ((s.entered (barrierRule p) p).flag F.GLK_ROOTSTAT_IS_ROOT = true → (s.entered (barrierRule p) p).flag F.GLK_TIMESTAT_LOCKED = true →
      (s.entered (barrierRule p) p).glk.roots.length < 8 →
      exec (.glkBarrier p) s = .next (s.ran (barrierRule p) p (fun id t =>
        let x : BarArm := { id := id, partition := p.partition, ctr := pNum p 0x10 2, inc := pNum p 8 8, start := t.clusterTime + barLead p }
        let b : RootBar := { id := id, members := pNum p 0 8 }
        (({ t with glk := { t.glk with roots := t.glk.roots ++ [b] } } : State).showArmed).sendArms x (pNum p 0 8))))) ∧
  (∀ (s : State) (x : BarArm), ∃ t : State, t = ({ s with glk := { s.glk with
      bars := s.glk.bars.filter (fun (b : BarArm × Bool) => b.1.id != x.id) ++ [(x, false)]
      void := s.glk.void.filter (fun i => i != x.id) } } : State).showArmed ∧
    exec (.barrierArm x) s = .next (t.toRoot (.reply x.id (s.flag F.GLK_TIMESTAT_LOCKED && s.ownsCtr x.partition x.ctr))
      (fun u => u.takeReply x.id s.self (s.flag F.GLK_TIMESTAT_LOCKED && s.ownsCtr x.partition x.ctr)))) ∧
  (∀ (s : State) (id m : Nat) (b : RootBar), s.glk.roots.find? (fun b => b.id == id) = some b →
    b.members.testBit m = true → b.acks.testBit m = false → b.nacks.testBit m = false →
    exec (.barrierReply id m true) s = .next (s.setRoot { b with acks := b.acks + 2 ^ m }) ∧
    exec (.barrierReply id m false) s = .next (s.setRoot { b with nacks := b.nacks + 2 ^ m })) ∧
  (∀ (s : State) (id : Nat), (s.glk.void.contains id = true → exec (.barrierConfirm id true) s = .next s) ∧
    (s.glk.void.contains id = false → exec (.barrierConfirm id true) s =
      .next { s with glk := { s.glk with bars := s.glk.bars.map (fun b => if b.1.id = id then (b.1, true) else b) } }) ∧
    exec (.barrierConfirm id false) s =
      .next ({ s with glk := { s.glk with bars := s.glk.bars.filter (fun b => b.1.id != id) } } : State).showArmed) ∧
  (∀ (s : State) (id m : Nat) (ok : Bool) (b c : RootBar), s.glk.roots.find? (fun b => b.id == id && b.confirmed) = some b →
    b.members.testBit m = true → b.released.testBit m = false → b.missed.testBit m = false →
    c = (if ok then { b with released := b.released + 2 ^ m } else { b with missed := b.missed + 2 ^ m }) →
    (c.released + c.missed ≠ c.members → exec (.barrierReport id m ok) s = .next (s.setRoot c)) ∧
    (c.released + c.missed = c.members → c.missed = 0 → exec (.barrierReport id m ok) s = .next ((s.setRoot c).endBarrier id csDone 0)) ∧
    (c.released + c.missed = c.members → c.missed ≠ 0 →
      exec (.barrierReport id m ok) s = .next ((s.setRoot c).endBarrier id csClamped c.missed))) ∧
  (∀ (s : State) (id : Nat) (b : RootBar), s.glk.roots.find? (fun b => b.id == id && !b.confirmed) = some b →
    (b.acks = b.members → s.flag F.GLK_ROOTSTAT_IS_ROOT = true → b.members ≠ 0 → exec (.barrierDecide id) s = .next ((s.setRoot { b with confirmed := true }).sendDecision b true)) ∧
    (b.acks = b.members → s.flag F.GLK_ROOTSTAT_IS_ROOT = true → b.members = 0 → exec (.barrierDecide id) s =
      .next (((s.setRoot { b with confirmed := true }).sendDecision b true).endBarrier id csDone 0)) ∧
    (b.acks ≠ b.members ∨ s.flag F.GLK_ROOTSTAT_IS_ROOT = false → exec (.barrierDecide id) s =
      .next ((((s.sendDecision b false).setFlag F.GLK_BARSTAT_CANCELLED).anyEvent 0x0C 0x0008).endBarrier id csState (b.members - b.acks)))) ∧
  (∀ (s : State) (id : Nat) (x : BarArm) (ok : Bool), s.glk.bars.find? (fun b => b.1.id == id) = some (x, ok) →
    ∃ t, t = ({ s with glk := { s.glk with bars := s.glk.bars.filter (fun b => b.1.id != id) } } : State).showArmed ∧
      (ok = true → exec (.barrierRelease id) s = .next ((t.signal x.ctr x.inc).toRoot (.report id true) (fun u => u.takeReport id s.self true))) ∧
      (ok = false → exec (.barrierRelease id) s =
        .next (((t.setFlag F.GLK_BARSTAT_MISSED).anyEvent 0x0C 0x0009).toRoot (.report id false) (fun u => u.takeReport id s.self false))))

/-- Images, the configuration digest, heartbeats and the fence (R322, R323, R324, R325, R326,
spec/10_grenlink_sequence_layout_and_determinism.md). GLK_IMAGE adds an image that is new, while fewer than 1024 stand, or removes one that
stands, with a new generation and the partition's count in RESULT, and completes REJECTED_FORMAT otherwise. GLK_DIGEST_READ returns tag,
digest and generation. GLK_FENCE_CLEAR lifts the fence and suspends it until FENCE_SUSPEND_END judges again. The heartbeat timer shows the
reference tag of those heard, judges the own tag by it and sends the own heartbeat to the cluster and the configured address; a heartbeat
with a correct CRC of another device marks it heard, and one without is ignored. The three records of SYS_CONFIG_MISMATCH are the model's
choice (log entry 112), and which function the packets target its reading (log entry 39). -/
def Obligations.DigestCommands : Prop :=
  (∀ (s : State) (p : Packet), s.starts (glkImageRule p) p = true →
    (p.target = 0 → (s.entered (glkImageRule p) p).glk.images.contains (p.partition, pNum p 0 16) = false →
      (s.entered (glkImageRule p) p).glk.images.length < 1024 → exec (.glkImage p) s =
      .next (s.ran (glkImageRule p) p (fun id t =>
        let u := ({ t with glk := { t.glk with images := insertImage (p.partition, pNum p 0 16) t.glk.images } } : State).bumpGen
        u.finish id csDone (u.imagesOf p.partition)))) ∧
    (p.target ≠ 0 → (s.entered (glkImageRule p) p).glk.images.contains (p.partition, pNum p 0 16) = true → exec (.glkImage p) s =
      .next (s.ran (glkImageRule p) p (fun id t =>
        let u := ({ t with glk := { t.glk with images := t.glk.images.filter (fun x => x != (p.partition, pNum p 0 16)) } } : State).bumpGen
        u.finish id csDone (u.imagesOf p.partition)))) ∧
    (p.target = 0 → (s.entered (glkImageRule p) p).glk.images.contains (p.partition, pNum p 0 16) = true ∨
        1024 ≤ (s.entered (glkImageRule p) p).glk.images.length → exec (.glkImage p) s =
      .next (s.ran (glkImageRule p) p (fun id t => t.finish id csFormat 0))) ∧
    (p.target ≠ 0 → (s.entered (glkImageRule p) p).glk.images.contains (p.partition, pNum p 0 16) = false → exec (.glkImage p) s =
      .next (s.ran (glkImageRule p) p (fun id t => t.finish id csFormat 0)))) ∧
  (∀ (s : State) (p : Packet), s.starts (glkDigestReadRule p) p = true → exec (.glkDigestRead p) s =
    .next (s.ran (glkDigestReadRule p) p (fun id t => t.finish id csDone (t.reg .SYS_DIGEST_TAG) (t.digest ++ toLe 4 (t.reg .SYS_GEN) ++ toLe 12 0)))) ∧
  (∀ (s : State) (p : Packet), s.starts (glkFenceClearRule p) p = true → exec (.glkFenceClear p) s =
    .next (s.ran (glkFenceClearRule p) p (fun id t => ({ t.unfence with glk := { t.glk with suspended := true } } : State).finish id csDone 0))) ∧
  (∀ s : State, s.glk.suspended = true → exec .fenceSuspendEnd s = .next (({ s with glk := { s.glk with suspended := false } } : State).fence)) ∧
  (∀ (s u : State), s.dev.settings.isSome = true →
    u = (((s.setReg .GLK_REFTAG (referenceTag s.votes)).putFld F.GLK_DIGSTAT_PEERS_HEARD (satNat 13 s.heardPeers.length)).putFld
      F.GLK_DIGSTAT_PEERS_DIFF (satNat 13 (s.heardPeers.filter (fun h => h.tag != referenceTag s.votes)).length)).judgeTag (referenceTag s.votes) →
    exec .heartbeatTimer s = .next (u.send (.heartbeat (u.reg .GLK_PEERS) (u.dev.settings.bind (·.heartbeatTo)) u.heartbeat))) ∧
  (∀ (s : State) (d : List Byte), ∃ ok : Bool, ok = decide (d.length = 64 ∧ leAt d 0 4 = 0x48424541 ∧ leAt d 4 1 = 1 ∧
      leAt d 0x3C 4 = crc32c (d.take 0x3C) ∧ leAt d 8 8 ≠ s.reg .GLK_UID) ∧
    (ok = false → exec (.heartbeatRx d) s = .next s) ∧
    (ok = true → exec (.heartbeatRx d) s = .next { s with glk := { s.glk with heard := s.glk.heard.filter (fun x => x.uid != leAt d 8 8) ++
        [{ uid := leAt d 8 8, group := leAt d 6 2, gen := leAt d 0x14 4, tag := leAt d 0x18 8, ns := s.dev.nowNs }] } }))

/-- Camera packets, frames, exposure and frame sync (R331, R332, R335, R339, R340, R342, R356,
spec/11_cameras_image_pipeline_and_codecs.md). A frame start of a live receiver starts a frame of every context bound to its channel, a long
packet with a good header goes to the bound context of its data type and one with a bad header truncates the receiver's open frames, and a
frame end closes the frames; what comes for a dead receiver or an unbound channel is dropped; a timeout truncates the context's frame.
CAM_EXPO and a commit register commit the sensor's setting; the end of its I3C write issues it, counts it late or sends it once more. A pipe
takes a strip of its fullest context, and a frame whose lines are all taken, or that raw capture wrote, is finished while neither its
context nor its receiver has stopped. CTX_COMMIT reads the parameter block into the shadow copy, or fails with FAULT_ECC on an uncorrectable
error; an enabled frame sync output rises at its phase of the Chronometer's time and falls once WIDTH_US have passed. The length of the
parameter block is the implementation's (log entry 51). What truncates a frame and when a frame sync phase is passed over are the model's
readings (log entries 48 and 59), and a commit's place its reading too (log entry 50). -/
def Obligations.CameraCommands : Prop :=
  (∀ (s : State) (x : ShortPacket), s.rxLive x.rx = false ∨ s.bound x.rx x.vc = [] →
    exec (.csi2FrameStart x) s = .next s ∧ exec (.csi2FrameEnd x) s = .next s) ∧
  (∀ (s : State) (x : ShortPacket), s.rxLive x.rx = true → s.bound x.rx x.vc ≠ [] →
    ∃ t u : State, t = s.eccCorrected x.rx x.corrected ∧ u = (if t.unitUsable fnCam x.rx then t.acceptUnit fnCam x.rx else t) ∧
      (s.sensorVc x.rx ≠ some x.vc → exec (.csi2FrameStart x) s = .next ((s.bound x.rx x.vc).foldl (fun t k => t.startFrame x.rx x.num k) u)) ∧
      (s.sensorVc x.rx = some x.vc → exec (.csi2FrameStart x) s =
        .next ((s.bound x.rx x.vc).foldl (fun t k => t.startFrame x.rx x.num k) (u.countFrame x.rx x.num)))) ∧
  (∀ (s : State) (x : LongPacket), s.rxLive x.rx = true →
    (x.ecc = .bad → exec (.csi2LongPacket x) s = .next ((List.range 32).foldl (fun t k =>
      if t.fld F.CAM_CTXCFG_RX k = x.rx then t.truncate k 2 else t) (s.addFld F.CAM_RXERR_ECC_UNCORR 1 x.rx))) ∧
    (∀ k, x.ecc ≠ .bad → (s.bound x.rx x.vc).find? (fun k => s.fld F.CAM_CTXCFG_DT k == x.dt) = some k →
      exec (.csi2LongPacket x) s = .next ((s.eccCorrected x.rx (x.ecc == .corrected)).streamPacket k x)) ∧
    (x.ecc ≠ .bad → (s.bound x.rx x.vc).find? (fun k => s.fld F.CAM_CTXCFG_DT k == x.dt) = none → exec (.csi2LongPacket x) s = .next s)) ∧
  (∀ (s : State) (x : LongPacket), s.rxLive x.rx = false → exec (.csi2LongPacket x) s = .next s) ∧
  (∀ (s : State) (x : ShortPacket), s.rxLive x.rx = true → s.bound x.rx x.vc ≠ [] →
    ∃ t, t = (s.bound x.rx x.vc).foldl State.endFrame (s.eccCorrected x.rx x.corrected) ∧
      (s.sensorVc x.rx = some x.vc → exec (.csi2FrameEnd x) s = .next (t.issue x.rx)) ∧
      (s.sensorVc x.rx ≠ some x.vc → exec (.csi2FrameEnd x) s = .next t)) ∧
  (∀ (s : State) (k : Nat), exec (.feTimeout k) s = .next (s.truncate k 5)) ∧
  (∀ (s : State) (p : Packet), s.starts (camExpoRule p s) p = true → exec (.camExpo p) s = .next (s.ran (camExpoRule p s) p (fun id t =>
    let u := ((t.setReg .CAM_EXPO (pNum p 0 4 % 2 ^ 24) p.target).setReg .CAM_GAIN (pNum p 4 2) p.target).commit p.target
    u.finish id csDone (u.fld F.CAM_EXPOGEN_COMMITTED p.target)))) ∧
  (∀ (s : State) (n : Nat) (w : RegWrite), n < 16 → s.p0 w.initiator = true → s.gated .CAM = false →
    (w.value.testBit 0 = true → exec (.camExpoCommit n w) s = .next (s.commit n).accessed) ∧
    (w.value.testBit 0 = false → exec (.camExpoCommit n w) s = .next s.accessed)) ∧
  (∀ (s : State) (n g frame : Nat) (retried : Bool), (s.sensor n).writing = some (g, frame, retried) →
    ((s.sensor n).frame = frame → exec (.i3cWriteDone n true) s = .next (s.issued n g frame)) ∧
    ((s.sensor n).frame ≠ frame → exec (.i3cWriteDone n true) s =
      .next (((s.issued n g (frame + 1)).addFld F.CAM_SENSSTAT_LATE_CNT 1 n).anyEvent 0x07 0x0003)) ∧
    (retried = true → exec (.i3cWriteDone n false) s = .next
      (((s.setSensor n { s.sensor n with writing := none }).addFld F.CAM_SENSSTAT_FAIL_CNT 1 n).anyEvent 0x07 0x0004)) ∧
    (retried = false → exec (.i3cWriteDone n false) s = .next ((s.i3cWrite n g).setSensor n { s.sensor n with writing := some (g, frame, true) }))) ∧
  (∀ (s : State) (pipe k i : Nat), s.fullest pipe = some k → (s.camCtx k).strip = some i → exec (.ispStrip pipe) s =
    .next (s.feed k i (((s.camCtx k).frames[i]?.map (fun f => min (f.fed + 8) f.lines.length)).getD 0))) ∧
  (∀ (s : State) (k : Nat) (f : CamFrame), (s.camCtx k).frames.head? = some f → f.ended = true →
    (s.ctxLive k = false → exec (.ispFrameDone k) s = .next s) ∧
    (s.ctxLive k = true → s.camRaw k = true → exec (.ispFrameDone k) s = .next (s.finishFrame k f)) ∧
    (s.camRaw k = false → f.fed ≠ f.lines.length → exec (.ispFrameDone k) s = .next s) ∧
    (s.ctxLive k = true → s.camRaw k = false → f.fed = f.lines.length →
      exec (.ispFrameDone k) s = .next ((s.feed k 0 f.lines.length).finishFrame k f))) ∧
  (∀ (s : State) (p : Packet) (l : List (Nat × Nat)), s.starts (ctxCommitRule p s) p = true → l = [(pNum p 0 8, Config.paramBytes)] →
    exec (.ctxCommit p none) s = .next (s.ran (ctxCommitRule p s) p (fun id t =>
      (((t.chargePieces (initiator 6 p.partition) l).setCamCtx p.target
        { (t.chargePieces (initiator 6 p.partition) l).camCtx p.target with shadow := some (t.readPieces l) }).putFld
          F.CAM_CTXSTATE_PENDING 1 p.target).finish id csDone 0)) ∧
    (∀ k, exec (.ctxCommit p (some k)) s = .next (s.ran (ctxCommitRule p s) p (fun id t =>
      ((t.chargePieces (initiator 6 p.partition) l).uncorrectable (pieceAddr l k Config.paramBytes) 0 p.partition).finish id csEcc 0)))) ∧
  (∀ (s : State) (n : Nat), s.flag F.CAM_FSYNCCFG_EN n = true → n < 16 → s.devState ≠ devHeld → s.devState ≠ devSafe →
    (s.time % s.fld F.CAM_FSYNCPER_PERIOD_NS n = s.fld F.CAM_FSYNCPER_PHASE_NS n →
      s.fld F.CAM_FSYNCPER_PHASE_NS n < s.fld F.CAM_FSYNCPER_PERIOD_NS n →
      exec (.fsyncPulse n true) s = .next { s with pins := { s.pins with fsync := s.pins.fsync ||| 2 ^ n } }) ∧
    (1000 * s.fld F.CAM_FSYNCCFG_WIDTH_US n ≤ s.fsyncAge n →
      exec (.fsyncPulse n false) s = .next { s with pins := { s.pins with fsync := s.pins.fsync &&& (2 ^ 16 - 1 - 2 ^ n) } })) ∧
  (∀ (s : State) (n : Nat) (b : Bool), s.flag F.CAM_FSYNCCFG_EN n = false ∨ 16 ≤ n ∨ s.devState = devHeld ∨ s.devState = devSafe ∨
      s.fsyncDue n b = false →
    exec (.fsyncPulse n b) s = .next s)

/-- Decoder, encoder and JPEG packets that start (R349, R350, R353, R354, R355, spec/11_cameras_image_pipeline_and_codecs.md). DEC_CREATE
sets up its context on the core with most spare capacity where its area lies in DRAM and fits, and is refused with the detail of an object
in SMEM or of a value out of range, of an area that does not fit or of no capacity. DEC_DECODE collects an access unit and decodes with its
last packet; DEC_RESUME goes on with units that wait; DEC_FLUSH outputs every remaining picture; DEC_DESTROY frees the context. ENC_CREATE
is admitted to a core or refused for capacity, ENC_DESTROY frees the context, and ENC_FRAME is refused for a source of another format or
size, for a denied access and for an object that is too small, and is encoded into the object otherwise. A JPEG job that is unsupported,
whose destination cannot take it, that is beyond a limit or whose access is denied is refused; otherwise it is decoded, concealed where it
was damaged, or encoded into its object where it fits. A read that meets an uncorrectable error ends its packet with FAULT_ECC. The model's
readings and choices here: the core taken and the details of a refusal (log entry 52), what the operands say of a stream (log entry 54), the
levels' limits (log entry 53, PRESUMED), and P010 output of an 8-bit stream (log entry 113). -/
def Obligations.CodecPackets : Prop :=
  (∀ (s : State) (p : Packet) (b : Obj) (off : Nat), s.starts (decCreateRule p s) p = true →
    (s.entered (decCreateRule p s) p).payloadObj p 0x10 = some (b, off) →
    (b.smem = true ∨ decCreateOk p = false → exec (.decCreate p) s = .next (s.ran (decCreateRule p s) p (fun id t => t.finish id csFormat 0x0100))) ∧
    (b.smem = false → decCreateOk p = true → b.size < off + ((newDec p b off).slots + 2) * frameBytes (newDec p b off).maxW (newDec p b off).maxH (newDec p b off).depth +
        (newDec p b off).bytes + 65536 →
      exec (.decCreate p) s = .next (s.ran (decCreateRule p s) p (fun id t => t.finish id csFormat 0x0600))) ∧
    (b.smem = false → decCreateOk p = true → off + ((newDec p b off).slots + 2) * frameBytes (newDec p b off).maxW (newDec p b off).maxH (newDec p b off).depth +
        (newDec p b off).bytes + 65536 ≤ b.size →
      (s.entered (decCreateRule p s) p).pickCore [0, 1, 2, 3] (newDec p b off).load = none →
      exec (.decCreate p) s = .next (s.ran (decCreateRule p s) p (fun id t => t.finish id csFormat 0x0500))) ∧
    (∀ c, b.smem = false → decCreateOk p = true → off + ((newDec p b off).slots + 2) * frameBytes (newDec p b off).maxW (newDec p b off).maxH (newDec p b off).depth +
        (newDec p b off).bytes + 65536 ≤ b.size →
      (s.entered (decCreateRule p s) p).pickCore [0, 1, 2, 3] (newDec p b off).load = some c →
      exec (.decCreate p) s = .next (s.ran (decCreateRule p s) p (fun id t =>
        ((({ t with vid := { t.vid with dec := t.vid.dec ++ [newDec p b off] } } : State).setReg .VID_DCTX
          (2 ^ 30 + 2 ^ 28 * c + 2 ^ 27 * (newDec p b off).codec + 2 ^ 21 * (newDec p b off).partition) (newDec p b off).ctx).showCores).finish
            id csDone c)))) ∧
  (∀ (s : State) (p : Packet) (u : AccessUnit) (d : DecCtx), s.starts (decRule 0x11 p s true 1) p = true →
    (s.entered (decRule 0x11 p s true 1) p).decCtx p.target = some d →
    (pLast p = false → exec (.decDecode p u) s = .next (s.ran (decRule 0x11 p s true 1) p (fun id t =>
      (t.setDec { d with unit := (d.unit ++ p.payload).take d.bytes }).finish id csDone 0xFF))) ∧
    (pLast p = true → exec (.decDecode p u) s = .next (s.ran (decRule 0x11 p s true 1) p (fun id t =>
      decodeWaiting d.ctx (d.waiting.length + 1)
        (t.setDec { d with unit := [], waiting := d.waiting ++ [(id, (d.unit ++ p.payload).take d.bytes, u)] }))))) ∧
  (∀ (s : State) (n : Nat) (d : DecCtx), s.decCtx n = some d → exec (.decResume n) s = .next (decodeWaiting n d.waiting.length s)) ∧
  (∀ (s : State) (p : Packet) (order : List Nat) (d : DecCtx), s.starts (decRule 0x12 p s (p.plen == 0) 1) p = true →
    (s.entered (decRule 0x12 p s (p.plen == 0) 1) p).decCtx p.target = some d →
    ∃ rest l : List Nat, rest = (d.pics.filter (·.waits)).map (·.slot) ∧
      l = (order.eraseDups.filter rest.contains) ++ rest.filter (fun n => !order.contains n) ∧
      exec (.decFlush p order) s = .next (s.ran (decRule 0x12 p s (p.plen == 0) 1) p (fun id t =>
        (t.setDec (l.foldl DecCtx.outputSlot d)).finish id csDone l.length (padTo 32 (l.map (BitVec.ofNat 8)))))) ∧
  (∀ (s : State) (p : Packet) (d : DecCtx), s.starts (decRule 0x13 p s (p.plen == 0) 0) p = true →
    (s.entered (decRule 0x13 p s (p.plen == 0) 0) p).decCtx p.target = some d →
    exec (.decDestroy p) s = .next (s.ran (decRule 0x13 p s (p.plen == 0) 0) p (fun id t => ((t.decCtx p.target).elim t t.freeDec).finish id csDone 0))) ∧
  (∀ (s : State) (p : Packet) (x : EncSettings), s.starts (encCreateRule p s x) p = true →
    ((s.entered (encCreateRule p s x) p).pickCore [4, 5] (x.w * x.h * x.fps) = none → exec (.encCreate p x) s =
      .next (s.ran (encCreateRule p s x) p (fun id t => t.finish id csFormat 0x0500))) ∧
    (∀ c, (s.entered (encCreateRule p s x) p).pickCore [4, 5] (x.w * x.h * x.fps) = some c → exec (.encCreate p x) s =
      .next (s.ran (encCreateRule p s x) p (fun id t =>
        let e : EncCtx := { ctx := p.target, partition := p.partition, core := c, settings := x }
        ((({ t with vid := { t.vid with enc := t.vid.enc ++ [e] } } : State).setReg .VID_ECTX
          (2 ^ 30 + 2 ^ 29 * (c - 4) + 2 ^ 28 * x.codec + 2 ^ 22 * p.partition) p.target).showCores).finish id csDone c)))) ∧
  (∀ (s u v : State) (p : Packet) (cycles i off : Nat) (ue : Option Nat) (r : Rule) (e : EncCtx) (b : Obj) (q : Planar) (out : List Byte), r = encFrameRule p s →
    s.starts r p = true → u = s.entered r p → u.encCtx p.target = some e → u.payloadObj p 8 = some (b, off) →
    q = u.planarRef p.partition (pNum p 0 8) → i = initiator 0xC p.partition → v = u.chargePieces i (sourceRows q) →
    out = Config.encoded e.settings.codec e.settings.profile e.settings.rate e.token ((v.keyed i).sourceBytes q) →
    (is420 q.fmt = false ∨ q.w ≠ e.settings.w ∨ q.h ≠ e.settings.h →
      exec (.encFrame p cycles ue) s = .next (s.ran r p (fun id t => t.finish id csFormat 0x0100))) ∧
    (is420 q.fmt = true → q.w = e.settings.w → q.h = e.settings.h →
      ((sourceRows q).all (fun a => u.memOk i a.1 a.2 false) = false → exec (.encFrame p cycles ue) s = .next (s.ran r p (fun id t =>
        ((sourceRows q).foldl (fun t a => t.recordDenial i a.1 a.2 false) t).finish id csFirewall 8))) ∧
      (∀ k, (sourceRows q).all (fun a => u.memOk i a.1 a.2 false) = true → ue = some k →
        exec (.encFrame p cycles ue) s = .next (s.ran r p (fun id t => ((t.chargePieces i (sourceRows q)).uncorrectable
          (pieceAddr (sourceRows q) k ((sourceRows q).map (·.2)).sum) 0 p.partition).finish id csEcc 0))) ∧
      ((sourceRows q).all (fun a => u.memOk i a.1 a.2 false) = true → ue = none → b.size - off < out.length →
        exec (.encFrame p cycles ue) s = .next (s.ran r p (fun id t =>
          ((t.chargePieces i (sourceRows q)).addReg .VID_COREBUSY 64 cycles e.core).finish id csFormat 0x0800))) ∧
      ((sourceRows q).all (fun a => u.memOk i a.1 a.2 false) = true → ue = none → out.length ≤ b.size - off →
        exec (.encFrame p cycles ue) s = .next (s.ran r p (fun id t =>
          ((t.chargePieces i (sourceRows q)).addReg .VID_COREBUSY 64 cycles e.core).vidAccess p.partition id true (b.pieces off out.length) none (fun t =>
            let n := { e with token := Config.encodeNext e.settings.codec e.settings.profile e.settings.rate e.token ((v.keyed i).sourceBytes q) }
            let w := (t.keyed i).writeObj b off out
            ({ w with vid := { w.vid with enc := w.vid.enc.map (fun (y : EncCtx) => if y.ctx = e.ctx then n else y) } } : State).finish
              id csDone out.length)))))) ∧
  (∀ (s : State) (p : Packet), s.starts (encRule 0x22 p s (p.plen == 0) true []) p = true → exec (.encDestroy p) s =
    .next (s.ran (encRule 0x22 p s (p.plen == 0) true []) p (fun id t =>
      ((({ t with vid := { t.vid with enc := t.vid.enc.filter (fun x => x.ctx != p.target) } } : State).setReg .VID_ECTX 0 p.target).showCores).finish
        id csDone 0))) ∧
  (∀ (s u : State) (p : Packet) (x : JpegJob) (i : Nat) (r : Rule), i = initiator 0xC p.partition →
    r = jpegRule 0x30 p s true [(x.addr, max 1 x.len, false), ((jpegRef x).addr, 1, true)] → s.starts r p = true → u = s.entered r p →
    (x.unsupported = true → exec (.jpegDec p x) s = .next (s.ran r p (fun id t => (t.anyEvent 0x08 0x0003 p.partition).finish id csFormat 0x0700))) ∧
    (x.unsupported = false → jpegFormOk x = false → exec (.jpegDec p x) s = .next (s.ran r p (fun id t => t.finish id csFormat 0x0100))) ∧
    (x.unsupported = false → jpegFormOk x = true → jpegAdmits x = false → exec (.jpegDec p x) s = .next (s.ran r p (fun id t =>
      (t.anyEvent 0x08 0x0001 p.partition).finish id csDimensions 0))) ∧
    (x.unsupported = false → jpegFormOk x = true → jpegAdmits x = true →
      (u.memOk i x.addr x.len false = false → exec (.jpegDec p x) s = .next (s.ran r p (fun id t =>
        (t.recordDenial i x.addr x.len false).finish id csFirewall 8))) ∧
      (∀ k, u.memOk i x.addr x.len false = true → x.ue = some k → exec (.jpegDec p x) s = .next (s.ran r p (fun id t =>
        ((t.chargePieces i [(x.addr, x.len)]).uncorrectable (pieceAddr [(x.addr, x.len)] k x.len) 0 p.partition).finish id csEcc 0))) ∧
      (u.memOk i x.addr x.len false = true → x.ue = none → ∃ rows : State → List (Nat × List Byte), (∀ t, rows t = jpegRows x ((t.keyed i).bytes x.addr x.len)) ∧
        exec (.jpegDec p x) s = .next (s.ran r p (fun id t =>
          let c := t.chargePieces i [(x.addr, x.len)]
          c.vidAccess p.partition id true ((rows c).map (fun e => (e.1, e.2.length))) none (fun t =>
            let w := (t.vidRows p.partition (rows c)).addReg .VID_COREBUSY 64 x.cycles u.jpegEngine
            match x.damage with
            | [] => w.finish id csDone x.consumed
            | (a, _) :: _ => (w.anyEvent 0x08 0x0002 p.partition).finish id csConcealed (2 ^ 20 * (a % 2 ^ 20) + 2 ^ 40 * (x.offset % 2 ^ 24)))))))) ∧
  (∀ (s u v : State) (p : Packet) (x : JpegJob) (i off : Nat) (r : Rule) (b : Obj) (out : List Byte), i = initiator 0xC p.partition →
    r = { jpegRule 0x31 p s (s.jpegObj p.partition x).isSome [((jpegRef x).addr, 1, false)] with writes := some (bitsOf x.addr 62 40) } →
    s.starts r p = true → u = s.entered r p → u.jpegObj p.partition x = some (b, off) → v = u.chargePieces i (sourceRows (jpegRef x)) →
    out = Config.jpegBytes x.select ((v.keyed i).sourceBytes (jpegRef x)) →
    (jpegFormOk x = false ∨ min x.maxW 16384 < (jpegRef x).w ∨ min x.maxH 16384 < (jpegRef x).h →
      exec (.jpegEnc p x) s = .next (s.ran r p (fun id t => t.finish id csFormat 0x0100))) ∧
    (jpegFormOk x = true → (jpegRef x).w ≤ min x.maxW 16384 → (jpegRef x).h ≤ min x.maxH 16384 →
      ((sourceRows (jpegRef x)).all (fun a => u.memOk i a.1 a.2 false) = false → exec (.jpegEnc p x) s = .next (s.ran r p (fun id t =>
        ((sourceRows (jpegRef x)).foldl (fun t a => t.recordDenial i a.1 a.2 false) t).finish id csFirewall 8))) ∧
      (∀ k, (sourceRows (jpegRef x)).all (fun a => u.memOk i a.1 a.2 false) = true → x.ue = some k →
        exec (.jpegEnc p x) s = .next (s.ran r p (fun id t => ((t.chargePieces i (sourceRows (jpegRef x))).uncorrectable
          (pieceAddr (sourceRows (jpegRef x)) k ((sourceRows (jpegRef x)).map (·.2)).sum) 0 p.partition).finish id csEcc 0))) ∧
      ((sourceRows (jpegRef x)).all (fun a => u.memOk i a.1 a.2 false) = true → x.ue = none → b.size - off < out.length →
        exec (.jpegEnc p x) s = .next (s.ran r p (fun id t =>
          ((t.chargePieces i (sourceRows (jpegRef x))).addReg .VID_COREBUSY 64 x.cycles v.jpegEngine).finish id csFormat 0x0800))) ∧
      ((sourceRows (jpegRef x)).all (fun a => u.memOk i a.1 a.2 false) = true → x.ue = none → out.length ≤ b.size - off →
        exec (.jpegEnc p x) s = .next (s.ran r p (fun id t =>
          ((t.chargePieces i (sourceRows (jpegRef x))).addReg .VID_COREBUSY 64 x.cycles v.jpegEngine).vidAccess p.partition id true
            (b.pieces off out.length) none (fun t => ((t.keyed i).writeObj b off out).finish id csDone out.length))))))

/-- Sampling instants, loop ticks and axis trips (R366, R367, R370, R372, R373, R377, R378, R379, R380, R383, R385,
spec/12_motion_control_engine.md). A sampling instant of an enabled axis takes its samples in every state but OFF and STARTING, runs its
work while it is READY, RUNNING or DRAINING and watches the currents while it is STOPPED or FAULT, where the observer decides nothing (the
model's choice, log entry 114), shows MOT_POS and writes the trace samples; an axis that is not enabled does nothing. The velocity loop
measures, and it and the position loop tick in CASCADE; in TORQUE or IDQ the ramp tracks, the integrator reads 0 and neither a following
error nor COMMAND_LAG stands. Modulator bits that cross OC_LIMIT in the fast filter make all outputs low, and the axis reads OFF_OC and
FAULT with input and cause in MOT_AXFAULT; others do nothing. An encoder fault that the interface's samples have shown reaches the axes on
the encoder. The end of the flywheel, of the observer's start and of FE_TIME trip the axis with causes 3, 3 and 4; the end of the
ASC hold goes to free-wheel once the encoder's speed is below ASC_SPEED or there is none. -/
def Obligations.MotionLoops : Prop :=
  (∀ (s t : State) (a : Nat) (x : MotSample), a < 16 → s.flag F.MOT_AXCFG_EN a = true →
    t = (if s.samples a then s.sampleAxis a x else s) → ∃ shown : State → State,
    (∀ u, shown u = [0, 1, 2, 3].foldl (fun v k => v.traceSample a k) (u.setReg .MOT_POS (ofSigned 64 (u.ax a).pos) a)) ∧
    ((usableCode (t.axState a) || t.axState a == stDraining) = true → exec (.currentLoopTick a x) s = .next (shown (t.workAxis a))) ∧
    ((usableCode (t.axState a) || t.axState a == stDraining) = false →
      (t.samples a = true → exec (.currentLoopTick a x) s = .next (shown (t.watchAxis a))) ∧
      (t.samples a = false → exec (.currentLoopTick a x) s = .next (shown t)))) ∧
  (∀ (s : State) (a : Nat), s.samples a = true ↔
    s.axState a = stReady ∨ s.axState a = stRunning ∨ s.axState a = stDraining ∨ s.axState a = stStopped ∨ s.axState a = stFault) ∧
  (∀ (s : State) (a : Nat) (x : MotSample), 16 ≤ a ∨ s.flag F.MOT_AXCFG_EN a = false → exec (.currentLoopTick a x) s = .next s ∧
    exec (.velocityLoopTick a) s = .next s ∧ exec (.positionLoopTick a) s = .next s) ∧
  (∀ (s : State) (a : Nat), a < 16 → s.flag F.MOT_AXCFG_EN a = true →
    ((s.measureVel a).cascade = false → exec (.velocityLoopTick a) s = .next (s.measureVel a)) ∧
    (∀ t : State, (s.measureVel a).cascade = true → t = (s.measureVel a).applyDue a [1, 4] →
      (t.axState a ≠ stRunning → t.axState a ≠ stDraining → exec (.velocityLoopTick a) s = .next t) ∧
      (t.axState a = stRunning ∨ t.axState a = stDraining →
        (t.directMode a = true → exec (.velocityLoopTick a) s = .next (t.setAx a { (t.ax a).restartRamp with xv := 0, feOver := false })) ∧
        (t.directMode a = false → exec (.velocityLoopTick a) s = .next (t.velocityLoop a)))) ∧
    (s.cascade = false → exec (.positionLoopTick a) s = .next s) ∧
    (∀ t : State, s.cascade = true → t = s.applyDue a [0] →
      (t.axState a ≠ stRunning → t.axState a ≠ stDraining → exec (.positionLoopTick a) s = .next t) ∧
      (t.axState a = stRunning ∨ t.axState a = stDraining →
        (t.directMode a = true → exec (.positionLoopTick a) s =
          .next (((t.setAx a (t.ax a).restartRamp).putFld F.MOT_AXSTATE_COMMAND_LAG 0 a).showRamp a)) ∧
        (t.directMode a = false → exec (.positionLoopTick a) s = .next (((t.runRamp a).positionLoop a).showRamp a))))) ∧
  (∀ (s : State) (a input : Nat) (bits : List Bool), 16 ≤ a ∨ s.fastCrosses a bits = false →
    exec (.overcurrent a input bits) s = .next s) ∧
  (∀ (s : State) (a input : Nat) (bits : List Bool), a < 16 → s.fastCrosses a bits = true → exec (.overcurrent a input bits) s =
    .next (((((s.safePattern a 3).setUnit fnMot a stFault).sumBit F.MOT_FAULTSUM_FAULT a true).setReg .MOT_AXFAULT
      (2 ^ 31 + 65536 + input % 4) a).motEvent a 0x0004)) ∧
  (∀ (s : State) (n : Nat) (f : EncFault), n < 16 →
    ((s.enc n).faults.contains f = true → exec (.encoderFault n f) s = .next ((List.range 16).foldl
      (fun t a => if t.axisOnEncoder n a then t.encoderFault a else t) (s.clearEnc n f))) ∧
    ((s.enc n).faults.contains f = false → exec (.encoderFault n f) s = .next s)) ∧
  (∀ (s : State) (a : Nat), a < 16 →
    (s.fld F.MOT_AXSTATE_ANGLE a = 2 → exec (.flywheelTimeout a) s = .next (s.axisTrip a 3)) ∧
    (s.fld F.MOT_AXSTATE_OBS a = 1 → exec (.observerStartTimeout a) s = .next (s.axisTrip a 3)) ∧
    ((s.ax a).feOver = true → s.directMode a = false → s.axState a = stRunning ∨ s.axState a = stDraining → s.feSuspended a = false →
      exec (.followingError a) s = .next ((s.motEvent a 0x0006).axisTrip a 4)) ∧
    (s.fld F.MOT_AXSTATE_SAFE a = 2 → s.ascHolds a = false → exec (.ascHoldEnd a) s = .next (s.safePattern a 1)) ∧
    (s.fld F.MOT_AXSTATE_SAFE a ≠ 2 ∨ s.ascHolds a = true → exec (.ascHoldEnd a) s = .next s))

/-- Set-points, flushes, queries and trace buffers (R375, R376, R383, R386, R387, R388, R389, R390, spec/12_motion_control_engine.md).
MOT_SETPOINT takes its entries in payload order and completes with the accepted count and, where some were refused, CLAMPED with the refused
count. A push through a set-point window from the axis's partition or partition 0 writes its result. A flush empties the queue and counts
its entries in SKIPPED; MOT_QUERY returns MOT_AXSTATE and the axis record. RETURN goes back to the primary angle where the observer is
LOCKED. ARM starts an IDLE or DONE buffer and leaves any other, TRIGGER and TRACE_STOP act on it, by partition 0 alone; any other initiator
gets a bus error. That APPLY_TIME 0 applies at once, that RETURN asks for a LOCKED observer and that partition 0 too must own an axis are
the model's readings (log entry 41). -/
def Obligations.MotionQueues : Prop :=
  (∀ (s : State) (p : Packet), s.starts (setpointRule p s) p = true → exec (.motSetpoint p) s =
    .next (s.ran (setpointRule p s) p (fun id t => (pushAll ((pRecords p 32).map entryOf) 0 0 t).2.2.finish id
      (if (pushAll ((pRecords p 32).map entryOf) 0 0 t).2.1 = 0 then csDone else csClamped)
      (65536 * (pushAll ((pRecords p 32).map entryOf) 0 0 t).2.1 + (pushAll ((pRecords p 32).map entryOf) 0 0 t).1)))) ∧
  (∀ (s : State) (p : Packet), s.starts (axisRule 2 p s 0) p = true → exec (.motFlush p) s =
    .next (s.ran (axisRule 2 p s 0) p (fun id t => (t.flushAxis p.target).finish id csDone (t.ax p.target).queue.length))) ∧
  (∀ (s : State) (p : Packet), s.starts (axisRule 3 p s 2) p = true → exec (.motQuery p) s =
    .next (s.ran (axisRule 3 p s 2) p (fun id t => t.finish id csDone (t.reg .MOT_AXSTATE p.target) (t.axisExt p.target)))) ∧
  (∀ (s : State) (a : Nat) (w : RegWrite), a < 16 → s.ofPart w.initiator (s.axPart a) = true → s.gated .MOT = false →
    ∃ e : SetPoint, e = { time := s.reg .SPW_TIME a, typ := w.value % 8, v0 := s.reg .SPW_VAL0 a, v1 := s.reg .SPW_VAL1 a } ∧
      exec (.spwPush a w) s = .next ((s.pushEntry a e).putFld F.SPW_STAT_RESULT (s.pushResult a e) a).accessed) ∧
  (∀ (s : State) (a : Nat) (w : RegWrite), a < 16 → s.p0 w.initiator = true → s.gated .MOT = false →
    exec (.axctlFlush a w) s = .next (s.flushAxis a).accessed ∧
    (s.fld F.MOT_AXSTATE_OBS a = 2 → exec (.returnAngle a w) s =
      .next (s.putFld F.MOT_AXSTATE_ANGLE (s.fld F.MOT_AXCFG_ANGLE_SRC a) a).accessed) ∧
    (s.fld F.MOT_AXSTATE_OBS a ≠ 2 → exec (.returnAngle a w) s = .next s.accessed)) ∧
  (∀ (s : State) (k : Nat) (w : RegWrite), k < 4 → s.p0 w.initiator = true → s.gated .MOT = false →
    (s.fld F.MOT_TRSTAT_STATE k = 0 ∨ s.fld F.MOT_TRSTAT_STATE k = 3 →
      exec (.arm k w) s = .next ((s.setReg .MOT_TRSTAT (2 ^ 29) k).setTrace k {}).accessed) ∧
    (s.fld F.MOT_TRSTAT_STATE k ≠ 0 → s.fld F.MOT_TRSTAT_STATE k ≠ 3 → exec (.arm k w) s = .next s.accessed) ∧
    exec (.trigger k w) s = .next (s.traceFire k).accessed ∧
    exec (.traceStop k w) s = .next (s.putFld F.MOT_TRSTAT_STATE 0 k).accessed) ∧
  (∀ (s : State) (a : Nat) (w : RegWrite), s.p0 w.initiator = false → a < 4 →
    exec (.axctlFlush a w) s = .next s.busErr ∧ exec (.returnAngle a w) s = .next s.busErr ∧ exec (.arm a w) s = .next s.busErr ∧
    exec (.trigger a w) s = .next s.busErr ∧ exec (.traceStop a w) s = .next s.busErr) ∧
  (∀ (s : State) (a : Nat) (w : RegWrite), s.ofPart w.initiator (s.axPart a) = false → exec (.spwPush a w) s = .next s.busErr)

/-- Lockstep pairs, watchdogs, the Tourbillon and device SAFE (R435, R436, R438, R439, R441, R442, R444, R445, R446, R447, R448,
spec/14_safety_security_and_event_log.md). A pair that runs and mismatches, or misses its second heartbeat, is halted and puts the
device in SAFE with causes 2 and 3; one that does not run does nothing (when a pair runs, is the model's reading, log entry 31). A start
event or a kick that a counter owes is taken once; a write of SAFE_WDKICK by partition 0 or the watchdog's partition kicks before it
starts. A watchdog whose window is past CLOSE_US has missed. A slot tests a checker that has not failed and whose function is not gated,
first the one whose result a real fault made it discard; a failed slot without a real fault fails its checker, and the slot after which all
these are tested ends the rotation; the second late rotation in a row enters SAFE with cause 4. Which checkers are twins, and whose function
one is, is not given and free (log entry 31). SAFE_ENTER by partition 0 enters SAFE with cause 7. -/
def Obligations.SafetyIslandCommands : Prop :=
  (∀ (s : State) (pair : Nat), pair < 2 → s.pairsRun = true → s.flag (pairFld pair) = true →
    exec (.lockstepMismatch pair) s = .next ((s.putFld (pairFld pair) 0).enterSafe 2) ∧
    exec (.safeHeartbeatMiss pair) s = .next ((s.putFld (pairFld pair) 0).enterSafe 3)) ∧
  (∀ (s : State) (pair : Nat), 2 ≤ pair ∨ s.pairsRun = false ∨ s.flag (pairFld pair) = false →
    exec (.lockstepMismatch pair) s = .next s ∧ exec (.safeHeartbeatMiss pair) s = .next s) ∧
  (∀ (s : State) (k : Nat),
    (s.due.contains (.wdStart k .counter) = true → exec (.wdStart k .counter) s =
      .next (((s.undue (.wdStart k .counter)).kickFirst k).wdStartEvent k)) ∧
    (s.due.contains (.wdKick k .counter) = true → exec (.wdKick k .counter) s = .next ((s.undue (.wdKick k .counter)).wdKickEvent k))) ∧
  (∀ (s : State) (k : Nat) (w : RegWrite), k < 64 → s.ofPart w.initiator (s.fld F.SAFE_WDCFG_PARTITION k) = true → s.gated .SAFE = false →
    ∃ t : State, t = (if w.value.testBit 0 then s.wdKickEvent k else s) ∧
      exec (.wdStart k (.register w)) s = .next (if w.value.testBit 1 then (t.kickFirst k).wdStartEvent k else t).accessed ∧
      exec (.wdKick k (.register w)) s = .next (if w.value.testBit 1 then (t.kickFirst k).wdStartEvent k else t).accessed) ∧
  (∀ (s : State) (k : Nat), (s.due.contains (.wdKick k .counter) = true → s.kickFirst k = (s.undue (.wdKick k .counter)).wdKickEvent k) ∧
    (s.due.contains (.wdKick k .counter) = false → s.kickFirst k = s)) ∧
  (∀ (s : State) (k : Nat), k < 64 → s.wdLive k = true → (s.wdOpened k).isSome = true →
    (s.fld F.SAFE_WDWIN_CLOSE_US k < s.wdTime k → exec (.wdLate k) s = .next (s.wdMiss k 2)) ∧
    (s.wdTime k ≤ s.fld F.SAFE_WDWIN_CLOSE_US k → exec (.wdLate k) s = .next s)) ∧
  (∀ (s : State) (x : TbSlot), s.fnUsable fnSafe = true → s.flag F.SAFE_STATUS_PAIR1_OK = true → s.tbMay x.checker = true →
    ∃ t u : State, t = s.putFld F.SAFE_TBSTAT_CHECKER x.checker ∧
      u = { t with safe := { t.safe with repeatNext := if x.realFault then some x.checker else none } } ∧
      (x.realFault = true → exec (.tourbillonSlot x) s = .next u) ∧
      (x.realFault = false → x.passed = true → exec (.tourbillonSlot x) s = .next (u.tbTested x.checker)) ∧
      (x.realFault = false → x.passed = false → exec (.tourbillonSlot x) s = .next ((u.tbFail x.checker).tbTested x.checker))) ∧
  (∀ (s : State) (c : Nat), s.tbMay c = true ↔ c < 408 ∧ s.tbFailed c = false ∧ (s.reg .CLK_GATE).testBit (checkerFn c) = true ∧
    ∀ d, s.safe.repeatNext = some d → d = c ∨ s.tbTests d = false) ∧
  (∀ (s t : State) (c : Nat), t = { s with safe := { s.safe with
      tested := if s.safe.tested.contains c then s.safe.tested else s.safe.tested ++ [c] } } →
    ((∀ d < 408, d ∈ t.safe.tested ∨ t.tbTests d = false) → s.tbTested c = t.tbRotation) ∧
    (∀ d < 408, d ∉ t.safe.tested → t.tbTests d = true → s.tbTested c = t)) ∧
  (∀ s : State, s.fnUsable fnSafe = true → s.flag F.SAFE_STATUS_PAIR1_OK = true → s.safe.late = false → ∃ t : State,
    t = ({ s with safe := { s.safe with late := true, overruns := s.safe.overruns + 1 } } : State).anyEvent 0x0D 4 ∧
    (s.safe.overruns = 0 → exec .safeTbLate s = .next t) ∧ (1 ≤ s.safe.overruns → exec .safeTbLate s = .next (t.enterSafe 4))) ∧
  (∀ (s : State) (p : Packet), s.starts (safeRule 1 p 0 fnSafe true) p = true → exec (.safeEnter p) s =
    .next (s.ran (safeRule 1 p 0 fnSafe true) p (fun id t => (t.enterSafe 7).finish id csDone 0 [])))

/-- One-time memory, rollback, key renewal and debug unlock (R450, R451, R452, R454, R463, spec/14_safety_security_and_event_log.md).
SEC_OTPPROG on a BLANK device does the item's write and shows its result, and otherwise shows 3 NOT_BLANK. SEC_ADVANCE sets the rollback
counter and returns it. SEC_RENEW_KEY gives a STOPPED partition a new key, logged. CHALLENGE draws a nonce and RESPOND judges signatures,
nonce and identity, and level, and grants or denies; both answer 4 after 3 denials. LOCK ends the unlock. An initiator without access gets a
bus error. The layout of a debug response and that the nonce stays valid after a failed one are the model's reading (log entry 31), and the
nonce and the verifiers' verdicts are free (log entry 1). -/
def Obligations.SecurityCommands : Prop :=
  (∀ (s : State) (w : RegWrite), s.secReach w.initiator false = true → s.gated .SEC = false →
    (s.flag F.SEC_LIFECYCLE_STATE = true → exec (.secOtpprog w) s = .next (s.putFld F.SEC_OTPRES_RESULT 3).accessed) ∧
    (s.flag F.SEC_LIFECYCLE_STATE = false → ∃ r, r = otpItem s.chip.otp (bitsOf w.value 31 28) (bitsOf w.value 27 26) s.otpHash ∧
      exec (.secOtpprog w) s = .next ((s.setOtp r.2).putFld F.SEC_OTPRES_RESULT r.1).accessed)) ∧
  (∀ (s : State) (p : Packet) (r : Rule), r = safeRule 0x10 p 0 fnMgmt (!s.flag F.SYS_DEVSTATE_RAM_PROFILE) → s.starts r p = true →
    exec (.secAdvance p) s = .next (s.ran r p (fun id t => (t.setOtp { t.chip.otp with rollback := t.advanced }).finish id csDone t.advanced))) ∧
  (∀ (s : State) (p : Packet) (r : Rule), r = safeRule 0x11 p 6 fnMgmt (p.target != 0 && s.unitState fnMgmt p.target == stStopped) →
    s.starts r p = true → exec (.secRenewKey p) s = .next (s.ran r p (fun id t =>
      ((t.renewKey p.target).anyEvent 0x0E 3 p.target).finish id csDone 0 []))) ∧
  (∀ (s : State) (w : RegWrite), s.secReach w.initiator true = true → s.gated .SEC = false →
    (s.fld F.SEC_LIFECYCLE_DENIALS = 3 → exec (.challenge w) s = .next (s.dbgResult 4).accessed ∧
      exec (.respond w) s = .next (s.dbgResult 4).accessed) ∧
    (s.fld F.SEC_LIFECYCLE_DENIALS ≠ 3 → exec (.challenge w) s = .next (s.newNonce.dbgResult 0).accessed ∧
      (s.dbgSigned = false → exec (.respond w) s = .next (s.dbgDeny 1).accessed) ∧
      (s.dbgSigned = true →
        (s.dbgNum 10 32 ≠ s.nonce ∨ s.dbgNum 2 8 ≠ s.reg .GLK_UID → exec (.respond w) s = .next (s.dbgDeny 2).accessed) ∧
        (s.dbgNum 10 32 = s.nonce → s.dbgNum 2 8 = s.reg .GLK_UID →
          (s.dbgByte 0 = 1 → exec (.respond w) s = .next (s.dbgGrant 1 (s.dbgByte 1 % 64)).accessed) ∧
          (s.dbgByte 0 = 2 → s.devState = devHeld ∨ s.devState = devSafe →
            exec (.respond w) s = .next (s.dbgGrant 2 (s.dbgByte 1 % 64)).accessed) ∧
          (s.dbgByte 0 = 2 → s.devState ≠ devHeld → s.devState ≠ devSafe → exec (.respond w) s = .next (s.dbgDeny 3).accessed) ∧
          (s.dbgByte 0 ≠ 1 → s.dbgByte 0 ≠ 2 → exec (.respond w) s = .next (s.dbgDeny 3).accessed)))) ∧
    exec (.lock w) s = .next (((s.putFld F.SEC_LIFECYCLE_DEBUG 0).putFld F.SEC_LIFECYCLE_DEBUG_PART 0).dbgResult 0).accessed) ∧
  (∀ (s : State) (w : RegWrite),
    (s.secReach w.initiator true = false →
      exec (.challenge w) s = .next s.busErr ∧ exec (.respond w) s = .next s.busErr ∧ exec (.lock w) s = .next s.busErr) ∧
    (s.secReach w.initiator false = false → exec (.secOtpprog w) s = .next s.busErr))

/-- Writing, persisting and reading the event log (R457, R458, R459, R460, spec/14_safety_security_and_event_log.md). LOG_WRITE writes the
record that a queue overflow held back, else the oldest event of the class whose turn it is, else lets the mirror catch up. LOG_PERSIST
writes the oldest waiting record, marked PERSISTED, to its flash slot and counts it; a flash error leaves free values in the slot, sets
PERSIST_FAIL, is logged, and keeps the record. LOG_READ returns the selected records with their count and the position of the first; where
it returns none those bits are a free value. That one LOG_WRITE writes one record, that the mirror catches up there, what a failed flash
program leaves and LOG_READ of nothing are the model's choice (log entry 30). -/
def Obligations.EventLogCommands : Prop :=
  (∀ (s : State) (e : LogEvent), s.log.held = some e → exec .logWrite s = .next (({ s with log := { s.log with held := none } } : State).writeLog e)) ∧
  (∀ s : State, s.log.held = none →
    (∀ c, s.log.nextClass = some c → exec .logWrite s = .next (s.serve c)) ∧ (s.log.nextClass = none → exec .logWrite s = .next s.catchUp)) ∧
  (∀ (s t u v : State) (r : List Byte) (rest : List (List Byte)), s.log.persist = r :: rest → t = s.keepErased s.persistSlot →
    u = t.flashWrite (persistBase + 32 * s.persistSlot) (persistCopy r) →
    v = t.flashWrite (persistBase + 32 * s.persistSlot) ((List.range 32).map (fun j => Config.freeByte (t.free + j))) →
    exec (.logPersist true) s =
      .next ((({ u with log := { u.log with persist := rest } } : State).putFld F.LOG_STATUS_PERSIST_PENDING rest.length).addReg .LOG_PERSIST 32 1) ∧
    exec (.logPersist false) s = .next ((({ v with free := t.free + 32 } : State).setFlag F.LOG_STATUS_PERSIST_FAIL).anyEvent 0x0F 2)) ∧
  (∀ s : State, s.log.persist = [] → exec (.logPersist true) s = .next s ∧ exec (.logPersist false) s = .next s) ∧
  (∀ (s t : State) (p : Packet) (l : List (Nat × List Byte)), s.starts (logReadRule p) p = true → t = s.entered (logReadRule p) p →
    l = (t.logChosen (pNum p 6 1) (pNum p 0 4) (pNum p 8 2) p.partition).take (pNum p 4 2) →
    (∀ e m, l = e :: m → exec (.logRead p) s =
      .next ((t.finish s.cq.nextId csDone (65536 * e.1 + l.length) (l.flatMap (·.2))).retire p.queue p.partition)) ∧
    (l = [] → exec (.logRead p) s = .next ((t.drawFree.finish s.cq.nextId csDone (65536 * t.freeNat 32)).retire p.queue p.partition)))

/-- Syncs, announces, steps and reads of the Chronometer (R393, R398, R399, R400, R401, R402, R403, R404, R405,
spec/13_can_ethernet_and_the_chronometer.md). A message belongs to the tracked domains of its port and domainNumber whose interval is a
supported one, and to no other. A Sync shows its domain's offset, with the port's link delay, and rate, is counted in its row towards
qualification, and then corrects the domain that is followed, renews a pending jump, or lets the block seek a domain. An Announce clears
MISSED and shows the clock class; the third interval without one disqualifies the domain. What the block tracks, and when it seeks, are the
model's choice and reading (log entries 58 and 59). A link delay replaces the port's old one. A returns after
REVERT_S where it ranks no lower than B. CHR_READ returns the time. CHR_STEP applies the pending jump, steps by a signed amount or sets
the time; each answers TIME_JUMP where FORCE is needed and missing. -/
def Obligations.ChronometerCommands : Prop :=
  (∀ (s : State) (x : PtpMsg) (d : Nat), d ∈ s.domainsOf x ↔ s.tracks d = true ∧ s.fld F.CHR_DOMCFG_PORT d = x.port ∧
    s.fld F.CHR_DOMCFG_DOMAIN d = x.domain ∧ -7 ≤ x.interval ∧ x.interval ≤ 3) ∧
  (∀ (s : State) (x : PtpMsg) (offset ratio : Int) (rank : List Nat),
    exec (.ptpSync x offset ratio) s = .next ((s.domainsOf x).foldl (State.takeSync x offset ratio) s) ∧
    exec (.ptpAnnounce x rank) s = .next ((s.domainsOf x).foldl (State.takeAnnounce rank) s)) ∧
  (∀ (s : State) (x : PtpMsg) (d : Nat) (offset ratio : Int), s.domainsOf x = [d] → ∃ t u : State,
    t = (s.setReg .CHR_DOMOFF (ofSigned 64 (offset + s.linkDelay x.port)) d).setReg .CHR_DOMRATE (ofSigned 32 ratio) d ∧
    u = (t.setDom d { t.chr.dom d with
      syncs := if (t.chr.dom d).lastSeq.all (fun k => (k + 1) % 65536 == x.seq % 65536) then (t.chr.dom d).syncs + 1 else 1,
      lastSeq := some (x.seq % 65536) }).judgeDomain d ∧
    (s.followed = some d → s.onRcosc = false → exec (.ptpSync x offset ratio) s = .next (u.correct d)) ∧
    (s.followed = some d → s.onRcosc = true → exec (.ptpSync x offset ratio) s = .next u) ∧
    (s.followed ≠ some d → s.chr.pendingDom = some d → exec (.ptpSync x offset ratio) s = .next (u.showPending d)) ∧
    (s.followed ≠ some d → s.chr.pendingDom ≠ some d → exec (.ptpSync x offset ratio) s = .next (u.seekAfter (s.qualified d) d))) ∧
  (∀ (s : State) (x : PtpMsg) (d : Nat) (rank : List Nat), s.domainsOf x = [d] → ∃ t u : State,
    t = (s.putFld F.CHR_DOMSTAT_MISSED 0 d).putFld F.CHR_DOMSTAT_CLOCK_CLASS (rank.getD 1 0) d ∧
    u = (t.setDom d { t.chr.dom d with announced := true, rank := rank }).judgeDomain d ∧
    (d = 0 → exec (.ptpAnnounce x rank) s = .next (u.judgeRank.seekAfter (s.qualified d) d)) ∧
    (d ≠ 0 → exec (.ptpAnnounce x rank) s = .next (u.seekAfter (s.qualified d) d))) ∧
  (∀ (s : State) (port delay : Nat) (l : List (Nat × Nat)), s.fnUsable fnChr = true →
    l = s.chr.delays.filter (fun (e : Nat × Nat) => e.1 != port) ++ [(port, delay)] →
    exec (.ptpPdelay port delay) s = .next { s with chr := { s.chr with delays := l } }) ∧
  (∀ (s : State) (d m : Nat), 2 ≤ d ∨ s.fnUsable fnChr = false → exec (.announceTimeout d m) s = .next s) ∧
  (∀ (s : State) (d m : Nat), d < 2 → s.fnUsable fnChr = true →
    (m < 3 → exec (.announceTimeout d m) s = .next (s.putFld F.CHR_DOMSTAT_MISSED m d)) ∧
    (3 ≤ m → exec (.announceTimeout d m) s = .next ((s.putFld F.CHR_DOMSTAT_MISSED 3 d).loseDomain d))) ∧
  (∀ s : State, s.flag F.CHR_CFG_REVERT = true → s.followed = some 1 → s.qualified 0 = true → ranksBelow s.chr.a.rank s.chr.b.rank = false →
    exec .revertTimer s = .next (s.follow 0)) ∧
  (∀ (s : State) (p : Packet), s.starts (chrReadRule p) p = true → exec (.chrRead p) s =
    .next (s.ran (chrReadRule p) p (fun id t => t.finish id csDone t.time))) ∧
  (∀ (s t : State) (p : Packet), s.starts (chrStepRule p) p = true → t = s.entered (chrStepRule p) p →
    (pNum p 0 1 = 0 → t.chr.pendingDom = none →
      exec (.applyPending p) s = .next ((t.finish s.cq.nextId csState 0).retire p.queue p.partition)) ∧
    (∀ (d : Nat) (j : Int) (u v : State), pNum p 0 1 = 0 → t.chr.pendingDom = some d → j = signedOf 64 (t.reg .CHR_PENDING) →
      u = (t.stepCount j).dropPending → v = u.setDom d { u.chr.dom d with beyond := 0 } →
      (t.onRcosc = true → exec (.applyPending p) s = .next ((v.finish s.cq.nextId csDone (ofSigned 64 j)).retire p.queue p.partition)) ∧
      (t.onRcosc = false → exec (.applyPending p) s = .next (((v.putFld F.CHR_STATUS_STATE (1 + d)).finish s.cq.nextId csDone
        (ofSigned 64 j)).retire p.queue p.partition))) ∧
    (∀ j : Int, pNum p 0 1 = 1 → j = signedOf 64 (pNum p 8 8) →
      (t.needsForce p j = true → exec (.chrStep p) s = .next ((t.finish s.cq.nextId csTimeJump 0).retire p.queue p.partition)) ∧
      (t.needsForce p j = false → exec (.chrStep p) s =
        .next (((t.stepCount j).finish s.cq.nextId csDone (ofSigned 64 j)).retire p.queue p.partition))) ∧
    (∀ j : Int, pNum p 0 1 = 2 → j = (pNum p 8 8 : Int) - t.time →
      (t.needsForce p j = true → exec (.chrSet p) s = .next ((t.finish s.cq.nextId csTimeJump 0).retire p.queue p.partition)) ∧
      (t.needsForce p j = false → t.chrState ≠ chrUnset → exec (.chrSet p) s =
        .next (((t.stepCount j).finish s.cq.nextId csDone (ofSigned 64 j)).retire p.queue p.partition)) ∧
      (t.needsForce p j = false → t.chrState = chrUnset → exec (.chrSet p) s =
        .next (((t.stepCount j).toHoldover.seek.finish s.cq.nextId csDone (ofSigned 64 j)).retire p.queue p.partition))))

/-- Ethernet links, frames, rings, gates and launches (R407, R408, R409, R410, R411, R412, R413, R415, R431,
spec/13_can_ethernet_and_the_chronometer.md). A usable port comes up at its speed, and any other does not; a linked port goes down, and a
failed verification turns preemption off, each logged. A frame with a bad FCS or length is counted, one that its stream filter drops at its
gate, its maximum SDU size or its meter is counted, one the device consumes is not stored, and any other goes to its RX ring or is counted
dropped (the layout of the filters, which one is the first that matches, what counts as SDU and the meters are the implementation's and the
model's choice, log entry 115). ETH_TX queues its frame. A doorbell of the ring's partition, of a ring that the port has, within its size
hands its slots over. At launch the port's next frame goes on the wire; when it has left it is sent and its packet completes with its stamp
or its slot is written; a frame whose LAUNCH_TIME + LATE_NS is past is dropped, counted and marked, and any other is not. A gate interval's
end takes the due admin list or the next entry, before its end nothing; GCL_CHANGE writes ETH_GCLCTL with CHANGE set. Corners of rings,
gates and launches are the model's readings (log entry 61). -/
def Obligations.EthernetCommands : Prop :=
  (∀ (s : State) (n : Nat), n < 9 → s.unitUsable fnEth n = true → s.ethSpeed n ≠ 0 → s.mayDrive fnEth n = true → exec (.ethLinkUp n) s =
    .next (((((s.putFld F.ETH_PSTAT_LINK 1 n).putFld F.ETH_PSTAT_SPEED (s.ethSpeed n) n).putFld F.ETH_PREEMPT_VERIFY_FAIL 0 n).putFld
      F.ETH_PSTAT_PREEMPT (b2n (n != 8 && s.flag F.ETH_PREEMPT_EN n)) n).event 0x0B 0x0001 n)) ∧
  (∀ (s : State) (n : Nat), n < 9 → s.flag F.ETH_PSTAT_LINK n = true → exec (.ethLinkDown n) s =
    .next ((((s.putFld F.ETH_PSTAT_LINK 0 n).putFld F.ETH_PSTAT_SPEED 0 n).putFld F.ETH_PSTAT_PREEMPT 0 n).event 0x0B 0x0002 n)) ∧
  (∀ (s : State) (n : Nat), 9 ≤ n ∨ s.unitUsable fnEth n = false ∨ s.ethSpeed n = 0 ∨ s.mayDrive fnEth n = false → exec (.ethLinkUp n) s = .next s) ∧
  (∀ (s : State) (n : Nat), n < 8 → s.flag F.ETH_PREEMPT_EN n = true → exec (.ethPreemptVerifyFail n) s =
    .next (((s.putFld F.ETH_PSTAT_PREEMPT 0 n).setFlag F.ETH_PREEMPT_VERIFY_FAIL n).event 0x0B 0x0004 n)) ∧
  (∀ (s : State) (x : EthRx), x.port < 9 → s.unitUsable fnEth x.port = true →
    (x.fcsOk = false ∨ x.data.length < 60 ∨ 9212 < x.data.length → exec (.ethRxFrame x) s = .next (s.addFld F.ETH_CNT_FCS_ERR 1 x.port)) ∧
    (x.fcsOk = true → 60 ≤ x.data.length → x.data.length ≤ 9212 →
      ((s.streamFiltered x).1 = true → exec (.ethRxFrame x) s = .next ((s.streamFiltered x).2.addFld F.ETH_CNT_QCI_DROP 1 x.port)) ∧
      (∀ (q : Nat) (u : State), (s.streamFiltered x).1 = false → q = s.rxRing x → u = (s.streamFiltered x).2.acceptUnit fnEth x.port →
        (s.consumed x = true → exec (.ethRxFrame x) s = .next u) ∧
        (s.consumed x = false → 8 ≤ q → ringExists x.port q = true → s.ringOn x.port q = true → s.ringAvail x.port q ≠ 0 →
          exec (.ethRxFrame x) s = .next (u.toRxRing x q)) ∧
        (s.consumed x = false → q < 8 ∨ ringExists x.port q = false ∨ s.ringOn x.port q = false ∨ s.ringAvail x.port q = 0 →
          exec (.ethRxFrame x) s = .next (u.rxDrop x.port))))) ∧
  (∀ (s : State) (x : EthRx), (s.streamOf x = none → s.streamFiltered x = (false, s)) ∧
    (∀ i f, s.streamOf x = some (i, f) →
      ((∃ g, f.gate = some g ∧ s.streamOpen x.port (g % 64) = false) ∨ (f.maxSdu ≠ 0 ∧ f.maxSdu < sduBytes x.data) →
        s.streamFiltered x = (true, s)) ∧
      ((∀ g, f.gate = some g → s.streamOpen x.port (g % 64) = true) → f.maxSdu = 0 ∨ sduBytes x.data ≤ f.maxSdu →
        (f.meter = none → s.streamFiltered x = (false, s)) ∧
        (∀ m, f.meter = some m → s.streamFiltered x = s.meter x.port (m % 64) x.data.length)))) ∧
  (∀ (s : State) (p : Packet), s.starts (ethTxRule p s) p = true → exec (.ethTx p) s =
    .next (s.ran (ethTxRule p s) p (fun id t => t.queueFrame (p.target % 16) (ethTxFrame p id)))) ∧
  (∀ (s : State) (n q : Nat) (w : RegWrite), n < 9 → q < 16 → s.gated .ETH = false → initPart w.initiator = s.ringPart n q →
    ringExists n q = true → s.ringOn n q = true → s.unitUsable fnEth n = true → (w.value % 2 ^ 32 + 2 ^ 32 - s.reg .ETH_RHEAD n q) % 2 ^ 32 ≤ s.ringSize n q →
    ∃ t : State, t = (s.setReg .ETH_RDB (w.value % 2 ^ 32) n q).acceptUnit fnEth n ∧
      (8 ≤ q → exec (.ethRdb n q w) s = .next t.accessed) ∧
      (q < 8 → exec (.ethRdb n q w) s =
        .next (t.takeSlots n q ((w.value % 2 ^ 32 + 2 ^ 32 - s.reg .ETH_RDB n q) % 2 ^ 32) (s.reg .ETH_RDB n q)).accessed)) ∧
  (∀ (s : State) (n : Nat), n < 8 → s.flag F.ETH_GCLCTL_EN n = true →
    (∀ a, (s.ethPort n).adminAt = some a → a ≤ s.time → exec (.gateInterval n) s = .next (s.takeAdmin n a)) ∧
    ((∀ a, (s.ethPort n).adminAt = some a → s.time < a) →
      ((s.ethPort n).gates ≠ [] → (s.ethPort n).entryEnd ≤ s.time → exec (.gateInterval n) s = .next (s.setEth n (s.ethPort n).nextEntry)) ∧
      ((s.ethPort n).gates = [] ∨ s.time < (s.ethPort n).entryEnd → exec (.gateInterval n) s = .next s))) ∧
  (∀ (s : State) (n : Nat) (w : RegWrite), n < 8 → s.p0 w.initiator = true → s.gated .ETH = false → s.regStopped .ETH_GCLCTL n = false →
    exec (.gclChange n w) s = .next (s.writeGclctl n (w.value ||| 2 ^ 30)).accessed) ∧
  (∀ (s : State) (n : Nat) (f : EthFrame), n < 9 → s.flag F.ETH_PSTAT_LINK n = true → s.nextFrame n = some f →
    (f.flight.isSome = true → exec (.ethLaunch n) s = .next (s.onWire n f f.data)) ∧
    (f.flight = none → exec (.ethLaunch n) s = .next (s.startRing n f))) ∧
  (∀ (s : State) (n : Nat) (f : EthFrame) (bs : List Byte) (stamp : Nat) (l : List (EthFrame × List Byte × Nat)),
    (s.ethPort n).sending = (f, bs, stamp) :: l →
    ∃ t : State, t = (s.setEth n { s.ethPort n with sending := l }).send (.frame n bs) ∧
      (∀ id, f.flight = some id → exec (.ethTxDone n) s = .next (t.complete id csDone stamp)) ∧
      (f.flight = none → exec (.ethTxDone n) s = .next (t.slotStatus n f 0 (stamp % 2 ^ 32)))) ∧
  (∀ (s : State) (n c : Nat) (f : EthFrame), (s.ethPort n).headOf c = some f →
    ∃ t : State, t = ((s.unqueue n f).addFld F.ETH_CNT_LATE 1 n).lateEvent n f.partition ∧
      (launchEn f = false ∨ s.reg .ETH_LTCFG n = 0xFFFFFFFF ∨ s.time ≤ f.launch + s.reg .ETH_LTCFG n →
        exec (.ethLaunchLate n c) s = .next s) ∧
      (launchEn f = true → s.reg .ETH_LTCFG n ≠ 0xFFFFFFFF → f.launch + s.reg .ETH_LTCFG n < s.time →
        (∀ id, f.flight = some id → exec (.ethLaunchLate n c) s = .next (t.complete id csState 0x0900)) ∧
        (f.flight = none → exec (.ethLaunchLate n c) s = .next (t.slotStatus n f 1 0))))

/-- CAN frames, requests, launches, errors and recovery (R418, R421, R422, R423, R424, R425, R426, R431,
spec/13_can_ethernet_and_the_chronometer.md). A frame in a format of the controller's that it receives on its bus is delivered where the
filter says, counted for error recovery outside restricted operation. CAN_TX places its elements, CLAMPED where some find no room;
CAN_TXREQ requests the elements not requested yet. A launch time reached lets the element send or drops it late. The element whose frame is
on the bus, when none was the pending one of lowest ID and index in its window, gets its stamp and TXDONE. A bus error counts by its role
and kind, a corrupted frame in restricted operation is only counted, and a lost request is retried. The end of a started recovery leaves
bus-off with its counters and RECOVER cleared; RECOVER starts it. CAN_RX and CAN_RXFACK release elements. The counters' steps are ISO
11898-1's (log entry 56, PRESUMED); that the element at the head of arbitration counts as on the bus, and that a format not enabled stays
pending, is the model's choice (log entry 116). -/
def Obligations.CanFrames : Prop :=
  (∀ (s : State) (c : Nat) (x : CanRx), s.canBus c = true → s.canFormat c x.flags = true → ∃ t : State,
    t = (if s.flag F.CAN_CTL_ROP c then s.acceptUnit fnCan c else (s.acceptUnit fnCan c).canGot c).canFrameEnd c ∧
    (∀ n a, s.canFilter c x = some (n, a) → exec (.canRxFrame c x) s = .next ((t.canDeliver c x a n).checkSeen c n)) ∧
    (s.canFilter c x = none → exec (.canRxFrame c x) s = .next (t.canDeliver c x (s.fld F.CAN_CTL_NOMATCH c) 0xFFFF))) ∧
  (∀ (s : State) (c : Nat) (x : CanRx) (role : CanRole) (code : Nat) (kind : CanErrKind),
    (s.canBus c = false ∨ s.canFormat c x.flags = false → exec (.canRxFrame c x) s = .next s) ∧
    (s.canBus c = false → exec (.canBusError c role code kind) s = .next s)) ∧
  (∀ (s : State) (c flags : Nat), s.canFormat c flags = true ↔ (flags.testBit 2 = true ∧ s.flag F.CAN_CTL_XL_EN c = true) ∨
    (flags.testBit 2 = false ∧ (flags.testBit 1 = false ∨ s.flag F.CAN_CTL_FD_EN c = true))) ∧
  (∀ (s t : State) (p : Packet) (n k : Nat), s.starts (canTxRule p s) p = true → t = s.entered (canTxRule p s) p →
    n = (t.canTxElems p).length → k = (placeElems p.target (t.canTxElems p) t).2 →
    (k < n → exec (.canTx p) s = .next (((placeElems p.target (t.canTxElems p) t).1.finish s.cq.nextId csClamped
      (k % 2 ^ 16 + 2 ^ 16 * ((n - k) % 2 ^ 16))).retire p.queue p.partition)) ∧
    (n ≤ k → exec (.canTx p) s = .next (((placeElems p.target (t.canTxElems p) t).1.finish s.cq.nextId csDone
      (k % 2 ^ 16 + 2 ^ 16 * ((n - k) % 2 ^ 16))).retire p.queue p.partition))) ∧
  (∀ (s : State) (c : Nat) (w : RegWrite), c < 8 → s.ofPart w.initiator (s.canPart c) = true → s.gated .CAN = false →
    exec (.canTxreq c w) s = .next ((List.range (s.canNtx c)).foldl
      (fun t e => if w.value.testBit e && !t.canAsked c e then t.canRequest c e else t)
      (if s.unitUsable fnCan c then s.acceptUnit fnCan c else s)).accessed ∧
    exec (.canRxfack c w) s = .next (s.releaseFifo c (bitsOf w.value 8 8) (bitsOf w.value 7 0)).accessed) ∧
  (∀ (s : State) (c e : Nat), ∃ t : State,
    t = s.setCan c { s.canCtl c with waiting := (s.canCtl c).waiting.filter (· != e) } ∧
    ((s.canCtl c).waiting.contains e = false ∨ s.time < s.canLaunchTime c e → exec (.canLaunch c e) s = .next s) ∧
    ((s.canCtl c).waiting.contains e = true → s.canLaunchTime c e ≤ s.time →
      (t.canLate c e = true → exec (.canLaunch c e) s = .next (t.canLateDrop c e)) ∧
      (t.canLate c e = false → exec (.canLaunch c e) s = .next (t.canStart c)))) ∧
  (∀ (s : State) (c e : Nat), s.canFirst c = some e → s.canPending c e = true ∧ s.inWindow c e = true ∧
    ∀ d < 32, s.canPending c d = true → s.inWindow c d = true → s.canBefore c d e = false) ∧
  (∀ (s : State) (c e age : Nat),
    (s.canOwn c = false ∨ s.canWire c ≠ some e → exec (.canTxDone c e age) s = .next s) ∧
    (s.canOwn c = true → s.canWire c = some e →
      ∃ t u : State, t = ((s.canWrite c e 0x0C (toLe 4 (s.stamp age))).canDrop c e).canBit .CAN_TXDONE c e true ∧
      u = (if s.flag F.CAN_CTL_TT c then t.setCan c { t.canCtl c with due := false } else t) ∧
      exec (.canTxDone c e age) s =
        .next ((((u.acceptUnit fnCan c).canSent c).canFrameEnd c).send (.can c (s.canBytes c e 0 (s.canElem c)))))) ∧
  (∀ (s : State) (c : Nat) (role : CanRole) (code : Nat) (kind : CanErrKind), s.canBus c = true →
    (s.flag F.CAN_CTL_ROP c = true → code ≠ 0 → exec (.canBusError c role code kind) s = .next (s.addFld F.CAN_ECNT_SILENT_DROP 1 c)) ∧
    (s.flag F.CAN_CTL_ROP c = true → code = 0 → exec (.canBusError c role code kind) s = .next s) ∧
    (s.flag F.CAN_CTL_ROP c = false → code ≠ 0 →
      exec (.canBusError c .receiver code kind) s = .next ((s.canCount c false (code % 8) kind).canFrameEnd c) ∧
      exec (.canBusError c .reference code kind) s = .next ((s.canCount c true (code % 8) kind).refFailed c) ∧
      (∀ e, s.canOwn c = true → s.canWire c = some e →
        exec (.canBusError c (.element e) code kind) s = .next (((s.canCount c true (code % 8) kind).canRetry c e).canFrameEnd c))) ∧
    (s.flag F.CAN_CTL_ROP c = false →
      exec (.canBusError c .receiver 0 kind) s = .next (s.canFrameEnd c) ∧ exec (.canBusError c .reference 0 kind) s = .next s ∧
      (∀ e u, s.canOwn c = true → s.canWire c = some e → u = s.canRetry c e →
        exec (.canBusError c (.element e) 0 kind) s = .next (u.setCan c { u.canCtl c with onBus := none })))) ∧
  (∀ (s : State) (c code : Nat) (kind : CanErrKind), s.regsWf → c < 8 → s.fld F.CAN_ERR_TEC c + s.txErrors c code kind ≤ 255 →
    (s.canCount c true code kind).fld F.CAN_ERR_TEC c = s.fld F.CAN_ERR_TEC c + s.txErrors c code kind) ∧
  (∀ (s : State) (c : Nat),
    (s.fld F.CAN_ERR_ESTATE c = 2 → (s.canCtl c).recovering = true → ∃ t : State,
      t = ((s.putFld F.CAN_ERR_TEC 0 c).putFld F.CAN_ERR_REC 0 c).putFld F.CAN_ERR_ESTATE 0 c ∧
      exec (.canBusOffRecovery c) s = .next (((t.putFld F.CAN_CTL_RECOVER 0 c).setCan c { t.canCtl c with recovering := false }).canStart c)) ∧
    (s.fld F.CAN_ERR_ESTATE c ≠ 2 ∨ (s.canCtl c).recovering = false → exec (.canBusOffRecovery c) s = .next s)) ∧
  (∀ (s : State) (c : Nat) (w : RegWrite), c < 8 → s.p0 w.initiator = true → s.gated .CAN = false → s.regStopped .CAN_CTL c = false →
    exec (.recover c w) s = .next (s.writeCanCtl c (w.value ||| 2 ^ 22)).accessed) ∧
  (∀ (s t : State) (p : Packet) (c fifo n : Nat), s.starts (canRxRule p s) p = true → t = s.entered (canRxRule p s) p →
    c = p.target % 8 → fifo = bitsOf p.target 8 8 → n = min (pNum p 0 4) (t.fifoFill c fifo) → exec (.canRx p) s =
      .next (((t.releaseFifo c fifo n).finish s.cq.nextId csDone n (t.fifoElems c fifo n)).retire p.queue p.partition))

/-- Basic cycles of a time-triggered controller (R428, R429, R430, spec/13_can_ethernet_and_the_chronometer.md). A reference message shows
its cycle and the master role, closes the window, and is an S2 error where the cycle is not the next one or beyond the matrix; a potential
master that may send asks for its own message there unless its request stands already, and has won where the REF_ID is its own. A column's
mark closes the window and opens its cell's, but a merged cell goes on. A cycle without a reference message is an S2 error, and a potential
master that may send requests its own. A controller that is not live or not time-triggered does nothing. That the own REF_ID at a cycle's
start is the own request, which has won, and that ERRLVL does not fall are the model's readings (log entry 57). -/
def Obligations.CanTimeTriggered : Prop :=
  (∀ (s : State) (c refId cycle n : Nat) (won : Bool), s.canLive c = true → s.flag F.CAN_CTL_TT c = true →
    won = ((s.closeWindow c).refRequest c && refId == s.fld F.CAN_TTCFG_REF_ID c) →
    n = (if won then (s.closeWindow c).nextCycle c else cycle % 64) → ∃ t u v : State,
    t = (if s.ttCycles c ≤ n ∨ ((s.canCtl c).synced = true ∧ n ≠ s.nextCycle c) then (s.closeWindow c).ttError c 2 else s.closeWindow c) ∧
    u = (t.putFld F.CAN_TTSTAT_CYCLE (n % s.ttCycles c) c).putFld F.CAN_TTSTAT_MASTER
      (if s.flag F.CAN_TTCFG_TTROLE c then (if won then 2 else 1) else 0) c ∧
    v = (if ((s.closeWindow c).refRequest c && !(s.canCtl c).refReq) = true then
      u.send (.canReference c (s.fld F.CAN_TTCFG_REF_ID c) (s.nextCycle c)) else u) ∧
    exec (.canTtCycleStart c refId cycle) s = .next (v.setCan c { v.canCtl c with
      synced := true, refReq := false, refFails := if won then 0 else (v.canCtl c).refFails })) ∧
  (∀ (s : State) (c j w : Nat), s.canLive c = true → s.flag F.CAN_CTL_TT c = true → j < 32 →
    w = s.reg .CAN_TTCELL c (32 * s.fld F.CAN_TTSTAT_CYCLE c + j) →
    (cellType w = cellMerged → exec (.canTtColumn c j) s = .next s) ∧
    (cellType w ≠ cellMerged → exec (.canTtColumn c j) s = .next ((s.closeWindow c).openWindow c w))) ∧
  (∀ (s t : State) (c : Nat), s.canLive c = true → s.flag F.CAN_CTL_TT c = true → t = s.ttError c 2 →
    (s.flag F.CAN_TTCFG_TTROLE c = true → s.canSends c = true → exec (.canTtRefTimeout c) s =
      .next ((t.setCan c { t.canCtl c with refReq := true }).send (.canReference c (s.fld F.CAN_TTCFG_REF_ID c) (s.nextCycle c)))) ∧
    (s.flag F.CAN_TTCFG_TTROLE c = false ∨ s.canSends c = false → exec (.canTtRefTimeout c) s = .next t)) ∧
  (∀ (s : State) (c refId cycle j : Nat), s.canLive c = false ∨ s.flag F.CAN_CTL_TT c = false →
    exec (.canTtCycleStart c refId cycle) s = .next s ∧ exec (.canTtColumn c j) s = .next s ∧ exec (.canTtRefTimeout c) s = .next s)

/-- A step runs the command at the front of the queue (spec/INDEX.md, spec/95_what_each_step_holds.md). A step of a state whose queue is c
followed by l is exec of c on the state with the queue l. -/
def Obligations.FrontCommandRuns : Prop :=
  ∀ (s : State) (c : Instr) (l : List Instr), s.pending = c :: l → step s = exec c { s with pending := l }

/-- What a step does on an empty queue (R82, R92, R103, R112, R270, R392, spec/95_what_each_step_holds.md). On an empty queue the block runs
the first event that it owes itself, else reads the head of a ring that has got one, else runs the held packet that can be taken, else lets
the Escapement launch, else counts one tick of 1 ns. The order is the model's choice (log entry 5). -/
def Obligations.EmptyQueueOrder : Prop :=
  ∀ s : State, s.pending = [] →
    (∀ c l, s.due = c :: l → step s = exec c s) ∧
    (∀ q l, s.due = [] → s.cq.fresh = q :: l → step s = .next (s.readHead q)) ∧
    (∀ c t, s.due = [] → s.cq.fresh = [] → s.takeHeld = some (c, t) → step s = exec c t) ∧
    (s.due = [] → s.cq.fresh = [] → s.takeHeld = none → s.canLaunch = true → step s = .next s.moreKernels) ∧
    (s.due = [] → s.cq.fresh = [] → s.takeHeld = none → s.canLaunch = false → step s = .next s.tick)

/-- No command stops the block (spec/INDEX.md, spec/00_scope.md). Every command answers a next state in every state: no command ends in a
fault or a refusal. -/
def Obligations.EveryCommandAnswers : Prop :=
  ∀ (c : Instr) (s : State), ∃ t, exec c s = .next t

/-- Every step keeps memory, flash and the register file canonical (R119, R122, spec/04_engine_complex_and_memory.md). If memory, flash and
the register file are in canonical form, then after any step that answers a next state they are. -/
def Obligations.StepsKeepCanonicalForm : Prop :=
  ∀ s t : State, s.canonicalForm → stepsTo s t → t.canonicalForm

/-- Reset is in canonical form (R36, spec/04_engine_complex_and_memory.md). Right after reset, memory, flash and the register file are in
canonical form, memory and flash list nothing, and no command waits. That memory lists nothing, so that unwritten bytes read 0, is the
model's choice (log entry 4). -/
def Obligations.ResetIsCanonical : Prop :=
  State.reset.canonicalForm ∧ State.reset.mem = [] ∧ State.reset.flash = [] ∧ State.reset.pending = []

/-- One-time memory only grows (R450, R451, spec/14_safety_security_and_event_log.md). In every step: the rollback counter never falls, a
key hash slot and a debug key hash once written keep their value, a revocation and the SECURED state are never taken back, and repair
records are only added at the end. -/
def Obligations.OneTimeMemoryOnlyGrows : Prop :=
  ∀ s t : State, stepsTo s t → OtpGrows s.chip.otp t.chip.otp

/-- No command's effect touches the queue of waiting commands (spec/INDEX.md, spec/03_command_packets_queues_and_sync.md). A command's
effect leaves the queue of the commands that wait as it was; a step takes its front, and on an empty queue leaves it empty. What a step does
on an empty queue is the model's choice (log entry 5). -/
def Obligations.CommandsLeaveTheQueue : Prop :=
  (∀ (c : Instr) (s t : State), exec c s = .next t → t.pending = s.pending) ∧
  (∀ (c : Instr) (l : List Instr) (s t : State), s.pending = c :: l → stepsTo s t → t.pending = l) ∧
  (∀ s t : State, s.pending = [] → stepsTo s t → t.pending = [])

/-- A packet is read back from its bytes in a ring (R78, R79, R81, spec/03_command_packets_queues_and_sync.md). For every well-formed packet
and every opcode, at every value of every field, reading the packet's bytes as they stand in a ring (Table CMDQ-1, payload, trailer and
zeros) gives that opcode and that packet. -/
def Obligations.PacketBytesRoundTrip : Prop :=
  ∀ (o : Opcode) (p : Packet), p.wf = true → o.cls < 2 ^ 8 → o.code < 2 ^ 16 → decodePacket (ringBytes o p) = some (o, p)

/-- SYNC_SET (R110). A SYNC_SET that starts completes with REJECTED_STATE and writes nothing while a kernel, a held packet, a SYNC_WAIT or
an armed watch waits on the counter, and otherwise writes the counter's value and completes with the old one. -/
def Obligations.SyncSetPackets : Prop :=
  ∀ (s t : State) (p : Packet) (w : Prop), s.starts (syncRule ⟨3, 2⟩ p s true) p = true → t = s.entered (syncRule ⟨3, 2⟩ p s true) p →
    w = ((∃ k ∈ t.esc.kernels, k.ready = none ∧ k.waitEn = true ∧ k.waitCtr = p.target) ∨
      (∃ h ∈ heldHeads t.cq.held [], pWaitEn h = true ∧ h.waitCtr = p.target ∧ h.queue ∉ t.cq.waitMet) ∨
      (∃ f ∈ t.cq.flight, f.cls = 3 ∧ f.code = 4 ∧ f.status = none ∧ f.waitCtr = p.target ∧ f.waitMet = false) ∨
      (∃ k < 256, t.flag F.SYNC_WATCHCFG_ARMED k = true ∧ t.fld F.SYNC_WATCHCFG_COUNTER k = p.target)) →
    (w → exec (.syncSet p) s = .next ((t.finish s.cq.nextId csState 0).retire p.queue p.partition)) ∧
    (¬w → exec (.syncSet p) s =
      .next (((t.setReg .SYNC_CTR (pNum p 0 8) p.target).finish s.cq.nextId csDone (t.reg .SYNC_CTR p.target)).retire p.queue p.partition))

/-- Writes of CLK_NETREF (R54). While the SYNCREF-derived source is active, a write of CLK_NETREF leaves SEL, FREQ and EN, sets SW_REFUSED
and gives the reason NET_ACTIVE. Otherwise SEL, FREQ and EN take the written values, and a change of SEL or FREQ takes the network
source's READY and starts its qualification at zero. -/
def Obligations.NetworkReferenceWrites : Prop :=
  ∀ (s : State) (w : RegWrite), s.regsWf → s.p0 w.initiator = true → s.gated .CLK = false → ∃ t, exec (.clkNetrefWrite w) s = .next t ∧
    (s.active = 1 → t.flag F.CLK_FLAGS_SW_REFUSED = true ∧ t.fld F.CLK_FLAGS_REFUSE_REASON = 3 ∧ t.fld F.CLK_NETREF_SEL = s.fld F.CLK_NETREF_SEL ∧
      t.fld F.CLK_NETREF_FREQ = s.fld F.CLK_NETREF_FREQ ∧ t.fld F.CLK_NETREF_EN = s.fld F.CLK_NETREF_EN) ∧
    (s.active ≠ 1 → t.fld F.CLK_NETREF_SEL = w.value % 4 ∧ t.fld F.CLK_NETREF_FREQ = bitsOf w.value 9 8 ∧
      t.fld F.CLK_NETREF_EN = bitsOf w.value 31 31 ∧
      (w.value % 4 ≠ s.fld F.CLK_NETREF_SEL ∨ bitsOf w.value 9 8 ≠ s.fld F.CLK_NETREF_FREQ →
        t.flag F.CLK_STATUS_READY_NET = false ∧ t.fld F.CLK_QUAL_NET_US = 0))

/-- Escalation of a watchdog's misses (R442). With ESC_N from 1 to 15 the ESC_N-th miss in a row enters device SAFE with the watchdog's
cause, whatever REACT holds, and an earlier one has REACT's reaction; with ESC_N 0 every miss has REACT's reaction. A kick within the
window closes it and sets the run of misses to 0. -/
def Obligations.WatchdogEscalation : Prop :=
  ∀ (s u : State) (k n run : Nat) (w : RegWrite), s.regsWf → k < 64 → s.wdLive k = true → (s.wdOpened k).isSome = true →
    n = s.fld F.SAFE_WDCFG_ESC_N k → run = s.fld F.SAFE_WDSTAT_RUN k → s.ofPart w.initiator (s.fld F.SAFE_WDCFG_PARTITION k) = true →
    s.gated .SAFE = false → w.value.testBit 0 = true → w.value.testBit 1 = false →
    (u = (s.wdClose k).wdRecord k 2 (s.wdTime k) → s.fld F.SAFE_WDWIN_CLOSE_US k < s.wdTime k →
      (1 ≤ n → n = run + 1 → exec (.wdLate k) s = .next (u.enterSafe 1)) ∧
      (run + 1 < n → exec (.wdLate k) s = .next (u.wdApply k (s.fld F.SAFE_WDCFG_REACT k))) ∧
      (n = 0 → exec (.wdLate k) s = .next (u.wdApply k (s.fld F.SAFE_WDCFG_REACT k)))) ∧
    (u = (s.wdClose k).wdRecord k 1 (s.wdTime k) → s.wdTime k < s.fld F.SAFE_WDWIN_OPEN_US k →
      (1 ≤ n → n = run + 1 → exec (.wdKick k (.register w)) s = .next (u.enterSafe 1).accessed) ∧
      (run + 1 < n → exec (.wdKick k (.register w)) s = .next (u.wdApply k (s.fld F.SAFE_WDCFG_REACT k)).accessed) ∧
      (n = 0 → exec (.wdKick k (.register w)) s = .next (u.wdApply k (s.fld F.SAFE_WDCFG_REACT k)).accessed)) ∧
    (s.fld F.SAFE_WDWIN_OPEN_US k ≤ s.wdTime k → s.wdTime k ≤ s.fld F.SAFE_WDWIN_CLOSE_US k →
      ∃ t, exec (.wdKick k (.register w)) s = .next t ∧ t = ((s.wdClose k).putFld F.SAFE_WDSTAT_RUN 0 k).accessed ∧
        t.fld F.SAFE_WDSTAT_RUN k = 0 ∧ t.fld F.SAFE_WDSTAT_STATE k = 0 ∧ t.wdOpened k = none ∧ t.mem = s.mem)

/-- A kick before a start event (R440). A write of SAFE_WDKICK that asks for a kick and a start event at once does the kick and then the
start event, and a kick that a counter owes in the same cycle is done before a counter's start event. A kick in the microsecond t = CLOSE_US of an open window is in time: the window closes without a miss. -/
def Obligations.WatchdogWriteOrder : Prop :=
  (∀ (s : State) (k : Nat) (w : RegWrite), k < 64 → s.ofPart w.initiator (s.fld F.SAFE_WDCFG_PARTITION k) = true → s.gated .SAFE = false →
    w.value.testBit 0 = true → w.value.testBit 1 = true →
    exec (.wdKick k (.register w)) s = .next (((s.wdKickEvent k).kickFirst k).wdStartEvent k).accessed ∧
    exec (.wdStart k (.register w)) s = .next (((s.wdKickEvent k).kickFirst k).wdStartEvent k).accessed) ∧
  (∀ (s : State) (k : Nat), s.due.contains (.wdStart k .counter) = true → (s.undue (.wdStart k .counter)).due.contains (.wdKick k .counter) = true →
    exec (.wdStart k .counter) s =
      .next ((((s.undue (.wdStart k .counter)).undue (.wdKick k .counter)).wdKickEvent k).wdStartEvent k)) ∧
  (∀ (s : State) (k : Nat), s.due.contains (.wdKick k .counter) = true → s.wdLive k = true → (s.wdOpened k).isSome = true →
    s.fld F.SAFE_WDWIN_OPEN_US k ≤ s.fld F.SAFE_WDWIN_CLOSE_US k → s.wdTime k = s.fld F.SAFE_WDWIN_CLOSE_US k →
    exec (.wdKick k .counter) s = .next (((s.undue (.wdKick k .counter)).wdClose k).putFld F.SAFE_WDSTAT_RUN 0 k))

/-- How every packet command is judged (R31, R80, R82, R83, R92, R93, R103, R112, R274, R296, R325, R492). For every packet command that is
the next of its queue there is a rule with its opcode, which HELD and SAFE accept exactly for the opcodes that they name (R449), such that:
an absent queue or an empty ring gives nothing; a draining queue completes the packet REJECTED_STATE; a queue in FAULT completes it with the
status of the teardown that put it there, if one did; FAULT without one and OFF do not read it; a queue that holds a packet holds this one
behind it; one that the tail does not cover waits at the head; a slot that cannot be read puts the queue in FAULT; a packet for another
reachable member is forwarded; one that fails one of checks 1 to 8 completes with that check's status; one that must wait is held at the
head, its checks made; and one that fails check 9, unless fenced, completes REJECTED_STATE with RESULT 9. The model's readings here: a
packet command carries the packet (log entry 8), the checks are made once at the head (log entry 9), what OFF, FAULT and DRAINING do with it
(log entries 10 and 12), and RESULT of a late rejection (log entry 11). -/
def Obligations.PacketsAreJudged : Prop :=
  ∀ (c : Instr) (s : State) (p : Packet), packetOf c = some p → s.cq.taking = false → ∃ r : Rule, r.op = opcodeOf c ∧
    (r.inHeld = true ↔ r.op ∈ ([⟨1, 1⟩, ⟨1, 2⟩, ⟨1, 3⟩, ⟨1, 0x20⟩, ⟨1, 0x21⟩] : List Opcode)) ∧
    (r.inSafe = true ↔ r.op ∈ ([⟨1, 2⟩, ⟨1, 3⟩, ⟨1, 0x20⟩, ⟨1, 0x21⟩] : List Opcode)) ∧
    (8192 ≤ p.queue ∨ s.qAvail p.queue = 0 → exec c s = .next s) ∧
    (p.queue < 8192 → s.qAvail p.queue ≠ 0 →
      (s.qState p.queue = stDraining → exec c s = .next (s.endPacket r p csState)) ∧
      (∀ e, s.qState p.queue = stFault → s.cq.ended.find? (fun e => e.1 == p.queue) = some e → exec c s = .next (s.endPacket r p e.2)) ∧
      (s.qState p.queue = stFault → s.cq.ended.find? (fun e => e.1 == p.queue) = none → exec c s = .next s) ∧
      (s.qState p.queue ≠ stDraining → s.qState p.queue ≠ stFault → s.qState p.queue ≠ stRunning → exec c s = .next s) ∧
      (s.qState p.queue = stRunning →
        (s.qHeld p.queue = true → exec c s = .next (s.keepHeld c false)) ∧
        (s.qHeld p.queue = false → s.fetches p = false → exec c s = .next (s.holdHead c p false r.writes)) ∧
        (s.qHeld p.queue = false → s.fetches p = true → s.headChecked p.queue = false →
          (∀ a, s.badSlot p.queue (pSlots p) = some a → exec c s = .next (s.readFault p.queue a)) ∧
          (s.badSlot p.queue (pSlots p) = none →
            (p.hcrc = hcrcOf r.op p → p.version = 1 → p.trailer = trailerOf r.op p → s.forMe p = false → s.glkRoute p.destDev = true →
              exec c s = .next ((s.consume p).toMember (p.destDev % 64) (.forward p.destDev r.op.cls r.op.code p))) ∧
            (∀ st n d, s.headCheck r p = some (st, n, d) → s.forwards r.op p = false → exec c s = .next (s.reject r p st n d)) ∧
            (s.headCheck r p = none → s.mustHold r.writes p = true → exec c s = .next (s.holdHead c p true r.writes)) ∧
            (s.headCheck r p = none → s.mustHold r.writes p = false → s.fencedOut r p = false → s.check9 r = false → exec c s =
              .next (((((s.consume p).launch r p).countOps p.queue p.partition).finish s.cq.nextId csState 9).retire p.queue p.partition))))))

/-- Stores to shared memory read back, and reach nothing else (R119, R122, R129, spec/04_engine_complex_and_memory.md). With memory in
canonical form, bytes stored to shared memory where no granule is under scrub read back as they were stored, and every byte of shared
memory outside the stored range reads as before; a byte of a granule under scrub reads zero all the same; control registers, flash and
one-time memory are not changed by a store to memory. -/
def Obligations.SmemStoresReadBack : Prop :=
  ∀ (s : State) (a : Nat) (l : List Byte), Memory.wf s = true → a + l.length ≤ 0x10000000 →
    (s.scrubbing a l.length = false → (s.writeBytes a l).bytes a l.length = l) ∧
    (∀ b, b < 0x10000000 → b < a ∨ a + l.length ≤ b → (s.writeBytes a l).byte b = s.byte b) ∧
    (∀ b, b < 0x10000000 → s.scrubbing b 1 = true → (s.writeBytes a l).byte b = 0) ∧
    (s.writeBytes a l).regs = s.regs ∧ (s.writeBytes a l).flash = s.flash ∧ (s.writeBytes a l).chip = s.chip

/-- The Randing hash spreads each region evenly (R134, spec/04_engine_complex_and_memory.md). For every key, on both widths of external
memory, each offset in a region goes to a channel that exists and to an offset in the frame's share of it; each place in each channel's
share comes from exactly one offset, so every key places exactly 1/64, or 1/32, of the region in each channel. -/
def Obligations.RandingIsOneToOne : Prop :=
  ∀ key : Nat,
    (∀ o < 2 ^ 30, (randing key 64 o).1 < 64 ∧ (randing key 64 o).2 < 2 ^ 24 ∧ (randing key 32 o).1 < 32 ∧ (randing key 32 o).2 < 2 ^ 25) ∧
    (∀ o < 2 ^ 30, ∀ o' < 2 ^ 30, (randing key 64 o = randing key 64 o' → o = o') ∧ (randing key 32 o = randing key 32 o' → o = o')) ∧
    (∀ c < 64, ∀ off < 2 ^ 24, ∃ o < 2 ^ 30, randing key 64 o = (c, off)) ∧
    (∀ c < 32, ∀ off < 2 ^ 25, ∃ o < 2 ^ 30, randing key 32 o = (c, off))

/-- What the register maps give at reset (R42, R76, R77, R144, R178, R241, R263, R327, R391, R433, R462, spec/01_slath_and_crown.md). Right
after reset the registers hold the numbers that the register maps give, and outputs are at their safe levels; every register but these and
those that show the package (SYS_ID, PWR_TLIMITS, MEMC_CAP, GLK_UID, SEC_LIFECYCLE, SEC_OTPSTAT, ESC_REPSTAT, ESC_DISABLED, ME_PHYS) reads
zero. Zero where a map gives none is the model's choice (log entry 3). -/
def Obligations.ResetRegisters : Prop :=
  State.reset.devState = devBoot ∧ State.reset.reg .SYS_RSTCAUSE = 1 ∧ State.reset.reg .CLK_STATUS = 0x402 ∧ State.reset.reg .CLK_SRCSEL = 2 ∧
  State.reset.reg .CLK_NETREF = 0x140000 ∧ State.reset.reg .CLK_GATE = 0x8001 ∧ State.reset.reg .PWR_DROOP_CFG = 0x28 ∧
  State.reset.reg .MEMC_RW_CFG = 0x03E80008 ∧ State.reset.reg .ADMA_PMCFG = 0x00640032 ∧ State.reset.reg .VIS_OVCFG = 0x7D0 ∧
  State.reset.reg .GLK_CLAIMCFG = 0x00640064 ∧ State.reset.reg .GLK_NAPCFG = 0x001407D0 ∧ State.reset.reg .GLK_NAPMAX = 0x3E8 ∧
  State.reset.reg .GLK_DIGCFG = 0x02580000 ∧ State.reset.reg .SAFE_STATUS = 0x40000003 ∧ State.reset.reg .SAFE_TBCFG = 0x40 ∧
  State.reset.reg .ESC_CFG = 0x200 ∧ State.reset.reg .ESC_GUARD = 0x64 ∧ State.reset.reg .CHR_CFG = 0xA ∧
  (∀ n < 17, State.reset.reg .SYS_DEPEND n = builtinDeps.getD n 0) ∧ (∀ n < 192, State.reset.reg .MEMC_REGION n = n) ∧
  (∀ n < 8, State.reset.reg .CLK_SENSFREQ n = 0x016E3600 ∧ State.reset.reg .CLK_SENSCTL n = 0x1E ∧ State.reset.reg .CAN_LTCFG n = 0x186A0) ∧
  (∀ n < 16, State.reset.reg .MOT_OBSCFG n = 0x8400C864 ∧ State.reset.reg .MOT_ASCCFG n = 2000 * 65536 ∧ State.reset.reg .SPW_STAT n = 0x40) ∧
  (∀ n < 9, State.reset.reg .ETH_LTCFG n = 0x3E8) ∧
  (∀ (r : Reg) (i j : Nat), r ∉ ([.SYS_DEVSTATE, .SYS_RSTCAUSE, .CLK_STATUS, .CLK_SRCSEL, .CLK_NETREF, .CLK_GATE, .PWR_DROOP_CFG, .MEMC_RW_CFG,
      .ADMA_PMCFG, .VIS_OVCFG, .GLK_CLAIMCFG, .GLK_NAPCFG, .GLK_NAPMAX, .GLK_DIGCFG, .SAFE_STATUS, .SAFE_TBCFG, .ESC_CFG, .ESC_GUARD, .CHR_CFG] : List Reg) →
      r ∉ ([.SYS_DEPEND, .MEMC_REGION, .CLK_SENSFREQ, .CLK_SENSCTL, .CAN_LTCFG, .MOT_OBSCFG, .MOT_ASCCFG, .SPW_STAT, .ETH_LTCFG, .SYS_ID, .PWR_TLIMITS,
      .MEMC_CAP, .GLK_UID, .SEC_LIFECYCLE, .SEC_OTPSTAT, .ESC_REPSTAT, .ESC_DISABLED, .ME_PHYS] : List Reg) → State.reset.reg r i j = 0) ∧
  State.reset.pins.heldLevels

/-- A signal adds and never wraps (R107, spec/03_command_packets_queues_and_sync.md). A signal of a counter leaves it at the sum, or at 2^64
− 1 with SATURATED set where the sum would pass it, and leaves every other counter as it was, with flash and the package. -/
def Obligations.SyncSignalsAdd : Prop :=
  ∀ (s : State) (c n : Nat), s.regsWf → ∃ t, t = s.signal c n ∧
    (s.reg .SYNC_CTR c + n < 2 ^ 64 → t.reg .SYNC_CTR c = s.reg .SYNC_CTR c + n) ∧
    (2 ^ 64 ≤ s.reg .SYNC_CTR c + n → t.reg .SYNC_CTR c = 2 ^ 64 - 1 ∧ t.flag F.SYNC_STATUS_SATURATED = true) ∧
    (∀ d, d ≠ c → t.reg .SYNC_CTR d = s.reg .SYNC_CTR d) ∧ t.flash = s.flash ∧ t.chip = s.chip

/-- Blocks that only partition 0 initiators reach (R77, R116, R144, R150, R178, R203, R289, R327, R464,
spec/04_engine_complex_and_memory.md). A REGISTER_WRITE by an initiator that is not of partition 0, to a register of PWR, MEMC, PCIE,
DMA, ME, SCAN, FWL, GLK or LOG, is a bus error and changes nothing else; a read of a register of PCIE, DMA, ME, SCAN, FWL, GLK or LOG by
one is a bus error too. -/
def Obligations.GuardedRegisters : Prop :=
  ∀ (s : State) (a i j off init : Nat) (b : Block) (r : Reg) (w : RegWrite), blockOf a = some b → findReg a = some (r, i, j, off) →
    (s.p0 w.initiator = false → r.info.block ∈ ([.PWR, .MEMC, .PCIE, .DMA, .ME, .SCAN, .FWL, .GLK, .LOG] : List Block) →
      exec (.registerWrite a w) s = .next s.busErr) ∧
    (s.p0 init = false → r.info.block ∈ ([.PCIE, .DMA, .ME, .SCAN, .FWL, .GLK, .LOG] : List Block) →
      exec (.gatedRead a init) s = .next s.busErr)

/-- What clock and power commands leave alone (R54, R60, R62, R64, R69, R70, R71, R72, R73, spec/02_clocks_power_and_margins.md). Where they
answer a next state, the named commands change no memory, no flash, no one-time memory and no register outside the blocks CLK; PWR and
LOG; PWR and VIS, whose VIS_UBUSY counts the cycles that were not skipped; or PWR, GLK and LOG, as listed. -/
def Obligations.FramesOfClocksAndPower : Prop :=
  ∀ s u : State, s.regsWf →
    (exec .netrefReady s = .next u → s.sameOutside u [.CLK]) ∧
    (∀ (w : RegWrite), exec (.clkNetrefWrite w) s = .next u → s.sameOutside u [.CLK]) ∧
    (∀ (n : Nat) (w : RegWrite), exec (.sensclkEnable n w) s = .next u → s.sameOutside u [.CLK]) ∧
    (exec .pmbusLost s = .next u → s.sameOutside u [.PWR, .LOG]) ∧
    (exec .pwrCapUnmet s = .next u → s.sameOutside u [.PWR, .LOG]) ∧
    (∀ (w : RegWrite), exec (.pwrAvsInvalidate w) s = .next u → s.sameOutside u [.PWR, .LOG]) ∧
    (∀ (belowMv : Nat), exec (.droopDetect belowMv) s = .next u → s.sameOutside u [.PWR, .LOG]) ∧
    (∀ (skipped : Nat), exec (.droopRecovery skipped) s = .next u → s.sameOutside u [.PWR, .VIS]) ∧
    (∀ (busyPercent : Nat), exec (.loadBandWindow busyPercent) s = .next u → s.sameOutside u [.PWR, .GLK, .LOG]) ∧
    (∀ (band : Nat) (offset : Nat) (tj : Nat), exec (.bandMeasured band offset tj) s = .next u → s.sameOutside u [.PWR, .GLK, .LOG]) ∧
    (exec .avsLower s = .next u → s.sameOutside u [.PWR, .GLK, .LOG]) ∧
    (∀ (sensor : Nat) (tj : Nat), exec (.thermalThrottle sensor tj) s = .next u → s.sameOutside u [.PWR, .GLK, .LOG])

/-- What Grenlink, Ethernet, Chronometer and CAN commands leave alone (R293, R299, R301, R304, R306, R309, R323, R407, R412, R425, R428,
spec/13_can_ethernet_and_the_chronometer.md). Where they answer a next state, the named commands change no memory, no flash, no one-time
memory and no register outside GLK and LOG; ETH and LOG; CHR and LOG; or CAN and LOG, with SYS where a register write may be staged. -/
def Obligations.FramesOfLinks : Prop :=
  ∀ s u : State, s.regsWf →
    (∀ (dest : Nat), exec (.rerouteDone dest) s = .next u → s.sameOutside u [.GLK, .LOG]) ∧
    (exec .announceTimer s = .next u → s.sameOutside u [.GLK, .LOG]) ∧
    (∀ (n : Nat) (prio : Nat) (uid : Nat), exec (.rootClaim n prio uid) s = .next u → s.sameOutside u [.GLK, .LOG]) ∧
    (exec .claimTimer s = .next u → s.sameOutside u [.GLK, .LOG]) ∧
    (exec .rootLost s = .next u → s.sameOutside u [.GLK, .LOG]) ∧
    (∀ (n : Nat) (flit : Nat) (asked : Bool), exec (.flitReplay n flit asked) s = .next u → s.sameOutside u [.GLK, .LOG]) ∧
    (∀ (n : Nat), exec (.glkRetrainDone n) s = .next u → s.sameOutside u [.GLK, .LOG]) ∧
    (∀ (n : Nat) (wake : Nat), exec (.napPropose n wake) s = .next u → s.sameOutside u [.GLK, .LOG]) ∧
    (∀ (n : Nat) (wake : Nat) (traffic : Bool), exec (.napProposal n wake traffic) s = .next u → s.sameOutside u [.GLK, .LOG]) ∧
    (∀ (n : Nat), exec (.napAccept n) s = .next u → s.sameOutside u [.GLK, .LOG]) ∧
    (∀ (n : Nat), exec (.napWake n) s = .next u → s.sameOutside u [.GLK, .LOG]) ∧
    (∀ (n : Nat), exec (.wakeSequence n) s = .next u → s.sameOutside u [.GLK, .LOG]) ∧
    (∀ (n : Nat), exec (.napResync n) s = .next u → s.sameOutside u [.GLK, .LOG]) ∧
    (∀ (x : DelayMeasure), exec (.linkDelayMeasure x) s = .next u → s.sameOutside u [.GLK, .LOG]) ∧
    (∀ (x : BarArm), exec (.barrierArm x) s = .next u → s.sameOutside u [.GLK, .LOG]) ∧
    (∀ (id : Nat) (member : Nat) (ack : Bool), exec (.barrierReply id member ack) s = .next u → s.sameOutside u [.GLK, .LOG]) ∧
    (∀ (id : Nat) (confirm : Bool), exec (.barrierConfirm id confirm) s = .next u → s.sameOutside u [.GLK, .LOG]) ∧
    (exec .fenceSuspendEnd s = .next u → s.sameOutside u [.GLK, .LOG]) ∧
    (exec .heartbeatTimer s = .next u → s.sameOutside u [.GLK, .LOG]) ∧
    (∀ (data : List Byte), exec (.heartbeatRx data) s = .next u → s.sameOutside u [.GLK, .LOG]) ∧
    (∀ (port : Nat), exec (.ethLinkUp port) s = .next u → s.sameOutside u [.ETH, .LOG]) ∧
    (∀ (port : Nat), exec (.ethLinkDown port) s = .next u → s.sameOutside u [.ETH, .LOG]) ∧
    (∀ (port : Nat), exec (.ethPreemptVerifyFail port) s = .next u → s.sameOutside u [.ETH, .LOG]) ∧
    (∀ (port : Nat), exec (.gateInterval port) s = .next u → s.sameOutside u [.ETH, .LOG]) ∧
    (∀ (port : Nat) (w : RegWrite), exec (.gclChange port w) s = .next u → s.sameOutside u [.ETH, .LOG, .SYS]) ∧
    (∀ (port : Nat) (delay : Nat), exec (.ptpPdelay port delay) s = .next u → s.sameOutside u [.CHR, .LOG]) ∧
    (exec .revertTimer s = .next u → s.sameOutside u [.CHR, .LOG]) ∧
    (∀ (c : Nat) (e : Nat), exec (.canLaunch c e) s = .next u → s.sameOutside u [.CAN, .LOG]) ∧
    (∀ (c : Nat), exec (.canBusOffRecovery c) s = .next u → s.sameOutside u [.CAN, .LOG]) ∧
    (∀ (c : Nat) (w : RegWrite), exec (.canRxfack c w) s = .next u → s.sameOutside u [.CAN, .LOG]) ∧
    (∀ (c : Nat) (refId : Nat) (cycle : Nat), exec (.canTtCycleStart c refId cycle) s = .next u → s.sameOutside u [.CAN, .LOG]) ∧
    (∀ (c : Nat) (j : Nat), exec (.canTtColumn c j) s = .next u → s.sameOutside u [.CAN, .LOG]) ∧
    (∀ (c : Nat), exec (.canTtRefTimeout c) s = .next u → s.sameOutside u [.CAN, .LOG]) ∧
    (∀ (c : Nat) (w : RegWrite), exec (.recover c w) s = .next u → s.sameOutside u [.CAN, .LOG, .SYS]) ∧
    (∀ (c : Nat) (role : CanRole) (code : Nat) (kind : CanErrKind), exec (.canBusError c role code kind) s = .next u → s.sameOutside u [.CAN, .LOG, .SYS])

/-- What queue, sharing, camera, motion and security commands leave alone (R92, R100, R101, R111, R115, R200, R201, R284, R336, R388, R452,
spec/03_command_packets_queues_and_sync.md). Where they answer a next state, the named commands change no memory, no flash, no one-time
memory and no register outside the blocks listed with them: CMDQ; SYNC; ESC; SCAN and ME; MEMC; CAM; MOT; SEC; with LOG where they log an
event. The failed ring access is that of a read. SCAN_SWAP_OUT writes memory only in the entry of the swap area that the stream takes, and
UNPIN only in that entry or in the stream's slot. Where a swapped stream stands is the model's reading (log entry 44). -/
def Obligations.FramesOfUnits : Prop :=
  ∀ s u : State, s.regsWf →
    (∀ (q : Nat) (w : RegWrite), exec (.cmdqDb q w) s = .next u → s.sameOutside u [.CMDQ, .LOG]) ∧
    (∀ (q : Nat), exec (.udpAckTimer q) s = .next u → s.sameOutside u [.CMDQ, .LOG]) ∧
    (∀ (q : Nat), exec (.cplResend q) s = .next u → s.sameOutside u [.CMDQ, .LOG]) ∧
    (∀ (q : Nat) (initiator : Nat), exec (.ringAccessFault q false initiator) s = .next u → s.sameOutside u [.CMDQ, .LOG]) ∧
    (∀ (q : Nat), exec (.queueDrained q) s = .next u → s.sameOutside u [.CMDQ, .ESC, .LOG]) ∧
    (exec .guardEpoch s = .next u → s.sameOutside u [.CMDQ, .ESC, .LOG]) ∧
    (∀ (k : Nat) (w : RegWrite), exec (.watchArm k w) s = .next u → s.sameOutside u [.SYNC, .SYS, .LOG]) ∧
    (∀ (k : Nat) (w : RegWrite), exec (.syncRangeWrite k w) s = .next u → s.sameOutside u [.SYNC, .SYS, .LOG]) ∧
    (∀ (cls : Nat) (unit : Nat), exec (.lendHoldExpire cls unit) s = .next u → s.sameOutside u [.ESC]) ∧
    (∀ (w : RegWrite), exec (.escRepairSwap w) s = .next u → s.sameOutside u [.ESC]) ∧
    (∀ (p q : Nat), Memory.wf s = true → exec (.scanSwapOut p q) s = .next u → s.regsOutside u [.SCAN, .ME] ∧ s.memOutside u (s.swapOutRange p q)) ∧
    (∀ (w : RegWrite), exec (.pin w) s = .next u → s.sameOutside u [.SCAN, .ME]) ∧
    (∀ (w : RegWrite), Memory.wf s = true → exec (.unpin w) s = .next u → s.regsOutside u [.SCAN, .ME] ∧
      s.memOutside u (s.unpinRanges (bitsOf w.value 59 54) (bitsOf w.value 23 0))) ∧
    (exec .reweaveDone s = .next u → s.sameOutside u [.MEMC, .LOG]) ∧
    (∀ (x : ShortPacket), exec (.csi2FrameEnd x) s = .next u → s.sameOutside u [.CAM, .LOG]) ∧
    (∀ (k : Nat), exec (.feTimeout k) s = .next u → s.sameOutside u [.CAM, .LOG]) ∧
    (∀ (n : Nat) (w : RegWrite), exec (.camExpoCommit n w) s = .next u → s.sameOutside u [.CAM, .LOG]) ∧
    (∀ (n : Nat) (ok : Bool), exec (.i3cWriteDone n ok) s = .next u → s.sameOutside u [.CAM, .LOG]) ∧
    (∀ (n : Nat) (rise : Bool), exec (.fsyncPulse n rise) s = .next u → s.sameOutside u [.CAM, .LOG]) ∧
    (∀ (a : Nat), exec (.ascHoldEnd a) s = .next u → s.sameOutside u [.MOT, .LOG]) ∧
    (∀ (a : Nat) (w : RegWrite), exec (.returnAngle a w) s = .next u → s.sameOutside u [.MOT, .LOG]) ∧
    (∀ (a : Nat) (w : RegWrite), exec (.axctlFlush a w) s = .next u → s.sameOutside u [.MOT, .LOG]) ∧
    (∀ (t : Nat) (w : RegWrite), exec (.arm t w) s = .next u → s.sameOutside u [.MOT, .LOG]) ∧
    (∀ (t : Nat) (w : RegWrite), exec (.trigger t w) s = .next u → s.sameOutside u [.MOT, .LOG]) ∧
    (∀ (t : Nat) (w : RegWrite), exec (.traceStop t w) s = .next u → s.sameOutside u [.MOT, .LOG]) ∧
    (∀ (a : Nat) (w : RegWrite), exec (.spwPush a w) s = .next u → s.sameOutside u [.MOT, .LOG]) ∧
    (∀ (w : RegWrite), exec (.challenge w) s = .next u → s.sameOutside u [.SEC, .LOG]) ∧
    (∀ (w : RegWrite), exec (.respond w) s = .next u → s.sameOutside u [.SEC, .LOG]) ∧
    (∀ (w : RegWrite), exec (.lock w) s = .next u → s.sameOutside u [.SEC, .LOG])
end

