-- ==== Sys2Proof/Laws/Bytes.lean ====
section
/-! SUPPORT. Bytes: little-endian numbers in byte lists, ranges of listed cells, and the width of a checksum. -/

namespace Sys2Proof.Machine

@[simp] theorem toLe_length (n v : Nat) : (toLe n v).length = n := by
  induction n generalizing v with
  | zero => rfl
  | succ n ih => simp [toLe, ih]

theorem leNat_toLe (n v : Nat) : leNat (toLe n v) = v % 256 ^ n := by
  induction n generalizing v with
  | zero => simp [toLe, leNat, Nat.mod_one]
  | succ n ih =>
    simp only [toLe, leNat, ih, BitVec.toNat_ofNat]
    rw [show (256 : Nat) ^ (n + 1) = 256 * 256 ^ n by rw [Nat.pow_succ, Nat.mul_comm], Nat.mod_mul]

/-- The bytes at the place where they were laid. -/
theorem bytesAt_mid {pre mid post : List Byte} {off n : Nat} (h : pre.length = off) (h1 : mid.length = n) :
    bytesAt (pre ++ (mid ++ post)) off n = mid := by
  subst h; subst h1; simp [bytesAt]

/-- The number at the place where it was laid. -/
theorem leAt_mid {pre post : List Byte} {off n v : Nat} (h : pre.length = off) :
    leAt (pre ++ (toLe n v ++ post)) off n = v % 256 ^ n := by
  rw [leAt, bytesAt_mid h (toLe_length n v), leNat_toLe]

/-! Listed cells and checksums. -/

/-- Cells below an address do not matter to it. -/
theorem get_skip (d : Nat → Byte) (m m' : List (Nat × Byte)) (k : Nat) (h : ∀ e ∈ m, e.1 < k) : sparseGet d (m ++ m') k = sparseGet d m' k := by
  induction m with
  | nil => rfl
  | cons e m ih =>
    have h1 := h e (by simp)
    have ih := ih (fun x hx => h x (by simp [hx]))
    simp only [List.cons_append, sparseGet]
    rw [if_neg (by omega), if_neg (by omega), ih]

/-- Cells below the first address do not matter to a range. -/
theorem getList_skip (d : Nat → Byte) (m m' : List (Nat × Byte)) : ∀ (n k : Nat), (∀ e ∈ m, e.1 < k) →
    sparseGetList d (m ++ m') k n = sparseGetList d m' k n
  | 0, _, _ => rfl
  | n + 1, k, h => by
    simp only [sparseGetList]
    rw [get_skip d m m' k h, getList_skip d m m' n (k + 1) (fun e he => Nat.lt_succ_of_lt (h e he))]

/-- An address that is not listed reads as the default. -/
theorem get_none (d : Nat → Byte) (m : List (Nat × Byte)) (k : Nat) (h : ∀ e ∈ m, e.1 ≠ k) : sparseGet d m k = d k := by
  induction m with
  | nil => rfl
  | cons e m ih =>
    have h1 := h e (by simp)
    have ih := ih (fun x hx => h x (by simp [hx]))
    simp only [sparseGet]
    split
    · rfl
    · rw [if_neg (fun h => h1 h.symm), ih]

/-- A range of which nothing is listed reads as the default. -/
theorem getList_none (v : Byte) (m : List (Nat × Byte)) : ∀ (n k : Nat), (∀ e ∈ m, e.1 < k ∨ k + n ≤ e.1) →
    sparseGetList (fun _ => v) m k n = List.replicate n v
  | 0, _, _ => rfl
  | n + 1, k, h => by
    simp only [sparseGetList, List.replicate_succ]
    rw [get_none _ m k (fun e he => by have := h e he; omega), getList_none v m n (k + 1) (fun e he => by have := h e he; omega)]

/-- A range read in two parts. -/
theorem getList_append (d : Nat → Byte) (m : List (Nat × Byte)) : ∀ (n k l : Nat),
    sparseGetList d m k (n + l) = sparseGetList d m k n ++ sparseGetList d m (k + n) l
  | 0, k, l => by simp [sparseGetList]
  | n + 1, k, l => by
    rw [show n + 1 + l = (n + l) + 1 by omega]
    simp only [sparseGetList, List.cons_append]
    rw [getList_append d m n (k + 1) l, show k + (n + 1) = k + 1 + n by omega]

theorem crc32cBits_lt : ∀ (n c : Nat), c < 2 ^ 32 → crc32cBits n c < 2 ^ 32
  | 0, _, h => h
  | n + 1, c, h => by
    unfold crc32cBits
    apply crc32cBits_lt
    split
    · exact Nat.xor_lt_two_pow (by omega) (by decide)
    · omega

theorem crc32cFrom_lt : ∀ (l : List Byte) (c : Nat), c < 2 ^ 32 → crc32cFrom c l < 2 ^ 32
  | [], _, h => h
  | b :: l, c, h => by
    unfold crc32cFrom
    exact crc32cFrom_lt l _ (crc32cBits_lt _ _ (Nat.xor_lt_two_pow h (by have := b.isLt; omega)))

/-- A CRC-32C has 32 bits. -/
theorem crc32c_lt (l : List Byte) : crc32c l < 256 ^ 4 := Nat.xor_lt_two_pow (n := 32) (crc32cFrom_lt l _ (by decide)) (by decide)

end Sys2Proof.Machine
end

