-- ==== Sys2Proof/Laws/Sparse.lean ====
section
/-! SUPPORT. Laws of the sparse maps behind registers, memory and flash: every operation keeps the canonical form, a read after a write
gives what was written, and a write leaves every other key alone. -/

namespace Sys2Proof.Machine

variable {α : Type} {d : Nat → α}

/-- Where every key lies above a bound, the bound drops nothing. -/
theorem dropWhile_above {m : List (Nat × α)} {k : Nat} (h : ∀ e ∈ m, k < e.1) : m.dropWhile (fun e => decide (e.1 ≤ k)) = m := by
  cases m with
  | nil => rfl
  | cons x m =>
    have := h x (List.mem_cons_self ..)
    simp [List.dropWhile, Nat.not_le.2 this]

/-- Below every key of a map nothing is listed. -/
theorem sparseGet_below {m : List (Nat × α)} {k : Nat} (h : ∀ e ∈ m, k < e.1) : sparseGet d m k = d k := by
  cases m with
  | nil => rfl
  | cons x m => simp [sparseGet, h x (List.mem_cons_self ..)]

variable [DecidableEq α]

theorem sparseWf_cons {k : Nat} {v : α} {m : List (Nat × α)} :
    sparseWf d ((k, v) :: m) = true ↔ v ≠ d k ∧ (∀ e ∈ m, k < e.1) ∧ sparseWf d m = true := by
  simp [sparseWf, and_assoc]

/-- Keys of a map after a write are its keys and the one written. -/
theorem sparseSet_keys {m : List (Nat × α)} {k : Nat} {v : α} {e : Nat × α} (h : e ∈ sparseSet d m k v) : e.1 = k ∨ e ∈ m := by
  induction m with
  | nil =>
    simp only [sparseSet] at h
    split at h <;> simp_all
  | cons x m ih =>
    simp only [sparseSet] at h
    split at h
    · split at h
      · exact .inr h
      · rcases List.mem_cons.1 h with rfl | h
        · exact .inl rfl
        · exact .inr h
    · split at h
      · split at h
        · exact .inr (List.mem_cons_of_mem _ ((List.dropWhile_sublist _).subset h))
        · rcases List.mem_cons.1 h with rfl | h
          · exact .inl rfl
          · exact .inr (List.mem_cons_of_mem _ h)
      · rcases List.mem_cons.1 h with rfl | h
        · exact .inr (List.mem_cons_self ..)
        · exact (ih h).imp_right (List.mem_cons_of_mem _)

/-- A write keeps the canonical form. -/
theorem sparseSet_wf {m : List (Nat × α)} {k : Nat} {v : α} (h : sparseWf d m = true) : sparseWf d (sparseSet d m k v) = true := by
  induction m with
  | nil =>
    simp only [sparseSet]
    split
    · rfl
    · rename_i hv
      simp [sparseWf, hv]
  | cons x m ih =>
    obtain ⟨k', v'⟩ := x
    obtain ⟨hv, hk, hm⟩ := sparseWf_cons.1 h
    simp only [sparseSet]
    split
    · rename_i hlt
      split
      · exact h
      · rename_i hne
        refine sparseWf_cons.2 ⟨hne, fun e he => ?_, h⟩
        rcases List.mem_cons.1 he with rfl | he
        · exact hlt
        · exact Nat.lt_trans hlt (hk e he)
    · split
      · rename_i _ heq
        subst heq
        split
        · rw [dropWhile_above hk]; exact hm
        · rename_i hne
          exact sparseWf_cons.2 ⟨hne, hk, hm⟩
      · rename_i h1 h2
        refine sparseWf_cons.2 ⟨hv, fun e he => ?_, ih hm⟩
        rcases sparseSet_keys he with h3 | h3
        · omega
        · exact hk e h3

/-- Consecutive writes keep the canonical form. -/
theorem sparseSetList_wf {m : List (Nat × α)} {k : Nat} {vs : List α} (h : sparseWf d m = true) :
    sparseWf d (sparseSetList d m k vs) = true := by
  induction vs generalizing m k with
  | nil => exact h
  | cons v vs ih => exact ih (sparseSet_wf h)

/-- Removing entries keeps the canonical form. -/
theorem sparseFilter_wf {m : List (Nat × α)} {p : Nat × α → Bool} (h : sparseWf d m = true) : sparseWf d (m.filter p) = true := by
  induction m with
  | nil => exact h
  | cons x m ih =>
    obtain ⟨hv, hk, hm⟩ := sparseWf_cons.1 h
    rw [List.filter_cons]
    split
    · exact sparseWf_cons.2 ⟨hv, fun e he => hk e (List.mem_filter.1 he).1, ih hm⟩
    · exact ih hm

/-- Clearing a range keeps the canonical form. -/
theorem sparseClear_wf {m : List (Nat × α)} {lo hi : Nat} (h : sparseWf d m = true) : sparseWf d (sparseClear m lo hi) = true :=
  sparseFilter_wf h

/-- A read of the key just written gives what was written. -/
theorem sparseGet_set_same {m : List (Nat × α)} {k : Nat} {v : α} (h : sparseWf d m = true) : sparseGet d (sparseSet d m k v) k = v := by
  induction m with
  | nil =>
    simp only [sparseSet]
    split <;> simp_all [sparseGet]
  | cons x m ih =>
    obtain ⟨k', v'⟩ := x
    obtain ⟨hv, hk, hm⟩ := sparseWf_cons.1 h
    simp only [sparseSet]
    split
    · split
      · simp_all [sparseGet]
      · simp [sparseGet]
    · split
      · split
        · rename_i _ heq hd
          subst heq
          rw [dropWhile_above hk]
          cases m with
          | nil => simp [sparseGet, hd]
          | cons y m =>
            have := hk y (List.mem_cons_self ..)
            simp [sparseGet, this, hd]
        · simp [sparseGet]
      · rename_i h1 h2
        simp only [sparseGet, if_neg h1, if_neg h2]
        exact ih hm

/-- A write leaves every other key alone. -/
theorem sparseGet_set_other {m : List (Nat × α)} {k j : Nat} {v : α} (h : sparseWf d m = true) (hj : j ≠ k) :
    sparseGet d (sparseSet d m k v) j = sparseGet d m j := by
  induction m with
  | nil =>
    simp only [sparseSet]
    split
    · rfl
    · simp [sparseGet, hj]
  | cons x m ih =>
    obtain ⟨k', v'⟩ := x
    obtain ⟨hv, hk, hm⟩ := sparseWf_cons.1 h
    simp only [sparseSet]
    split
    · rename_i hlt
      split
      · rfl
      · simp only [sparseGet, if_neg hj]
        split
        · rw [if_pos (by omega)]
        · rfl
    · split
      · rename_i h1 heq
        subst heq
        split
        · rw [dropWhile_above hk]
          simp only [sparseGet, if_neg hj]
          split
          · rename_i hlt
            exact sparseGet_below (fun e he => Nat.lt_trans hlt (hk e he))
          · rfl
        · simp only [sparseGet, if_neg hj]
      · simp only [sparseGet]
        split
        · rfl
        · split
          · rfl
          · exact ih hm

/-- A write at a key leaves the range of other keys alone. -/
theorem sparseGet_setList_other {m : List (Nat × α)} {k j : Nat} {vs : List α} (h : sparseWf d m = true) (hj : j < k ∨ k + vs.length ≤ j) :
    sparseGet d (sparseSetList d m k vs) j = sparseGet d m j := by
  induction vs generalizing m k with
  | nil => rfl
  | cons v vs ih =>
    simp only [List.length_cons] at hj
    rw [sparseSetList, ih (sparseSet_wf h) (by omega), sparseGet_set_other h (by omega)]

/-- A read of consecutive keys just written gives what was written. -/
theorem sparseGet_setList_same {m : List (Nat × α)} {k j : Nat} {vs : List α} (h : sparseWf d m = true) (hj : j < vs.length) :
    sparseGet d (sparseSetList d m k vs) (k + j) = vs[j] := by
  induction vs generalizing m k j with
  | nil => simp at hj
  | cons v vs ih =>
    rw [sparseSetList]
    cases j with
    | zero => rw [sparseGet_setList_other (sparseSet_wf h) (by omega)]; exact sparseGet_set_same h
    | succ j =>
      have := ih (m := sparseSet d m k v) (k := k + 1) (j := j) (sparseSet_wf h) (by simpa using hj)
      rw [show k + (j + 1) = k + 1 + j by omega, this]
      rfl

end Sys2Proof.Machine
end

