-- ==== Sys2Proof/Laws/State.lean ====
section
/-! SUPPORT. One lemma per field of State per update: what setReg, putFld, setMem and the other elementary operations leave
as it was. -/

namespace Sys2Proof.Machine

variable (s : State)

@[simp] theorem State.setReg_mem (r : Reg) (n i j : Nat) : (s.setReg r n i j).mem = s.mem := rfl
@[simp] theorem State.setReg_flash (r : Reg) (n i j : Nat) : (s.setReg r n i j).flash = s.flash := rfl
@[simp] theorem State.setReg_chip (r : Reg) (n i j : Nat) : (s.setReg r n i j).chip = s.chip := rfl
@[simp] theorem State.setReg_dev (r : Reg) (n i j : Nat) : (s.setReg r n i j).dev = s.dev := rfl
@[simp] theorem State.setReg_pins (r : Reg) (n i j : Nat) : (s.setReg r n i j).pins = s.pins := rfl
@[simp] theorem State.setReg_clk (r : Reg) (n i j : Nat) : (s.setReg r n i j).clk = s.clk := rfl
@[simp] theorem State.setReg_cq (r : Reg) (n i j : Nat) : (s.setReg r n i j).cq = s.cq := rfl
@[simp] theorem State.setReg_esc (r : Reg) (n i j : Nat) : (s.setReg r n i j).esc = s.esc := rfl
@[simp] theorem State.setReg_me (r : Reg) (n i j : Nat) : (s.setReg r n i j).me = s.me := rfl
@[simp] theorem State.setReg_streams (r : Reg) (n i j : Nat) : (s.setReg r n i j).streams = s.streams := rfl
@[simp] theorem State.setReg_kv (r : Reg) (n i j : Nat) : (s.setReg r n i j).kv = s.kv := rfl
@[simp] theorem State.setReg_mot (r : Reg) (n i j : Nat) : (s.setReg r n i j).mot = s.mot := rfl
@[simp] theorem State.setReg_cam (r : Reg) (n i j : Nat) : (s.setReg r n i j).cam = s.cam := rfl
@[simp] theorem State.setReg_vid (r : Reg) (n i j : Nat) : (s.setReg r n i j).vid = s.vid := rfl
@[simp] theorem State.setReg_chr (r : Reg) (n i j : Nat) : (s.setReg r n i j).chr = s.chr := rfl
@[simp] theorem State.setReg_eth (r : Reg) (n i j : Nat) : (s.setReg r n i j).eth = s.eth := rfl
@[simp] theorem State.setReg_can (r : Reg) (n i j : Nat) : (s.setReg r n i j).can = s.can := rfl
@[simp] theorem State.setReg_glk (r : Reg) (n i j : Nat) : (s.setReg r n i j).glk = s.glk := rfl
@[simp] theorem State.setReg_memc (r : Reg) (n i j : Nat) : (s.setReg r n i j).memc = s.memc := rfl
@[simp] theorem State.setReg_msix (r : Reg) (n i j : Nat) : (s.setReg r n i j).msix = s.msix := rfl
@[simp] theorem State.setReg_objs (r : Reg) (n i j : Nat) : (s.setReg r n i j).objs = s.objs := rfl
@[simp] theorem State.setReg_keys (r : Reg) (n i j : Nat) : (s.setReg r n i j).keys = s.keys := rfl
@[simp] theorem State.setReg_log (r : Reg) (n i j : Nat) : (s.setReg r n i j).log = s.log := rfl
@[simp] theorem State.setReg_safe (r : Reg) (n i j : Nat) : (s.setReg r n i j).safe = s.safe := rfl
@[simp] theorem State.setReg_irqs (r : Reg) (n i j : Nat) : (s.setReg r n i j).irqs = s.irqs := rfl
@[simp] theorem State.setReg_sent (r : Reg) (n i j : Nat) : (s.setReg r n i j).sent = s.sent := rfl
@[simp] theorem State.setReg_scrub (r : Reg) (n i j : Nat) : (s.setReg r n i j).scrub = s.scrub := rfl
@[simp] theorem State.setReg_app (r : Reg) (n i j : Nat) : (s.setReg r n i j).app = s.app := rfl
@[simp] theorem State.setReg_traffic (r : Reg) (n i j : Nat) : (s.setReg r n i j).traffic = s.traffic := rfl
@[simp] theorem State.setReg_scrubHit (r : Reg) (n i j : Nat) : (s.setReg r n i j).scrubHit = s.scrubHit := rfl
@[simp] theorem State.setReg_busError (r : Reg) (n i j : Nat) : (s.setReg r n i j).busError = s.busError := rfl
@[simp] theorem State.setReg_readValue (r : Reg) (n i j : Nat) : (s.setReg r n i j).readValue = s.readValue := rfl
@[simp] theorem State.setReg_due (r : Reg) (n i j : Nat) : (s.setReg r n i j).due = s.due := rfl
@[simp] theorem State.setReg_free (r : Reg) (n i j : Nat) : (s.setReg r n i j).free = s.free := rfl
@[simp] theorem State.setReg_pending (r : Reg) (n i j : Nat) : (s.setReg r n i j).pending = s.pending := rfl

@[simp] theorem State.putFld_mem (f : Fld) (n i j : Nat) : (s.putFld f n i j).mem = s.mem := rfl
@[simp] theorem State.putFld_flash (f : Fld) (n i j : Nat) : (s.putFld f n i j).flash = s.flash := rfl
@[simp] theorem State.putFld_chip (f : Fld) (n i j : Nat) : (s.putFld f n i j).chip = s.chip := rfl
@[simp] theorem State.putFld_dev (f : Fld) (n i j : Nat) : (s.putFld f n i j).dev = s.dev := rfl
@[simp] theorem State.putFld_pins (f : Fld) (n i j : Nat) : (s.putFld f n i j).pins = s.pins := rfl
@[simp] theorem State.putFld_clk (f : Fld) (n i j : Nat) : (s.putFld f n i j).clk = s.clk := rfl
@[simp] theorem State.putFld_cq (f : Fld) (n i j : Nat) : (s.putFld f n i j).cq = s.cq := rfl
@[simp] theorem State.putFld_esc (f : Fld) (n i j : Nat) : (s.putFld f n i j).esc = s.esc := rfl
@[simp] theorem State.putFld_me (f : Fld) (n i j : Nat) : (s.putFld f n i j).me = s.me := rfl
@[simp] theorem State.putFld_streams (f : Fld) (n i j : Nat) : (s.putFld f n i j).streams = s.streams := rfl
@[simp] theorem State.putFld_kv (f : Fld) (n i j : Nat) : (s.putFld f n i j).kv = s.kv := rfl
@[simp] theorem State.putFld_mot (f : Fld) (n i j : Nat) : (s.putFld f n i j).mot = s.mot := rfl
@[simp] theorem State.putFld_cam (f : Fld) (n i j : Nat) : (s.putFld f n i j).cam = s.cam := rfl
@[simp] theorem State.putFld_vid (f : Fld) (n i j : Nat) : (s.putFld f n i j).vid = s.vid := rfl
@[simp] theorem State.putFld_chr (f : Fld) (n i j : Nat) : (s.putFld f n i j).chr = s.chr := rfl
@[simp] theorem State.putFld_eth (f : Fld) (n i j : Nat) : (s.putFld f n i j).eth = s.eth := rfl
@[simp] theorem State.putFld_can (f : Fld) (n i j : Nat) : (s.putFld f n i j).can = s.can := rfl
@[simp] theorem State.putFld_glk (f : Fld) (n i j : Nat) : (s.putFld f n i j).glk = s.glk := rfl
@[simp] theorem State.putFld_memc (f : Fld) (n i j : Nat) : (s.putFld f n i j).memc = s.memc := rfl
@[simp] theorem State.putFld_msix (f : Fld) (n i j : Nat) : (s.putFld f n i j).msix = s.msix := rfl
@[simp] theorem State.putFld_objs (f : Fld) (n i j : Nat) : (s.putFld f n i j).objs = s.objs := rfl
@[simp] theorem State.putFld_keys (f : Fld) (n i j : Nat) : (s.putFld f n i j).keys = s.keys := rfl
@[simp] theorem State.putFld_log (f : Fld) (n i j : Nat) : (s.putFld f n i j).log = s.log := rfl
@[simp] theorem State.putFld_safe (f : Fld) (n i j : Nat) : (s.putFld f n i j).safe = s.safe := rfl
@[simp] theorem State.putFld_irqs (f : Fld) (n i j : Nat) : (s.putFld f n i j).irqs = s.irqs := rfl
@[simp] theorem State.putFld_sent (f : Fld) (n i j : Nat) : (s.putFld f n i j).sent = s.sent := rfl
@[simp] theorem State.putFld_scrub (f : Fld) (n i j : Nat) : (s.putFld f n i j).scrub = s.scrub := rfl
@[simp] theorem State.putFld_app (f : Fld) (n i j : Nat) : (s.putFld f n i j).app = s.app := rfl
@[simp] theorem State.putFld_traffic (f : Fld) (n i j : Nat) : (s.putFld f n i j).traffic = s.traffic := rfl
@[simp] theorem State.putFld_scrubHit (f : Fld) (n i j : Nat) : (s.putFld f n i j).scrubHit = s.scrubHit := rfl
@[simp] theorem State.putFld_busError (f : Fld) (n i j : Nat) : (s.putFld f n i j).busError = s.busError := rfl
@[simp] theorem State.putFld_readValue (f : Fld) (n i j : Nat) : (s.putFld f n i j).readValue = s.readValue := rfl
@[simp] theorem State.putFld_due (f : Fld) (n i j : Nat) : (s.putFld f n i j).due = s.due := rfl
@[simp] theorem State.putFld_free (f : Fld) (n i j : Nat) : (s.putFld f n i j).free = s.free := rfl
@[simp] theorem State.putFld_pending (f : Fld) (n i j : Nat) : (s.putFld f n i j).pending = s.pending := rfl

@[simp] theorem State.putBytes_regs (a : Nat) (bs : List Byte) : (s.putBytes a bs).regs = s.regs := rfl
@[simp] theorem State.putBytes_flash (a : Nat) (bs : List Byte) : (s.putBytes a bs).flash = s.flash := rfl
@[simp] theorem State.putBytes_chip (a : Nat) (bs : List Byte) : (s.putBytes a bs).chip = s.chip := rfl
@[simp] theorem State.putBytes_dev (a : Nat) (bs : List Byte) : (s.putBytes a bs).dev = s.dev := rfl
@[simp] theorem State.putBytes_pins (a : Nat) (bs : List Byte) : (s.putBytes a bs).pins = s.pins := rfl
@[simp] theorem State.putBytes_clk (a : Nat) (bs : List Byte) : (s.putBytes a bs).clk = s.clk := rfl
@[simp] theorem State.putBytes_cq (a : Nat) (bs : List Byte) : (s.putBytes a bs).cq = s.cq := rfl
@[simp] theorem State.putBytes_esc (a : Nat) (bs : List Byte) : (s.putBytes a bs).esc = s.esc := rfl
@[simp] theorem State.putBytes_me (a : Nat) (bs : List Byte) : (s.putBytes a bs).me = s.me := rfl
@[simp] theorem State.putBytes_streams (a : Nat) (bs : List Byte) : (s.putBytes a bs).streams = s.streams := rfl
@[simp] theorem State.putBytes_kv (a : Nat) (bs : List Byte) : (s.putBytes a bs).kv = s.kv := rfl
@[simp] theorem State.putBytes_mot (a : Nat) (bs : List Byte) : (s.putBytes a bs).mot = s.mot := rfl
@[simp] theorem State.putBytes_cam (a : Nat) (bs : List Byte) : (s.putBytes a bs).cam = s.cam := rfl
@[simp] theorem State.putBytes_vid (a : Nat) (bs : List Byte) : (s.putBytes a bs).vid = s.vid := rfl
@[simp] theorem State.putBytes_chr (a : Nat) (bs : List Byte) : (s.putBytes a bs).chr = s.chr := rfl
@[simp] theorem State.putBytes_eth (a : Nat) (bs : List Byte) : (s.putBytes a bs).eth = s.eth := rfl
@[simp] theorem State.putBytes_can (a : Nat) (bs : List Byte) : (s.putBytes a bs).can = s.can := rfl
@[simp] theorem State.putBytes_glk (a : Nat) (bs : List Byte) : (s.putBytes a bs).glk = s.glk := rfl
@[simp] theorem State.putBytes_memc (a : Nat) (bs : List Byte) : (s.putBytes a bs).memc = s.memc := rfl
@[simp] theorem State.putBytes_msix (a : Nat) (bs : List Byte) : (s.putBytes a bs).msix = s.msix := rfl
@[simp] theorem State.putBytes_objs (a : Nat) (bs : List Byte) : (s.putBytes a bs).objs = s.objs := rfl
@[simp] theorem State.putBytes_log (a : Nat) (bs : List Byte) : (s.putBytes a bs).log = s.log := rfl
@[simp] theorem State.putBytes_safe (a : Nat) (bs : List Byte) : (s.putBytes a bs).safe = s.safe := rfl
@[simp] theorem State.putBytes_irqs (a : Nat) (bs : List Byte) : (s.putBytes a bs).irqs = s.irqs := rfl
@[simp] theorem State.putBytes_sent (a : Nat) (bs : List Byte) : (s.putBytes a bs).sent = s.sent := rfl
@[simp] theorem State.putBytes_scrub (a : Nat) (bs : List Byte) : (s.putBytes a bs).scrub = s.scrub := rfl
@[simp] theorem State.putBytes_app (a : Nat) (bs : List Byte) : (s.putBytes a bs).app = s.app := rfl
@[simp] theorem State.putBytes_traffic (a : Nat) (bs : List Byte) : (s.putBytes a bs).traffic = s.traffic := rfl
@[simp] theorem State.putBytes_scrubHit (a : Nat) (bs : List Byte) : (s.putBytes a bs).scrubHit = s.scrubHit := rfl
@[simp] theorem State.putBytes_busError (a : Nat) (bs : List Byte) : (s.putBytes a bs).busError = s.busError := rfl
@[simp] theorem State.putBytes_readValue (a : Nat) (bs : List Byte) : (s.putBytes a bs).readValue = s.readValue := rfl
@[simp] theorem State.putBytes_due (a : Nat) (bs : List Byte) : (s.putBytes a bs).due = s.due := rfl
@[simp] theorem State.putBytes_free (a : Nat) (bs : List Byte) : (s.putBytes a bs).free = s.free := rfl
@[simp] theorem State.putBytes_pending (a : Nat) (bs : List Byte) : (s.putBytes a bs).pending = s.pending := rfl

@[simp] theorem State.chargeKey_regs (k n : Nat) : (s.chargeKey k n).regs = s.regs := rfl
@[simp] theorem State.chargeKey_mem (k n : Nat) : (s.chargeKey k n).mem = s.mem := rfl
@[simp] theorem State.chargeKey_flash (k n : Nat) : (s.chargeKey k n).flash = s.flash := rfl
@[simp] theorem State.chargeKey_chip (k n : Nat) : (s.chargeKey k n).chip = s.chip := rfl
@[simp] theorem State.chargeKey_dev (k n : Nat) : (s.chargeKey k n).dev = s.dev := rfl
@[simp] theorem State.chargeKey_pins (k n : Nat) : (s.chargeKey k n).pins = s.pins := rfl
@[simp] theorem State.chargeKey_clk (k n : Nat) : (s.chargeKey k n).clk = s.clk := rfl
@[simp] theorem State.chargeKey_cq (k n : Nat) : (s.chargeKey k n).cq = s.cq := rfl
@[simp] theorem State.chargeKey_esc (k n : Nat) : (s.chargeKey k n).esc = s.esc := rfl
@[simp] theorem State.chargeKey_me (k n : Nat) : (s.chargeKey k n).me = s.me := rfl
@[simp] theorem State.chargeKey_streams (k n : Nat) : (s.chargeKey k n).streams = s.streams := rfl
@[simp] theorem State.chargeKey_kv (k n : Nat) : (s.chargeKey k n).kv = s.kv := rfl
@[simp] theorem State.chargeKey_mot (k n : Nat) : (s.chargeKey k n).mot = s.mot := rfl
@[simp] theorem State.chargeKey_cam (k n : Nat) : (s.chargeKey k n).cam = s.cam := rfl
@[simp] theorem State.chargeKey_vid (k n : Nat) : (s.chargeKey k n).vid = s.vid := rfl
@[simp] theorem State.chargeKey_chr (k n : Nat) : (s.chargeKey k n).chr = s.chr := rfl
@[simp] theorem State.chargeKey_eth (k n : Nat) : (s.chargeKey k n).eth = s.eth := rfl
@[simp] theorem State.chargeKey_can (k n : Nat) : (s.chargeKey k n).can = s.can := rfl
@[simp] theorem State.chargeKey_glk (k n : Nat) : (s.chargeKey k n).glk = s.glk := rfl
@[simp] theorem State.chargeKey_memc (k n : Nat) : (s.chargeKey k n).memc = s.memc := rfl
@[simp] theorem State.chargeKey_msix (k n : Nat) : (s.chargeKey k n).msix = s.msix := rfl
@[simp] theorem State.chargeKey_objs (k n : Nat) : (s.chargeKey k n).objs = s.objs := rfl
@[simp] theorem State.chargeKey_keys (k n : Nat) : (s.chargeKey k n).keys = s.keys := rfl
@[simp] theorem State.chargeKey_log (k n : Nat) : (s.chargeKey k n).log = s.log := rfl
@[simp] theorem State.chargeKey_safe (k n : Nat) : (s.chargeKey k n).safe = s.safe := rfl
@[simp] theorem State.chargeKey_irqs (k n : Nat) : (s.chargeKey k n).irqs = s.irqs := rfl
@[simp] theorem State.chargeKey_sent (k n : Nat) : (s.chargeKey k n).sent = s.sent := rfl
@[simp] theorem State.chargeKey_scrub (k n : Nat) : (s.chargeKey k n).scrub = s.scrub := rfl
@[simp] theorem State.chargeKey_app (k n : Nat) : (s.chargeKey k n).app = s.app := rfl
@[simp] theorem State.chargeKey_scrubHit (k n : Nat) : (s.chargeKey k n).scrubHit = s.scrubHit := rfl
@[simp] theorem State.chargeKey_busError (k n : Nat) : (s.chargeKey k n).busError = s.busError := rfl
@[simp] theorem State.chargeKey_readValue (k n : Nat) : (s.chargeKey k n).readValue = s.readValue := rfl
@[simp] theorem State.chargeKey_due (k n : Nat) : (s.chargeKey k n).due = s.due := rfl
@[simp] theorem State.chargeKey_free (k n : Nat) : (s.chargeKey k n).free = s.free := rfl
@[simp] theorem State.chargeKey_pending (k n : Nat) : (s.chargeKey k n).pending = s.pending := rfl

@[simp] theorem State.charge_regs (i a n : Nat) : (s.charge i a n).regs = s.regs := by unfold State.charge; repeat (first | rfl | split)
@[simp] theorem State.charge_mem (i a n : Nat) : (s.charge i a n).mem = s.mem := by unfold State.charge; repeat (first | rfl | split)
@[simp] theorem State.charge_flash (i a n : Nat) : (s.charge i a n).flash = s.flash := by unfold State.charge; repeat (first | rfl | split)
@[simp] theorem State.charge_chip (i a n : Nat) : (s.charge i a n).chip = s.chip := by unfold State.charge; repeat (first | rfl | split)
@[simp] theorem State.charge_dev (i a n : Nat) : (s.charge i a n).dev = s.dev := by unfold State.charge; repeat (first | rfl | split)
@[simp] theorem State.charge_pins (i a n : Nat) : (s.charge i a n).pins = s.pins := by unfold State.charge; repeat (first | rfl | split)
@[simp] theorem State.charge_clk (i a n : Nat) : (s.charge i a n).clk = s.clk := by unfold State.charge; repeat (first | rfl | split)
@[simp] theorem State.charge_cq (i a n : Nat) : (s.charge i a n).cq = s.cq := by unfold State.charge; repeat (first | rfl | split)
@[simp] theorem State.charge_esc (i a n : Nat) : (s.charge i a n).esc = s.esc := by unfold State.charge; repeat (first | rfl | split)
@[simp] theorem State.charge_me (i a n : Nat) : (s.charge i a n).me = s.me := by unfold State.charge; repeat (first | rfl | split)
@[simp] theorem State.charge_streams (i a n : Nat) : (s.charge i a n).streams = s.streams := by unfold State.charge; repeat (first | rfl | split)
@[simp] theorem State.charge_kv (i a n : Nat) : (s.charge i a n).kv = s.kv := by unfold State.charge; repeat (first | rfl | split)
@[simp] theorem State.charge_mot (i a n : Nat) : (s.charge i a n).mot = s.mot := by unfold State.charge; repeat (first | rfl | split)
@[simp] theorem State.charge_cam (i a n : Nat) : (s.charge i a n).cam = s.cam := by unfold State.charge; repeat (first | rfl | split)
@[simp] theorem State.charge_vid (i a n : Nat) : (s.charge i a n).vid = s.vid := by unfold State.charge; repeat (first | rfl | split)
@[simp] theorem State.charge_chr (i a n : Nat) : (s.charge i a n).chr = s.chr := by unfold State.charge; repeat (first | rfl | split)
@[simp] theorem State.charge_eth (i a n : Nat) : (s.charge i a n).eth = s.eth := by unfold State.charge; repeat (first | rfl | split)
@[simp] theorem State.charge_can (i a n : Nat) : (s.charge i a n).can = s.can := by unfold State.charge; repeat (first | rfl | split)
@[simp] theorem State.charge_glk (i a n : Nat) : (s.charge i a n).glk = s.glk := by unfold State.charge; repeat (first | rfl | split)
@[simp] theorem State.charge_memc (i a n : Nat) : (s.charge i a n).memc = s.memc := by unfold State.charge; repeat (first | rfl | split)
@[simp] theorem State.charge_msix (i a n : Nat) : (s.charge i a n).msix = s.msix := by unfold State.charge; repeat (first | rfl | split)
@[simp] theorem State.charge_objs (i a n : Nat) : (s.charge i a n).objs = s.objs := by unfold State.charge; repeat (first | rfl | split)
@[simp] theorem State.charge_keys (i a n : Nat) : (s.charge i a n).keys = s.keys := by unfold State.charge; repeat (first | rfl | split)
@[simp] theorem State.charge_log (i a n : Nat) : (s.charge i a n).log = s.log := by unfold State.charge; repeat (first | rfl | split)
@[simp] theorem State.charge_safe (i a n : Nat) : (s.charge i a n).safe = s.safe := by unfold State.charge; repeat (first | rfl | split)
@[simp] theorem State.charge_irqs (i a n : Nat) : (s.charge i a n).irqs = s.irqs := by unfold State.charge; repeat (first | rfl | split)
@[simp] theorem State.charge_sent (i a n : Nat) : (s.charge i a n).sent = s.sent := by unfold State.charge; repeat (first | rfl | split)
@[simp] theorem State.charge_scrub (i a n : Nat) : (s.charge i a n).scrub = s.scrub := by unfold State.charge; repeat (first | rfl | split)
@[simp] theorem State.charge_app (i a n : Nat) : (s.charge i a n).app = s.app := by unfold State.charge; repeat (first | rfl | split)
@[simp] theorem State.charge_scrubHit (i a n : Nat) : (s.charge i a n).scrubHit = s.scrubHit := by unfold State.charge; repeat (first | rfl | split)
@[simp] theorem State.charge_busError (i a n : Nat) : (s.charge i a n).busError = s.busError := by unfold State.charge; repeat (first | rfl | split)
@[simp] theorem State.charge_readValue (i a n : Nat) : (s.charge i a n).readValue = s.readValue := by unfold State.charge; repeat (first | rfl | split)
@[simp] theorem State.charge_due (i a n : Nat) : (s.charge i a n).due = s.due := by unfold State.charge; repeat (first | rfl | split)
@[simp] theorem State.charge_free (i a n : Nat) : (s.charge i a n).free = s.free := by unfold State.charge; repeat (first | rfl | split)
@[simp] theorem State.charge_pending (i a n : Nat) : (s.charge i a n).pending = s.pending := by unfold State.charge; repeat (first | rfl | split)

@[simp] theorem State.writeBytes_regs (a : Nat) (bs : List Byte) : (s.writeBytes a bs).regs = s.regs := by simp [State.writeBytes]
@[simp] theorem State.writeBytes_flash (a : Nat) (bs : List Byte) : (s.writeBytes a bs).flash = s.flash := by simp [State.writeBytes]
@[simp] theorem State.writeBytes_chip (a : Nat) (bs : List Byte) : (s.writeBytes a bs).chip = s.chip := by simp [State.writeBytes]
@[simp] theorem State.writeBytes_dev (a : Nat) (bs : List Byte) : (s.writeBytes a bs).dev = s.dev := by simp [State.writeBytes]
@[simp] theorem State.writeBytes_pins (a : Nat) (bs : List Byte) : (s.writeBytes a bs).pins = s.pins := by simp [State.writeBytes]
@[simp] theorem State.writeBytes_clk (a : Nat) (bs : List Byte) : (s.writeBytes a bs).clk = s.clk := by simp [State.writeBytes]
@[simp] theorem State.writeBytes_cq (a : Nat) (bs : List Byte) : (s.writeBytes a bs).cq = s.cq := by simp [State.writeBytes]
@[simp] theorem State.writeBytes_esc (a : Nat) (bs : List Byte) : (s.writeBytes a bs).esc = s.esc := by simp [State.writeBytes]
@[simp] theorem State.writeBytes_me (a : Nat) (bs : List Byte) : (s.writeBytes a bs).me = s.me := by simp [State.writeBytes]
@[simp] theorem State.writeBytes_streams (a : Nat) (bs : List Byte) : (s.writeBytes a bs).streams = s.streams := by simp [State.writeBytes]
@[simp] theorem State.writeBytes_kv (a : Nat) (bs : List Byte) : (s.writeBytes a bs).kv = s.kv := by simp [State.writeBytes]
@[simp] theorem State.writeBytes_mot (a : Nat) (bs : List Byte) : (s.writeBytes a bs).mot = s.mot := by simp [State.writeBytes]
@[simp] theorem State.writeBytes_cam (a : Nat) (bs : List Byte) : (s.writeBytes a bs).cam = s.cam := by simp [State.writeBytes]
@[simp] theorem State.writeBytes_vid (a : Nat) (bs : List Byte) : (s.writeBytes a bs).vid = s.vid := by simp [State.writeBytes]
@[simp] theorem State.writeBytes_chr (a : Nat) (bs : List Byte) : (s.writeBytes a bs).chr = s.chr := by simp [State.writeBytes]
@[simp] theorem State.writeBytes_eth (a : Nat) (bs : List Byte) : (s.writeBytes a bs).eth = s.eth := by simp [State.writeBytes]
@[simp] theorem State.writeBytes_can (a : Nat) (bs : List Byte) : (s.writeBytes a bs).can = s.can := by simp [State.writeBytes]
@[simp] theorem State.writeBytes_glk (a : Nat) (bs : List Byte) : (s.writeBytes a bs).glk = s.glk := by simp [State.writeBytes]
@[simp] theorem State.writeBytes_memc (a : Nat) (bs : List Byte) : (s.writeBytes a bs).memc = s.memc := by simp [State.writeBytes]
@[simp] theorem State.writeBytes_msix (a : Nat) (bs : List Byte) : (s.writeBytes a bs).msix = s.msix := by simp [State.writeBytes]
@[simp] theorem State.writeBytes_objs (a : Nat) (bs : List Byte) : (s.writeBytes a bs).objs = s.objs := by simp [State.writeBytes]
@[simp] theorem State.writeBytes_log (a : Nat) (bs : List Byte) : (s.writeBytes a bs).log = s.log := by simp [State.writeBytes]
@[simp] theorem State.writeBytes_safe (a : Nat) (bs : List Byte) : (s.writeBytes a bs).safe = s.safe := by simp [State.writeBytes]
@[simp] theorem State.writeBytes_irqs (a : Nat) (bs : List Byte) : (s.writeBytes a bs).irqs = s.irqs := by simp [State.writeBytes]
@[simp] theorem State.writeBytes_sent (a : Nat) (bs : List Byte) : (s.writeBytes a bs).sent = s.sent := by simp [State.writeBytes]
@[simp] theorem State.writeBytes_scrub (a : Nat) (bs : List Byte) : (s.writeBytes a bs).scrub = s.scrub := by simp [State.writeBytes]
@[simp] theorem State.writeBytes_app (a : Nat) (bs : List Byte) : (s.writeBytes a bs).app = s.app := by simp [State.writeBytes]
@[simp] theorem State.writeBytes_scrubHit (a : Nat) (bs : List Byte) : (s.writeBytes a bs).scrubHit = s.scrubHit := by simp [State.writeBytes]
@[simp] theorem State.writeBytes_busError (a : Nat) (bs : List Byte) : (s.writeBytes a bs).busError = s.busError := by simp [State.writeBytes]
@[simp] theorem State.writeBytes_readValue (a : Nat) (bs : List Byte) : (s.writeBytes a bs).readValue = s.readValue := by simp [State.writeBytes]
@[simp] theorem State.writeBytes_due (a : Nat) (bs : List Byte) : (s.writeBytes a bs).due = s.due := by simp [State.writeBytes]
@[simp] theorem State.writeBytes_free (a : Nat) (bs : List Byte) : (s.writeBytes a bs).free = s.free := by simp [State.writeBytes]
@[simp] theorem State.writeBytes_pending (a : Nat) (bs : List Byte) : (s.writeBytes a bs).pending = s.pending := by simp [State.writeBytes]

@[simp] theorem State.clearMem_regs (lo hi : Nat) : (s.clearMem lo hi).regs = s.regs := rfl
@[simp] theorem State.clearMem_flash (lo hi : Nat) : (s.clearMem lo hi).flash = s.flash := rfl
@[simp] theorem State.clearMem_chip (lo hi : Nat) : (s.clearMem lo hi).chip = s.chip := rfl
@[simp] theorem State.clearMem_dev (lo hi : Nat) : (s.clearMem lo hi).dev = s.dev := rfl
@[simp] theorem State.clearMem_pins (lo hi : Nat) : (s.clearMem lo hi).pins = s.pins := rfl
@[simp] theorem State.clearMem_clk (lo hi : Nat) : (s.clearMem lo hi).clk = s.clk := rfl
@[simp] theorem State.clearMem_cq (lo hi : Nat) : (s.clearMem lo hi).cq = s.cq := rfl
@[simp] theorem State.clearMem_esc (lo hi : Nat) : (s.clearMem lo hi).esc = s.esc := rfl
@[simp] theorem State.clearMem_me (lo hi : Nat) : (s.clearMem lo hi).me = s.me := rfl
@[simp] theorem State.clearMem_streams (lo hi : Nat) : (s.clearMem lo hi).streams = s.streams := rfl
@[simp] theorem State.clearMem_kv (lo hi : Nat) : (s.clearMem lo hi).kv = s.kv := rfl
@[simp] theorem State.clearMem_mot (lo hi : Nat) : (s.clearMem lo hi).mot = s.mot := rfl
@[simp] theorem State.clearMem_cam (lo hi : Nat) : (s.clearMem lo hi).cam = s.cam := rfl
@[simp] theorem State.clearMem_vid (lo hi : Nat) : (s.clearMem lo hi).vid = s.vid := rfl
@[simp] theorem State.clearMem_chr (lo hi : Nat) : (s.clearMem lo hi).chr = s.chr := rfl
@[simp] theorem State.clearMem_eth (lo hi : Nat) : (s.clearMem lo hi).eth = s.eth := rfl
@[simp] theorem State.clearMem_can (lo hi : Nat) : (s.clearMem lo hi).can = s.can := rfl
@[simp] theorem State.clearMem_glk (lo hi : Nat) : (s.clearMem lo hi).glk = s.glk := rfl
@[simp] theorem State.clearMem_memc (lo hi : Nat) : (s.clearMem lo hi).memc = s.memc := rfl
@[simp] theorem State.clearMem_msix (lo hi : Nat) : (s.clearMem lo hi).msix = s.msix := rfl
@[simp] theorem State.clearMem_objs (lo hi : Nat) : (s.clearMem lo hi).objs = s.objs := rfl
@[simp] theorem State.clearMem_keys (lo hi : Nat) : (s.clearMem lo hi).keys = s.keys := rfl
@[simp] theorem State.clearMem_log (lo hi : Nat) : (s.clearMem lo hi).log = s.log := rfl
@[simp] theorem State.clearMem_safe (lo hi : Nat) : (s.clearMem lo hi).safe = s.safe := rfl
@[simp] theorem State.clearMem_irqs (lo hi : Nat) : (s.clearMem lo hi).irqs = s.irqs := rfl
@[simp] theorem State.clearMem_sent (lo hi : Nat) : (s.clearMem lo hi).sent = s.sent := rfl
@[simp] theorem State.clearMem_scrub (lo hi : Nat) : (s.clearMem lo hi).scrub = s.scrub := rfl
@[simp] theorem State.clearMem_app (lo hi : Nat) : (s.clearMem lo hi).app = s.app := rfl
@[simp] theorem State.clearMem_traffic (lo hi : Nat) : (s.clearMem lo hi).traffic = s.traffic := rfl
@[simp] theorem State.clearMem_scrubHit (lo hi : Nat) : (s.clearMem lo hi).scrubHit = s.scrubHit := rfl
@[simp] theorem State.clearMem_busError (lo hi : Nat) : (s.clearMem lo hi).busError = s.busError := rfl
@[simp] theorem State.clearMem_readValue (lo hi : Nat) : (s.clearMem lo hi).readValue = s.readValue := rfl
@[simp] theorem State.clearMem_due (lo hi : Nat) : (s.clearMem lo hi).due = s.due := rfl
@[simp] theorem State.clearMem_free (lo hi : Nat) : (s.clearMem lo hi).free = s.free := rfl
@[simp] theorem State.clearMem_pending (lo hi : Nat) : (s.clearMem lo hi).pending = s.pending := rfl

@[simp] theorem State.emit_mem (cls code src data part : Nat) : (s.emit cls code src data part).mem = s.mem := by unfold State.emit; repeat (first | rfl | split)
@[simp] theorem State.emit_flash (cls code src data part : Nat) : (s.emit cls code src data part).flash = s.flash := by unfold State.emit; repeat (first | rfl | split)
@[simp] theorem State.emit_chip (cls code src data part : Nat) : (s.emit cls code src data part).chip = s.chip := by unfold State.emit; repeat (first | rfl | split)
@[simp] theorem State.emit_dev (cls code src data part : Nat) : (s.emit cls code src data part).dev = s.dev := by unfold State.emit; repeat (first | rfl | split)
@[simp] theorem State.emit_pins (cls code src data part : Nat) : (s.emit cls code src data part).pins = s.pins := by unfold State.emit; repeat (first | rfl | split)
@[simp] theorem State.emit_clk (cls code src data part : Nat) : (s.emit cls code src data part).clk = s.clk := by unfold State.emit; repeat (first | rfl | split)
@[simp] theorem State.emit_cq (cls code src data part : Nat) : (s.emit cls code src data part).cq = s.cq := by unfold State.emit; repeat (first | rfl | split)
@[simp] theorem State.emit_esc (cls code src data part : Nat) : (s.emit cls code src data part).esc = s.esc := by unfold State.emit; repeat (first | rfl | split)
@[simp] theorem State.emit_me (cls code src data part : Nat) : (s.emit cls code src data part).me = s.me := by unfold State.emit; repeat (first | rfl | split)
@[simp] theorem State.emit_streams (cls code src data part : Nat) : (s.emit cls code src data part).streams = s.streams := by unfold State.emit; repeat (first | rfl | split)
@[simp] theorem State.emit_kv (cls code src data part : Nat) : (s.emit cls code src data part).kv = s.kv := by unfold State.emit; repeat (first | rfl | split)
@[simp] theorem State.emit_mot (cls code src data part : Nat) : (s.emit cls code src data part).mot = s.mot := by unfold State.emit; repeat (first | rfl | split)
@[simp] theorem State.emit_cam (cls code src data part : Nat) : (s.emit cls code src data part).cam = s.cam := by unfold State.emit; repeat (first | rfl | split)
@[simp] theorem State.emit_vid (cls code src data part : Nat) : (s.emit cls code src data part).vid = s.vid := by unfold State.emit; repeat (first | rfl | split)
@[simp] theorem State.emit_chr (cls code src data part : Nat) : (s.emit cls code src data part).chr = s.chr := by unfold State.emit; repeat (first | rfl | split)
@[simp] theorem State.emit_eth (cls code src data part : Nat) : (s.emit cls code src data part).eth = s.eth := by unfold State.emit; repeat (first | rfl | split)
@[simp] theorem State.emit_can (cls code src data part : Nat) : (s.emit cls code src data part).can = s.can := by unfold State.emit; repeat (first | rfl | split)
@[simp] theorem State.emit_glk (cls code src data part : Nat) : (s.emit cls code src data part).glk = s.glk := by unfold State.emit; repeat (first | rfl | split)
@[simp] theorem State.emit_memc (cls code src data part : Nat) : (s.emit cls code src data part).memc = s.memc := by unfold State.emit; repeat (first | rfl | split)
@[simp] theorem State.emit_msix (cls code src data part : Nat) : (s.emit cls code src data part).msix = s.msix := by unfold State.emit; repeat (first | rfl | split)
@[simp] theorem State.emit_objs (cls code src data part : Nat) : (s.emit cls code src data part).objs = s.objs := by unfold State.emit; repeat (first | rfl | split)
@[simp] theorem State.emit_keys (cls code src data part : Nat) : (s.emit cls code src data part).keys = s.keys := by unfold State.emit; repeat (first | rfl | split)
@[simp] theorem State.emit_safe (cls code src data part : Nat) : (s.emit cls code src data part).safe = s.safe := by unfold State.emit; repeat (first | rfl | split)
@[simp] theorem State.emit_irqs (cls code src data part : Nat) : (s.emit cls code src data part).irqs = s.irqs := by unfold State.emit; repeat (first | rfl | split)
@[simp] theorem State.emit_sent (cls code src data part : Nat) : (s.emit cls code src data part).sent = s.sent := by unfold State.emit; repeat (first | rfl | split)
@[simp] theorem State.emit_scrub (cls code src data part : Nat) : (s.emit cls code src data part).scrub = s.scrub := by unfold State.emit; repeat (first | rfl | split)
@[simp] theorem State.emit_app (cls code src data part : Nat) : (s.emit cls code src data part).app = s.app := by unfold State.emit; repeat (first | rfl | split)
@[simp] theorem State.emit_traffic (cls code src data part : Nat) : (s.emit cls code src data part).traffic = s.traffic := by unfold State.emit; repeat (first | rfl | split)
@[simp] theorem State.emit_scrubHit (cls code src data part : Nat) : (s.emit cls code src data part).scrubHit = s.scrubHit := by unfold State.emit; repeat (first | rfl | split)
@[simp] theorem State.emit_busError (cls code src data part : Nat) : (s.emit cls code src data part).busError = s.busError := by unfold State.emit; repeat (first | rfl | split)
@[simp] theorem State.emit_readValue (cls code src data part : Nat) : (s.emit cls code src data part).readValue = s.readValue := by unfold State.emit; repeat (first | rfl | split)
@[simp] theorem State.emit_due (cls code src data part : Nat) : (s.emit cls code src data part).due = s.due := by unfold State.emit; repeat (first | rfl | split)
@[simp] theorem State.emit_free (cls code src data part : Nat) : (s.emit cls code src data part).free = s.free := by unfold State.emit; repeat (first | rfl | split)
@[simp] theorem State.emit_pending (cls code src data part : Nat) : (s.emit cls code src data part).pending = s.pending := by unfold State.emit; repeat (first | rfl | split)

@[simp] theorem State.pend_regs (h f vec : Nat) : (s.pend h f vec).regs = s.regs := rfl
@[simp] theorem State.pend_mem (h f vec : Nat) : (s.pend h f vec).mem = s.mem := rfl
@[simp] theorem State.pend_flash (h f vec : Nat) : (s.pend h f vec).flash = s.flash := rfl
@[simp] theorem State.pend_chip (h f vec : Nat) : (s.pend h f vec).chip = s.chip := rfl
@[simp] theorem State.pend_dev (h f vec : Nat) : (s.pend h f vec).dev = s.dev := rfl
@[simp] theorem State.pend_pins (h f vec : Nat) : (s.pend h f vec).pins = s.pins := rfl
@[simp] theorem State.pend_clk (h f vec : Nat) : (s.pend h f vec).clk = s.clk := rfl
@[simp] theorem State.pend_cq (h f vec : Nat) : (s.pend h f vec).cq = s.cq := rfl
@[simp] theorem State.pend_esc (h f vec : Nat) : (s.pend h f vec).esc = s.esc := rfl
@[simp] theorem State.pend_me (h f vec : Nat) : (s.pend h f vec).me = s.me := rfl
@[simp] theorem State.pend_streams (h f vec : Nat) : (s.pend h f vec).streams = s.streams := rfl
@[simp] theorem State.pend_kv (h f vec : Nat) : (s.pend h f vec).kv = s.kv := rfl
@[simp] theorem State.pend_mot (h f vec : Nat) : (s.pend h f vec).mot = s.mot := rfl
@[simp] theorem State.pend_cam (h f vec : Nat) : (s.pend h f vec).cam = s.cam := rfl
@[simp] theorem State.pend_vid (h f vec : Nat) : (s.pend h f vec).vid = s.vid := rfl
@[simp] theorem State.pend_chr (h f vec : Nat) : (s.pend h f vec).chr = s.chr := rfl
@[simp] theorem State.pend_eth (h f vec : Nat) : (s.pend h f vec).eth = s.eth := rfl
@[simp] theorem State.pend_can (h f vec : Nat) : (s.pend h f vec).can = s.can := rfl
@[simp] theorem State.pend_glk (h f vec : Nat) : (s.pend h f vec).glk = s.glk := rfl
@[simp] theorem State.pend_memc (h f vec : Nat) : (s.pend h f vec).memc = s.memc := rfl
@[simp] theorem State.pend_msix (h f vec : Nat) : (s.pend h f vec).msix = s.msix := rfl
@[simp] theorem State.pend_objs (h f vec : Nat) : (s.pend h f vec).objs = s.objs := rfl
@[simp] theorem State.pend_keys (h f vec : Nat) : (s.pend h f vec).keys = s.keys := rfl
@[simp] theorem State.pend_log (h f vec : Nat) : (s.pend h f vec).log = s.log := rfl
@[simp] theorem State.pend_safe (h f vec : Nat) : (s.pend h f vec).safe = s.safe := rfl
@[simp] theorem State.pend_irqs (h f vec : Nat) : (s.pend h f vec).irqs = s.irqs := rfl
@[simp] theorem State.pend_sent (h f vec : Nat) : (s.pend h f vec).sent = s.sent := rfl
@[simp] theorem State.pend_scrub (h f vec : Nat) : (s.pend h f vec).scrub = s.scrub := rfl
@[simp] theorem State.pend_traffic (h f vec : Nat) : (s.pend h f vec).traffic = s.traffic := rfl
@[simp] theorem State.pend_scrubHit (h f vec : Nat) : (s.pend h f vec).scrubHit = s.scrubHit := rfl
@[simp] theorem State.pend_busError (h f vec : Nat) : (s.pend h f vec).busError = s.busError := rfl
@[simp] theorem State.pend_readValue (h f vec : Nat) : (s.pend h f vec).readValue = s.readValue := rfl
@[simp] theorem State.pend_due (h f vec : Nat) : (s.pend h f vec).due = s.due := rfl
@[simp] theorem State.pend_free (h f vec : Nat) : (s.pend h f vec).free = s.free := rfl
@[simp] theorem State.pend_pending (h f vec : Nat) : (s.pend h f vec).pending = s.pending := rfl

@[simp] theorem State.deliver_regs (vec part : Nat) : (s.deliver vec part).regs = s.regs := by unfold State.deliver; repeat (first | rfl | split)
@[simp] theorem State.deliver_mem (vec part : Nat) : (s.deliver vec part).mem = s.mem := by unfold State.deliver; repeat (first | rfl | split)
@[simp] theorem State.deliver_flash (vec part : Nat) : (s.deliver vec part).flash = s.flash := by unfold State.deliver; repeat (first | rfl | split)
@[simp] theorem State.deliver_chip (vec part : Nat) : (s.deliver vec part).chip = s.chip := by unfold State.deliver; repeat (first | rfl | split)
@[simp] theorem State.deliver_dev (vec part : Nat) : (s.deliver vec part).dev = s.dev := by unfold State.deliver; repeat (first | rfl | split)
@[simp] theorem State.deliver_pins (vec part : Nat) : (s.deliver vec part).pins = s.pins := by unfold State.deliver; repeat (first | rfl | split)
@[simp] theorem State.deliver_clk (vec part : Nat) : (s.deliver vec part).clk = s.clk := by unfold State.deliver; repeat (first | rfl | split)
@[simp] theorem State.deliver_cq (vec part : Nat) : (s.deliver vec part).cq = s.cq := by unfold State.deliver; repeat (first | rfl | split)
@[simp] theorem State.deliver_esc (vec part : Nat) : (s.deliver vec part).esc = s.esc := by unfold State.deliver; repeat (first | rfl | split)
@[simp] theorem State.deliver_me (vec part : Nat) : (s.deliver vec part).me = s.me := by unfold State.deliver; repeat (first | rfl | split)
@[simp] theorem State.deliver_streams (vec part : Nat) : (s.deliver vec part).streams = s.streams := by unfold State.deliver; repeat (first | rfl | split)
@[simp] theorem State.deliver_kv (vec part : Nat) : (s.deliver vec part).kv = s.kv := by unfold State.deliver; repeat (first | rfl | split)
@[simp] theorem State.deliver_mot (vec part : Nat) : (s.deliver vec part).mot = s.mot := by unfold State.deliver; repeat (first | rfl | split)
@[simp] theorem State.deliver_cam (vec part : Nat) : (s.deliver vec part).cam = s.cam := by unfold State.deliver; repeat (first | rfl | split)
@[simp] theorem State.deliver_vid (vec part : Nat) : (s.deliver vec part).vid = s.vid := by unfold State.deliver; repeat (first | rfl | split)
@[simp] theorem State.deliver_chr (vec part : Nat) : (s.deliver vec part).chr = s.chr := by unfold State.deliver; repeat (first | rfl | split)
@[simp] theorem State.deliver_eth (vec part : Nat) : (s.deliver vec part).eth = s.eth := by unfold State.deliver; repeat (first | rfl | split)
@[simp] theorem State.deliver_can (vec part : Nat) : (s.deliver vec part).can = s.can := by unfold State.deliver; repeat (first | rfl | split)
@[simp] theorem State.deliver_glk (vec part : Nat) : (s.deliver vec part).glk = s.glk := by unfold State.deliver; repeat (first | rfl | split)
@[simp] theorem State.deliver_memc (vec part : Nat) : (s.deliver vec part).memc = s.memc := by unfold State.deliver; repeat (first | rfl | split)
@[simp] theorem State.deliver_msix (vec part : Nat) : (s.deliver vec part).msix = s.msix := by unfold State.deliver; repeat (first | rfl | split)
@[simp] theorem State.deliver_objs (vec part : Nat) : (s.deliver vec part).objs = s.objs := by unfold State.deliver; repeat (first | rfl | split)
@[simp] theorem State.deliver_keys (vec part : Nat) : (s.deliver vec part).keys = s.keys := by unfold State.deliver; repeat (first | rfl | split)
@[simp] theorem State.deliver_log (vec part : Nat) : (s.deliver vec part).log = s.log := by unfold State.deliver; repeat (first | rfl | split)
@[simp] theorem State.deliver_safe (vec part : Nat) : (s.deliver vec part).safe = s.safe := by unfold State.deliver; repeat (first | rfl | split)
@[simp] theorem State.deliver_irqs (vec part : Nat) : (s.deliver vec part).irqs = s.irqs := by unfold State.deliver; repeat (first | rfl | split)
@[simp] theorem State.deliver_sent (vec part : Nat) : (s.deliver vec part).sent = s.sent := by unfold State.deliver; repeat (first | rfl | split)
@[simp] theorem State.deliver_scrub (vec part : Nat) : (s.deliver vec part).scrub = s.scrub := by unfold State.deliver; repeat (first | rfl | split)
@[simp] theorem State.deliver_traffic (vec part : Nat) : (s.deliver vec part).traffic = s.traffic := by unfold State.deliver; repeat (first | rfl | split)
@[simp] theorem State.deliver_scrubHit (vec part : Nat) : (s.deliver vec part).scrubHit = s.scrubHit := by unfold State.deliver; repeat (first | rfl | split)
@[simp] theorem State.deliver_busError (vec part : Nat) : (s.deliver vec part).busError = s.busError := by unfold State.deliver; repeat (first | rfl | split)
@[simp] theorem State.deliver_readValue (vec part : Nat) : (s.deliver vec part).readValue = s.readValue := by unfold State.deliver; repeat (first | rfl | split)
@[simp] theorem State.deliver_due (vec part : Nat) : (s.deliver vec part).due = s.due := by unfold State.deliver; repeat (first | rfl | split)
@[simp] theorem State.deliver_free (vec part : Nat) : (s.deliver vec part).free = s.free := by unfold State.deliver; repeat (first | rfl | split)
@[simp] theorem State.deliver_pending (vec part : Nat) : (s.deliver vec part).pending = s.pending := by unfold State.deliver; repeat (first | rfl | split)

@[simp] theorem State.raise_mem (vec dest part : Nat) (fn : Option Nat) : (s.raise vec dest part fn).mem = s.mem := by unfold State.raise; dsimp only; split <;> [rfl; split] <;> simp
@[simp] theorem State.raise_flash (vec dest part : Nat) (fn : Option Nat) : (s.raise vec dest part fn).flash = s.flash := by unfold State.raise; dsimp only; split <;> [rfl; split] <;> simp
@[simp] theorem State.raise_chip (vec dest part : Nat) (fn : Option Nat) : (s.raise vec dest part fn).chip = s.chip := by unfold State.raise; dsimp only; split <;> [rfl; split] <;> simp
@[simp] theorem State.raise_dev (vec dest part : Nat) (fn : Option Nat) : (s.raise vec dest part fn).dev = s.dev := by unfold State.raise; dsimp only; split <;> [rfl; split] <;> simp
@[simp] theorem State.raise_pins (vec dest part : Nat) (fn : Option Nat) : (s.raise vec dest part fn).pins = s.pins := by unfold State.raise; dsimp only; split <;> [rfl; split] <;> simp
@[simp] theorem State.raise_clk (vec dest part : Nat) (fn : Option Nat) : (s.raise vec dest part fn).clk = s.clk := by unfold State.raise; dsimp only; split <;> [rfl; split] <;> simp
@[simp] theorem State.raise_cq (vec dest part : Nat) (fn : Option Nat) : (s.raise vec dest part fn).cq = s.cq := by unfold State.raise; dsimp only; split <;> [rfl; split] <;> simp
@[simp] theorem State.raise_esc (vec dest part : Nat) (fn : Option Nat) : (s.raise vec dest part fn).esc = s.esc := by unfold State.raise; dsimp only; split <;> [rfl; split] <;> simp
@[simp] theorem State.raise_me (vec dest part : Nat) (fn : Option Nat) : (s.raise vec dest part fn).me = s.me := by unfold State.raise; dsimp only; split <;> [rfl; split] <;> simp
@[simp] theorem State.raise_streams (vec dest part : Nat) (fn : Option Nat) : (s.raise vec dest part fn).streams = s.streams := by unfold State.raise; dsimp only; split <;> [rfl; split] <;> simp
@[simp] theorem State.raise_kv (vec dest part : Nat) (fn : Option Nat) : (s.raise vec dest part fn).kv = s.kv := by unfold State.raise; dsimp only; split <;> [rfl; split] <;> simp
@[simp] theorem State.raise_mot (vec dest part : Nat) (fn : Option Nat) : (s.raise vec dest part fn).mot = s.mot := by unfold State.raise; dsimp only; split <;> [rfl; split] <;> simp
@[simp] theorem State.raise_cam (vec dest part : Nat) (fn : Option Nat) : (s.raise vec dest part fn).cam = s.cam := by unfold State.raise; dsimp only; split <;> [rfl; split] <;> simp
@[simp] theorem State.raise_vid (vec dest part : Nat) (fn : Option Nat) : (s.raise vec dest part fn).vid = s.vid := by unfold State.raise; dsimp only; split <;> [rfl; split] <;> simp
@[simp] theorem State.raise_chr (vec dest part : Nat) (fn : Option Nat) : (s.raise vec dest part fn).chr = s.chr := by unfold State.raise; dsimp only; split <;> [rfl; split] <;> simp
@[simp] theorem State.raise_eth (vec dest part : Nat) (fn : Option Nat) : (s.raise vec dest part fn).eth = s.eth := by unfold State.raise; dsimp only; split <;> [rfl; split] <;> simp
@[simp] theorem State.raise_can (vec dest part : Nat) (fn : Option Nat) : (s.raise vec dest part fn).can = s.can := by unfold State.raise; dsimp only; split <;> [rfl; split] <;> simp
@[simp] theorem State.raise_glk (vec dest part : Nat) (fn : Option Nat) : (s.raise vec dest part fn).glk = s.glk := by unfold State.raise; dsimp only; split <;> [rfl; split] <;> simp
@[simp] theorem State.raise_memc (vec dest part : Nat) (fn : Option Nat) : (s.raise vec dest part fn).memc = s.memc := by unfold State.raise; dsimp only; split <;> [rfl; split] <;> simp
@[simp] theorem State.raise_msix (vec dest part : Nat) (fn : Option Nat) : (s.raise vec dest part fn).msix = s.msix := by unfold State.raise; dsimp only; split <;> [rfl; split] <;> simp
@[simp] theorem State.raise_objs (vec dest part : Nat) (fn : Option Nat) : (s.raise vec dest part fn).objs = s.objs := by unfold State.raise; dsimp only; split <;> [rfl; split] <;> simp
@[simp] theorem State.raise_keys (vec dest part : Nat) (fn : Option Nat) : (s.raise vec dest part fn).keys = s.keys := by unfold State.raise; dsimp only; split <;> [rfl; split] <;> simp
@[simp] theorem State.raise_log (vec dest part : Nat) (fn : Option Nat) : (s.raise vec dest part fn).log = s.log := by unfold State.raise; dsimp only; split <;> [rfl; split] <;> simp
@[simp] theorem State.raise_safe (vec dest part : Nat) (fn : Option Nat) : (s.raise vec dest part fn).safe = s.safe := by unfold State.raise; dsimp only; split <;> [rfl; split] <;> simp
@[simp] theorem State.raise_sent (vec dest part : Nat) (fn : Option Nat) : (s.raise vec dest part fn).sent = s.sent := by unfold State.raise; dsimp only; split <;> [rfl; split] <;> simp
@[simp] theorem State.raise_scrub (vec dest part : Nat) (fn : Option Nat) : (s.raise vec dest part fn).scrub = s.scrub := by unfold State.raise; dsimp only; split <;> [rfl; split] <;> simp
@[simp] theorem State.raise_traffic (vec dest part : Nat) (fn : Option Nat) : (s.raise vec dest part fn).traffic = s.traffic := by unfold State.raise; dsimp only; split <;> [rfl; split] <;> simp
@[simp] theorem State.raise_scrubHit (vec dest part : Nat) (fn : Option Nat) : (s.raise vec dest part fn).scrubHit = s.scrubHit := by unfold State.raise; dsimp only; split <;> [rfl; split] <;> simp
@[simp] theorem State.raise_busError (vec dest part : Nat) (fn : Option Nat) : (s.raise vec dest part fn).busError = s.busError := by unfold State.raise; dsimp only; split <;> [rfl; split] <;> simp
@[simp] theorem State.raise_readValue (vec dest part : Nat) (fn : Option Nat) : (s.raise vec dest part fn).readValue = s.readValue := by unfold State.raise; dsimp only; split <;> [rfl; split] <;> simp
@[simp] theorem State.raise_due (vec dest part : Nat) (fn : Option Nat) : (s.raise vec dest part fn).due = s.due := by unfold State.raise; dsimp only; split <;> [rfl; split] <;> simp
@[simp] theorem State.raise_free (vec dest part : Nat) (fn : Option Nat) : (s.raise vec dest part fn).free = s.free := by unfold State.raise; dsimp only; split <;> [rfl; split] <;> simp
@[simp] theorem State.raise_pending (vec dest part : Nat) (fn : Option Nat) : (s.raise vec dest part fn).pending = s.pending := by unfold State.raise; dsimp only; split <;> [rfl; split] <;> simp

@[simp] theorem State.send_regs (o : Out) : (s.send o).regs = s.regs := rfl
@[simp] theorem State.send_mem (o : Out) : (s.send o).mem = s.mem := rfl
@[simp] theorem State.send_flash (o : Out) : (s.send o).flash = s.flash := rfl
@[simp] theorem State.send_chip (o : Out) : (s.send o).chip = s.chip := rfl
@[simp] theorem State.send_dev (o : Out) : (s.send o).dev = s.dev := rfl
@[simp] theorem State.send_pins (o : Out) : (s.send o).pins = s.pins := rfl
@[simp] theorem State.send_clk (o : Out) : (s.send o).clk = s.clk := rfl
@[simp] theorem State.send_cq (o : Out) : (s.send o).cq = s.cq := rfl
@[simp] theorem State.send_esc (o : Out) : (s.send o).esc = s.esc := rfl
@[simp] theorem State.send_me (o : Out) : (s.send o).me = s.me := rfl
@[simp] theorem State.send_streams (o : Out) : (s.send o).streams = s.streams := rfl
@[simp] theorem State.send_kv (o : Out) : (s.send o).kv = s.kv := rfl
@[simp] theorem State.send_mot (o : Out) : (s.send o).mot = s.mot := rfl
@[simp] theorem State.send_cam (o : Out) : (s.send o).cam = s.cam := rfl
@[simp] theorem State.send_vid (o : Out) : (s.send o).vid = s.vid := rfl
@[simp] theorem State.send_chr (o : Out) : (s.send o).chr = s.chr := rfl
@[simp] theorem State.send_eth (o : Out) : (s.send o).eth = s.eth := rfl
@[simp] theorem State.send_can (o : Out) : (s.send o).can = s.can := rfl
@[simp] theorem State.send_glk (o : Out) : (s.send o).glk = s.glk := rfl
@[simp] theorem State.send_memc (o : Out) : (s.send o).memc = s.memc := rfl
@[simp] theorem State.send_msix (o : Out) : (s.send o).msix = s.msix := rfl
@[simp] theorem State.send_objs (o : Out) : (s.send o).objs = s.objs := rfl
@[simp] theorem State.send_keys (o : Out) : (s.send o).keys = s.keys := rfl
@[simp] theorem State.send_log (o : Out) : (s.send o).log = s.log := rfl
@[simp] theorem State.send_safe (o : Out) : (s.send o).safe = s.safe := rfl
@[simp] theorem State.send_irqs (o : Out) : (s.send o).irqs = s.irqs := rfl
@[simp] theorem State.send_scrub (o : Out) : (s.send o).scrub = s.scrub := rfl
@[simp] theorem State.send_app (o : Out) : (s.send o).app = s.app := rfl
@[simp] theorem State.send_traffic (o : Out) : (s.send o).traffic = s.traffic := rfl
@[simp] theorem State.send_scrubHit (o : Out) : (s.send o).scrubHit = s.scrubHit := rfl
@[simp] theorem State.send_busError (o : Out) : (s.send o).busError = s.busError := rfl
@[simp] theorem State.send_readValue (o : Out) : (s.send o).readValue = s.readValue := rfl
@[simp] theorem State.send_due (o : Out) : (s.send o).due = s.due := rfl
@[simp] theorem State.send_free (o : Out) : (s.send o).free = s.free := rfl
@[simp] theorem State.send_pending (o : Out) : (s.send o).pending = s.pending := rfl

@[simp] theorem State.owe_regs (i : Instr) : (s.owe i).regs = s.regs := rfl
@[simp] theorem State.owe_mem (i : Instr) : (s.owe i).mem = s.mem := rfl
@[simp] theorem State.owe_flash (i : Instr) : (s.owe i).flash = s.flash := rfl
@[simp] theorem State.owe_chip (i : Instr) : (s.owe i).chip = s.chip := rfl
@[simp] theorem State.owe_dev (i : Instr) : (s.owe i).dev = s.dev := rfl
@[simp] theorem State.owe_pins (i : Instr) : (s.owe i).pins = s.pins := rfl
@[simp] theorem State.owe_clk (i : Instr) : (s.owe i).clk = s.clk := rfl
@[simp] theorem State.owe_cq (i : Instr) : (s.owe i).cq = s.cq := rfl
@[simp] theorem State.owe_esc (i : Instr) : (s.owe i).esc = s.esc := rfl
@[simp] theorem State.owe_me (i : Instr) : (s.owe i).me = s.me := rfl
@[simp] theorem State.owe_streams (i : Instr) : (s.owe i).streams = s.streams := rfl
@[simp] theorem State.owe_kv (i : Instr) : (s.owe i).kv = s.kv := rfl
@[simp] theorem State.owe_mot (i : Instr) : (s.owe i).mot = s.mot := rfl
@[simp] theorem State.owe_cam (i : Instr) : (s.owe i).cam = s.cam := rfl
@[simp] theorem State.owe_vid (i : Instr) : (s.owe i).vid = s.vid := rfl
@[simp] theorem State.owe_chr (i : Instr) : (s.owe i).chr = s.chr := rfl
@[simp] theorem State.owe_eth (i : Instr) : (s.owe i).eth = s.eth := rfl
@[simp] theorem State.owe_can (i : Instr) : (s.owe i).can = s.can := rfl
@[simp] theorem State.owe_glk (i : Instr) : (s.owe i).glk = s.glk := rfl
@[simp] theorem State.owe_memc (i : Instr) : (s.owe i).memc = s.memc := rfl
@[simp] theorem State.owe_msix (i : Instr) : (s.owe i).msix = s.msix := rfl
@[simp] theorem State.owe_objs (i : Instr) : (s.owe i).objs = s.objs := rfl
@[simp] theorem State.owe_keys (i : Instr) : (s.owe i).keys = s.keys := rfl
@[simp] theorem State.owe_log (i : Instr) : (s.owe i).log = s.log := rfl
@[simp] theorem State.owe_safe (i : Instr) : (s.owe i).safe = s.safe := rfl
@[simp] theorem State.owe_irqs (i : Instr) : (s.owe i).irqs = s.irqs := rfl
@[simp] theorem State.owe_sent (i : Instr) : (s.owe i).sent = s.sent := rfl
@[simp] theorem State.owe_scrub (i : Instr) : (s.owe i).scrub = s.scrub := rfl
@[simp] theorem State.owe_app (i : Instr) : (s.owe i).app = s.app := rfl
@[simp] theorem State.owe_traffic (i : Instr) : (s.owe i).traffic = s.traffic := rfl
@[simp] theorem State.owe_scrubHit (i : Instr) : (s.owe i).scrubHit = s.scrubHit := rfl
@[simp] theorem State.owe_busError (i : Instr) : (s.owe i).busError = s.busError := rfl
@[simp] theorem State.owe_readValue (i : Instr) : (s.owe i).readValue = s.readValue := rfl
@[simp] theorem State.owe_free (i : Instr) : (s.owe i).free = s.free := rfl
@[simp] theorem State.owe_pending (i : Instr) : (s.owe i).pending = s.pending := rfl

@[simp] theorem State.drawFree_regs : (s.drawFree).regs = s.regs := rfl
@[simp] theorem State.drawFree_mem : (s.drawFree).mem = s.mem := rfl
@[simp] theorem State.drawFree_flash : (s.drawFree).flash = s.flash := rfl
@[simp] theorem State.drawFree_chip : (s.drawFree).chip = s.chip := rfl
@[simp] theorem State.drawFree_dev : (s.drawFree).dev = s.dev := rfl
@[simp] theorem State.drawFree_pins : (s.drawFree).pins = s.pins := rfl
@[simp] theorem State.drawFree_clk : (s.drawFree).clk = s.clk := rfl
@[simp] theorem State.drawFree_cq : (s.drawFree).cq = s.cq := rfl
@[simp] theorem State.drawFree_esc : (s.drawFree).esc = s.esc := rfl
@[simp] theorem State.drawFree_me : (s.drawFree).me = s.me := rfl
@[simp] theorem State.drawFree_streams : (s.drawFree).streams = s.streams := rfl
@[simp] theorem State.drawFree_kv : (s.drawFree).kv = s.kv := rfl
@[simp] theorem State.drawFree_mot : (s.drawFree).mot = s.mot := rfl
@[simp] theorem State.drawFree_cam : (s.drawFree).cam = s.cam := rfl
@[simp] theorem State.drawFree_vid : (s.drawFree).vid = s.vid := rfl
@[simp] theorem State.drawFree_chr : (s.drawFree).chr = s.chr := rfl
@[simp] theorem State.drawFree_eth : (s.drawFree).eth = s.eth := rfl
@[simp] theorem State.drawFree_can : (s.drawFree).can = s.can := rfl
@[simp] theorem State.drawFree_glk : (s.drawFree).glk = s.glk := rfl
@[simp] theorem State.drawFree_memc : (s.drawFree).memc = s.memc := rfl
@[simp] theorem State.drawFree_msix : (s.drawFree).msix = s.msix := rfl
@[simp] theorem State.drawFree_objs : (s.drawFree).objs = s.objs := rfl
@[simp] theorem State.drawFree_keys : (s.drawFree).keys = s.keys := rfl
@[simp] theorem State.drawFree_log : (s.drawFree).log = s.log := rfl
@[simp] theorem State.drawFree_safe : (s.drawFree).safe = s.safe := rfl
@[simp] theorem State.drawFree_irqs : (s.drawFree).irqs = s.irqs := rfl
@[simp] theorem State.drawFree_sent : (s.drawFree).sent = s.sent := rfl
@[simp] theorem State.drawFree_scrub : (s.drawFree).scrub = s.scrub := rfl
@[simp] theorem State.drawFree_app : (s.drawFree).app = s.app := rfl
@[simp] theorem State.drawFree_traffic : (s.drawFree).traffic = s.traffic := rfl
@[simp] theorem State.drawFree_scrubHit : (s.drawFree).scrubHit = s.scrubHit := rfl
@[simp] theorem State.drawFree_busError : (s.drawFree).busError = s.busError := rfl
@[simp] theorem State.drawFree_readValue : (s.drawFree).readValue = s.readValue := rfl
@[simp] theorem State.drawFree_due : (s.drawFree).due = s.due := rfl
@[simp] theorem State.drawFree_pending : (s.drawFree).pending = s.pending := rfl

end Sys2Proof.Machine
end

