-- ==== Sys2Proof/Laws/Keeps.lean ====
section
/-! SUPPORT. What every operation keeps: the canonical form of memory, flash and registers, OTP that only grows (R450, R451), and the queue of
commands. The relation composes; Laws/Keeps*.lean say it of each operation. -/

namespace Sys2Proof.Machine

theorem OtpGrows.refl (a : Otp) : OtpGrows a a :=
  ⟨Nat.le_refl _, fun _ _ h => h, fun _ _ h => h, fun _ h => h, fun _ h => h, fun _ h => h, fun _ h => h, id, List.prefix_refl _⟩

theorem OtpGrows.trans {a b c : Otp} (h : OtpGrows a b) (g : OtpGrows b c) : OtpGrows a c :=
  ⟨h.1.trans g.1, fun i x e => g.2 i x (h.2 i x e), fun i x e => g.3 i x (h.3 i x e), fun i e => g.4 i (h.4 i e),
    fun i e => g.5 i (h.5 i e), fun x e => g.6 x (h.6 x e), fun x e => g.7 x (h.7 x e), fun e => g.8 (h.8 e), h.9.trans g.9⟩

/-- t keeps what o has: canonical memory, flash and registers stay canonical, OTP only grows, the queue of commands is the same. -/
structure Keeps (o t : State) : Prop where
  mem : sparseWf (fun _ => (0 : Byte)) o.mem = true → sparseWf (fun _ => (0 : Byte)) t.mem = true
  flash : sparseWf (fun _ => (0xFF : Byte)) o.flash = true → sparseWf (fun _ => (0xFF : Byte)) t.flash = true
  otp : OtpGrows o.chip.otp t.chip.otp
  pending : t.pending = o.pending
  regs : sparseWf (fun _ => (0 : Word)) o.regs = true → sparseWf (fun _ => (0 : Word)) t.regs = true

@[simp] theorem Keeps.refl (s : State) : Keeps s s := ⟨id, id, OtpGrows.refl _, rfl, id⟩

theorem Keeps.trans {a b c : State} (h : Keeps a b) (g : Keeps b c) : Keeps a c :=
  ⟨fun x => g.1 (h.1 x), fun x => g.2 (h.2 x), h.3.trans g.3, g.4.trans h.4, fun x => g.5 (h.5 x)⟩

/-- A state with the same memory, flash, package, queue and registers. -/
theorem Keeps.congr {o t u : State} (h : Keeps o t) (h1 : u.mem = t.mem) (h2 : u.flash = t.flash) (h3 : u.chip = t.chip)
    (h4 : u.pending = t.pending) (h5 : u.regs = t.regs) : Keeps o u := by
  obtain ⟨a, b, c, d, e⟩ := h
  exact ⟨h1 ▸ a, h2 ▸ b, h3 ▸ c, h4 ▸ d, h5 ▸ e⟩

@[simp] theorem keeps_mk {o t : State} {dev pins clk cq esc me streams kv mot cam vid chr eth can glk memc msix objs keys log safe irqs
    sent scrub app traffic scrubHit busError readValue due free} :
    Keeps o ⟨t.regs, t.mem, t.flash, t.chip, dev, pins, clk, cq, esc, me, streams, kv, mot, cam, vid, chr, eth, can, glk, memc, msix, objs,
      keys, log, safe, irqs, sent, scrub, app, traffic, scrubHit, busError, readValue, due, free, t.pending⟩ ↔ Keeps o t :=
  ⟨fun h => h.congr rfl rfl rfl rfl rfl, fun h => h.congr rfl rfl rfl rfl rfl⟩

@[simp] theorem keeps_ite {o a b : State} {c : Prop} [Decidable c] (ha : Keeps o a) (hb : Keeps o b) : Keeps o (if c then a else b) := by
  split <;> assumption

@[simp] theorem keeps_foldl {α : Type} {o t : State} {g : State → α → State} {l : List α} (hg : ∀ u x, Keeps u (g u x)) (h : Keeps o t) :
    Keeps o (l.foldl g t) := by
  induction l generalizing t with
  | nil => exact h
  | cons x l ih => exact ih (h.trans (hg t x))

@[simp] theorem keeps_elim {α : Type} {o t : State} {x : Option α} {g : α → State} (h : Keeps o t) (hg : ∀ a, Keeps o (g a)) :
    Keeps o (x.elim t g) := by
  cases x
  · exact h
  · exact hg _

/-- What every step of a fold keeps, the fold keeps. -/
theorem foldl_inv {α β : Type} {P : β → Prop} {g : β → α → β} {l : List α} {b : β} (hg : ∀ b a, P b → P (g b a)) (h : P b) :
    P (l.foldl g b) := by
  induction l generalizing b with
  | nil => exact h
  | cons x l ih => exact ih (hg b x h)

/-- What an outcome keeps: its next state does. -/
def KeepsOut (o : State) : Host.Outcome State Fault Refusal → Prop
  | .next t => Keeps o t
  | _ => True

theorem KeepsOut.next {o t : State} (h : Keeps o t) : KeepsOut o (.next t) := h

@[simp] theorem keepsOut_next {o t : State} : KeepsOut o (.next t) ↔ Keeps o t := Iff.rfl

end Sys2Proof.Machine
end

