-- ==== Sys2Proof/Laws/Regs.lean ====
section
/-! SUPPORT. What reads of registers and fields give after writes. -/

namespace Sys2Proof.Machine

theorem Fld.mask_getLsbD (f : Fld) (i : Nat) :
    f.mask.getLsbD i = (decide (i < 64) && decide (f.lo ≤ i) && decide (i - f.lo < f.hi + 1 - f.lo)) := by
  unfold Fld.mask
  simp [BitVec.getLsbD_ofNat, Nat.testBit_shiftLeft, Nat.testBit_two_pow_sub_one, Bool.and_assoc]

/-- A field reads what was written to it. -/
theorem Fld.of_into (f : Fld) (v : Word) (n : Nat) (h : f.hi < 64) (hl : f.lo ≤ f.hi) : f.of (f.into v n) = n % 2 ^ (f.hi + 1 - f.lo) := by
  unfold Fld.of Fld.into bitsOf
  apply Nat.eq_of_testBit_eq
  intro i
  simp only [Nat.testBit_mod_two_pow, Nat.testBit_shiftRight, BitVec.testBit_toNat, BitVec.getLsbD_or, BitVec.getLsbD_and,
    BitVec.getLsbD_not, Fld.mask_getLsbD, BitVec.getLsbD_ofNat, Nat.testBit_shiftLeft]
  by_cases hi : i < f.hi + 1 - f.lo
  · have h1 : f.lo + i < 64 := by omega
    have h2 : f.lo + i - f.lo = i := by omega
    simp [hi, h1, h2]
  · simp [hi]

/-- A field that does not overlap the written one reads as before. -/
theorem Fld.of_into_other (f g : Fld) (v : Word) (n : Nat) (h : g.hi < f.lo ∨ f.hi < g.lo) : f.of (g.into v n) = f.of v := by
  unfold Fld.of Fld.into bitsOf
  apply Nat.eq_of_testBit_eq
  intro i
  simp only [Nat.testBit_mod_two_pow, Nat.testBit_shiftRight, BitVec.testBit_toNat, BitVec.getLsbD_or, BitVec.getLsbD_and,
    BitVec.getLsbD_not, Fld.mask_getLsbD, BitVec.getLsbD_ofNat, Nat.testBit_shiftLeft]
  by_cases hi : i < f.hi + 1 - f.lo
  · have e : (decide (g.lo ≤ f.lo + i) && decide (f.lo + i - g.lo < g.hi + 1 - g.lo)) = false := by
      rw [Bool.and_eq_false_iff, decide_eq_false_iff_not, decide_eq_false_iff_not]; omega
    rw [Bool.and_assoc, e]
    by_cases h64 : f.lo + i < 64
    · simp [h64]
    · simp [h64, BitVec.getLsbD_of_ge _ _ (Nat.le_of_not_lt h64)]
  · simp [hi]

/-- Different registers, and different elements of one, have different keys. -/
theorem Reg.key_inj {r r' : Reg} {i j i' j' : Nat} : r.key i j = r'.key i' j' ↔ r = r' ∧ i = i' ∧ j = j' := by
  unfold Reg.key
  rw [Nat.pair_eq_pair, Nat.pair_eq_pair]
  constructor
  · rintro ⟨h, h1, h2⟩
    refine ⟨?_, h1, h2⟩
    rw [← Reg.ofNat_ctorIdx r, h, Reg.ofNat_ctorIdx]
  · rintro ⟨rfl, rfl, rfl⟩; exact ⟨rfl, rfl, rfl⟩

variable {s : State}

theorem State.setReg_regsWf {r : Reg} {n i j : Nat} (h : s.regsWf) : (s.setReg r n i j).regsWf := sparseSet_wf h
theorem State.putFld_regsWf {f : Fld} {n i j : Nat} (h : s.regsWf) : (s.putFld f n i j).regsWf := sparseSet_wf h

theorem State.word_setReg (r q : Reg) (n i j i' j' : Nat) (h : s.regsWf) :
    (s.setReg r n i j).word q i' j' = if q = r ∧ i' = i ∧ j' = j then BitVec.ofNat 64 n else s.word q i' j' := by
  unfold State.word State.setReg
  by_cases e : q = r ∧ i' = i ∧ j' = j
  · obtain ⟨rfl, rfl, rfl⟩ := e
    rw [if_pos ⟨rfl, rfl, rfl⟩]
    exact sparseGet_set_same h
  · rw [if_neg e]
    exact sparseGet_set_other h (fun x => e (Reg.key_inj.1 x))

theorem State.word_putFld (f : Fld) (q : Reg) (n i j i' j' : Nat) (h : s.regsWf) :
    (s.putFld f n i j).word q i' j' = if q = f.reg ∧ i' = i ∧ j' = j then f.into (s.word f.reg i j) n else s.word q i' j' := by
  unfold State.word State.putFld
  by_cases e : q = f.reg ∧ i' = i ∧ j' = j
  · obtain ⟨rfl, rfl, rfl⟩ := e
    rw [if_pos ⟨rfl, rfl, rfl⟩]
    exact sparseGet_set_same h
  · rw [if_neg e]
    exact sparseGet_set_other h (fun x => e (Reg.key_inj.1 x))

/-- A register reads what was written to it. -/
theorem State.reg_setReg_same (r : Reg) (n i j : Nat) (h : s.regsWf) : (s.setReg r n i j).reg r i j = n % 2 ^ 64 := by
  simp [State.reg, State.word_setReg _ _ _ _ _ _ _ h]

/-- Another register, or another element, reads as before. -/
theorem State.reg_setReg_other (r q : Reg) (n i j i' j' : Nat) (h : s.regsWf) (e : ¬(q = r ∧ i' = i ∧ j' = j)) :
    (s.setReg r n i j).reg q i' j' = s.reg q i' j' := by
  simp [State.reg, State.word_setReg _ _ _ _ _ _ _ h, e]

/-- A field reads its bits of the value written to its register. -/
theorem State.fld_setReg_same (f : Fld) (n i j : Nat) (h : s.regsWf) : (s.setReg f.reg n i j).fld f i j = f.of (BitVec.ofNat 64 n) := by
  simp [State.fld, State.word_setReg _ _ _ _ _ _ _ h]

/-- A field reads what was written to it. -/
theorem State.fld_putFld_same (f : Fld) (n i j : Nat) (h : s.regsWf) (h1 : f.hi < 64) (h2 : f.lo ≤ f.hi) :
    (s.putFld f n i j).fld f i j = n % 2 ^ (f.hi + 1 - f.lo) := by
  simp [State.fld, State.word_putFld _ _ _ _ _ _ _ h, Fld.of_into _ _ _ h1 h2]

/-- A field of another register, of another element, or of other bits reads as before. -/
theorem State.fld_putFld_other (f g : Fld) (n i j i' j' : Nat) (h : s.regsWf)
    (e : ¬(g.reg = f.reg ∧ i' = i ∧ j' = j) ∨ f.hi < g.lo ∨ g.hi < f.lo) :
    (s.putFld f n i j).fld g i' j' = s.fld g i' j' := by
  unfold State.fld
  rw [State.word_putFld _ _ _ _ _ _ _ h]
  split
  · rename_i c
    rw [Fld.of_into_other _ _ _ _ (e.resolve_left (fun x => x c))]
    obtain ⟨c1, c2, c3⟩ := c
    rw [c1, c2, c3]
  · rfl

/-- A register reads as before beside a written field. -/
theorem State.reg_putFld_other (f : Fld) (q : Reg) (n i j i' j' : Nat) (h : s.regsWf) (e : ¬(q = f.reg ∧ i' = i ∧ j' = j)) :
    (s.putFld f n i j).reg q i' j' = s.reg q i' j' := by
  simp [State.reg, State.word_putFld _ _ _ _ _ _ _ h, e]

/-- A field reads as before beside a written register. -/
theorem State.fld_setReg_other (r : Reg) (g : Fld) (n i j i' j' : Nat) (h : s.regsWf) (e : ¬(g.reg = r ∧ i' = i ∧ j' = j)) :
    (s.setReg r n i j).fld g i' j' = s.fld g i' j' := by
  simp [State.fld, State.word_setReg _ _ _ _ _ _ _ h, e]

end Sys2Proof.Machine
end

