-- ==== Sys2Proof/Laws/Events.lean ====
section
/-! SUPPORT. What logging an event and raising an interrupt leave as they were: every register but LOG_DROP and LOG_STATUS, or
SYS_IRQLOST, and all other state but the log, the free values drawn and the raised interrupts. -/

namespace Sys2Proof.Machine

variable {s : State}

theorem State.emit_regsWf {c d x y p : Nat} (h : s.regsWf) : (s.emit c d x y p).regsWf := by
  unfold State.emit
  split
  · exact h
  · exact State.putFld_regsWf (State.setReg_regsWf h)

theorem State.anyEvent_regsWf {c d p : Nat} (h : s.regsWf) : (s.anyEvent c d p).regsWf := State.emit_regsWf h
theorem State.event_regsWf {c d x p : Nat} (h : s.regsWf) : (s.event c d x p).regsWf := State.emit_regsWf h
theorem State.dataEvent_regsWf {c d x p : Nat} (h : s.regsWf) : (s.dataEvent c d x p).regsWf := State.emit_regsWf h

/-- An interrupt that is not lost leaves the registers. -/
theorem State.raise_regs {v d p : Nat} {fn : Option Nat} (h : ¬(d = 0 ∧ s.routed p v = false)) : (s.raise v d p fn).regs = s.regs := by
  unfold State.raise
  rw [if_neg h]
  dsimp only
  split
  · exact State.deliver_regs ..
  · rfl

theorem State.raise_regsWf {v d p : Nat} {fn : Option Nat} (h : s.regsWf) : (s.raise v d p fn).regsWf := by
  by_cases e : d = 0 ∧ s.routed p v = false
  · unfold State.raise
    rw [if_pos e]
    exact State.setReg_regsWf h
  · unfold State.regsWf
    rw [State.raise_regs e]
    exact h

/-- A dropped event's count and flag. -/
theorem State.word_drop (t : State) {c : Nat} (r : Reg) (i j : Nat) (h : t.regsWf) (h1 : r ≠ .LOG_DROP) (h2 : r ≠ .LOG_STATUS) :
    ((t.addReg .LOG_DROP 32 1 c).setFlag F.LOG_STATUS_OVERFLOW).word r i j = t.word r i j := by
  unfold State.setFlag State.addReg
  rw [State.word_putFld _ _ _ _ _ _ _ (State.setReg_regsWf h), if_neg (fun e => h2 e.1), State.word_setReg _ _ _ _ _ _ _ h,
    if_neg (fun e => h1 e.1)]

/-- An event leaves every register but LOG_DROP and LOG_STATUS. -/
theorem State.word_emit {c d x y p : Nat} (r : Reg) (i j : Nat) (h : s.regsWf) (h1 : r ≠ .LOG_DROP) (h2 : r ≠ .LOG_STATUS) :
    (s.emit c d x y p).word r i j = s.word r i j := by
  unfold State.emit
  split
  · rfl
  · exact State.word_drop { s with log := s.log.addDrop c s.time } r i j h h1 h2

theorem State.word_anyEvent {c d p : Nat} (r : Reg) (i j : Nat) (h : s.regsWf) (h1 : r ≠ .LOG_DROP) (h2 : r ≠ .LOG_STATUS) :
    (s.anyEvent c d p).word r i j = s.word r i j := State.word_emit (s := s.drawFree.drawFree) r i j h h1 h2
theorem State.word_event {c d x p : Nat} (r : Reg) (i j : Nat) (h : s.regsWf) (h1 : r ≠ .LOG_DROP) (h2 : r ≠ .LOG_STATUS) :
    (s.event c d x p).word r i j = s.word r i j := State.word_emit (s := s.drawFree) r i j h h1 h2
theorem State.word_dataEvent {c d x p : Nat} (r : Reg) (i j : Nat) (h : s.regsWf) (h1 : r ≠ .LOG_DROP) (h2 : r ≠ .LOG_STATUS) :
    (s.dataEvent c d x p).word r i j = s.word r i j := State.word_emit (s := s.drawFree) r i j h h1 h2

/-- An interrupt leaves every register but SYS_IRQLOST. -/
theorem State.word_raise {v d p : Nat} {fn : Option Nat} (r : Reg) (i j : Nat) (h : s.regsWf) (h1 : r ≠ .SYS_IRQLOST) :
    (s.raise v d p fn).word r i j = s.word r i j := by
  by_cases e : d = 0 ∧ s.routed p v = false
  · unfold State.raise
    rw [if_pos e, State.addReg, State.word_setReg _ _ _ _ _ _ _ h, if_neg (fun e => h1 e.1)]
  · unfold State.word
    rw [State.raise_regs e]


@[simp] theorem State.anyEvent_mem (c d p : Nat) : (s.anyEvent c d p).mem = s.mem := State.emit_mem ..
@[simp] theorem State.event_mem (c d x p : Nat) : (s.event c d x p).mem = s.mem := State.emit_mem ..
@[simp] theorem State.dataEvent_mem (c d x p : Nat) : (s.dataEvent c d x p).mem = s.mem := State.emit_mem ..
@[simp] theorem State.anyEvent_flash (c d p : Nat) : (s.anyEvent c d p).flash = s.flash := State.emit_flash ..
@[simp] theorem State.event_flash (c d x p : Nat) : (s.event c d x p).flash = s.flash := State.emit_flash ..
@[simp] theorem State.dataEvent_flash (c d x p : Nat) : (s.dataEvent c d x p).flash = s.flash := State.emit_flash ..
@[simp] theorem State.anyEvent_chip (c d p : Nat) : (s.anyEvent c d p).chip = s.chip := State.emit_chip ..
@[simp] theorem State.event_chip (c d x p : Nat) : (s.event c d x p).chip = s.chip := State.emit_chip ..
@[simp] theorem State.dataEvent_chip (c d x p : Nat) : (s.dataEvent c d x p).chip = s.chip := State.emit_chip ..
@[simp] theorem State.anyEvent_dev (c d p : Nat) : (s.anyEvent c d p).dev = s.dev := State.emit_dev ..
@[simp] theorem State.event_dev (c d x p : Nat) : (s.event c d x p).dev = s.dev := State.emit_dev ..
@[simp] theorem State.dataEvent_dev (c d x p : Nat) : (s.dataEvent c d x p).dev = s.dev := State.emit_dev ..
@[simp] theorem State.anyEvent_pins (c d p : Nat) : (s.anyEvent c d p).pins = s.pins := State.emit_pins ..
@[simp] theorem State.event_pins (c d x p : Nat) : (s.event c d x p).pins = s.pins := State.emit_pins ..
@[simp] theorem State.dataEvent_pins (c d x p : Nat) : (s.dataEvent c d x p).pins = s.pins := State.emit_pins ..
@[simp] theorem State.anyEvent_clk (c d p : Nat) : (s.anyEvent c d p).clk = s.clk := State.emit_clk ..
@[simp] theorem State.event_clk (c d x p : Nat) : (s.event c d x p).clk = s.clk := State.emit_clk ..
@[simp] theorem State.dataEvent_clk (c d x p : Nat) : (s.dataEvent c d x p).clk = s.clk := State.emit_clk ..
@[simp] theorem State.anyEvent_cq (c d p : Nat) : (s.anyEvent c d p).cq = s.cq := State.emit_cq ..
@[simp] theorem State.event_cq (c d x p : Nat) : (s.event c d x p).cq = s.cq := State.emit_cq ..
@[simp] theorem State.dataEvent_cq (c d x p : Nat) : (s.dataEvent c d x p).cq = s.cq := State.emit_cq ..
@[simp] theorem State.anyEvent_esc (c d p : Nat) : (s.anyEvent c d p).esc = s.esc := State.emit_esc ..
@[simp] theorem State.event_esc (c d x p : Nat) : (s.event c d x p).esc = s.esc := State.emit_esc ..
@[simp] theorem State.dataEvent_esc (c d x p : Nat) : (s.dataEvent c d x p).esc = s.esc := State.emit_esc ..
@[simp] theorem State.anyEvent_me (c d p : Nat) : (s.anyEvent c d p).me = s.me := State.emit_me ..
@[simp] theorem State.event_me (c d x p : Nat) : (s.event c d x p).me = s.me := State.emit_me ..
@[simp] theorem State.dataEvent_me (c d x p : Nat) : (s.dataEvent c d x p).me = s.me := State.emit_me ..
@[simp] theorem State.anyEvent_streams (c d p : Nat) : (s.anyEvent c d p).streams = s.streams := State.emit_streams ..
@[simp] theorem State.event_streams (c d x p : Nat) : (s.event c d x p).streams = s.streams := State.emit_streams ..
@[simp] theorem State.dataEvent_streams (c d x p : Nat) : (s.dataEvent c d x p).streams = s.streams := State.emit_streams ..
@[simp] theorem State.anyEvent_kv (c d p : Nat) : (s.anyEvent c d p).kv = s.kv := State.emit_kv ..
@[simp] theorem State.event_kv (c d x p : Nat) : (s.event c d x p).kv = s.kv := State.emit_kv ..
@[simp] theorem State.dataEvent_kv (c d x p : Nat) : (s.dataEvent c d x p).kv = s.kv := State.emit_kv ..
@[simp] theorem State.anyEvent_mot (c d p : Nat) : (s.anyEvent c d p).mot = s.mot := State.emit_mot ..
@[simp] theorem State.event_mot (c d x p : Nat) : (s.event c d x p).mot = s.mot := State.emit_mot ..
@[simp] theorem State.dataEvent_mot (c d x p : Nat) : (s.dataEvent c d x p).mot = s.mot := State.emit_mot ..
@[simp] theorem State.anyEvent_cam (c d p : Nat) : (s.anyEvent c d p).cam = s.cam := State.emit_cam ..
@[simp] theorem State.event_cam (c d x p : Nat) : (s.event c d x p).cam = s.cam := State.emit_cam ..
@[simp] theorem State.dataEvent_cam (c d x p : Nat) : (s.dataEvent c d x p).cam = s.cam := State.emit_cam ..
@[simp] theorem State.anyEvent_vid (c d p : Nat) : (s.anyEvent c d p).vid = s.vid := State.emit_vid ..
@[simp] theorem State.event_vid (c d x p : Nat) : (s.event c d x p).vid = s.vid := State.emit_vid ..
@[simp] theorem State.dataEvent_vid (c d x p : Nat) : (s.dataEvent c d x p).vid = s.vid := State.emit_vid ..
@[simp] theorem State.anyEvent_chr (c d p : Nat) : (s.anyEvent c d p).chr = s.chr := State.emit_chr ..
@[simp] theorem State.event_chr (c d x p : Nat) : (s.event c d x p).chr = s.chr := State.emit_chr ..
@[simp] theorem State.dataEvent_chr (c d x p : Nat) : (s.dataEvent c d x p).chr = s.chr := State.emit_chr ..
@[simp] theorem State.anyEvent_eth (c d p : Nat) : (s.anyEvent c d p).eth = s.eth := State.emit_eth ..
@[simp] theorem State.event_eth (c d x p : Nat) : (s.event c d x p).eth = s.eth := State.emit_eth ..
@[simp] theorem State.dataEvent_eth (c d x p : Nat) : (s.dataEvent c d x p).eth = s.eth := State.emit_eth ..
@[simp] theorem State.anyEvent_can (c d p : Nat) : (s.anyEvent c d p).can = s.can := State.emit_can ..
@[simp] theorem State.event_can (c d x p : Nat) : (s.event c d x p).can = s.can := State.emit_can ..
@[simp] theorem State.dataEvent_can (c d x p : Nat) : (s.dataEvent c d x p).can = s.can := State.emit_can ..
@[simp] theorem State.anyEvent_glk (c d p : Nat) : (s.anyEvent c d p).glk = s.glk := State.emit_glk ..
@[simp] theorem State.event_glk (c d x p : Nat) : (s.event c d x p).glk = s.glk := State.emit_glk ..
@[simp] theorem State.dataEvent_glk (c d x p : Nat) : (s.dataEvent c d x p).glk = s.glk := State.emit_glk ..
@[simp] theorem State.anyEvent_memc (c d p : Nat) : (s.anyEvent c d p).memc = s.memc := State.emit_memc ..
@[simp] theorem State.event_memc (c d x p : Nat) : (s.event c d x p).memc = s.memc := State.emit_memc ..
@[simp] theorem State.dataEvent_memc (c d x p : Nat) : (s.dataEvent c d x p).memc = s.memc := State.emit_memc ..
@[simp] theorem State.anyEvent_msix (c d p : Nat) : (s.anyEvent c d p).msix = s.msix := State.emit_msix ..
@[simp] theorem State.event_msix (c d x p : Nat) : (s.event c d x p).msix = s.msix := State.emit_msix ..
@[simp] theorem State.dataEvent_msix (c d x p : Nat) : (s.dataEvent c d x p).msix = s.msix := State.emit_msix ..
@[simp] theorem State.anyEvent_objs (c d p : Nat) : (s.anyEvent c d p).objs = s.objs := State.emit_objs ..
@[simp] theorem State.event_objs (c d x p : Nat) : (s.event c d x p).objs = s.objs := State.emit_objs ..
@[simp] theorem State.dataEvent_objs (c d x p : Nat) : (s.dataEvent c d x p).objs = s.objs := State.emit_objs ..
@[simp] theorem State.anyEvent_keys (c d p : Nat) : (s.anyEvent c d p).keys = s.keys := State.emit_keys ..
@[simp] theorem State.event_keys (c d x p : Nat) : (s.event c d x p).keys = s.keys := State.emit_keys ..
@[simp] theorem State.dataEvent_keys (c d x p : Nat) : (s.dataEvent c d x p).keys = s.keys := State.emit_keys ..
@[simp] theorem State.anyEvent_safe (c d p : Nat) : (s.anyEvent c d p).safe = s.safe := State.emit_safe ..
@[simp] theorem State.event_safe (c d x p : Nat) : (s.event c d x p).safe = s.safe := State.emit_safe ..
@[simp] theorem State.dataEvent_safe (c d x p : Nat) : (s.dataEvent c d x p).safe = s.safe := State.emit_safe ..
@[simp] theorem State.anyEvent_irqs (c d p : Nat) : (s.anyEvent c d p).irqs = s.irqs := State.emit_irqs ..
@[simp] theorem State.event_irqs (c d x p : Nat) : (s.event c d x p).irqs = s.irqs := State.emit_irqs ..
@[simp] theorem State.dataEvent_irqs (c d x p : Nat) : (s.dataEvent c d x p).irqs = s.irqs := State.emit_irqs ..
@[simp] theorem State.anyEvent_sent (c d p : Nat) : (s.anyEvent c d p).sent = s.sent := State.emit_sent ..
@[simp] theorem State.event_sent (c d x p : Nat) : (s.event c d x p).sent = s.sent := State.emit_sent ..
@[simp] theorem State.dataEvent_sent (c d x p : Nat) : (s.dataEvent c d x p).sent = s.sent := State.emit_sent ..
@[simp] theorem State.anyEvent_scrub (c d p : Nat) : (s.anyEvent c d p).scrub = s.scrub := State.emit_scrub ..
@[simp] theorem State.event_scrub (c d x p : Nat) : (s.event c d x p).scrub = s.scrub := State.emit_scrub ..
@[simp] theorem State.dataEvent_scrub (c d x p : Nat) : (s.dataEvent c d x p).scrub = s.scrub := State.emit_scrub ..
@[simp] theorem State.anyEvent_busError (c d p : Nat) : (s.anyEvent c d p).busError = s.busError := State.emit_busError ..
@[simp] theorem State.event_busError (c d x p : Nat) : (s.event c d x p).busError = s.busError := State.emit_busError ..
@[simp] theorem State.dataEvent_busError (c d x p : Nat) : (s.dataEvent c d x p).busError = s.busError := State.emit_busError ..
@[simp] theorem State.anyEvent_readValue (c d p : Nat) : (s.anyEvent c d p).readValue = s.readValue := State.emit_readValue ..
@[simp] theorem State.event_readValue (c d x p : Nat) : (s.event c d x p).readValue = s.readValue := State.emit_readValue ..
@[simp] theorem State.dataEvent_readValue (c d x p : Nat) : (s.dataEvent c d x p).readValue = s.readValue := State.emit_readValue ..
@[simp] theorem State.anyEvent_due (c d p : Nat) : (s.anyEvent c d p).due = s.due := State.emit_due ..
@[simp] theorem State.event_due (c d x p : Nat) : (s.event c d x p).due = s.due := State.emit_due ..
@[simp] theorem State.dataEvent_due (c d x p : Nat) : (s.dataEvent c d x p).due = s.due := State.emit_due ..
@[simp] theorem State.anyEvent_app (c d p : Nat) : (s.anyEvent c d p).app = s.app := State.emit_app ..
@[simp] theorem State.event_app (c d x p : Nat) : (s.event c d x p).app = s.app := State.emit_app ..
@[simp] theorem State.dataEvent_app (c d x p : Nat) : (s.dataEvent c d x p).app = s.app := State.emit_app ..
@[simp] theorem State.anyEvent_traffic (c d p : Nat) : (s.anyEvent c d p).traffic = s.traffic := State.emit_traffic ..
@[simp] theorem State.event_traffic (c d x p : Nat) : (s.event c d x p).traffic = s.traffic := State.emit_traffic ..
@[simp] theorem State.dataEvent_traffic (c d x p : Nat) : (s.dataEvent c d x p).traffic = s.traffic := State.emit_traffic ..
@[simp] theorem State.anyEvent_pending (c d p : Nat) : (s.anyEvent c d p).pending = s.pending := State.emit_pending ..
@[simp] theorem State.event_pending (c d x p : Nat) : (s.event c d x p).pending = s.pending := State.emit_pending ..
@[simp] theorem State.dataEvent_pending (c d x p : Nat) : (s.dataEvent c d x p).pending = s.pending := State.emit_pending ..

/-- A register write that the access rule allows, to a block whose clock runs. -/
theorem State.regWrite_allowed {b : Block} {a : Bool} (t : State) (h : a = true) (h1 : s.gated b = false) : s.regWrite b a t = t.accessed := by
  unfold State.regWrite; rw [h, h1]; rfl

/-- A register write that the access rule refuses, or to a block whose clock is stopped. -/
theorem State.regWrite_refused {b : Block} {a : Bool} (t : State) (h : a = false ∨ s.gated b = true) : s.regWrite b a t = s.busErr := by
  unfold State.regWrite; rcases h with h | h <;> rw [h] <;> cases a <;> rfl

end Sys2Proof.Machine
end

