-- ==== Sys2Proof/Laws/Keeps/Ops.lean ====
section
/-! SUPPORT. What the operations of Machine/Ops.lean keep (Laws/Keeps.lean). -/

set_option linter.unusedTactic false
set_option linter.unreachableTactic false

namespace Sys2Proof.Machine

theorem State.setReg_keeps {base : State} (s : State) (r : Reg) (n i j : Nat) (hb : Keeps base s) :
    Keeps base (State.setReg s r n i j) :=
  ⟨hb.1, hb.2, hb.3, hb.4, fun h => sparseSet_wf (hb.5 h)⟩

theorem State.putFld_keeps {base : State} (s : State) (f : Fld) (n i j : Nat) (hb : Keeps base s) :
    Keeps base (State.putFld s f n i j) :=
  ⟨hb.1, hb.2, hb.3, hb.4, fun h => sparseSet_wf (hb.5 h)⟩

theorem State.setFlag_keeps {orig : State} (s : State) (f : Fld) (i : Nat) (j : Nat) (hb : Keeps orig s) :
    Keeps orig (State.setFlag s f i j) := by
  unfold State.setFlag; try dsimp only
  repeat' (with_reducible first | exact hb | apply State.putFld_keeps | apply keeps_foldl | apply keeps_elim | (intro (t : State); have hb := Keeps.refl t) | intro _ | split | rw [id] | simp only [↓keeps_mk])

theorem State.addFld_keeps {orig : State} (s : State) (f : Fld) (n : Nat) (i : Nat) (j : Nat) (hb : Keeps orig s) :
    Keeps orig (State.addFld s f n i j) := by
  unfold State.addFld; try dsimp only
  repeat' (with_reducible first | exact hb | apply State.putFld_keeps | apply keeps_foldl | apply keeps_elim | (intro (t : State); have hb := Keeps.refl t) | intro _ | split | rw [id] | simp only [↓keeps_mk])

theorem State.addReg_keeps {orig : State} (s : State) (r : Reg) (w : Nat) (n : Nat) (i : Nat) (j : Nat) (hb : Keeps orig s) :
    Keeps orig (State.addReg s r w n i j) := by
  unfold State.addReg; try dsimp only
  repeat' (with_reducible first | exact hb | apply State.setReg_keeps | apply keeps_foldl | apply keeps_elim | (intro (t : State); have hb := Keeps.refl t) | intro _ | split | rw [id] | simp only [↓keeps_mk])

theorem State.loadRegs_keeps {base : State} (s : State) (l : List (Reg × Nat × Nat × Nat)) (hb : Keeps base s) :
    Keeps base (State.loadRegs s l) := by
  induction l generalizing s with
  | nil => exact hb
  | cons e l ih => exact ih _ (State.setReg_keeps _ _ _ _ _ hb)

theorem State.showFnFault_keeps {orig : State} (s : State) (hb : Keeps orig s) :
    Keeps orig (State.showFnFault s) := by
  unfold State.showFnFault; try dsimp only
  repeat' (with_reducible first | exact hb | apply State.putFld_keeps | apply keeps_foldl | apply keeps_elim | (intro (t : State); have hb := Keeps.refl t) | intro _ | split | rw [id] | simp only [↓keeps_mk])

theorem State.refreshUnits_keeps {orig : State} (s : State) (hb : Keeps orig s) :
    Keeps orig (State.refreshUnits s) := by
  unfold State.refreshUnits; try dsimp only
  repeat' (with_reducible first | exact hb | apply State.putFld_keeps | apply keeps_foldl | apply keeps_elim | (intro (t : State); have hb := Keeps.refl t) | intro _ | split | rw [id] | simp only [↓keeps_mk])

theorem State.setFn_keeps {orig : State} (s : State) (n : Nat) (code : Nat) (hb : Keeps orig s) :
    Keeps orig (State.setFn s n code) := by
  unfold State.setFn; try dsimp only
  repeat' (with_reducible first | exact hb | apply State.putFld_keeps | apply State.setReg_keeps | apply keeps_foldl | apply keeps_elim | (intro (t : State); have hb := Keeps.refl t) | intro _ | split | rw [id] | simp only [↓keeps_mk])

theorem State.trainPcie_keeps {orig : State} (s : State) (hb : Keeps orig s) :
    Keeps orig (State.trainPcie s) := by
  unfold State.trainPcie; try dsimp only
  repeat' (with_reducible first | exact hb | apply State.putFld_keeps | apply keeps_foldl | apply keeps_elim | (intro (t : State); have hb := Keeps.refl t) | intro _ | split | rw [id] | simp only [↓keeps_mk])

theorem State.suspendDog_keeps {orig : State} (s : State) (k : Nat) (hb : Keeps orig s) :
    Keeps orig (State.suspendDog s k) := by
  unfold State.suspendDog; try dsimp only
  repeat' (with_reducible first | exact hb | apply State.putFld_keeps | apply keeps_foldl | apply keeps_elim | (intro (t : State); have hb := Keeps.refl t) | intro _ | split | rw [id] | simp only [↓keeps_mk])

theorem State.suspendDogs_keeps {orig : State} (s : State) (p : Nat) (hb : Keeps orig s) :
    Keeps orig (State.suspendDogs s p) := by
  unfold State.suspendDogs; try dsimp only
  repeat' (with_reducible first | exact hb | apply State.suspendDog_keeps | apply keeps_foldl | apply keeps_elim | (intro (t : State); have hb := Keeps.refl t) | intro _ | split | rw [id] | simp only [↓keeps_mk])

theorem State.suspendAll_keeps {orig : State} (s : State) (hb : Keeps orig s) :
    Keeps orig (State.suspendAll s) := by
  unfold State.suspendAll; try dsimp only
  repeat' (with_reducible first | exact hb | apply State.suspendDog_keeps | apply keeps_foldl | apply keeps_elim | (intro (t : State); have hb := Keeps.refl t) | intro _ | split | rw [id] | simp only [↓keeps_mk])

theorem State.faultDrain_keeps {orig : State} (s : State) (fn : Nat) (hb : Keeps orig s) :
    Keeps orig (State.faultDrain s fn) := by
  unfold State.faultDrain; try dsimp only
  repeat' (with_reducible first | exact hb | apply State.showFnFault_keeps | apply State.setFn_keeps | apply keeps_foldl | apply keeps_elim | (intro (t : State); have hb := Keeps.refl t) | intro _ | split | rw [id] | simp only [↓keeps_mk])

theorem State.setUnit_keeps {orig : State} (s : State) (fn : Nat) (unit : Nat) (code : Nat) (hb : Keeps orig s) :
    Keeps orig (State.setUnit s fn unit code) := by
  unfold State.setUnit; try dsimp only
  repeat' (with_reducible first | exact hb | apply State.refreshUnits_keeps | apply State.putFld_keeps | apply State.suspendDogs_keeps | apply State.faultDrain_keeps | apply keeps_foldl | apply keeps_elim | (intro (t : State); have hb := Keeps.refl t) | intro _ | split | rw [id] | simp only [↓keeps_mk])

theorem State.setUnits_keeps {orig : State} (s : State) (fn : Nat) (code : Nat) (hb : Keeps orig s) :
    Keeps orig (State.setUnits s fn code) := by
  unfold State.setUnits; try dsimp only
  repeat' (with_reducible first | exact hb | apply State.setUnit_keeps | apply keeps_foldl | apply keeps_elim | (intro (t : State); have hb := Keeps.refl t) | intro _ | split | rw [id] | simp only [↓keeps_mk])

theorem State.acceptFn_keeps {orig : State} (s : State) (n : Nat) (hb : Keeps orig s) :
    Keeps orig (State.acceptFn s n) := by
  unfold State.acceptFn; try dsimp only
  repeat' (with_reducible first | exact hb | apply State.setFn_keeps | apply keeps_foldl | apply keeps_elim | (intro (t : State); have hb := Keeps.refl t) | intro _ | split | rw [id] | simp only [↓keeps_mk])

theorem State.acceptUnit_keeps {orig : State} (s : State) (fn : Nat) (unit : Nat) (hb : Keeps orig s) :
    Keeps orig (State.acceptUnit s fn unit) := by
  unfold State.acceptUnit; try dsimp only
  repeat' (with_reducible first | exact hb | apply State.acceptFn_keeps | apply State.setUnit_keeps | apply keeps_foldl | apply keeps_elim | (intro (t : State); have hb := Keeps.refl t) | intro _ | split | rw [id] | simp only [↓keeps_mk])

theorem State.drawFree_keeps {orig : State} (s : State) (hb : Keeps orig s) :
    Keeps orig (State.drawFree s) := by
  unfold State.drawFree; try dsimp only
  repeat' (with_reducible first | exact hb | apply keeps_foldl | apply keeps_elim | (intro (t : State); have hb := Keeps.refl t) | intro _ | split | rw [id] | simp only [↓keeps_mk])

theorem State.emit_keeps {orig : State} (s : State) (cls : Nat) (code : Nat) (source : Nat) (data : Nat) (partition : Nat) (hb : Keeps orig s) :
    Keeps orig (State.emit s cls code source data partition) := by
  unfold State.emit; try dsimp only
  repeat' (with_reducible first | exact hb | apply State.setFlag_keeps | apply State.addReg_keeps | apply keeps_foldl | apply keeps_elim | (intro (t : State); have hb := Keeps.refl t) | intro _ | split | rw [id] | simp only [↓keeps_mk])

theorem State.event_keeps {orig : State} (s : State) (cls : Nat) (code : Nat) (source : Nat) (partition : Nat) (hb : Keeps orig s) :
    Keeps orig (State.event s cls code source partition) := by
  unfold State.event; try dsimp only
  repeat' (with_reducible first | exact hb | apply State.emit_keeps | apply State.drawFree_keeps | apply keeps_foldl | apply keeps_elim | (intro (t : State); have hb := Keeps.refl t) | intro _ | split | rw [id] | simp only [↓keeps_mk])

theorem State.anyEvent_keeps {orig : State} (s : State) (cls : Nat) (code : Nat) (partition : Nat) (hb : Keeps orig s) :
    Keeps orig (State.anyEvent s cls code partition) := by
  unfold State.anyEvent; try dsimp only
  repeat' (with_reducible first | exact hb | apply State.event_keeps | apply State.drawFree_keeps | apply keeps_foldl | apply keeps_elim | (intro (t : State); have hb := Keeps.refl t) | intro _ | split | rw [id] | simp only [↓keeps_mk])

theorem State.dataEvent_keeps {orig : State} (s : State) (cls : Nat) (code : Nat) (data : Nat) (partition : Nat) (hb : Keeps orig s) :
    Keeps orig (State.dataEvent s cls code data partition) := by
  unfold State.dataEvent; try dsimp only
  repeat' (with_reducible first | exact hb | apply State.emit_keeps | apply State.drawFree_keeps | apply keeps_foldl | apply keeps_elim | (intro (t : State); have hb := Keeps.refl t) | intro _ | split | rw [id] | simp only [↓keeps_mk])

theorem State.pend_keeps {orig : State} (s : State) (hart : Nat) (file : Nat) (id : Nat) (hb : Keeps orig s) :
    Keeps orig (State.pend s hart file id) := by
  unfold State.pend; try dsimp only
  repeat' (with_reducible first | exact hb | apply keeps_foldl | apply keeps_elim | (intro (t : State); have hb := Keeps.refl t) | intro _ | split | rw [id] | simp only [↓keeps_mk])

theorem State.deliver_keeps {orig : State} (s : State) (vec : Nat) (partition : Nat) (hb : Keeps orig s) :
    Keeps orig (State.deliver s vec partition) := by
  unfold State.deliver; try dsimp only
  repeat' (with_reducible first | exact hb | apply State.pend_keeps | apply keeps_foldl | apply keeps_elim | (intro (t : State); have hb := Keeps.refl t) | intro _ | split | rw [id] | simp only [↓keeps_mk])

theorem State.raise_keeps {orig : State} (s : State) (vec : Nat) (dest : Nat) (partition : Nat) (fn : Option Nat) (hb : Keeps orig s) :
    Keeps orig (State.raise s vec dest partition fn) := by
  unfold State.raise; try dsimp only
  repeat' (with_reducible first | exact hb | apply State.addReg_keeps | apply State.deliver_keeps | apply keeps_foldl | apply keeps_elim | (intro (t : State); have hb := Keeps.refl t) | intro _ | split | rw [id] | simp only [↓keeps_mk])

theorem State.send_keeps {orig : State} (s : State) (o : Out) (hb : Keeps orig s) :
    Keeps orig (State.send s o) := by
  unfold State.send; try dsimp only
  repeat' (with_reducible first | exact hb | apply keeps_foldl | apply keeps_elim | (intro (t : State); have hb := Keeps.refl t) | intro _ | split | rw [id] | simp only [↓keeps_mk])

theorem State.owe_keeps {orig : State} (s : State) (i : Instr) (hb : Keeps orig s) :
    Keeps orig (State.owe s i) := by
  unfold State.owe; try dsimp only
  repeat' (with_reducible first | exact hb | apply keeps_foldl | apply keeps_elim | (intro (t : State); have hb := Keeps.refl t) | intro _ | split | rw [id] | simp only [↓keeps_mk])

theorem State.busErr_keeps {orig : State} (s : State) (hb : Keeps orig s) :
    Keeps orig (State.busErr s) := by
  unfold State.busErr; try dsimp only
  repeat' (with_reducible first | exact hb | apply keeps_foldl | apply keeps_elim | (intro (t : State); have hb := Keeps.refl t) | intro _ | split | rw [id] | simp only [↓keeps_mk])

theorem State.accessed_keeps {orig : State} (s : State) (hb : Keeps orig s) :
    Keeps orig (State.accessed s) := by
  unfold State.accessed; try dsimp only
  repeat' (with_reducible first | exact hb | apply keeps_foldl | apply keeps_elim | (intro (t : State); have hb := Keeps.refl t) | intro _ | split | rw [id] | simp only [↓keeps_mk])

theorem State.regWrite_keeps {base : State} (s : State) (b : Block) (allowed : Bool) (t : State) (hs : Keeps base s) (hb : Keeps base t) :
    Keeps base (State.regWrite s b allowed t) := by
  unfold State.regWrite
  split
  · exact State.accessed_keeps _ hb
  · exact State.busErr_keeps _ hs

theorem State.keyed_keeps {orig : State} (s : State) (i : Nat) (hb : Keeps orig s) :
    Keeps orig (State.keyed s i) := by
  unfold State.keyed; try dsimp only
  repeat' (with_reducible first | exact hb | apply keeps_foldl | apply keeps_elim | (intro (t : State); have hb := Keeps.refl t) | intro _ | split | rw [id] | simp only [↓keeps_mk])

theorem State.sys_keeps {orig : State} (s : State) (hb : Keeps orig s) :
    Keeps orig (State.sys s) := by
  unfold State.sys; try dsimp only
  repeat' (with_reducible first | exact hb | apply State.keyed_keeps | apply keeps_foldl | apply keeps_elim | (intro (t : State); have hb := Keeps.refl t) | intro _ | split | rw [id] | simp only [↓keeps_mk])

theorem State.chargeKey_keeps {orig : State} (s : State) (k : Nat) (n : Nat) (hb : Keeps orig s) :
    Keeps orig (State.chargeKey s k n) := by
  unfold State.chargeKey; try dsimp only
  repeat' (with_reducible first | exact hb | apply keeps_foldl | apply keeps_elim | (intro (t : State); have hb := Keeps.refl t) | intro _ | split | rw [id] | simp only [↓keeps_mk])

theorem State.charge_keeps {orig : State} (s : State) (i : Nat) (a : Nat) (n : Nat) (hb : Keeps orig s) :
    Keeps orig (State.charge s i a n) := by
  unfold State.charge; try dsimp only
  repeat' (with_reducible first | exact hb | apply State.chargeKey_keeps | apply keeps_foldl | apply keeps_elim | (intro (t : State); have hb := Keeps.refl t) | intro _ | split | rw [id] | simp only [↓keeps_mk])

theorem State.chargeRead_keeps {orig : State} (s : State) (i : Nat) (a : Nat) (n : Nat) (hb : Keeps orig s) :
    Keeps orig (State.chargeRead s i a n) := by
  unfold State.chargeRead; try dsimp only
  repeat' (with_reducible first | exact hb | apply State.charge_keeps | apply keeps_foldl | apply keeps_elim | (intro (t : State); have hb := Keeps.refl t) | intro _ | split | rw [id] | simp only [↓keeps_mk])

theorem State.rekeyed_wf {s : State} (a n : Nat) (h : sparseWf (fun _ => (0 : Byte)) s.mem = true) :
    sparseWf (fun _ => (0 : Byte)) (s.rekeyed a n) = true :=
  foldl_inv (P := fun m => sparseWf (fun _ => (0 : Byte)) m = true) (fun _ _ h => sparseSetList_wf h) h

theorem State.settled_keeps {orig s t : State} (hb : Keeps orig s) (ht : Keeps orig t) : Keeps orig (s.settled t) := by
  unfold State.settled; split <;> assumption

theorem State.putBytes_keeps {base : State} (s : State) (a : Nat) (bs : List Byte) (hb : Keeps base s) :
    Keeps base (State.putBytes s a bs) :=
  ⟨fun h => sparseSetList_wf (State.rekeyed_wf _ _ (hb.1 h)), hb.2, hb.3, hb.4, hb.5⟩

theorem State.writeBytes_keeps {base : State} (s : State) (a : Nat) (bs : List Byte) (hb : Keeps base s) :
    Keeps base (State.writeBytes s a bs) :=
  State.charge_keeps _ _ _ _ (State.putBytes_keeps _ _ _ hb)

theorem State.writeNum_keeps {orig : State} (s : State) (a : Nat) (n : Nat) (v : Nat) (hb : Keeps orig s) :
    Keeps orig (State.writeNum s a n v) := by
  unfold State.writeNum; try dsimp only
  repeat' (with_reducible first | exact hb | apply State.writeBytes_keeps | apply keeps_foldl | apply keeps_elim | (intro (t : State); have hb := Keeps.refl t) | intro _ | split | rw [id] | simp only [↓keeps_mk])

theorem State.sysWrite_keeps {orig : State} (s : State) (a : Nat) (bs : List Byte) (hb : Keeps orig s) :
    Keeps orig (State.sysWrite s a bs) := by
  unfold State.sysWrite; try dsimp only
  repeat' (with_reducible first | exact hb | apply State.keyed_keeps | apply State.writeBytes_keeps | apply State.sys_keeps | apply keeps_foldl | apply keeps_elim | (intro (t : State); have hb := Keeps.refl t) | intro _ | split | rw [id] | simp only [↓keeps_mk])

theorem State.sysWriteNum_keeps {orig : State} (s : State) (a : Nat) (n : Nat) (v : Nat) (hb : Keeps orig s) :
    Keeps orig (State.sysWriteNum s a n v) := by
  unfold State.sysWriteNum; try dsimp only
  repeat' (with_reducible first | exact hb | apply State.sysWrite_keeps | apply keeps_foldl | apply keeps_elim | (intro (t : State); have hb := Keeps.refl t) | intro _ | split | rw [id] | simp only [↓keeps_mk])

theorem State.clearMem_keeps {base : State} (s : State) (lo hi : Nat) (hb : Keeps base s) :
    Keeps base (State.clearMem s lo hi) :=
  ⟨fun h => sparseClear_wf (hb.1 h), hb.2, hb.3, hb.4, hb.5⟩

theorem State.uncorrectable_keeps {orig : State} (s : State) (a : Nat) (unit : Nat) (part : Nat) (hb : Keeps orig s) :
    Keeps orig (State.uncorrectable s a unit part) := by
  unfold State.uncorrectable; try dsimp only
  repeat' (with_reducible first | exact hb | apply State.addFld_keeps | apply State.setReg_keeps | apply State.emit_keeps | apply keeps_foldl | apply keeps_elim | (intro (t : State); have hb := Keeps.refl t) | intro _ | split | rw [id] | simp only [↓keeps_mk])

theorem State.emitDeny_keeps {orig : State} (s : State) (i : Nat) (a : Nat) (hb : Keeps orig s) :
    Keeps orig (State.emitDeny s i a) := by
  unfold State.emitDeny; try dsimp only
  repeat' (with_reducible first | exact hb | apply State.emit_keeps | apply keeps_foldl | apply keeps_elim | (intro (t : State); have hb := Keeps.refl t) | intro _ | split | rw [id] | simp only [↓keeps_mk])

theorem State.firstDenial_keeps {orig : State} (s : State) (t : Nat) (i : Nat) (a : Nat) (write : Bool) (hb : Keeps orig s) :
    Keeps orig (State.firstDenial s t i a write) := by
  unfold State.firstDenial; try dsimp only
  repeat' (with_reducible first | exact hb | apply State.loadRegs_keeps | apply keeps_foldl | apply keeps_elim | (intro (t : State); have hb := Keeps.refl t) | intro _ | split | rw [id] | simp only [↓keeps_mk])

theorem State.denied_keeps {orig : State} (s : State) (i : Nat) (a : Nat) (write : Bool) (x4 : Option Nat) (hb : Keeps orig s) :
    Keeps orig (State.denied s i a write x4) := by
  unfold State.denied; try dsimp only
  repeat' (with_reducible first | exact hb | apply State.emitDeny_keeps | apply State.addReg_keeps | apply State.firstDenial_keeps | apply keeps_foldl | apply keeps_elim | (intro (t : State); have hb := Keeps.refl t) | intro _ | split | rw [id] | simp only [↓keeps_mk])

theorem State.recordDenial_keeps {orig : State} (s : State) (i : Nat) (a : Nat) (n : Nat) (write : Bool) (hb : Keeps orig s) :
    Keeps orig (State.recordDenial s i a n write) := by
  unfold State.recordDenial; try dsimp only
  repeat' (with_reducible first | exact hb | apply State.denied_keeps | apply keeps_foldl | apply keeps_elim | (intro (t : State); have hb := Keeps.refl t) | intro _ | split | rw [id] | simp only [↓keeps_mk])

theorem State.chargePieces_keeps {orig : State} (s : State) (i : Nat) (ps : List (Nat × Nat)) (hb : Keeps orig s) :
    Keeps orig (State.chargePieces s i ps) := by
  unfold State.chargePieces; try dsimp only
  repeat' (with_reducible first | exact hb | apply State.charge_keeps | apply keeps_foldl | apply keeps_elim | (intro (t : State); have hb := Keeps.refl t) | intro _ | split | rw [id] | simp only [↓keeps_mk])

theorem State.writePieces_keeps {base : State} (s : State) (ps : List (Nat × Nat)) (bs : List Byte) (hb : Keeps base s) :
    Keeps base (State.writePieces s ps bs) := by
  induction ps generalizing s bs with
  | nil => exact hb
  | cons e l ih => exact ih _ _ (State.writeBytes_keeps _ _ _ hb)

theorem State.flashWrite_keeps {base : State} (s : State) (a : Nat) (bs : List Byte) (hb : Keeps base s) :
    Keeps base (State.flashWrite s a bs) :=
  ⟨hb.1, fun h => sparseSetList_wf (hb.2 h), hb.3, hb.4, hb.5⟩

theorem State.flashErase_keeps {base : State} (s : State) (lo hi : Nat) (hb : Keeps base s) :
    Keeps base (State.flashErase s lo hi) :=
  ⟨hb.1, fun h => sparseClear_wf (hb.2 h), hb.3, hb.4, hb.5⟩

end Sys2Proof.Machine
end

