-- ==== Sys2Proof/Laws/Keeps/Digest.lean ====
section
/-! SUPPORT. What the operations of Machine/Digest.lean keep (Laws/Keeps.lean). -/

set_option linter.unusedTactic false
set_option linter.unreachableTactic false

namespace Sys2Proof.Machine

theorem State.showDigest_keeps {orig : State} (s : State) (hb : Keeps orig s) :
    Keeps orig (State.showDigest s) := by
  unfold State.showDigest; try dsimp only
  repeat' (with_reducible first | exact hb | apply State.setReg_keeps | apply keeps_foldl | apply keeps_elim | (intro (t : State); have hb := Keeps.refl t) | intro _ | split | rw [id] | simp only [↓keeps_mk])

theorem State.bumpGen_keeps {orig : State} (s : State) (hb : Keeps orig s) :
    Keeps orig (State.bumpGen s) := by
  unfold State.bumpGen; try dsimp only
  repeat' (with_reducible first | exact hb | apply State.showDigest_keeps | apply State.setReg_keeps | apply keeps_foldl | apply keeps_elim | (intro (t : State); have hb := Keeps.refl t) | intro _ | split | rw [id] | simp only [↓keeps_mk])

end Sys2Proof.Machine
end

