-- ==== Sys2Proof/Laws/Keeps/Staging.lean ====
section
/-! SUPPORT. What the operations of Machine/Staging.lean keep (Laws/Keeps.lean). -/

set_option linter.unusedTactic false
set_option linter.unreachableTactic false

namespace Sys2Proof.Machine

theorem State.stageDenied_keeps {orig : State} (s : State) (init : Nat) (hb : Keeps orig s) :
    Keeps orig (State.stageDenied s init) := by
  unfold State.stageDenied; try dsimp only
  repeat' (with_reducible first | exact hb | apply State.busErr_keeps | apply State.setFlag_keeps | apply State.putFld_keeps | apply keeps_foldl | apply keeps_elim | (intro (t : State); have hb := Keeps.refl t) | intro _ | split | rw [id] | simp only [↓keeps_mk])

theorem State.stageReg_keeps {orig : State} (s : State) (r : Reg) (i : Nat) (j : Nat) (v : Nat) (init : Nat) (hb : Keeps orig s) :
    Keeps orig (State.stageReg s r i j v init) := by
  unfold State.stageReg; try dsimp only
  repeat' (with_reducible first | exact hb | apply State.accessed_keeps | apply State.stageDenied_keeps | apply keeps_foldl | apply keeps_elim | (intro (t : State); have hb := Keeps.refl t) | intro _ | split | rw [id] | simp only [↓keeps_mk])

theorem State.paramWrite_keeps {base : State} (s : State) (allowed : Bool) (r : Reg) (i j v init : Nat) (t : State) (hs : Keeps base s)
    (hb : Keeps base t) : Keeps base (State.paramWrite s allowed r i j v init t) := by
  unfold State.paramWrite
  repeat' split
  · exact State.busErr_keeps _ hs
  · exact State.stageReg_keeps _ _ _ _ _ _ hs
  · exact State.accessed_keeps _ hb

end Sys2Proof.Machine
end

