-- ==== Sys2Proof/Laws/Keeps/Flags.lean ====
section
/-! SUPPORT. What the operations of Machine/Flags.lean keep (Laws/Keeps.lean). -/

set_option linter.unusedTactic false
set_option linter.unreachableTactic false

namespace Sys2Proof.Machine

theorem State.cmdqError_keeps {orig : State} (s : State) (f : Fld) (q : Nat) (init : Option Nat) (hb : Keeps orig s) :
    Keeps orig (State.cmdqError s f q init) := by
  unfold State.cmdqError; try dsimp only
  repeat' (with_reducible first | exact hb | apply State.putFld_keeps | apply State.setFlag_keeps | apply keeps_foldl | apply keeps_elim | (intro (t : State); have hb := Keeps.refl t) | intro _ | split | rw [id] | simp only [↓keeps_mk])

theorem State.syncRefuse_keeps {orig : State} (s : State) (f : Fld) (init : Nat) (ctr : Nat) (hb : Keeps orig s) :
    Keeps orig (State.syncRefuse s f init ctr) := by
  unfold State.syncRefuse; try dsimp only
  repeat' (with_reducible first | exact hb | apply State.putFld_keeps | apply State.setFlag_keeps | apply keeps_foldl | apply keeps_elim | (intro (t : State); have hb := Keeps.refl t) | intro _ | split | rw [id] | simp only [↓keeps_mk])

theorem State.syncSaturated_keeps {orig : State} (s : State) (ctr : Nat) (hb : Keeps orig s) :
    Keeps orig (State.syncSaturated s ctr) := by
  unfold State.syncSaturated; try dsimp only
  repeat' (with_reducible first | exact hb | apply State.putFld_keeps | apply State.setFlag_keeps | apply keeps_foldl | apply keeps_elim | (intro (t : State); have hb := Keeps.refl t) | intro _ | split | rw [id] | simp only [↓keeps_mk])

theorem State.gatedRead_keeps {orig : State} (s : State) (init : Nat) (addr : Nat) (hb : Keeps orig s) :
    Keeps orig (State.gatedRead s init addr) := by
  unfold State.gatedRead; try dsimp only
  repeat' (with_reducible first | exact hb | apply State.setFlag_keeps | apply State.putFld_keeps | apply State.emit_keeps | apply keeps_foldl | apply keeps_elim | (intro (t : State); have hb := Keeps.refl t) | intro _ | split | rw [id] | simp only [↓keeps_mk])

theorem State.switchRefused_keeps {orig : State} (s : State) (reason : Nat) (hb : Keeps orig s) :
    Keeps orig (State.switchRefused s reason) := by
  unfold State.switchRefused; try dsimp only
  repeat' (with_reducible first | exact hb | apply State.putFld_keeps | apply State.setFlag_keeps | apply keeps_foldl | apply keeps_elim | (intro (t : State); have hb := Keeps.refl t) | intro _ | split | rw [id] | simp only [↓keeps_mk])

theorem State.firstFault_keeps {orig : State} (s : State) (r : Reg) (cause : Nat) (low : Nat) (i : Nat) (hb : Keeps orig s) :
    Keeps orig (State.firstFault s r cause low i) := by
  unfold State.firstFault; try dsimp only
  repeat' (with_reducible first | exact hb | apply State.setReg_keeps | apply keeps_foldl | apply keeps_elim | (intro (t : State); have hb := Keeps.refl t) | intro _ | split | rw [id] | simp only [↓keeps_mk])

theorem State.noteFault_keeps {orig : State} (s : State) (r : Reg) (cause : Nat) (low : Nat) (i : Nat) (hb : Keeps orig s) :
    Keeps orig (State.noteFault s r cause low i) := by
  unfold State.noteFault; try dsimp only
  repeat' (with_reducible first | exact hb | apply State.setReg_keeps | apply keeps_foldl | apply keeps_elim | (intro (t : State); have hb := Keeps.refl t) | intro _ | split | rw [id] | simp only [↓keeps_mk])

end Sys2Proof.Machine
end

