-- ==== Sys2Proof/Laws/Keeps/Routes.lean ====
section
/-! SUPPORT. What the operations of Machine/Routes.lean keep (Laws/Keeps.lean). -/

set_option linter.unusedTactic false
set_option linter.unreachableTactic false

namespace Sys2Proof.Machine

theorem State.sendVia_keeps {orig : State} (s : State) (n : Nat) (o : Out) (hb : Keeps orig s) :
    Keeps orig (State.sendVia s n o) := by
  unfold State.sendVia; try dsimp only
  repeat' (with_reducible first | exact hb | apply State.send_keeps | apply keeps_foldl | apply keeps_elim | (intro (t : State); have hb := Keeps.refl t) | intro _ | split | rw [id] | simp only [↓keeps_mk])

theorem State.toMember_keeps {orig : State} (s : State) (d : Nat) (o : Out) (hb : Keeps orig s) :
    Keeps orig (State.toMember s d o) := by
  unfold State.toMember; try dsimp only
  repeat' (with_reducible first | exact hb | apply State.sendVia_keeps | apply keeps_foldl | apply keeps_elim | (intro (t : State); have hb := Keeps.refl t) | intro _ | split | rw [id] | simp only [↓keeps_mk])

theorem State.toPort_keeps {orig : State} (s : State) (n : Nat) (m : GlkMsg) (hb : Keeps orig s) :
    Keeps orig (State.toPort s n m) := by
  unfold State.toPort; try dsimp only
  repeat' (with_reducible first | exact hb | apply State.sendVia_keeps | apply keeps_foldl | apply keeps_elim | (intro (t : State); have hb := Keeps.refl t) | intro _ | split | rw [id] | simp only [↓keeps_mk])

theorem State.flow_keeps {orig : State} (s : State) (hb : Keeps orig s) :
    Keeps orig (State.flow s) := by
  unfold State.flow; try dsimp only
  repeat' (with_reducible first | exact hb | apply State.sendVia_keeps | apply State.toPort_keeps | apply keeps_foldl | apply keeps_elim | (intro (t : State); have hb := Keeps.refl t) | intro _ | split | rw [id] | simp only [↓keeps_mk])

theorem State.toPorts_keeps {orig : State} (s : State) (but : Option Nat) (m : GlkMsg) (hb : Keeps orig s) :
    Keeps orig (State.toPorts s but m) := by
  unfold State.toPorts; try dsimp only
  repeat' (with_reducible first | exact hb | apply State.toPort_keeps | apply keeps_foldl | apply keeps_elim | (intro (t : State); have hb := Keeps.refl t) | intro _ | split | rw [id] | simp only [↓keeps_mk])

theorem State.showClusterTime_keeps {orig : State} (s : State) (hb : Keeps orig s) :
    Keeps orig (State.showClusterTime s) := by
  unfold State.showClusterTime; try dsimp only
  repeat' (with_reducible first | exact hb | apply State.putFld_keeps | apply State.setReg_keeps | apply keeps_foldl | apply keeps_elim | (intro (t : State); have hb := Keeps.refl t) | intro _ | split | rw [id] | simp only [↓keeps_mk])

theorem State.loseRoot_keeps {orig : State} (s : State) (hb : Keeps orig s) :
    Keeps orig (State.loseRoot s) := by
  unfold State.loseRoot; try dsimp only
  repeat' (with_reducible first | exact hb | apply State.putFld_keeps | apply State.setReg_keeps | apply keeps_foldl | apply keeps_elim | (intro (t : State); have hb := Keeps.refl t) | intro _ | split | rw [id] | simp only [↓keeps_mk])

theorem State.showPeers_keeps {orig : State} (s : State) (hb : Keeps orig s) :
    Keeps orig (State.showPeers s) := by
  unfold State.showPeers; try dsimp only
  repeat' (with_reducible first | exact hb | apply State.setReg_keeps | apply State.event_keeps | apply State.loseRoot_keeps | apply keeps_foldl | apply keeps_elim | (intro (t : State); have hb := Keeps.refl t) | intro _ | split | rw [id] | simp only [↓keeps_mk])

theorem State.linkChange_keeps {base : State} (s : State) (f : State → State) (hf : ∀ t, Keeps t (f t)) (hb : Keeps base s) :
    Keeps base (State.linkChange s f) := by
  have h := hb.trans (hf s)
  unfold State.linkChange; dsimp only
  generalize f s = u at h ⊢
  apply State.showPeers_keeps
  repeat' (with_reducible first | exact h | apply State.setFlag_keeps | apply State.showClusterTime_keeps | split | simp only [↓keeps_mk])

end Sys2Proof.Machine
end

