-- ==== Sys2Proof/Laws/Keeps/Signals.lean ====
section
/-! SUPPORT. What the operations of Machine/Signals.lean keep (Laws/Keeps.lean). -/

set_option linter.unusedTactic false
set_option linter.unreachableTactic false

namespace Sys2Proof.Machine

theorem State.raiseV_keeps {orig : State} (s : State) (p : Nat) (c : Nat) (hb : Keeps orig s) :
    Keeps orig (State.raiseV s p c) := by
  unfold State.raiseV; try dsimp only
  repeat' (with_reducible first | exact hb | apply State.setReg_keeps | apply keeps_foldl | apply keeps_elim | (intro (t : State); have hb := Keeps.refl t) | intro _ | split | rw [id] | simp only [↓keeps_mk])

theorem State.showBacklog_keeps {orig : State} (s : State) (hb : Keeps orig s) :
    Keeps orig (State.showBacklog s) := by
  unfold State.showBacklog; try dsimp only
  repeat' (with_reducible first | exact hb | apply State.setReg_keeps | apply keeps_foldl | apply keeps_elim | (intro (t : State); have hb := Keeps.refl t) | intro _ | split | rw [id] | simp only [↓keeps_mk])

theorem State.setKernel_keeps {orig : State} (s : State) (k : Kernel) (hb : Keeps orig s) :
    Keeps orig (State.setKernel s k) := by
  unfold State.setKernel; try dsimp only
  repeat' (with_reducible first | exact hb | apply keeps_foldl | apply keeps_elim | (intro (t : State); have hb := Keeps.refl t) | intro _ | split | rw [id] | simp only [↓keeps_mk])

theorem State.raiseOverflow_keeps {orig : State} (s : State) (vec : Nat) (p : Nat) (hb : Keeps orig s) :
    Keeps orig (State.raiseOverflow s vec p) := by
  unfold State.raiseOverflow; try dsimp only
  repeat' (with_reducible first | exact hb | apply State.pend_keeps | apply keeps_foldl | apply keeps_elim | (intro (t : State); have hb := Keeps.refl t) | intro _ | split | rw [id] | simp only [↓keeps_mk])

theorem State.toRing_keeps {orig : State} (s : State) (k : Kernel) (hb : Keeps orig s) :
    Keeps orig (State.toRing s k) := by
  unfold State.toRing; try dsimp only
  repeat' (with_reducible first | exact hb | apply State.writeBytes_keeps | apply State.keyed_keeps | apply State.raiseOverflow_keeps | apply keeps_foldl | apply keeps_elim | (intro (t : State); have hb := Keeps.refl t) | intro _ | split | rw [id] | simp only [↓keeps_mk])

theorem State.assignPpe_keeps {orig : State} (s : State) (k : Kernel) (hb : Keeps orig s) :
    Keeps orig (State.assignPpe s k) := by
  unfold State.assignPpe; try dsimp only
  repeat' (with_reducible first | exact hb | apply State.toRing_keeps | apply State.setFlag_keeps | apply State.addFld_keeps | apply State.setKernel_keeps | apply State.showBacklog_keeps | apply keeps_foldl | apply keeps_elim | (intro (t : State); have hb := Keeps.refl t) | intro _ | split | rw [id] | simp only [↓keeps_mk])

theorem State.makeReady_keeps {orig : State} (s : State) (id : Nat) (hb : Keeps orig s) :
    Keeps orig (State.makeReady s id) := by
  unfold State.makeReady; try dsimp only
  repeat' (with_reducible first | exact hb | apply State.raiseV_keeps | apply State.setKernel_keeps | apply State.assignPpe_keeps | apply keeps_foldl | apply keeps_elim | (intro (t : State); have hb := Keeps.refl t) | intro _ | split | rw [id] | simp only [↓keeps_mk])

theorem State.markSignal_keeps {orig : State} (s : State) (id : Nat) (n : Nat) (hb : Keeps orig s) :
    Keeps orig (State.markSignal s id n) := by
  unfold State.markSignal; try dsimp only
  repeat' (with_reducible first | exact hb | apply keeps_foldl | apply keeps_elim | (intro (t : State); have hb := Keeps.refl t) | intro _ | split | rw [id] | simp only [↓keeps_mk])

theorem State.readyKernels_keeps {orig : State} (s : State) (c : Nat) (hb : Keeps orig s) :
    Keeps orig (State.readyKernels s c) := by
  unfold State.readyKernels; try dsimp only
  repeat' (with_reducible first | exact hb | apply State.makeReady_keeps | apply State.markSignal_keeps | apply keeps_foldl | apply keeps_elim | (intro (t : State); have hb := Keeps.refl t) | intro _ | split | rw [id] | simp only [↓keeps_mk])

theorem State.fireWatch_keeps {orig : State} (s : State) (k : Nat) (hb : Keeps orig s) :
    Keeps orig (State.fireWatch s k) := by
  unfold State.fireWatch; try dsimp only
  repeat' (with_reducible first | exact hb | apply State.raise_keeps | apply State.setFlag_keeps | apply State.putFld_keeps | apply keeps_foldl | apply keeps_elim | (intro (t : State); have hb := Keeps.refl t) | intro _ | split | rw [id] | simp only [↓keeps_mk])

theorem State.fireWatches_keeps {orig : State} (s : State) (c : Nat) (hb : Keeps orig s) :
    Keeps orig (State.fireWatches s c) := by
  unfold State.fireWatches; try dsimp only
  repeat' (with_reducible first | exact hb | apply State.fireWatch_keeps | apply keeps_foldl | apply keeps_elim | (intro (t : State); have hb := Keeps.refl t) | intro _ | split | rw [id] | simp only [↓keeps_mk])

theorem State.meetSyncWaits_keeps {orig : State} (s : State) (c : Nat) (hb : Keeps orig s) :
    Keeps orig (State.meetSyncWaits s c) := by
  unfold State.meetSyncWaits; try dsimp only
  repeat' (with_reducible first | exact hb | apply State.owe_keeps | apply keeps_foldl | apply keeps_elim | (intro (t : State); have hb := Keeps.refl t) | intro _ | split | rw [id] | simp only [↓keeps_mk])

theorem State.meetShortWaits_keeps {orig : State} (s : State) (c : Nat) (hb : Keeps orig s) :
    Keeps orig (State.meetShortWaits s c) := by
  unfold State.meetShortWaits; try dsimp only
  repeat' (with_reducible first | exact hb | apply keeps_foldl | apply keeps_elim | (intro (t : State); have hb := Keeps.refl t) | intro _ | split | rw [id] | simp only [↓keeps_mk])

theorem State.signalDogs_keeps {orig : State} (s : State) (c : Nat) (hb : Keeps orig s) :
    Keeps orig (State.signalDogs s c) := by
  unfold State.signalDogs; try dsimp only
  repeat' (with_reducible first | exact hb | apply State.owe_keeps | apply keeps_foldl | apply keeps_elim | (intro (t : State); have hb := Keeps.refl t) | intro _ | split | rw [id] | simp only [↓keeps_mk])

theorem State.bump_keeps {orig : State} (s : State) (c : Nat) (inc : Nat) (hb : Keeps orig s) :
    Keeps orig (State.bump s c inc) := by
  unfold State.bump; try dsimp only
  repeat' (with_reducible first | exact hb | apply State.setReg_keeps | apply State.syncSaturated_keeps | apply keeps_foldl | apply keeps_elim | (intro (t : State); have hb := Keeps.refl t) | intro _ | split | rw [id] | simp only [↓keeps_mk])

theorem State.signal_keeps {orig : State} (s : State) (c : Nat) (inc : Nat) (hb : Keeps orig s) :
    Keeps orig (State.signal s c inc) := by
  unfold State.signal; try dsimp only
  repeat' (with_reducible first | exact hb | apply State.signalDogs_keeps | apply State.fireWatches_keeps | apply State.readyKernels_keeps | apply State.meetShortWaits_keeps | apply State.meetSyncWaits_keeps | apply State.bump_keeps | apply keeps_foldl | apply keeps_elim | (intro (t : State); have hb := Keeps.refl t) | intro _ | split | rw [id] | simp only [↓keeps_mk])

end Sys2Proof.Machine
end

