-- ==== Sys2Proof/Laws/Keeps/Runner.lean ====
section
/-! SUPPORT. What the operations of Machine/Runner.lean keep (Laws/Keeps.lean). -/

set_option linter.unusedTactic false
set_option linter.unreachableTactic false

namespace Sys2Proof.Machine

theorem State.countOps_keeps {orig : State} (s : State) (q : Nat) (p : Nat) (hb : Keeps orig s) :
    Keeps orig (State.countOps s q p) := by
  unfold State.countOps; try dsimp only
  repeat' (with_reducible first | exact hb | apply State.putFld_keeps | apply keeps_foldl | apply keeps_elim | (intro (t : State); have hb := Keeps.refl t) | intro _ | split | rw [id] | simp only [↓keeps_mk])

theorem State.writeSlots_keeps {base : State} (s : State) (q k : Nat) (l : List (List Byte)) (hb : Keeps base s) :
    Keeps base (State.writeSlots s q k l) := by
  induction l generalizing s k with
  | nil => exact hb
  | cons b l ih => exact ih _ _ (State.writeBytes_keeps _ _ _ hb)

theorem State.stickQueue_keeps {orig : State} (s : State) (q : Nat) (hb : Keeps orig s) :
    Keeps orig (State.stickQueue s q) := by
  unfold State.stickQueue; try dsimp only
  repeat' (with_reducible first | exact hb | apply State.putFld_keeps | apply keeps_foldl | apply keeps_elim | (intro (t : State); have hb := Keeps.refl t) | intro _ | split | rw [id] | simp only [↓keeps_mk])

theorem State.ringFault_keeps {orig : State} (s : State) (q : Nat) (init : Nat) (read : Bool) (hb : Keeps orig s) :
    Keeps orig (State.ringFault s q init read) := by
  unfold State.ringFault; try dsimp only
  repeat' (with_reducible first | exact hb | apply State.cmdqError_keeps | apply State.stickQueue_keeps | apply State.putFld_keeps | apply keeps_foldl | apply keeps_elim | (intro (t : State); have hb := Keeps.refl t) | intro _ | split | rw [id] | simp only [↓keeps_mk])

theorem State.writeRecord_keeps {orig : State} (s : State) (f : Flight) (st : Nat) (hb : Keeps orig s) :
    Keeps orig (State.writeRecord s f st) := by
  unfold State.writeRecord; try dsimp only
  repeat' (with_reducible first | exact hb | apply State.keyed_keeps | apply State.writeSlots_keeps | apply State.send_keeps | apply State.raise_keeps | apply State.ringFault_keeps | apply State.recordDenial_keeps | apply keeps_foldl | apply keeps_elim | (intro (t : State); have hb := Keeps.refl t) | intro _ | split | rw [id] | simp only [↓keeps_mk])

theorem resetRegs_wf (c : Chip) : sparseWf (fun _ => (0 : Word)) (resetRegs c) = true :=
  foldl_inv (P := fun m => sparseWf (fun _ => (0 : Word)) m = true) (fun _ _ h => sparseSet_wf h) rfl

theorem State.resetAll_keeps {base : State} (s : State) (hb : Keeps base s) : Keeps base (State.resetAll s) := by
  unfold State.resetAll
  apply State.putFld_keeps
  constructor
  · exact fun h => sparseClear_wf (sparseClear_wf (hb.1 h))
  · exact hb.2
  · exact hb.3
  · exact hb.4
  · intro _
    dsimp only
    with_reducible exact resetRegs_wf s.chip

theorem State.readBack_keeps {orig : State} (s : State) (hb : Keeps orig s) :
    Keeps orig (State.readBack s) := by
  unfold State.readBack; try dsimp only
  repeat' (with_reducible first | exact hb | apply keeps_foldl | apply keeps_elim | (intro (t : State); have hb := Keeps.refl t) | intro _ | split | rw [id] | simp only [↓keeps_mk])

theorem State.showStart_keeps {orig : State} (s : State) (hb : Keeps orig s) :
    Keeps orig (State.showStart s) := by
  unfold State.showStart; try dsimp only
  repeat' (with_reducible first | exact hb | apply State.putFld_keeps | apply State.setReg_keeps | apply State.readBack_keeps | apply keeps_foldl | apply keeps_elim | (intro (t : State); have hb := Keeps.refl t) | intro _ | split | rw [id] | simp only [↓keeps_mk])

theorem State.warmStart_keeps {orig : State} (s : State) (cause : Fld) (hb : Keeps orig s) :
    Keeps orig (State.warmStart s cause) := by
  unfold State.warmStart; try dsimp only
  repeat' (with_reducible first | exact hb | apply State.resetAll_keeps | apply State.setReg_keeps | apply State.setFlag_keeps | apply State.showStart_keeps | apply keeps_foldl | apply keeps_elim | (intro (t : State); have hb := Keeps.refl t) | intro _ | split | rw [id] | simp only [↓keeps_mk])

theorem State.finish_keeps {orig : State} (s : State) (id : Nat) (st : Nat) (result : Nat) (ext : List Byte) (hb : Keeps orig s) :
    Keeps orig (State.finish s id st result ext) := by
  unfold State.finish; try dsimp only
  repeat' (with_reducible first | exact hb | apply keeps_foldl | apply keeps_elim | (intro (t : State); have hb := Keeps.refl t) | intro _ | split | rw [id] | simp only [↓keeps_mk])

theorem State.depart_keeps {orig : State} (s : State) (f : Flight) (st : Nat) (write : Bool) (hb : Keeps orig s) :
    Keeps orig (State.depart s f st write) := by
  unfold State.depart; try dsimp only
  repeat' (with_reducible first | exact hb | apply State.signal_keeps | apply State.writeRecord_keeps | apply State.warmStart_keeps | apply keeps_foldl | apply keeps_elim | (intro (t : State); have hb := Keeps.refl t) | intro _ | split | rw [id] | simp only [↓keeps_mk])

theorem State.retireOne_keeps {orig : State} (s : State) (f : Flight) (st : Nat) (hb : Keeps orig s) :
    Keeps orig (State.retireOne s f st) := by
  unfold State.retireOne; try dsimp only
  repeat' (with_reducible first | exact hb | apply State.depart_keeps | apply keeps_foldl | apply keeps_elim | (intro (t : State); have hb := Keeps.refl t) | intro _ | split | rw [id] | simp only [↓keeps_mk])

theorem State.retireN_keeps {base : State} (q n : Nat) (s : State) (hb : Keeps base s) : Keeps base (State.retireN q n s) := by
  induction n generalizing s with
  | zero => exact hb
  | succ n ih =>
    unfold State.retireN
    repeat' split
    · exact hb
    · exact ih _ (State.retireOne_keeps _ _ _ hb)
    · exact hb
    · exact hb

theorem State.retire_keeps {orig : State} (s : State) (q : Nat) (p : Nat) (hb : Keeps orig s) :
    Keeps orig (State.retire s q p) := by
  unfold State.retire; try dsimp only
  repeat' (with_reducible first | exact hb | apply State.countOps_keeps | apply State.retireN_keeps | apply keeps_foldl | apply keeps_elim | (intro (t : State); have hb := Keeps.refl t) | intro _ | split | rw [id] | simp only [↓keeps_mk])

theorem State.complete_keeps {orig : State} (s : State) (id : Nat) (st : Nat) (result : Nat) (ext : List Byte) (hb : Keeps orig s) :
    Keeps orig (State.complete s id st result ext) := by
  unfold State.complete; try dsimp only
  repeat' (with_reducible first | exact hb | apply State.retire_keeps | apply State.finish_keeps | apply keeps_foldl | apply keeps_elim | (intro (t : State); have hb := Keeps.refl t) | intro _ | split | rw [id] | simp only [↓keeps_mk])

theorem State.keepHeld_keeps {orig : State} (s : State) (i : Instr) (front : Bool) (hb : Keeps orig s) :
    Keeps orig (State.keepHeld s i front) := by
  unfold State.keepHeld; try dsimp only
  repeat' (with_reducible first | exact hb | apply keeps_foldl | apply keeps_elim | (intro (t : State); have hb := Keeps.refl t) | intro _ | split | rw [id] | simp only [↓keeps_mk])

theorem State.holdHead_keeps {orig : State} (s : State) (i : Instr) (p : Packet) (checked : Bool) (writes : Option Nat) (hb : Keeps orig s) :
    Keeps orig (State.holdHead s i p checked writes) := by
  unfold State.holdHead; try dsimp only
  repeat' (with_reducible first | exact hb | apply State.keepHeld_keeps | apply State.countOps_keeps | apply keeps_foldl | apply keeps_elim | (intro (t : State); have hb := Keeps.refl t) | intro _ | split | rw [id] | simp only [↓keeps_mk])

theorem State.advance_keeps {orig : State} (s : State) (q : Nat) (n : Nat) (hb : Keeps orig s) :
    Keeps orig (State.advance s q n) := by
  unfold State.advance; try dsimp only
  repeat' (with_reducible first | exact hb | apply State.setReg_keeps | apply State.chargePieces_keeps | apply keeps_foldl | apply keeps_elim | (intro (t : State); have hb := Keeps.refl t) | intro _ | split | rw [id] | simp only [↓keeps_mk])

theorem State.consume_keeps {orig : State} (s : State) (p : Packet) (hb : Keeps orig s) :
    Keeps orig (State.consume s p) := by
  unfold State.consume; try dsimp only
  repeat' (with_reducible first | exact hb | apply State.advance_keeps | apply keeps_foldl | apply keeps_elim | (intro (t : State); have hb := Keeps.refl t) | intro _ | split | rw [id] | simp only [↓keeps_mk])

theorem State.launch_keeps {orig : State} (s : State) (r : Rule) (p : Packet) (hb : Keeps orig s) :
    Keeps orig (State.launch s r p) := by
  unfold State.launch; try dsimp only
  repeat' (with_reducible first | exact hb | apply keeps_foldl | apply keeps_elim | (intro (t : State); have hb := Keeps.refl t) | intro _ | split | rw [id] | simp only [↓keeps_mk])

theorem State.reject_keeps {orig : State} (s : State) (r : Rule) (p : Packet) (st : Nat) (check : Nat) (detail : Nat) (hb : Keeps orig s) :
    Keeps orig (State.reject s r p st check detail) := by
  unfold State.reject; try dsimp only
  repeat' (with_reducible first | exact hb | apply State.stickQueue_keeps | apply State.addFld_keeps | apply State.cmdqError_keeps | apply State.consume_keeps | apply State.recordDenial_keeps | apply State.retire_keeps | apply State.finish_keeps | apply State.launch_keeps | apply keeps_foldl | apply keeps_elim | (intro (t : State); have hb := Keeps.refl t) | intro _ | split | rw [id] | simp only [↓keeps_mk])

theorem State.acceptWork_keeps {orig : State} (s : State) (r : Rule) (p : Packet) (hb : Keeps orig s) :
    Keeps orig (State.acceptWork s r p) := by
  unfold State.acceptWork; try dsimp only
  repeat' (with_reducible first | exact hb | apply State.acceptFn_keeps | apply State.acceptUnit_keeps | apply keeps_foldl | apply keeps_elim | (intro (t : State); have hb := Keeps.refl t) | intro _ | split | rw [id] | simp only [↓keeps_mk])

theorem State.startPacket_keeps {base : State} (s : State) (r : Rule) (p : Packet) (body : Nat → State → State)
    (hbody : ∀ n t, Keeps t (body n t)) (hb : Keeps base s) : Keeps base (State.startPacket s r p body) := by
  have h : Keeps base (((s.consume p).launch r p).countOps p.queue p.partition) :=
    State.countOps_keeps _ _ _ (State.launch_keeps _ _ _ (State.consume_keeps _ _ hb))
  unfold State.startPacket; dsimp only
  generalize ((s.consume p).launch r p).countOps p.queue p.partition = u at h ⊢
  repeat' split
  · exact State.retire_keeps _ _ _ (State.finish_keeps _ _ _ _ _ h)
  · exact State.retire_keeps _ _ _ (Keeps.trans (State.keyed_keeps _ _ (State.acceptWork_keeps _ _ _ h)) (hbody _ _))
  · exact State.retire_keeps _ _ _ (State.finish_keeps _ _ _ _ _ h)

theorem State.endPacket_keeps {orig : State} (s : State) (r : Rule) (p : Packet) (st : Nat) (hb : Keeps orig s) :
    Keeps orig (State.endPacket s r p st) := by
  unfold State.endPacket; try dsimp only
  repeat' (with_reducible first | exact hb | apply State.retire_keeps | apply State.finish_keeps | apply State.launch_keeps | apply State.advance_keeps | apply keeps_foldl | apply keeps_elim | (intro (t : State); have hb := Keeps.refl t) | intro _ | split | rw [id] | simp only [↓keeps_mk])

theorem State.readFault_keeps {orig : State} (s : State) (q : Nat) (a : Nat) (hb : Keeps orig s) :
    Keeps orig (State.readFault s q a) := by
  unfold State.readFault; try dsimp only
  repeat' (with_reducible first | exact hb | apply State.ringFault_keeps | apply State.recordDenial_keeps | apply keeps_foldl | apply keeps_elim | (intro (t : State); have hb := Keeps.refl t) | intro _ | split | rw [id] | simp only [↓keeps_mk])

theorem State.forward_keeps {orig : State} (s : State) (o : Opcode) (p : Packet) (hb : Keeps orig s) :
    Keeps orig (State.forward s o p) := by
  unfold State.forward; try dsimp only
  repeat' (with_reducible first | exact hb | apply State.toMember_keeps | apply State.consume_keeps | apply keeps_foldl | apply keeps_elim | (intro (t : State); have hb := Keeps.refl t) | intro _ | split | rw [id] | simp only [↓keeps_mk])

theorem runPacket_keeps {base : State} (i : Instr) (r : Rule) (p : Packet) (body : Nat → State → State) (s : State)
    (hbody : ∀ n t, Keeps t (body n t)) (hb : Keeps base s) : Keeps base (runPacket i r p body s) := by
  unfold runPacket; dsimp only
  repeat' (with_reducible first | exact hb | exact hbody | apply State.endPacket_keeps | apply State.keepHeld_keeps | apply State.holdHead_keeps | apply State.readFault_keeps | apply State.forward_keeps | apply State.reject_keeps | apply State.startPacket_keeps | split | simp only [↓keeps_mk])

theorem doneBody_keeps {base : State} (st result : Nat) (ext : List Byte) (f : State → State) (fl : Nat) (s : State)
    (hf : ∀ t, Keeps t (f t)) (hb : Keeps base s) : Keeps base (doneBody st result ext f fl s) :=
  State.finish_keeps _ _ _ _ _ (hb.trans (hf s))

theorem State.takeHeld_keeps {base : State} (s : State) (hb : Keeps base s) (i : Instr) (t : State) (h : State.takeHeld s = some (i, t)) :
    Keeps base t := by
  unfold State.takeHeld at h
  cases hf : findHeld s s.cq.held [] [] with
  | none => rw [hf] at h; cases h
  | some x =>
    rw [hf] at h
    cases h
    exact keeps_mk.2 hb

theorem State.strayHead_keeps {orig : State} (s : State) (q : Nat) (o : Opcode) (p : Packet) (hb : Keeps orig s) :
    Keeps orig (State.strayHead s q o p) := by
  unfold State.strayHead; try dsimp only
  repeat' (with_reducible first | exact hb | apply State.endPacket_keeps | apply State.readFault_keeps | apply State.forward_keeps | apply State.reject_keeps | apply keeps_foldl | apply keeps_elim | (intro (t : State); have hb := Keeps.refl t) | intro _ | split | rw [id] | simp only [↓keeps_mk])

theorem State.readHead_keeps {orig : State} (s : State) (q : Nat) (hb : Keeps orig s) :
    Keeps orig (State.readHead s q) := by
  unfold State.readHead; try dsimp only
  repeat' (with_reducible first | exact hb | apply State.readFault_keeps | apply State.strayHead_keeps | apply keeps_foldl | apply keeps_elim | (intro (t : State); have hb := Keeps.refl t) | intro _ | split | rw [id] | simp only [↓keeps_mk])

end Sys2Proof.Machine
end

