-- ==== Sys2Proof/Laws/Keeps/Queues.lean ====
section
/-! SUPPORT. What the operations of Machine/Queues.lean keep (Laws/Keeps.lean). -/

set_option linter.unusedTactic false
set_option linter.unreachableTactic false

namespace Sys2Proof.Machine

theorem State.undue_keeps {orig : State} (s : State) (i : Instr) (hb : Keeps orig s) :
    Keeps orig (State.undue s i) := by
  unfold State.undue; try dsimp only
  repeat' (with_reducible first | exact hb | apply keeps_foldl | apply keeps_elim | (intro (t : State); have hb := Keeps.refl t) | intro _ | split | rw [id] | simp only [↓keeps_mk])

theorem State.toRead_keeps {orig : State} (s : State) (q : Nat) (hb : Keeps orig s) :
    Keeps orig (State.toRead s q) := by
  unfold State.toRead; try dsimp only
  repeat' (with_reducible first | exact hb | apply keeps_foldl | apply keeps_elim | (intro (t : State); have hb := Keeps.refl t) | intro _ | split | rw [id] | simp only [↓keeps_mk])

theorem State.doorbell_keeps {orig : State} (s : State) (q : Nat) (tail : Nat) (init : Nat) (hb : Keeps orig s) :
    Keeps orig (State.doorbell s q tail init) := by
  unfold State.doorbell; try dsimp only
  repeat' (with_reducible first | exact hb | apply State.accessed_keeps | apply State.addFld_keeps | apply State.cmdqError_keeps | apply State.toRead_keeps | apply State.setReg_keeps | apply keeps_foldl | apply keeps_elim | (intro (t : State); have hb := Keeps.refl t) | intro _ | split | rw [id] | simp only [↓keeps_mk])

theorem execCmdqDb_keeps {orig : State} (q : Nat) (w : RegWrite) (s : State) (hb : Keeps orig s) :
    KeepsOut orig (execCmdqDb q w s) := by
  unfold execCmdqDb; try dsimp only
  repeat' (with_reducible first | exact hb | apply KeepsOut.next | apply State.doorbell_keeps | apply State.busErr_keeps | apply keeps_foldl | apply keeps_elim | (intro (t : State); have hb := Keeps.refl t) | intro _ | split | rw [id] | simp only [↓keeps_mk])

theorem State.writeSub_keeps {base : State} (s : State) (q k : Nat) (l : List (List Byte)) (hb : Keeps base s) :
    Keeps base (State.writeSub s q k l) := by
  induction l generalizing s k with
  | nil => exact hb
  | cons b l ih => exact ih _ _ (State.writeBytes_keeps _ _ _ (State.keyed_keeps _ _ hb))

theorem State.takeIn_keeps {orig : State} (s : State) (o : Opcode) (p : Packet) (init : Nat) (hb : Keeps orig s) :
    Keeps orig (State.takeIn s o p init) := by
  unfold State.takeIn; try dsimp only
  repeat' (with_reducible first | exact hb | apply State.toRead_keeps | apply State.setReg_keeps | apply State.writeSub_keeps | apply State.ringFault_keeps | apply keeps_foldl | apply keeps_elim | (intro (t : State); have hb := Keeps.refl t) | intro _ | split | rw [id] | simp only [↓keeps_mk])

theorem State.setUdp_keeps {orig : State} (s : State) (u : Udp) (hb : Keeps orig s) :
    Keeps orig (State.setUdp s u) := by
  unfold State.setUdp; try dsimp only
  repeat' (with_reducible first | exact hb | apply keeps_foldl | apply keeps_elim | (intro (t : State); have hb := Keeps.refl t) | intro _ | split | rw [id] | simp only [↓keeps_mk])

theorem State.udpDrop_keeps {orig : State} (s : State) (q : Nat) (hb : Keeps orig s) :
    Keeps orig (State.udpDrop s q) := by
  unfold State.udpDrop; try dsimp only
  repeat' (with_reducible first | exact hb | apply State.addFld_keeps | apply State.cmdqError_keeps | apply keeps_foldl | apply keeps_elim | (intro (t : State); have hb := Keeps.refl t) | intro _ | split | rw [id] | simp only [↓keeps_mk])

theorem State.sendAck_keeps {orig : State} (s : State) (q : Nat) (hb : Keeps orig s) :
    Keeps orig (State.sendAck s q) := by
  unfold State.sendAck; try dsimp only
  repeat' (with_reducible first | exact hb | apply State.send_keeps | apply keeps_foldl | apply keeps_elim | (intro (t : State); have hb := Keeps.refl t) | intro _ | split | rw [id] | simp only [↓keeps_mk])

theorem State.udpInOrder_keeps {orig : State} (s : State) (d : Datagram) (hb : Keeps orig s) :
    Keeps orig (State.udpInOrder s d) := by
  unfold State.udpInOrder; try dsimp only
  repeat' (with_reducible first | exact hb | apply State.udpDrop_keeps | apply State.ringFault_keeps | apply State.setReg_keeps | apply State.takeIn_keeps | apply State.sendAck_keeps | apply State.setUdp_keeps | apply keeps_foldl | apply keeps_elim | (intro (t : State); have hb := Keeps.refl t) | intro _ | split | rw [id] | simp only [↓keeps_mk])

theorem State.udpAhead_keeps {orig : State} (s : State) (d : Datagram) (hb : Keeps orig s) :
    Keeps orig (State.udpAhead s d) := by
  unfold State.udpAhead; try dsimp only
  repeat' (with_reducible first | exact hb | apply State.udpDrop_keeps | apply State.send_keeps | apply State.setUdp_keeps | apply keeps_foldl | apply keeps_elim | (intro (t : State); have hb := Keeps.refl t) | intro _ | split | rw [id] | simp only [↓keeps_mk])

theorem execUdpDatagram_keeps {orig : State} (d : Datagram) (s : State) (hb : Keeps orig s) :
    KeepsOut orig (execUdpDatagram d s) := by
  unfold execUdpDatagram; try dsimp only
  repeat' (with_reducible first | exact hb | apply KeepsOut.next | apply State.udpDrop_keeps | apply State.addFld_keeps | apply State.cmdqError_keeps | apply State.udpInOrder_keeps | apply State.udpAhead_keeps | apply State.sendAck_keeps | apply keeps_foldl | apply keeps_elim | (intro (t : State); have hb := Keeps.refl t) | intro _ | split | rw [id] | simp only [↓keeps_mk])

theorem execUdpAckTimer_keeps {orig : State} (q : Nat) (s : State) (hb : Keeps orig s) :
    KeepsOut orig (execUdpAckTimer q s) := by
  unfold execUdpAckTimer; try dsimp only
  repeat' (with_reducible first | exact hb | apply KeepsOut.next | apply State.sendAck_keeps | apply State.setUdp_keeps | apply keeps_foldl | apply keeps_elim | (intro (t : State); have hb := Keeps.refl t) | intro _ | split | rw [id] | simp only [↓keeps_mk])

theorem execCplAck_keeps {orig : State} (d : Datagram) (s : State) (hb : Keeps orig s) :
    KeepsOut orig (execCplAck d s) := by
  unfold execCplAck; try dsimp only
  repeat' (with_reducible first | exact hb | apply KeepsOut.next | apply State.udpDrop_keeps | apply State.addFld_keeps | apply State.cmdqError_keeps | apply State.retire_keeps | apply State.setReg_keeps | apply keeps_foldl | apply keeps_elim | (intro (t : State); have hb := Keeps.refl t) | intro _ | split | rw [id] | simp only [↓keeps_mk])

theorem execCplResend_keeps {orig : State} (q : Nat) (s : State) (hb : Keeps orig s) :
    KeepsOut orig (execCplResend q s) := by
  unfold execCplResend; try dsimp only
  repeat' (with_reducible first | exact hb | apply KeepsOut.next | apply State.send_keeps | apply keeps_foldl | apply keeps_elim | (intro (t : State); have hb := Keeps.refl t) | intro _ | split | rw [id] | simp only [↓keeps_mk])

theorem State.extraRecord_keeps {orig : State} (s : State) (q : Nat) (seq : Nat) (cls : Nat) (code : Nat) (p : Nat) (st : Nat) (result : Nat) (hb : Keeps orig s) :
    Keeps orig (State.extraRecord s q seq cls code p st result) := by
  unfold State.extraRecord; try dsimp only
  repeat' (with_reducible first | exact hb | apply State.retire_keeps | apply keeps_foldl | apply keeps_elim | (intro (t : State); have hb := Keeps.refl t) | intro _ | split | rw [id] | simp only [↓keeps_mk])

theorem execGlkMessageRx_keeps {orig : State} (cls : Nat) (code : Nat) (p : Packet) (s : State) (hb : Keeps orig s) :
    KeepsOut orig (execGlkMessageRx cls code p s) := by
  unfold execGlkMessageRx; try dsimp only
  repeat' (with_reducible first | exact hb | apply KeepsOut.next | apply State.addFld_keeps | apply State.cmdqError_keeps | apply State.toMember_keeps | apply State.takeIn_keeps | apply State.acceptFn_keeps | apply State.extraRecord_keeps | apply keeps_foldl | apply keeps_elim | (intro (t : State); have hb := Keeps.refl t) | intro _ | split | rw [id] | simp only [↓keeps_mk])

theorem State.loseRecord_keeps {orig : State} (s : State) (q : Nat) (hb : Keeps orig s) :
    Keeps orig (State.loseRecord s q) := by
  unfold State.loseRecord; try dsimp only
  repeat' (with_reducible first | exact hb | apply State.depart_keeps | apply keeps_foldl | apply keeps_elim | (intro (t : State); have hb := Keeps.refl t) | intro _ | split | rw [id] | simp only [↓keeps_mk])

theorem execRingAccessFault_keeps {orig : State} (q : Nat) (write : Bool) (initiator : Nat) (s : State) (hb : Keeps orig s) :
    KeepsOut orig (execRingAccessFault q write initiator s) := by
  unfold execRingAccessFault; try dsimp only
  repeat' (with_reducible first | exact hb | apply KeepsOut.next | apply State.loseRecord_keeps | apply State.ringFault_keeps | apply keeps_foldl | apply keeps_elim | (intro (t : State); have hb := Keeps.refl t) | intro _ | split | rw [id] | simp only [↓keeps_mk])

theorem State.flushQueue_keeps {orig : State} (s : State) (q : Nat) (st : Nat) (hb : Keeps orig s) :
    Keeps orig (State.flushQueue s q st) := by
  unfold State.flushQueue; try dsimp only
  repeat' (with_reducible first | exact hb | apply State.endPacket_keeps | apply keeps_foldl | apply keeps_elim | (intro (t : State); have hb := Keeps.refl t) | intro _ | split | rw [id] | simp only [↓keeps_mk])

theorem State.drainQueue_keeps {orig : State} (s : State) (q : Nat) (hb : Keeps orig s) :
    Keeps orig (State.drainQueue s q) := by
  unfold State.drainQueue; try dsimp only
  repeat' (with_reducible first | exact hb | apply State.putFld_keeps | apply State.retire_keeps | apply State.toRead_keeps | apply State.flushQueue_keeps | apply keeps_foldl | apply keeps_elim | (intro (t : State); have hb := Keeps.refl t) | intro _ | split | rw [id] | simp only [↓keeps_mk])

theorem State.enableQueue_keeps {orig : State} (s : State) (q : Nat) (hb : Keeps orig s) :
    Keeps orig (State.enableQueue s q) := by
  unfold State.enableQueue; try dsimp only
  repeat' (with_reducible first | exact hb | apply State.putFld_keeps | apply State.setReg_keeps | apply keeps_foldl | apply keeps_elim | (intro (t : State); have hb := Keeps.refl t) | intro _ | split | rw [id] | simp only [↓keeps_mk])

theorem State.writeQcfg_keeps {orig : State} (s : State) (q : Nat) (w : RegWrite) (hb : Keeps orig s) :
    Keeps orig (State.writeQcfg s q w) := by
  unfold State.writeQcfg; try dsimp only
  repeat' (with_reducible first | exact hb | apply State.busErr_keeps | apply State.stageReg_keeps | apply State.accessed_keeps | apply State.setReg_keeps | apply State.enableQueue_keeps | apply State.drainQueue_keeps | apply keeps_foldl | apply keeps_elim | (intro (t : State); have hb := Keeps.refl t) | intro _ | split | rw [id] | simp only [↓keeps_mk])

theorem execQueueEnable_keeps {orig : State} (q : Nat) (w : RegWrite) (s : State) (hb : Keeps orig s) :
    KeepsOut orig (execQueueEnable q w s) := by
  unfold execQueueEnable; try dsimp only
  repeat' (with_reducible first | exact hb | apply KeepsOut.next | apply State.writeQcfg_keeps | apply State.busErr_keeps | apply keeps_foldl | apply keeps_elim | (intro (t : State); have hb := Keeps.refl t) | intro _ | split | rw [id] | simp only [↓keeps_mk])

theorem execQueueDisable_keeps {orig : State} (q : Nat) (w : RegWrite) (s : State) (hb : Keeps orig s) :
    KeepsOut orig (execQueueDisable q w s) := by
  unfold execQueueDisable; try dsimp only
  repeat' (with_reducible first | exact hb | apply KeepsOut.next | apply State.writeQcfg_keeps | apply State.busErr_keeps | apply keeps_foldl | apply keeps_elim | (intro (t : State); have hb := Keeps.refl t) | intro _ | split | rw [id] | simp only [↓keeps_mk])

theorem State.ctxRecover_keeps {orig : State} (s : State) (p : Nat) (k : Nat) (hb : Keeps orig s) :
    Keeps orig (State.ctxRecover s p k) := by
  unfold State.ctxRecover; try dsimp only
  repeat' (with_reducible first | exact hb | apply State.putFld_keeps | apply keeps_foldl | apply keeps_elim | (intro (t : State); have hb := Keeps.refl t) | intro _ | split | rw [id] | simp only [↓keeps_mk])

theorem execQueueDrained_keeps {orig : State} (q : Nat) (s : State) (hb : Keeps orig s) :
    KeepsOut orig (execQueueDrained q s) := by
  unfold execQueueDrained; try dsimp only
  repeat' (with_reducible first | exact hb | apply KeepsOut.next | apply State.putFld_keeps | apply State.ctxRecover_keeps | apply keeps_foldl | apply keeps_elim | (intro (t : State); have hb := Keeps.refl t) | intro _ | split | rw [id] | simp only [↓keeps_mk])

theorem execCplHeadWrite_keeps {orig : State} (q : Nat) (w : RegWrite) (s : State) (hb : Keeps orig s) :
    KeepsOut orig (execCplHeadWrite q w s) := by
  unfold execCplHeadWrite; try dsimp only
  repeat' (with_reducible first | exact hb | apply KeepsOut.next | apply State.busErr_keeps | apply State.accessed_keeps | apply State.retire_keeps | apply State.setReg_keeps | apply keeps_foldl | apply keeps_elim | (intro (t : State); have hb := Keeps.refl t) | intro _ | split | rw [id] | simp only [↓keeps_mk])

theorem execSyncAddWrite_keeps {orig : State} (n : Nat) (w : RegWrite) (s : State) (hb : Keeps orig s) :
    KeepsOut orig (execSyncAddWrite n w s) := by
  unfold execSyncAddWrite; try dsimp only
  repeat' (with_reducible first | exact hb | apply KeepsOut.next | apply State.busErr_keeps | apply State.accessed_keeps | apply State.signal_keeps | apply State.syncRefuse_keeps | apply keeps_foldl | apply keeps_elim | (intro (t : State); have hb := Keeps.refl t) | intro _ | split | rw [id] | simp only [↓keeps_mk])

theorem State.writeWatch_keeps {orig : State} (s : State) (k : Nat) (w : RegWrite) (hb : Keeps orig s) :
    Keeps orig (State.writeWatch s k w) := by
  unfold State.writeWatch; try dsimp only
  repeat' (with_reducible first | exact hb | apply State.busErr_keeps | apply State.syncRefuse_keeps | apply State.setReg_keeps | apply State.accessed_keeps | apply State.fireWatch_keeps | apply keeps_foldl | apply keeps_elim | (intro (t : State); have hb := Keeps.refl t) | intro _ | split | rw [id] | simp only [↓keeps_mk])

theorem execWatchArm_keeps {orig : State} (k : Nat) (w : RegWrite) (s : State) (hb : Keeps orig s) :
    KeepsOut orig (execWatchArm k w s) := by
  unfold execWatchArm; try dsimp only
  repeat' (with_reducible first | exact hb | apply KeepsOut.next | apply State.writeWatch_keeps | apply State.busErr_keeps | apply keeps_foldl | apply keeps_elim | (intro (t : State); have hb := Keeps.refl t) | intro _ | split | rw [id] | simp only [↓keeps_mk])

theorem execSyncRangeWrite_keeps {orig : State} (k : Nat) (w : RegWrite) (s : State) (hb : Keeps orig s) :
    KeepsOut orig (execSyncRangeWrite k w s) := by
  unfold execSyncRangeWrite; try dsimp only
  repeat' (with_reducible first | exact hb | apply KeepsOut.next | apply State.busErr_keeps | apply State.accessed_keeps | apply State.syncRefuse_keeps | apply State.paramWrite_keeps | apply State.setReg_keeps | apply keeps_foldl | apply keeps_elim | (intro (t : State); have hb := Keeps.refl t) | intro _ | split | rw [id] | simp only [↓keeps_mk])

end Sys2Proof.Machine
end

