-- ==== Sys2Proof/Laws/Keeps/Packets.lean ====
section
/-! SUPPORT. What the operations of Machine/Packets.lean keep (Laws/Keeps.lean). -/

set_option linter.unusedTactic false
set_option linter.unreachableTactic false

namespace Sys2Proof.Machine

theorem execNop_keeps {orig : State} (p : Packet) (s : State) (hb : Keeps orig s) :
    KeepsOut orig (execNop p s) := by
  unfold execNop; try dsimp only
  repeat' (with_reducible first | exact hb | apply KeepsOut.next | apply runPacket_keeps | apply doneBody_keeps | apply keeps_foldl | apply keeps_elim | (intro (t : State); have hb := Keeps.refl t) | intro _ | split | rw [id] | simp only [↓keeps_mk])

theorem State.setObj_keeps {orig : State} (s : State) (b : Obj) (hb : Keeps orig s) :
    Keeps orig (State.setObj s b) := by
  unfold State.setObj; try dsimp only
  repeat' (with_reducible first | exact hb | apply keeps_foldl | apply keeps_elim | (intro (t : State); have hb := Keeps.refl t) | intro _ | split | rw [id] | simp only [↓keeps_mk])

theorem objCreateBody_keeps {orig : State} (p : Packet) (id : Nat) (s : State) (hb : Keeps orig s) :
    Keeps orig (objCreateBody p id s) := by
  unfold objCreateBody; try dsimp only
  repeat' (with_reducible first | exact hb | apply State.finish_keeps | apply keeps_foldl | apply keeps_elim | (intro (t : State); have hb := Keeps.refl t) | intro _ | split | rw [id] | simp only [↓keeps_mk])

theorem execObjCreate_keeps {orig : State} (p : Packet) (s : State) (hb : Keeps orig s) :
    KeepsOut orig (execObjCreate p s) := by
  unfold execObjCreate; try dsimp only
  repeat' (with_reducible first | exact hb | apply KeepsOut.next | apply runPacket_keeps | apply objCreateBody_keeps | apply keeps_foldl | apply keeps_elim | (intro (t : State); have hb := Keeps.refl t) | intro _ | split | rw [id] | simp only [↓keeps_mk])

theorem State.fillObj_keeps {orig : State} (s : State) (b : Obj) (off : Nat) (data : List Byte) (hb : Keeps orig s) :
    Keeps orig (State.fillObj s b off data) := by
  unfold State.fillObj; try dsimp only
  repeat' (with_reducible first | exact hb | apply State.writePieces_keeps | apply keeps_foldl | apply keeps_elim | (intro (t : State); have hb := Keeps.refl t) | intro _ | split | rw [id] | simp only [↓keeps_mk])

theorem State.writeObj_keeps {orig : State} (s : State) (b : Obj) (off : Nat) (data : List Byte) (hb : Keeps orig s) :
    Keeps orig (State.writeObj s b off data) := by
  unfold State.writeObj; try dsimp only
  repeat' (with_reducible first | exact hb | apply State.setObj_keeps | apply State.fillObj_keeps | apply keeps_foldl | apply keeps_elim | (intro (t : State); have hb := Keeps.refl t) | intro _ | split | rw [id] | simp only [↓keeps_mk])

theorem State.waitRead_keeps {orig : State} (s : State) (id : Nat) (ps : List (Nat × Nat)) (n : Nat) (ext : List Byte) (hb : Keeps orig s) :
    Keeps orig (State.waitRead s id ps n ext) := by
  unfold State.waitRead; try dsimp only
  repeat' (with_reducible first | exact hb | apply keeps_foldl | apply keeps_elim | (intro (t : State); have hb := Keeps.refl t) | intro _ | split | rw [id] | simp only [↓keeps_mk])

theorem objWriteBody_keeps {orig : State} (p : Packet) (id : Nat) (s : State) (hb : Keeps orig s) :
    Keeps orig (objWriteBody p id s) := by
  unfold objWriteBody; try dsimp only
  repeat' (with_reducible first | exact hb | apply State.finish_keeps | apply State.waitRead_keeps | apply State.setObj_keeps | apply State.fillObj_keeps | apply State.writeObj_keeps | apply keeps_foldl | apply keeps_elim | (intro (t : State); have hb := Keeps.refl t) | intro _ | split | rw [id] | simp only [↓keeps_mk])

theorem execObjWrite_keeps {orig : State} (p : Packet) (s : State) (hb : Keeps orig s) :
    KeepsOut orig (execObjWrite p s) := by
  unfold execObjWrite; try dsimp only
  repeat' (with_reducible first | exact hb | apply KeepsOut.next | apply runPacket_keeps | apply objWriteBody_keeps | apply keeps_foldl | apply keeps_elim | (intro (t : State); have hb := Keeps.refl t) | intro _ | split | rw [id] | simp only [↓keeps_mk])

theorem State.endPass_keeps {orig : State} (s : State) (b : Obj) (id : Nat) (ue : Option Nat) (hb : Keeps orig s) :
    Keeps orig (State.endPass s b id ue) := by
  unfold State.endPass; try dsimp only
  repeat' (with_reducible first | exact hb | apply State.chargePieces_keeps | apply State.complete_keeps | apply State.setObj_keeps | apply State.uncorrectable_keeps | apply State.keyed_keeps | apply keeps_foldl | apply keeps_elim | (intro (t : State); have hb := Keeps.refl t) | intro _ | split | rw [id] | simp only [↓keeps_mk])

theorem execObjCrcPassDone_keeps {orig : State} (partition : Nat) (handle : Nat) (ue : Option Nat) (s : State) (hb : Keeps orig s) :
    KeepsOut orig (execObjCrcPassDone partition handle ue s) := by
  unfold execObjCrcPassDone; try dsimp only
  repeat' (with_reducible first | exact hb | apply KeepsOut.next | apply State.endPass_keeps | apply keeps_foldl | apply keeps_elim | (intro (t : State); have hb := Keeps.refl t) | intro _ | split | rw [id] | simp only [↓keeps_mk])

theorem objFreeBody_keeps {orig : State} (p : Packet) (id : Nat) (s : State) (hb : Keeps orig s) :
    Keeps orig (objFreeBody p id s) := by
  unfold objFreeBody; try dsimp only
  repeat' (with_reducible first | exact hb | apply State.finish_keeps | apply keeps_foldl | apply keeps_elim | (intro (t : State); have hb := Keeps.refl t) | intro _ | split | rw [id] | simp only [↓keeps_mk])

theorem execObjFree_keeps {orig : State} (p : Packet) (s : State) (hb : Keeps orig s) :
    KeepsOut orig (execObjFree p s) := by
  unfold execObjFree; try dsimp only
  repeat' (with_reducible first | exact hb | apply KeepsOut.next | apply runPacket_keeps | apply objFreeBody_keeps | apply keeps_foldl | apply keeps_elim | (intro (t : State); have hb := Keeps.refl t) | intro _ | split | rw [id] | simp only [↓keeps_mk])

theorem State.viaChannel_keeps {orig : State} (s : State) (part : Nat) (write : Bool) (pattern : Option Nat) (ps : List (Nat × Nat)) (bad : Option Nat) (hb : Keeps orig s) :
    Keeps orig (State.viaChannel s part write pattern ps bad) := by
  unfold State.viaChannel; try dsimp only
  repeat' (with_reducible first | exact hb | apply State.loadRegs_keeps | apply State.drawFree_keeps | apply keeps_foldl | apply keeps_elim | (intro (t : State); have hb := Keeps.refl t) | intro _ | split | rw [id] | simp only [↓keeps_mk])

theorem memStore_keeps {orig : State} (p : Packet) (pattern : Option Nat) (data : List Byte) (id : Nat) (s : State) (hb : Keeps orig s) :
    Keeps orig (memStore p pattern data id s) := by
  unfold memStore; try dsimp only
  repeat' (with_reducible first | exact hb | apply State.finish_keeps | apply State.viaChannel_keeps | apply State.writeObj_keeps | apply State.writeBytes_keeps | apply keeps_foldl | apply keeps_elim | (intro (t : State); have hb := Keeps.refl t) | intro _ | split | rw [id] | simp only [↓keeps_mk])

theorem execMemWrite_keeps {orig : State} (p : Packet) (s : State) (hb : Keeps orig s) :
    KeepsOut orig (execMemWrite p s) := by
  unfold execMemWrite; try dsimp only
  repeat' (with_reducible first | exact hb | apply KeepsOut.next | apply runPacket_keeps | apply memStore_keeps | apply keeps_foldl | apply keeps_elim | (intro (t : State); have hb := Keeps.refl t) | intro _ | split | rw [id] | simp only [↓keeps_mk])

theorem execMemFill_keeps {orig : State} (p : Packet) (s : State) (hb : Keeps orig s) :
    KeepsOut orig (execMemFill p s) := by
  unfold execMemFill; try dsimp only
  repeat' (with_reducible first | exact hb | apply KeepsOut.next | apply runPacket_keeps | apply memStore_keeps | apply keeps_foldl | apply keeps_elim | (intro (t : State); have hb := Keeps.refl t) | intro _ | split | rw [id] | simp only [↓keeps_mk])

theorem readBody_keeps {orig : State} (ps : List (Nat × Nat)) (n : Nat) (part : Nat) (ue : Option Nat) (id : Nat) (s : State) (hb : Keeps orig s) :
    Keeps orig (readBody ps n part ue id s) := by
  unfold readBody; try dsimp only
  repeat' (with_reducible first | exact hb | apply State.chargePieces_keeps | apply State.finish_keeps | apply State.viaChannel_keeps | apply State.uncorrectable_keeps | apply State.waitRead_keeps | apply keeps_foldl | apply keeps_elim | (intro (t : State); have hb := Keeps.refl t) | intro _ | split | rw [id] | simp only [↓keeps_mk])

theorem memReadBody_keeps {orig : State} (p : Packet) (ue : Option Nat) (id : Nat) (s : State) (hb : Keeps orig s) :
    Keeps orig (memReadBody p ue id s) := by
  unfold memReadBody; try dsimp only
  repeat' (with_reducible first | exact hb | apply State.finish_keeps | apply readBody_keeps | apply keeps_foldl | apply keeps_elim | (intro (t : State); have hb := Keeps.refl t) | intro _ | split | rw [id] | simp only [↓keeps_mk])

theorem execMemRead_keeps {orig : State} (p : Packet) (ue : Option Nat) (s : State) (hb : Keeps orig s) :
    KeepsOut orig (execMemRead p ue s) := by
  unfold execMemRead; try dsimp only
  repeat' (with_reducible first | exact hb | apply KeepsOut.next | apply runPacket_keeps | apply memReadBody_keeps | apply keeps_foldl | apply keeps_elim | (intro (t : State); have hb := Keeps.refl t) | intro _ | split | rw [id] | simp only [↓keeps_mk])

theorem State.addAtEnd_keeps {orig : State} (s : State) (id : Nat) (c : Nat) (n : Nat) (hb : Keeps orig s) :
    Keeps orig (State.addAtEnd s id c n) := by
  unfold State.addAtEnd; try dsimp only
  repeat' (with_reducible first | exact hb | apply keeps_foldl | apply keeps_elim | (intro (t : State); have hb := Keeps.refl t) | intro _ | split | rw [id] | simp only [↓keeps_mk])

theorem execSyncAdd_keeps {orig : State} (p : Packet) (s : State) (hb : Keeps orig s) :
    KeepsOut orig (execSyncAdd p s) := by
  unfold execSyncAdd; try dsimp only
  repeat' (with_reducible first | exact hb | apply KeepsOut.next | apply runPacket_keeps | apply State.finish_keeps | apply State.addAtEnd_keeps | apply keeps_foldl | apply keeps_elim | (intro (t : State); have hb := Keeps.refl t) | intro _ | split | rw [id] | simp only [↓keeps_mk])

theorem syncSetBody_keeps {orig : State} (p : Packet) (id : Nat) (s : State) (hb : Keeps orig s) :
    Keeps orig (syncSetBody p id s) := by
  unfold syncSetBody; try dsimp only
  repeat' (with_reducible first | exact hb | apply State.finish_keeps | apply State.setReg_keeps | apply keeps_foldl | apply keeps_elim | (intro (t : State); have hb := Keeps.refl t) | intro _ | split | rw [id] | simp only [↓keeps_mk])

theorem execSyncSet_keeps {orig : State} (p : Packet) (s : State) (hb : Keeps orig s) :
    KeepsOut orig (execSyncSet p s) := by
  unfold execSyncSet; try dsimp only
  repeat' (with_reducible first | exact hb | apply KeepsOut.next | apply runPacket_keeps | apply syncSetBody_keeps | apply keeps_foldl | apply keeps_elim | (intro (t : State); have hb := Keeps.refl t) | intro _ | split | rw [id] | simp only [↓keeps_mk])

theorem execSyncRead_keeps {orig : State} (p : Packet) (s : State) (hb : Keeps orig s) :
    KeepsOut orig (execSyncRead p s) := by
  unfold execSyncRead; try dsimp only
  repeat' (with_reducible first | exact hb | apply KeepsOut.next | apply runPacket_keeps | apply State.finish_keeps | apply keeps_foldl | apply keeps_elim | (intro (t : State); have hb := Keeps.refl t) | intro _ | split | rw [id] | simp only [↓keeps_mk])

theorem syncWaitBody_keeps {orig : State} (p : Packet) (id : Nat) (s : State) (hb : Keeps orig s) :
    Keeps orig (syncWaitBody p id s) := by
  unfold syncWaitBody; try dsimp only
  repeat' (with_reducible first | exact hb | apply State.finish_keeps | apply keeps_foldl | apply keeps_elim | (intro (t : State); have hb := Keeps.refl t) | intro _ | split | rw [id] | simp only [↓keeps_mk])

theorem execSyncWait_keeps {orig : State} (p : Packet) (s : State) (hb : Keeps orig s) :
    KeepsOut orig (execSyncWait p s) := by
  unfold execSyncWait; try dsimp only
  repeat' (with_reducible first | exact hb | apply KeepsOut.next | apply runPacket_keeps | apply syncWaitBody_keeps | apply keeps_foldl | apply keeps_elim | (intro (t : State); have hb := Keeps.refl t) | intro _ | split | rw [id] | simp only [↓keeps_mk])

theorem execSyncWaitSatisfied_keeps {orig : State} (q : Nat) (seq : Nat) (s : State) (hb : Keeps orig s) :
    KeepsOut orig (execSyncWaitSatisfied q seq s) := by
  unfold execSyncWaitSatisfied; try dsimp only
  repeat' (with_reducible first | exact hb | apply KeepsOut.next | apply State.undue_keeps | apply State.complete_keeps | apply keeps_foldl | apply keeps_elim | (intro (t : State); have hb := Keeps.refl t) | intro _ | split | rw [id] | simp only [↓keeps_mk])

end Sys2Proof.Machine
end

