-- ==== Sys2Proof/Laws/Keeps/KvTables.lean ====
section
/-! SUPPORT. What the operations of Machine/KvTables.lean keep (Laws/Keeps.lean). -/

set_option linter.unusedTactic false
set_option linter.unreachableTactic false

namespace Sys2Proof.Machine

theorem State.seqPut_keeps {orig : State} (s : State) (p : Nat) (q : Nat) (off : Nat) (n : Nat) (v : Nat) (hb : Keeps orig s) :
    Keeps orig (State.seqPut s p q off n v) := by
  unfold State.seqPut; try dsimp only
  repeat' (with_reducible first | exact hb | apply State.sysWriteNum_keeps | apply keeps_foldl | apply keeps_elim | (intro (t : State); have hb := Keeps.refl t) | intro _ | split | rw [id] | simp only [↓keeps_mk])

theorem State.seqSetFlag_keeps {orig : State} (s : State) (p : Nat) (q : Nat) (b : Nat) (v : Bool) (hb : Keeps orig s) :
    Keeps orig (State.seqSetFlag s p q b v) := by
  unfold State.seqSetFlag; try dsimp only
  repeat' (with_reducible first | exact hb | apply State.seqPut_keeps | apply keeps_foldl | apply keeps_elim | (intro (t : State); have hb := Keeps.refl t) | intro _ | split | rw [id] | simp only [↓keeps_mk])

theorem State.setOwner_keeps {orig : State} (s : State) (page : Nat) (o : Nat) (hb : Keeps orig s) :
    Keeps orig (State.setOwner s page o) := by
  unfold State.setOwner; try dsimp only
  repeat' (with_reducible first | exact hb | apply keeps_foldl | apply keeps_elim | (intro (t : State); have hb := Keeps.refl t) | intro _ | split | rw [id] | simp only [↓keeps_mk])

theorem State.ownerFail_keeps {orig : State} (s : State) (init : Nat) (hb : Keeps orig s) :
    Keeps orig (State.ownerFail s init) := by
  unfold State.ownerFail; try dsimp only
  repeat' (with_reducible first | exact hb | apply State.putFld_keeps | apply State.setFlag_keeps | apply keeps_foldl | apply keeps_elim | (intro (t : State); have hb := Keeps.refl t) | intro _ | split | rw [id] | simp only [↓keeps_mk])

theorem State.admaFault_keeps {orig : State} (s : State) (e : Nat) (cause : Nat) (p : Nat) (q : Nat) (hb : Keeps orig s) :
    Keeps orig (State.admaFault s e cause p q) := by
  unfold State.admaFault; try dsimp only
  repeat' (with_reducible first | exact hb | apply State.noteFault_keeps | apply keeps_foldl | apply keeps_elim | (intro (t : State); have hb := Keeps.refl t) | intro _ | split | rw [id] | simp only [↓keeps_mk])

end Sys2Proof.Machine
end

