-- ==== Sys2Proof/Laws/Keeps/Ewp.lean ====
section
/-! SUPPORT. What the operations of Machine/Ewp.lean keep (Laws/Keeps.lean). -/

set_option linter.unusedTactic false
set_option linter.unreachableTactic false

namespace Sys2Proof.Machine

theorem Run.next_keeps {base : State} (r : Run) (f : State → Run) (hf : ∀ t, Keeps t (f t).1) (hb : Keeps base r.1) :
    Keeps base (r.next f).1 := by
  unfold Run.next
  split
  · exact hb
  · exact hb.trans (hf _)

theorem runAll_keeps {base : State} {α : Type} (f : α → State → Run) (l : List α) (s : State) (hf : ∀ a t, Keeps t (f a t).1)
    (hb : Keeps base s) : Keeps base (runAll f l s).1 := by
  induction l generalizing base s with
  | nil => exact hb
  | cons a l ih => exact Run.next_keeps _ _ (fun t => ih t (Keeps.refl t)) (hb.trans (hf a s))

theorem State.engCheck_keeps {orig : State} (s : State) (cls : Nat) (part : Nat) (a : Nat) (n : Nat) (write : Bool) (hb : Keeps orig s) :
    Keeps orig (State.engCheck s cls part a n write).1 := by
  unfold State.engCheck; try dsimp only
  repeat' (with_reducible first | exact hb | apply State.chargeRead_keeps | apply State.ownerFail_keeps | apply State.recordDenial_keeps | apply keeps_foldl | apply keeps_elim | (intro (t : State); have hb := Keeps.refl t) | intro _ | split | rw [id] | simp only [↓keeps_mk])

theorem State.engWrite_keeps {orig : State} (s : State) (cls : Nat) (part : Nat) (a : Nat) (bs : List Byte) (hb : Keeps orig s) :
    Keeps orig (State.engWrite s cls part a bs).1 := by
  unfold State.engWrite; try dsimp only
  repeat' (with_reducible first | exact hb | apply Run.next_keeps | apply State.engCheck_keeps | apply State.writeBytes_keeps | apply keeps_foldl | apply keeps_elim | (intro (t : State); have hb := Keeps.refl t) | intro _ | split | rw [id] | simp only [↓keeps_mk])

theorem State.setSt_keeps {orig : State} (s : State) (slot : Nat) (x : MeStore) (hb : Keeps orig s) :
    Keeps orig (State.setSt s slot x) := by
  unfold State.setSt; try dsimp only
  repeat' (with_reducible first | exact hb | apply keeps_foldl | apply keeps_elim | (intro (t : State); have hb := Keeps.refl t) | intro _ | split | rw [id] | simp only [↓keeps_mk])

theorem State.meCheck_keeps {orig : State} (s : State) (part : Nat) (a : Nat) (n : Nat) (write : Bool) (hb : Keeps orig s) :
    Keeps orig (State.meCheck s part a n write).1 := by
  unfold State.meCheck; try dsimp only
  repeat' (with_reducible first | exact hb | apply State.chargeRead_keeps | apply State.recordDenial_keeps | apply keeps_foldl | apply keeps_elim | (intro (t : State); have hb := Keeps.refl t) | intro _ | split | rw [id] | simp only [↓keeps_mk])

theorem State.meWrite_keeps {orig : State} (s : State) (part : Nat) (a : Nat) (bs : List Byte) (hb : Keeps orig s) :
    Keeps orig (State.meWrite s part a bs).1 := by
  unfold State.meWrite; try dsimp only
  repeat' (with_reducible first | exact hb | apply Run.next_keeps | apply State.meCheck_keeps | apply State.writeBytes_keeps | apply keeps_foldl | apply keeps_elim | (intro (t : State); have hb := Keeps.refl t) | intro _ | split | rw [id] | simp only [↓keeps_mk])

theorem State.meCount_keeps {orig : State} (s : State) (slot : Nat) (c : Converted) (hb : Keeps orig s) :
    Keeps orig (State.meCount s slot c) := by
  unfold State.meCount; try dsimp only
  repeat' (with_reducible first | exact hb | apply State.setFlag_keeps | apply State.addFld_keeps | apply keeps_foldl | apply keeps_elim | (intro (t : State); have hb := Keeps.refl t) | intro _ | split | rw [id] | simp only [↓keeps_mk])

theorem State.meOut_keeps {orig : State} (s : State) (slot : Nat) (part : Nat) (d : Nat) (r : Nat) (c : Nat) (x : Converted) (hb : Keeps orig s) :
    Keeps orig (State.meOut s slot part d r c x).1 := by
  unfold State.meOut; try dsimp only
  repeat' (with_reducible first | exact hb | apply State.meWrite_keeps | apply State.meCount_keeps | apply keeps_foldl | apply keeps_elim | (intro (t : State); have hb := Keeps.refl t) | intro _ | split | rw [id] | simp only [↓keeps_mk])

theorem State.func_keeps {orig : State} (s : State) (me : Nat) (slot : Nat) (v : Nat) (hb : Keeps orig s) :
    Keeps orig (State.func s me slot v).2 := by
  unfold State.func; try dsimp only
  repeat' (with_reducible first | exact hb | apply State.addFld_keeps | apply keeps_foldl | apply keeps_elim | (intro (t : State); have hb := Keeps.refl t) | intro _ | split | rw [id] | simp only [↓keeps_mk])

theorem State.appendFail_keeps {orig : State} (s : State) (slot : Nat) (part : Nat) (cause : Nat) (q : Nat) (hb : Keeps orig s) :
    Keeps orig (State.appendFail s slot part cause q).1 := by
  unfold State.appendFail; try dsimp only
  repeat' (with_reducible first | exact hb | apply State.ownerFail_keeps | apply State.admaFault_keeps | apply keeps_foldl | apply keeps_elim | (intro (t : State); have hb := Keeps.refl t) | intro _ | split | rw [id] | simp only [↓keeps_mk])

theorem State.appendAccess_keeps {orig : State} (slot : Nat) (part : Nat) (q : Nat) (r : Run) (hb : Keeps orig r.1) :
    Keeps orig (State.appendAccess slot part q r).1 := by
  unfold State.appendAccess; try dsimp only
  repeat' (with_reducible first | exact hb | apply State.appendFail_keeps | apply keeps_foldl | apply keeps_elim | (intro (t : State); have hb := Keeps.refl t) | intro _ | split | rw [id] | simp only [↓keeps_mk])

theorem State.appendRow_keeps {orig : State} (s : State) (slot : Nat) (part : Nat) (arg : Nat) (desc : Nat) (c : Nat) (r : Nat) (v : Nat) (hb : Keeps orig s) :
    Keeps orig (State.appendRow s slot part arg desc c r v).1 := by
  unfold State.appendRow; try dsimp only
  repeat' (with_reducible first | exact hb | apply State.appendFail_keeps | apply State.addFld_keeps | apply State.appendAccess_keeps | apply State.engWrite_keeps | apply keeps_foldl | apply keeps_elim | (intro (t : State); have hb := Keeps.refl t) | intro _ | split | rw [id] | simp only [↓keeps_mk])

theorem State.append_keeps {orig : State} (s : State) (slot : Nat) (part : Nat) (w : Nat) (c : Nat) (rows : List (Nat × Nat)) (hb : Keeps orig s) :
    Keeps orig (State.append s slot part w c rows).1 := by
  unfold State.append; try dsimp only
  repeat' (with_reducible first | exact hb | apply State.appendFail_keeps | apply State.putFld_keeps | apply State.keyed_keeps | apply Run.next_keeps | apply State.appendAccess_keeps | apply State.engCheck_keeps | apply runAll_keeps | apply State.appendRow_keeps | apply keeps_foldl | apply keeps_elim | (intro (t : State); have hb := Keeps.refl t) | intro _ | split | rw [id] | simp only [↓keeps_mk])

theorem mapRows_keeps {base : State} (f : Nat → Nat → State → Nat × State) (l : List (Nat × Nat)) (s : State)
    (hf : ∀ r v t, Keeps t (f r v t).2) (hb : Keeps base s) : Keeps base (mapRows f l s).2 := by
  induction l generalizing s with
  | nil => exact hb
  | cons e l ih => exact ih _ (hb.trans (hf _ _ s))

theorem State.stageMem_keeps {orig : State} (s : State) (part : Nat) (a : Nat) (f : Nat → Nat → Nat) (rows : List (Nat × Nat)) (hb : Keeps orig s) :
    Keeps orig (State.stageMem s part a f rows).2.1 := by
  unfold State.stageMem; try dsimp only
  repeat' (with_reducible first | exact hb | apply State.meCheck_keeps | apply keeps_foldl | apply keeps_elim | (intro (t : State); have hb := Keeps.refl t) | intro _ | split | rw [id] | simp only [↓keeps_mk])

theorem State.onBlock_keeps {orig : State} (s : State) (slot : Nat) (f : EwpBlock → EwpBlock) (hb : Keeps orig s) :
    Keeps orig (State.onBlock s slot f) := by
  unfold State.onBlock; try dsimp only
  repeat' (with_reducible first | exact hb | apply State.setSt_keeps | apply keeps_foldl | apply keeps_elim | (intro (t : State); have hb := Keeps.refl t) | intro _ | split | rw [id] | simp only [↓keeps_mk])

theorem State.gated2_keeps {orig : State} (s : State) (me : Nat) (w : Nat) (v : Nat) (g : Nat) (hb : Keeps orig s) :
    Keeps orig (State.gated2 s me w v g).2 := by
  unfold State.gated2; try dsimp only
  repeat' (with_reducible first | exact hb | apply State.func_keeps | apply keeps_foldl | apply keeps_elim | (intro (t : State); have hb := Keeps.refl t) | intro _ | split | rw [id] | simp only [↓keeps_mk])

theorem runStages_keeps {base : State} (slot part n : Nat) (l : List Nat) (k c : Nat) (rows : List (Nat × Nat)) (s : State)
    (hb : Keeps base s) : Keeps base (runStages slot part n l k c rows s).1 := by
  induction l generalizing base k c rows s with
  | nil => exact hb
  | cons w l ih =>
    unfold runStages
    dsimp only
    repeat' (with_reducible first | exact hb | apply ih | apply Run.next_keeps | apply mapRows_keeps | apply State.func_keeps | apply State.gated2_keeps | apply State.onBlock_keeps | apply runAll_keeps | apply State.meCheck_keeps | apply State.stageMem_keeps | apply State.addFld_keeps | apply State.append_keeps | apply State.meOut_keeps | (intro (t : State); have hb := Keeps.refl t) | intro _ | split)

theorem State.blockRecord_keeps {orig : State} (s : State) (slot : Nat) (part : Nat) (w : Nat) (idx : Nat) (r : Nat) (x : Nat) (y : Nat) (hb : Keeps orig s) :
    Keeps orig (State.blockRecord s slot part w idx r x y).1 := by
  unfold State.blockRecord; try dsimp only
  repeat' (with_reducible first | exact hb | apply State.meWrite_keeps | apply keeps_foldl | apply keeps_elim | (intro (t : State); have hb := Keeps.refl t) | intro _ | split | rw [id] | simp only [↓keeps_mk])

theorem State.statRow_keeps {orig : State} (s : State) (slot : Nat) (part : Nat) (w : Nat) (b : EwpBlock) (r : Nat) (hb : Keeps orig s) :
    Keeps orig (State.statRow s slot part w b r).1 := by
  unfold State.statRow; try dsimp only
  repeat' (with_reducible first | exact hb | apply State.blockRecord_keeps | apply keeps_foldl | apply keeps_elim | (intro (t : State); have hb := Keeps.refl t) | intro _ | split | rw [id] | simp only [↓keeps_mk])

theorem State.smaxCol_keeps {orig : State} (s : State) (slot : Nat) (cols : List (Nat × List (Nat × Nat))) (rows : List (Nat × Nat)) (hb : Keeps orig s) :
    Keeps orig (State.smaxCol s slot cols rows).2 := by
  unfold State.smaxCol; try dsimp only
  repeat' (with_reducible first | exact hb | apply mapRows_keeps | apply State.func_keeps | apply keeps_foldl | apply keeps_elim | (intro (t : State); have hb := Keeps.refl t) | intro _ | split | rw [id] | simp only [↓keeps_mk])

theorem State.smaxCols_keeps {base : State} (slot : Nat) (all l : List (Nat × List (Nat × Nat))) (s : State) (hb : Keeps base s) :
    Keeps base (State.smaxCols slot all l s).2 := by
  induction l generalizing s with
  | nil => exact hb
  | cons e l ih => exact ih _ (State.smaxCol_keeps _ _ _ _ hb)

theorem State.setDcf_keeps {orig : State} (s : State) (slot : Nat) (d : Nat) (hb : Keeps orig s) :
    Keeps orig (State.setDcf s slot d) := by
  unfold State.setDcf; try dsimp only
  repeat' (with_reducible first | exact hb | apply State.setSt_keeps | apply keeps_foldl | apply keeps_elim | (intro (t : State); have hb := Keeps.refl t) | intro _ | split | rw [id] | simp only [↓keeps_mk])

theorem State.lateColumn_keeps {orig : State} (s : State) (slot : Nat) (part : Nat) (b : EwpBlock) (l : List Nat) (k : Nat) (e : Nat × List (Nat × Nat)) (hb : Keeps orig s) :
    Keeps orig (State.lateColumn s slot part b l k e).1 := by
  unfold State.lateColumn; try dsimp only
  repeat' (with_reducible first | exact hb | apply Run.next_keeps | apply runStages_keeps | apply State.setDcf_keeps | apply keeps_foldl | apply keeps_elim | (intro (t : State); have hb := Keeps.refl t) | intro _ | split | rw [id] | simp only [↓keeps_mk])

theorem State.closeSmax_keeps {orig : State} (s : State) (slot : Nat) (part : Nat) (b : EwpBlock) (hb : Keeps orig s) :
    Keeps orig (State.closeSmax s slot part b).1 := by
  unfold State.closeSmax; try dsimp only
  repeat' (with_reducible first | exact hb | apply State.smaxCols_keeps | apply Run.next_keeps | apply runAll_keeps | apply State.blockRecord_keeps | apply State.lateColumn_keeps | apply keeps_foldl | apply keeps_elim | (intro (t : State); have hb := Keeps.refl t) | intro _ | split | rw [id] | simp only [↓keeps_mk])

theorem State.closeStat_keeps {orig : State} (s : State) (slot : Nat) (part : Nat) (hb : Keeps orig s) :
    Keeps orig (State.closeStat s slot part).1 := by
  unfold State.closeStat; try dsimp only
  repeat' (with_reducible first | exact hb | apply runAll_keeps | apply State.statRow_keeps | apply keeps_foldl | apply keeps_elim | (intro (t : State); have hb := Keeps.refl t) | intro _ | split | rw [id] | simp only [↓keeps_mk])

theorem State.closeBlock_keeps {orig : State} (s : State) (slot : Nat) (part : Nat) (hb : Keeps orig s) :
    Keeps orig (State.closeBlock s slot part).1 := by
  unfold State.closeBlock; try dsimp only
  repeat' (with_reducible first | exact hb | apply State.closeSmax_keeps | apply Run.next_keeps | apply State.closeStat_keeps | apply State.setSt_keeps | apply keeps_foldl | apply keeps_elim | (intro (t : State); have hb := Keeps.refl t) | intro _ | split | rw [id] | simp only [↓keeps_mk])

theorem State.enterBlock_keeps {orig : State} (s : State) (slot : Nat) (part : Nat) (c : Nat) (hb : Keeps orig s) :
    Keeps orig (State.enterBlock s slot part c).1 := by
  unfold State.enterBlock; try dsimp only
  repeat' (with_reducible first | exact hb | apply State.onBlock_keeps | apply Run.next_keeps | apply State.closeBlock_keeps | apply State.setSt_keeps | apply keeps_foldl | apply keeps_elim | (intro (t : State); have hb := Keeps.refl t) | intro _ | split | rw [id] | simp only [↓keeps_mk])

theorem State.ewpColumn_keeps {orig : State} (s : State) (slot : Nat) (part : Nat) (c : Nat) (count : Nat) (rows : List (Nat × Nat)) (hb : Keeps orig s) :
    Keeps orig (State.ewpColumn s slot part c count rows).1 := by
  unfold State.ewpColumn; try dsimp only
  repeat' (with_reducible first | exact hb | apply State.enterBlock_keeps | apply State.addFld_keeps | apply Run.next_keeps | apply runStages_keeps | apply State.closeBlock_keeps | apply keeps_foldl | apply keeps_elim | (intro (t : State); have hb := Keeps.refl t) | intro _ | split | rw [id] | simp only [↓keeps_mk])

end Sys2Proof.Machine
end

