-- ==== Sys2Proof/Laws/Keeps/Matrix.lean ====
section
/-! SUPPORT. What the operations of Machine/Matrix.lean keep (Laws/Keeps.lean). -/

set_option linter.unusedTactic false
set_option linter.unreachableTactic false

namespace Sys2Proof.Machine

theorem State.zeroStore_keeps {orig : State} (s : State) (slot : Nat) (hb : Keeps orig s) :
    Keeps orig (State.zeroStore s slot) := by
  unfold State.zeroStore; try dsimp only
  repeat' (with_reducible first | exact hb | apply State.putFld_keeps | apply State.setSt_keeps | apply keeps_foldl | apply keeps_elim | (intro (t : State); have hb := Keeps.refl t) | intro _ | split | rw [id] | simp only [↓keeps_mk])

theorem State.fixFamily_keeps {orig : State} (s : State) (slot : Nat) (integer : Bool) (hb : Keeps orig s) :
    Keeps orig (State.fixFamily s slot integer).1 := by
  unfold State.fixFamily; try dsimp only
  repeat' (with_reducible first | exact hb | apply State.putFld_keeps | apply State.setSt_keeps | apply keeps_foldl | apply keeps_elim | (intro (t : State); have hb := Keeps.refl t) | intro _ | split | rw [id] | simp only [↓keeps_mk])

theorem State.endKernel_keeps {orig : State} (s : State) (id : Nat) (st : Nat) (hb : Keeps orig s) :
    Keeps orig (State.endKernel s id st) := by
  unfold State.endKernel; try dsimp only
  repeat' (with_reducible first | exact hb | apply keeps_foldl | apply keeps_elim | (intro (t : State); have hb := Keeps.refl t) | intro _ | split | rw [id] | simp only [↓keeps_mk])

theorem State.meFault_keeps {orig : State} (s : State) (slot : Nat) (k : Kernel) (cause : Nat) (hb : Keeps orig s) :
    Keeps orig (State.meFault s slot k cause) := by
  unfold State.meFault; try dsimp only
  repeat' (with_reducible first | exact hb | apply State.noteFault_keeps | apply State.endKernel_keeps | apply State.zeroStore_keeps | apply keeps_foldl | apply keeps_elim | (intro (t : State); have hb := Keeps.refl t) | intro _ | split | rw [id] | simp only [↓keeps_mk])

theorem State.meEcc_keeps {orig : State} (s : State) (m : MeStep) (part : Nat) (hb : Keeps orig s) :
    Keeps orig (State.meEcc s m part).1 := by
  unfold State.meEcc; try dsimp only
  repeat' (with_reducible first | exact hb | apply State.uncorrectable_keeps | apply State.admaFault_keeps | apply State.addFld_keeps | apply keeps_foldl | apply keeps_elim | (intro (t : State); have hb := Keeps.refl t) | intro _ | split | rw [id] | simp only [↓keeps_mk])

theorem State.meTiming_keeps {orig : State} (s : State) (m : MeStep) (hb : Keeps orig s) :
    Keeps orig (State.meTiming s m) := by
  unfold State.meTiming; try dsimp only
  repeat' (with_reducible first | exact hb | apply State.addReg_keeps | apply State.addFld_keeps | apply keeps_foldl | apply keeps_elim | (intro (t : State); have hb := Keeps.refl t) | intro _ | split | rw [id] | simp only [↓keeps_mk])

theorem State.meInstr_keeps {base : State} (s : State) (m : MeStep) (body : Kernel → Nat → State → Run)
    (hbody : ∀ k w t, Keeps t (body k w t).1) (hb : Keeps base s) : Keeps base (State.meInstr s m body) := by
  unfold State.meInstr
  dsimp only
  repeat' (with_reducible first | exact hb | exact hbody _ _ | apply State.meFault_keeps | apply State.setSt_keeps | apply State.addReg_keeps | apply State.addFld_keeps | apply Run.next_keeps | apply State.meEcc_keeps | apply State.keyed_keeps | apply State.meTiming_keeps | apply State.settled_keeps | split)

theorem State.plainRow_keeps {orig : State} (s : State) (part : Nat) (a : Nat) (n : Nat) (hb : Keeps orig s) :
    Keeps orig (State.plainRow s part a n).1.1 := by
  unfold State.plainRow; try dsimp only
  repeat' (with_reducible first | exact hb | apply State.meCheck_keeps | apply keeps_foldl | apply keeps_elim | (intro (t : State); have hb := Keeps.refl t) | intro _ | split | rw [id] | simp only [↓keeps_mk])

theorem State.rowMask_keeps {orig : State} (s : State) (slot : Nat) (part : Nat) (w : Nat) (hb : Keeps orig s) :
    Keeps orig (State.rowMask s slot part w).1.1 := by
  unfold State.rowMask; try dsimp only
  repeat' (with_reducible first | exact hb | apply State.meCheck_keeps | apply keeps_foldl | apply keeps_elim | (intro (t : State); have hb := Keeps.refl t) | intro _ | split | rw [id] | simp only [↓keeps_mk])

theorem State.feederCharge_keeps {orig : State} (s : State) (slot : Nat) (part : Nat) (klen : Nat) (off : Nat) (r : Nat) (hb : Keeps orig s) :
    Keeps orig (State.feederCharge s slot part klen off r) := by
  unfold State.feederCharge; try dsimp only
  repeat' (with_reducible first | exact hb | apply State.chargeRead_keeps | apply keeps_foldl | apply keeps_elim | (intro (t : State); have hb := Keeps.refl t) | intro _ | split | rw [id] | simp only [↓keeps_mk])

theorem State.loadTile_keeps {orig : State} (s : State) (slot : Nat) (part : Nat) (w : Nat) (mask : Nat) (window : Bool) (hb : Keeps orig s) :
    Keeps orig (State.loadTile s slot part w mask window).1.1 := by
  unfold State.loadTile; try dsimp only
  repeat' (with_reducible first | exact hb | apply State.feederCharge_keeps | apply runAll_keeps | apply State.meCheck_keeps | apply keeps_foldl | apply keeps_elim | (intro (t : State); have hb := Keeps.refl t) | intro _ | split | rw [id] | simp only [↓keeps_mk])

theorem ldtBody_keeps {orig : State} (slot : Nat) (k : Kernel) (w : Nat) (s : State) (hb : Keeps orig s) :
    Keeps orig (ldtBody slot k w s).1 := by
  unfold ldtBody; try dsimp only
  repeat' (with_reducible first | exact hb | apply State.meCheck_keeps | apply State.rowMask_keeps | apply Run.next_keeps | apply State.loadTile_keeps | apply State.setSt_keeps | apply keeps_foldl | apply keeps_elim | (intro (t : State); have hb := Keeps.refl t) | intro _ | split | rw [id] | simp only [↓keeps_mk])

theorem State.noteOverflow_keeps {orig : State} (s : State) (slot : Nat) (prod : Bool) (acc : Bool) (hb : Keeps orig s) :
    Keeps orig (State.noteOverflow s slot prod acc) := by
  unfold State.noteOverflow; try dsimp only
  repeat' (with_reducible first | exact hb | apply State.setFlag_keeps | apply State.setSt_keeps | apply keeps_foldl | apply keeps_elim | (intro (t : State); have hb := Keeps.refl t) | intro _ | split | rw [id] | simp only [↓keeps_mk])

theorem State.drainOut_keeps {orig : State} (s : State) (slot : Nat) (part : Nat) (d : Nat) (r : Nat) (c : Nat) (eCol : ℤ) (x7 : Drained) (hb : Keeps orig s) :
    Keeps orig (State.drainOut s slot part d r c eCol x7).1 := by
  unfold State.drainOut; try dsimp only
  repeat' (with_reducible first | exact hb | apply State.meOut_keeps | apply State.addFld_keeps | apply State.noteOverflow_keeps | apply keeps_foldl | apply keeps_elim | (intro (t : State); have hb := Keeps.refl t) | intro _ | split | rw [id] | simp only [↓keeps_mk])

theorem State.handOver_keeps {orig : State} (s : State) (slot : Nat) (d : Nat) (eCol : ℤ) (x4 : Drained) (hb : Keeps orig s) :
    Keeps orig (State.handOver s slot d eCol x4).2 := by
  unfold State.handOver; try dsimp only
  repeat' (with_reducible first | exact hb | apply State.noteOverflow_keeps | apply keeps_foldl | apply keeps_elim | (intro (t : State); have hb := Keeps.refl t) | intro _ | split | rw [id] | simp only [↓keeps_mk])

theorem State.drainCol_keeps {orig : State} (s : State) (slot : Nat) (part : Nat) (c : Nat) (valid : List Bool) (x : MeCol) (hb : Keeps orig s) :
    Keeps orig (State.drainCol s slot part c valid x).1 := by
  unfold State.drainCol; try dsimp only
  repeat' (with_reducible first | exact hb | apply runAll_keeps | apply State.meWrite_keeps | apply State.meCheck_keeps | apply Run.next_keeps | apply mapRows_keeps | apply State.handOver_keeps | apply State.ewpColumn_keeps | apply State.drainOut_keeps | apply keeps_foldl | apply keeps_elim | (intro (t : State); have hb := Keeps.refl t) | intro _ | split | rw [id] | simp only [↓keeps_mk])

theorem strVector_keeps {orig : State} (slot : Nat) (part : Nat) (w : Nat) (t : Tile) (base : Nat) (scaleBase : Nat) (j : Nat) (s : State) (hb : Keeps orig s) :
    Keeps orig (strVector slot part w t base scaleBase j s).1 := by
  unfold strVector; try dsimp only
  repeat' (with_reducible first | exact hb | apply Run.next_keeps | apply State.meCheck_keeps | apply State.drainCol_keeps | apply State.addReg_keeps | apply State.setSt_keeps | apply keeps_foldl | apply keeps_elim | (intro (t : State); have hb := Keeps.refl t) | intro _ | split | rw [id] | simp only [↓keeps_mk])

theorem strBody_keeps {orig : State} (slot : Nat) (k : Kernel) (w : Nat) (s : State) (hb : Keeps orig s) :
    Keeps orig (strBody slot k w s).1 := by
  unfold strBody; try dsimp only
  repeat' (with_reducible first | exact hb | apply Run.next_keeps | apply State.fixFamily_keeps | apply runAll_keeps | apply strVector_keeps | apply keeps_foldl | apply keeps_elim | (intro (t : State); have hb := Keeps.refl t) | intro _ | split | rw [id] | simp only [↓keeps_mk])

theorem State.readStages_keeps {orig : State} (s : State) (slot : Nat) (part : Nat) (w : Nat) (hb : Keeps orig s) :
    Keeps orig (State.readStages s slot part w).1 := by
  unfold State.readStages; try dsimp only
  repeat' (with_reducible first | exact hb | apply Run.next_keeps | apply State.meCheck_keeps | apply State.setSt_keeps | apply keeps_foldl | apply keeps_elim | (intro (t : State); have hb := Keeps.refl t) | intro _ | split | rw [id] | simp only [↓keeps_mk])

theorem dcfBody_keeps {orig : State} (slot : Nat) (k : Kernel) (w : Nat) (s : State) (hb : Keeps orig s) :
    Keeps orig (dcfBody slot k w s).1 := by
  unfold dcfBody; try dsimp only
  repeat' (with_reducible first | exact hb | apply Run.next_keeps | apply State.readStages_keeps | apply State.setSt_keeps | apply keeps_foldl | apply keeps_elim | (intro (t : State); have hb := Keeps.refl t) | intro _ | split | rw [id] | simp only [↓keeps_mk])

theorem drnBody_keeps {orig : State} (slot : Nat) (k : Kernel) (w : Nat) (s : State) (hb : Keeps orig s) :
    Keeps orig (drnBody slot k w s).1 := by
  unfold drnBody; try dsimp only
  repeat' (with_reducible first | exact hb | apply runAll_keeps | apply State.drainCol_keeps | apply keeps_foldl | apply keeps_elim | (intro (t : State); have hb := Keeps.refl t) | intro _ | split | rw [id] | simp only [↓keeps_mk])

theorem aclColumn_keeps {orig : State} (slot : Nat) (part : Nat) (a : Nat) (col : Nat) (s : State) (hb : Keeps orig s) :
    Keeps orig (aclColumn slot part a col s).1 := by
  unfold aclColumn; try dsimp only
  repeat' (with_reducible first | exact hb | apply Run.next_keeps | apply runAll_keeps | apply State.meCheck_keeps | apply State.fixFamily_keeps | apply State.setSt_keeps | apply keeps_foldl | apply keeps_elim | (intro (t : State); have hb := Keeps.refl t) | intro _ | split | rw [id] | simp only [↓keeps_mk])

theorem aclBody_keeps {orig : State} (slot : Nat) (k : Kernel) (w : Nat) (s : State) (hb : Keeps orig s) :
    Keeps orig (aclBody slot k w s).1 := by
  unfold aclBody; try dsimp only
  repeat' (with_reducible first | exact hb | apply runAll_keeps | apply aclColumn_keeps | apply keeps_foldl | apply keeps_elim | (intro (t : State); have hb := Keeps.refl t) | intro _ | split | rw [id] | simp only [↓keeps_mk])

theorem plainBody_keeps {orig : State} (w : Nat) (s : State) (hb : Keeps orig s) :
    Keeps orig (plainBody w s).1 := by
  unfold plainBody; try dsimp only
  repeat' (with_reducible first | exact hb | apply keeps_foldl | apply keeps_elim | (intro (t : State); have hb := Keeps.refl t) | intro _ | split | rw [id] | simp only [↓keeps_mk])

theorem endBody_keeps {orig : State} (slot : Nat) (k : Kernel) (w : Nat) (s : State) (hb : Keeps orig s) :
    Keeps orig (endBody slot k w s).1 := by
  unfold endBody; try dsimp only
  repeat' (with_reducible first | exact hb | apply Run.next_keeps | apply State.closeBlock_keeps | apply State.endKernel_keeps | apply State.zeroStore_keeps | apply keeps_foldl | apply keeps_elim | (intro (t : State); have hb := Keeps.refl t) | intro _ | split | rw [id] | simp only [↓keeps_mk])

theorem opBody_keeps {orig : State} (slot : Nat) (k : Kernel) (w : Nat) (s : State) (hb : Keeps orig s) :
    Keeps orig (opBody slot k w s).1 := by
  unfold opBody; try dsimp only
  repeat' (with_reducible first | exact hb | apply plainBody_keeps | apply ldtBody_keeps | apply strBody_keeps | apply dcfBody_keeps | apply drnBody_keeps | apply aclBody_keeps | apply endBody_keeps | apply keeps_foldl | apply keeps_elim | (intro (t : State); have hb := Keeps.refl t) | intro _ | split | rw [id] | simp only [↓keeps_mk])

theorem execLdt_keeps {orig : State} (m : MeStep) (s : State) (hb : Keeps orig s) :
    KeepsOut orig (execLdt m s) := by
  unfold execLdt; try dsimp only
  repeat' (with_reducible first | exact hb | apply KeepsOut.next | apply State.meInstr_keeps | apply opBody_keeps | apply keeps_foldl | apply keeps_elim | (intro (t : State); have hb := Keeps.refl t) | intro _ | split | rw [id] | simp only [↓keeps_mk])

theorem execStr_keeps {orig : State} (m : MeStep) (s : State) (hb : Keeps orig s) :
    KeepsOut orig (execStr m s) := by
  unfold execStr; try dsimp only
  repeat' (with_reducible first | exact hb | apply KeepsOut.next | apply State.meInstr_keeps | apply opBody_keeps | apply keeps_foldl | apply keeps_elim | (intro (t : State); have hb := Keeps.refl t) | intro _ | split | rw [id] | simp only [↓keeps_mk])

theorem execDcf_keeps {orig : State} (m : MeStep) (s : State) (hb : Keeps orig s) :
    KeepsOut orig (execDcf m s) := by
  unfold execDcf; try dsimp only
  repeat' (with_reducible first | exact hb | apply KeepsOut.next | apply State.meInstr_keeps | apply opBody_keeps | apply keeps_foldl | apply keeps_elim | (intro (t : State); have hb := Keeps.refl t) | intro _ | split | rw [id] | simp only [↓keeps_mk])

theorem execDrn_keeps {orig : State} (m : MeStep) (s : State) (hb : Keeps orig s) :
    KeepsOut orig (execDrn m s) := by
  unfold execDrn; try dsimp only
  repeat' (with_reducible first | exact hb | apply KeepsOut.next | apply State.meInstr_keeps | apply opBody_keeps | apply keeps_foldl | apply keeps_elim | (intro (t : State); have hb := Keeps.refl t) | intro _ | split | rw [id] | simp only [↓keeps_mk])

theorem execAcl_keeps {orig : State} (m : MeStep) (s : State) (hb : Keeps orig s) :
    KeepsOut orig (execAcl m s) := by
  unfold execAcl; try dsimp only
  repeat' (with_reducible first | exact hb | apply KeepsOut.next | apply State.meInstr_keeps | apply opBody_keeps | apply keeps_foldl | apply keeps_elim | (intro (t : State); have hb := Keeps.refl t) | intro _ | split | rw [id] | simp only [↓keeps_mk])

theorem execBar_keeps {orig : State} (m : MeStep) (s : State) (hb : Keeps orig s) :
    KeepsOut orig (execBar m s) := by
  unfold execBar; try dsimp only
  repeat' (with_reducible first | exact hb | apply KeepsOut.next | apply State.meInstr_keeps | apply opBody_keeps | apply keeps_foldl | apply keeps_elim | (intro (t : State); have hb := Keeps.refl t) | intro _ | split | rw [id] | simp only [↓keeps_mk])

theorem execMeNop_keeps {orig : State} (m : MeStep) (s : State) (hb : Keeps orig s) :
    KeepsOut orig (execMeNop m s) := by
  unfold execMeNop; try dsimp only
  repeat' (with_reducible first | exact hb | apply KeepsOut.next | apply State.meInstr_keeps | apply opBody_keeps | apply keeps_foldl | apply keeps_elim | (intro (t : State); have hb := Keeps.refl t) | intro _ | split | rw [id] | simp only [↓keeps_mk])

theorem execEndStream_keeps {orig : State} (m : MeStep) (s : State) (hb : Keeps orig s) :
    KeepsOut orig (execEndStream m s) := by
  unfold execEndStream; try dsimp only
  repeat' (with_reducible first | exact hb | apply KeepsOut.next | apply State.meInstr_keeps | apply opBody_keeps | apply keeps_foldl | apply keeps_elim | (intro (t : State); have hb := Keeps.refl t) | intro _ | split | rw [id] | simp only [↓keeps_mk])

end Sys2Proof.Machine
end

