-- ==== Sys2Proof/Laws/Keeps/Kernels.lean ====
section
/-! SUPPORT. What the operations of Machine/Kernels.lean keep (Laws/Keeps.lean). -/

set_option linter.unusedTactic false
set_option linter.unreachableTactic false

namespace Sys2Proof.Machine

theorem State.endRun_keeps {base : State} (r : Run) (k : Kernel) (fault : State → Nat → State) (hf : ∀ c t, Keeps t (fault t c))
    (hb : Keeps base r.1) : Keeps base (State.endRun r k fault) := by
  unfold State.endRun
  split
  · exact State.endKernel_keeps _ _ _ (hb.trans (hf _ _))
  · exact State.endKernel_keeps _ _ _ hb

theorem State.tableFn_keeps {orig : State} (s : State) (slot : Nat) (v : Nat) (hb : Keeps orig s) :
    Keeps orig (State.tableFn s slot v).2 := by
  unfold State.tableFn; try dsimp only
  repeat' (with_reducible first | exact hb | apply State.func_keeps | apply keeps_foldl | apply keeps_elim | (intro (t : State); have hb := Keeps.refl t) | intro _ | split | rw [id] | simp only [↓keeps_mk])

end Sys2Proof.Machine
end

