-- ==== Sys2Proof/Laws/Keeps/Scan.lean ====
section
/-! SUPPORT. What the operations of Machine/Scan.lean keep (Laws/Keeps.lean). -/

set_option linter.unusedTactic false
set_option linter.unreachableTactic false

namespace Sys2Proof.Machine

theorem State.showStreams_keeps {orig : State} (s : State) (hb : Keeps orig s) :
    Keeps orig (State.showStreams s) := by
  unfold State.showStreams; try dsimp only
  repeat' (with_reducible first | exact hb | apply State.putFld_keeps | apply keeps_foldl | apply keeps_elim | (intro (t : State); have hb := Keeps.refl t) | intro _ | split | rw [id] | simp only [↓keeps_mk])

theorem State.setStream_keeps {orig : State} (s : State) (x : Stream) (hb : Keeps orig s) :
    Keeps orig (State.setStream s x) := by
  unfold State.setStream; try dsimp only
  repeat' (with_reducible first | exact hb | apply State.showStreams_keeps | apply keeps_foldl | apply keeps_elim | (intro (t : State); have hb := Keeps.refl t) | intro _ | split | rw [id] | simp only [↓keeps_mk])

theorem State.swapWrite_keeps {orig : State} (s : State) (p : Nat) (a : Nat) (bs : List Byte) (hb : Keeps orig s) :
    Keeps orig (State.swapWrite s p a bs) := by
  unfold State.swapWrite; try dsimp only
  repeat' (with_reducible first | exact hb | apply State.keyed_keeps | apply State.writeBytes_keeps | apply keeps_foldl | apply keeps_elim | (intro (t : State); have hb := Keeps.refl t) | intro _ | split | rw [id] | simp only [↓keeps_mk])

theorem State.putStream_keeps {orig : State} (s : State) (x : Stream) (hb : Keeps orig s) :
    Keeps orig (State.putStream s x) := by
  unfold State.putStream; try dsimp only
  repeat' (with_reducible first | exact hb | apply State.setStream_keeps | apply State.sysWrite_keeps | apply State.swapWrite_keeps | apply keeps_foldl | apply keeps_elim | (intro (t : State); have hb := Keeps.refl t) | intro _ | split | rw [id] | simp only [↓keeps_mk])

theorem State.storeState_keeps {orig : State} (s : State) (x : Stream) (c : ScanCopy) (hb : Keeps orig s) :
    Keeps orig (State.storeState s x c) := by
  unfold State.storeState; try dsimp only
  repeat' (with_reducible first | exact hb | apply State.putStream_keeps | apply State.sysWrite_keeps | apply keeps_foldl | apply keeps_elim | (intro (t : State); have hb := Keeps.refl t) | intro _ | split | rw [id] | simp only [↓keeps_mk])

theorem State.dropStream_keeps {orig : State} (s : State) (x : Stream) (hb : Keeps orig s) :
    Keeps orig (State.dropStream s x) := by
  unfold State.dropStream; try dsimp only
  repeat' (with_reducible first | exact hb | apply State.showStreams_keeps | apply keeps_foldl | apply keeps_elim | (intro (t : State); have hb := Keeps.refl t) | intro _ | split | rw [id] | simp only [↓keeps_mk])

theorem State.swapOut_keeps {orig : State} (s : State) (x : Stream) (hb : Keeps orig s) :
    Keeps orig (State.swapOut s x) := by
  unfold State.swapOut; try dsimp only
  repeat' (with_reducible first | exact hb | apply State.addFld_keeps | apply State.setStream_keeps | apply State.swapWrite_keeps | apply keeps_foldl | apply keeps_elim | (intro (t : State); have hb := Keeps.refl t) | intro _ | split | rw [id] | simp only [↓keeps_mk])

theorem State.swapIn_keeps {orig : State} (s : State) (x : Stream) (k : Nat) (hb : Keeps orig s) :
    Keeps orig (State.swapIn s x k) := by
  unfold State.swapIn; try dsimp only
  repeat' (with_reducible first | exact hb | apply State.addFld_keeps | apply State.putStream_keeps | apply State.sysWrite_keeps | apply State.charge_keeps | apply State.keyed_keeps | apply keeps_foldl | apply keeps_elim | (intro (t : State); have hb := Keeps.refl t) | intro _ | split | rw [id] | simp only [↓keeps_mk])

theorem State.takeSlot_keeps {base : State} (s : State) (p : Nat) (hb : Keeps base s) (k : Nat) (t : State)
    (h : State.takeSlot s p = some (k, t)) : Keeps base t := by
  unfold State.takeSlot at h
  split at h
  · cases h; exact hb
  · simp only [Option.bind_eq_some_iff, Option.map_eq_some_iff] at h
    obtain ⟨_, _, _, _, e⟩ := h
    cases e
    exact State.swapOut_keeps _ _ hb

theorem execScanSwapOut_keeps {orig : State} (p : Nat) (q : Nat) (s : State) (hb : Keeps orig s) :
    KeepsOut orig (execScanSwapOut p q s) := by
  unfold execScanSwapOut; try dsimp only
  repeat' (with_reducible first | exact hb | apply KeepsOut.next | apply State.swapOut_keeps | apply keeps_foldl | apply keeps_elim | (intro (t : State); have hb := Keeps.refl t) | intro _ | split | rw [id] | simp only [↓keeps_mk])

theorem execScanSwapIn_keeps {orig : State} (p : Nat) (q : Nat) (s : State) (hb : Keeps orig s) :
    KeepsOut orig (execScanSwapIn p q s) := by
  unfold execScanSwapIn; try dsimp only
  repeat' (with_reducible first | exact hb | apply KeepsOut.next | apply State.swapIn_keeps | apply keeps_foldl | apply keeps_elim | (intro (t : State); have hb := Keeps.refl t) | intro _ | split | rw [id] | simp only [↓keeps_mk] | (refine State.takeSlot_keeps _ _ ?_ _ _ (by assumption)))

theorem State.pinAnswer_keeps {orig : State} (s : State) (result : Nat) (columns : Option Nat) (hb : Keeps orig s) :
    Keeps orig (State.pinAnswer s result columns) := by
  unfold State.pinAnswer; try dsimp only
  repeat' (with_reducible first | exact hb | apply State.putFld_keeps | apply keeps_foldl | apply keeps_elim | (intro (t : State); have hb := Keeps.refl t) | intro _ | split | rw [id] | simp only [↓keeps_mk])

theorem State.pinStream_keeps {orig : State} (s : State) (x : Stream) (m : Nat) (hb : Keeps orig s) :
    Keeps orig (State.pinStream s x m) := by
  unfold State.pinStream; try dsimp only
  repeat' (with_reducible first | exact hb | apply State.pinAnswer_keeps | apply State.setStream_keeps | apply keeps_foldl | apply keeps_elim | (intro (t : State); have hb := Keeps.refl t) | intro _ | split | rw [id] | simp only [↓keeps_mk])

theorem State.unpinStream_keeps {orig : State} (s : State) (x : Stream) (hb : Keeps orig s) :
    Keeps orig (State.unpinStream s x) := by
  unfold State.unpinStream; try dsimp only
  repeat' (with_reducible first | exact hb | apply State.storeState_keeps | apply State.setStream_keeps | apply State.swapWrite_keeps | apply keeps_foldl | apply keeps_elim | (intro (t : State); have hb := Keeps.refl t) | intro _ | split | rw [id] | simp only [↓keeps_mk])

theorem State.doPin_keeps {orig : State} (s : State) (hb : Keeps orig s) :
    Keeps orig (State.doPin s) := by
  unfold State.doPin; try dsimp only
  repeat' (with_reducible first | exact hb | apply State.pinAnswer_keeps | apply State.setFlag_keeps | apply State.pinStream_keeps | apply State.unpinStream_keeps | apply keeps_foldl | apply keeps_elim | (intro (t : State); have hb := Keeps.refl t) | intro _ | split | rw [id] | simp only [↓keeps_mk])

theorem State.retryPin_keeps {orig : State} (s : State) (hb : Keeps orig s) :
    Keeps orig (State.retryPin s) := by
  unfold State.retryPin; try dsimp only
  repeat' (with_reducible first | exact hb | apply State.doPin_keeps | apply keeps_foldl | apply keeps_elim | (intro (t : State); have hb := Keeps.refl t) | intro _ | split | rw [id] | simp only [↓keeps_mk])

theorem State.writePin_keeps {orig : State} (s : State) (op : Nat) (w : RegWrite) (hb : Keeps orig s) :
    Keeps orig (State.writePin s op w) := by
  unfold State.writePin; try dsimp only
  repeat' (with_reducible first | exact hb | apply State.regWrite_keeps | apply State.doPin_keeps | apply State.setReg_keeps | apply keeps_foldl | apply keeps_elim | (intro (t : State); have hb := Keeps.refl t) | intro _ | split | rw [id] | simp only [↓keeps_mk])

theorem execPin_keeps {orig : State} (w : RegWrite) (s : State) (hb : Keeps orig s) :
    KeepsOut orig (execPin w s) := by
  unfold execPin; try dsimp only
  repeat' (with_reducible first | exact hb | apply KeepsOut.next | apply State.writePin_keeps | apply keeps_foldl | apply keeps_elim | (intro (t : State); have hb := Keeps.refl t) | intro _ | split | rw [id] | simp only [↓keeps_mk])

theorem execUnpin_keeps {orig : State} (w : RegWrite) (s : State) (hb : Keeps orig s) :
    KeepsOut orig (execUnpin w s) := by
  unfold execUnpin; try dsimp only
  repeat' (with_reducible first | exact hb | apply KeepsOut.next | apply State.writePin_keeps | apply keeps_foldl | apply keeps_elim | (intro (t : State); have hb := Keeps.refl t) | intro _ | split | rw [id] | simp only [↓keeps_mk])

theorem State.releaseStreams_keeps {orig : State} (s : State) (k : Kernel) (hb : Keeps orig s) :
    Keeps orig (State.releaseStreams s k) := by
  unfold State.releaseStreams; try dsimp only
  repeat' (with_reducible first | exact hb | apply State.dropStream_keeps | apply State.setStream_keeps | apply State.retryPin_keeps | apply keeps_foldl | apply keeps_elim | (intro (t : State); have hb := Keeps.refl t) | intro _ | split | rw [id] | simp only [↓keeps_mk])

theorem State.startState_keeps {orig : State} (s : State) (x : ScanDesc) (st : Stream) (hb : Keeps orig s) :
    Keeps orig (State.startState s x st).2 := by
  unfold State.startState; try dsimp only
  repeat' (with_reducible first | exact hb | apply keeps_foldl | apply keeps_elim | (intro (t : State); have hb := Keeps.refl t) | intro _ | split | rw [id] | simp only [↓keeps_mk])

theorem State.countSat_keeps {orig : State} (s : State) (e : Nat) (sat : Nat) (nan : Nat) (hb : Keeps orig s) :
    Keeps orig (State.countSat s e sat nan) := by
  unfold State.countSat; try dsimp only
  repeat' (with_reducible first | exact hb | apply State.addFld_keeps | apply keeps_foldl | apply keeps_elim | (intro (t : State); have hb := Keeps.refl t) | intro _ | split | rw [id] | simp only [↓keeps_mk])

theorem State.scanOutput_keeps {orig : State} (s : State) (x : ScanDesc) (k : Kernel) (e : Nat) (i : Nat) (hs : List (List Nat)) (x6 : Nat) (hb : Keeps orig s) :
    Keeps orig (State.scanOutput s x k e i hs x6).1 := by
  induction x6 generalizing orig s x k e i hs with
  | zero => exact hb
  | succ n ih =>
    unfold State.scanOutput; try dsimp only
    repeat' (with_reducible first | exact hb | apply State.countSat_keeps | apply ih | apply keeps_foldl | apply keeps_elim | (intro (t : State); have hb := Keeps.refl t) | intro _ | split | rw [id] | simp only [↓keeps_mk])

theorem State.checkSources_keeps {orig : State} (s : State) (x : ScanDesc) (k : Kernel) (cls : Nat) (i : Nat) (hb : Keeps orig s) :
    Keeps orig (State.checkSources s x k cls i).1 := by
  unfold State.checkSources; try dsimp only
  repeat' (with_reducible first | exact hb | apply State.engCheck_keeps | apply Run.next_keeps | apply keeps_foldl | apply keeps_elim | (intro (t : State); have hb := Keeps.refl t) | intro _ | split | rw [id] | simp only [↓keeps_mk])

theorem State.stepFault_keeps {orig : State} (s : State) (p : Nat) (q : Nat) (hb : Keeps orig s) :
    Keeps orig (State.stepFault s p q) := by
  unfold State.stepFault; try dsimp only
  repeat' (with_reducible first | exact hb | apply State.putStream_keeps | apply keeps_foldl | apply keeps_elim | (intro (t : State); have hb := Keeps.refl t) | intro _ | split | rw [id] | simp only [↓keeps_mk])

theorem State.commitStream_keeps {orig : State} (s : State) (st : Stream) (x : ScanDesc) (c : ScanCopy) (hb : Keeps orig s) :
    Keeps orig (State.commitStream s st x c) := by
  unfold State.commitStream; try dsimp only
  repeat' (with_reducible first | exact hb | apply State.putStream_keeps | apply State.storeState_keeps | apply keeps_foldl | apply keeps_elim | (intro (t : State); have hb := Keeps.refl t) | intro _ | split | rw [id] | simp only [↓keeps_mk])

theorem State.scanSeq_keeps {orig : State} (s : State) (r : ScanRun) (x : ScanDesc) (k : Kernel) (i : Nat) (st : Stream) (hb : Keeps orig s) :
    Keeps orig (State.scanSeq s r x k i st).1 := by
  unfold State.scanSeq; try dsimp only
  repeat' (with_reducible first | exact hb | apply State.uncorrectable_keeps | apply Run.next_keeps | apply State.checkSources_keeps | apply State.keyed_keeps | apply State.startState_keeps | apply State.scanOutput_keeps | apply State.engWrite_keeps | apply State.countSat_keeps | apply State.commitStream_keeps | apply keeps_foldl | apply keeps_elim | (intro (t : State); have hb := Keeps.refl t) | intro _ | split | rw [id] | simp only [↓keeps_mk])

theorem State.findStream_keeps {orig : State} (s : State) (x : ScanDesc) (k : Kernel) (q : Nat) (hb : Keeps orig s) :
    Keeps orig (State.findStream s x k q).1.1 := by
  unfold State.findStream; try dsimp only
  repeat' (with_reducible first | exact hb | apply State.setStream_keeps | apply State.putStream_keeps | apply keeps_foldl | apply keeps_elim | (intro (t : State); have hb := Keeps.refl t) | intro _ | split | rw [id] | simp only [↓keeps_mk] | (refine State.takeSlot_keeps _ _ ?_ _ _ (by assumption)))

theorem scanBatch_keeps {orig : State} (r : ScanRun) (x : ScanDesc) (k : Kernel) (x3 : List Nat) (x4 : State) (hb : Keeps orig x4) :
    Keeps orig (scanBatch r x k x3 x4).1.1 := by
  induction x3 generalizing orig r x k x4 with
  | nil => exact hb
  | cons e l ih =>
    unfold scanBatch; try dsimp only
    repeat' (with_reducible first | exact hb | apply State.findStream_keeps | apply State.scanSeq_keeps | apply State.stepFault_keeps | apply ih | apply keeps_foldl | apply keeps_elim | (intro (t : State); have hb := Keeps.refl t) | intro _ | split | rw [id] | simp only [↓keeps_mk])

theorem State.scanFault_keeps {orig : State} (s : State) (e : Nat) (cause : Nat) (q : Nat) (hb : Keeps orig s) :
    Keeps orig (State.scanFault s e cause q) := by
  unfold State.scanFault; try dsimp only
  repeat' (with_reducible first | exact hb | apply State.noteFault_keeps | apply keeps_foldl | apply keeps_elim | (intro (t : State); have hb := Keeps.refl t) | intro _ | split | rw [id] | simp only [↓keeps_mk])

theorem State.smaxJoin_keeps {orig : State} (s : State) (u : Nat × Nat) (v : Nat × Nat) (hb : Keeps orig s) :
    Keeps orig (State.smaxJoin s u v).2 := by
  unfold State.smaxJoin; try dsimp only
  repeat' (with_reducible first | exact hb | apply State.tableFn_keeps | apply keeps_foldl | apply keeps_elim | (intro (t : State); have hb := Keeps.refl t) | intro _ | split | rw [id] | simp only [↓keeps_mk])

theorem State.foldStretch_keeps {orig : State} (s : State) (acc : StretchRec) (r : StretchRec) (hb : Keeps orig s) :
    Keeps orig (State.foldStretch s acc r).2 := by
  unfold State.foldStretch; try dsimp only
  repeat' (with_reducible first | exact hb | apply State.smaxJoin_keeps | apply State.tableFn_keeps | apply keeps_foldl | apply keeps_elim | (intro (t : State); have hb := Keeps.refl t) | intro _ | split | rw [id] | simp only [↓keeps_mk])

theorem foldStretches_keeps {orig : State} (x0 : List StretchRec) (x1 : StretchRec) (x2 : State) (hb : Keeps orig x2) :
    Keeps orig (foldStretches x0 x1 x2).2 := by
  induction x0 generalizing orig x1 x2 with
  | nil => exact hb
  | cons e l ih =>
    unfold foldStretches; try dsimp only
    repeat' (with_reducible first | exact hb | apply State.foldStretch_keeps | apply ih | apply keeps_foldl | apply keeps_elim | (intro (t : State); have hb := Keeps.refl t) | intro _ | split | rw [id] | simp only [↓keeps_mk])

theorem State.joinRec_keeps {orig : State} (s : State) (stat : Bool) (u : Nat × Nat) (v : Nat × Nat) (hb : Keeps orig s) :
    Keeps orig (State.joinRec s stat u v).2 := by
  unfold State.joinRec; try dsimp only
  repeat' (with_reducible first | exact hb | apply State.smaxJoin_keeps | apply keeps_foldl | apply keeps_elim | (intro (t : State); have hb := Keeps.refl t) | intro _ | split | rw [id] | simp only [↓keeps_mk])

theorem joinList_keeps {orig : State} (stat : Bool) (x1 : List (Nat × Nat)) (x2 : Nat × Nat) (x3 : State) (hb : Keeps orig x3) :
    Keeps orig (joinList stat x1 x2 x3).2 := by
  induction x1 generalizing orig stat x2 x3 with
  | nil => exact hb
  | cons e l ih =>
    unfold joinList; try dsimp only
    repeat' (with_reducible first | exact hb | apply State.joinRec_keeps | apply ih | apply keeps_foldl | apply keeps_elim | (intro (t : State); have hb := Keeps.refl t) | intro _ | split | rw [id] | simp only [↓keeps_mk])

theorem joinPairs_keeps {orig : State} (stat : Bool) (x1 : Nat) (x2 : List (Nat × Nat)) (x3 : State) (hb : Keeps orig x3) :
    Keeps orig (joinPairs stat x1 x2 x3).2 := by
  induction x1 generalizing orig stat x2 x3 with
  | zero => exact hb
  | succ n ih =>
    unfold joinPairs; try dsimp only
    repeat' (with_reducible first | exact hb | apply State.joinRec_keeps | apply ih | apply keeps_foldl | apply keeps_elim | (intro (t : State); have hb := Keeps.refl t) | intro _ | split | rw [id] | simp only [↓keeps_mk])

theorem State.joinSlice_keeps {orig : State} (s : State) (x : ScanDesc) (a : Nat) (l : Nat) (r : Nat) (hb : Keeps orig s) :
    Keeps orig (State.joinSlice s x a l r).2 := by
  unfold State.joinSlice; try dsimp only
  repeat' (with_reducible first | exact hb | apply joinList_keeps | apply keeps_foldl | apply keeps_elim | (intro (t : State); have hb := Keeps.refl t) | intro _ | split | rw [id] | simp only [↓keeps_mk])

theorem joinSlices_keeps {orig : State} (x : ScanDesc) (a : Nat) (r : Nat) (x3 : List Nat) (x4 : State) (hb : Keeps orig x4) :
    Keeps orig (joinSlices x a r x3 x4).2 := by
  induction x3 generalizing orig x a r x4 with
  | nil => exact hb
  | cons e l ih =>
    unfold joinSlices; try dsimp only
    repeat' (with_reducible first | exact hb | apply State.joinSlice_keeps | apply ih | apply keeps_foldl | apply keeps_elim | (intro (t : State); have hb := Keeps.refl t) | intro _ | split | rw [id] | simp only [↓keeps_mk])

theorem State.combineRow_keeps {orig : State} (s : State) (x : ScanDesc) (k : Kernel) (r : Nat) (hb : Keeps orig s) :
    Keeps orig (State.combineRow s x k r).2 := by
  unfold State.combineRow; try dsimp only
  repeat' (with_reducible first | exact hb | apply joinSlices_keeps | apply joinPairs_keeps | apply State.tableFn_keeps | apply keeps_foldl | apply keeps_elim | (intro (t : State); have hb := Keeps.refl t) | intro _ | split | rw [id] | simp only [↓keeps_mk])

theorem combineRows_keeps {orig : State} (x : ScanDesc) (k : Kernel) (x2 : List Nat) (x3 : State) (hb : Keeps orig x3) :
    Keeps orig (combineRows x k x2 x3).1 := by
  induction x2 generalizing orig x k x3 with
  | nil => exact hb
  | cons e l ih =>
    unfold combineRows; try dsimp only
    repeat' (with_reducible first | exact hb | apply Run.next_keeps | apply State.engWrite_keeps | apply State.combineRow_keeps | apply ih | apply keeps_foldl | apply keeps_elim | (intro (t : State); have hb := Keeps.refl t) | intro _ | split | rw [id] | simp only [↓keeps_mk])

theorem State.combine_keeps {orig : State} (s : State) (r : ScanRun) (x : ScanDesc) (k : Kernel) (hb : Keeps orig s) :
    Keeps orig (State.combine s r x k).1.1 := by
  unfold State.combine; try dsimp only
  repeat' (with_reducible first | exact hb | apply State.uncorrectable_keeps | apply Run.next_keeps | apply State.engCheck_keeps | apply combineRows_keeps | apply keeps_foldl | apply keeps_elim | (intro (t : State); have hb := Keeps.refl t) | intro _ | split | rw [id] | simp only [↓keeps_mk])

theorem State.takeLocks_keeps {orig : State} (s : State) (k : Kernel) (qs : List Nat) (hb : Keeps orig s) :
    Keeps orig (State.takeLocks s k qs) := by
  unfold State.takeLocks; try dsimp only
  repeat' (with_reducible first | exact hb | apply State.setStream_keeps | apply keeps_foldl | apply keeps_elim | (intro (t : State); have hb := Keeps.refl t) | intro _ | split | rw [id] | simp only [↓keeps_mk])

theorem State.scanRun_keeps {orig : State} (s0 : State) (mode : Nat) (r : ScanRun) (hb : Keeps orig s0) :
    Keeps orig (State.scanRun s0 mode r) := by
  unfold State.scanRun; try dsimp only
  repeat' (with_reducible first | exact hb | apply State.keyed_keeps | apply State.endKernel_keeps | apply State.scanFault_keeps | apply State.recordDenial_keeps | apply State.combine_keeps | apply State.stepFault_keeps | apply scanBatch_keeps | apply State.settled_keeps | apply State.addReg_keeps | apply State.endRun_keeps | apply keeps_foldl | apply keeps_elim | (intro (t : State); have hb := Keeps.refl t) | intro _ | split | rw [id] | simp only [↓keeps_mk])

theorem execScanChunk_keeps {orig : State} (x : ScanRun) (s : State) (hb : Keeps orig s) :
    KeepsOut orig (execScanChunk x s) := by
  unfold execScanChunk; try dsimp only
  repeat' (with_reducible first | exact hb | apply KeepsOut.next | apply State.scanRun_keeps | apply keeps_foldl | apply keeps_elim | (intro (t : State); have hb := Keeps.refl t) | intro _ | split | rw [id] | simp only [↓keeps_mk])

theorem execScanStep_keeps {orig : State} (x : ScanRun) (s : State) (hb : Keeps orig s) :
    KeepsOut orig (execScanStep x s) := by
  unfold execScanStep; try dsimp only
  repeat' (with_reducible first | exact hb | apply KeepsOut.next | apply State.scanRun_keeps | apply keeps_foldl | apply keeps_elim | (intro (t : State); have hb := Keeps.refl t) | intro _ | split | rw [id] | simp only [↓keeps_mk])

theorem execScanCombine_keeps {orig : State} (x : ScanRun) (s : State) (hb : Keeps orig s) :
    KeepsOut orig (execScanCombine x s) := by
  unfold execScanCombine; try dsimp only
  repeat' (with_reducible first | exact hb | apply KeepsOut.next | apply State.scanRun_keeps | apply keeps_foldl | apply keeps_elim | (intro (t : State); have hb := Keeps.refl t) | intro _ | split | rw [id] | simp only [↓keeps_mk])

end Sys2Proof.Machine
end

