-- ==== Sys2Proof/Laws/Keeps/Vision.lean ====
section
/-! SUPPORT. What the operations of Machine/Vision.lean keep (Laws/Keeps.lean). -/

set_option linter.unusedTactic false
set_option linter.unreachableTactic false

namespace Sys2Proof.Machine

theorem writeRows_keeps {base : State} (cls p : Nat) (dst : Planar) (row : State → Nat → Nat → List Converted) (l : List (Nat × Nat))
    (s : State) (hb : Keeps base s) : Keeps base (writeRows cls p dst row l s).1.1 := by
  induction l generalizing s with
  | nil => exact hb
  | cons e l ih =>
    unfold writeRows
    dsimp only
    repeat' (with_reducible first | exact hb | apply State.engWrite_keeps | apply ih | split)

theorem State.jobReads_keeps {orig : State} (s : State) (cls : Nat) (p : Nat) (l : List (Nat × Nat)) (hb : Keeps orig s) :
    Keeps orig (State.jobReads s cls p l).1 := by
  unfold State.jobReads; try dsimp only
  repeat' (with_reducible first | exact hb | apply runAll_keeps | apply State.engCheck_keeps | apply keeps_foldl | apply keeps_elim | (intro (t : State); have hb := Keeps.refl t) | intro _ | split | rw [id] | simp only [↓keeps_mk])

theorem State.edgeBody_keeps {orig : State} (s : State) (k : Kernel) (hb : Keeps orig s) :
    Keeps orig (State.edgeBody s k).1.1 := by
  unfold State.edgeBody; try dsimp only
  repeat' (with_reducible first | exact hb | apply State.jobReads_keeps | apply writeRows_keeps | apply keeps_foldl | apply keeps_elim | (intro (t : State); have hb := Keeps.refl t) | intro _ | split | rw [id] | simp only [↓keeps_mk])

theorem State.resampleBody_keeps {orig : State} (s : State) (k : Kernel) (hb : Keeps orig s) :
    Keeps orig (State.resampleBody s k).1.1 := by
  unfold State.resampleBody; try dsimp only
  repeat' (with_reducible first | exact hb | apply State.jobReads_keeps | apply writeRows_keeps | apply keeps_foldl | apply keeps_elim | (intro (t : State); have hb := Keeps.refl t) | intro _ | split | rw [id] | simp only [↓keeps_mk])

theorem State.ppeBody_keeps {orig : State} (s : State) (k : Kernel) (hb : Keeps orig s) :
    Keeps orig (State.ppeBody s k).1.1 := by
  unfold State.ppeBody; try dsimp only
  repeat' (with_reducible first | exact hb | apply State.engCheck_keeps | apply State.jobReads_keeps | apply writeRows_keeps | apply keeps_foldl | apply keeps_elim | (intro (t : State); have hb := Keeps.refl t) | intro _ | split | rw [id] | simp only [↓keeps_mk])

theorem State.endJob_keeps {orig : State} (s : State) (k : Kernel) (st : Nat) (result : Nat) (hb : Keeps orig s) :
    Keeps orig (State.endJob s k st result) := by
  unfold State.endJob; try dsimp only
  repeat' (with_reducible first | exact hb | apply State.setKernel_keeps | apply keeps_foldl | apply keeps_elim | (intro (t : State); have hb := Keeps.refl t) | intro _ | split | rw [id] | simp only [↓keeps_mk])

theorem State.jobFault_keeps {orig : State} (s : State) (u : Option Nat) (k : Kernel) (cause : Nat) (sat : Nat) (hb : Keeps orig s) :
    Keeps orig (State.jobFault s u k cause sat) := by
  unfold State.jobFault; try dsimp only
  repeat' (with_reducible first | exact hb | apply State.endJob_keeps | apply State.noteFault_keeps | apply keeps_foldl | apply keeps_elim | (intro (t : State); have hb := Keeps.refl t) | intro _ | split | rw [id] | simp only [↓keeps_mk])

theorem State.countOut_keeps {orig : State} (s : State) (u : Option Nat) (sat : Nat) (partly : Bool) (hb : Keeps orig s) :
    Keeps orig (State.countOut s u sat partly) := by
  unfold State.countOut; try dsimp only
  repeat' (with_reducible first | exact hb | apply State.addFld_keeps | apply keeps_foldl | apply keeps_elim | (intro (t : State); have hb := Keeps.refl t) | intro _ | split | rw [id] | simp only [↓keeps_mk])

theorem State.finishJob_keeps {base : State} (u : Option Nat) (k : Kernel) (r : Run × Nat × Nat) (hb : Keeps base r.1.1) :
    Keeps base (State.finishJob u k r) := by
  unfold State.finishJob
  dsimp only
  repeat' (with_reducible first | exact hb | apply State.endJob_keeps | apply State.countOut_keeps | apply State.jobFault_keeps | split)

theorem State.jobRun_keeps {base : State} (s : State) (u : Option Nat) (k : Kernel) (ecc : Option Nat) (body : State → Run × Nat × Nat)
    (hbody : ∀ t, Keeps t (body t).1.1) (hb : Keeps base s) : Keeps base (State.jobRun s u k ecc body) := by
  unfold State.jobRun
  split
  · exact State.finishJob_keeps _ _ _ (State.uncorrectable_keeps _ _ _ _ hb)
  · exact State.finishJob_keeps _ _ _ (hb.trans (hbody _))

theorem State.visRun_keeps {base : State} (s : State) (cls : Nat) (x : VisRun) (body : State → Kernel → Run × Nat × Nat)
    (hbody : ∀ k t, Keeps t (body t k).1.1) (hb : Keeps base s) : Keeps base (State.visRun s cls x body) := by
  unfold State.visRun
  split
  · exact hb
  · exact State.settled_keeps hb (State.jobRun_keeps _ _ _ _ _ (fun t => hbody _ t) (State.keyed_keeps _ _ hb))

theorem execEdgeJob_keeps {orig : State} (x : VisRun) (s : State) (hb : Keeps orig s) :
    KeepsOut orig (execEdgeJob x s) := by
  unfold execEdgeJob; try dsimp only
  repeat' (with_reducible first | exact hb | apply KeepsOut.next | apply State.visRun_keeps | apply State.edgeBody_keeps | apply keeps_foldl | apply keeps_elim | (intro (t : State); have hb := Keeps.refl t) | intro _ | split | rw [id] | simp only [↓keeps_mk])

theorem execResampleJob_keeps {orig : State} (x : VisRun) (s : State) (hb : Keeps orig s) :
    KeepsOut orig (execResampleJob x s) := by
  unfold execResampleJob; try dsimp only
  repeat' (with_reducible first | exact hb | apply KeepsOut.next | apply State.visRun_keeps | apply State.resampleBody_keeps | apply keeps_foldl | apply keeps_elim | (intro (t : State); have hb := Keeps.refl t) | intro _ | split | rw [id] | simp only [↓keeps_mk])

theorem execPpeJob_keeps {orig : State} (x : VisRun) (s : State) (hb : Keeps orig s) :
    KeepsOut orig (execPpeJob x s) := by
  unfold execPpeJob; try dsimp only
  repeat' (with_reducible first | exact hb | apply KeepsOut.next | apply State.visRun_keeps | apply State.ppeBody_keeps | apply keeps_foldl | apply keeps_elim | (intro (t : State); have hb := Keeps.refl t) | intro _ | split | rw [id] | simp only [↓keeps_mk])

theorem visRunBody_keeps {orig : State} (p : Packet) (id : Nat) (s : State) (hb : Keeps orig s) :
    Keeps orig (visRunBody p id s) := by
  unfold visRunBody; try dsimp only
  repeat' (with_reducible first | exact hb | apply State.makeReady_keeps | apply keeps_foldl | apply keeps_elim | (intro (t : State); have hb := Keeps.refl t) | intro _ | split | rw [id] | simp only [↓keeps_mk])

theorem execVisRun_keeps {orig : State} (p : Packet) (s : State) (hb : Keeps orig s) :
    KeepsOut orig (execVisRun p s) := by
  unfold execVisRun; try dsimp only
  repeat' (with_reducible first | exact hb | apply KeepsOut.next | apply runPacket_keeps | apply visRunBody_keeps | apply keeps_foldl | apply keeps_elim | (intro (t : State); have hb := Keeps.refl t) | intro _ | split | rw [id] | simp only [↓keeps_mk])

end Sys2Proof.Machine
end

