-- ==== Sys2Proof/Laws/Keeps/Escapement.lean ====
section
/-! SUPPORT. What the operations of Machine/Escapement.lean keep (Laws/Keeps.lean). -/

set_option linter.unusedTactic false
set_option linter.unreachableTactic false

namespace Sys2Proof.Machine

theorem State.takeKernel_keeps {orig : State} (s : State) (l : Launch) (addr : Nat) (d : List Byte) (hb : Keeps orig s) :
    Keeps orig (State.takeKernel s l addr d) := by
  unfold State.takeKernel; try dsimp only
  repeat' (with_reducible first | exact hb | apply State.charge_keeps | apply State.putFld_keeps | apply State.makeReady_keeps | apply keeps_foldl | apply keeps_elim | (intro (t : State); have hb := Keeps.refl t) | intro _ | split | rw [id] | simp only [↓keeps_mk])

theorem takeSome_keeps {orig : State} (x0 : Nat) (x1 : Launch) (x2 : State) (hb : Keeps orig x2) :
    Keeps orig (takeSome x0 x1 x2).2 := by
  induction x0 generalizing orig x1 x2 with
  | zero => exact hb
  | succ n ih =>
    unfold takeSome; try dsimp only
    repeat' (with_reducible first | exact hb | apply State.takeKernel_keeps | apply ih | apply keeps_foldl | apply keeps_elim | (intro (t : State); have hb := Keeps.refl t) | intro _ | split | rw [id] | simp only [↓keeps_mk])

theorem takeLaunches_keeps {orig : State} (x0 : List Launch) (x1 : State) (hb : Keeps orig x1) :
    Keeps orig (takeLaunches x0 x1) := by
  induction x0 generalizing orig x1 with
  | nil => exact hb
  | cons e l ih =>
    unfold takeLaunches; try dsimp only
    repeat' (with_reducible first | exact hb | apply takeSome_keeps | apply State.keyed_keeps | apply State.complete_keeps | apply ih | apply keeps_foldl | apply keeps_elim | (intro (t : State); have hb := Keeps.refl t) | intro _ | split | rw [id] | simp only [↓keeps_mk])

theorem State.moreKernels_keeps {orig : State} (s : State) (hb : Keeps orig s) :
    Keeps orig (State.moreKernels s) := by
  unfold State.moreKernels; try dsimp only
  repeat' (with_reducible first | exact hb | apply takeLaunches_keeps | apply keeps_foldl | apply keeps_elim | (intro (t : State); have hb := Keeps.refl t) | intro _ | split | rw [id] | simp only [↓keeps_mk])

theorem execLaunchBody_keeps {orig : State} (p : Packet) (id : Nat) (s : State) (hb : Keeps orig s) :
    Keeps orig (execLaunchBody p id s) := by
  unfold execLaunchBody; try dsimp only
  repeat' (with_reducible first | exact hb | apply State.moreKernels_keeps | apply keeps_foldl | apply keeps_elim | (intro (t : State); have hb := Keeps.refl t) | intro _ | split | rw [id] | simp only [↓keeps_mk])

theorem execExecLaunch_keeps {orig : State} (p : Packet) (s : State) (hb : Keeps orig s) :
    KeepsOut orig (execExecLaunch p s) := by
  unfold execExecLaunch; try dsimp only
  repeat' (with_reducible first | exact hb | apply KeepsOut.next | apply runPacket_keeps | apply execLaunchBody_keeps | apply keeps_foldl | apply keeps_elim | (intro (t : State); have hb := Keeps.refl t) | intro _ | split | rw [id] | simp only [↓keeps_mk])

theorem execExecQuery_keeps {orig : State} (p : Packet) (s : State) (hb : Keeps orig s) :
    KeepsOut orig (execExecQuery p s) := by
  unfold execExecQuery; try dsimp only
  repeat' (with_reducible first | exact hb | apply KeepsOut.next | apply runPacket_keeps | apply State.finish_keeps | apply keeps_foldl | apply keeps_elim | (intro (t : State); have hb := Keeps.refl t) | intro _ | split | rw [id] | simp only [↓keeps_mk])

theorem State.chargeV_keeps {orig : State} (s : State) (p : Nat) (cls : Nat) (cycles : ℤ) (hb : Keeps orig s) :
    Keeps orig (State.chargeV s p cls cycles) := by
  unfold State.chargeV; try dsimp only
  repeat' (with_reducible first | exact hb | apply State.setReg_keeps | apply keeps_foldl | apply keeps_elim | (intro (t : State); have hb := Keeps.refl t) | intro _ | split | rw [id] | simp only [↓keeps_mk])

theorem State.loadEngine_keeps {orig : State} (s : State) (k : Kernel) (n : Nat) (hb : Keeps orig s) :
    Keeps orig (State.loadEngine s k n) := by
  unfold State.loadEngine; try dsimp only
  repeat' (with_reducible first | exact hb | apply State.setReg_keeps | apply State.putFld_keeps | apply State.zeroStore_keeps | apply keeps_foldl | apply keeps_elim | (intro (t : State); have hb := Keeps.refl t) | intro _ | split | rw [id] | simp only [↓keeps_mk])

theorem State.dispatch_keeps {orig : State} (s : State) (k : Kernel) (n : Nat) (lent : Bool) (hb : Keeps orig s) :
    Keeps orig (State.dispatch s k n lent) := by
  unfold State.dispatch; try dsimp only
  repeat' (with_reducible first | exact hb | apply State.keyed_keeps | apply State.takeLocks_keeps | apply State.setKernel_keeps | apply State.acceptUnit_keeps | apply State.chargeV_keeps | apply State.setFlag_keeps | apply State.showBacklog_keeps | apply State.loadEngine_keeps | apply keeps_foldl | apply keeps_elim | (intro (t : State); have hb := Keeps.refl t) | intro _ | split | rw [id] | simp only [↓keeps_mk])

theorem State.showPath_keeps {orig : State} (s : State) (k : Kernel) (m : Nat) (lent : Bool) (path : Nat) (hb : Keeps orig s) :
    Keeps orig (State.showPath s k m lent path) := by
  unfold State.showPath; try dsimp only
  repeat' (with_reducible first | exact hb | apply State.putFld_keeps | apply keeps_foldl | apply keeps_elim | (intro (t : State); have hb := Keeps.refl t) | intro _ | split | rw [id] | simp only [↓keeps_mk])

theorem execKernelDispatch_keeps {orig : State} (cls : Nat) (n : Nat) (path : Nat) (s : State) (hb : Keeps orig s) :
    KeepsOut orig (execKernelDispatch cls n path s) := by
  unfold execKernelDispatch; try dsimp only
  repeat' (with_reducible first | exact hb | apply KeepsOut.next | apply State.showPath_keeps | apply State.dispatch_keeps | apply keeps_foldl | apply keeps_elim | (intro (t : State); have hb := Keeps.refl t) | intro _ | split | rw [id] | simp only [↓keeps_mk])

theorem execLendHoldExpire_keeps {orig : State} (cls : Nat) (n : Nat) (s : State) (hb : Keeps orig s) :
    KeepsOut orig (execLendHoldExpire cls n s) := by
  unfold execLendHoldExpire; try dsimp only
  repeat' (with_reducible first | exact hb | apply KeepsOut.next | apply keeps_foldl | apply keeps_elim | (intro (t : State); have hb := Keeps.refl t) | intro _ | split | rw [id] | simp only [↓keeps_mk])

theorem State.showPark_keeps {orig : State} (s : State) (hb : Keeps orig s) :
    Keeps orig (State.showPark s) := by
  unfold State.showPark; try dsimp only
  repeat' (with_reducible first | exact hb | apply State.putFld_keeps | apply State.setReg_keeps | apply keeps_foldl | apply keeps_elim | (intro (t : State); have hb := Keeps.refl t) | intro _ | split | rw [id] | simp only [↓keeps_mk])

theorem State.setParked_keeps {orig : State} (s : State) (n : Nat) (on : Bool) (hb : Keeps orig s) :
    Keeps orig (State.setParked s n on) := by
  unfold State.setParked; try dsimp only
  repeat' (with_reducible first | exact hb | apply State.showPark_keeps | apply State.putFld_keeps | apply keeps_foldl | apply keeps_elim | (intro (t : State); have hb := Keeps.refl t) | intro _ | split | rw [id] | simp only [↓keeps_mk])

theorem State.parkDue_keeps {orig : State} (s : State) (cls : Nat) (n : Nat) (hb : Keeps orig s) :
    Keeps orig (State.parkDue s cls n) := by
  unfold State.parkDue; try dsimp only
  repeat' (with_reducible first | exact hb | apply State.setParked_keeps | apply keeps_foldl | apply keeps_elim | (intro (t : State); have hb := Keeps.refl t) | intro _ | split | rw [id] | simp only [↓keeps_mk])

theorem State.busyRest_keeps {orig : State} (s : State) (k : Kernel) (n : Nat) (run : Nat) (hb : Keeps orig s) :
    Keeps orig (State.busyRest s k n run) := by
  unfold State.busyRest; try dsimp only
  repeat' (with_reducible first | exact hb | apply State.addReg_keeps | apply keeps_foldl | apply keeps_elim | (intro (t : State); have hb := Keeps.refl t) | intro _ | split | rw [id] | simp only [↓keeps_mk])

theorem State.leaveTable_keeps {orig : State} (s : State) (k : Kernel) (run : Nat) (hb : Keeps orig s) :
    Keeps orig (State.leaveTable s k run) := by
  unfold State.leaveTable; try dsimp only
  repeat' (with_reducible first | exact hb | apply State.parkDue_keeps | apply State.chargeV_keeps | apply State.busyRest_keeps | apply State.setReg_keeps | apply keeps_foldl | apply keeps_elim | (intro (t : State); have hb := Keeps.refl t) | intro _ | split | rw [id] | simp only [↓keeps_mk])

theorem State.kernelDone_keeps {orig : State} (s : State) (k : Kernel) (st : Nat) (signals : Bool) (hb : Keeps orig s) :
    Keeps orig (State.kernelDone s k st signals) := by
  unfold State.kernelDone; try dsimp only
  repeat' (with_reducible first | exact hb | apply State.complete_keeps | apply State.signal_keeps | apply keeps_foldl | apply keeps_elim | (intro (t : State); have hb := Keeps.refl t) | intro _ | split | rw [id] | simp only [↓keeps_mk])

theorem State.endOne_keeps {orig : State} (s : State) (k : Kernel) (st : Nat) (run : Nat) (signals : Bool) (hb : Keeps orig s) :
    Keeps orig (State.endOne s k st run signals) := by
  unfold State.endOne; try dsimp only
  repeat' (with_reducible first | exact hb | apply State.releaseStreams_keeps | apply State.leaveTable_keeps | apply State.showBacklog_keeps | apply State.countOps_keeps | apply State.kernelDone_keeps | apply keeps_foldl | apply keeps_elim | (intro (t : State); have hb := Keeps.refl t) | intro _ | split | rw [id] | simp only [↓keeps_mk])

theorem State.escStatus_keeps {orig : State} (s : State) (f : Fld) (p : Nat) (c : Nat) (hb : Keeps orig s) :
    Keeps orig (State.escStatus s f p c) := by
  unfold State.escStatus; try dsimp only
  repeat' (with_reducible first | exact hb | apply State.putFld_keeps | apply State.setFlag_keeps | apply keeps_foldl | apply keeps_elim | (intro (t : State); have hb := Keeps.refl t) | intro _ | split | rw [id] | simp only [↓keeps_mk])

theorem State.killKernel_keeps {orig : State} (st : Nat) (s : State) (k : Kernel) (hb : Keeps orig s) :
    Keeps orig (State.killKernel st s k) := by
  unfold State.killKernel; try dsimp only
  repeat' (with_reducible first | exact hb | apply State.endOne_keeps | apply State.zeroStore_keeps | apply State.putFld_keeps | apply keeps_foldl | apply keeps_elim | (intro (t : State); have hb := Keeps.refl t) | intro _ | split | rw [id] | simp only [↓keeps_mk])

theorem State.unpinContext_keeps {orig : State} (s : State) (p : Nat) (c : Nat) (hb : Keeps orig s) :
    Keeps orig (State.unpinContext s p c) := by
  unfold State.unpinContext; try dsimp only
  repeat' (with_reducible first | exact hb | apply State.unpinStream_keeps | apply keeps_foldl | apply keeps_elim | (intro (t : State); have hb := Keeps.refl t) | intro _ | split | rw [id] | simp only [↓keeps_mk])

theorem State.scrubRange_keeps {orig : State} (s : State) (a : Nat) (n : Nat) (hb : Keeps orig s) :
    Keeps orig (State.scrubRange s a n) := by
  unfold State.scrubRange; try dsimp only
  repeat' (with_reducible first | exact hb | apply State.clearMem_keeps | apply keeps_foldl | apply keeps_elim | (intro (t : State); have hb := Keeps.refl t) | intro _ | split | rw [id] | simp only [↓keeps_mk])

theorem State.scrubParts_keeps {orig : State} (s : State) (ps : List (Nat × Nat)) (hb : Keeps orig s) :
    Keeps orig (State.scrubParts s ps) := by
  unfold State.scrubParts; try dsimp only
  repeat' (with_reducible first | exact hb | apply State.scrubRange_keeps | apply keeps_foldl | apply keeps_elim | (intro (t : State); have hb := Keeps.refl t) | intro _ | split | rw [id] | simp only [↓keeps_mk])

theorem State.dropObjects_keeps {orig : State} (s : State) (p : Nat) (c : Nat) (st : Nat) (hb : Keeps orig s) :
    Keeps orig (State.dropObjects s p c st) := by
  unfold State.dropObjects; try dsimp only
  repeat' (with_reducible first | exact hb | apply State.scrubParts_keeps | apply State.complete_keeps | apply keeps_foldl | apply keeps_elim | (intro (t : State); have hb := Keeps.refl t) | intro _ | split | rw [id] | simp only [↓keeps_mk])

theorem State.dropLaunches_keeps {orig : State} (s : State) (p : Nat) (c : Nat) (st : Nat) (hb : Keeps orig s) :
    Keeps orig (State.dropLaunches s p c st) := by
  unfold State.dropLaunches; try dsimp only
  repeat' (with_reducible first | exact hb | apply State.complete_keeps | apply keeps_foldl | apply keeps_elim | (intro (t : State); have hb := Keeps.refl t) | intro _ | split | rw [id] | simp only [↓keeps_mk])

theorem State.faultQueue_keeps {orig : State} (st : Nat) (s : State) (q : Nat) (hb : Keeps orig s) :
    Keeps orig (State.faultQueue st s q) := by
  unfold State.faultQueue; try dsimp only
  repeat' (with_reducible first | exact hb | apply State.putFld_keeps | apply State.retire_keeps | apply State.toRead_keeps | apply State.flushQueue_keeps | apply keeps_foldl | apply keeps_elim | (intro (t : State); have hb := Keeps.refl t) | intro _ | split | rw [id] | simp only [↓keeps_mk])

theorem State.teardown_keeps {orig : State} (s : State) (p : Nat) (c : Nat) (st : Nat) (cause : Option Kernel) (hb : Keeps orig s) :
    Keeps orig (State.teardown s p c st cause) := by
  unfold State.teardown; try dsimp only
  repeat' (with_reducible first | exact hb | apply State.escStatus_keeps | apply State.unpinContext_keeps | apply State.putFld_keeps | apply State.killKernel_keeps | apply State.dropObjects_keeps | apply State.dropLaunches_keeps | apply State.faultQueue_keeps | apply State.extraRecord_keeps | apply State.anyEvent_keeps | apply State.ctxRecover_keeps | apply keeps_foldl | apply keeps_elim | (intro (t : State); have hb := Keeps.refl t) | intro _ | split | rw [id] | simp only [↓keeps_mk])

theorem State.teardownPartition_keeps {orig : State} (s : State) (p : Nat) (st : Nat) (hb : Keeps orig s) :
    Keeps orig (State.teardownPartition s p st) := by
  unfold State.teardownPartition; try dsimp only
  repeat' (with_reducible first | exact hb | apply State.teardown_keeps | apply State.setUnit_keeps | apply State.dropStream_keeps | apply keeps_foldl | apply keeps_elim | (intro (t : State); have hb := Keeps.refl t) | intro _ | split | rw [id] | simp only [↓keeps_mk])

theorem State.completeKernel_keeps {orig : State} (s : State) (k : Kernel) (st : Nat) (run : Nat) (hb : Keeps orig s) :
    Keeps orig (State.completeKernel s k st run) := by
  unfold State.completeKernel; try dsimp only
  repeat' (with_reducible first | exact hb | apply State.endOne_keeps | apply State.moreKernels_keeps | apply State.teardown_keeps | apply keeps_foldl | apply keeps_elim | (intro (t : State); have hb := Keeps.refl t) | intro _ | split | rw [id] | simp only [↓keeps_mk])

theorem execKernelComplete_keeps {orig : State} (cls : Nat) (n : Nat) (run : Nat) (s : State) (hb : Keeps orig s) :
    KeepsOut orig (execKernelComplete cls n run s) := by
  unfold execKernelComplete; try dsimp only
  repeat' (with_reducible first | exact hb | apply KeepsOut.next | apply State.completeKernel_keeps | apply keeps_foldl | apply keeps_elim | (intro (t : State); have hb := Keeps.refl t) | intro _ | split | rw [id] | simp only [↓keeps_mk])

theorem execRunLimit_keeps {orig : State} (cls : Nat) (n : Nat) (run : Nat) (s : State) (hb : Keeps orig s) :
    KeepsOut orig (execRunLimit cls n run s) := by
  unfold execRunLimit; try dsimp only
  repeat' (with_reducible first | exact hb | apply KeepsOut.next | apply State.dataEvent_keeps | apply State.escStatus_keeps | apply State.zeroStore_keeps | apply State.putFld_keeps | apply State.completeKernel_keeps | apply keeps_foldl | apply keeps_elim | (intro (t : State); have hb := Keeps.refl t) | intro _ | split | rw [id] | simp only [↓keeps_mk])

theorem execTeardownBody_keeps {orig : State} (p : Packet) (id : Nat) (s : State) (hb : Keeps orig s) :
    Keeps orig (execTeardownBody p id s) := by
  unfold execTeardownBody; try dsimp only
  repeat' (with_reducible first | exact hb | apply State.finish_keeps | apply State.teardown_keeps | apply keeps_foldl | apply keeps_elim | (intro (t : State); have hb := Keeps.refl t) | intro _ | split | rw [id] | simp only [↓keeps_mk])

theorem execExecTeardown_keeps {orig : State} (p : Packet) (s : State) (hb : Keeps orig s) :
    KeepsOut orig (execExecTeardown p s) := by
  unfold execExecTeardown; try dsimp only
  repeat' (with_reducible first | exact hb | apply KeepsOut.next | apply runPacket_keeps | apply execTeardownBody_keeps | apply keeps_foldl | apply keeps_elim | (intro (t : State); have hb := Keeps.refl t) | intro _ | split | rw [id] | simp only [↓keeps_mk])

theorem State.setLimit_keeps {orig : State} (s : State) (dram : Bool) (p : Nat) (n : Nat) (hb : Keeps orig s) :
    Keeps orig (State.setLimit s dram p n) := by
  unfold State.setLimit; try dsimp only
  repeat' (with_reducible first | exact hb | apply State.setReg_keeps | apply keeps_foldl | apply keeps_elim | (intro (t : State); have hb := Keeps.refl t) | intro _ | split | rw [id] | simp only [↓keeps_mk])

theorem State.endWindow_keeps {orig : State} (s : State) (dram : Bool) (p : Nat) (harts : Nat) (hb : Keeps orig s) :
    Keeps orig (State.endWindow s dram p harts) := by
  unfold State.endWindow; try dsimp only
  repeat' (with_reducible first | exact hb | apply State.addFld_keeps | apply keeps_foldl | apply keeps_elim | (intro (t : State); have hb := Keeps.refl t) | intro _ | split | rw [id] | simp only [↓keeps_mk])

theorem execRegulatorWindow_keeps {orig : State} (x : Regulated) (s : State) (hb : Keeps orig s) :
    KeepsOut orig (execRegulatorWindow x s) := by
  unfold execRegulatorWindow; try dsimp only
  repeat' (with_reducible first | exact hb | apply KeepsOut.next | apply State.endWindow_keeps | apply keeps_foldl | apply keeps_elim | (intro (t : State); have hb := Keeps.refl t) | intro _ | split | rw [id] | simp only [↓keeps_mk])

theorem State.setGuard_keeps {orig : State} (s : State) (p : Nat) (k : Nat) (before : Bool → Nat) (now : Bool → Nat) (hb : Keeps orig s) :
    Keeps orig (State.setGuard s p k before now) := by
  unfold State.setGuard; try dsimp only
  repeat' (with_reducible first | exact hb | apply State.setLimit_keeps | apply keeps_foldl | apply keeps_elim | (intro (t : State); have hb := Keeps.refl t) | intro _ | split | rw [id] | simp only [↓keeps_mk])

theorem State.tighten_keeps {orig : State} (s : State) (p : Nat) (hb : Keeps orig s) :
    Keeps orig (State.tighten s p) := by
  unfold State.tighten; try dsimp only
  repeat' (with_reducible first | exact hb | apply State.setGuard_keeps | apply keeps_foldl | apply keeps_elim | (intro (t : State); have hb := Keeps.refl t) | intro _ | split | rw [id] | simp only [↓keeps_mk])

theorem State.loosen_keeps {orig : State} (s : State) (p : Nat) (hb : Keeps orig s) :
    Keeps orig (State.loosen s p) := by
  unfold State.loosen; try dsimp only
  repeat' (with_reducible first | exact hb | apply State.setGuard_keeps | apply keeps_foldl | apply keeps_elim | (intro (t : State); have hb := Keeps.refl t) | intro _ | split | rw [id] | simp only [↓keeps_mk])

theorem State.retighten_keeps {orig : State} (s : State) (p : Nat) (k : Nat) (hb : Keeps orig s) :
    Keeps orig (State.retighten s p k) := by
  unfold State.retighten; try dsimp only
  repeat' (with_reducible first | exact hb | apply State.setGuard_keeps | apply keeps_foldl | apply keeps_elim | (intro (t : State); have hb := Keeps.refl t) | intro _ | split | rw [id] | simp only [↓keeps_mk])

theorem State.guardVictim_keeps {orig : State} (s : State) (victim : Nat) (hb : Keeps orig s) :
    Keeps orig (State.guardVictim s victim) := by
  unfold State.guardVictim; try dsimp only
  repeat' (with_reducible first | exact hb | apply State.escStatus_keeps | apply State.dataEvent_keeps | apply State.tighten_keeps | apply keeps_foldl | apply keeps_elim | (intro (t : State); have hb := Keeps.refl t) | intro _ | split | rw [id] | simp only [↓keeps_mk])

theorem State.relax_keeps {orig : State} (s : State) (hb : Keeps orig s) :
    Keeps orig (State.relax s) := by
  unfold State.relax; try dsimp only
  repeat' (with_reducible first | exact hb | apply State.anyEvent_keeps | apply State.loosen_keeps | apply keeps_foldl | apply keeps_elim | (intro (t : State); have hb := Keeps.refl t) | intro _ | split | rw [id] | simp only [↓keeps_mk])

theorem execGuardEpoch_keeps {orig : State} (s : State) (hb : Keeps orig s) :
    KeepsOut orig (execGuardEpoch s) := by
  unfold execGuardEpoch; try dsimp only
  repeat' (with_reducible first | exact hb | apply KeepsOut.next | apply State.putFld_keeps | apply State.guardVictim_keeps | apply State.relax_keeps | apply keeps_foldl | apply keeps_elim | (intro (t : State); have hb := Keeps.refl t) | intro _ | split | rw [id] | simp only [↓keeps_mk])

theorem execEscRepairSwap_keeps {orig : State} (w : RegWrite) (s : State) (hb : Keeps orig s) :
    KeepsOut orig (execEscRepairSwap w s) := by
  unfold execEscRepairSwap; try dsimp only
  repeat' (with_reducible first | exact hb | apply KeepsOut.next | apply State.regWrite_keeps | apply State.putFld_keeps | apply keeps_foldl | apply keeps_elim | (intro (t : State); have hb := Keeps.refl t) | intro _ | split | rw [id] | simp only [↓keeps_mk])

theorem State.bandsUnmeasured_keeps {orig : State} (s : State) (hb : Keeps orig s) :
    Keeps orig (State.bandsUnmeasured s) := by
  unfold State.bandsUnmeasured; try dsimp only
  repeat' (with_reducible first | exact hb | apply State.putFld_keeps | apply keeps_foldl | apply keeps_elim | (intro (t : State); have hb := Keeps.refl t) | intro _ | split | rw [id] | simp only [↓keeps_mk])

theorem State.setBitOf_keeps {orig : State} (s : State) (f : Fld) (n : Nat) (v : Bool) (hb : Keeps orig s) :
    Keeps orig (State.setBitOf s f n v) := by
  unfold State.setBitOf; try dsimp only
  repeat' (with_reducible first | exact hb | apply State.putFld_keeps | apply keeps_foldl | apply keeps_elim | (intro (t : State); have hb := Keeps.refl t) | intro _ | split | rw [id] | simp only [↓keeps_mk])

/-- Repair rows are only added. -/
theorem keeps_repair {o t : State} {l : List (Nat × Nat)} (h : Keeps o t) :
    Keeps o { t with chip := { t.chip with otp := { t.chip.otp with repairs := t.chip.otp.repairs ++ l } } } :=
  ⟨h.1, h.2, h.3.trans ⟨Nat.le_refl _, fun _ _ e => e, fun _ _ e => e, fun _ e => e, fun _ e => e, fun _ e => e, fun _ e => e, id,
    List.prefix_append _ _⟩, h.4, h.5⟩

theorem State.swapEngine_keeps {base : State} (s : State) (slot spare : Nat) (persist : Bool) (hb : Keeps base s) :
    Keeps base (State.swapEngine s slot spare persist) := by
  unfold State.swapEngine; dsimp only
  have h : Keeps base (((((s.putFld F.ME_PHYS_PHYS spare slot).setBitOf F.ESC_DISABLED_FAILED (s.fld F.ME_PHYS_PHYS slot) true)).setBitOf
      F.ESC_REPSTAT_SPARES spare false).bumpGen.bandsUnmeasured) :=
    State.bandsUnmeasured_keeps _ (State.bumpGen_keeps _ (State.setBitOf_keeps _ _ _ _ (State.setBitOf_keeps _ _ _ _
      (State.putFld_keeps _ _ _ _ _ hb))))
  generalize State.bandsUnmeasured _ = u at h ⊢
  apply State.event_keeps
  apply State.setUnit_keeps
  apply State.setFlag_keeps
  apply State.showPark_keeps
  split
  · exact keeps_repair (t := State.addFld u F.ESC_REPSTAT_OTP_USED 1) (State.addFld_keeps _ _ _ _ _ h)
  · exact h

theorem execMeSpareTestDone_keeps {orig : State} (slot : Nat) (ok : Bool) (s : State) (hb : Keeps orig s) :
    KeepsOut orig (execMeSpareTestDone slot ok s) := by
  unfold execMeSpareTestDone; try dsimp only
  repeat' (with_reducible first | exact hb | apply KeepsOut.next | apply State.swapEngine_keeps | apply State.event_keeps | apply State.setUnit_keeps | apply State.putFld_keeps | apply State.bumpGen_keeps | apply State.setBitOf_keeps | apply keeps_foldl | apply keeps_elim | (intro (t : State); have hb := Keeps.refl t) | intro _ | split | rw [id] | simp only [↓keeps_mk])

theorem execFwlRegionWrite_keeps {orig : State} (t : Nat) (k : Nat) (off : Nat) (w : RegWrite) (s : State) (hb : Keeps orig s) :
    KeepsOut orig (execFwlRegionWrite t k off w s) := by
  unfold execFwlRegionWrite; try dsimp only
  repeat' (with_reducible first | exact hb | apply KeepsOut.next | apply State.busErr_keeps | apply State.accessed_keeps | apply State.setFlag_keeps | apply State.setReg_keeps | apply State.stageReg_keeps | apply keeps_foldl | apply keeps_elim | (intro (t : State); have hb := Keeps.refl t) | intro _ | split | rw [id] | simp only [↓keeps_mk])

end Sys2Proof.Machine
end

