-- ==== Sys2Proof/Laws/Keeps/Motion.lean ====
section
/-! SUPPORT. What the operations of Machine/Motion.lean keep (Laws/Keeps.lean). -/

set_option linter.unusedTactic false
set_option linter.unreachableTactic false

namespace Sys2Proof.Machine

theorem State.setAx_keeps {orig : State} (s : State) (a : Nat) (x : Axis) (hb : Keeps orig s) :
    Keeps orig (State.setAx s a x) := by
  unfold State.setAx; try dsimp only
  repeat' (with_reducible first | exact hb | apply keeps_foldl | apply keeps_elim | (intro (t : State); have hb := Keeps.refl t) | intro _ | split | rw [id] | simp only [↓keeps_mk])

theorem State.setEnc_keeps {orig : State} (s : State) (n : Nat) (x : Encoder) (hb : Keeps orig s) :
    Keeps orig (State.setEnc s n x) := by
  unfold State.setEnc; try dsimp only
  repeat' (with_reducible first | exact hb | apply keeps_foldl | apply keeps_elim | (intro (t : State); have hb := Keeps.refl t) | intro _ | split | rw [id] | simp only [↓keeps_mk])

theorem State.setTrace_keeps {orig : State} (s : State) (t : Nat) (x : Trace) (hb : Keeps orig s) :
    Keeps orig (State.setTrace s t x) := by
  unfold State.setTrace; try dsimp only
  repeat' (with_reducible first | exact hb | apply keeps_foldl | apply keeps_elim | (intro (t : State); have hb := Keeps.refl t) | intro _ | split | rw [id] | simp only [↓keeps_mk])

theorem State.setPwm_keeps {orig : State} (s : State) (a : Nat) (mask : Nat) (hb : Keeps orig s) :
    Keeps orig (State.setPwm s a mask) := by
  unfold State.setPwm; try dsimp only
  repeat' (with_reducible first | exact hb | apply keeps_foldl | apply keeps_elim | (intro (t : State); have hb := Keeps.refl t) | intro _ | split | rw [id] | simp only [↓keeps_mk])

theorem State.sumBit_keeps {orig : State} (s : State) (f : Fld) (a : Nat) (b : Bool) (hb : Keeps orig s) :
    Keeps orig (State.sumBit s f a b) := by
  unfold State.sumBit; try dsimp only
  repeat' (with_reducible first | exact hb | apply State.putFld_keeps | apply keeps_foldl | apply keeps_elim | (intro (t : State); have hb := Keeps.refl t) | intro _ | split | rw [id] | simp only [↓keeps_mk])

theorem State.traceDone_keeps {orig : State} (s : State) (t : Nat) (hb : Keeps orig s) :
    Keeps orig (State.traceDone s t) := by
  unfold State.traceDone; try dsimp only
  repeat' (with_reducible first | exact hb | apply State.event_keeps | apply State.putFld_keeps | apply keeps_foldl | apply keeps_elim | (intro (t : State); have hb := Keeps.refl t) | intro _ | split | rw [id] | simp only [↓keeps_mk])

theorem State.traceFire_keeps {orig : State} (s : State) (t : Nat) (hb : Keeps orig s) :
    Keeps orig (State.traceFire s t) := by
  unfold State.traceFire; try dsimp only
  repeat' (with_reducible first | exact hb | apply State.setTrace_keeps | apply State.putFld_keeps | apply State.traceDone_keeps | apply keeps_foldl | apply keeps_elim | (intro (t : State); have hb := Keeps.refl t) | intro _ | split | rw [id] | simp only [↓keeps_mk])

theorem State.fireAxis_keeps {orig : State} (s : State) (a : Nat) (hb : Keeps orig s) :
    Keeps orig (State.fireAxis s a) := by
  unfold State.fireAxis; try dsimp only
  repeat' (with_reducible first | exact hb | apply State.traceFire_keeps | apply keeps_foldl | apply keeps_elim | (intro (t : State); have hb := Keeps.refl t) | intro _ | split | rw [id] | simp only [↓keeps_mk])

theorem State.motEvent_keeps {orig : State} (s : State) (a : Nat) (code : Nat) (hb : Keeps orig s) :
    Keeps orig (State.motEvent s a code) := by
  unfold State.motEvent; try dsimp only
  repeat' (with_reducible first | exact hb | apply State.fireAxis_keeps | apply State.event_keeps | apply keeps_foldl | apply keeps_elim | (intro (t : State); have hb := Keeps.refl t) | intro _ | split | rw [id] | simp only [↓keeps_mk])

theorem State.traceWrite_keeps {orig : State} (s : State) (t : Nat) (a : Nat) (hb : Keeps orig s) :
    Keeps orig (State.traceWrite s t a) := by
  unfold State.traceWrite; try dsimp only
  repeat' (with_reducible first | exact hb | apply State.setTrace_keeps | apply State.writeBytes_keeps | apply State.keyed_keeps | apply State.traceDone_keeps | apply State.traceFire_keeps | apply State.putFld_keeps | apply State.recordDenial_keeps | apply keeps_foldl | apply keeps_elim | (intro (t : State); have hb := Keeps.refl t) | intro _ | split | rw [id] | simp only [↓keeps_mk])

theorem State.traceSample_keeps {orig : State} (s : State) (a : Nat) (t : Nat) (hb : Keeps orig s) :
    Keeps orig (State.traceSample s a t) := by
  unfold State.traceSample; try dsimp only
  repeat' (with_reducible first | exact hb | apply State.setTrace_keeps | apply State.traceWrite_keeps | apply keeps_foldl | apply keeps_elim | (intro (t : State); have hb := Keeps.refl t) | intro _ | split | rw [id] | simp only [↓keeps_mk])

theorem State.safePattern_keeps {orig : State} (s : State) (a : Nat) (pat : Nat) (hb : Keeps orig s) :
    Keeps orig (State.safePattern s a pat) := by
  unfold State.safePattern; try dsimp only
  repeat' (with_reducible first | exact hb | apply State.setPwm_keeps | apply State.sumBit_keeps | apply State.putFld_keeps | apply State.setAx_keeps | apply keeps_foldl | apply keeps_elim | (intro (t : State); have hb := Keeps.refl t) | intro _ | split | rw [id] | simp only [↓keeps_mk])

theorem State.takePattern_keeps {orig : State} (s : State) (a : Nat) (hb : Keeps orig s) :
    Keeps orig (State.takePattern s a) := by
  unfold State.takePattern; try dsimp only
  repeat' (with_reducible first | exact hb | apply State.safePattern_keeps | apply keeps_foldl | apply keeps_elim | (intro (t : State); have hb := Keeps.refl t) | intro _ | split | rw [id] | simp only [↓keeps_mk])

theorem State.axFault_keeps {orig : State} (s : State) (a : Nat) (cause : Nat) (detail : Nat) (hb : Keeps orig s) :
    Keeps orig (State.axFault s a cause detail) := by
  unfold State.axFault; try dsimp only
  repeat' (with_reducible first | exact hb | apply State.setReg_keeps | apply keeps_foldl | apply keeps_elim | (intro (t : State); have hb := Keeps.refl t) | intro _ | split | rw [id] | simp only [↓keeps_mk])

theorem State.axisTrip_keeps {orig : State} (s : State) (a : Nat) (cause : Nat) (detail : Nat) (hb : Keeps orig s) :
    Keeps orig (State.axisTrip s a cause detail) := by
  unfold State.axisTrip; try dsimp only
  repeat' (with_reducible first | exact hb | apply State.motEvent_keeps | apply State.axFault_keeps | apply State.sumBit_keeps | apply State.setUnit_keeps | apply State.takePattern_keeps | apply keeps_foldl | apply keeps_elim | (intro (t : State); have hb := Keeps.refl t) | intro _ | split | rw [id] | simp only [↓keeps_mk])

theorem execOvercurrent_keeps {orig : State} (a : Nat) (input : Nat) (bits : List Bool) (s : State) (hb : Keeps orig s) :
    KeepsOut orig (execOvercurrent a input bits s) := by
  unfold execOvercurrent; try dsimp only
  repeat' (with_reducible first | exact hb | apply KeepsOut.next | apply State.motEvent_keeps | apply State.setReg_keeps | apply State.sumBit_keeps | apply State.setUnit_keeps | apply State.safePattern_keeps | apply keeps_foldl | apply keeps_elim | (intro (t : State); have hb := Keeps.refl t) | intro _ | split | rw [id] | simp only [↓keeps_mk])

theorem execAscHoldEnd_keeps {orig : State} (a : Nat) (s : State) (hb : Keeps orig s) :
    KeepsOut orig (execAscHoldEnd a s) := by
  unfold execAscHoldEnd; try dsimp only
  repeat' (with_reducible first | exact hb | apply KeepsOut.next | apply State.safePattern_keeps | apply keeps_foldl | apply keeps_elim | (intro (t : State); have hb := Keeps.refl t) | intro _ | split | rw [id] | simp only [↓keeps_mk])

theorem State.showQueue_keeps {orig : State} (s : State) (a : Nat) (hb : Keeps orig s) :
    Keeps orig (State.showQueue s a) := by
  unfold State.showQueue; try dsimp only
  repeat' (with_reducible first | exact hb | apply State.putFld_keeps | apply keeps_foldl | apply keeps_elim | (intro (t : State); have hb := Keeps.refl t) | intro _ | split | rw [id] | simp only [↓keeps_mk])

theorem State.noteLate_keeps {orig : State} (s : State) (a : Nat) (e : SetPoint) (hb : Keeps orig s) :
    Keeps orig (State.noteLate s a e) := by
  unfold State.noteLate; try dsimp only
  repeat' (with_reducible first | exact hb | apply State.addFld_keeps | apply State.motEvent_keeps | apply State.setAx_keeps | apply keeps_foldl | apply keeps_elim | (intro (t : State); have hb := Keeps.refl t) | intro _ | split | rw [id] | simp only [↓keeps_mk])

theorem State.pushEntry_keeps {orig : State} (s : State) (a : Nat) (e : SetPoint) (hb : Keeps orig s) :
    Keeps orig (State.pushEntry s a e) := by
  unfold State.pushEntry; try dsimp only
  repeat' (with_reducible first | exact hb | apply State.noteLate_keeps | apply State.showQueue_keeps | apply State.setAx_keeps | apply State.addFld_keeps | apply keeps_foldl | apply keeps_elim | (intro (t : State); have hb := Keeps.refl t) | intro _ | split | rw [id] | simp only [↓keeps_mk])

theorem State.flushAxis_keeps {orig : State} (s : State) (a : Nat) (hb : Keeps orig s) :
    Keeps orig (State.flushAxis s a) := by
  unfold State.flushAxis; try dsimp only
  repeat' (with_reducible first | exact hb | apply State.showQueue_keeps | apply State.setAx_keeps | apply State.addFld_keeps | apply keeps_foldl | apply keeps_elim | (intro (t : State); have hb := Keeps.refl t) | intro _ | split | rw [id] | simp only [↓keeps_mk])

theorem State.takeDue_keeps {orig : State} (s : State) (a : Nat) (kinds : List Nat) (hb : Keeps orig s) :
    Keeps orig (State.takeDue s a kinds).2 := by
  unfold State.takeDue; try dsimp only
  repeat' (with_reducible first | exact hb | apply State.showQueue_keeps | apply State.addFld_keeps | apply State.setAx_keeps | apply keeps_foldl | apply keeps_elim | (intro (t : State); have hb := Keeps.refl t) | intro _ | split | rw [id] | simp only [↓keeps_mk])

theorem State.clampRef_keeps {orig : State} (s : State) (a : Nat) (x : Nat) (hb : Keeps orig s) :
    Keeps orig (State.clampRef s a x).2 := by
  unfold State.clampRef; try dsimp only
  repeat' (with_reducible first | exact hb | apply State.addFld_keeps | apply keeps_foldl | apply keeps_elim | (intro (t : State); have hb := Keeps.refl t) | intro _ | split | rw [id] | simp only [↓keeps_mk])

theorem State.startObserver_keeps {orig : State} (s : State) (a : Nat) (hb : Keeps orig s) :
    Keeps orig (State.startObserver s a) := by
  unfold State.startObserver; try dsimp only
  repeat' (with_reducible first | exact hb | apply State.putFld_keeps | apply State.setAx_keeps | apply keeps_foldl | apply keeps_elim | (intro (t : State); have hb := Keeps.refl t) | intro _ | split | rw [id] | simp only [↓keeps_mk])

theorem State.startAxis_keeps {orig : State} (s : State) (a : Nat) (hb : Keeps orig s) :
    Keeps orig (State.startAxis s a) := by
  unfold State.startAxis; try dsimp only
  repeat' (with_reducible first | exact hb | apply State.acceptUnit_keeps | apply State.setAx_keeps | apply State.startObserver_keeps | apply State.putFld_keeps | apply keeps_foldl | apply keeps_elim | (intro (t : State); have hb := Keeps.refl t) | intro _ | split | rw [id] | simp only [↓keeps_mk])

theorem State.leaveDirect_keeps {orig : State} (s : State) (a : Nat) (typ : Nat) (hb : Keeps orig s) :
    Keeps orig (State.leaveDirect s a typ) := by
  unfold State.leaveDirect; try dsimp only
  repeat' (with_reducible first | exact hb | apply State.setAx_keeps | apply keeps_foldl | apply keeps_elim | (intro (t : State); have hb := Keeps.refl t) | intro _ | split | rw [id] | simp only [↓keeps_mk])

theorem State.applyEntry_keeps {orig : State} (s : State) (a : Nat) (e : SetPoint) (hb : Keeps orig s) :
    Keeps orig (State.applyEntry s a e) := by
  unfold State.applyEntry; try dsimp only
  repeat' (with_reducible first | exact hb | apply State.startAxis_keeps | apply State.startObserver_keeps | apply State.putFld_keeps | apply State.leaveDirect_keeps | apply State.setAx_keeps | apply State.clampRef_keeps | apply keeps_foldl | apply keeps_elim | (intro (t : State); have hb := Keeps.refl t) | intro _ | split | rw [id] | simp only [↓keeps_mk])

theorem State.applyDue_keeps {base : State} (s : State) (a : Nat) (kinds : List Nat) (hb : Keeps base s) :
    Keeps base (State.applyDue s a kinds) := by
  have h := State.takeDue_keeps s a kinds hb
  unfold State.applyDue
  split
  · generalize s.takeDue a kinds = r at h ⊢
    obtain ⟨_ | e, t⟩ := r
    · exact h
    · exact State.applyEntry_keeps _ _ _ h
  · exact hb

theorem State.stepRamp_keeps {orig : State} (s : State) (a : Nat) (hb : Keeps orig s) :
    Keeps orig (State.stepRamp s a) := by
  unfold State.stepRamp; try dsimp only
  repeat' (with_reducible first | exact hb | apply State.setAx_keeps | apply keeps_foldl | apply keeps_elim | (intro (t : State); have hb := Keeps.refl t) | intro _ | split | rw [id] | simp only [↓keeps_mk])

theorem State.drainAxis_keeps {orig : State} (s : State) (a : Nat) (hb : Keeps orig s) :
    Keeps orig (State.drainAxis s a) := by
  unfold State.drainAxis; try dsimp only
  repeat' (with_reducible first | exact hb | apply State.flushAxis_keeps | apply State.leaveDirect_keeps | apply State.setAx_keeps | apply State.putFld_keeps | apply keeps_foldl | apply keeps_elim | (intro (t : State); have hb := Keeps.refl t) | intro _ | split | rw [id] | simp only [↓keeps_mk])

theorem State.resetAxis_keeps {orig : State} (s : State) (a : Nat) (hb : Keeps orig s) :
    Keeps orig (State.resetAxis s a) := by
  unfold State.resetAxis; try dsimp only
  repeat' (with_reducible first | exact hb | apply State.setAx_keeps | apply State.putFld_keeps | apply State.showQueue_keeps | apply State.sumBit_keeps | apply keeps_foldl | apply keeps_elim | (intro (t : State); have hb := Keeps.refl t) | intro _ | split | rw [id] | simp only [↓keeps_mk])

theorem State.readyAxis_keeps {orig : State} (s : State) (a : Nat) (hb : Keeps orig s) :
    Keeps orig (State.readyAxis s a) := by
  unfold State.readyAxis; try dsimp only
  repeat' (with_reducible first | exact hb | apply State.setPwm_keeps | apply State.sumBit_keeps | apply State.putFld_keeps | apply State.resetAxis_keeps | apply keeps_foldl | apply keeps_elim | (intro (t : State); have hb := Keeps.refl t) | intro _ | split | rw [id] | simp only [↓keeps_mk])

theorem State.readEncoder_keeps {orig : State} (s : State) (a : Nat) (x : MotSample) (hb : Keeps orig s) :
    Keeps orig (State.readEncoder s a x) := by
  unfold State.readEncoder; try dsimp only
  repeat' (with_reducible first | exact hb | apply State.addFld_keeps | apply State.setEnc_keeps | apply State.setAx_keeps | apply State.setReg_keeps | apply keeps_foldl | apply keeps_elim | (intro (t : State); have hb := Keeps.refl t) | intro _ | split | rw [id] | simp only [↓keeps_mk])

theorem State.encoderFault_keeps {orig : State} (s : State) (a : Nat) (hb : Keeps orig s) :
    Keeps orig (State.encoderFault s a) := by
  unfold State.encoderFault; try dsimp only
  repeat' (with_reducible first | exact hb | apply State.motEvent_keeps | apply State.putFld_keeps | apply State.axisTrip_keeps | apply keeps_foldl | apply keeps_elim | (intro (t : State); have hb := Keeps.refl t) | intro _ | split | rw [id] | simp only [↓keeps_mk])

theorem State.clearEnc_keeps {orig : State} (s : State) (n : Nat) (f : EncFault) (hb : Keeps orig s) :
    Keeps orig (State.clearEnc s n f) := by
  unfold State.clearEnc; try dsimp only
  repeat' (with_reducible first | exact hb | apply State.setEnc_keeps | apply keeps_foldl | apply keeps_elim | (intro (t : State); have hb := Keeps.refl t) | intro _ | split | rw [id] | simp only [↓keeps_mk])

theorem execEncoderFault_keeps {orig : State} (n : Nat) (f : EncFault) (s : State) (hb : Keeps orig s) :
    KeepsOut orig (execEncoderFault n f s) := by
  unfold execEncoderFault; try dsimp only
  repeat' (with_reducible first | exact hb | apply KeepsOut.next | apply State.encoderFault_keeps | apply State.clearEnc_keeps | apply keeps_foldl | apply keeps_elim | (intro (t : State); have hb := Keeps.refl t) | intro _ | split | rw [id] | simp only [↓keeps_mk])

theorem State.obsStep_keeps {orig : State} (s : State) (a : Nat) (ialpha : Nat) (ibeta : Nat) (hb : Keeps orig s) :
    Keeps orig (State.obsStep s a ialpha ibeta).2 := by
  unfold State.obsStep; try dsimp only
  repeat' (with_reducible first | exact hb | apply State.drawFree_keeps | apply State.setAx_keeps | apply keeps_foldl | apply keeps_elim | (intro (t : State); have hb := Keeps.refl t) | intro _ | split | rw [id] | simp only [↓keeps_mk])

theorem State.obsRuns_keeps {orig : State} (s : State) (a : Nat) (r : Nat) (th0 : Nat) (hb : Keeps orig s) :
    Keeps orig (State.obsRuns s a r th0) := by
  unfold State.obsRuns; try dsimp only
  repeat' (with_reducible first | exact hb | apply State.setAx_keeps | apply keeps_foldl | apply keeps_elim | (intro (t : State); have hb := Keeps.refl t) | intro _ | split | rw [id] | simp only [↓keeps_mk])

theorem State.showObs_keeps {orig : State} (s : State) (a : Nat) (r : Nat) (hb : Keeps orig s) :
    Keeps orig (State.showObs s a r) := by
  unfold State.showObs; try dsimp only
  repeat' (with_reducible first | exact hb | apply State.putFld_keeps | apply keeps_foldl | apply keeps_elim | (intro (t : State); have hb := Keeps.refl t) | intro _ | split | rw [id] | simp only [↓keeps_mk])

theorem State.seedObs_keeps {orig : State} (s : State) (a : Nat) (ialpha : Nat) (ibeta : Nat) (hb : Keeps orig s) :
    Keeps orig (State.seedObs s a ialpha ibeta) := by
  unfold State.seedObs; try dsimp only
  repeat' (with_reducible first | exact hb | apply State.setAx_keeps | apply keeps_foldl | apply keeps_elim | (intro (t : State); have hb := Keeps.refl t) | intro _ | split | rw [id] | simp only [↓keeps_mk])

theorem State.loseObserver_keeps {orig : State} (s : State) (a : Nat) (ialpha : Nat) (ibeta : Nat) (hb : Keeps orig s) :
    Keeps orig (State.loseObserver s a ialpha ibeta) := by
  unfold State.loseObserver; try dsimp only
  repeat' (with_reducible first | exact hb | apply State.motEvent_keeps | apply State.putFld_keeps | apply State.seedObs_keeps | apply State.setAx_keeps | apply keeps_foldl | apply keeps_elim | (intro (t : State); have hb := Keeps.refl t) | intro _ | split | rw [id] | simp only [↓keeps_mk])

theorem State.relock_keeps {orig : State} (s : State) (a : Nat) (hb : Keeps orig s) :
    Keeps orig (State.relock s a) := by
  unfold State.relock; try dsimp only
  repeat' (with_reducible first | exact hb | apply State.putFld_keeps | apply State.motEvent_keeps | apply State.setAx_keeps | apply keeps_foldl | apply keeps_elim | (intro (t : State); have hb := Keeps.refl t) | intro _ | split | rw [id] | simp only [↓keeps_mk])

theorem State.obsDecide_keeps {orig : State} (s : State) (a : Nat) (ialpha : Nat) (ibeta : Nat) (hb : Keeps orig s) :
    Keeps orig (State.obsDecide s a ialpha ibeta) := by
  unfold State.obsDecide; try dsimp only
  repeat' (with_reducible first | exact hb | apply State.loseObserver_keeps | apply State.setAx_keeps | apply State.putFld_keeps | apply State.relock_keeps | apply State.seedObs_keeps | apply keeps_foldl | apply keeps_elim | (intro (t : State); have hb := Keeps.refl t) | intro _ | split | rw [id] | simp only [↓keeps_mk])

theorem State.runObserver_keeps {orig : State} (s : State) (a : Nat) (ialpha : Nat) (ibeta : Nat) (hb : Keeps orig s) :
    Keeps orig (State.runObserver s a ialpha ibeta) := by
  unfold State.runObserver; try dsimp only
  repeat' (with_reducible first | exact hb | apply State.obsStep_keeps | apply State.obsDecide_keeps | apply State.showObs_keeps | apply State.obsRuns_keeps | apply keeps_foldl | apply keeps_elim | (intro (t : State); have hb := Keeps.refl t) | intro _ | split | rw [id] | simp only [↓keeps_mk])

theorem execFlywheelTimeout_keeps {orig : State} (a : Nat) (s : State) (hb : Keeps orig s) :
    KeepsOut orig (execFlywheelTimeout a s) := by
  unfold execFlywheelTimeout; try dsimp only
  repeat' (with_reducible first | exact hb | apply KeepsOut.next | apply State.axisTrip_keeps | apply keeps_foldl | apply keeps_elim | (intro (t : State); have hb := Keeps.refl t) | intro _ | split | rw [id] | simp only [↓keeps_mk])

theorem execObserverStartTimeout_keeps {orig : State} (a : Nat) (s : State) (hb : Keeps orig s) :
    KeepsOut orig (execObserverStartTimeout a s) := by
  unfold execObserverStartTimeout; try dsimp only
  repeat' (with_reducible first | exact hb | apply KeepsOut.next | apply State.axisTrip_keeps | apply keeps_foldl | apply keeps_elim | (intro (t : State); have hb := Keeps.refl t) | intro _ | split | rw [id] | simp only [↓keeps_mk])

theorem State.checkSamples_keeps {orig : State} (s : State) (a : Nat) (x : MainSamples) (hb : Keeps orig s) :
    Keeps orig (State.checkSamples s a x) := by
  unfold State.checkSamples; try dsimp only
  repeat' (with_reducible first | exact hb | apply State.setAx_keeps | apply State.addFld_keeps | apply State.axisTrip_keeps | apply State.motEvent_keeps | apply keeps_foldl | apply keeps_elim | (intro (t : State); have hb := Keeps.refl t) | intro _ | split | rw [id] | simp only [↓keeps_mk])

theorem State.duty_keeps {orig : State} (s : State) (vx : Nat) (vo : Nat) (vdc : Nat) (hb : Keeps orig s) :
    Keeps orig (State.duty s vx vo vdc).2 := by
  unfold State.duty; try dsimp only
  repeat' (with_reducible first | exact hb | apply State.drawFree_keeps | apply keeps_foldl | apply keeps_elim | (intro (t : State); have hb := Keeps.refl t) | intro _ | split | rw [id] | simp only [↓keeps_mk])

theorem State.currentLoop_keeps {orig : State} (s : State) (a : Nat) (ialpha : Nat) (ibeta : Nat) (c : Nat) (sn : Nat) (hb : Keeps orig s) :
    Keeps orig (State.currentLoop s a ialpha ibeta c sn) := by
  unfold State.currentLoop; try dsimp only
  repeat' (with_reducible first | exact hb | apply State.duty_keeps | apply State.setReg_keeps | apply State.setAx_keeps | apply keeps_foldl | apply keeps_elim | (intro (t : State); have hb := Keeps.refl t) | intro _ | split | rw [id] | simp only [↓keeps_mk])

theorem State.loadDuty_keeps {orig : State} (s : State) (a : Nat) (hb : Keeps orig s) :
    Keeps orig (State.loadDuty s a) := by
  unfold State.loadDuty; try dsimp only
  repeat' (with_reducible first | exact hb | apply State.setAx_keeps | apply keeps_foldl | apply keeps_elim | (intro (t : State); have hb := Keeps.refl t) | intro _ | split | rw [id] | simp only [↓keeps_mk])

theorem State.stepStart_keeps {orig : State} (s : State) (a : Nat) (hb : Keeps orig s) :
    Keeps orig (State.stepStart s a) := by
  unfold State.stepStart; try dsimp only
  repeat' (with_reducible first | exact hb | apply State.setAx_keeps | apply keeps_foldl | apply keeps_elim | (intro (t : State); have hb := Keeps.refl t) | intro _ | split | rw [id] | simp only [↓keeps_mk])

theorem State.carryAngle_keeps {orig : State} (s : State) (a : Nat) (th : Nat) (hb : Keeps orig s) :
    Keeps orig (State.carryAngle s a th) := by
  unfold State.carryAngle; try dsimp only
  repeat' (with_reducible first | exact hb | apply State.setAx_keeps | apply keeps_foldl | apply keeps_elim | (intro (t : State); have hb := Keeps.refl t) | intro _ | split | rw [id] | simp only [↓keeps_mk])

theorem State.runCurrent_keeps {orig : State} (s : State) (a : Nat) (ialpha : Nat) (ibeta : Nat) (enc : Nat) (hb : Keeps orig s) :
    Keeps orig (State.runCurrent s a ialpha ibeta enc) := by
  unfold State.runCurrent; try dsimp only
  repeat' (with_reducible first | exact hb | apply State.stepRamp_keeps | apply State.loadDuty_keeps | apply State.stepStart_keeps | apply State.setAx_keeps | apply State.carryAngle_keeps | apply State.runObserver_keeps | apply State.currentLoop_keeps | apply keeps_foldl | apply keeps_elim | (intro (t : State); have hb := Keeps.refl t) | intro _ | split | rw [id] | simp only [↓keeps_mk])

theorem State.sampleAxis_keeps {orig : State} (s : State) (a : Nat) (x : MotSample) (hb : Keeps orig s) :
    Keeps orig (State.sampleAxis s a x) := by
  unfold State.sampleAxis; try dsimp only
  repeat' (with_reducible first | exact hb | apply State.readEncoder_keeps | apply State.checkSamples_keeps | apply State.setAx_keeps | apply keeps_foldl | apply keeps_elim | (intro (t : State); have hb := Keeps.refl t) | intro _ | split | rw [id] | simp only [↓keeps_mk])

theorem State.watchAxis_keeps {orig : State} (s : State) (a : Nat) (hb : Keeps orig s) :
    Keeps orig (State.watchAxis s a) := by
  unfold State.watchAxis; try dsimp only
  repeat' (with_reducible first | exact hb | apply State.setReg_keeps | apply State.setAx_keeps | apply State.obsStep_keeps | apply State.showObs_keeps | apply State.obsRuns_keeps | apply keeps_foldl | apply keeps_elim | (intro (t : State); have hb := Keeps.refl t) | intro _ | split | rw [id] | simp only [↓keeps_mk])

theorem State.workAxis_keeps {orig : State} (s : State) (a : Nat) (hb : Keeps orig s) :
    Keeps orig (State.workAxis s a) := by
  unfold State.workAxis; try dsimp only
  repeat' (with_reducible first | exact hb | apply State.applyDue_keeps | apply State.watchAxis_keeps | apply State.runCurrent_keeps | apply keeps_foldl | apply keeps_elim | (intro (t : State); have hb := Keeps.refl t) | intro _ | split | rw [id] | simp only [↓keeps_mk])

theorem execCurrentLoopTick_keeps {orig : State} (a : Nat) (x : MotSample) (s : State) (hb : Keeps orig s) :
    KeepsOut orig (execCurrentLoopTick a x s) := by
  unfold execCurrentLoopTick; try dsimp only
  repeat' (with_reducible first | exact hb | apply KeepsOut.next | apply State.sampleAxis_keeps | apply State.workAxis_keeps | apply State.watchAxis_keeps | apply State.setReg_keeps | apply State.traceSample_keeps | apply keeps_foldl | apply keeps_elim | (intro (t : State); have hb := Keeps.refl t) | intro _ | split | rw [id] | simp only [↓keeps_mk])

theorem State.measureVel_keeps {orig : State} (s : State) (a : Nat) (hb : Keeps orig s) :
    Keeps orig (State.measureVel s a) := by
  unfold State.measureVel; try dsimp only
  repeat' (with_reducible first | exact hb | apply State.setAx_keeps | apply State.setReg_keeps | apply keeps_foldl | apply keeps_elim | (intro (t : State); have hb := Keeps.refl t) | intro _ | split | rw [id] | simp only [↓keeps_mk])

theorem State.velocityLoop_keeps {orig : State} (s : State) (a : Nat) (hb : Keeps orig s) :
    Keeps orig (State.velocityLoop s a) := by
  unfold State.velocityLoop; try dsimp only
  repeat' (with_reducible first | exact hb | apply State.setAx_keeps | apply keeps_foldl | apply keeps_elim | (intro (t : State); have hb := Keeps.refl t) | intro _ | split | rw [id] | simp only [↓keeps_mk])

theorem execVelocityLoopTick_keeps {orig : State} (a : Nat) (s : State) (hb : Keeps orig s) :
    KeepsOut orig (execVelocityLoopTick a s) := by
  unfold execVelocityLoopTick; try dsimp only
  repeat' (with_reducible first | exact hb | apply KeepsOut.next | apply State.measureVel_keeps | apply State.applyDue_keeps | apply State.setAx_keeps | apply State.velocityLoop_keeps | apply keeps_foldl | apply keeps_elim | (intro (t : State); have hb := Keeps.refl t) | intro _ | split | rw [id] | simp only [↓keeps_mk])

theorem State.stopHold_keeps {orig : State} (s : State) (a : Nat) (hb : Keeps orig s) :
    Keeps orig (State.stopHold s a) := by
  unfold State.stopHold; try dsimp only
  repeat' (with_reducible first | exact hb | apply State.setAx_keeps | apply keeps_foldl | apply keeps_elim | (intro (t : State); have hb := Keeps.refl t) | intro _ | split | rw [id] | simp only [↓keeps_mk])

theorem State.runRamp_keeps {orig : State} (s : State) (a : Nat) (hb : Keeps orig s) :
    Keeps orig (State.runRamp s a) := by
  unfold State.runRamp; try dsimp only
  repeat' (with_reducible first | exact hb | apply State.fireAxis_keeps | apply State.stopHold_keeps | apply State.putFld_keeps | apply State.setAx_keeps | apply keeps_foldl | apply keeps_elim | (intro (t : State); have hb := Keeps.refl t) | intro _ | split | rw [id] | simp only [↓keeps_mk])

theorem State.positionLoop_keeps {orig : State} (s : State) (a : Nat) (hb : Keeps orig s) :
    Keeps orig (State.positionLoop s a) := by
  unfold State.positionLoop; try dsimp only
  repeat' (with_reducible first | exact hb | apply State.setAx_keeps | apply keeps_foldl | apply keeps_elim | (intro (t : State); have hb := Keeps.refl t) | intro _ | split | rw [id] | simp only [↓keeps_mk])

theorem State.showRamp_keeps {orig : State} (s : State) (a : Nat) (hb : Keeps orig s) :
    Keeps orig (State.showRamp s a) := by
  unfold State.showRamp; try dsimp only
  repeat' (with_reducible first | exact hb | apply State.setReg_keeps | apply keeps_foldl | apply keeps_elim | (intro (t : State); have hb := Keeps.refl t) | intro _ | split | rw [id] | simp only [↓keeps_mk])

theorem execPositionLoopTick_keeps {orig : State} (a : Nat) (s : State) (hb : Keeps orig s) :
    KeepsOut orig (execPositionLoopTick a s) := by
  unfold execPositionLoopTick; try dsimp only
  repeat' (with_reducible first | exact hb | apply KeepsOut.next | apply State.applyDue_keeps | apply State.showRamp_keeps | apply State.putFld_keeps | apply State.setAx_keeps | apply State.positionLoop_keeps | apply State.runRamp_keeps | apply keeps_foldl | apply keeps_elim | (intro (t : State); have hb := Keeps.refl t) | intro _ | split | rw [id] | simp only [↓keeps_mk])

theorem execFollowingError_keeps {orig : State} (a : Nat) (s : State) (hb : Keeps orig s) :
    KeepsOut orig (execFollowingError a s) := by
  unfold execFollowingError; try dsimp only
  repeat' (with_reducible first | exact hb | apply KeepsOut.next | apply State.axisTrip_keeps | apply State.motEvent_keeps | apply keeps_foldl | apply keeps_elim | (intro (t : State); have hb := Keeps.refl t) | intro _ | split | rw [id] | simp only [↓keeps_mk])

theorem pushAll_keeps {base : State} (l : List (Nat × SetPoint)) (ok no : Nat) (s : State) (hb : Keeps base s) :
    Keeps base (pushAll l ok no s).2.2 := by
  induction l generalizing s ok no with
  | nil => exact hb
  | cons e l ih =>
    unfold pushAll
    split <;> exact ih _ _ _ (State.pushEntry_keeps _ _ _ hb)

theorem setpointBody_keeps {orig : State} (p : Packet) (id : Nat) (s : State) (hb : Keeps orig s) :
    Keeps orig (setpointBody p id s) := by
  unfold setpointBody; try dsimp only
  repeat' (with_reducible first | exact hb | apply pushAll_keeps | apply State.finish_keeps | apply keeps_foldl | apply keeps_elim | (intro (t : State); have hb := Keeps.refl t) | intro _ | split | rw [id] | simp only [↓keeps_mk])

theorem execMotSetpoint_keeps {orig : State} (p : Packet) (s : State) (hb : Keeps orig s) :
    KeepsOut orig (execMotSetpoint p s) := by
  unfold execMotSetpoint; try dsimp only
  repeat' (with_reducible first | exact hb | apply KeepsOut.next | apply runPacket_keeps | apply setpointBody_keeps | apply keeps_foldl | apply keeps_elim | (intro (t : State); have hb := Keeps.refl t) | intro _ | split | rw [id] | simp only [↓keeps_mk])

theorem execMotFlush_keeps {orig : State} (p : Packet) (s : State) (hb : Keeps orig s) :
    KeepsOut orig (execMotFlush p s) := by
  unfold execMotFlush; try dsimp only
  repeat' (with_reducible first | exact hb | apply KeepsOut.next | apply runPacket_keeps | apply State.finish_keeps | apply State.flushAxis_keeps | apply keeps_foldl | apply keeps_elim | (intro (t : State); have hb := Keeps.refl t) | intro _ | split | rw [id] | simp only [↓keeps_mk])

theorem execMotQuery_keeps {orig : State} (p : Packet) (s : State) (hb : Keeps orig s) :
    KeepsOut orig (execMotQuery p s) := by
  unfold execMotQuery; try dsimp only
  repeat' (with_reducible first | exact hb | apply KeepsOut.next | apply runPacket_keeps | apply State.finish_keeps | apply keeps_foldl | apply keeps_elim | (intro (t : State); have hb := Keeps.refl t) | intro _ | split | rw [id] | simp only [↓keeps_mk])

theorem execSpwPush_keeps {orig : State} (a : Nat) (w : RegWrite) (s : State) (hb : Keeps orig s) :
    KeepsOut orig (execSpwPush a w s) := by
  unfold execSpwPush; try dsimp only
  repeat' (with_reducible first | exact hb | apply KeepsOut.next | apply State.busErr_keeps | apply State.regWrite_keeps | apply State.putFld_keeps | apply State.pushEntry_keeps | apply keeps_foldl | apply keeps_elim | (intro (t : State); have hb := Keeps.refl t) | intro _ | split | rw [id] | simp only [↓keeps_mk])

theorem execReturnAngle_keeps {orig : State} (a : Nat) (w : RegWrite) (s : State) (hb : Keeps orig s) :
    KeepsOut orig (execReturnAngle a w s) := by
  unfold execReturnAngle; try dsimp only
  repeat' (with_reducible first | exact hb | apply KeepsOut.next | apply State.busErr_keeps | apply State.regWrite_keeps | apply State.putFld_keeps | apply keeps_foldl | apply keeps_elim | (intro (t : State); have hb := Keeps.refl t) | intro _ | split | rw [id] | simp only [↓keeps_mk])

theorem execAxctlFlush_keeps {orig : State} (a : Nat) (w : RegWrite) (s : State) (hb : Keeps orig s) :
    KeepsOut orig (execAxctlFlush a w s) := by
  unfold execAxctlFlush; try dsimp only
  repeat' (with_reducible first | exact hb | apply KeepsOut.next | apply State.busErr_keeps | apply State.regWrite_keeps | apply State.flushAxis_keeps | apply keeps_foldl | apply keeps_elim | (intro (t : State); have hb := Keeps.refl t) | intro _ | split | rw [id] | simp only [↓keeps_mk])

theorem execArm_keeps {orig : State} (t : Nat) (w : RegWrite) (s : State) (hb : Keeps orig s) :
    KeepsOut orig (execArm t w s) := by
  unfold execArm; try dsimp only
  repeat' (with_reducible first | exact hb | apply KeepsOut.next | apply State.busErr_keeps | apply State.regWrite_keeps | apply State.setTrace_keeps | apply State.setReg_keeps | apply keeps_foldl | apply keeps_elim | (intro (t : State); have hb := Keeps.refl t) | intro _ | split | rw [id] | simp only [↓keeps_mk])

theorem execTrigger_keeps {orig : State} (t : Nat) (w : RegWrite) (s : State) (hb : Keeps orig s) :
    KeepsOut orig (execTrigger t w s) := by
  unfold execTrigger; try dsimp only
  repeat' (with_reducible first | exact hb | apply KeepsOut.next | apply State.busErr_keeps | apply State.regWrite_keeps | apply State.traceFire_keeps | apply keeps_foldl | apply keeps_elim | (intro (t : State); have hb := Keeps.refl t) | intro _ | split | rw [id] | simp only [↓keeps_mk])

theorem execTraceStop_keeps {orig : State} (t : Nat) (w : RegWrite) (s : State) (hb : Keeps orig s) :
    KeepsOut orig (execTraceStop t w s) := by
  unfold execTraceStop; try dsimp only
  repeat' (with_reducible first | exact hb | apply KeepsOut.next | apply State.busErr_keeps | apply State.regWrite_keeps | apply State.putFld_keeps | apply keeps_foldl | apply keeps_elim | (intro (t : State); have hb := Keeps.refl t) | intro _ | split | rw [id] | simp only [↓keeps_mk])

end Sys2Proof.Machine
end

