-- ==== Sys2Proof/Laws/Keeps/Island.lean ====
section
/-! SUPPORT. What the operations of Machine/Island.lean keep (Laws/Keeps.lean). -/

set_option linter.unusedTactic false
set_option linter.unreachableTactic false

namespace Sys2Proof.Machine

theorem State.showSafeFault_keeps {orig : State} (s : State) (hb : Keeps orig s) :
    Keeps orig (State.showSafeFault s) := by
  unfold State.showSafeFault; try dsimp only
  repeat' (with_reducible first | exact hb | apply State.putFld_keeps | apply keeps_foldl | apply keeps_elim | (intro (t : State); have hb := Keeps.refl t) | intro _ | split | rw [id] | simp only [↓keeps_mk])

theorem State.tripAxes_keeps {orig : State} (s : State) (mask : Nat) (cause : Nat) (hb : Keeps orig s) :
    Keeps orig (State.tripAxes s mask cause) := by
  unfold State.tripAxes; try dsimp only
  repeat' (with_reducible first | exact hb | apply State.axisTrip_keeps | apply keeps_foldl | apply keeps_elim | (intro (t : State); have hb := Keeps.refl t) | intro _ | split | rw [id] | simp only [↓keeps_mk])

theorem State.stopCans_keeps {orig : State} (s : State) (hb : Keeps orig s) :
    Keeps orig (State.stopCans s) := by
  unfold State.stopCans; try dsimp only
  repeat' (with_reducible first | exact hb | apply State.setUnit_keeps | apply keeps_foldl | apply keeps_elim | (intro (t : State); have hb := Keeps.refl t) | intro _ | split | rw [id] | simp only [↓keeps_mk])

theorem State.linksDown_keeps {orig : State} (s : State) (hb : Keeps orig s) :
    Keeps orig (State.linksDown s) := by
  unfold State.linksDown; try dsimp only
  repeat' (with_reducible first | exact hb | apply State.putFld_keeps | apply keeps_foldl | apply keeps_elim | (intro (t : State); have hb := Keeps.refl t) | intro _ | split | rw [id] | simp only [↓keeps_mk])

theorem State.safeOutputs_keeps {orig : State} (s : State) (hb : Keeps orig s) :
    Keeps orig (State.safeOutputs s) := by
  unfold State.safeOutputs; try dsimp only
  repeat' (with_reducible first | exact hb | apply State.linksDown_keeps | apply State.stopCans_keeps | apply State.tripAxes_keeps | apply keeps_foldl | apply keeps_elim | (intro (t : State); have hb := Keeps.refl t) | intro _ | split | rw [id] | simp only [↓keeps_mk])

theorem State.tearDownOthers_keeps {orig : State} (s : State) (st : Nat) (hb : Keeps orig s) :
    Keeps orig (State.tearDownOthers s st) := by
  unfold State.tearDownOthers; try dsimp only
  repeat' (with_reducible first | exact hb | apply State.teardown_keeps | apply keeps_foldl | apply keeps_elim | (intro (t : State); have hb := Keeps.refl t) | intro _ | split | rw [id] | simp only [↓keeps_mk])

theorem State.enterSafe_keeps {orig : State} (s : State) (cause : Nat) (hb : Keeps orig s) :
    Keeps orig (State.enterSafe s cause) := by
  unfold State.enterSafe; try dsimp only
  repeat' (with_reducible first | exact hb | apply State.anyEvent_keeps | apply State.putFld_keeps | apply State.showSafeFault_keeps | apply State.tearDownOthers_keeps | apply State.safeOutputs_keeps | apply keeps_foldl | apply keeps_elim | (intro (t : State); have hb := Keeps.refl t) | intro _ | split | rw [id] | simp only [↓keeps_mk])

theorem State.haltPair_keeps {orig : State} (s : State) (pair : Nat) (cause : Nat) (hb : Keeps orig s) :
    Keeps orig (State.haltPair s pair cause) := by
  unfold State.haltPair; try dsimp only
  repeat' (with_reducible first | exact hb | apply State.enterSafe_keeps | apply State.putFld_keeps | apply keeps_foldl | apply keeps_elim | (intro (t : State); have hb := Keeps.refl t) | intro _ | split | rw [id] | simp only [↓keeps_mk])

theorem execLockstepMismatch_keeps {orig : State} (pair : Nat) (s : State) (hb : Keeps orig s) :
    KeepsOut orig (execLockstepMismatch pair s) := by
  unfold execLockstepMismatch; try dsimp only
  repeat' (with_reducible first | exact hb | apply KeepsOut.next | apply State.haltPair_keeps | apply keeps_foldl | apply keeps_elim | (intro (t : State); have hb := Keeps.refl t) | intro _ | split | rw [id] | simp only [↓keeps_mk])

theorem execSafeHeartbeatMiss_keeps {orig : State} (pair : Nat) (s : State) (hb : Keeps orig s) :
    KeepsOut orig (execSafeHeartbeatMiss pair s) := by
  unfold execSafeHeartbeatMiss; try dsimp only
  repeat' (with_reducible first | exact hb | apply KeepsOut.next | apply State.haltPair_keeps | apply keeps_foldl | apply keeps_elim | (intro (t : State); have hb := Keeps.refl t) | intro _ | split | rw [id] | simp only [↓keeps_mk])

theorem State.showDogs_keeps {orig : State} (s : State) (hb : Keeps orig s) :
    Keeps orig (State.showDogs s) := by
  unfold State.showDogs; try dsimp only
  repeat' (with_reducible first | exact hb | apply State.putFld_keeps | apply keeps_foldl | apply keeps_elim | (intro (t : State); have hb := Keeps.refl t) | intro _ | split | rw [id] | simp only [↓keeps_mk])

theorem State.wdOpen_keeps {orig : State} (s : State) (k : Nat) (hb : Keeps orig s) :
    Keeps orig (State.wdOpen s k) := by
  unfold State.wdOpen; try dsimp only
  repeat' (with_reducible first | exact hb | apply State.putFld_keeps | apply keeps_foldl | apply keeps_elim | (intro (t : State); have hb := Keeps.refl t) | intro _ | split | rw [id] | simp only [↓keeps_mk])

theorem State.wdClose_keeps {orig : State} (s : State) (k : Nat) (hb : Keeps orig s) :
    Keeps orig (State.wdClose s k) := by
  unfold State.wdClose; try dsimp only
  repeat' (with_reducible first | exact hb | apply State.putFld_keeps | apply keeps_foldl | apply keeps_elim | (intro (t : State); have hb := Keeps.refl t) | intro _ | split | rw [id] | simp only [↓keeps_mk])

theorem State.wdRecord_keeps {orig : State} (s : State) (k : Nat) (kind : Nat) (time : Nat) (hb : Keeps orig s) :
    Keeps orig (State.wdRecord s k kind time) := by
  unfold State.wdRecord; try dsimp only
  repeat' (with_reducible first | exact hb | apply State.setReg_keeps | apply State.emit_keeps | apply State.addFld_keeps | apply State.putFld_keeps | apply keeps_foldl | apply keeps_elim | (intro (t : State); have hb := Keeps.refl t) | intro _ | split | rw [id] | simp only [↓keeps_mk])

theorem State.wdBlock_keeps {orig : State} (s : State) (k : Nat) (hb : Keeps orig s) :
    Keeps orig (State.wdBlock s k) := by
  unfold State.wdBlock; try dsimp only
  repeat' (with_reducible first | exact hb | apply keeps_foldl | apply keeps_elim | (intro (t : State); have hb := Keeps.refl t) | intro _ | split | rw [id] | simp only [↓keeps_mk])

theorem State.wdApply_keeps {orig : State} (s : State) (k : Nat) (react : Nat) (hb : Keeps orig s) :
    Keeps orig (State.wdApply s k react) := by
  unfold State.wdApply; try dsimp only
  repeat' (with_reducible first | exact hb | apply State.signal_keeps | apply State.teardown_keeps | apply State.wdBlock_keeps | apply State.teardownPartition_keeps | apply State.tripAxes_keeps | apply State.enterSafe_keeps | apply keeps_foldl | apply keeps_elim | (intro (t : State); have hb := Keeps.refl t) | intro _ | split | rw [id] | simp only [↓keeps_mk])

theorem State.wdMiss_keeps {orig : State} (s : State) (k : Nat) (kind : Nat) (hb : Keeps orig s) :
    Keeps orig (State.wdMiss s k kind) := by
  unfold State.wdMiss; try dsimp only
  repeat' (with_reducible first | exact hb | apply State.wdRecord_keeps | apply State.wdClose_keeps | apply State.wdApply_keeps | apply keeps_foldl | apply keeps_elim | (intro (t : State); have hb := Keeps.refl t) | intro _ | split | rw [id] | simp only [↓keeps_mk])

theorem State.wdStartEvent_keeps {orig : State} (s : State) (k : Nat) (hb : Keeps orig s) :
    Keeps orig (State.wdStartEvent s k) := by
  unfold State.wdStartEvent; try dsimp only
  repeat' (with_reducible first | exact hb | apply State.wdOpen_keeps | apply State.wdRecord_keeps | apply State.wdClose_keeps | apply State.wdApply_keeps | apply keeps_foldl | apply keeps_elim | (intro (t : State); have hb := Keeps.refl t) | intro _ | split | rw [id] | simp only [↓keeps_mk])

theorem State.wdStray_keeps {orig : State} (s : State) (k : Nat) (hb : Keeps orig s) :
    Keeps orig (State.wdStray s k) := by
  unfold State.wdStray; try dsimp only
  repeat' (with_reducible first | exact hb | apply State.addFld_keeps | apply State.event_keeps | apply keeps_foldl | apply keeps_elim | (intro (t : State); have hb := Keeps.refl t) | intro _ | split | rw [id] | simp only [↓keeps_mk])

theorem State.wdKickEvent_keeps {orig : State} (s : State) (k : Nat) (hb : Keeps orig s) :
    Keeps orig (State.wdKickEvent s k) := by
  unfold State.wdKickEvent; try dsimp only
  repeat' (with_reducible first | exact hb | apply State.wdStray_keeps | apply State.wdMiss_keeps | apply State.putFld_keeps | apply State.wdClose_keeps | apply keeps_foldl | apply keeps_elim | (intro (t : State); have hb := Keeps.refl t) | intro _ | split | rw [id] | simp only [↓keeps_mk])

theorem State.kickFirst_keeps {orig : State} (s : State) (k : Nat) (hb : Keeps orig s) :
    Keeps orig (State.kickFirst s k) := by
  unfold State.kickFirst; try dsimp only
  repeat' (with_reducible first | exact hb | apply State.wdKickEvent_keeps | apply State.undue_keeps | apply keeps_foldl | apply keeps_elim | (intro (t : State); have hb := Keeps.refl t) | intro _ | split | rw [id] | simp only [↓keeps_mk])

theorem State.wdWrite_keeps {orig : State} (s : State) (k : Nat) (w : RegWrite) (hb : Keeps orig s) :
    Keeps orig (State.wdWrite s k w) := by
  unfold State.wdWrite; try dsimp only
  repeat' (with_reducible first | exact hb | apply State.wdKickEvent_keeps | apply State.kickFirst_keeps | apply State.regWrite_keeps | apply State.wdStartEvent_keeps | apply keeps_foldl | apply keeps_elim | (intro (t : State); have hb := Keeps.refl t) | intro _ | split | rw [id] | simp only [↓keeps_mk])

theorem execWdStart_keeps {orig : State} (k : Nat) (src : WdSource) (s : State) (hb : Keeps orig s) :
    KeepsOut orig (execWdStart k src s) := by
  unfold execWdStart; try dsimp only
  repeat' (with_reducible first | exact hb | apply KeepsOut.next | apply State.wdWrite_keeps | apply State.wdStartEvent_keeps | apply State.kickFirst_keeps | apply State.undue_keeps | apply keeps_foldl | apply keeps_elim | (intro (t : State); have hb := Keeps.refl t) | intro _ | split | rw [id] | simp only [↓keeps_mk])

theorem execWdKick_keeps {orig : State} (k : Nat) (src : WdSource) (s : State) (hb : Keeps orig s) :
    KeepsOut orig (execWdKick k src s) := by
  unfold execWdKick; try dsimp only
  repeat' (with_reducible first | exact hb | apply KeepsOut.next | apply State.wdWrite_keeps | apply State.wdKickEvent_keeps | apply State.undue_keeps | apply keeps_foldl | apply keeps_elim | (intro (t : State); have hb := Keeps.refl t) | intro _ | split | rw [id] | simp only [↓keeps_mk])

theorem State.wdExpire_keeps {orig : State} (s : State) (k : Nat) (hb : Keeps orig s) :
    Keeps orig (State.wdExpire s k) := by
  unfold State.wdExpire; try dsimp only
  repeat' (with_reducible first | exact hb | apply State.wdMiss_keeps | apply keeps_foldl | apply keeps_elim | (intro (t : State); have hb := Keeps.refl t) | intro _ | split | rw [id] | simp only [↓keeps_mk])

theorem State.expireDogs_keeps {orig : State} (s : State) (hb : Keeps orig s) :
    Keeps orig (State.expireDogs s) := by
  unfold State.expireDogs; try dsimp only
  repeat' (with_reducible first | exact hb | apply State.wdExpire_keeps | apply keeps_foldl | apply keeps_elim | (intro (t : State); have hb := Keeps.refl t) | intro _ | split | rw [id] | simp only [↓keeps_mk])

theorem execWdLate_keeps {orig : State} (k : Nat) (s : State) (hb : Keeps orig s) :
    KeepsOut orig (execWdLate k s) := by
  unfold execWdLate; try dsimp only
  repeat' (with_reducible first | exact hb | apply KeepsOut.next | apply State.wdExpire_keeps | apply keeps_foldl | apply keeps_elim | (intro (t : State); have hb := Keeps.refl t) | intro _ | split | rw [id] | simp only [↓keeps_mk])

theorem State.tbFail_keeps {orig : State} (s : State) (c : Nat) (hb : Keeps orig s) :
    Keeps orig (State.tbFail s c) := by
  unfold State.tbFail; try dsimp only
  repeat' (with_reducible first | exact hb | apply State.event_keeps | apply State.setReg_keeps | apply State.enterSafe_keeps | apply keeps_foldl | apply keeps_elim | (intro (t : State); have hb := Keeps.refl t) | intro _ | split | rw [id] | simp only [↓keeps_mk])

theorem State.tbRotation_keeps {orig : State} (s : State) (hb : Keeps orig s) :
    Keeps orig (State.tbRotation s) := by
  unfold State.tbRotation; try dsimp only
  repeat' (with_reducible first | exact hb | apply State.addFld_keeps | apply keeps_foldl | apply keeps_elim | (intro (t : State); have hb := Keeps.refl t) | intro _ | split | rw [id] | simp only [↓keeps_mk])

theorem State.tbTested_keeps {orig : State} (s : State) (c : Nat) (hb : Keeps orig s) :
    Keeps orig (State.tbTested s c) := by
  unfold State.tbTested; try dsimp only
  repeat' (with_reducible first | exact hb | apply State.tbRotation_keeps | apply keeps_foldl | apply keeps_elim | (intro (t : State); have hb := Keeps.refl t) | intro _ | split | rw [id] | simp only [↓keeps_mk])

theorem execTourbillonSlot_keeps {orig : State} (x : TbSlot) (s : State) (hb : Keeps orig s) :
    KeepsOut orig (execTourbillonSlot x s) := by
  unfold execTourbillonSlot; try dsimp only
  repeat' (with_reducible first | exact hb | apply KeepsOut.next | apply State.putFld_keeps | apply State.tbTested_keeps | apply State.tbFail_keeps | apply keeps_foldl | apply keeps_elim | (intro (t : State); have hb := Keeps.refl t) | intro _ | split | rw [id] | simp only [↓keeps_mk])

theorem execSafeTbLate_keeps {orig : State} (s : State) (hb : Keeps orig s) :
    KeepsOut orig (execSafeTbLate s) := by
  unfold execSafeTbLate; try dsimp only
  repeat' (with_reducible first | exact hb | apply KeepsOut.next | apply State.anyEvent_keeps | apply State.enterSafe_keeps | apply keeps_foldl | apply keeps_elim | (intro (t : State); have hb := Keeps.refl t) | intro _ | split | rw [id] | simp only [↓keeps_mk])

theorem execSafeEnter_keeps {orig : State} (p : Packet) (s : State) (hb : Keeps orig s) :
    KeepsOut orig (execSafeEnter p s) := by
  unfold execSafeEnter; try dsimp only
  repeat' (with_reducible first | exact hb | apply KeepsOut.next | apply runPacket_keeps | apply doneBody_keeps | apply State.enterSafe_keeps | apply keeps_foldl | apply keeps_elim | (intro (t : State); have hb := Keeps.refl t) | intro _ | split | rw [id] | simp only [↓keeps_mk])

end Sys2Proof.Machine
end

