-- ==== Sys2Proof/Laws/Keeps/Security.lean ====
section
/-! SUPPORT. What the operations of Machine/Security.lean keep (Laws/Keeps.lean). -/

set_option linter.unusedTactic false
set_option linter.unreachableTactic false

namespace Sys2Proof.Machine

theorem State.showOtp_keeps {orig : State} (s : State) (hb : Keeps orig s) :
    Keeps orig (State.showOtp s) := by
  unfold State.showOtp; try dsimp only
  repeat' (with_reducible first | exact hb | apply State.putFld_keeps | apply keeps_foldl | apply keeps_elim | (intro (t : State); have hb := Keeps.refl t) | intro _ | split | rw [id] | simp only [↓keeps_mk])

theorem State.setOtp_keeps {base : State} (s : State) (o : Otp) (hb : Keeps base s) (ho : OtpGrows s.chip.otp o) :
    Keeps base (State.setOtp s o) :=
  State.showOtp_keeps _ ⟨hb.1, hb.2, hb.3.trans ho, hb.4, hb.5⟩

theorem writeSlot_kept (l : List (Option Nat)) (i h : Nat) : slotsKept l (writeSlot l i h).2 := by
  unfold writeSlot
  split
  · exact fun _ _ e => e
  · rename_i n
    intro j x e
    by_cases hj : i = j
    · subst hj; rw [e] at n; simp at n
    · simpa [List.getD_eq_getElem?_getD, List.getElem?_set_ne hj] using e

theorem revokeSlot_grows (l : List (Option Nat)) (r i j : Nat) (h : r.testBit j = true) : (revokeSlot l r i).2.testBit j = true := by
  unfold revokeSlot
  repeat' split
  · exact h
  · exact h
  · rw [Nat.testBit_or, h, Bool.true_or]

/-- R450: programming an item only adds to OTP. -/
theorem otpItem_grows (o : Otp) (item i h : Nat) : OtpGrows o (otpItem o item i h).2 := by
  unfold otpItem
  split
  · exact { OtpGrows.refl o with mldsa := writeSlot_kept _ _ _ }
  · exact { OtpGrows.refl o with ecdsa := writeSlot_kept _ _ _ }
  · split
    · exact OtpGrows.refl o
    · rename_i n
      exact { OtpGrows.refl o with dbgMldsa := fun x e => by rw [e] at n; simp at n }
  · split
    · exact OtpGrows.refl o
    · rename_i n
      exact { OtpGrows.refl o with dbgEcdsa := fun x e => by rw [e] at n; simp at n }
  · exact { OtpGrows.refl o with mldsaRevoked := fun _ e => revokeSlot_grows _ _ _ _ e }
  · exact { OtpGrows.refl o with ecdsaRevoked := fun _ e => revokeSlot_grows _ _ _ _ e }
  · split
    · exact OtpGrows.refl o
    · exact { OtpGrows.refl o with secured := fun _ => rfl }
  · exact OtpGrows.refl o

/-- R451: advancing only raises the rollback counter. -/
theorem State.advanced_grows (s : State) : OtpGrows s.chip.otp { s.chip.otp with rollback := s.advanced } :=
  { OtpGrows.refl s.chip.otp with rollback := Nat.le_max_left _ _ }

theorem execSecOtpprog_keeps {base : State} (w : RegWrite) (s : State) (hb : Keeps base s) :
    KeepsOut base (execSecOtpprog w s) := by
  apply KeepsOut.next
  apply State.regWrite_keeps _ _ _ _ hb
  split
  · exact State.putFld_keeps _ _ _ _ _ hb
  · exact State.putFld_keeps _ _ _ _ _ (State.setOtp_keeps _ _ hb (otpItem_grows _ _ _ _))

theorem execSecAdvance_keeps {base : State} (p : Packet) (s : State) (hb : Keeps base s) :
    KeepsOut base (execSecAdvance p s) := by
  apply KeepsOut.next
  exact runPacket_keeps _ _ _ _ _ (fun _ t => State.finish_keeps _ _ _ _ _
    (State.setOtp_keeps _ _ (Keeps.refl t) (State.advanced_grows t))) hb

theorem State.renewKey_keeps {orig : State} (s : State) (p : Nat) (hb : Keeps orig s) :
    Keeps orig (State.renewKey s p) := by
  unfold State.renewKey; try dsimp only
  repeat' (with_reducible first | exact hb | apply keeps_foldl | apply keeps_elim | (intro (t : State); have hb := Keeps.refl t) | intro _ | split | rw [id] | simp only [↓keeps_mk])

theorem execSecRenewKey_keeps {orig : State} (p : Packet) (s : State) (hb : Keeps orig s) :
    KeepsOut orig (execSecRenewKey p s) := by
  unfold execSecRenewKey; try dsimp only
  repeat' (with_reducible first | exact hb | apply KeepsOut.next | apply runPacket_keeps | apply doneBody_keeps | apply State.anyEvent_keeps | apply State.renewKey_keeps | apply keeps_foldl | apply keeps_elim | (intro (t : State); have hb := Keeps.refl t) | intro _ | split | rw [id] | simp only [↓keeps_mk])

theorem State.dbgResult_keeps {orig : State} (s : State) (r : Nat) (hb : Keeps orig s) :
    Keeps orig (State.dbgResult s r) := by
  unfold State.dbgResult; try dsimp only
  repeat' (with_reducible first | exact hb | apply State.putFld_keeps | apply keeps_foldl | apply keeps_elim | (intro (t : State); have hb := Keeps.refl t) | intro _ | split | rw [id] | simp only [↓keeps_mk])

theorem State.newNonce_keeps {orig : State} (s : State) (hb : Keeps orig s) :
    Keeps orig (State.newNonce s) := by
  unfold State.newNonce; try dsimp only
  repeat' (with_reducible first | exact hb | apply State.drawFree_keeps | apply State.setReg_keeps | apply keeps_foldl | apply keeps_elim | (intro (t : State); have hb := Keeps.refl t) | intro _ | split | rw [id] | simp only [↓keeps_mk])

theorem execChallenge_keeps {orig : State} (w : RegWrite) (s : State) (hb : Keeps orig s) :
    KeepsOut orig (execChallenge w s) := by
  unfold execChallenge; try dsimp only
  repeat' (with_reducible first | exact hb | apply KeepsOut.next | apply State.regWrite_keeps | apply State.dbgResult_keeps | apply State.newNonce_keeps | apply keeps_foldl | apply keeps_elim | (intro (t : State); have hb := Keeps.refl t) | intro _ | split | rw [id] | simp only [↓keeps_mk])

theorem State.dbgDeny_keeps {orig : State} (s : State) (r : Nat) (hb : Keeps orig s) :
    Keeps orig (State.dbgDeny s r) := by
  unfold State.dbgDeny; try dsimp only
  repeat' (with_reducible first | exact hb | apply State.dbgResult_keeps | apply State.anyEvent_keeps | apply State.addFld_keeps | apply keeps_foldl | apply keeps_elim | (intro (t : State); have hb := Keeps.refl t) | intro _ | split | rw [id] | simp only [↓keeps_mk])

theorem State.dbgGrant_keeps {orig : State} (s : State) (level : Nat) (part : Nat) (hb : Keeps orig s) :
    Keeps orig (State.dbgGrant s level part) := by
  unfold State.dbgGrant; try dsimp only
  repeat' (with_reducible first | exact hb | apply State.dbgResult_keeps | apply State.anyEvent_keeps | apply State.putFld_keeps | apply keeps_foldl | apply keeps_elim | (intro (t : State); have hb := Keeps.refl t) | intro _ | split | rw [id] | simp only [↓keeps_mk])

theorem execRespond_keeps {orig : State} (w : RegWrite) (s : State) (hb : Keeps orig s) :
    KeepsOut orig (execRespond w s) := by
  unfold execRespond; try dsimp only
  repeat' (with_reducible first | exact hb | apply KeepsOut.next | apply State.regWrite_keeps | apply State.dbgResult_keeps | apply State.dbgDeny_keeps | apply State.dbgGrant_keeps | apply keeps_foldl | apply keeps_elim | (intro (t : State); have hb := Keeps.refl t) | intro _ | split | rw [id] | simp only [↓keeps_mk])

theorem execLock_keeps {orig : State} (w : RegWrite) (s : State) (hb : Keeps orig s) :
    KeepsOut orig (execLock w s) := by
  unfold execLock; try dsimp only
  repeat' (with_reducible first | exact hb | apply KeepsOut.next | apply State.regWrite_keeps | apply State.dbgResult_keeps | apply State.putFld_keeps | apply keeps_foldl | apply keeps_elim | (intro (t : State); have hb := Keeps.refl t) | intro _ | split | rw [id] | simp only [↓keeps_mk])

end Sys2Proof.Machine
end

