-- ==== Sys2Proof/Laws/Keeps/Profile.lean ====
section
/-! SUPPORT. What the operations of Machine/Profile.lean keep (Laws/Keeps.lean). -/

set_option linter.unusedTactic false
set_option linter.unreachableTactic false

namespace Sys2Proof.Machine

theorem applyLoads_keeps {orig : State} (s : State) (x1 : List (Nat × Nat)) (hb : Keeps orig s) :
    Keeps orig (applyLoads s x1) := by
  induction x1 generalizing orig s with
  | nil => exact hb
  | cons e l ih =>
    unfold applyLoads; try dsimp only
    repeat' (with_reducible first | exact hb | apply State.setReg_keeps | apply ih | apply keeps_foldl | apply keeps_elim | (intro (t : State); have hb := Keeps.refl t) | intro _ | split | rw [id] | simp only [↓keeps_mk])

theorem State.powerLimits_keeps {orig : State} (s : State) (n : Nat) (hb : Keeps orig s) :
    Keeps orig (State.powerLimits s n) := by
  unfold State.powerLimits; try dsimp only
  repeat' (with_reducible first | exact hb | apply State.loadRegs_keeps | apply keeps_foldl | apply keeps_elim | (intro (t : State); have hb := Keeps.refl t) | intro _ | split | rw [id] | simp only [↓keeps_mk])

theorem State.fixedFields_keeps {orig : State} (s : State) (hb : Keeps orig s) :
    Keeps orig (State.fixedFields s) := by
  unfold State.fixedFields; try dsimp only
  repeat' (with_reducible first | exact hb | apply State.putFld_keeps | apply State.setFlag_keeps | apply keeps_foldl | apply keeps_elim | (intro (t : State); have hb := Keeps.refl t) | intro _ | split | rw [id] | simp only [↓keeps_mk])

theorem State.loaded_keeps {orig : State} (s : State) (power : Nat) (x : Settings) (hb : Keeps orig s) :
    Keeps orig (State.loaded s power x) := by
  unfold State.loaded; try dsimp only
  repeat' (with_reducible first | exact hb | apply State.fixedFields_keeps | apply applyLoads_keeps | apply State.setReg_keeps | apply State.putFld_keeps | apply State.powerLimits_keeps | apply keeps_foldl | apply keeps_elim | (intro (t : State); have hb := Keeps.refl t) | intro _ | split | rw [id] | simp only [↓keeps_mk])

end Sys2Proof.Machine
end

