-- ==== Sys2Proof/Laws/Keeps/Camera.lean ====
section
/-! SUPPORT. What the operations of Machine/Camera.lean keep (Laws/Keeps.lean). -/

set_option linter.unusedTactic false
set_option linter.unreachableTactic false

namespace Sys2Proof.Machine

theorem State.setCamCtx_keeps {orig : State} (s : State) (k : Nat) (c : CamCtx) (hb : Keeps orig s) :
    Keeps orig (State.setCamCtx s k c) := by
  unfold State.setCamCtx; try dsimp only
  repeat' (with_reducible first | exact hb | apply keeps_foldl | apply keeps_elim | (intro (t : State); have hb := Keeps.refl t) | intro _ | split | rw [id] | simp only [↓keeps_mk])

theorem State.setSensor_keeps {orig : State} (s : State) (n : Nat) (q : Sensor) (hb : Keeps orig s) :
    Keeps orig (State.setSensor s n q) := by
  unfold State.setSensor; try dsimp only
  repeat' (with_reducible first | exact hb | apply keeps_foldl | apply keeps_elim | (intro (t : State); have hb := Keeps.refl t) | intro _ | split | rw [id] | simp only [↓keeps_mk])

theorem State.truncEvent_keeps {orig : State} (s : State) (k : Nat) (hb : Keeps orig s) :
    Keeps orig (State.truncEvent s k) := by
  unfold State.truncEvent; try dsimp only
  repeat' (with_reducible first | exact hb | apply State.anyEvent_keeps | apply keeps_foldl | apply keeps_elim | (intro (t : State); have hb := Keeps.refl t) | intro _ | split | rw [id] | simp only [↓keeps_mk])

theorem State.truncate_keeps {orig : State} (s : State) (k : Nat) (cause : Nat) (hb : Keeps orig s) :
    Keeps orig (State.truncate s k cause) := by
  unfold State.truncate; try dsimp only
  repeat' (with_reducible first | exact hb | apply State.truncEvent_keeps | apply State.addFld_keeps | apply State.setCamCtx_keeps | apply keeps_foldl | apply keeps_elim | (intro (t : State); have hb := Keeps.refl t) | intro _ | split | rw [id] | simp only [↓keeps_mk])

theorem State.applyEffects_keeps {orig : State} (s : State) (n : Nat) (hb : Keeps orig s) :
    Keeps orig (State.applyEffects s n) := by
  unfold State.applyEffects; try dsimp only
  repeat' (with_reducible first | exact hb | apply State.putFld_keeps | apply State.setSensor_keeps | apply keeps_foldl | apply keeps_elim | (intro (t : State); have hb := Keeps.refl t) | intro _ | split | rw [id] | simp only [↓keeps_mk])

theorem State.countFrame_keeps {orig : State} (s : State) (n : Nat) (num : Nat) (hb : Keeps orig s) :
    Keeps orig (State.countFrame s n num) := by
  unfold State.countFrame; try dsimp only
  repeat' (with_reducible first | exact hb | apply State.putFld_keeps | apply State.setSensor_keeps | apply State.applyEffects_keeps | apply State.anyEvent_keeps | apply keeps_foldl | apply keeps_elim | (intro (t : State); have hb := Keeps.refl t) | intro _ | split | rw [id] | simp only [↓keeps_mk])

theorem State.takeShadow_keeps {orig : State} (s : State) (k : Nat) (hb : Keeps orig s) :
    Keeps orig (State.takeShadow s k) := by
  unfold State.takeShadow; try dsimp only
  repeat' (with_reducible first | exact hb | apply State.putFld_keeps | apply State.setCamCtx_keeps | apply keeps_foldl | apply keeps_elim | (intro (t : State); have hb := Keeps.refl t) | intro _ | split | rw [id] | simp only [↓keeps_mk])

theorem State.startFrame_keeps {orig : State} (s : State) (rx : Nat) (num : Nat) (k : Nat) (hb : Keeps orig s) :
    Keeps orig (State.startFrame s rx num k) := by
  unfold State.startFrame; try dsimp only
  repeat' (with_reducible first | exact hb | apply State.truncate_keeps | apply State.setCamCtx_keeps | apply State.takeShadow_keeps | apply State.acceptUnit_keeps | apply State.anyEvent_keeps | apply State.addFld_keeps | apply keeps_foldl | apply keeps_elim | (intro (t : State); have hb := Keeps.refl t) | intro _ | split | rw [id] | simp only [↓keeps_mk])

theorem State.eccCorrected_keeps {orig : State} (s : State) (rx : Nat) (on : Bool) (hb : Keeps orig s) :
    Keeps orig (State.eccCorrected s rx on) := by
  unfold State.eccCorrected; try dsimp only
  repeat' (with_reducible first | exact hb | apply State.addFld_keeps | apply keeps_foldl | apply keeps_elim | (intro (t : State); have hb := Keeps.refl t) | intro _ | split | rw [id] | simp only [↓keeps_mk])

theorem execCsi2FrameStart_keeps {orig : State} (x : ShortPacket) (s : State) (hb : Keeps orig s) :
    KeepsOut orig (execCsi2FrameStart x s) := by
  unfold execCsi2FrameStart; try dsimp only
  repeat' (with_reducible first | exact hb | apply KeepsOut.next | apply State.eccCorrected_keeps | apply State.acceptUnit_keeps | apply State.countFrame_keeps | apply State.startFrame_keeps | apply keeps_foldl | apply keeps_elim | (intro (t : State); have hb := Keeps.refl t) | intro _ | split | rw [id] | simp only [↓keeps_mk])

theorem State.camWrite_keeps {orig : State} (s : State) (k : Nat) (a : Nat) (bs : List Byte) (hb : Keeps orig s) :
    Keeps orig (State.camWrite s k a bs) := by
  unfold State.camWrite; try dsimp only
  repeat' (with_reducible first | exact hb | apply State.keyed_keeps | apply State.writeBytes_keeps | apply State.recordDenial_keeps | apply keeps_foldl | apply keeps_elim | (intro (t : State); have hb := Keeps.refl t) | intro _ | split | rw [id] | simp only [↓keeps_mk])

theorem State.readRef_keeps {orig : State} (s : State) (k : Nat) (f : Nat) (hb : Keeps orig s) :
    Keeps orig (State.readRef s k f) := by
  unfold State.readRef; try dsimp only
  repeat' (with_reducible first | exact hb | apply State.charge_keeps | apply State.recordDenial_keeps | apply keeps_foldl | apply keeps_elim | (intro (t : State); have hb := Keeps.refl t) | intro _ | split | rw [id] | simp only [↓keeps_mk])

theorem State.camRows_keeps {orig : State} (s : State) (k : Nat) (f : Nat) (rows : Planar → List (Nat × List Byte)) (hb : Keeps orig s) :
    Keeps orig (State.camRows s k f rows) := by
  unfold State.camRows; try dsimp only
  repeat' (with_reducible first | exact hb | apply State.camWrite_keeps | apply State.readRef_keeps | apply keeps_foldl | apply keeps_elim | (intro (t : State); have hb := Keeps.refl t) | intro _ | split | rw [id] | simp only [↓keeps_mk])

theorem State.takeLine_keeps {orig : State} (s : State) (k : Nat) (dt : Nat) (f : CamFrame) (line : List Byte) (hb : Keeps orig s) :
    Keeps orig (State.takeLine s k dt f line) := by
  unfold State.takeLine; try dsimp only
  repeat' (with_reducible first | exact hb | apply State.setCamCtx_keeps | apply State.camRows_keeps | apply keeps_foldl | apply keeps_elim | (intro (t : State); have hb := Keeps.refl t) | intro _ | split | rw [id] | simp only [↓keeps_mk])

theorem State.longPacket_keeps {orig : State} (s : State) (k : Nat) (f : CamFrame) (x : LongPacket) (hb : Keeps orig s) :
    Keeps orig (State.longPacket s k f x) := by
  unfold State.longPacket; try dsimp only
  repeat' (with_reducible first | exact hb | apply State.addFld_keeps | apply State.truncate_keeps | apply State.takeLine_keeps | apply keeps_foldl | apply keeps_elim | (intro (t : State); have hb := Keeps.refl t) | intro _ | split | rw [id] | simp only [↓keeps_mk])

theorem State.streamPacket_keeps {orig : State} (s : State) (k : Nat) (x : LongPacket) (hb : Keeps orig s) :
    Keeps orig (State.streamPacket s k x) := by
  unfold State.streamPacket; try dsimp only
  repeat' (with_reducible first | exact hb | apply State.addFld_keeps | apply State.longPacket_keeps | apply keeps_foldl | apply keeps_elim | (intro (t : State); have hb := Keeps.refl t) | intro _ | split | rw [id] | simp only [↓keeps_mk])

theorem execCsi2LongPacket_keeps {orig : State} (x : LongPacket) (s : State) (hb : Keeps orig s) :
    KeepsOut orig (execCsi2LongPacket x s) := by
  unfold execCsi2LongPacket; try dsimp only
  repeat' (with_reducible first | exact hb | apply KeepsOut.next | apply State.truncate_keeps | apply State.addFld_keeps | apply State.streamPacket_keeps | apply State.eccCorrected_keeps | apply keeps_foldl | apply keeps_elim | (intro (t : State); have hb := Keeps.refl t) | intro _ | split | rw [id] | simp only [↓keeps_mk])

theorem State.i3cWrite_keeps {orig : State} (s : State) (n : Nat) (g : Nat) (hb : Keeps orig s) :
    Keeps orig (State.i3cWrite s n g) := by
  unfold State.i3cWrite; try dsimp only
  repeat' (with_reducible first | exact hb | apply State.send_keeps | apply keeps_foldl | apply keeps_elim | (intro (t : State); have hb := Keeps.refl t) | intro _ | split | rw [id] | simp only [↓keeps_mk])

theorem State.issue_keeps {orig : State} (s : State) (n : Nat) (hb : Keeps orig s) :
    Keeps orig (State.issue s n) := by
  unfold State.issue; try dsimp only
  repeat' (with_reducible first | exact hb | apply State.setSensor_keeps | apply State.i3cWrite_keeps | apply keeps_foldl | apply keeps_elim | (intro (t : State); have hb := Keeps.refl t) | intro _ | split | rw [id] | simp only [↓keeps_mk])

theorem State.endFrame_keeps {orig : State} (s : State) (k : Nat) (hb : Keeps orig s) :
    Keeps orig (State.endFrame s k) := by
  unfold State.endFrame; try dsimp only
  repeat' (with_reducible first | exact hb | apply State.truncate_keeps | apply State.setCamCtx_keeps | apply keeps_foldl | apply keeps_elim | (intro (t : State); have hb := Keeps.refl t) | intro _ | split | rw [id] | simp only [↓keeps_mk])

theorem execCsi2FrameEnd_keeps {orig : State} (x : ShortPacket) (s : State) (hb : Keeps orig s) :
    KeepsOut orig (execCsi2FrameEnd x s) := by
  unfold execCsi2FrameEnd; try dsimp only
  repeat' (with_reducible first | exact hb | apply KeepsOut.next | apply State.endFrame_keeps | apply State.eccCorrected_keeps | apply State.issue_keeps | apply keeps_foldl | apply keeps_elim | (intro (t : State); have hb := Keeps.refl t) | intro _ | split | rw [id] | simp only [↓keeps_mk])

theorem execFeTimeout_keeps {orig : State} (k : Nat) (s : State) (hb : Keeps orig s) :
    KeepsOut orig (execFeTimeout k s) := by
  unfold execFeTimeout; try dsimp only
  repeat' (with_reducible first | exact hb | apply KeepsOut.next | apply State.truncate_keeps | apply keeps_foldl | apply keeps_elim | (intro (t : State); have hb := Keeps.refl t) | intro _ | split | rw [id] | simp only [↓keeps_mk])

theorem State.commit_keeps {orig : State} (s : State) (n : Nat) (hb : Keeps orig s) :
    Keeps orig (State.commit s n) := by
  unfold State.commit; try dsimp only
  repeat' (with_reducible first | exact hb | apply State.setSensor_keeps | apply State.putFld_keeps | apply keeps_foldl | apply keeps_elim | (intro (t : State); have hb := Keeps.refl t) | intro _ | split | rw [id] | simp only [↓keeps_mk])

theorem execCamExpo_keeps {orig : State} (p : Packet) (s : State) (hb : Keeps orig s) :
    KeepsOut orig (execCamExpo p s) := by
  unfold execCamExpo; try dsimp only
  repeat' (with_reducible first | exact hb | apply KeepsOut.next | apply runPacket_keeps | apply State.commit_keeps | apply State.setReg_keeps | apply State.finish_keeps | apply keeps_foldl | apply keeps_elim | (intro (t : State); have hb := Keeps.refl t) | intro _ | split | rw [id] | simp only [↓keeps_mk])

theorem execCamExpoCommit_keeps {orig : State} (n : Nat) (w : RegWrite) (s : State) (hb : Keeps orig s) :
    KeepsOut orig (execCamExpoCommit n w s) := by
  unfold execCamExpoCommit; try dsimp only
  repeat' (with_reducible first | exact hb | apply KeepsOut.next | apply State.busErr_keeps | apply State.regWrite_keeps | apply State.commit_keeps | apply keeps_foldl | apply keeps_elim | (intro (t : State); have hb := Keeps.refl t) | intro _ | split | rw [id] | simp only [↓keeps_mk])

theorem State.issued_keeps {orig : State} (s : State) (n : Nat) (g : Nat) (frame : Nat) (hb : Keeps orig s) :
    Keeps orig (State.issued s n g frame) := by
  unfold State.issued; try dsimp only
  repeat' (with_reducible first | exact hb | apply State.setSensor_keeps | apply State.putFld_keeps | apply keeps_foldl | apply keeps_elim | (intro (t : State); have hb := Keeps.refl t) | intro _ | split | rw [id] | simp only [↓keeps_mk])

theorem execI3cWriteDone_keeps {orig : State} (n : Nat) (ok : Bool) (s : State) (hb : Keeps orig s) :
    KeepsOut orig (execI3cWriteDone n ok s) := by
  unfold execI3cWriteDone; try dsimp only
  repeat' (with_reducible first | exact hb | apply KeepsOut.next | apply State.issued_keeps | apply State.anyEvent_keeps | apply State.addFld_keeps | apply State.setSensor_keeps | apply State.i3cWrite_keeps | apply keeps_foldl | apply keeps_elim | (intro (t : State); have hb := Keeps.refl t) | intro _ | split | rw [id] | simp only [↓keeps_mk])

theorem State.writeLines_keeps {orig : State} (s : State) (k : Nat) (f : CamFrame) (limit : Nat) (hb : Keeps orig s) :
    Keeps orig (State.writeLines s k f limit) := by
  unfold State.writeLines; try dsimp only
  repeat' (with_reducible first | exact hb | apply State.camRows_keeps | apply keeps_foldl | apply keeps_elim | (intro (t : State); have hb := Keeps.refl t) | intro _ | split | rw [id] | simp only [↓keeps_mk])

theorem State.feed_keeps {orig : State} (s : State) (k : Nat) (i : Nat) (fed : Nat) (hb : Keeps orig s) :
    Keeps orig (State.feed s k i fed) := by
  unfold State.feed; try dsimp only
  repeat' (with_reducible first | exact hb | apply State.writeLines_keeps | apply State.setCamCtx_keeps | apply keeps_foldl | apply keeps_elim | (intro (t : State); have hb := Keeps.refl t) | intro _ | split | rw [id] | simp only [↓keeps_mk])

theorem execIspStrip_keeps {orig : State} (pipe : Nat) (s : State) (hb : Keeps orig s) :
    KeepsOut orig (execIspStrip pipe s) := by
  unfold execIspStrip; try dsimp only
  repeat' (with_reducible first | exact hb | apply KeepsOut.next | apply State.feed_keeps | apply keeps_foldl | apply keeps_elim | (intro (t : State); have hb := Keeps.refl t) | intro _ | split | rw [id] | simp only [↓keeps_mk])

theorem State.frameRecord_keeps {orig : State} (s : State) (k : Nat) (f : CamFrame) (hb : Keeps orig s) :
    Keeps orig (State.frameRecord s k f) := by
  unfold State.frameRecord; try dsimp only
  repeat' (with_reducible first | exact hb | apply State.signal_keeps | apply State.camWrite_keeps | apply keeps_foldl | apply keeps_elim | (intro (t : State); have hb := Keeps.refl t) | intro _ | split | rw [id] | simp only [↓keeps_mk])

theorem State.statistics_keeps {orig : State} (s : State) (k : Nat) (f : CamFrame) (hb : Keeps orig s) :
    Keeps orig (State.statistics s k f) := by
  unfold State.statistics; try dsimp only
  repeat' (with_reducible first | exact hb | apply State.setCamCtx_keeps | apply State.camWrite_keeps | apply keeps_foldl | apply keeps_elim | (intro (t : State); have hb := Keeps.refl t) | intro _ | split | rw [id] | simp only [↓keeps_mk])

theorem State.finishFrame_keeps {orig : State} (s : State) (k : Nat) (f : CamFrame) (hb : Keeps orig s) :
    Keeps orig (State.finishFrame s k f) := by
  unfold State.finishFrame; try dsimp only
  repeat' (with_reducible first | exact hb | apply State.frameRecord_keeps | apply State.statistics_keeps | apply State.setCamCtx_keeps | apply keeps_foldl | apply keeps_elim | (intro (t : State); have hb := Keeps.refl t) | intro _ | split | rw [id] | simp only [↓keeps_mk])

theorem State.endOldest_keeps {orig : State} (s : State) (k : Nat) (hb : Keeps orig s) :
    Keeps orig (State.endOldest s k) := by
  unfold State.endOldest; try dsimp only
  repeat' (with_reducible first | exact hb | apply State.finishFrame_keeps | apply State.feed_keeps | apply keeps_foldl | apply keeps_elim | (intro (t : State); have hb := Keeps.refl t) | intro _ | split | rw [id] | simp only [↓keeps_mk])

theorem execIspFrameDone_keeps {orig : State} (k : Nat) (s : State) (hb : Keeps orig s) :
    KeepsOut orig (execIspFrameDone k s) := by
  unfold execIspFrameDone; try dsimp only
  repeat' (with_reducible first | exact hb | apply KeepsOut.next | apply State.endOldest_keeps | apply keeps_foldl | apply keeps_elim | (intro (t : State); have hb := Keeps.refl t) | intro _ | split | rw [id] | simp only [↓keeps_mk])

theorem State.endFrames_keeps {orig : State} (s : State) (k : Nat) (hb : Keeps orig s) :
    Keeps orig (State.endFrames s k) := by
  unfold State.endFrames; try dsimp only
  repeat' (with_reducible first | exact hb | apply State.endOldest_keeps | apply State.truncate_keeps | apply keeps_foldl | apply keeps_elim | (intro (t : State); have hb := Keeps.refl t) | intro _ | split | rw [id] | simp only [↓keeps_mk])

theorem State.clearFrames_keeps {orig : State} (s : State) (k : Nat) (hb : Keeps orig s) :
    Keeps orig (State.clearFrames s k) := by
  unfold State.clearFrames; try dsimp only
  repeat' (with_reducible first | exact hb | apply State.setCamCtx_keeps | apply keeps_foldl | apply keeps_elim | (intro (t : State); have hb := Keeps.refl t) | intro _ | split | rw [id] | simp only [↓keeps_mk])

theorem ctxCommitBody_keeps {orig : State} (p : Packet) (ue : Option Nat) (id : Nat) (s : State) (hb : Keeps orig s) :
    Keeps orig (ctxCommitBody p ue id s) := by
  unfold ctxCommitBody; try dsimp only
  repeat' (with_reducible first | exact hb | apply State.chargePieces_keeps | apply State.finish_keeps | apply State.uncorrectable_keeps | apply State.putFld_keeps | apply State.setCamCtx_keeps | apply keeps_foldl | apply keeps_elim | (intro (t : State); have hb := Keeps.refl t) | intro _ | split | rw [id] | simp only [↓keeps_mk])

theorem execCtxCommit_keeps {orig : State} (p : Packet) (ue : Option Nat) (s : State) (hb : Keeps orig s) :
    KeepsOut orig (execCtxCommit p ue s) := by
  unfold execCtxCommit; try dsimp only
  repeat' (with_reducible first | exact hb | apply KeepsOut.next | apply runPacket_keeps | apply ctxCommitBody_keeps | apply keeps_foldl | apply keeps_elim | (intro (t : State); have hb := Keeps.refl t) | intro _ | split | rw [id] | simp only [↓keeps_mk])

theorem State.setFsync_keeps {orig : State} (s : State) (n : Nat) (high : Bool) (hb : Keeps orig s) :
    Keeps orig (State.setFsync s n high) := by
  unfold State.setFsync; try dsimp only
  repeat' (with_reducible first | exact hb | apply keeps_foldl | apply keeps_elim | (intro (t : State); have hb := Keeps.refl t) | intro _ | split | rw [id] | simp only [↓keeps_mk])

theorem execFsyncPulse_keeps {orig : State} (n : Nat) (rise : Bool) (s : State) (hb : Keeps orig s) :
    KeepsOut orig (execFsyncPulse n rise s) := by
  unfold execFsyncPulse; try dsimp only
  repeat' (with_reducible first | exact hb | apply KeepsOut.next | apply State.setFsync_keeps | apply keeps_foldl | apply keeps_elim | (intro (t : State); have hb := Keeps.refl t) | intro _ | split | rw [id] | simp only [↓keeps_mk])

theorem State.showFsync_keeps {orig : State} (s : State) (n : Nat) (was : Bool) (hb : Keeps orig s) :
    Keeps orig (State.showFsync s n was) := by
  unfold State.showFsync; try dsimp only
  repeat' (with_reducible first | exact hb | apply State.putFld_keeps | apply State.setFsync_keeps | apply keeps_foldl | apply keeps_elim | (intro (t : State); have hb := Keeps.refl t) | intro _ | split | rw [id] | simp only [↓keeps_mk])

end Sys2Proof.Machine
end

