-- ==== Sys2Proof/Laws/Keeps/Codec.lean ====
section
/-! SUPPORT. What the operations of Machine/Codec.lean keep (Laws/Keeps.lean). -/

set_option linter.unusedTactic false
set_option linter.unreachableTactic false

namespace Sys2Proof.Machine

theorem State.showCores_keeps {orig : State} (s : State) (hb : Keeps orig s) :
    Keeps orig (State.showCores s) := by
  unfold State.showCores; try dsimp only
  repeat' (with_reducible first | exact hb | apply State.putFld_keeps | apply keeps_foldl | apply keeps_elim | (intro (t : State); have hb := Keeps.refl t) | intro _ | split | rw [id] | simp only [↓keeps_mk])

theorem State.setDec_keeps {orig : State} (s : State) (d : DecCtx) (hb : Keeps orig s) :
    Keeps orig (State.setDec s d) := by
  unfold State.setDec; try dsimp only
  repeat' (with_reducible first | exact hb | apply keeps_foldl | apply keeps_elim | (intro (t : State); have hb := Keeps.refl t) | intro _ | split | rw [id] | simp only [↓keeps_mk])

theorem decCreateBody_keeps {orig : State} (p : Packet) (id : Nat) (s : State) (hb : Keeps orig s) :
    Keeps orig (decCreateBody p id s) := by
  unfold decCreateBody; try dsimp only
  repeat' (with_reducible first | exact hb | apply State.finish_keeps | apply State.showCores_keeps | apply State.setReg_keeps | apply keeps_foldl | apply keeps_elim | (intro (t : State); have hb := Keeps.refl t) | intro _ | split | rw [id] | simp only [↓keeps_mk])

theorem execDecCreate_keeps {orig : State} (p : Packet) (s : State) (hb : Keeps orig s) :
    KeepsOut orig (execDecCreate p s) := by
  unfold execDecCreate; try dsimp only
  repeat' (with_reducible first | exact hb | apply KeepsOut.next | apply runPacket_keeps | apply decCreateBody_keeps | apply keeps_foldl | apply keeps_elim | (intro (t : State); have hb := Keeps.refl t) | intro _ | split | rw [id] | simp only [↓keeps_mk])

theorem State.vidWrite_keeps {orig : State} (s : State) (part : Nat) (a : Nat) (bs : List Byte) (hb : Keeps orig s) :
    Keeps orig (State.vidWrite s part a bs) := by
  unfold State.vidWrite; try dsimp only
  repeat' (with_reducible first | exact hb | apply State.writeBytes_keeps | apply State.keyed_keeps | apply State.recordDenial_keeps | apply keeps_foldl | apply keeps_elim | (intro (t : State); have hb := Keeps.refl t) | intro _ | split | rw [id] | simp only [↓keeps_mk])

theorem State.vidRows_keeps {orig : State} (s : State) (part : Nat) (l : List (Nat × List Byte)) (hb : Keeps orig s) :
    Keeps orig (State.vidRows s part l) := by
  unfold State.vidRows; try dsimp only
  repeat' (with_reducible first | exact hb | apply State.vidWrite_keeps | apply keeps_foldl | apply keeps_elim | (intro (t : State); have hb := Keeps.refl t) | intro _ | split | rw [id] | simp only [↓keeps_mk])

theorem State.writePicture_keeps {orig : State} (s : State) (d : DecCtx) (slot : Nat) (bs : List Byte) (u : AccessUnit) (hb : Keeps orig s) :
    Keeps orig (State.writePicture s d slot bs u) := by
  unfold State.writePicture; try dsimp only
  repeat' (with_reducible first | exact hb | apply State.keyed_keeps | apply State.vidRows_keeps | apply keeps_foldl | apply keeps_elim | (intro (t : State); have hb := Keeps.refl t) | intro _ | split | rw [id] | simp only [↓keeps_mk])

theorem State.rejectUnit_keeps {orig : State} (s : State) (d : DecCtx) (id : Nat) (st : Nat) (result : Nat) (hb : Keeps orig s) :
    Keeps orig (State.rejectUnit s d id st result) := by
  unfold State.rejectUnit; try dsimp only
  repeat' (with_reducible first | exact hb | apply State.complete_keeps | apply State.addFld_keeps | apply State.putFld_keeps | apply State.setDec_keeps | apply keeps_foldl | apply keeps_elim | (intro (t : State); have hb := Keeps.refl t) | intro _ | split | rw [id] | simp only [↓keeps_mk])

theorem State.decodeInto_keeps {orig : State} (s : State) (d : DecCtx) (id : Nat) (slot : Nat) (bs : List Byte) (u : AccessUnit) (hb : Keeps orig s) :
    Keeps orig (State.decodeInto s d id slot bs u) := by
  unfold State.decodeInto; try dsimp only
  repeat' (with_reducible first | exact hb | apply State.writePicture_keeps | apply State.putFld_keeps | apply State.setDec_keeps | apply State.addReg_keeps | apply State.addFld_keeps | apply State.complete_keeps | apply State.anyEvent_keeps | apply keeps_foldl | apply keeps_elim | (intro (t : State); have hb := Keeps.refl t) | intro _ | split | rw [id] | simp only [↓keeps_mk])

theorem State.decodeUnit_keeps {orig : State} (s : State) (d : DecCtx) (id : Nat) (bs : List Byte) (u : AccessUnit) (hb : Keeps orig s) :
    Keeps orig (State.decodeUnit s d id bs u).1 := by
  unfold State.decodeUnit; try dsimp only
  repeat' (with_reducible first | exact hb | apply State.rejectUnit_keeps | apply State.setDec_keeps | apply State.anyEvent_keeps | apply State.decodeInto_keeps | apply keeps_foldl | apply keeps_elim | (intro (t : State); have hb := Keeps.refl t) | intro _ | split | rw [id] | simp only [↓keeps_mk])

theorem decodeWaiting_keeps {orig : State} (ctx : Nat) (x1 : Nat) (x2 : State) (hb : Keeps orig x2) :
    Keeps orig (decodeWaiting ctx x1 x2) := by
  induction x1 generalizing orig ctx x2 with
  | zero => exact hb
  | succ n ih =>
    unfold decodeWaiting; try dsimp only
    repeat' (with_reducible first | exact hb | apply State.decodeUnit_keeps | apply ih | apply keeps_foldl | apply keeps_elim | (intro (t : State); have hb := Keeps.refl t) | intro _ | split | rw [id] | simp only [↓keeps_mk])

theorem decDecodeBody_keeps {orig : State} (p : Packet) (u : AccessUnit) (id : Nat) (s : State) (hb : Keeps orig s) :
    Keeps orig (decDecodeBody p u id s) := by
  unfold decDecodeBody; try dsimp only
  repeat' (with_reducible first | exact hb | apply State.finish_keeps | apply decodeWaiting_keeps | apply State.setDec_keeps | apply keeps_foldl | apply keeps_elim | (intro (t : State); have hb := Keeps.refl t) | intro _ | split | rw [id] | simp only [↓keeps_mk])

theorem execDecDecode_keeps {orig : State} (p : Packet) (u : AccessUnit) (s : State) (hb : Keeps orig s) :
    KeepsOut orig (execDecDecode p u s) := by
  unfold execDecDecode; try dsimp only
  repeat' (with_reducible first | exact hb | apply KeepsOut.next | apply runPacket_keeps | apply decDecodeBody_keeps | apply keeps_foldl | apply keeps_elim | (intro (t : State); have hb := Keeps.refl t) | intro _ | split | rw [id] | simp only [↓keeps_mk])

theorem execDecResume_keeps {orig : State} (d : Nat) (s : State) (hb : Keeps orig s) :
    KeepsOut orig (execDecResume d s) := by
  unfold execDecResume; try dsimp only
  repeat' (with_reducible first | exact hb | apply KeepsOut.next | apply decodeWaiting_keeps | apply keeps_foldl | apply keeps_elim | (intro (t : State); have hb := Keeps.refl t) | intro _ | split | rw [id] | simp only [↓keeps_mk])

theorem decFlushBody_keeps {orig : State} (p : Packet) (order : List Nat) (id : Nat) (s : State) (hb : Keeps orig s) :
    Keeps orig (decFlushBody p order id s) := by
  unfold decFlushBody; try dsimp only
  repeat' (with_reducible first | exact hb | apply State.finish_keeps | apply State.setDec_keeps | apply keeps_foldl | apply keeps_elim | (intro (t : State); have hb := Keeps.refl t) | intro _ | split | rw [id] | simp only [↓keeps_mk])

theorem execDecFlush_keeps {orig : State} (p : Packet) (order : List Nat) (s : State) (hb : Keeps orig s) :
    KeepsOut orig (execDecFlush p order s) := by
  unfold execDecFlush; try dsimp only
  repeat' (with_reducible first | exact hb | apply KeepsOut.next | apply runPacket_keeps | apply decFlushBody_keeps | apply keeps_foldl | apply keeps_elim | (intro (t : State); have hb := Keeps.refl t) | intro _ | split | rw [id] | simp only [↓keeps_mk])

theorem State.freeDec_keeps {orig : State} (s : State) (d : DecCtx) (hb : Keeps orig s) :
    Keeps orig (State.freeDec s d) := by
  unfold State.freeDec; try dsimp only
  repeat' (with_reducible first | exact hb | apply State.showCores_keeps | apply State.setReg_keeps | apply State.complete_keeps | apply keeps_foldl | apply keeps_elim | (intro (t : State); have hb := Keeps.refl t) | intro _ | split | rw [id] | simp only [↓keeps_mk])

theorem execDecDestroy_keeps {base : State} (p : Packet) (s : State) (hb : Keeps base s) :
    KeepsOut base (execDecDestroy p s) := by
  apply KeepsOut.next
  refine runPacket_keeps _ _ _ _ _ (fun _ t => State.finish_keeps _ _ _ _ _ ?_) hb
  cases t.decCtx p.target with
  | none => exact Keeps.refl t
  | some d => exact State.freeDec_keeps _ _ (Keeps.refl t)

theorem encCreateBody_keeps {orig : State} (p : Packet) (x : EncSettings) (id : Nat) (s : State) (hb : Keeps orig s) :
    Keeps orig (encCreateBody p x id s) := by
  unfold encCreateBody; try dsimp only
  repeat' (with_reducible first | exact hb | apply State.finish_keeps | apply State.showCores_keeps | apply State.setReg_keeps | apply keeps_foldl | apply keeps_elim | (intro (t : State); have hb := Keeps.refl t) | intro _ | split | rw [id] | simp only [↓keeps_mk])

theorem execEncCreate_keeps {orig : State} (p : Packet) (x : EncSettings) (s : State) (hb : Keeps orig s) :
    KeepsOut orig (execEncCreate p x s) := by
  unfold execEncCreate; try dsimp only
  repeat' (with_reducible first | exact hb | apply KeepsOut.next | apply runPacket_keeps | apply encCreateBody_keeps | apply keeps_foldl | apply keeps_elim | (intro (t : State); have hb := Keeps.refl t) | intro _ | split | rw [id] | simp only [↓keeps_mk])

theorem State.vidAccess_keeps {base : State} (s : State) (part id : Nat) (write : Bool) (l : List (Nat × Nat)) (ue : Option Nat) (go : State → State)
    (hgo : ∀ t, Keeps t (go t)) (hb : Keeps base s) : Keeps base (State.vidAccess s part id write l ue go) := by
  unfold State.vidAccess; dsimp only
  split
  · have ht : Keeps base (if write = true then s else s.chargePieces (initiator 0xC part) l) := by
      split
      · exact hb
      · exact State.chargePieces_keeps _ _ _ hb
    cases ue with
    | none => exact ht.trans (hgo _)
    | some k => exact State.finish_keeps (hb := State.uncorrectable_keeps _ _ _ _ ht) ..
  · apply State.finish_keeps
    apply keeps_foldl _ hb
    exact fun t e => State.recordDenial_keeps _ _ _ _ _ (Keeps.refl t)

theorem encFrameBody_keeps {orig : State} (p : Packet) (cycles : Nat) (ue : Option Nat) (id : Nat) (s : State) (hb : Keeps orig s) :
    Keeps orig (encFrameBody p cycles ue id s) := by
  unfold encFrameBody; try dsimp only
  repeat' (with_reducible first | exact hb | apply State.finish_keeps | apply State.vidAccess_keeps | apply State.keyed_keeps | apply State.addReg_keeps | apply State.writeObj_keeps | apply keeps_foldl | apply keeps_elim | (intro (t : State); have hb := Keeps.refl t) | intro _ | split | rw [id] | simp only [↓keeps_mk])

theorem execEncFrame_keeps {orig : State} (p : Packet) (cycles : Nat) (ue : Option Nat) (s : State) (hb : Keeps orig s) :
    KeepsOut orig (execEncFrame p cycles ue s) := by
  unfold execEncFrame; try dsimp only
  repeat' (with_reducible first | exact hb | apply KeepsOut.next | apply runPacket_keeps | apply encFrameBody_keeps | apply keeps_foldl | apply keeps_elim | (intro (t : State); have hb := Keeps.refl t) | intro _ | split | rw [id] | simp only [↓keeps_mk])

theorem execEncDestroy_keeps {orig : State} (p : Packet) (s : State) (hb : Keeps orig s) :
    KeepsOut orig (execEncDestroy p s) := by
  unfold execEncDestroy; try dsimp only
  repeat' (with_reducible first | exact hb | apply KeepsOut.next | apply runPacket_keeps | apply State.finish_keeps | apply State.showCores_keeps | apply State.setReg_keeps | apply keeps_foldl | apply keeps_elim | (intro (t : State); have hb := Keeps.refl t) | intro _ | split | rw [id] | simp only [↓keeps_mk])

theorem jpegDecBody_keeps {orig : State} (p : Packet) (x : JpegJob) (id : Nat) (s : State) (hb : Keeps orig s) :
    Keeps orig (jpegDecBody p x id s) := by
  unfold jpegDecBody; try dsimp only
  repeat' (with_reducible first | exact hb | apply State.finish_keeps | apply State.anyEvent_keeps | apply State.vidAccess_keeps | apply State.keyed_keeps | apply State.addReg_keeps | apply State.vidRows_keeps | apply keeps_foldl | apply keeps_elim | (intro (t : State); have hb := Keeps.refl t) | intro _ | split | rw [id] | simp only [↓keeps_mk])

theorem execJpegDec_keeps {orig : State} (p : Packet) (x : JpegJob) (s : State) (hb : Keeps orig s) :
    KeepsOut orig (execJpegDec p x s) := by
  unfold execJpegDec; try dsimp only
  repeat' (with_reducible first | exact hb | apply KeepsOut.next | apply runPacket_keeps | apply jpegDecBody_keeps | apply keeps_foldl | apply keeps_elim | (intro (t : State); have hb := Keeps.refl t) | intro _ | split | rw [id] | simp only [↓keeps_mk])

theorem jpegEncBody_keeps {orig : State} (p : Packet) (x : JpegJob) (id : Nat) (s : State) (hb : Keeps orig s) :
    Keeps orig (jpegEncBody p x id s) := by
  unfold jpegEncBody; try dsimp only
  repeat' (with_reducible first | exact hb | apply State.finish_keeps | apply State.vidAccess_keeps | apply State.keyed_keeps | apply State.addReg_keeps | apply State.writeObj_keeps | apply keeps_foldl | apply keeps_elim | (intro (t : State); have hb := Keeps.refl t) | intro _ | split | rw [id] | simp only [↓keeps_mk])

theorem execJpegEnc_keeps {orig : State} (p : Packet) (x : JpegJob) (s : State) (hb : Keeps orig s) :
    KeepsOut orig (execJpegEnc p x s) := by
  unfold execJpegEnc; try dsimp only
  repeat' (with_reducible first | exact hb | apply KeepsOut.next | apply runPacket_keeps | apply jpegEncBody_keeps | apply keeps_foldl | apply keeps_elim | (intro (t : State); have hb := Keeps.refl t) | intro _ | split | rw [id] | simp only [↓keeps_mk])

end Sys2Proof.Machine
end

