-- ==== Sys2Proof/Laws/Keeps/Can.lean ====
section
/-! SUPPORT. What the operations of Machine/Can.lean keep (Laws/Keeps.lean). -/

set_option linter.unusedTactic false
set_option linter.unreachableTactic false

namespace Sys2Proof.Machine

theorem State.setCan_keeps {orig : State} (s : State) (c : Nat) (x : CanCtl) (hb : Keeps orig s) :
    Keeps orig (State.setCan s c x) := by
  unfold State.setCan; try dsimp only
  repeat' (with_reducible first | exact hb | apply keeps_foldl | apply keeps_elim | (intro (t : State); have hb := Keeps.refl t) | intro _ | split | rw [id] | simp only [↓keeps_mk])

theorem State.canWrite_keeps {orig : State} (s : State) (c : Nat) (e : Nat) (off : Nat) (bs : List Byte) (hb : Keeps orig s) :
    Keeps orig (State.canWrite s c e off bs) := by
  unfold State.canWrite; try dsimp only
  repeat' (with_reducible first | exact hb | apply State.setCan_keeps | apply keeps_foldl | apply keeps_elim | (intro (t : State); have hb := Keeps.refl t) | intro _ | split | rw [id] | simp only [↓keeps_mk])

theorem State.canBit_keeps {orig : State} (s : State) (r : Reg) (c : Nat) (e : Nat) (on : Bool) (hb : Keeps orig s) :
    Keeps orig (State.canBit s r c e on) := by
  unfold State.canBit; try dsimp only
  repeat' (with_reducible first | exact hb | apply State.setReg_keeps | apply keeps_foldl | apply keeps_elim | (intro (t : State); have hb := Keeps.refl t) | intro _ | split | rw [id] | simp only [↓keeps_mk])

theorem State.canDrop_keeps {orig : State} (s : State) (c : Nat) (e : Nat) (hb : Keeps orig s) :
    Keeps orig (State.canDrop s c e) := by
  unfold State.canDrop; try dsimp only
  repeat' (with_reducible first | exact hb | apply State.canBit_keeps | apply State.setCan_keeps | apply keeps_foldl | apply keeps_elim | (intro (t : State); have hb := Keeps.refl t) | intro _ | split | rw [id] | simp only [↓keeps_mk])

theorem State.canLateDrop_keeps {orig : State} (s : State) (c : Nat) (e : Nat) (hb : Keeps orig s) :
    Keeps orig (State.canLateDrop s c e) := by
  unfold State.canLateDrop; try dsimp only
  repeat' (with_reducible first | exact hb | apply State.addReg_keeps | apply State.canWrite_keeps | apply State.canBit_keeps | apply State.canDrop_keeps | apply State.event_keeps | apply State.setCan_keeps | apply keeps_foldl | apply keeps_elim | (intro (t : State); have hb := Keeps.refl t) | intro _ | split | rw [id] | simp only [↓keeps_mk])

theorem State.canStepCheck_keeps {orig : State} (s : State) (hb : Keeps orig s) :
    Keeps orig (State.canStepCheck s) := by
  unfold State.canStepCheck; try dsimp only
  repeat' (with_reducible first | exact hb | apply State.canLateDrop_keeps | apply keeps_foldl | apply keeps_elim | (intro (t : State); have hb := Keeps.refl t) | intro _ | split | rw [id] | simp only [↓keeps_mk])

theorem State.canStart_keeps {orig : State} (s : State) (c : Nat) (hb : Keeps orig s) :
    Keeps orig (State.canStart s c) := by
  unfold State.canStart; try dsimp only
  repeat' (with_reducible first | exact hb | apply State.setCan_keeps | apply keeps_foldl | apply keeps_elim | (intro (t : State); have hb := Keeps.refl t) | intro _ | split | rw [id] | simp only [↓keeps_mk])

theorem State.canFrameEnd_keeps {orig : State} (s : State) (c : Nat) (hb : Keeps orig s) :
    Keeps orig (State.canFrameEnd s c) := by
  unfold State.canFrameEnd; try dsimp only
  repeat' (with_reducible first | exact hb | apply State.canStart_keeps | apply State.setCan_keeps | apply keeps_foldl | apply keeps_elim | (intro (t : State); have hb := Keeps.refl t) | intro _ | split | rw [id] | simp only [↓keeps_mk])

theorem State.canRequest_keeps {orig : State} (s : State) (c : Nat) (e : Nat) (hb : Keeps orig s) :
    Keeps orig (State.canRequest s c e) := by
  unfold State.canRequest; try dsimp only
  repeat' (with_reducible first | exact hb | apply State.canBit_keeps | apply State.setCan_keeps | apply State.canLateDrop_keeps | apply State.canStart_keeps | apply keeps_foldl | apply keeps_elim | (intro (t : State); have hb := Keeps.refl t) | intro _ | split | rw [id] | simp only [↓keeps_mk])

theorem execCanTxreq_keeps {orig : State} (c : Nat) (w : RegWrite) (s : State) (hb : Keeps orig s) :
    KeepsOut orig (execCanTxreq c w s) := by
  unfold execCanTxreq; try dsimp only
  repeat' (with_reducible first | exact hb | apply KeepsOut.next | apply State.busErr_keeps | apply State.regWrite_keeps | apply State.canRequest_keeps | apply State.acceptUnit_keeps | apply keeps_foldl | apply keeps_elim | (intro (t : State); have hb := Keeps.refl t) | intro _ | split | rw [id] | simp only [↓keeps_mk])

theorem execCanLaunch_keeps {orig : State} (c : Nat) (e : Nat) (s : State) (hb : Keeps orig s) :
    KeepsOut orig (execCanLaunch c e s) := by
  unfold execCanLaunch; try dsimp only
  repeat' (with_reducible first | exact hb | apply KeepsOut.next | apply State.setCan_keeps | apply State.canLateDrop_keeps | apply State.canStart_keeps | apply keeps_foldl | apply keeps_elim | (intro (t : State); have hb := Keeps.refl t) | intro _ | split | rw [id] | simp only [↓keeps_mk])

theorem State.canState_keeps {orig : State} (s : State) (c : Nat) (off : Bool) (hb : Keeps orig s) :
    Keeps orig (State.canState s c off) := by
  unfold State.canState; try dsimp only
  repeat' (with_reducible first | exact hb | apply State.putFld_keeps | apply State.event_keeps | apply State.setCan_keeps | apply keeps_foldl | apply keeps_elim | (intro (t : State); have hb := Keeps.refl t) | intro _ | split | rw [id] | simp only [↓keeps_mk])

theorem State.canSent_keeps {orig : State} (s : State) (c : Nat) (hb : Keeps orig s) :
    Keeps orig (State.canSent s c) := by
  unfold State.canSent; try dsimp only
  repeat' (with_reducible first | exact hb | apply State.canState_keeps | apply State.putFld_keeps | apply keeps_foldl | apply keeps_elim | (intro (t : State); have hb := Keeps.refl t) | intro _ | split | rw [id] | simp only [↓keeps_mk])

theorem State.canGot_keeps {orig : State} (s : State) (c : Nat) (hb : Keeps orig s) :
    Keeps orig (State.canGot s c) := by
  unfold State.canGot; try dsimp only
  repeat' (with_reducible first | exact hb | apply State.canState_keeps | apply State.putFld_keeps | apply keeps_foldl | apply keeps_elim | (intro (t : State); have hb := Keeps.refl t) | intro _ | split | rw [id] | simp only [↓keeps_mk])

theorem State.ttError_keeps {orig : State} (s : State) (c : Nat) (level : Nat) (hb : Keeps orig s) :
    Keeps orig (State.ttError s c level) := by
  unfold State.ttError; try dsimp only
  repeat' (with_reducible first | exact hb | apply State.event_keeps | apply State.putFld_keeps | apply keeps_foldl | apply keeps_elim | (intro (t : State); have hb := Keeps.refl t) | intro _ | split | rw [id] | simp only [↓keeps_mk])

theorem State.closeWindow_keeps {orig : State} (s : State) (c : Nat) (hb : Keeps orig s) :
    Keeps orig (State.closeWindow s c) := by
  unfold State.closeWindow; try dsimp only
  repeat' (with_reducible first | exact hb | apply State.setCan_keeps | apply State.ttError_keeps | apply keeps_foldl | apply keeps_elim | (intro (t : State); have hb := Keeps.refl t) | intro _ | split | rw [id] | simp only [↓keeps_mk])

theorem State.openWindow_keeps {orig : State} (s : State) (c : Nat) (w : Nat) (hb : Keeps orig s) :
    Keeps orig (State.openWindow s c w) := by
  unfold State.openWindow; try dsimp only
  repeat' (with_reducible first | exact hb | apply State.canStart_keeps | apply State.setCan_keeps | apply keeps_foldl | apply keeps_elim | (intro (t : State); have hb := Keeps.refl t) | intro _ | split | rw [id] | simp only [↓keeps_mk])

theorem execCanTxDone_keeps {orig : State} (c : Nat) (e : Nat) (age : Nat) (s : State) (hb : Keeps orig s) :
    KeepsOut orig (execCanTxDone c e age s) := by
  unfold execCanTxDone; try dsimp only
  repeat' (with_reducible first | exact hb | apply KeepsOut.next | apply State.canBit_keeps | apply State.canDrop_keeps | apply State.canWrite_keeps | apply State.setCan_keeps | apply State.send_keeps | apply State.canFrameEnd_keeps | apply State.canSent_keeps | apply State.acceptUnit_keeps | apply keeps_foldl | apply keeps_elim | (intro (t : State); have hb := Keeps.refl t) | intro _ | split | rw [id] | simp only [↓keeps_mk])

theorem State.canCount_keeps {orig : State} (s : State) (c : Nat) (tx : Bool) (code : Nat) (kind : CanErrKind) (hb : Keeps orig s) :
    Keeps orig (State.canCount s c tx code kind) := by
  unfold State.canCount; try dsimp only
  repeat' (with_reducible first | exact hb | apply State.putFld_keeps | apply State.addFld_keeps | apply State.canState_keeps | apply keeps_foldl | apply keeps_elim | (intro (t : State); have hb := Keeps.refl t) | intro _ | split | rw [id] | simp only [↓keeps_mk])

theorem State.canRetry_keeps {orig : State} (s : State) (c : Nat) (e : Nat) (hb : Keeps orig s) :
    Keeps orig (State.canRetry s c e) := by
  unfold State.canRetry; try dsimp only
  repeat' (with_reducible first | exact hb | apply State.ttError_keeps | apply State.setCan_keeps | apply State.canDrop_keeps | apply keeps_foldl | apply keeps_elim | (intro (t : State); have hb := Keeps.refl t) | intro _ | split | rw [id] | simp only [↓keeps_mk])

theorem State.refFailed_keeps {orig : State} (s : State) (c : Nat) (hb : Keeps orig s) :
    Keeps orig (State.refFailed s c) := by
  unfold State.refFailed; try dsimp only
  repeat' (with_reducible first | exact hb | apply State.setCan_keeps | apply State.ttError_keeps | apply keeps_foldl | apply keeps_elim | (intro (t : State); have hb := Keeps.refl t) | intro _ | split | rw [id] | simp only [↓keeps_mk])

theorem execCanBusError_keeps {orig : State} (c : Nat) (role : CanRole) (code : Nat) (kind : CanErrKind) (s : State) (hb : Keeps orig s) :
    KeepsOut orig (execCanBusError c role code kind s) := by
  unfold execCanBusError; try dsimp only
  repeat' (with_reducible first | exact hb | apply KeepsOut.next | apply State.addFld_keeps | apply State.canCount_keeps | apply State.canFrameEnd_keeps | apply State.canRetry_keeps | apply State.setCan_keeps | apply State.refFailed_keeps | apply keeps_foldl | apply keeps_elim | (intro (t : State); have hb := Keeps.refl t) | intro _ | split | rw [id] | simp only [↓keeps_mk])

theorem execCanBusOffRecovery_keeps {orig : State} (c : Nat) (s : State) (hb : Keeps orig s) :
    KeepsOut orig (execCanBusOffRecovery c s) := by
  unfold execCanBusOffRecovery; try dsimp only
  repeat' (with_reducible first | exact hb | apply KeepsOut.next | apply State.putFld_keeps | apply State.canStart_keeps | apply State.setCan_keeps | apply keeps_foldl | apply keeps_elim | (intro (t : State); have hb := Keeps.refl t) | intro _ | split | rw [id] | simp only [↓keeps_mk])

theorem State.writeCanCtl_keeps {orig : State} (s : State) (c : Nat) (v : Nat) (hb : Keeps orig s) :
    Keeps orig (State.writeCanCtl s c v) := by
  unfold State.writeCanCtl; try dsimp only
  repeat' (with_reducible first | exact hb | apply State.setReg_keeps | apply State.setCan_keeps | apply State.setFlag_keeps | apply keeps_foldl | apply keeps_elim | (intro (t : State); have hb := Keeps.refl t) | intro _ | split | rw [id] | simp only [↓keeps_mk])

theorem execRecover_keeps {orig : State} (c : Nat) (w : RegWrite) (s : State) (hb : Keeps orig s) :
    KeepsOut orig (execRecover c w s) := by
  unfold execRecover; try dsimp only
  repeat' (with_reducible first | exact hb | apply KeepsOut.next | apply State.busErr_keeps | apply State.paramWrite_keeps | apply State.writeCanCtl_keeps | apply keeps_foldl | apply keeps_elim | (intro (t : State); have hb := Keeps.refl t) | intro _ | split | rw [id] | simp only [↓keeps_mk])

theorem State.setFifo_keeps {orig : State} (s : State) (c : Nat) (fifo : Nat) (fill : Nat) (read : Nat) (hb : Keeps orig s) :
    Keeps orig (State.setFifo s c fifo fill read) := by
  unfold State.setFifo; try dsimp only
  repeat' (with_reducible first | exact hb | apply State.setReg_keeps | apply keeps_foldl | apply keeps_elim | (intro (t : State); have hb := Keeps.refl t) | intro _ | split | rw [id] | simp only [↓keeps_mk])

theorem State.canIrq_keeps {orig : State} (s : State) (c : Nat) (n : Nat) (hb : Keeps orig s) :
    Keeps orig (State.canIrq s c n) := by
  unfold State.canIrq; try dsimp only
  repeat' (with_reducible first | exact hb | apply State.raise_keeps | apply keeps_foldl | apply keeps_elim | (intro (t : State); have hb := Keeps.refl t) | intro _ | split | rw [id] | simp only [↓keeps_mk])

theorem State.fifoFull_keeps {orig : State} (s : State) (c : Nat) (hb : Keeps orig s) :
    Keeps orig (State.fifoFull s c) := by
  unfold State.fifoFull; try dsimp only
  repeat' (with_reducible first | exact hb | apply State.addFld_keeps | apply State.event_keeps | apply State.setCan_keeps | apply keeps_foldl | apply keeps_elim | (intro (t : State); have hb := Keeps.refl t) | intro _ | split | rw [id] | simp only [↓keeps_mk])

theorem State.toFifo_keeps {orig : State} (s : State) (c : Nat) (fifo : Nat) (x : CanRx) (filter : Nat) (hb : Keeps orig s) :
    Keeps orig (State.toFifo s c fifo x filter) := by
  unfold State.toFifo; try dsimp only
  repeat' (with_reducible first | exact hb | apply State.fifoFull_keeps | apply State.canIrq_keeps | apply State.setFifo_keeps | apply State.canWrite_keeps | apply keeps_foldl | apply keeps_elim | (intro (t : State); have hb := Keeps.refl t) | intro _ | split | rw [id] | simp only [↓keeps_mk])

theorem State.toHpb_keeps {orig : State} (s : State) (c : Nat) (n : Nat) (x : CanRx) (filter : Nat) (hb : Keeps orig s) :
    Keeps orig (State.toHpb s c n x filter) := by
  unfold State.toHpb; try dsimp only
  repeat' (with_reducible first | exact hb | apply State.event_keeps | apply State.addFld_keeps | apply State.canIrq_keeps | apply State.canBit_keeps | apply State.canWrite_keeps | apply keeps_foldl | apply keeps_elim | (intro (t : State); have hb := Keeps.refl t) | intro _ | split | rw [id] | simp only [↓keeps_mk])

theorem State.canDeliver_keeps {orig : State} (s : State) (c : Nat) (x : CanRx) (action : Nat) (filter : Nat) (hb : Keeps orig s) :
    Keeps orig (State.canDeliver s c x action filter) := by
  unfold State.canDeliver; try dsimp only
  repeat' (with_reducible first | exact hb | apply State.toFifo_keeps | apply State.toHpb_keeps | apply keeps_foldl | apply keeps_elim | (intro (t : State); have hb := Keeps.refl t) | intro _ | split | rw [id] | simp only [↓keeps_mk])

theorem State.checkSeen_keeps {orig : State} (s : State) (c : Nat) (filter : Nat) (hb : Keeps orig s) :
    Keeps orig (State.checkSeen s c filter) := by
  unfold State.checkSeen; try dsimp only
  repeat' (with_reducible first | exact hb | apply State.setCan_keeps | apply keeps_foldl | apply keeps_elim | (intro (t : State); have hb := Keeps.refl t) | intro _ | split | rw [id] | simp only [↓keeps_mk])

theorem execCanRxFrame_keeps {orig : State} (c : Nat) (x : CanRx) (s : State) (hb : Keeps orig s) :
    KeepsOut orig (execCanRxFrame c x s) := by
  unfold execCanRxFrame; try dsimp only
  repeat' (with_reducible first | exact hb | apply KeepsOut.next | apply State.acceptUnit_keeps | apply State.canFrameEnd_keeps | apply State.canGot_keeps | apply State.checkSeen_keeps | apply State.canDeliver_keeps | apply keeps_foldl | apply keeps_elim | (intro (t : State); have hb := Keeps.refl t) | intro _ | split | rw [id] | simp only [↓keeps_mk])

theorem State.releaseFifo_keeps {orig : State} (s : State) (c : Nat) (fifo : Nat) (n : Nat) (hb : Keeps orig s) :
    Keeps orig (State.releaseFifo s c fifo n) := by
  unfold State.releaseFifo; try dsimp only
  repeat' (with_reducible first | exact hb | apply State.setFifo_keeps | apply keeps_foldl | apply keeps_elim | (intro (t : State); have hb := Keeps.refl t) | intro _ | split | rw [id] | simp only [↓keeps_mk])

theorem execCanRxfack_keeps {orig : State} (c : Nat) (w : RegWrite) (s : State) (hb : Keeps orig s) :
    KeepsOut orig (execCanRxfack c w s) := by
  unfold execCanRxfack; try dsimp only
  repeat' (with_reducible first | exact hb | apply KeepsOut.next | apply State.busErr_keeps | apply State.regWrite_keeps | apply State.releaseFifo_keeps | apply keeps_foldl | apply keeps_elim | (intro (t : State); have hb := Keeps.refl t) | intro _ | split | rw [id] | simp only [↓keeps_mk])

theorem State.placeElem_keeps {orig : State} (s : State) (c : Nat) (b : List Byte) (hb : Keeps orig s) :
    Keeps orig (State.placeElem s c b).1 := by
  unfold State.placeElem; try dsimp only
  repeat' (with_reducible first | exact hb | apply State.canRequest_keeps | apply State.canWrite_keeps | apply keeps_foldl | apply keeps_elim | (intro (t : State); have hb := Keeps.refl t) | intro _ | split | rw [id] | simp only [↓keeps_mk])

theorem placeElems_keeps {base : State} (c : Nat) (l : List (List Byte)) (s : State) (hb : Keeps base s) :
    Keeps base (placeElems c l s).1 := by
  induction l generalizing s with
  | nil => exact hb
  | cons b l ih => exact ih _ (State.placeElem_keeps _ _ _ hb)

theorem canTxBody_keeps {orig : State} (p : Packet) (id : Nat) (s : State) (hb : Keeps orig s) :
    Keeps orig (canTxBody p id s) := by
  unfold canTxBody; try dsimp only
  repeat' (with_reducible first | exact hb | apply placeElems_keeps | apply State.finish_keeps | apply keeps_foldl | apply keeps_elim | (intro (t : State); have hb := Keeps.refl t) | intro _ | split | rw [id] | simp only [↓keeps_mk])

theorem execCanTx_keeps {orig : State} (p : Packet) (s : State) (hb : Keeps orig s) :
    KeepsOut orig (execCanTx p s) := by
  unfold execCanTx; try dsimp only
  repeat' (with_reducible first | exact hb | apply KeepsOut.next | apply runPacket_keeps | apply canTxBody_keeps | apply keeps_foldl | apply keeps_elim | (intro (t : State); have hb := Keeps.refl t) | intro _ | split | rw [id] | simp only [↓keeps_mk])

theorem canRxBody_keeps {orig : State} (p : Packet) (id : Nat) (s : State) (hb : Keeps orig s) :
    Keeps orig (canRxBody p id s) := by
  unfold canRxBody; try dsimp only
  repeat' (with_reducible first | exact hb | apply State.finish_keeps | apply State.releaseFifo_keeps | apply keeps_foldl | apply keeps_elim | (intro (t : State); have hb := Keeps.refl t) | intro _ | split | rw [id] | simp only [↓keeps_mk])

theorem execCanRx_keeps {orig : State} (p : Packet) (s : State) (hb : Keeps orig s) :
    KeepsOut orig (execCanRx p s) := by
  unfold execCanRx; try dsimp only
  repeat' (with_reducible first | exact hb | apply KeepsOut.next | apply runPacket_keeps | apply canRxBody_keeps | apply keeps_foldl | apply keeps_elim | (intro (t : State); have hb := Keeps.refl t) | intro _ | split | rw [id] | simp only [↓keeps_mk])

theorem execCanTtCycleStart_keeps {orig : State} (c : Nat) (refId : Nat) (cycle : Nat) (s : State) (hb : Keeps orig s) :
    KeepsOut orig (execCanTtCycleStart c refId cycle s) := by
  unfold execCanTtCycleStart; try dsimp only
  repeat' (with_reducible first | exact hb | apply KeepsOut.next | apply State.closeWindow_keeps | apply State.ttError_keeps | apply State.putFld_keeps | apply State.send_keeps | apply State.setCan_keeps | apply keeps_foldl | apply keeps_elim | (intro (t : State); have hb := Keeps.refl t) | intro _ | split | rw [id] | simp only [↓keeps_mk])

theorem execCanTtColumn_keeps {orig : State} (c : Nat) (j : Nat) (s : State) (hb : Keeps orig s) :
    KeepsOut orig (execCanTtColumn c j s) := by
  unfold execCanTtColumn; try dsimp only
  repeat' (with_reducible first | exact hb | apply KeepsOut.next | apply State.openWindow_keeps | apply State.closeWindow_keeps | apply keeps_foldl | apply keeps_elim | (intro (t : State); have hb := Keeps.refl t) | intro _ | split | rw [id] | simp only [↓keeps_mk])

theorem execCanTtRefTimeout_keeps {orig : State} (c : Nat) (s : State) (hb : Keeps orig s) :
    KeepsOut orig (execCanTtRefTimeout c s) := by
  unfold execCanTtRefTimeout; try dsimp only
  repeat' (with_reducible first | exact hb | apply KeepsOut.next | apply State.ttError_keeps | apply State.send_keeps | apply State.setCan_keeps | apply keeps_foldl | apply keeps_elim | (intro (t : State); have hb := Keeps.refl t) | intro _ | split | rw [id] | simp only [↓keeps_mk])

theorem State.startCan_keeps {orig : State} (s : State) (c : Nat) (hb : Keeps orig s) :
    Keeps orig (State.startCan s c) := by
  unfold State.startCan; try dsimp only
  repeat' (with_reducible first | exact hb | apply State.canStart_keeps | apply State.setCan_keeps | apply State.setReg_keeps | apply keeps_foldl | apply keeps_elim | (intro (t : State); have hb := Keeps.refl t) | intro _ | split | rw [id] | simp only [↓keeps_mk])

end Sys2Proof.Machine
end

