-- ==== Sys2Proof/Laws/Keeps/Chronometer.lean ====
section
/-! SUPPORT. What the operations of Machine/Chronometer.lean keep (Laws/Keeps.lean). -/

set_option linter.unusedTactic false
set_option linter.unreachableTactic false

namespace Sys2Proof.Machine

theorem State.setDom_keeps {orig : State} (s : State) (d : Nat) (x : ChrDom) (hb : Keeps orig s) :
    Keeps orig (State.setDom s d x) := by
  unfold State.setDom; try dsimp only
  repeat' (with_reducible first | exact hb | apply keeps_foldl | apply keeps_elim | (intro (t : State); have hb := Keeps.refl t) | intro _ | split | rw [id] | simp only [↓keeps_mk])

theorem State.toHoldover_keeps {orig : State} (s : State) (hb : Keeps orig s) :
    Keeps orig (State.toHoldover s) := by
  unfold State.toHoldover; try dsimp only
  repeat' (with_reducible first | exact hb | apply State.anyEvent_keeps | apply State.setFlag_keeps | apply State.putFld_keeps | apply keeps_foldl | apply keeps_elim | (intro (t : State); have hb := Keeps.refl t) | intro _ | split | rw [id] | simp only [↓keeps_mk])

theorem State.dropPending_keeps {orig : State} (s : State) (hb : Keeps orig s) :
    Keeps orig (State.dropPending s) := by
  unfold State.dropPending; try dsimp only
  repeat' (with_reducible first | exact hb | apply State.putFld_keeps | apply keeps_foldl | apply keeps_elim | (intro (t : State); have hb := Keeps.refl t) | intro _ | split | rw [id] | simp only [↓keeps_mk])

theorem State.showPending_keeps {orig : State} (s : State) (d : Nat) (hb : Keeps orig s) :
    Keeps orig (State.showPending s d) := by
  unfold State.showPending; try dsimp only
  repeat' (with_reducible first | exact hb | apply State.setReg_keeps | apply keeps_foldl | apply keeps_elim | (intro (t : State); have hb := Keeps.refl t) | intro _ | split | rw [id] | simp only [↓keeps_mk])

theorem State.refuseJump_keeps {orig : State} (s : State) (d : Nat) (hb : Keeps orig s) :
    Keeps orig (State.refuseJump s d) := by
  unfold State.refuseJump; try dsimp only
  repeat' (with_reducible first | exact hb | apply State.putFld_keeps | apply State.setFlag_keeps | apply State.showPending_keeps | apply State.anyEvent_keeps | apply keeps_foldl | apply keeps_elim | (intro (t : State); have hb := Keeps.refl t) | intro _ | split | rw [id] | simp only [↓keeps_mk])

theorem State.switchTo_keeps {orig : State} (s : State) (d : Nat) (hb : Keeps orig s) :
    Keeps orig (State.switchTo s d) := by
  unfold State.switchTo; try dsimp only
  repeat' (with_reducible first | exact hb | apply State.putFld_keeps | apply State.dropPending_keeps | apply State.anyEvent_keeps | apply State.setFlag_keeps | apply State.setDom_keeps | apply keeps_foldl | apply keeps_elim | (intro (t : State); have hb := Keeps.refl t) | intro _ | split | rw [id] | simp only [↓keeps_mk])

theorem State.moveCount_keeps {orig : State} (s : State) (delta : ℤ) (hb : Keeps orig s) :
    Keeps orig (State.moveCount s delta) := by
  unfold State.moveCount; try dsimp only
  repeat' (with_reducible first | exact hb | apply State.setReg_keeps | apply keeps_foldl | apply keeps_elim | (intro (t : State); have hb := Keeps.refl t) | intro _ | split | rw [id] | simp only [↓keeps_mk])

theorem State.acquire_keeps {orig : State} (s : State) (d : Nat) (hb : Keeps orig s) :
    Keeps orig (State.acquire s d) := by
  unfold State.acquire; try dsimp only
  repeat' (with_reducible first | exact hb | apply State.anyEvent_keeps | apply State.setFlag_keeps | apply State.putFld_keeps | apply State.moveCount_keeps | apply keeps_foldl | apply keeps_elim | (intro (t : State); have hb := Keeps.refl t) | intro _ | split | rw [id] | simp only [↓keeps_mk])

theorem State.follow_keeps {orig : State} (s : State) (d : Nat) (hb : Keeps orig s) :
    Keeps orig (State.follow s d) := by
  unfold State.follow; try dsimp only
  repeat' (with_reducible first | exact hb | apply State.acquire_keeps | apply State.refuseJump_keeps | apply State.switchTo_keeps | apply keeps_foldl | apply keeps_elim | (intro (t : State); have hb := Keeps.refl t) | intro _ | split | rw [id] | simp only [↓keeps_mk])

theorem State.seek_keeps {orig : State} (s : State) (hb : Keeps orig s) :
    Keeps orig (State.seek s) := by
  unfold State.seek; try dsimp only
  repeat' (with_reducible first | exact hb | apply State.follow_keeps | apply keeps_foldl | apply keeps_elim | (intro (t : State); have hb := Keeps.refl t) | intro _ | split | rw [id] | simp only [↓keeps_mk])

theorem State.showQualified_keeps {orig : State} (s : State) (d : Nat) (on : Bool) (hb : Keeps orig s) :
    Keeps orig (State.showQualified s d on) := by
  unfold State.showQualified; try dsimp only
  repeat' (with_reducible first | exact hb | apply State.putFld_keeps | apply keeps_foldl | apply keeps_elim | (intro (t : State); have hb := Keeps.refl t) | intro _ | split | rw [id] | simp only [↓keeps_mk])

theorem State.judgeDomain_keeps {orig : State} (s : State) (d : Nat) (hb : Keeps orig s) :
    Keeps orig (State.judgeDomain s d) := by
  unfold State.judgeDomain; try dsimp only
  repeat' (with_reducible first | exact hb | apply State.showQualified_keeps | apply keeps_foldl | apply keeps_elim | (intro (t : State); have hb := Keeps.refl t) | intro _ | split | rw [id] | simp only [↓keeps_mk])

theorem State.seekAfter_keeps {orig : State} (s : State) (was : Bool) (d : Nat) (hb : Keeps orig s) :
    Keeps orig (State.seekAfter s was d) := by
  unfold State.seekAfter; try dsimp only
  repeat' (with_reducible first | exact hb | apply State.follow_keeps | apply State.seek_keeps | apply keeps_foldl | apply keeps_elim | (intro (t : State); have hb := Keeps.refl t) | intro _ | split | rw [id] | simp only [↓keeps_mk])

theorem State.loseDomain_keeps {orig : State} (s : State) (d : Nat) (hb : Keeps orig s) :
    Keeps orig (State.loseDomain s d) := by
  unfold State.loseDomain; try dsimp only
  repeat' (with_reducible first | exact hb | apply State.setDom_keeps | apply State.showQualified_keeps | apply State.dropPending_keeps | apply State.follow_keeps | apply State.toHoldover_keeps | apply State.seek_keeps | apply keeps_foldl | apply keeps_elim | (intro (t : State); have hb := Keeps.refl t) | intro _ | split | rw [id] | simp only [↓keeps_mk])

theorem State.setRate_keeps {orig : State} (s : State) (r : ℤ) (hb : Keeps orig s) :
    Keeps orig (State.setRate s r) := by
  unfold State.setRate; try dsimp only
  repeat' (with_reducible first | exact hb | apply State.setReg_keeps | apply keeps_foldl | apply keeps_elim | (intro (t : State); have hb := Keeps.refl t) | intro _ | split | rw [id] | simp only [↓keeps_mk])

theorem State.servo_keeps {orig : State} (s : State) (d : Nat) (hb : Keeps orig s) :
    Keeps orig (State.servo s d) := by
  unfold State.servo; try dsimp only
  repeat' (with_reducible first | exact hb | apply State.setRate_keeps | apply State.putFld_keeps | apply keeps_foldl | apply keeps_elim | (intro (t : State); have hb := Keeps.refl t) | intro _ | split | rw [id] | simp only [↓keeps_mk])

theorem State.correct_keeps {orig : State} (s : State) (d : Nat) (hb : Keeps orig s) :
    Keeps orig (State.correct s d) := by
  unfold State.correct; try dsimp only
  repeat' (with_reducible first | exact hb | apply State.setDom_keeps | apply State.addFld_keeps | apply State.refuseJump_keeps | apply State.servo_keeps | apply keeps_foldl | apply keeps_elim | (intro (t : State); have hb := Keeps.refl t) | intro _ | split | rw [id] | simp only [↓keeps_mk])

theorem State.noteSync_keeps {orig : State} (s : State) (d : Nat) (x : PtpMsg) (offset : ℤ) (ratio : ℤ) (hb : Keeps orig s) :
    Keeps orig (State.noteSync s d x offset ratio) := by
  unfold State.noteSync; try dsimp only
  repeat' (with_reducible first | exact hb | apply State.setReg_keeps | apply State.judgeDomain_keeps | apply State.setDom_keeps | apply keeps_foldl | apply keeps_elim | (intro (t : State); have hb := Keeps.refl t) | intro _ | split | rw [id] | simp only [↓keeps_mk])

theorem State.takeSync_keeps {orig : State} (x : PtpMsg) (offset : ℤ) (ratio : ℤ) (s : State) (d : Nat) (hb : Keeps orig s) :
    Keeps orig (State.takeSync x offset ratio s d) := by
  unfold State.takeSync; try dsimp only
  repeat' (with_reducible first | exact hb | apply State.noteSync_keeps | apply State.correct_keeps | apply State.showPending_keeps | apply State.seekAfter_keeps | apply keeps_foldl | apply keeps_elim | (intro (t : State); have hb := Keeps.refl t) | intro _ | split | rw [id] | simp only [↓keeps_mk])

theorem execPtpSync_keeps {orig : State} (x : PtpMsg) (offset : ℤ) (ratio : ℤ) (s : State) (hb : Keeps orig s) :
    KeepsOut orig (execPtpSync x offset ratio s) := by
  unfold execPtpSync; try dsimp only
  repeat' (with_reducible first | exact hb | apply KeepsOut.next | apply State.takeSync_keeps | apply keeps_foldl | apply keeps_elim | (intro (t : State); have hb := Keeps.refl t) | intro _ | split | rw [id] | simp only [↓keeps_mk])

theorem State.judgeRank_keeps {orig : State} (s : State) (hb : Keeps orig s) :
    Keeps orig (State.judgeRank s) := by
  unfold State.judgeRank; try dsimp only
  repeat' (with_reducible first | exact hb | apply State.setDom_keeps | apply State.follow_keeps | apply keeps_foldl | apply keeps_elim | (intro (t : State); have hb := Keeps.refl t) | intro _ | split | rw [id] | simp only [↓keeps_mk])

theorem State.takeAnnounce_keeps {orig : State} (rank : List Nat) (s : State) (d : Nat) (hb : Keeps orig s) :
    Keeps orig (State.takeAnnounce rank s d) := by
  unfold State.takeAnnounce; try dsimp only
  repeat' (with_reducible first | exact hb | apply State.putFld_keeps | apply State.judgeDomain_keeps | apply State.setDom_keeps | apply State.seekAfter_keeps | apply State.judgeRank_keeps | apply keeps_foldl | apply keeps_elim | (intro (t : State); have hb := Keeps.refl t) | intro _ | split | rw [id] | simp only [↓keeps_mk])

theorem execPtpAnnounce_keeps {orig : State} (x : PtpMsg) (rank : List Nat) (s : State) (hb : Keeps orig s) :
    KeepsOut orig (execPtpAnnounce x rank s) := by
  unfold execPtpAnnounce; try dsimp only
  repeat' (with_reducible first | exact hb | apply KeepsOut.next | apply State.takeAnnounce_keeps | apply keeps_foldl | apply keeps_elim | (intro (t : State); have hb := Keeps.refl t) | intro _ | split | rw [id] | simp only [↓keeps_mk])

theorem execPtpPdelay_keeps {orig : State} (port : Nat) (delay : Nat) (s : State) (hb : Keeps orig s) :
    KeepsOut orig (execPtpPdelay port delay s) := by
  unfold execPtpPdelay; try dsimp only
  repeat' (with_reducible first | exact hb | apply KeepsOut.next | apply keeps_foldl | apply keeps_elim | (intro (t : State); have hb := Keeps.refl t) | intro _ | split | rw [id] | simp only [↓keeps_mk])

theorem execAnnounceTimeout_keeps {orig : State} (d : Nat) (missed : Nat) (s : State) (hb : Keeps orig s) :
    KeepsOut orig (execAnnounceTimeout d missed s) := by
  unfold execAnnounceTimeout; try dsimp only
  repeat' (with_reducible first | exact hb | apply KeepsOut.next | apply State.putFld_keeps | apply State.loseDomain_keeps | apply keeps_foldl | apply keeps_elim | (intro (t : State); have hb := Keeps.refl t) | intro _ | split | rw [id] | simp only [↓keeps_mk])

theorem execRevertTimer_keeps {orig : State} (s : State) (hb : Keeps orig s) :
    KeepsOut orig (execRevertTimer s) := by
  unfold execRevertTimer; try dsimp only
  repeat' (with_reducible first | exact hb | apply KeepsOut.next | apply State.follow_keeps | apply keeps_foldl | apply keeps_elim | (intro (t : State); have hb := Keeps.refl t) | intro _ | split | rw [id] | simp only [↓keeps_mk])

theorem execChrRead_keeps {orig : State} (p : Packet) (s : State) (hb : Keeps orig s) :
    KeepsOut orig (execChrRead p s) := by
  unfold execChrRead; try dsimp only
  repeat' (with_reducible first | exact hb | apply KeepsOut.next | apply runPacket_keeps | apply State.finish_keeps | apply keeps_foldl | apply keeps_elim | (intro (t : State); have hb := Keeps.refl t) | intro _ | split | rw [id] | simp only [↓keeps_mk])

theorem State.motStepCheck_keeps {orig : State} (s : State) (before : Nat) (hb : Keeps orig s) :
    Keeps orig (State.motStepCheck s before) := by
  unfold State.motStepCheck; try dsimp only
  repeat' (with_reducible first | exact hb | apply State.noteLate_keeps | apply keeps_foldl | apply keeps_elim | (intro (t : State); have hb := Keeps.refl t) | intro _ | split | rw [id] | simp only [↓keeps_mk])

theorem State.stepCount_keeps {orig : State} (s : State) (delta : ℤ) (hb : Keeps orig s) :
    Keeps orig (State.stepCount s delta) := by
  unfold State.stepCount; try dsimp only
  repeat' (with_reducible first | exact hb | apply State.setFlag_keeps | apply State.addReg_keeps | apply State.moveCount_keeps | apply State.canStepCheck_keeps | apply State.motStepCheck_keeps | apply State.dataEvent_keeps | apply keeps_foldl | apply keeps_elim | (intro (t : State); have hb := Keeps.refl t) | intro _ | split | rw [id] | simp only [↓keeps_mk])

theorem chrStepBody_keeps {orig : State} (p : Packet) (id : Nat) (s : State) (hb : Keeps orig s) :
    Keeps orig (chrStepBody p id s) := by
  unfold chrStepBody; try dsimp only
  repeat' (with_reducible first | exact hb | apply State.dropPending_keeps | apply State.stepCount_keeps | apply State.setDom_keeps | apply State.finish_keeps | apply State.putFld_keeps | apply State.seek_keeps | apply State.toHoldover_keeps | apply keeps_foldl | apply keeps_elim | (intro (t : State); have hb := Keeps.refl t) | intro _ | split | rw [id] | simp only [↓keeps_mk])

theorem execApplyPending_keeps {orig : State} (p : Packet) (s : State) (hb : Keeps orig s) :
    KeepsOut orig (execApplyPending p s) := by
  unfold execApplyPending; try dsimp only
  repeat' (with_reducible first | exact hb | apply KeepsOut.next | apply runPacket_keeps | apply chrStepBody_keeps | apply keeps_foldl | apply keeps_elim | (intro (t : State); have hb := Keeps.refl t) | intro _ | split | rw [id] | simp only [↓keeps_mk])

theorem execChrStep_keeps {orig : State} (p : Packet) (s : State) (hb : Keeps orig s) :
    KeepsOut orig (execChrStep p s) := by
  unfold execChrStep; try dsimp only
  repeat' (with_reducible first | exact hb | apply KeepsOut.next | apply runPacket_keeps | apply chrStepBody_keeps | apply keeps_foldl | apply keeps_elim | (intro (t : State); have hb := Keeps.refl t) | intro _ | split | rw [id] | simp only [↓keeps_mk])

theorem execChrSet_keeps {orig : State} (p : Packet) (s : State) (hb : Keeps orig s) :
    KeepsOut orig (execChrSet p s) := by
  unfold execChrSet; try dsimp only
  repeat' (with_reducible first | exact hb | apply KeepsOut.next | apply runPacket_keeps | apply chrStepBody_keeps | apply keeps_foldl | apply keeps_elim | (intro (t : State); have hb := Keeps.refl t) | intro _ | split | rw [id] | simp only [↓keeps_mk])

theorem State.slew_keeps {orig : State} (s : State) (hb : Keeps orig s) :
    Keeps orig (State.slew s) := by
  unfold State.slew; try dsimp only
  repeat' (with_reducible first | exact hb | apply State.putFld_keeps | apply State.setRate_keeps | apply keeps_foldl | apply keeps_elim | (intro (t : State); have hb := Keeps.refl t) | intro _ | split | rw [id] | simp only [↓keeps_mk])

theorem State.chrTick_keeps {orig : State} (s : State) (e : Nat) (hb : Keeps orig s) :
    Keeps orig (State.chrTick s e) := by
  unfold State.chrTick; try dsimp only
  repeat' (with_reducible first | exact hb | apply State.slew_keeps | apply State.setReg_keeps | apply keeps_foldl | apply keeps_elim | (intro (t : State); have hb := Keeps.refl t) | intro _ | split | rw [id] | simp only [↓keeps_mk])

theorem State.chrRcosc_keeps {orig : State} (s : State) (hb : Keeps orig s) :
    Keeps orig (State.chrRcosc s) := by
  unfold State.chrRcosc; try dsimp only
  repeat' (with_reducible first | exact hb | apply State.toHoldover_keeps | apply keeps_foldl | apply keeps_elim | (intro (t : State); have hb := Keeps.refl t) | intro _ | split | rw [id] | simp only [↓keeps_mk])

theorem State.chrReady_keeps {orig : State} (s : State) (hb : Keeps orig s) :
    Keeps orig (State.chrReady s) := by
  unfold State.chrReady; try dsimp only
  repeat' (with_reducible first | exact hb | apply State.setReg_keeps | apply State.chrRcosc_keeps | apply keeps_foldl | apply keeps_elim | (intro (t : State); have hb := Keeps.refl t) | intro _ | split | rw [id] | simp only [↓keeps_mk])

end Sys2Proof.Machine
end

