-- ==== Sys2Proof/Laws/Keeps/Ethernet.lean ====
section
/-! SUPPORT. What the operations of Machine/Ethernet.lean keep (Laws/Keeps.lean). -/

set_option linter.unusedTactic false
set_option linter.unreachableTactic false

namespace Sys2Proof.Machine

theorem State.setEth_keeps {orig : State} (s : State) (p : Nat) (x : EthPort) (hb : Keeps orig s) :
    Keeps orig (State.setEth s p x) := by
  unfold State.setEth; try dsimp only
  repeat' (with_reducible first | exact hb | apply keeps_foldl | apply keeps_elim | (intro (t : State); have hb := Keeps.refl t) | intro _ | split | rw [id] | simp only [↓keeps_mk])

theorem State.ringNext_keeps {orig : State} (s : State) (p : Nat) (q : Nat) (hb : Keeps orig s) :
    Keeps orig (State.ringNext s p q) := by
  unfold State.ringNext; try dsimp only
  repeat' (with_reducible first | exact hb | apply State.setReg_keeps | apply State.raise_keeps | apply keeps_foldl | apply keeps_elim | (intro (t : State); have hb := Keeps.refl t) | intro _ | split | rw [id] | simp only [↓keeps_mk])

theorem State.ethCheck_keeps {orig : State} (s : State) (part : Nat) (a : Nat) (n : Nat) (write : Bool) (hb : Keeps orig s) :
    Keeps orig (State.ethCheck s part a n write).1 := by
  unfold State.ethCheck; try dsimp only
  repeat' (with_reducible first | exact hb | apply State.keyed_keeps | apply State.charge_keeps | apply State.recordDenial_keeps | apply keeps_foldl | apply keeps_elim | (intro (t : State); have hb := Keeps.refl t) | intro _ | split | rw [id] | simp only [↓keeps_mk])

theorem State.ethWrite_keeps {orig : State} (s : State) (part : Nat) (a : Nat) (bs : List Byte) (hb : Keeps orig s) :
    Keeps orig (State.ethWrite s part a bs) := by
  unfold State.ethWrite; try dsimp only
  repeat' (with_reducible first | exact hb | apply State.ethCheck_keeps | apply State.writeBytes_keeps | apply keeps_foldl | apply keeps_elim | (intro (t : State); have hb := Keeps.refl t) | intro _ | split | rw [id] | simp only [↓keeps_mk])

theorem execEthLinkUp_keeps {orig : State} (port : Nat) (s : State) (hb : Keeps orig s) :
    KeepsOut orig (execEthLinkUp port s) := by
  unfold execEthLinkUp; try dsimp only
  repeat' (with_reducible first | exact hb | apply KeepsOut.next | apply State.putFld_keeps | apply State.event_keeps | apply keeps_foldl | apply keeps_elim | (intro (t : State); have hb := Keeps.refl t) | intro _ | split | rw [id] | simp only [↓keeps_mk])

theorem execEthLinkDown_keeps {orig : State} (port : Nat) (s : State) (hb : Keeps orig s) :
    KeepsOut orig (execEthLinkDown port s) := by
  unfold execEthLinkDown; try dsimp only
  repeat' (with_reducible first | exact hb | apply KeepsOut.next | apply State.event_keeps | apply State.putFld_keeps | apply keeps_foldl | apply keeps_elim | (intro (t : State); have hb := Keeps.refl t) | intro _ | split | rw [id] | simp only [↓keeps_mk])

theorem execEthPreemptVerifyFail_keeps {orig : State} (port : Nat) (s : State) (hb : Keeps orig s) :
    KeepsOut orig (execEthPreemptVerifyFail port s) := by
  unfold execEthPreemptVerifyFail; try dsimp only
  repeat' (with_reducible first | exact hb | apply KeepsOut.next | apply State.event_keeps | apply State.setFlag_keeps | apply State.putFld_keeps | apply keeps_foldl | apply keeps_elim | (intro (t : State); have hb := Keeps.refl t) | intro _ | split | rw [id] | simp only [↓keeps_mk])

theorem State.meter_keeps {orig : State} (s : State) (p : Nat) (m : Nat) (n : Nat) (hb : Keeps orig s) :
    Keeps orig (State.meter s p m n).2 := by
  unfold State.meter; try dsimp only
  repeat' (with_reducible first | exact hb | apply State.setEth_keeps | apply keeps_foldl | apply keeps_elim | (intro (t : State); have hb := Keeps.refl t) | intro _ | split | rw [id] | simp only [↓keeps_mk])

theorem State.streamFiltered_keeps {orig : State} (s : State) (x : EthRx) (hb : Keeps orig s) :
    Keeps orig (State.streamFiltered s x).2 := by
  unfold State.streamFiltered; try dsimp only
  repeat' (with_reducible first | exact hb | apply State.meter_keeps | apply keeps_foldl | apply keeps_elim | (intro (t : State); have hb := Keeps.refl t) | intro _ | split | rw [id] | simp only [↓keeps_mk])

theorem State.rxDrop_keeps {orig : State} (s : State) (p : Nat) (hb : Keeps orig s) :
    Keeps orig (State.rxDrop s p) := by
  unfold State.rxDrop; try dsimp only
  repeat' (with_reducible first | exact hb | apply State.addFld_keeps | apply keeps_foldl | apply keeps_elim | (intro (t : State); have hb := Keeps.refl t) | intro _ | split | rw [id] | simp only [↓keeps_mk])

theorem State.toRxRing_keeps {orig : State} (s : State) (x : EthRx) (q : Nat) (hb : Keeps orig s) :
    Keeps orig (State.toRxRing s x q) := by
  unfold State.toRxRing; try dsimp only
  repeat' (with_reducible first | exact hb | apply State.ethCheck_keeps | apply State.ringNext_keeps | apply State.ethWrite_keeps | apply State.writeBytes_keeps | apply keeps_foldl | apply keeps_elim | (intro (t : State); have hb := Keeps.refl t) | intro _ | split | rw [id] | simp only [↓keeps_mk])

theorem execEthRxFrame_keeps {orig : State} (x : EthRx) (s : State) (hb : Keeps orig s) :
    KeepsOut orig (execEthRxFrame x s) := by
  unfold execEthRxFrame; try dsimp only
  repeat' (with_reducible first | exact hb | apply KeepsOut.next | apply State.addFld_keeps | apply State.streamFiltered_keeps | apply State.acceptUnit_keeps | apply State.rxDrop_keeps | apply State.toRxRing_keeps | apply keeps_foldl | apply keeps_elim | (intro (t : State); have hb := Keeps.refl t) | intro _ | split | rw [id] | simp only [↓keeps_mk])

theorem State.queueFrame_keeps {orig : State} (s : State) (p : Nat) (f : EthFrame) (hb : Keeps orig s) :
    Keeps orig (State.queueFrame s p f) := by
  unfold State.queueFrame; try dsimp only
  repeat' (with_reducible first | exact hb | apply State.setEth_keeps | apply keeps_foldl | apply keeps_elim | (intro (t : State); have hb := Keeps.refl t) | intro _ | split | rw [id] | simp only [↓keeps_mk])

theorem execEthTx_keeps {orig : State} (p : Packet) (s : State) (hb : Keeps orig s) :
    KeepsOut orig (execEthTx p s) := by
  unfold execEthTx; try dsimp only
  repeat' (with_reducible first | exact hb | apply KeepsOut.next | apply runPacket_keeps | apply State.queueFrame_keeps | apply keeps_foldl | apply keeps_elim | (intro (t : State); have hb := Keeps.refl t) | intro _ | split | rw [id] | simp only [↓keeps_mk])

theorem State.takeSlots_keeps {base : State} (s : State) (p q n i : Nat) (hb : Keeps base s) :
    Keeps base (State.takeSlots s p q n i) := by
  induction n generalizing s i with
  | zero => exact hb
  | succ n ih => exact ih _ _ (State.queueFrame_keeps _ _ _ (State.ethCheck_keeps _ _ _ _ _ hb))

theorem execEthRdb_keeps {orig : State} (port : Nat) (q : Nat) (w : RegWrite) (s : State) (hb : Keeps orig s) :
    KeepsOut orig (execEthRdb port q w s) := by
  unfold execEthRdb; try dsimp only
  repeat' (with_reducible first | exact hb | apply KeepsOut.next | apply State.busErr_keeps | apply State.regWrite_keeps | apply State.acceptUnit_keeps | apply State.setReg_keeps | apply State.takeSlots_keeps | apply keeps_foldl | apply keeps_elim | (intro (t : State); have hb := Keeps.refl t) | intro _ | split | rw [id] | simp only [↓keeps_mk])

theorem State.takeAdmin_keeps {orig : State} (s : State) (p : Nat) (start : Nat) (hb : Keeps orig s) :
    Keeps orig (State.takeAdmin s p start) := by
  unfold State.takeAdmin; try dsimp only
  repeat' (with_reducible first | exact hb | apply State.putFld_keeps | apply State.setEth_keeps | apply keeps_foldl | apply keeps_elim | (intro (t : State); have hb := Keeps.refl t) | intro _ | split | rw [id] | simp only [↓keeps_mk])

theorem execGateInterval_keeps {orig : State} (port : Nat) (s : State) (hb : Keeps orig s) :
    KeepsOut orig (execGateInterval port s) := by
  unfold execGateInterval; try dsimp only
  repeat' (with_reducible first | exact hb | apply KeepsOut.next | apply State.takeAdmin_keeps | apply State.setEth_keeps | apply keeps_foldl | apply keeps_elim | (intro (t : State); have hb := Keeps.refl t) | intro _ | split | rw [id] | simp only [↓keeps_mk])

theorem State.writeGclctl_keeps {orig : State} (s : State) (p : Nat) (v : Nat) (hb : Keeps orig s) :
    Keeps orig (State.writeGclctl s p v) := by
  unfold State.writeGclctl; try dsimp only
  repeat' (with_reducible first | exact hb | apply State.putFld_keeps | apply State.setEth_keeps | apply keeps_foldl | apply keeps_elim | (intro (t : State); have hb := Keeps.refl t) | intro _ | split | rw [id] | simp only [↓keeps_mk])

theorem execGclChange_keeps {orig : State} (port : Nat) (w : RegWrite) (s : State) (hb : Keeps orig s) :
    KeepsOut orig (execGclChange port w s) := by
  unfold execGclChange; try dsimp only
  repeat' (with_reducible first | exact hb | apply KeepsOut.next | apply State.busErr_keeps | apply State.paramWrite_keeps | apply State.writeGclctl_keeps | apply keeps_foldl | apply keeps_elim | (intro (t : State); have hb := Keeps.refl t) | intro _ | split | rw [id] | simp only [↓keeps_mk])

theorem State.unqueue_keeps {orig : State} (s : State) (p : Nat) (f : EthFrame) (hb : Keeps orig s) :
    Keeps orig (State.unqueue s p f) := by
  unfold State.unqueue; try dsimp only
  repeat' (with_reducible first | exact hb | apply State.setEth_keeps | apply keeps_foldl | apply keeps_elim | (intro (t : State); have hb := Keeps.refl t) | intro _ | split | rw [id] | simp only [↓keeps_mk])

theorem State.slotStatus_keeps {orig : State} (s : State) (p : Nat) (f : EthFrame) (code : Nat) (stamp : Nat) (hb : Keeps orig s) :
    Keeps orig (State.slotStatus s p f code stamp) := by
  unfold State.slotStatus; try dsimp only
  repeat' (with_reducible first | exact hb | apply State.ethWrite_keeps | apply State.ringNext_keeps | apply keeps_foldl | apply keeps_elim | (intro (t : State); have hb := Keeps.refl t) | intro _ | split | rw [id] | simp only [↓keeps_mk])

theorem State.onWire_keeps {orig : State} (s : State) (p : Nat) (f : EthFrame) (bs : List Byte) (hb : Keeps orig s) :
    Keeps orig (State.onWire s p f bs) := by
  unfold State.onWire; try dsimp only
  repeat' (with_reducible first | exact hb | apply State.unqueue_keeps | apply State.setEth_keeps | apply keeps_foldl | apply keeps_elim | (intro (t : State); have hb := Keeps.refl t) | intro _ | split | rw [id] | simp only [↓keeps_mk])

theorem State.startRing_keeps {orig : State} (s : State) (p : Nat) (f : EthFrame) (hb : Keeps orig s) :
    Keeps orig (State.startRing s p f) := by
  unfold State.startRing; try dsimp only
  repeat' (with_reducible first | exact hb | apply State.slotStatus_keeps | apply State.drawFree_keeps | apply State.unqueue_keeps | apply State.ethCheck_keeps | apply State.onWire_keeps | apply keeps_foldl | apply keeps_elim | (intro (t : State); have hb := Keeps.refl t) | intro _ | split | rw [id] | simp only [↓keeps_mk])

theorem execEthLaunch_keeps {orig : State} (port : Nat) (s : State) (hb : Keeps orig s) :
    KeepsOut orig (execEthLaunch port s) := by
  unfold execEthLaunch; try dsimp only
  repeat' (with_reducible first | exact hb | apply KeepsOut.next | apply State.onWire_keeps | apply State.startRing_keeps | apply keeps_foldl | apply keeps_elim | (intro (t : State); have hb := Keeps.refl t) | intro _ | split | rw [id] | simp only [↓keeps_mk])

theorem execEthTxDone_keeps {orig : State} (port : Nat) (s : State) (hb : Keeps orig s) :
    KeepsOut orig (execEthTxDone port s) := by
  unfold execEthTxDone; try dsimp only
  repeat' (with_reducible first | exact hb | apply KeepsOut.next | apply State.send_keeps | apply State.setEth_keeps | apply State.complete_keeps | apply State.slotStatus_keeps | apply keeps_foldl | apply keeps_elim | (intro (t : State); have hb := Keeps.refl t) | intro _ | split | rw [id] | simp only [↓keeps_mk])

theorem State.lateEvent_keeps {orig : State} (s : State) (p : Nat) (part : Nat) (hb : Keeps orig s) :
    Keeps orig (State.lateEvent s p part) := by
  unfold State.lateEvent; try dsimp only
  repeat' (with_reducible first | exact hb | apply State.event_keeps | apply State.setEth_keeps | apply keeps_foldl | apply keeps_elim | (intro (t : State); have hb := Keeps.refl t) | intro _ | split | rw [id] | simp only [↓keeps_mk])

theorem execEthLaunchLate_keeps {orig : State} (port : Nat) (cls : Nat) (s : State) (hb : Keeps orig s) :
    KeepsOut orig (execEthLaunchLate port cls s) := by
  unfold execEthLaunchLate; try dsimp only
  repeat' (with_reducible first | exact hb | apply KeepsOut.next | apply State.lateEvent_keeps | apply State.addFld_keeps | apply State.unqueue_keeps | apply State.complete_keeps | apply State.slotStatus_keeps | apply keeps_foldl | apply keeps_elim | (intro (t : State); have hb := Keeps.refl t) | intro _ | split | rw [id] | simp only [↓keeps_mk])

end Sys2Proof.Machine
end

