-- ==== Sys2Proof/Laws/Keeps/EventLog.lean ====
section
/-! SUPPORT. What the operations of Machine/EventLog.lean keep (Laws/Keeps.lean). -/

set_option linter.unusedTactic false
set_option linter.unreachableTactic false

namespace Sys2Proof.Machine

theorem mirrorFrom_keeps {base : State} (n seq : Nat) (s : State) (hb : Keeps base s) : Keeps base (mirrorFrom n seq s) := by
  induction n generalizing s seq with
  | zero => exact hb
  | succ n ih =>
    rw [mirrorFrom]
    exact ih _ _ (State.sysWrite_keeps _ _ _ hb)

theorem State.catchUp_keeps {orig : State} (s : State) (hb : Keeps orig s) :
    Keeps orig (State.catchUp s) := by
  unfold State.catchUp; try dsimp only
  repeat' (with_reducible first | exact hb | apply mirrorFrom_keeps | apply State.putFld_keeps | apply keeps_foldl | apply keeps_elim | (intro (t : State); have hb := Keeps.refl t) | intro _ | split | rw [id] | simp only [↓keeps_mk])

theorem State.toPersist_keeps {orig : State} (s : State) (rec : List Byte) (hb : Keeps orig s) :
    Keeps orig (State.toPersist s rec) := by
  unfold State.toPersist; try dsimp only
  repeat' (with_reducible first | exact hb | apply State.setFlag_keeps | apply State.putFld_keeps | apply keeps_foldl | apply keeps_elim | (intro (t : State); have hb := Keeps.refl t) | intro _ | split | rw [id] | simp only [↓keeps_mk])

theorem State.logIrq_keeps {orig : State} (s : State) (cls : Nat) (hb : Keeps orig s) :
    Keeps orig (State.logIrq s cls) := by
  unfold State.logIrq; try dsimp only
  repeat' (with_reducible first | exact hb | apply State.raise_keeps | apply keeps_foldl | apply keeps_elim | (intro (t : State); have hb := Keeps.refl t) | intro _ | split | rw [id] | simp only [↓keeps_mk])

theorem State.writeLog_keeps {orig : State} (s : State) (e : LogEvent) (hb : Keeps orig s) :
    Keeps orig (State.writeLog s e) := by
  unfold State.writeLog; try dsimp only
  repeat' (with_reducible first | exact hb | apply State.sysWrite_keeps | apply State.setReg_keeps | apply State.toPersist_keeps | apply State.catchUp_keeps | apply State.logIrq_keeps | apply keeps_foldl | apply keeps_elim | (intro (t : State); have hb := Keeps.refl t) | intro _ | split | rw [id] | simp only [↓keeps_mk])

theorem State.serve_keeps {orig : State} (s : State) (c : Nat) (hb : Keeps orig s) :
    Keeps orig (State.serve s c) := by
  unfold State.serve; try dsimp only
  repeat' (with_reducible first | exact hb | apply State.writeLog_keeps | apply keeps_foldl | apply keeps_elim | (intro (t : State); have hb := Keeps.refl t) | intro _ | split | rw [id] | simp only [↓keeps_mk])

theorem execLogWrite_keeps {orig : State} (s : State) (hb : Keeps orig s) :
    KeepsOut orig (execLogWrite s) := by
  unfold execLogWrite; try dsimp only
  repeat' (with_reducible first | exact hb | apply KeepsOut.next | apply State.writeLog_keeps | apply State.serve_keeps | apply State.catchUp_keeps | apply keeps_foldl | apply keeps_elim | (intro (t : State); have hb := Keeps.refl t) | intro _ | split | rw [id] | simp only [↓keeps_mk])

theorem State.keepErased_keeps {orig : State} (s : State) (slot : Nat) (hb : Keeps orig s) :
    Keeps orig (State.keepErased s slot) := by
  unfold State.keepErased; try dsimp only
  repeat' (with_reducible first | exact hb | apply State.flashErase_keeps | apply keeps_foldl | apply keeps_elim | (intro (t : State); have hb := Keeps.refl t) | intro _ | split | rw [id] | simp only [↓keeps_mk])

theorem execLogPersist_keeps {orig : State} (ok : Bool) (s : State) (hb : Keeps orig s) :
    KeepsOut orig (execLogPersist ok s) := by
  unfold execLogPersist; try dsimp only
  repeat' (with_reducible first | exact hb | apply KeepsOut.next | apply State.keepErased_keeps | apply State.flashWrite_keeps | apply State.addReg_keeps | apply State.putFld_keeps | apply State.anyEvent_keeps | apply State.setFlag_keeps | apply keeps_foldl | apply keeps_elim | (intro (t : State); have hb := Keeps.refl t) | intro _ | split | rw [id] | simp only [↓keeps_mk])

theorem logReadBody_keeps {orig : State} (p : Packet) (id : Nat) (s : State) (hb : Keeps orig s) :
    Keeps orig (logReadBody p id s) := by
  unfold logReadBody; try dsimp only
  repeat' (with_reducible first | exact hb | apply State.finish_keeps | apply State.drawFree_keeps | apply keeps_foldl | apply keeps_elim | (intro (t : State); have hb := Keeps.refl t) | intro _ | split | rw [id] | simp only [↓keeps_mk])

theorem execLogRead_keeps {orig : State} (p : Packet) (s : State) (hb : Keeps orig s) :
    KeepsOut orig (execLogRead p s) := by
  unfold execLogRead; try dsimp only
  repeat' (with_reducible first | exact hb | apply KeepsOut.next | apply runPacket_keeps | apply logReadBody_keeps | apply keeps_foldl | apply keeps_elim | (intro (t : State); have hb := Keeps.refl t) | intro _ | split | rw [id] | simp only [↓keeps_mk])

end Sys2Proof.Machine
end

