-- ==== Sys2Proof/Laws/Keeps/Faults.lean ====
section
/-! SUPPORT. What the operations of Machine/Faults.lean keep (Laws/Keeps.lean). -/

set_option linter.unusedTactic false
set_option linter.unreachableTactic false

namespace Sys2Proof.Machine

theorem State.settle_keeps {orig : State} (s : State) (hb : Keeps orig s) :
    Keeps orig (State.settle s) := by
  unfold State.settle; try dsimp only
  repeat' (with_reducible first | exact hb | apply State.showFnFault_keeps | apply State.showDigest_keeps | apply State.setReg_keeps | apply State.putFld_keeps | apply keeps_foldl | apply keeps_elim | (intro (t : State); have hb := Keeps.refl t) | intro _ | split | rw [id] | simp only [↓keeps_mk])

theorem State.started_keeps {orig : State} (s : State) (fn : Nat) (unit : Nat) (hb : Keeps orig s) :
    Keeps orig (State.started s fn unit).2 := by
  unfold State.started; try dsimp only
  repeat' (with_reducible first | exact hb | apply keeps_foldl | apply keeps_elim | (intro (t : State); have hb := Keeps.refl t) | intro _ | split | rw [id] | simp only [↓keeps_mk])

theorem faultDependents_keeps {orig : State} (x0 : Nat) (x1 : Nat) (x2 : State) (hb : Keeps orig x2) :
    Keeps orig (faultDependents x0 x1 x2) := by
  induction x0 generalizing orig x1 x2 with
  | zero => exact hb
  | succ n ih =>
    unfold faultDependents; try dsimp only
    repeat' (with_reducible first | exact hb | apply State.emit_keeps | apply State.setFn_keeps | apply ih | apply keeps_foldl | apply keeps_elim | (intro (t : State); have hb := Keeps.refl t) | intro _ | split | rw [id] | simp only [↓keeps_mk])

theorem State.faultFn_keeps {orig : State} (s : State) (fn : Nat) (hb : Keeps orig s) :
    Keeps orig (State.faultFn s fn) := by
  unfold State.faultFn; try dsimp only
  repeat' (with_reducible first | exact hb | apply faultDependents_keeps | apply State.emit_keeps | apply State.setFn_keeps | apply State.enterSafe_keeps | apply State.showFnFault_keeps | apply State.settle_keeps | apply keeps_foldl | apply keeps_elim | (intro (t : State); have hb := Keeps.refl t) | intro _ | split | rw [id] | simp only [↓keeps_mk])

theorem State.fnToFault_keeps {orig : State} (s : State) (fn : Nat) (hb : Keeps orig s) :
    Keeps orig (State.fnToFault s fn) := by
  unfold State.fnToFault; try dsimp only
  repeat' (with_reducible first | exact hb | apply State.faultFn_keeps | apply State.started_keeps | apply State.showFnFault_keeps | apply State.setFn_keeps | apply keeps_foldl | apply keeps_elim | (intro (t : State); have hb := Keeps.refl t) | intro _ | split | rw [id] | simp only [↓keeps_mk])

end Sys2Proof.Machine
end

