-- ==== Sys2Proof/Laws/Keeps/Grenlink.lean ====
section
/-! SUPPORT. What the operations of Machine/Grenlink.lean keep (Laws/Keeps.lean). -/

set_option linter.unusedTactic false
set_option linter.unreachableTactic false

namespace Sys2Proof.Machine

theorem State.ownLinkUp_keeps {orig : State} (s : State) (x : LinkUp) (hb : Keeps orig s) :
    Keeps orig (State.ownLinkUp s x) := by
  unfold State.ownLinkUp; try dsimp only
  repeat' (with_reducible first | exact hb | apply State.event_keeps | apply State.putFld_keeps | apply State.setFlag_keeps | apply State.send_keeps | apply State.setUnit_keeps | apply keeps_foldl | apply keeps_elim | (intro (t : State); have hb := Keeps.refl t) | intro _ | split | rw [id] | simp only [↓keeps_mk])

theorem execGlkLinkUp_keeps {orig : State} (x : LinkUp) (s : State) (hb : Keeps orig s) :
    KeepsOut orig (execGlkLinkUp x s) := by
  unfold execGlkLinkUp; try dsimp only
  repeat' (with_reducible first | exact hb | apply KeepsOut.next | apply State.linkChange_keeps | apply State.ownLinkUp_keeps | apply keeps_foldl | apply keeps_elim | (intro (t : State); have hb := Keeps.refl t) | intro _ | split | rw [id] | simp only [↓keeps_mk])

theorem State.portDown_keeps {orig : State} (s : State) (n : Nat) (hb : Keeps orig s) :
    Keeps orig (State.portDown s n) := by
  unfold State.portDown; try dsimp only
  repeat' (with_reducible first | exact hb | apply State.putFld_keeps | apply keeps_foldl | apply keeps_elim | (intro (t : State); have hb := Keeps.refl t) | intro _ | split | rw [id] | simp only [↓keeps_mk])

theorem execGlkLinkDown_keeps {orig : State} (member : Nat) (n : Nat) (s : State) (hb : Keeps orig s) :
    KeepsOut orig (execGlkLinkDown member n s) := by
  unfold execGlkLinkDown; try dsimp only
  repeat' (with_reducible first | exact hb | apply KeepsOut.next | apply State.linkChange_keeps | apply State.setFlag_keeps | apply State.event_keeps | apply State.portDown_keeps | apply keeps_foldl | apply keeps_elim | (intro (t : State); have hb := Keeps.refl t) | intro _ | split | rw [id] | simp only [↓keeps_mk])

theorem execRerouteDone_keeps {orig : State} (dest : Nat) (s : State) (hb : Keeps orig s) :
    KeepsOut orig (execRerouteDone dest s) := by
  unfold execRerouteDone; try dsimp only
  repeat' (with_reducible first | exact hb | apply KeepsOut.next | apply State.flow_keeps | apply keeps_foldl | apply keeps_elim | (intro (t : State); have hb := Keeps.refl t) | intro _ | split | rw [id] | simp only [↓keeps_mk])

theorem execHello_keeps {orig : State} (n : Nat) (h : Hello) (s : State) (hb : Keeps orig s) :
    KeepsOut orig (execHello n h s) := by
  unfold execHello; try dsimp only
  repeat' (with_reducible first | exact hb | apply KeepsOut.next | apply State.linkChange_keeps | apply State.putFld_keeps | apply State.setFlag_keeps | apply State.setUnit_keeps | apply State.event_keeps | apply keeps_foldl | apply keeps_elim | (intro (t : State); have hb := Keeps.refl t) | intro _ | split | rw [id] | simp only [↓keeps_mk])

theorem execPortWait_keeps {orig : State} (n : Nat) (s : State) (hb : Keeps orig s) :
    KeepsOut orig (execPortWait n s) := by
  unfold execPortWait; try dsimp only
  repeat' (with_reducible first | exact hb | apply KeepsOut.next | apply State.setFlag_keeps | apply State.setUnit_keeps | apply keeps_foldl | apply keeps_elim | (intro (t : State); have hb := Keeps.refl t) | intro _ | split | rw [id] | simp only [↓keeps_mk])

theorem State.showConflict_keeps {orig : State} (s : State) (m : Nat) (before : Bool) (hb : Keeps orig s) :
    Keeps orig (State.showConflict s m before) := by
  unfold State.showConflict; try dsimp only
  repeat' (with_reducible first | exact hb | apply State.event_keeps | apply State.showPeers_keeps | apply State.fnToFault_keeps | apply keeps_foldl | apply keeps_elim | (intro (t : State); have hb := Keeps.refl t) | intro _ | split | rw [id] | simp only [↓keeps_mk])

theorem State.rejoin_keeps {orig : State} (s : State) (hb : Keeps orig s) :
    Keeps orig (State.rejoin s) := by
  unfold State.rejoin; try dsimp only
  repeat' (with_reducible first | exact hb | apply State.showPeers_keeps | apply keeps_foldl | apply keeps_elim | (intro (t : State); have hb := Keeps.refl t) | intro _ | split | rw [id] | simp only [↓keeps_mk])

theorem execMemberAnnouncement_keeps {orig : State} (n : Nat) (a : Announce) (s : State) (hb : Keeps orig s) :
    KeepsOut orig (execMemberAnnouncement n a s) := by
  unfold execMemberAnnouncement; try dsimp only
  repeat' (with_reducible first | exact hb | apply KeepsOut.next | apply State.toPorts_keeps | apply State.showConflict_keeps | apply keeps_foldl | apply keeps_elim | (intro (t : State); have hb := Keeps.refl t) | intro _ | split | rw [id] | simp only [↓keeps_mk])

theorem execAnnounceTimer_keeps {orig : State} (s : State) (hb : Keeps orig s) :
    KeepsOut orig (execAnnounceTimer s) := by
  unfold execAnnounceTimer; try dsimp only
  repeat' (with_reducible first | exact hb | apply KeepsOut.next | apply State.toPorts_keeps | apply State.rejoin_keeps | apply keeps_foldl | apply keeps_elim | (intro (t : State); have hb := Keeps.refl t) | intro _ | split | rw [id] | simp only [↓keeps_mk])

theorem State.setBest_keeps {orig : State} (s : State) (c : Nat × Nat) (hb : Keeps orig s) :
    Keeps orig (State.setBest s c) := by
  unfold State.setBest; try dsimp only
  repeat' (with_reducible first | exact hb | apply keeps_foldl | apply keeps_elim | (intro (t : State); have hb := Keeps.refl t) | intro _ | split | rw [id] | simp only [↓keeps_mk])

theorem execRootClaim_keeps {orig : State} (n : Nat) (prio : Nat) (uid : Nat) (s : State) (hb : Keeps orig s) :
    KeepsOut orig (execRootClaim n prio uid s) := by
  unfold execRootClaim; try dsimp only
  repeat' (with_reducible first | exact hb | apply KeepsOut.next | apply State.toPorts_keeps | apply State.setBest_keeps | apply keeps_foldl | apply keeps_elim | (intro (t : State); have hb := Keeps.refl t) | intro _ | split | rw [id] | simp only [↓keeps_mk])

theorem State.adopt_keeps {orig : State} (s : State) (uid : Nat) (hb : Keeps orig s) :
    Keeps orig (State.adopt s uid) := by
  unfold State.adopt; try dsimp only
  repeat' (with_reducible first | exact hb | apply State.putFld_keeps | apply State.setReg_keeps | apply State.setFlag_keeps | apply State.showClusterTime_keeps | apply State.anyEvent_keeps | apply State.addFld_keeps | apply keeps_foldl | apply keeps_elim | (intro (t : State); have hb := Keeps.refl t) | intro _ | split | rw [id] | simp only [↓keeps_mk])

theorem State.claimInterval_keeps {orig : State} (s : State) (hb : Keeps orig s) :
    Keeps orig (State.claimInterval s) := by
  unfold State.claimInterval; try dsimp only
  repeat' (with_reducible first | exact hb | apply State.setBest_keeps | apply State.toPorts_keeps | apply State.adopt_keeps | apply keeps_foldl | apply keeps_elim | (intro (t : State); have hb := Keeps.refl t) | intro _ | split | rw [id] | simp only [↓keeps_mk])

theorem execClaimTimer_keeps {orig : State} (s : State) (hb : Keeps orig s) :
    KeepsOut orig (execClaimTimer s) := by
  unfold execClaimTimer; try dsimp only
  repeat' (with_reducible first | exact hb | apply KeepsOut.next | apply State.claimInterval_keeps | apply keeps_foldl | apply keeps_elim | (intro (t : State); have hb := Keeps.refl t) | intro _ | split | rw [id] | simp only [↓keeps_mk])

theorem execRootLost_keeps {orig : State} (s : State) (hb : Keeps orig s) :
    KeepsOut orig (execRootLost s) := by
  unfold execRootLost; try dsimp only
  repeat' (with_reducible first | exact hb | apply KeepsOut.next | apply State.loseRoot_keeps | apply keeps_foldl | apply keeps_elim | (intro (t : State); have hb := Keeps.refl t) | intro _ | split | rw [id] | simp only [↓keeps_mk])

theorem State.retrainPort_keeps {orig : State} (s : State) (n : Nat) (hb : Keeps orig s) :
    Keeps orig (State.retrainPort s n) := by
  unfold State.retrainPort; try dsimp only
  repeat' (with_reducible first | exact hb | apply keeps_foldl | apply keeps_elim | (intro (t : State); have hb := Keeps.refl t) | intro _ | split | rw [id] | simp only [↓keeps_mk])

theorem State.replayFrom_keeps {orig : State} (s : State) (n : Nat) (flit : Nat) (hb : Keeps orig s) :
    Keeps orig (State.replayFrom s n flit) := by
  unfold State.replayFrom; try dsimp only
  repeat' (with_reducible first | exact hb | apply State.send_keeps | apply keeps_foldl | apply keeps_elim | (intro (t : State); have hb := Keeps.refl t) | intro _ | split | rw [id] | simp only [↓keeps_mk])

theorem execFlitReplay_keeps {orig : State} (n : Nat) (flit : Nat) (asked : Bool) (s : State) (hb : Keeps orig s) :
    KeepsOut orig (execFlitReplay n flit asked s) := by
  unfold execFlitReplay; try dsimp only
  repeat' (with_reducible first | exact hb | apply KeepsOut.next | apply State.addFld_keeps | apply State.replayFrom_keeps | apply State.event_keeps | apply State.retrainPort_keeps | apply State.send_keeps | apply keeps_foldl | apply keeps_elim | (intro (t : State); have hb := Keeps.refl t) | intro _ | split | rw [id] | simp only [↓keeps_mk])

theorem execGlkRetrainDone_keeps {orig : State} (n : Nat) (s : State) (hb : Keeps orig s) :
    KeepsOut orig (execGlkRetrainDone n s) := by
  unfold execGlkRetrainDone; try dsimp only
  repeat' (with_reducible first | exact hb | apply KeepsOut.next | apply State.flow_keeps | apply keeps_foldl | apply keeps_elim | (intro (t : State); have hb := Keeps.refl t) | intro _ | split | rw [id] | simp only [↓keeps_mk])

theorem State.setNap_keeps {orig : State} (s : State) (x : Nap) (hb : Keeps orig s) :
    Keeps orig (State.setNap s x) := by
  unfold State.setNap; try dsimp only
  repeat' (with_reducible first | exact hb | apply keeps_foldl | apply keeps_elim | (intro (t : State); have hb := Keeps.refl t) | intro _ | split | rw [id] | simp only [↓keeps_mk])

theorem State.dropNap_keeps {orig : State} (s : State) (n : Nat) (hb : Keeps orig s) :
    Keeps orig (State.dropNap s n) := by
  unfold State.dropNap; try dsimp only
  repeat' (with_reducible first | exact hb | apply keeps_foldl | apply keeps_elim | (intro (t : State); have hb := Keeps.refl t) | intro _ | split | rw [id] | simp only [↓keeps_mk])

theorem execNapPropose_keeps {orig : State} (n : Nat) (wake : Nat) (s : State) (hb : Keeps orig s) :
    KeepsOut orig (execNapPropose n wake s) := by
  unfold execNapPropose; try dsimp only
  repeat' (with_reducible first | exact hb | apply KeepsOut.next | apply State.toPort_keeps | apply State.setNap_keeps | apply keeps_foldl | apply keeps_elim | (intro (t : State); have hb := Keeps.refl t) | intro _ | split | rw [id] | simp only [↓keeps_mk])

theorem State.fallAsleep_keeps {orig : State} (s : State) (x : Nap) (hb : Keeps orig s) :
    Keeps orig (State.fallAsleep s x) := by
  unfold State.fallAsleep; try dsimp only
  repeat' (with_reducible first | exact hb | apply State.setFlag_keeps | apply State.setNap_keeps | apply keeps_foldl | apply keeps_elim | (intro (t : State); have hb := Keeps.refl t) | intro _ | split | rw [id] | simp only [↓keeps_mk])

theorem execNapProposal_keeps {orig : State} (n : Nat) (wake : Nat) (traffic : Bool) (s : State) (hb : Keeps orig s) :
    KeepsOut orig (execNapProposal n wake traffic s) := by
  unfold execNapProposal; try dsimp only
  repeat' (with_reducible first | exact hb | apply KeepsOut.next | apply State.fallAsleep_keeps | apply State.toPort_keeps | apply keeps_foldl | apply keeps_elim | (intro (t : State); have hb := Keeps.refl t) | intro _ | split | rw [id] | simp only [↓keeps_mk])

theorem execNapAccept_keeps {orig : State} (n : Nat) (s : State) (hb : Keeps orig s) :
    KeepsOut orig (execNapAccept n s) := by
  unfold execNapAccept; try dsimp only
  repeat' (with_reducible first | exact hb | apply KeepsOut.next | apply State.fallAsleep_keeps | apply keeps_foldl | apply keeps_elim | (intro (t : State); have hb := Keeps.refl t) | intro _ | split | rw [id] | simp only [↓keeps_mk])

theorem execNapWake_keeps {orig : State} (n : Nat) (s : State) (hb : Keeps orig s) :
    KeepsOut orig (execNapWake n s) := by
  unfold execNapWake; try dsimp only
  repeat' (with_reducible first | exact hb | apply KeepsOut.next | apply State.send_keeps | apply keeps_foldl | apply keeps_elim | (intro (t : State); have hb := Keeps.refl t) | intro _ | split | rw [id] | simp only [↓keeps_mk])

theorem execWakeSequence_keeps {orig : State} (n : Nat) (s : State) (hb : Keeps orig s) :
    KeepsOut orig (execWakeSequence n s) := by
  unfold execWakeSequence; try dsimp only
  repeat' (with_reducible first | exact hb | apply KeepsOut.next | apply State.flow_keeps | apply State.putFld_keeps | apply State.dropNap_keeps | apply keeps_foldl | apply keeps_elim | (intro (t : State); have hb := Keeps.refl t) | intro _ | split | rw [id] | simp only [↓keeps_mk])

theorem execNapResync_keeps {orig : State} (n : Nat) (s : State) (hb : Keeps orig s) :
    KeepsOut orig (execNapResync n s) := by
  unfold execNapResync; try dsimp only
  repeat' (with_reducible first | exact hb | apply KeepsOut.next | apply State.event_keeps | apply State.addFld_keeps | apply State.retrainPort_keeps | apply State.putFld_keeps | apply State.dropNap_keeps | apply keeps_foldl | apply keeps_elim | (intro (t : State); have hb := Keeps.refl t) | intro _ | split | rw [id] | simp only [↓keeps_mk])

theorem execLinkDelayMeasure_keeps {orig : State} (x : DelayMeasure) (s : State) (hb : Keeps orig s) :
    KeepsOut orig (execLinkDelayMeasure x s) := by
  unfold execLinkDelayMeasure; try dsimp only
  repeat' (with_reducible first | exact hb | apply KeepsOut.next | apply State.putFld_keeps | apply State.setReg_keeps | apply State.showClusterTime_keeps | apply keeps_foldl | apply keeps_elim | (intro (t : State); have hb := Keeps.refl t) | intro _ | split | rw [id] | simp only [↓keeps_mk])

theorem State.showArmed_keeps {orig : State} (s : State) (hb : Keeps orig s) :
    Keeps orig (State.showArmed s) := by
  unfold State.showArmed; try dsimp only
  repeat' (with_reducible first | exact hb | apply State.putFld_keeps | apply keeps_foldl | apply keeps_elim | (intro (t : State); have hb := Keeps.refl t) | intro _ | split | rw [id] | simp only [↓keeps_mk])

theorem State.setRoot_keeps {orig : State} (s : State) (b : RootBar) (hb : Keeps orig s) :
    Keeps orig (State.setRoot s b) := by
  unfold State.setRoot; try dsimp only
  repeat' (with_reducible first | exact hb | apply keeps_foldl | apply keeps_elim | (intro (t : State); have hb := Keeps.refl t) | intro _ | split | rw [id] | simp only [↓keeps_mk])

theorem State.dropRoot_keeps {orig : State} (s : State) (id : Nat) (hb : Keeps orig s) :
    Keeps orig (State.dropRoot s id) := by
  unfold State.dropRoot; try dsimp only
  repeat' (with_reducible first | exact hb | apply State.showArmed_keeps | apply keeps_foldl | apply keeps_elim | (intro (t : State); have hb := Keeps.refl t) | intro _ | split | rw [id] | simp only [↓keeps_mk])

theorem State.toRoot_keeps {base : State} (s : State) (m : GlkMsg) (here : State → State) (hf : ∀ t, Keeps t (here t))
    (hb : Keeps base s) : Keeps base (State.toRoot s m here) := by
  unfold State.toRoot
  split
  · exact hb.trans (hf s)
  · exact State.toMember_keeps _ _ _ hb

theorem State.takeReply_keeps {orig : State} (s : State) (id : Nat) (member : Nat) (ack : Bool) (hb : Keeps orig s) :
    Keeps orig (State.takeReply s id member ack) := by
  unfold State.takeReply; try dsimp only
  repeat' (with_reducible first | exact hb | apply State.setRoot_keeps | apply keeps_foldl | apply keeps_elim | (intro (t : State); have hb := Keeps.refl t) | intro _ | split | rw [id] | simp only [↓keeps_mk])

theorem State.takeArm_keeps {orig : State} (s : State) (x : BarArm) (hb : Keeps orig s) :
    Keeps orig (State.takeArm s x) := by
  unfold State.takeArm; try dsimp only
  repeat' (with_reducible first | exact hb | apply State.showArmed_keeps | apply State.toRoot_keeps | apply State.takeReply_keeps | apply keeps_foldl | apply keeps_elim | (intro (t : State); have hb := Keeps.refl t) | intro _ | split | rw [id] | simp only [↓keeps_mk])

theorem execBarrierArm_keeps {orig : State} (x : BarArm) (s : State) (hb : Keeps orig s) :
    KeepsOut orig (execBarrierArm x s) := by
  unfold execBarrierArm; try dsimp only
  repeat' (with_reducible first | exact hb | apply KeepsOut.next | apply State.takeArm_keeps | apply keeps_foldl | apply keeps_elim | (intro (t : State); have hb := Keeps.refl t) | intro _ | split | rw [id] | simp only [↓keeps_mk])

theorem State.sendArms_keeps {orig : State} (s : State) (x : BarArm) (members : Nat) (hb : Keeps orig s) :
    Keeps orig (State.sendArms s x members) := by
  unfold State.sendArms; try dsimp only
  repeat' (with_reducible first | exact hb | apply State.takeArm_keeps | apply State.toMember_keeps | apply State.takeReply_keeps | apply keeps_foldl | apply keeps_elim | (intro (t : State); have hb := Keeps.refl t) | intro _ | split | rw [id] | simp only [↓keeps_mk])

theorem barrierBody_keeps {orig : State} (p : Packet) (id : Nat) (s : State) (hb : Keeps orig s) :
    Keeps orig (barrierBody p id s) := by
  unfold barrierBody; try dsimp only
  repeat' (with_reducible first | exact hb | apply State.finish_keeps | apply State.sendArms_keeps | apply State.showArmed_keeps | apply keeps_foldl | apply keeps_elim | (intro (t : State); have hb := Keeps.refl t) | intro _ | split | rw [id] | simp only [↓keeps_mk])

theorem barrierForward_keeps {orig : State} (p : Packet) (id : Nat) (s : State) (hb : Keeps orig s) :
    Keeps orig (barrierForward p id s) := by
  unfold barrierForward; try dsimp only
  repeat' (with_reducible first | exact hb | apply State.finish_keeps | apply State.toMember_keeps | apply keeps_foldl | apply keeps_elim | (intro (t : State); have hb := Keeps.refl t) | intro _ | split | rw [id] | simp only [↓keeps_mk])

theorem execGlkBarrier_keeps {orig : State} (p : Packet) (s : State) (hb : Keeps orig s) :
    KeepsOut orig (execGlkBarrier p s) := by
  unfold execGlkBarrier; try dsimp only
  repeat' (with_reducible first | exact hb | apply KeepsOut.next | apply runPacket_keeps | apply barrierBody_keeps | apply barrierForward_keeps | apply keeps_foldl | apply keeps_elim | (intro (t : State); have hb := Keeps.refl t) | intro _ | split | rw [id] | simp only [↓keeps_mk])

theorem execBarrierReply_keeps {orig : State} (id : Nat) (member : Nat) (ack : Bool) (s : State) (hb : Keeps orig s) :
    KeepsOut orig (execBarrierReply id member ack s) := by
  unfold execBarrierReply; try dsimp only
  repeat' (with_reducible first | exact hb | apply KeepsOut.next | apply State.takeReply_keeps | apply keeps_foldl | apply keeps_elim | (intro (t : State); have hb := Keeps.refl t) | intro _ | split | rw [id] | simp only [↓keeps_mk])

theorem State.takeDecision_keeps {orig : State} (s : State) (id : Nat) (confirm : Bool) (hb : Keeps orig s) :
    Keeps orig (State.takeDecision s id confirm) := by
  unfold State.takeDecision; try dsimp only
  repeat' (with_reducible first | exact hb | apply State.showArmed_keeps | apply keeps_foldl | apply keeps_elim | (intro (t : State); have hb := Keeps.refl t) | intro _ | split | rw [id] | simp only [↓keeps_mk])

theorem State.sendDecision_keeps {orig : State} (s : State) (b : RootBar) (confirm : Bool) (hb : Keeps orig s) :
    Keeps orig (State.sendDecision s b confirm) := by
  unfold State.sendDecision; try dsimp only
  repeat' (with_reducible first | exact hb | apply State.takeDecision_keeps | apply State.toMember_keeps | apply keeps_foldl | apply keeps_elim | (intro (t : State); have hb := Keeps.refl t) | intro _ | split | rw [id] | simp only [↓keeps_mk])

theorem State.endBarrier_keeps {orig : State} (s : State) (id : Nat) (st : Nat) (result : Nat) (hb : Keeps orig s) :
    Keeps orig (State.endBarrier s id st result) := by
  unfold State.endBarrier; try dsimp only
  repeat' (with_reducible first | exact hb | apply State.complete_keeps | apply State.dropRoot_keeps | apply keeps_foldl | apply keeps_elim | (intro (t : State); have hb := Keeps.refl t) | intro _ | split | rw [id] | simp only [↓keeps_mk])

theorem execBarrierDecide_keeps {orig : State} (id : Nat) (s : State) (hb : Keeps orig s) :
    KeepsOut orig (execBarrierDecide id s) := by
  unfold execBarrierDecide; try dsimp only
  repeat' (with_reducible first | exact hb | apply KeepsOut.next | apply State.sendDecision_keeps | apply State.setRoot_keeps | apply State.endBarrier_keeps | apply State.anyEvent_keeps | apply State.setFlag_keeps | apply keeps_foldl | apply keeps_elim | (intro (t : State); have hb := Keeps.refl t) | intro _ | split | rw [id] | simp only [↓keeps_mk])

theorem execBarrierConfirm_keeps {orig : State} (id : Nat) (confirm : Bool) (s : State) (hb : Keeps orig s) :
    KeepsOut orig (execBarrierConfirm id confirm s) := by
  unfold execBarrierConfirm; try dsimp only
  repeat' (with_reducible first | exact hb | apply KeepsOut.next | apply State.takeDecision_keeps | apply keeps_foldl | apply keeps_elim | (intro (t : State); have hb := Keeps.refl t) | intro _ | split | rw [id] | simp only [↓keeps_mk])

theorem State.takeReport_keeps {orig : State} (s : State) (id : Nat) (member : Nat) (released : Bool) (hb : Keeps orig s) :
    Keeps orig (State.takeReport s id member released) := by
  unfold State.takeReport; try dsimp only
  repeat' (with_reducible first | exact hb | apply State.endBarrier_keeps | apply State.setRoot_keeps | apply keeps_foldl | apply keeps_elim | (intro (t : State); have hb := Keeps.refl t) | intro _ | split | rw [id] | simp only [↓keeps_mk])

theorem execBarrierRelease_keeps {orig : State} (id : Nat) (s : State) (hb : Keeps orig s) :
    KeepsOut orig (execBarrierRelease id s) := by
  unfold execBarrierRelease; try dsimp only
  repeat' (with_reducible first | exact hb | apply KeepsOut.next | apply State.showArmed_keeps | apply State.signal_keeps | apply State.anyEvent_keeps | apply State.setFlag_keeps | apply State.toRoot_keeps | apply State.takeReport_keeps | apply keeps_foldl | apply keeps_elim | (intro (t : State); have hb := Keeps.refl t) | intro _ | split | rw [id] | simp only [↓keeps_mk])

theorem execBarrierReport_keeps {orig : State} (id : Nat) (member : Nat) (released : Bool) (s : State) (hb : Keeps orig s) :
    KeepsOut orig (execBarrierReport id member released s) := by
  unfold execBarrierReport; try dsimp only
  repeat' (with_reducible first | exact hb | apply KeepsOut.next | apply State.takeReport_keeps | apply keeps_foldl | apply keeps_elim | (intro (t : State); have hb := Keeps.refl t) | intro _ | split | rw [id] | simp only [↓keeps_mk])

theorem imageBody_keeps {orig : State} (p : Packet) (id : Nat) (s : State) (hb : Keeps orig s) :
    Keeps orig (imageBody p id s) := by
  unfold imageBody; try dsimp only
  repeat' (with_reducible first | exact hb | apply State.finish_keeps | apply State.bumpGen_keeps | apply keeps_foldl | apply keeps_elim | (intro (t : State); have hb := Keeps.refl t) | intro _ | split | rw [id] | simp only [↓keeps_mk])

theorem execGlkImage_keeps {orig : State} (p : Packet) (s : State) (hb : Keeps orig s) :
    KeepsOut orig (execGlkImage p s) := by
  unfold execGlkImage; try dsimp only
  repeat' (with_reducible first | exact hb | apply KeepsOut.next | apply runPacket_keeps | apply imageBody_keeps | apply keeps_foldl | apply keeps_elim | (intro (t : State); have hb := Keeps.refl t) | intro _ | split | rw [id] | simp only [↓keeps_mk])

theorem execGlkDigestRead_keeps {orig : State} (p : Packet) (s : State) (hb : Keeps orig s) :
    KeepsOut orig (execGlkDigestRead p s) := by
  unfold execGlkDigestRead; try dsimp only
  repeat' (with_reducible first | exact hb | apply KeepsOut.next | apply runPacket_keeps | apply State.finish_keeps | apply keeps_foldl | apply keeps_elim | (intro (t : State); have hb := Keeps.refl t) | intro _ | split | rw [id] | simp only [↓keeps_mk])

theorem State.unfence_keeps {orig : State} (s : State) (hb : Keeps orig s) :
    Keeps orig (State.unfence s) := by
  unfold State.unfence; try dsimp only
  repeat' (with_reducible first | exact hb | apply State.putFld_keeps | apply keeps_foldl | apply keeps_elim | (intro (t : State); have hb := Keeps.refl t) | intro _ | split | rw [id] | simp only [↓keeps_mk])

theorem execGlkFenceClear_keeps {orig : State} (p : Packet) (s : State) (hb : Keeps orig s) :
    KeepsOut orig (execGlkFenceClear p s) := by
  unfold execGlkFenceClear; try dsimp only
  repeat' (with_reducible first | exact hb | apply KeepsOut.next | apply runPacket_keeps | apply doneBody_keeps | apply State.unfence_keeps | apply keeps_foldl | apply keeps_elim | (intro (t : State); have hb := Keeps.refl t) | intro _ | split | rw [id] | simp only [↓keeps_mk])

theorem State.fence_keeps {orig : State} (s : State) (hb : Keeps orig s) :
    Keeps orig (State.fence s) := by
  unfold State.fence; try dsimp only
  repeat' (with_reducible first | exact hb | apply State.setFlag_keeps | apply keeps_foldl | apply keeps_elim | (intro (t : State); have hb := Keeps.refl t) | intro _ | split | rw [id] | simp only [↓keeps_mk])

theorem execFenceSuspendEnd_keeps {orig : State} (s : State) (hb : Keeps orig s) :
    KeepsOut orig (execFenceSuspendEnd s) := by
  unfold execFenceSuspendEnd; try dsimp only
  repeat' (with_reducible first | exact hb | apply KeepsOut.next | apply State.fence_keeps | apply keeps_foldl | apply keeps_elim | (intro (t : State); have hb := Keeps.refl t) | intro _ | split | rw [id] | simp only [↓keeps_mk])

theorem State.logMismatch_keeps {orig : State} (s : State) (ref : Nat) (hb : Keeps orig s) :
    Keeps orig (State.logMismatch s ref) := by
  unfold State.logMismatch; try dsimp only
  repeat' (with_reducible first | exact hb | apply State.emit_keeps | apply keeps_foldl | apply keeps_elim | (intro (t : State); have hb := Keeps.refl t) | intro _ | split | rw [id] | simp only [↓keeps_mk])

theorem State.judgeTag_keeps {orig : State} (s : State) (ref : Nat) (hb : Keeps orig s) :
    Keeps orig (State.judgeTag s ref) := by
  unfold State.judgeTag; try dsimp only
  repeat' (with_reducible first | exact hb | apply State.anyEvent_keeps | apply State.unfence_keeps | apply State.fence_keeps | apply State.logMismatch_keeps | apply State.setFlag_keeps | apply keeps_foldl | apply keeps_elim | (intro (t : State); have hb := Keeps.refl t) | intro _ | split | rw [id] | simp only [↓keeps_mk])

theorem State.sendHeartbeat_keeps {orig : State} (s : State) (hb : Keeps orig s) :
    Keeps orig (State.sendHeartbeat s) := by
  unfold State.sendHeartbeat; try dsimp only
  repeat' (with_reducible first | exact hb | apply State.send_keeps | apply keeps_foldl | apply keeps_elim | (intro (t : State); have hb := Keeps.refl t) | intro _ | split | rw [id] | simp only [↓keeps_mk])

theorem execHeartbeatTimer_keeps {orig : State} (s : State) (hb : Keeps orig s) :
    KeepsOut orig (execHeartbeatTimer s) := by
  unfold execHeartbeatTimer; try dsimp only
  repeat' (with_reducible first | exact hb | apply KeepsOut.next | apply State.putFld_keeps | apply State.setReg_keeps | apply State.judgeTag_keeps | apply State.sendHeartbeat_keeps | apply keeps_foldl | apply keeps_elim | (intro (t : State); have hb := Keeps.refl t) | intro _ | split | rw [id] | simp only [↓keeps_mk])

theorem execHeartbeatRx_keeps {orig : State} (data : List Byte) (s : State) (hb : Keeps orig s) :
    KeepsOut orig (execHeartbeatRx data s) := by
  unfold execHeartbeatRx; try dsimp only
  repeat' (with_reducible first | exact hb | apply KeepsOut.next | apply keeps_foldl | apply keeps_elim | (intro (t : State); have hb := Keeps.refl t) | intro _ | split | rw [id] | simp only [↓keeps_mk])

end Sys2Proof.Machine
end

