-- ==== Sys2Proof/Laws/Keeps/KvCache.lean ====
section
/-! SUPPORT. What the operations of Machine/KvCache.lean keep (Laws/Keeps.lean). -/

set_option linter.unusedTactic false
set_option linter.unreachableTactic false

namespace Sys2Proof.Machine

theorem State.showRes_keeps {orig : State} (s : State) (hb : Keeps orig s) :
    Keeps orig (State.showRes s) := by
  unfold State.showRes; try dsimp only
  repeat' (with_reducible first | exact hb | apply State.putFld_keeps | apply keeps_foldl | apply keeps_elim | (intro (t : State); have hb := Keeps.refl t) | intro _ | split | rw [id] | simp only [↓keeps_mk])

theorem State.popPages_keeps {orig : State} (p : Nat) (x1 : Nat) (x2 : State) (hb : Keeps orig x2) :
    Keeps orig (State.popPages p x1 x2).2 := by
  induction x1 generalizing orig p x2 with
  | zero => exact hb
  | succ n ih =>
    unfold State.popPages; try dsimp only
    repeat' (with_reducible first | exact hb | apply State.showRes_keeps | apply State.setReg_keeps | apply State.setOwner_keeps | apply State.putFld_keeps | apply ih | apply keeps_foldl | apply keeps_elim | (intro (t : State); have hb := Keeps.refl t) | intro _ | split | rw [id] | simp only [↓keeps_mk])

theorem State.doubleFree_keeps {orig : State} (s : State) (page : Nat) (part : Nat) (hb : Keeps orig s) :
    Keeps orig (State.doubleFree s page part) := by
  unfold State.doubleFree; try dsimp only
  repeat' (with_reducible first | exact hb | apply State.dataEvent_keeps | apply State.setFlag_keeps | apply keeps_foldl | apply keeps_elim | (intro (t : State); have hb := Keeps.refl t) | intro _ | split | rw [id] | simp only [↓keeps_mk])

theorem State.pushPage_keeps {orig : State} (s : State) (page : Nat) (hb : Keeps orig s) :
    Keeps orig (State.pushPage s page) := by
  unfold State.pushPage; try dsimp only
  repeat' (with_reducible first | exact hb | apply State.doubleFree_keeps | apply State.putFld_keeps | apply State.sysWriteNum_keeps | apply State.showRes_keeps | apply State.setReg_keeps | apply State.setOwner_keeps | apply keeps_foldl | apply keeps_elim | (intro (t : State); have hb := Keeps.refl t) | intro _ | split | rw [id] | simp only [↓keeps_mk])

theorem execAdmaPush_keeps {orig : State} (w : RegWrite) (s : State) (hb : Keeps orig s) :
    KeepsOut orig (execAdmaPush w s) := by
  unfold execAdmaPush; try dsimp only
  repeat' (with_reducible first | exact hb | apply KeepsOut.next | apply State.regWrite_keeps | apply State.pushPage_keeps | apply keeps_foldl | apply keeps_elim | (intro (t : State); have hb := Keeps.refl t) | intro _ | split | rw [id] | simp only [↓keeps_mk])

theorem State.pushOwn_keeps {orig : State} (s : State) (p : Nat) (page : Nat) (hb : Keeps orig s) :
    Keeps orig (State.pushOwn s p page).1 := by
  unfold State.pushOwn; try dsimp only
  repeat' (with_reducible first | exact hb | apply State.pushPage_keeps | apply State.ownerFail_keeps | apply keeps_foldl | apply keeps_elim | (intro (t : State); have hb := Keeps.refl t) | intro _ | split | rw [id] | simp only [↓keeps_mk])

theorem pushPages_keeps {orig : State} (p : Nat) (x1 : List Nat) (x2 : State) (hb : Keeps orig x2) :
    Keeps orig (pushPages p x1 x2).1 := by
  induction x1 generalizing orig p x2 with
  | nil => exact hb
  | cons e l ih =>
    unfold pushPages; try dsimp only
    repeat' (with_reducible first | exact hb | apply State.pushOwn_keeps | apply ih | apply keeps_foldl | apply keeps_elim | (intro (t : State); have hb := Keeps.refl t) | intro _ | split | rw [id] | simp only [↓keeps_mk])

theorem State.nodePut_keeps {orig : State} (s : State) (k : Nat) (off : Nat) (n : Nat) (v : Nat) (hb : Keeps orig s) :
    Keeps orig (State.nodePut s k off n v) := by
  unfold State.nodePut; try dsimp only
  repeat' (with_reducible first | exact hb | apply State.sysWriteNum_keeps | apply keeps_foldl | apply keeps_elim | (intro (t : State); have hb := Keeps.refl t) | intro _ | split | rw [id] | simp only [↓keeps_mk])

theorem linkNodes_keeps {orig : State} (x0 : List Nat) (x1 : State) (hb : Keeps orig x1) :
    Keeps orig (linkNodes x0 x1) := by
  induction x0 generalizing orig x1 with
  | nil => exact hb
  | cons e l ih =>
    unfold linkNodes; try dsimp only
    repeat' (with_reducible first | exact hb | apply State.nodePut_keeps | apply ih | apply keeps_foldl | apply keeps_elim | (intro (t : State); have hb := Keeps.refl t) | intro _ | split | rw [id] | simp only [↓keeps_mk])

theorem State.setChain_keeps {orig : State} (s : State) (hash : Nat) (l : List Nat) (hb : Keeps orig s) :
    Keeps orig (State.setChain s hash l) := by
  unfold State.setChain; try dsimp only
  repeat' (with_reducible first | exact hb | apply linkNodes_keeps | apply State.sysWriteNum_keeps | apply keeps_foldl | apply keeps_elim | (intro (t : State); have hb := Keeps.refl t) | intro _ | split | rw [id] | simp only [↓keeps_mk])

theorem linkReclaim_keeps {base : State} (prev : Nat) (l : List Nat) (s : State) (hb : Keeps base s) :
    Keeps base (linkReclaim prev l s) := by
  induction l generalizing prev s with
  | nil => exact hb
  | cons k l ih =>
    rw [linkReclaim]
    exact ih _ _ (State.nodePut_keeps _ _ _ _ _ (State.nodePut_keeps _ _ _ _ _ hb))

theorem State.setReclaim_keeps {orig : State} (s : State) (l : List Nat) (hb : Keeps orig s) :
    Keeps orig (State.setReclaim s l) := by
  unfold State.setReclaim; try dsimp only
  repeat' (with_reducible first | exact hb | apply linkReclaim_keeps | apply keeps_foldl | apply keeps_elim | (intro (t : State); have hb := Keeps.refl t) | intro _ | split | rw [id] | simp only [↓keeps_mk])

theorem State.listNode_keeps {orig : State} (s : State) (k : Nat) (hb : Keeps orig s) :
    Keeps orig (State.listNode s k) := by
  unfold State.listNode; try dsimp only
  repeat' (with_reducible first | exact hb | apply State.setReclaim_keeps | apply keeps_foldl | apply keeps_elim | (intro (t : State); have hb := Keeps.refl t) | intro _ | split | rw [id] | simp only [↓keeps_mk])

theorem State.checkReclaim_keeps {orig : State} (s : State) (k : Nat) (hb : Keeps orig s) :
    Keeps orig (State.checkReclaim s k) := by
  unfold State.checkReclaim; try dsimp only
  repeat' (with_reducible first | exact hb | apply State.listNode_keeps | apply keeps_foldl | apply keeps_elim | (intro (t : State); have hb := Keeps.refl t) | intro _ | split | rw [id] | simp only [↓keeps_mk])

theorem State.unlistNode_keeps {orig : State} (s : State) (k : Nat) (hb : Keeps orig s) :
    Keeps orig (State.unlistNode s k) := by
  unfold State.unlistNode; try dsimp only
  repeat' (with_reducible first | exact hb | apply State.nodePut_keeps | apply State.setReclaim_keeps | apply keeps_foldl | apply keeps_elim | (intro (t : State); have hb := Keeps.refl t) | intro _ | split | rw [id] | simp only [↓keeps_mk])

theorem State.releaseNode_keeps {orig : State} (s : State) (p : Nat) (k : Nat) (hb : Keeps orig s) :
    Keeps orig (State.releaseNode s p k) := by
  unfold State.releaseNode; try dsimp only
  repeat' (with_reducible first | exact hb | apply State.checkReclaim_keeps | apply State.nodePut_keeps | apply State.ownerFail_keeps | apply keeps_foldl | apply keeps_elim | (intro (t : State); have hb := Keeps.refl t) | intro _ | split | rw [id] | simp only [↓keeps_mk])

theorem State.setNodesOf_keeps {orig : State} (s : State) (p : Nat) (n : Nat) (hb : Keeps orig s) :
    Keeps orig (State.setNodesOf s p n) := by
  unfold State.setNodesOf; try dsimp only
  repeat' (with_reducible first | exact hb | apply keeps_foldl | apply keeps_elim | (intro (t : State); have hb := Keeps.refl t) | intro _ | split | rw [id] | simp only [↓keeps_mk])

theorem State.reclaimNode_keeps {orig : State} (s : State) (k : Nat) (hb : Keeps orig s) :
    Keeps orig (State.reclaimNode s k).1 := by
  unfold State.reclaimNode; try dsimp only
  repeat' (with_reducible first | exact hb | apply pushPages_keeps | apply State.unlistNode_keeps | apply State.setChain_keeps | apply State.nodePut_keeps | apply State.setNodesOf_keeps | apply State.checkReclaim_keeps | apply keeps_foldl | apply keeps_elim | (intro (t : State); have hb := Keeps.refl t) | intro _ | split | rw [id] | simp only [↓keeps_mk])

theorem State.showParked_keeps {orig : State} (s : State) (hb : Keeps orig s) :
    Keeps orig (State.showParked s) := by
  unfold State.showParked; try dsimp only
  repeat' (with_reducible first | exact hb | apply State.putFld_keeps | apply keeps_foldl | apply keeps_elim | (intro (t : State); have hb := Keeps.refl t) | intro _ | split | rw [id] | simp only [↓keeps_mk])

theorem State.unpark_keeps {orig : State} (s : State) (p : Nat) (q : Nat) (hb : Keeps orig s) :
    Keeps orig (State.unpark s p q) := by
  unfold State.unpark; try dsimp only
  repeat' (with_reducible first | exact hb | apply State.seqPut_keeps | apply State.showParked_keeps | apply keeps_foldl | apply keeps_elim | (intro (t : State); have hb := Keeps.refl t) | intro _ | split | rw [id] | simp only [↓keeps_mk])

theorem State.park_keeps {orig : State} (s : State) (p : Nat) (q : Nat) (at_ : Nat) (hb : Keeps orig s) :
    Keeps orig (State.park s p q at_) := by
  unfold State.park; try dsimp only
  repeat' (with_reducible first | exact hb | apply State.seqPut_keeps | apply State.showParked_keeps | apply keeps_foldl | apply keeps_elim | (intro (t : State); have hb := Keeps.refl t) | intro _ | split | rw [id] | simp only [↓keeps_mk])

theorem State.freeRow_keeps {orig : State} (s : State) (p : Nat) (q : Nat) (j : Nat) (hb : Keeps orig s) :
    Keeps orig (State.freeRow s p q j).1 := by
  unfold State.freeRow; try dsimp only
  repeat' (with_reducible first | exact hb | apply pushPages_keeps | apply State.releaseNode_keeps | apply keeps_foldl | apply keeps_elim | (intro (t : State); have hb := Keeps.refl t) | intro _ | split | rw [id] | simp only [↓keeps_mk])

theorem freeRows_keeps {orig : State} (p : Nat) (q : Nat) (x2 : List Nat) (x3 : State) (hb : Keeps orig x3) :
    Keeps orig (freeRows p q x2 x3).1 := by
  induction x2 generalizing orig p q x3 with
  | nil => exact hb
  | cons e l ih =>
    unfold freeRows; try dsimp only
    repeat' (with_reducible first | exact hb | apply State.freeRow_keeps | apply ih | apply keeps_foldl | apply keeps_elim | (intro (t : State); have hb := Keeps.refl t) | intro _ | split | rw [id] | simp only [↓keeps_mk])

theorem State.freeSeq_keeps {orig : State} (s : State) (p : Nat) (q : Nat) (hb : Keeps orig s) :
    Keeps orig (State.freeSeq s p q).1 := by
  unfold State.freeSeq; try dsimp only
  repeat' (with_reducible first | exact hb | apply freeRows_keeps | apply pushPages_keeps | apply keeps_foldl | apply keeps_elim | (intro (t : State); have hb := Keeps.refl t) | intro _ | split | rw [id] | simp only [↓keeps_mk])

theorem State.signalSeq_keeps {orig : State} (s : State) (p : Nat) (q : Nat) (hb : Keeps orig s) :
    Keeps orig (State.signalSeq s p q) := by
  unfold State.signalSeq; try dsimp only
  repeat' (with_reducible first | exact hb | apply State.signal_keeps | apply keeps_foldl | apply keeps_elim | (intro (t : State); have hb := Keeps.refl t) | intro _ | split | rw [id] | simp only [↓keeps_mk])

theorem kvBody_keeps {base : State} (p : Packet) (accepts : State → Bool) (body : Nat → State → State) (id : Nat) (s : State)
    (hbody : ∀ n t, Keeps t (body n t)) (hb : Keeps base s) : Keeps base (kvBody p accepts body id s) := by
  unfold kvBody
  repeat' split
  · exact State.finish_keeps _ _ _ _ _ hb
  · exact hb.trans (hbody _ _)
  · exact State.finish_keeps _ _ _ _ _ hb

theorem kvCreateBody_keeps {orig : State} (p : Packet) (id : Nat) (s : State) (hb : Keeps orig s) :
    Keeps orig (kvCreateBody p id s) := by
  unfold kvCreateBody; try dsimp only
  repeat' (with_reducible first | exact hb | apply State.finish_keeps | apply State.sysWrite_keeps | apply keeps_foldl | apply keeps_elim | (intro (t : State); have hb := Keeps.refl t) | intro _ | split | rw [id] | simp only [↓keeps_mk])

theorem execKvCreate_keeps {orig : State} (p : Packet) (s : State) (hb : Keeps orig s) :
    KeepsOut orig (execKvCreate p s) := by
  unfold execKvCreate; try dsimp only
  repeat' (with_reducible first | exact hb | apply KeepsOut.next | apply runPacket_keeps | apply kvBody_keeps | apply kvCreateBody_keeps | apply keeps_foldl | apply keeps_elim | (intro (t : State); have hb := Keeps.refl t) | intro _ | split | rw [id] | simp only [↓keeps_mk])

theorem attachBlocks_keeps {orig : State} (p : Nat) (q : Nat) (x2 : Nat) (x3 : List Byte) (x4 : State) (hb : Keeps orig x4) :
    Keeps orig (attachBlocks p q x2 x3 x4).1 := by
  induction x2 generalizing orig p q x3 x4 with
  | zero => exact hb
  | succ n ih =>
    unfold attachBlocks; try dsimp only
    repeat' (with_reducible first | exact hb | apply State.addFld_keeps | apply State.nodePut_keeps | apply State.unlistNode_keeps | apply State.sysWrite_keeps | apply State.seqPut_keeps | apply ih | apply keeps_foldl | apply keeps_elim | (intro (t : State); have hb := Keeps.refl t) | intro _ | split | rw [id] | simp only [↓keeps_mk])

theorem kvAttachBody_keeps {orig : State} (p : Packet) (id : Nat) (s : State) (hb : Keeps orig s) :
    Keeps orig (kvAttachBody p id s) := by
  unfold kvAttachBody; try dsimp only
  repeat' (with_reducible first | exact hb | apply attachBlocks_keeps | apply State.finish_keeps | apply keeps_foldl | apply keeps_elim | (intro (t : State); have hb := Keeps.refl t) | intro _ | split | rw [id] | simp only [↓keeps_mk])

theorem execKvAttach_keeps {orig : State} (p : Packet) (s : State) (hb : Keeps orig s) :
    KeepsOut orig (execKvAttach p s) := by
  unfold execKvAttach; try dsimp only
  repeat' (with_reducible first | exact hb | apply KeepsOut.next | apply runPacket_keeps | apply kvBody_keeps | apply kvAttachBody_keeps | apply keeps_foldl | apply keeps_elim | (intro (t : State); have hb := Keeps.refl t) | intro _ | split | rw [id] | simp only [↓keeps_mk])

theorem State.starve_keeps {orig : State} (s : State) (p : Nat) (q : Nat) (want : Nat) (hb : Keeps orig s) :
    Keeps orig (State.starve s p q want) := by
  unfold State.starve; try dsimp only
  repeat' (with_reducible first | exact hb | apply State.setFlag_keeps | apply State.seqPut_keeps | apply State.park_keeps | apply State.dataEvent_keeps | apply keeps_foldl | apply keeps_elim | (intro (t : State); have hb := Keeps.refl t) | intro _ | split | rw [id] | simp only [↓keeps_mk])

theorem State.writeBlock_keeps {orig : State} (s : State) (p : Nat) (q : Nat) (j : Nat) (pages : List Nat) (hb : Keeps orig s) :
    Keeps orig (State.writeBlock s p q j pages) := by
  unfold State.writeBlock; try dsimp only
  repeat' (with_reducible first | exact hb | apply State.sysWrite_keeps | apply State.sysWriteNum_keeps | apply keeps_foldl | apply keeps_elim | (intro (t : State); have hb := Keeps.refl t) | intro _ | split | rw [id] | simp only [↓keeps_mk])

theorem writeBlocks_keeps {orig : State} (p : Nat) (q : Nat) (x2 : Nat) (x3 : Nat) (x4 : List Nat) (x5 : State) (hb : Keeps orig x5) :
    Keeps orig (writeBlocks p q x2 x3 x4 x5) := by
  induction x2 generalizing orig p q x3 x4 x5 with
  | zero => exact hb
  | succ n ih =>
    unfold writeBlocks; try dsimp only
    repeat' (with_reducible first | exact hb | apply State.writeBlock_keeps | apply ih | apply keeps_foldl | apply keeps_elim | (intro (t : State); have hb := Keeps.refl t) | intro _ | split | rw [id] | simp only [↓keeps_mk])

theorem State.admitPages_keeps {orig : State} (s : State) (p : Nat) (q : Nat) (n : Nat) (pages : List Nat) (toks : List Byte) (hb : Keeps orig s) :
    Keeps orig (State.admitPages s p q n pages toks) := by
  unfold State.admitPages; try dsimp only
  repeat' (with_reducible first | exact hb | apply writeBlocks_keeps | apply State.seqPut_keeps | apply State.seqSetFlag_keeps | apply State.sysWrite_keeps | apply State.dataEvent_keeps | apply State.unpark_keeps | apply keeps_foldl | apply keeps_elim | (intro (t : State); have hb := Keeps.refl t) | intro _ | split | rw [id] | simp only [↓keeps_mk])

theorem State.stepOne_keeps {orig : State} (s : State) (p : Nat) (l : Nat) (q : Nat) (new : Nat) (toks : List Byte) (hb : Keeps orig s) :
    Keeps orig (State.stepOne s p l q new toks).2.2 := by
  unfold State.stepOne; try dsimp only
  repeat' (with_reducible first | exact hb | apply State.starve_keeps | apply State.popPages_keeps | apply State.admitPages_keeps | apply keeps_foldl | apply keeps_elim | (intro (t : State); have hb := Keeps.refl t) | intro _ | split | rw [id] | simp only [↓keeps_mk])

theorem stepAll_keeps {base : State} (p : Packet) (l : List Nat) (r : StepOut × State) (hb : Keeps base r.2) :
    Keeps base (stepAll p l r).2 := by
  induction l generalizing r with
  | nil => exact hb
  | cons e l ih =>
    unfold stepAll
    exact ih _ (State.stepOne_keeps _ _ _ _ _ _ hb)

theorem kvStepBody_keeps {orig : State} (p : Packet) (id : Nat) (s : State) (hb : Keeps orig s) :
    Keeps orig (kvStepBody p id s) := by
  unfold kvStepBody; try dsimp only
  repeat' (with_reducible first | exact hb | apply stepAll_keeps | apply State.writeBytes_keeps | apply State.writeNum_keeps | apply State.finish_keeps | apply keeps_foldl | apply keeps_elim | (intro (t : State); have hb := Keeps.refl t) | intro _ | split | rw [id] | simp only [↓keeps_mk])

theorem execKvStep_keeps {orig : State} (p : Packet) (s : State) (hb : Keeps orig s) :
    KeepsOut orig (execKvStep p s) := by
  unfold execKvStep; try dsimp only
  repeat' (with_reducible first | exact hb | apply KeepsOut.next | apply runPacket_keeps | apply kvStepBody_keeps | apply keeps_foldl | apply keeps_elim | (intro (t : State); have hb := Keeps.refl t) | intro _ | split | rw [id] | simp only [↓keeps_mk])

theorem State.breakChain_keeps {orig : State} (s : State) (p : Nat) (q : Nat) (hb : Keeps orig s) :
    Keeps orig (State.breakChain s p q) := by
  unfold State.breakChain; try dsimp only
  repeat' (with_reducible first | exact hb | apply State.seqSetFlag_keeps | apply keeps_foldl | apply keeps_elim | (intro (t : State); have hb := Keeps.refl t) | intro _ | split | rw [id] | simp only [↓keeps_mk])

theorem State.takeNode_keeps {base : State} (s : State) (hb : Keeps base s) (k : Nat) (t : State)
    (h : State.takeNode s = some (k, t)) : Keeps base t := by
  unfold State.takeNode at h
  split at h
  · cases h; exact keeps_mk.2 hb
  · split at h
    · cases h; exact keeps_mk.2 hb
    · cases h

theorem State.fillNode_keeps {orig : State} (s : State) (k : Nat) (p : Nat) (l : Nat) (hash : Nat) (par : Nat) (pages : List Nat) (toks : List Byte) (hb : Keeps orig s) :
    Keeps orig (State.fillNode s k p l hash par pages toks) := by
  unfold State.fillNode; try dsimp only
  repeat' (with_reducible first | exact hb | apply State.sysWrite_keeps | apply keeps_foldl | apply keeps_elim | (intro (t : State); have hb := Keeps.refl t) | intro _ | split | rw [id] | simp only [↓keeps_mk])

theorem State.nodeFull_keeps {orig : State} (s : State) (p : Nat) (q : Nat) (hb : Keeps orig s) :
    Keeps orig (State.nodeFull s p q) := by
  unfold State.nodeFull; try dsimp only
  repeat' (with_reducible first | exact hb | apply State.dataEvent_keeps | apply State.breakChain_keeps | apply State.setFlag_keeps | apply keeps_foldl | apply keeps_elim | (intro (t : State); have hb := Keeps.refl t) | intro _ | split | rw [id] | simp only [↓keeps_mk])

theorem State.insertBlock_keeps {orig : State} (s : State) (p : Nat) (q : Nat) (j : Nat) (hb : Keeps orig s) :
    Keeps orig (State.insertBlock s p q j).1 := by
  unfold State.insertBlock; try dsimp only
  repeat' (with_reducible first | exact hb | apply State.dataEvent_keeps | apply State.breakChain_keeps | apply State.addFld_keeps | apply State.nodeFull_keeps | apply State.fillNode_keeps | apply State.setNodesOf_keeps | apply State.setChain_keeps | apply State.seqPut_keeps | apply State.sysWriteNum_keeps | apply State.nodePut_keeps | apply keeps_foldl | apply keeps_elim | (intro (t : State); have hb := Keeps.refl t) | intro _ | split | rw [id] | simp only [↓keeps_mk] | (refine State.takeNode_keeps _ ?_ _ _ (by assumption)))

theorem insertBlocks_keeps {orig : State} (p : Nat) (q : Nat) (x2 : List Nat) (x3 : State) (hb : Keeps orig x3) :
    Keeps orig (insertBlocks p q x2 x3).1 := by
  induction x2 generalizing orig p q x3 with
  | nil => exact hb
  | cons e l ih =>
    unfold insertBlocks; try dsimp only
    repeat' (with_reducible first | exact hb | apply State.insertBlock_keeps | apply ih | apply keeps_foldl | apply keeps_elim | (intro (t : State); have hb := Keeps.refl t) | intro _ | split | rw [id] | simp only [↓keeps_mk])

theorem State.commitRow_keeps {orig : State} (s : State) (p : Nat) (rowmap : Nat) (r : Nat) (hb : Keeps orig s) :
    Keeps orig (State.commitRow s p rowmap r).1 := by
  unfold State.commitRow; try dsimp only
  repeat' (with_reducible first | exact hb | apply State.seqSetFlag_keeps | apply State.seqPut_keeps | apply insertBlocks_keeps | apply keeps_foldl | apply keeps_elim | (intro (t : State); have hb := Keeps.refl t) | intro _ | split | rw [id] | simp only [↓keeps_mk])

theorem commitRows_keeps {orig : State} (p : Nat) (rowmap : Nat) (x2 : List Nat) (x3 : State) (hb : Keeps orig x3) :
    Keeps orig (commitRows p rowmap x2 x3).1 := by
  induction x2 generalizing orig p rowmap x3 with
  | nil => exact hb
  | cons e l ih =>
    unfold commitRows; try dsimp only
    repeat' (with_reducible first | exact hb | apply State.commitRow_keeps | apply ih | apply keeps_foldl | apply keeps_elim | (intro (t : State); have hb := Keeps.refl t) | intro _ | split | rw [id] | simp only [↓keeps_mk])

theorem execKvCommit_keeps {orig : State} (p : Packet) (s : State) (hb : Keeps orig s) :
    KeepsOut orig (execKvCommit p s) := by
  unfold execKvCommit; try dsimp only
  repeat' (with_reducible first | exact hb | apply KeepsOut.next | apply runPacket_keeps | apply commitRows_keeps | apply State.finish_keeps | apply keeps_foldl | apply keeps_elim | (intro (t : State); have hb := Keeps.refl t) | intro _ | split | rw [id] | simp only [↓keeps_mk])

theorem State.dropCopy_keeps {orig : State} (s : State) (p : Nat) (q : Nat) (hb : Keeps orig s) :
    Keeps orig (State.dropCopy s p q) := by
  unfold State.dropCopy; try dsimp only
  repeat' (with_reducible first | exact hb | apply keeps_foldl | apply keeps_elim | (intro (t : State); have hb := Keeps.refl t) | intro _ | split | rw [id] | simp only [↓keeps_mk])

theorem kvFreeBody_keeps {orig : State} (p : Packet) (id : Nat) (s : State) (hb : Keeps orig s) :
    Keeps orig (kvFreeBody p id s) := by
  unfold kvFreeBody; try dsimp only
  repeat' (with_reducible first | exact hb | apply State.finish_keeps | apply State.freeSeq_keeps | apply State.dropCopy_keeps | apply State.unpark_keeps | apply State.seqPut_keeps | apply keeps_foldl | apply keeps_elim | (intro (t : State); have hb := Keeps.refl t) | intro _ | split | rw [id] | simp only [↓keeps_mk])

theorem execKvFree_keeps {orig : State} (p : Packet) (s : State) (hb : Keeps orig s) :
    KeepsOut orig (execKvFree p s) := by
  unfold execKvFree; try dsimp only
  repeat' (with_reducible first | exact hb | apply KeepsOut.next | apply runPacket_keeps | apply kvFreeBody_keeps | apply keeps_foldl | apply keeps_elim | (intro (t : State); have hb := Keeps.refl t) | intro _ | split | rw [id] | simp only [↓keeps_mk])

theorem execKvQuery_keeps {orig : State} (p : Packet) (s : State) (hb : Keeps orig s) :
    KeepsOut orig (execKvQuery p s) := by
  unfold execKvQuery; try dsimp only
  repeat' (with_reducible first | exact hb | apply KeepsOut.next | apply runPacket_keeps | apply State.finish_keeps | apply keeps_foldl | apply keeps_elim | (intro (t : State); have hb := Keeps.refl t) | intro _ | split | rw [id] | simp only [↓keeps_mk])

theorem reclaimFor_keeps {orig : State} (p : Nat) (want : Nat) (x2 : Nat) (x3 : State) (hb : Keeps orig x3) :
    Keeps orig (reclaimFor p want x2 x3) := by
  induction x2 generalizing orig p want x3 with
  | zero => exact hb
  | succ n ih =>
    unfold reclaimFor; try dsimp only
    repeat' (with_reducible first | exact hb | apply State.reclaimNode_keeps | apply State.dataEvent_keeps | apply ih | apply keeps_foldl | apply keeps_elim | (intro (t : State); have hb := Keeps.refl t) | intro _ | split | rw [id] | simp only [↓keeps_mk])

theorem beginSwaps_keeps {orig : State} (e : Nat × Nat) (want : Nat) (x2 : Nat) (x3 : State) (hb : Keeps orig x3) :
    Keeps orig (beginSwaps e want x2 x3) := by
  induction x2 generalizing orig e want x3 with
  | zero => exact hb
  | succ n ih =>
    unfold beginSwaps; try dsimp only
    repeat' (with_reducible first | exact hb | apply State.seqSetFlag_keeps | apply ih | apply keeps_foldl | apply keeps_elim | (intro (t : State); have hb := Keeps.refl t) | intro _ | split | rw [id] | simp only [↓keeps_mk])

theorem State.manage_keeps {orig : State} (s : State) (e : Nat × Nat) (hb : Keeps orig s) :
    Keeps orig (State.manage s e) := by
  unfold State.manage; try dsimp only
  repeat' (with_reducible first | exact hb | apply reclaimFor_keeps | apply State.signalSeq_keeps | apply beginSwaps_keeps | apply State.owe_keeps | apply keeps_foldl | apply keeps_elim | (intro (t : State); have hb := Keeps.refl t) | intro _ | split | rw [id] | simp only [↓keeps_mk])

theorem execPageManagerRun_keeps {orig : State} (s : State) (hb : Keeps orig s) :
    KeepsOut orig (execPageManagerRun s) := by
  unfold execPageManagerRun; try dsimp only
  repeat' (with_reducible first | exact hb | apply KeepsOut.next | apply State.manage_keeps | apply keeps_foldl | apply keeps_elim | (intro (t : State); have hb := Keeps.refl t) | intro _ | split | rw [id] | simp only [↓keeps_mk])

theorem State.terminate_keeps {orig : State} (s : State) (p : Nat) (q : Nat) (hb : Keeps orig s) :
    Keeps orig (State.terminate s p q) := by
  unfold State.terminate; try dsimp only
  repeat' (with_reducible first | exact hb | apply State.freeSeq_keeps | apply State.setFlag_keeps | apply State.unpark_keeps | apply State.seqSetFlag_keeps | apply State.seqPut_keeps | apply State.dataEvent_keeps | apply State.signalSeq_keeps | apply keeps_foldl | apply keeps_elim | (intro (t : State); have hb := Keeps.refl t) | intro _ | split | rw [id] | simp only [↓keeps_mk])

theorem execKvTermination_keeps {orig : State} (p : Nat) (q : Nat) (s : State) (hb : Keeps orig s) :
    KeepsOut orig (execKvTermination p q s) := by
  unfold execKvTermination; try dsimp only
  repeat' (with_reducible first | exact hb | apply KeepsOut.next | apply State.terminate_keeps | apply keeps_foldl | apply keeps_elim | (intro (t : State); have hb := Keeps.refl t) | intro _ | split | rw [id] | simp only [↓keeps_mk])

theorem State.swapPage_keeps {orig : State} (s : State) (p : Nat) (page : Nat) (place : Nat) (out : Bool) (hb : Keeps orig s) :
    Keeps orig (State.swapPage s p page place out).1 := by
  unfold State.swapPage; try dsimp only
  repeat' (with_reducible first | exact hb | apply State.ownerFail_keeps | apply State.recordDenial_keeps | apply State.keyed_keeps | apply State.writeBytes_keeps | apply State.charge_keeps | apply keeps_foldl | apply keeps_elim | (intro (t : State); have hb := Keeps.refl t) | intro _ | split | rw [id] | simp only [↓keeps_mk])

theorem swapPages_keeps {orig : State} (p : Nat) (out : Bool) (x2 : List (Nat × Nat)) (x3 : State) (hb : Keeps orig x3) :
    Keeps orig (swapPages p out x2 x3).1 := by
  induction x2 generalizing orig p out x3 with
  | nil => exact hb
  | cons e l ih =>
    unfold swapPages; try dsimp only
    repeat' (with_reducible first | exact hb | apply State.swapPage_keeps | apply ih | apply keeps_foldl | apply keeps_elim | (intro (t : State); have hb := Keeps.refl t) | intro _ | split | rw [id] | simp only [↓keeps_mk])

theorem execKvSwapOut_keeps {orig : State} (p : Nat) (q : Nat) (s : State) (hb : Keeps orig s) :
    KeepsOut orig (execKvSwapOut p q s) := by
  unfold execKvSwapOut; try dsimp only
  repeat' (with_reducible first | exact hb | apply KeepsOut.next | apply State.seqSetFlag_keeps | apply swapPages_keeps | apply State.freeSeq_keeps | apply State.dropCopy_keeps | apply State.unpark_keeps | apply State.seqPut_keeps | apply State.dataEvent_keeps | apply keeps_foldl | apply keeps_elim | (intro (t : State); have hb := Keeps.refl t) | intro _ | split | rw [id] | simp only [↓keeps_mk])

theorem State.restorePages_keeps {orig : State} (s : State) (p : Nat) (q : Nat) (pages : List Nat) (hb : Keeps orig s) :
    Keeps orig (State.restorePages s p q pages) := by
  unfold State.restorePages; try dsimp only
  repeat' (with_reducible first | exact hb | apply State.sysWrite_keeps | apply State.sysWriteNum_keeps | apply keeps_foldl | apply keeps_elim | (intro (t : State); have hb := Keeps.refl t) | intro _ | split | rw [id] | simp only [↓keeps_mk])

theorem execKvSwapIn_keeps {orig : State} (p : Nat) (q : Nat) (s : State) (hb : Keeps orig s) :
    KeepsOut orig (execKvSwapIn p q s) := by
  unfold execKvSwapIn; try dsimp only
  repeat' (with_reducible first | exact hb | apply KeepsOut.next | apply State.popPages_keeps | apply swapPages_keeps | apply State.seqPut_keeps | apply State.seqSetFlag_keeps | apply State.restorePages_keeps | apply State.dataEvent_keeps | apply State.park_keeps | apply State.dropCopy_keeps | apply pushPages_keeps | apply keeps_foldl | apply keeps_elim | (intro (t : State); have hb := Keeps.refl t) | intro _ | split | rw [id] | simp only [↓keeps_mk])

theorem execAdmaLayoutWrite_keeps {orig : State} (n : Nat) (w : RegWrite) (s : State) (hb : Keeps orig s) :
    KeepsOut orig (execAdmaLayoutWrite n w s) := by
  unfold execAdmaLayoutWrite; try dsimp only
  repeat' (with_reducible first | exact hb | apply KeepsOut.next | apply State.paramWrite_keeps | apply State.setReg_keeps | apply State.regWrite_keeps | apply State.setFlag_keeps | apply keeps_foldl | apply keeps_elim | (intro (t : State); have hb := Keeps.refl t) | intro _ | split | rw [id] | simp only [↓keeps_mk])

theorem gatherWrites_keeps {orig : State} (p : Nat) (x1 : List (Nat × List Byte)) (x2 : State) (hb : Keeps orig x2) :
    Keeps orig (gatherWrites p x1 x2).1 := by
  induction x1 generalizing orig p x2 with
  | nil => exact hb
  | cons e l ih =>
    unfold gatherWrites; try dsimp only
    repeat' (with_reducible first | exact hb | apply Run.next_keeps | apply State.engWrite_keeps | apply ih | apply keeps_foldl | apply keeps_elim | (intro (t : State); have hb := Keeps.refl t) | intro _ | split | rw [id] | simp only [↓keeps_mk])

theorem State.gatherBody_keeps {orig : State} (s : State) (x : GatherRun) (k : Kernel) (g : GatherDesc) (hb : Keeps orig s) :
    Keeps orig (State.gatherBody s x k g).1 := by
  unfold State.gatherBody; try dsimp only
  repeat' (with_reducible first | exact hb | apply Run.next_keeps | apply State.engCheck_keeps | apply State.uncorrectable_keeps | apply runAll_keeps | apply State.ownerFail_keeps | apply gatherWrites_keeps | apply keeps_foldl | apply keeps_elim | (intro (t : State); have hb := Keeps.refl t) | intro _ | split | rw [id] | simp only [↓keeps_mk])

theorem State.gatherRun_keeps {orig : State} (s0 : State) (mode : Nat) (x : GatherRun) (hb : Keeps orig s0) :
    Keeps orig (State.gatherRun s0 mode x) := by
  unfold State.gatherRun; try dsimp only
  repeat' (with_reducible first | exact hb | apply State.keyed_keeps | apply State.settled_keeps | apply State.endRun_keeps | apply State.gatherBody_keeps | apply State.admaFault_keeps | apply keeps_foldl | apply keeps_elim | (intro (t : State); have hb := Keeps.refl t) | intro _ | split | rw [id] | simp only [↓keeps_mk])

theorem execGatherK_keeps {orig : State} (g : GatherRun) (s : State) (hb : Keeps orig s) :
    KeepsOut orig (execGatherK g s) := by
  unfold execGatherK; try dsimp only
  repeat' (with_reducible first | exact hb | apply KeepsOut.next | apply State.gatherRun_keeps | apply keeps_foldl | apply keeps_elim | (intro (t : State); have hb := Keeps.refl t) | intro _ | split | rw [id] | simp only [↓keeps_mk])

theorem execGatherVt_keeps {orig : State} (g : GatherRun) (s : State) (hb : Keeps orig s) :
    KeepsOut orig (execGatherVt g s) := by
  unfold execGatherVt; try dsimp only
  repeat' (with_reducible first | exact hb | apply KeepsOut.next | apply State.gatherRun_keeps | apply keeps_foldl | apply keeps_elim | (intro (t : State); have hb := Keeps.refl t) | intro _ | split | rw [id] | simp only [↓keeps_mk])

end Sys2Proof.Machine
end

