-- ==== Sys2Proof/Laws/Keeps/Memory.lean ====
section
/-! SUPPORT. What the operations of Machine/Memory.lean keep (Laws/Keeps.lean). -/

set_option linter.unusedTactic false
set_option linter.unreachableTactic false

namespace Sys2Proof.Machine

theorem dmaMove_keeps {orig : State} (c : Nat) (x1 : Nat) (x2 : Nat) (x3 : State) (hb : Keeps orig x3) :
    Keeps orig (dmaMove c x1 x2 x3).1 := by
  induction x1 generalizing orig c x2 x3 with
  | zero => exact hb
  | succ n ih =>
    unfold dmaMove; try dsimp only
    repeat' (with_reducible first | exact hb | apply State.putBytes_keeps | apply ih | apply keeps_foldl | apply keeps_elim | (intro (t : State); have hb := Keeps.refl t) | intro _ | split | rw [id] | simp only [↓keeps_mk])

theorem State.chargeMoved_keeps {orig : State} (s : State) (c : Nat) (moved : Nat) (hb : Keeps orig s) :
    Keeps orig (State.chargeMoved s c moved) := by
  unfold State.chargeMoved; try dsimp only
  repeat' (with_reducible first | exact hb | apply State.charge_keeps | apply keeps_foldl | apply keeps_elim | (intro (t : State); have hb := Keeps.refl t) | intro _ | split | rw [id] | simp only [↓keeps_mk])

theorem State.dmaEnd_keeps {orig : State} (s : State) (c : Nat) (moved : Nat) (code : Nat) (cause : Nat) (st : Nat) (hb : Keeps orig s) :
    Keeps orig (State.dmaEnd s c moved code cause st) := by
  unfold State.dmaEnd; try dsimp only
  repeat' (with_reducible first | exact hb | apply State.putFld_keeps | apply State.setReg_keeps | apply State.chargeMoved_keeps | apply State.endKernel_keeps | apply keeps_foldl | apply keeps_elim | (intro (t : State); have hb := Keeps.refl t) | intro _ | split | rw [id] | simp only [↓keeps_mk])

theorem State.dmaSignal_keeps {orig : State} (s : State) (c : Nat) (hb : Keeps orig s) :
    Keeps orig (State.dmaSignal s c) := by
  unfold State.dmaSignal; try dsimp only
  repeat' (with_reducible first | exact hb | apply State.signal_keeps | apply keeps_foldl | apply keeps_elim | (intro (t : State); have hb := Keeps.refl t) | intro _ | split | rw [id] | simp only [↓keeps_mk])

theorem State.dmaDeny_keeps {orig : State} (s : State) (c : Nat) (j : Nat) (hb : Keeps orig s) :
    Keeps orig (State.dmaDeny s c j) := by
  unfold State.dmaDeny; try dsimp only
  repeat' (with_reducible first | exact hb | apply State.ownerFail_keeps | apply State.recordDenial_keeps | apply keeps_foldl | apply keeps_elim | (intro (t : State); have hb := Keeps.refl t) | intro _ | split | rw [id] | simp only [↓keeps_mk])

theorem State.dmaControl_keeps {orig : State} (s : State) (c : Nat) (v : Nat) (hb : Keeps orig s) :
    Keeps orig (State.dmaControl s c v) := by
  unfold State.dmaControl; try dsimp only
  repeat' (with_reducible first | exact hb | apply State.setReg_keeps | apply State.dmaSignal_keeps | apply State.dmaEnd_keeps | apply State.putFld_keeps | apply keeps_foldl | apply keeps_elim | (intro (t : State); have hb := Keeps.refl t) | intro _ | split | rw [id] | simp only [↓keeps_mk])

theorem execDmaGo_keeps {orig : State} (c : Nat) (w : RegWrite) (s : State) (hb : Keeps orig s) :
    KeepsOut orig (execDmaGo c w s) := by
  unfold execDmaGo; try dsimp only
  repeat' (with_reducible first | exact hb | apply KeepsOut.next | apply State.regWrite_keeps | apply State.dmaControl_keeps | apply keeps_foldl | apply keeps_elim | (intro (t : State); have hb := Keeps.refl t) | intro _ | split | rw [id] | simp only [↓keeps_mk])

theorem execDmaDone_keeps {orig : State} (c : Nat) (s : State) (hb : Keeps orig s) :
    KeepsOut orig (execDmaDone c s) := by
  unfold execDmaDone; try dsimp only
  repeat' (with_reducible first | exact hb | apply KeepsOut.next | apply dmaMove_keeps | apply State.keyed_keeps | apply State.dmaSignal_keeps | apply State.dmaEnd_keeps | apply keeps_foldl | apply keeps_elim | (intro (t : State); have hb := Keeps.refl t) | intro _ | split | rw [id] | simp only [↓keeps_mk])

theorem execDmaFault_keeps {orig : State} (c : Nat) (moved : Nat) (ecc : Bool) (s : State) (hb : Keeps orig s) :
    KeepsOut orig (execDmaFault c moved ecc s) := by
  unfold execDmaFault; try dsimp only
  repeat' (with_reducible first | exact hb | apply KeepsOut.next | apply dmaMove_keeps | apply State.keyed_keeps | apply State.dmaEnd_keeps | apply State.dmaDeny_keeps | apply State.uncorrectable_keeps | apply keeps_foldl | apply keeps_elim | (intro (t : State); have hb := Keeps.refl t) | intro _ | split | rw [id] | simp only [↓keeps_mk])

theorem State.logCorrected_keeps {orig : State} (s : State) (a : Nat) (hb : Keeps orig s) :
    Keeps orig (State.logCorrected s a) := by
  unfold State.logCorrected; try dsimp only
  repeat' (with_reducible first | exact hb | apply State.dataEvent_keeps | apply keeps_foldl | apply keeps_elim | (intro (t : State); have hb := Keeps.refl t) | intro _ | split | rw [id] | simp only [↓keeps_mk])

theorem State.corrected_keeps {orig : State} (s : State) (a : Nat) (hb : Keeps orig s) :
    Keeps orig (State.corrected s a) := by
  unfold State.corrected; try dsimp only
  repeat' (with_reducible first | exact hb | apply State.addFld_keeps | apply State.logCorrected_keeps | apply keeps_foldl | apply keeps_elim | (intro (t : State); have hb := Keeps.refl t) | intro _ | split | rw [id] | simp only [↓keeps_mk])

theorem State.startReweave_keeps {orig : State} (s : State) (n : Nat) (hb : Keeps orig s) :
    Keeps orig (State.startReweave s n) := by
  unfold State.startReweave; try dsimp only
  repeat' (with_reducible first | exact hb | apply State.loadRegs_keeps | apply State.drawFree_keeps | apply State.setFlag_keeps | apply State.anyEvent_keeps | apply keeps_foldl | apply keeps_elim | (intro (t : State); have hb := Keeps.refl t) | intro _ | split | rw [id] | simp only [↓keeps_mk])

theorem State.abortReweave_keeps {orig : State} (s : State) (cause : Nat) (hb : Keeps orig s) :
    Keeps orig (State.abortReweave s cause) := by
  unfold State.abortReweave; try dsimp only
  repeat' (with_reducible first | exact hb | apply State.putFld_keeps | apply State.dataEvent_keeps | apply State.addFld_keeps | apply State.setFlag_keeps | apply keeps_foldl | apply keeps_elim | (intro (t : State); have hb := Keeps.refl t) | intro _ | split | rw [id] | simp only [↓keeps_mk])

theorem State.clearEccBlock_keeps {orig : State} (s : State) (hb : Keeps orig s) :
    Keeps orig (State.clearEccBlock s) := by
  unfold State.clearEccBlock; try dsimp only
  repeat' (with_reducible first | exact hb | apply State.putFld_keeps | apply keeps_foldl | apply keeps_elim | (intro (t : State); have hb := Keeps.refl t) | intro _ | split | rw [id] | simp only [↓keeps_mk])

theorem State.reweaveControl_keeps {orig : State} (s : State) (v : Nat) (hb : Keeps orig s) :
    Keeps orig (State.reweaveControl s v) := by
  unfold State.reweaveControl; try dsimp only
  repeat' (with_reducible first | exact hb | apply State.clearEccBlock_keeps | apply State.abortReweave_keeps | apply State.startReweave_keeps | apply keeps_foldl | apply keeps_elim | (intro (t : State); have hb := Keeps.refl t) | intro _ | split | rw [id] | simp only [↓keeps_mk])

theorem State.writeRwCtl_keeps {orig : State} (s : State) (init : Nat) (v : Nat) (hb : Keeps orig s) :
    Keeps orig (State.writeRwCtl s init v) := by
  unfold State.writeRwCtl; try dsimp only
  repeat' (with_reducible first | exact hb | apply State.regWrite_keeps | apply State.reweaveControl_keeps | apply keeps_foldl | apply keeps_elim | (intro (t : State); have hb := Keeps.refl t) | intro _ | split | rw [id] | simp only [↓keeps_mk])

theorem execReweaveStart_keeps {orig : State} (w : RegWrite) (s : State) (hb : Keeps orig s) :
    KeepsOut orig (execReweaveStart w s) := by
  unfold execReweaveStart; try dsimp only
  repeat' (with_reducible first | exact hb | apply KeepsOut.next | apply State.writeRwCtl_keeps | apply keeps_foldl | apply keeps_elim | (intro (t : State); have hb := Keeps.refl t) | intro _ | split | rw [id] | simp only [↓keeps_mk])

theorem State.reweaveTick_keeps {orig : State} (s : State) (hb : Keeps orig s) :
    Keeps orig (State.reweaveTick s) := by
  unfold State.reweaveTick; try dsimp only
  repeat' (with_reducible first | exact hb | apply State.setReg_keeps | apply State.chargeKey_keeps | apply keeps_foldl | apply keeps_elim | (intro (t : State); have hb := Keeps.refl t) | intro _ | split | rw [id] | simp only [↓keeps_mk])

theorem execReweaveDone_keeps {orig : State} (s : State) (hb : Keeps orig s) :
    KeepsOut orig (execReweaveDone s) := by
  unfold execReweaveDone; try dsimp only
  repeat' (with_reducible first | exact hb | apply KeepsOut.next | apply State.addFld_keeps | apply State.putFld_keeps | apply State.setReg_keeps | apply State.anyEvent_keeps | apply keeps_foldl | apply keeps_elim | (intro (t : State); have hb := Keeps.refl t) | intro _ | split | rw [id] | simp only [↓keeps_mk])

theorem execReweaveAbort_keeps {orig : State} (a : RwAbort) (s : State) (hb : Keeps orig s) :
    KeepsOut orig (execReweaveAbort a s) := by
  unfold execReweaveAbort; try dsimp only
  repeat' (with_reducible first | exact hb | apply KeepsOut.next | apply State.abortReweave_keeps | apply State.uncorrectable_keeps | apply State.writeRwCtl_keeps | apply keeps_foldl | apply keeps_elim | (intro (t : State); have hb := Keeps.refl t) | intro _ | split | rw [id] | simp only [↓keeps_mk])

theorem execClearEccBlock_keeps {orig : State} (w : RegWrite) (s : State) (hb : Keeps orig s) :
    KeepsOut orig (execClearEccBlock w s) := by
  unfold execClearEccBlock; try dsimp only
  repeat' (with_reducible first | exact hb | apply KeepsOut.next | apply State.writeRwCtl_keeps | apply keeps_foldl | apply keeps_elim | (intro (t : State); have hb := Keeps.refl t) | intro _ | split | rw [id] | simp only [↓keeps_mk])

theorem State.countWindow_keeps {orig : State} (s : State) (occ : List Nat) (req : List (Nat × Nat × Nat)) (hb : Keeps orig s) :
    Keeps orig (State.countWindow s occ req) := by
  unfold State.countWindow; try dsimp only
  repeat' (with_reducible first | exact hb | apply keeps_foldl | apply keeps_elim | (intro (t : State); have hb := Keeps.refl t) | intro _ | split | rw [id] | simp only [↓keeps_mk])

theorem State.showOcc_keeps {orig : State} (s : State) (occ : List Nat) (hb : Keeps orig s) :
    Keeps orig (State.showOcc s occ) := by
  unfold State.showOcc; try dsimp only
  repeat' (with_reducible first | exact hb | apply State.setReg_keeps | apply keeps_foldl | apply keeps_elim | (intro (t : State); have hb := Keeps.refl t) | intro _ | split | rw [id] | simp only [↓keeps_mk])

theorem State.hotspot_keeps {orig : State} (s : State) (c : Nat) (hb : Keeps orig s) :
    Keeps orig (State.hotspot s c) := by
  unfold State.hotspot; try dsimp only
  repeat' (with_reducible first | exact hb | apply State.putFld_keeps | apply State.setFlag_keeps | apply State.dataEvent_keeps | apply State.startReweave_keeps | apply keeps_foldl | apply keeps_elim | (intro (t : State); have hb := Keeps.refl t) | intro _ | split | rw [id] | simp only [↓keeps_mk])

theorem State.patrol_keeps {orig : State} (s : State) (l : List Nat) (hb : Keeps orig s) :
    Keeps orig (State.patrol s l) := by
  unfold State.patrol; try dsimp only
  repeat' (with_reducible first | exact hb | apply State.uncorrectable_keeps | apply keeps_foldl | apply keeps_elim | (intro (t : State); have hb := Keeps.refl t) | intro _ | split | rw [id] | simp only [↓keeps_mk])

theorem execOccupancyWindow_keeps {orig : State} (x : Occupancy) (s : State) (hb : Keeps orig s) :
    KeepsOut orig (execOccupancyWindow x s) := by
  unfold execOccupancyWindow; try dsimp only
  repeat' (with_reducible first | exact hb | apply KeepsOut.next | apply State.patrol_keeps | apply State.corrected_keeps | apply State.showOcc_keeps | apply State.countWindow_keeps | apply State.hotspot_keeps | apply keeps_foldl | apply keeps_elim | (intro (t : State); have hb := Keeps.refl t) | intro _ | split | rw [id] | simp only [↓keeps_mk])

theorem State.answered_keeps {orig : State} (s : State) (l : List Byte) (hb : Keeps orig s) :
    Keeps orig (State.answered s l) := by
  unfold State.answered; try dsimp only
  repeat' (with_reducible first | exact hb | apply keeps_foldl | apply keeps_elim | (intro (t : State); have hb := Keeps.refl t) | intro _ | split | rw [id] | simp only [↓keeps_mk])

theorem State.readMem_keeps {orig : State} (s : State) (init : Nat) (a : Nat) (n : Nat) (hb : Keeps orig s) :
    Keeps orig (State.readMem s init a n) := by
  unfold State.readMem; try dsimp only
  repeat' (with_reducible first | exact hb | apply State.answered_keeps | apply State.charge_keeps | apply State.keyed_keeps | apply keeps_foldl | apply keeps_elim | (intro (t : State); have hb := Keeps.refl t) | intro _ | split | rw [id] | simp only [↓keeps_mk])

theorem State.endReads_keeps {orig : State} (s : State) (hb : Keeps orig s) :
    Keeps orig (State.endReads s) := by
  unfold State.endReads; try dsimp only
  repeat' (with_reducible first | exact hb | apply State.readMem_keeps | apply keeps_foldl | apply keeps_elim | (intro (t : State); have hb := Keeps.refl t) | intro _ | split | rw [id] | simp only [↓keeps_mk])

theorem State.endRead_keeps {orig : State} (s : State) (f : Flight) (hb : Keeps orig s) :
    Keeps orig (State.endRead s f) := by
  unfold State.endRead; try dsimp only
  repeat' (with_reducible first | exact hb | apply State.complete_keeps | apply keeps_foldl | apply keeps_elim | (intro (t : State); have hb := Keeps.refl t) | intro _ | split | rw [id] | simp only [↓keeps_mk])

theorem execSmemScrubDone_keeps {orig : State} (g : Nat) (s : State) (hb : Keeps orig s) :
    KeepsOut orig (execSmemScrubDone g s) := by
  unfold execSmemScrubDone; try dsimp only
  repeat' (with_reducible first | exact hb | apply KeepsOut.next | apply State.endReads_keeps | apply State.endRead_keeps | apply keeps_foldl | apply keeps_elim | (intro (t : State); have hb := Keeps.refl t) | intro _ | split | rw [id] | simp only [↓keeps_mk])

end Sys2Proof.Machine
end

