-- ==== Sys2Proof/Laws/Keeps/Functions.lean ====
section
/-! SUPPORT. What the operations of Machine/Functions.lean keep (Laws/Keeps.lean). -/

set_option linter.unusedTactic false
set_option linter.unreachableTactic false

namespace Sys2Proof.Machine

theorem State.drive_keeps {orig : State} (s : State) (fn : Nat) (unit : Nat) (on : Bool) (hb : Keeps orig s) :
    Keeps orig (State.drive s fn unit on) := by
  unfold State.drive; try dsimp only
  repeat' (with_reducible first | exact hb | apply keeps_foldl | apply keeps_elim | (intro (t : State); have hb := Keeps.refl t) | intro _ | split | rw [id] | simp only [↓keeps_mk])

theorem State.clockAxis_keeps {orig : State} (s : State) (a : Nat) (hb : Keeps orig s) :
    Keeps orig (State.clockAxis s a) := by
  unfold State.clockAxis; try dsimp only
  repeat' (with_reducible first | exact hb | apply keeps_foldl | apply keeps_elim | (intro (t : State); have hb := Keeps.refl t) | intro _ | split | rw [id] | simp only [↓keeps_mk])

theorem State.preload_keeps {orig : State} (s : State) (dram : Bool) (hb : Keeps orig s) :
    Keeps orig (State.preload s dram) := by
  unfold State.preload; try dsimp only
  repeat' (with_reducible first | exact hb | apply State.sysWrite_keeps | apply keeps_foldl | apply keeps_elim | (intro (t : State); have hb := Keeps.refl t) | intro _ | split | rw [id] | simp only [↓keeps_mk])

theorem State.loadTables_keeps {orig : State} (s : State) (hb : Keeps orig s) :
    Keeps orig (State.loadTables s) := by
  unfold State.loadTables; try dsimp only
  repeat' (with_reducible first | exact hb | apply State.setReg_keeps | apply keeps_foldl | apply keeps_elim | (intro (t : State); have hb := Keeps.refl t) | intro _ | split | rw [id] | simp only [↓keeps_mk])

theorem State.fillPool_keeps {orig : State} (s : State) (hb : Keeps orig s) :
    Keeps orig (State.fillPool s) := by
  unfold State.fillPool; try dsimp only
  repeat' (with_reducible first | exact hb | apply State.sysWrite_keeps | apply State.showRes_keeps | apply State.putFld_keeps | apply keeps_foldl | apply keeps_elim | (intro (t : State); have hb := Keeps.refl t) | intro _ | split | rw [id] | simp only [↓keeps_mk])

theorem State.loadApp_keeps {orig : State} (s : State) (hb : Keeps orig s) :
    Keeps orig (State.loadApp s) := by
  unfold State.loadApp; try dsimp only
  repeat' (with_reducible first | exact hb | apply State.sysWrite_keeps | apply keeps_foldl | apply keeps_elim | (intro (t : State); have hb := Keeps.refl t) | intro _ | split | rw [id] | simp only [↓keeps_mk])

theorem State.setHart_keeps {orig : State} (s : State) (h : Nat) (x : Option Hart) (hb : Keeps orig s) :
    Keeps orig (State.setHart s h x) := by
  unfold State.setHart; try dsimp only
  repeat' (with_reducible first | exact hb | apply keeps_foldl | apply keeps_elim | (intro (t : State); have hb := Keeps.refl t) | intro _ | split | rw [id] | simp only [↓keeps_mk])

theorem State.releaseHart_keeps {orig : State} (s : State) (h : Nat) (hb : Keeps orig s) :
    Keeps orig (State.releaseHart s h) := by
  unfold State.releaseHart; try dsimp only
  repeat' (with_reducible first | exact hb | apply State.setHart_keeps | apply keeps_foldl | apply keeps_elim | (intro (t : State); have hb := Keeps.refl t) | intro _ | split | rw [id] | simp only [↓keeps_mk])

theorem State.driveFn_keeps {orig : State} (s : State) (fn : Nat) (on : Bool) (hb : Keeps orig s) :
    Keeps orig (State.driveFn s fn on) := by
  unfold State.driveFn; try dsimp only
  repeat' (with_reducible first | exact hb | apply keeps_foldl | apply keeps_elim | (intro (t : State); have hb := Keeps.refl t) | intro _ | split | rw [id] | simp only [↓keeps_mk])

theorem State.beginFn_keeps {orig : State} (s : State) (fn : Nat) (hb : Keeps orig s) :
    Keeps orig (State.beginFn s fn) := by
  unfold State.beginFn; try dsimp only
  repeat' (with_reducible first | exact hb | apply State.clearMem_keeps | apply State.loadTables_keeps | apply State.fillPool_keeps | apply State.loadApp_keeps | apply State.drive_keeps | apply keeps_foldl | apply keeps_elim | (intro (t : State); have hb := Keeps.refl t) | intro _ | split | rw [id] | simp only [↓keeps_mk])

theorem State.startUnits_keeps {orig : State} (s : State) (fn : Nat) (hb : Keeps orig s) :
    Keeps orig (State.startUnits s fn) := by
  unfold State.startUnits; try dsimp only
  repeat' (with_reducible first | exact hb | apply State.setUnit_keeps | apply keeps_foldl | apply keeps_elim | (intro (t : State); have hb := Keeps.refl t) | intro _ | split | rw [id] | simp only [↓keeps_mk])

theorem State.restartFn_keeps {orig : State} (s : State) (fn : Nat) (hb : Keeps orig s) :
    Keeps orig (State.restartFn s fn) := by
  unfold State.restartFn; try dsimp only
  repeat' (with_reducible first | exact hb | apply State.startUnits_keeps | apply State.setFn_keeps | apply keeps_foldl | apply keeps_elim | (intro (t : State); have hb := Keeps.refl t) | intro _ | split | rw [id] | simp only [↓keeps_mk])

theorem State.begin_keeps {orig : State} (s : State) (fn : Nat) (unit : Nat) (hb : Keeps orig s) :
    Keeps orig (State.begin s fn unit) := by
  unfold State.begin; try dsimp only
  repeat' (with_reducible first | exact hb | apply State.beginFn_keeps | apply keeps_foldl | apply keeps_elim | (intro (t : State); have hb := Keeps.refl t) | intro _ | split | rw [id] | simp only [↓keeps_mk])

theorem execFunctionStart_keeps {orig : State} (fn : Nat) (unit : Nat) (s : State) (hb : Keeps orig s) :
    KeepsOut orig (execFunctionStart fn unit s) := by
  unfold execFunctionStart; try dsimp only
  repeat' (with_reducible first | exact hb | apply KeepsOut.next | apply State.begin_keeps | apply State.restartFn_keeps | apply keeps_foldl | apply keeps_elim | (intro (t : State); have hb := Keeps.refl t) | intro _ | split | rw [id] | simp only [↓keeps_mk])

theorem State.recordTime_keeps {orig : State} (s : State) (fn : Nat) (hb : Keeps orig s) :
    Keeps orig (State.recordTime s fn) := by
  unfold State.recordTime; try dsimp only
  repeat' (with_reducible first | exact hb | apply State.setReg_keeps | apply keeps_foldl | apply keeps_elim | (intro (t : State); have hb := Keeps.refl t) | intro _ | split | rw [id] | simp only [↓keeps_mk])

theorem State.lanesUp_keeps {orig : State} (s : State) (n : Nat) (hb : Keeps orig s) :
    Keeps orig (State.lanesUp s n) := by
  unfold State.lanesUp; try dsimp only
  repeat' (with_reducible first | exact hb | apply State.putFld_keeps | apply keeps_foldl | apply keeps_elim | (intro (t : State); have hb := Keeps.refl t) | intro _ | split | rw [id] | simp only [↓keeps_mk])

theorem State.readyUnit_keeps {orig : State} (s : State) (fn : Nat) (unit : Nat) (hb : Keeps orig s) :
    Keeps orig (State.readyUnit s fn unit) := by
  unfold State.readyUnit; try dsimp only
  repeat' (with_reducible first | exact hb | apply State.drive_keeps | apply State.setUnit_keeps | apply State.clockAxis_keeps | apply State.readyAxis_keeps | apply State.startCan_keeps | apply State.lanesUp_keeps | apply State.releaseHart_keeps | apply keeps_foldl | apply keeps_elim | (intro (t : State); have hb := Keeps.refl t) | intro _ | split | rw [id] | simp only [↓keeps_mk])

theorem State.readyUnits_keeps {orig : State} (s : State) (fn : Nat) (hb : Keeps orig s) :
    Keeps orig (State.readyUnits s fn) := by
  unfold State.readyUnits; try dsimp only
  repeat' (with_reducible first | exact hb | apply State.readyUnit_keeps | apply keeps_foldl | apply keeps_elim | (intro (t : State); have hb := Keeps.refl t) | intro _ | split | rw [id] | simp only [↓keeps_mk])

theorem State.heldGate_keeps {orig : State} (s : State) (fn : Nat) (hb : Keeps orig s) :
    Keeps orig (State.heldGate s fn) := by
  unfold State.heldGate; try dsimp only
  repeat' (with_reducible first | exact hb | apply State.setReg_keeps | apply keeps_foldl | apply keeps_elim | (intro (t : State); have hb := Keeps.refl t) | intro _ | split | rw [id] | simp only [↓keeps_mk])

theorem State.readyFn_keeps {orig : State} (s : State) (fn : Nat) (hb : Keeps orig s) :
    Keeps orig (State.readyFn s fn) := by
  unfold State.readyFn; try dsimp only
  repeat' (with_reducible first | exact hb | apply State.showSafeFault_keeps | apply State.chrReady_keeps | apply State.preload_keeps | apply State.heldGate_keeps | apply State.trainPcie_keeps | apply State.driveFn_keeps | apply keeps_foldl | apply keeps_elim | (intro (t : State); have hb := Keeps.refl t) | intro _ | split | rw [id] | simp only [↓keeps_mk])

theorem State.stopUnit_keeps {orig : State} (s : State) (fn : Nat) (unit : Nat) (hb : Keeps orig s) :
    Keeps orig (State.stopUnit s fn unit) := by
  unfold State.stopUnit; try dsimp only
  repeat' (with_reducible first | exact hb | apply State.drive_keeps | apply State.putFld_keeps | apply State.linkChange_keeps | apply State.portDown_keeps | apply State.setPwm_keeps | apply State.resetAxis_keeps | apply State.zeroStore_keeps | apply State.clearFrames_keeps | apply State.setUnit_keeps | apply keeps_foldl | apply keeps_elim | (intro (t : State); have hb := Keeps.refl t) | intro _ | split | rw [id] | simp only [↓keeps_mk])

theorem State.stopTarget_keeps {orig : State} (s : State) (fn : Nat) (unit : Nat) (hb : Keeps orig s) :
    Keeps orig (State.stopTarget s fn unit) := by
  unfold State.stopTarget; try dsimp only
  repeat' (with_reducible first | exact hb | apply State.setFn_keeps | apply State.driveFn_keeps | apply State.stopUnit_keeps | apply keeps_foldl | apply keeps_elim | (intro (t : State); have hb := Keeps.refl t) | intro _ | split | rw [id] | simp only [↓keeps_mk])

theorem execFunctionReady_keeps {orig : State} (fn : Nat) (unit : Nat) (s : State) (hb : Keeps orig s) :
    KeepsOut orig (execFunctionReady fn unit s) := by
  unfold execFunctionReady; try dsimp only
  repeat' (with_reducible first | exact hb | apply KeepsOut.next | apply State.started_keeps | apply State.recordTime_keeps | apply State.readyUnits_keeps | apply State.setFn_keeps | apply State.settle_keeps | apply State.stopTarget_keeps | apply State.readyFn_keeps | apply State.readyUnit_keeps | apply keeps_foldl | apply keeps_elim | (intro (t : State); have hb := Keeps.refl t) | intro _ | split | rw [id] | simp only [↓keeps_mk])

theorem execFunctionStartFault_keeps {orig : State} (fn : Nat) (unit : Nat) (s : State) (hb : Keeps orig s) :
    KeepsOut orig (execFunctionStartFault fn unit s) := by
  unfold execFunctionStartFault; try dsimp only
  repeat' (with_reducible first | exact hb | apply KeepsOut.next | apply State.started_keeps | apply State.faultFn_keeps | apply State.setUnit_keeps | apply State.sumBit_keeps | apply keeps_foldl | apply keeps_elim | (intro (t : State); have hb := Keeps.refl t) | intro _ | split | rw [id] | simp only [↓keeps_mk])

theorem State.drainMotion_keeps {orig : State} (s : State) (a : Nat) (ran : Bool) (hb : Keeps orig s) :
    Keeps orig (State.drainMotion s a ran) := by
  unfold State.drainMotion; try dsimp only
  repeat' (with_reducible first | exact hb | apply State.drainAxis_keeps | apply State.flushAxis_keeps | apply State.setAx_keeps | apply keeps_foldl | apply keeps_elim | (intro (t : State); have hb := Keeps.refl t) | intro _ | split | rw [id] | simp only [↓keeps_mk])

theorem State.drainUnit_keeps {orig : State} (s : State) (fn : Nat) (unit : Nat) (hb : Keeps orig s) :
    Keeps orig (State.drainUnit s fn unit) := by
  unfold State.drainUnit; try dsimp only
  repeat' (with_reducible first | exact hb | apply State.stopUnit_keeps | apply State.setUnit_keeps | apply State.drainMotion_keeps | apply keeps_foldl | apply keeps_elim | (intro (t : State); have hb := Keeps.refl t) | intro _ | split | rw [id] | simp only [↓keeps_mk])

theorem State.drainTarget_keeps {orig : State} (s : State) (fn : Nat) (unit : Nat) (hb : Keeps orig s) :
    Keeps orig (State.drainTarget s fn unit) := by
  unfold State.drainTarget; try dsimp only
  repeat' (with_reducible first | exact hb | apply State.setFlag_keeps | apply State.setFn_keeps | apply State.drainUnit_keeps | apply State.abortReweave_keeps | apply keeps_foldl | apply keeps_elim | (intro (t : State); have hb := Keeps.refl t) | intro _ | split | rw [id] | simp only [↓keeps_mk])

theorem State.fnStop_keeps {orig : State} (s : State) (fn : Nat) (unit : Nat) (hb : Keeps orig s) :
    Keeps orig (State.fnStop s fn unit) := by
  unfold State.fnStop; try dsimp only
  repeat' (with_reducible first | exact hb | apply State.setFlag_keeps | apply State.showFnFault_keeps | apply State.stopTarget_keeps | apply State.drainTarget_keeps | apply keeps_foldl | apply keeps_elim | (intro (t : State); have hb := Keeps.refl t) | intro _ | split | rw [id] | simp only [↓keeps_mk])

theorem State.applyOne_keeps {orig : State} (s : State) (e : Nat × Word) (hb : Keeps orig s) :
    Keeps orig (State.applyOne s e).2 := by
  unfold State.applyOne; try dsimp only
  repeat' (with_reducible first | exact hb | apply State.setReg_keeps | apply keeps_foldl | apply keeps_elim | (intro (t : State); have hb := Keeps.refl t) | intro _ | split | rw [id] | simp only [↓keeps_mk])

theorem State.applyStaged_keeps {base : State} (s : State) (fn unit : Nat) (hb : Keeps base s) :
    Keeps base (State.applyStaged s fn unit).2 := by
  unfold State.applyStaged; dsimp only
  exact foldl_inv (P := fun (x : Bool × State) => Keeps base x.2) (fun x e h => State.applyOne_keeps _ _ h) (keeps_mk.2 hb)

theorem State.applyPartition_keeps {orig : State} (s : State) (p : Nat) (hb : Keeps orig s) :
    Keeps orig (State.applyPartition s p).2 := by
  unfold State.applyPartition; try dsimp only
  repeat' (with_reducible first | exact hb | apply State.applyStaged_keeps | apply State.setGuard_keeps | apply State.retighten_keeps | apply keeps_foldl | apply keeps_elim | (intro (t : State); have hb := Keeps.refl t) | intro _ | split | rw [id] | simp only [↓keeps_mk])

theorem State.loadFirmware_keeps {orig : State} (s : State) (fn : Nat) (x2 : Option FwImage) (hb : Keeps orig s) :
    Keeps orig (State.loadFirmware s fn x2).2 := by
  unfold State.loadFirmware; try dsimp only
  repeat' (with_reducible first | exact hb | apply keeps_foldl | apply keeps_elim | (intro (t : State); have hb := Keeps.refl t) | intro _ | split | rw [id] | simp only [↓keeps_mk])

theorem State.unparkReserved_keeps {orig : State} (s : State) (p : Nat) (hb : Keeps orig s) :
    Keeps orig (State.unparkReserved s p) := by
  unfold State.unparkReserved; try dsimp only
  repeat' (with_reducible first | exact hb | apply State.setParked_keeps | apply State.setFlag_keeps | apply keeps_foldl | apply keeps_elim | (intro (t : State); have hb := Keeps.refl t) | intro _ | split | rw [id] | simp only [↓keeps_mk])

theorem State.activate_keeps {orig : State} (s : State) (fn : Nat) (unit : Nat) (fw : Option FwImage) (hb : Keeps orig s) :
    Keeps orig (State.activate s fn unit fw) := by
  unfold State.activate; try dsimp only
  repeat' (with_reducible first | exact hb | apply State.applyPartition_keeps | apply State.applyStaged_keeps | apply State.loadFirmware_keeps | apply State.bumpGen_keeps | apply State.unparkReserved_keeps | apply State.suspendAll_keeps | apply keeps_foldl | apply keeps_elim | (intro (t : State); have hb := Keeps.refl t) | intro _ | split | rw [id] | simp only [↓keeps_mk])

theorem State.fnStart_keeps {orig : State} (s : State) (fn : Nat) (unit : Nat) (fw : Option FwImage) (hb : Keeps orig s) :
    Keeps orig (State.fnStart s fn unit fw) := by
  unfold State.fnStart; try dsimp only
  repeat' (with_reducible first | exact hb | apply State.activate_keeps | apply State.startUnits_keeps | apply State.setFn_keeps | apply State.setUnit_keeps | apply keeps_foldl | apply keeps_elim | (intro (t : State); have hb := Keeps.refl t) | intro _ | split | rw [id] | simp only [↓keeps_mk])

theorem fnBody_keeps {base : State} (result : Nat → Nat → State → Nat) (act : Nat → Nat → State → State) (p : Packet) (id : Nat)
    (s : State) (hact : ∀ a b t, Keeps t (act a b t)) (hb : Keeps base s) : Keeps base (fnBody result act p id s) :=
  State.finish_keeps _ _ _ _ _ (hb.trans (hact _ _ _))

theorem State.writeFnctl_keeps {orig : State} (s : State) (w : RegWrite) (fw : Option FwImage) (hb : Keeps orig s) :
    Keeps orig (State.writeFnctl s w fw) := by
  unfold State.writeFnctl; try dsimp only
  repeat' (with_reducible first | exact hb | apply State.regWrite_keeps | apply State.putFld_keeps | apply State.fnStop_keeps | apply State.fnStart_keeps | apply keeps_foldl | apply keeps_elim | (intro (t : State); have hb := Keeps.refl t) | intro _ | split | rw [id] | simp only [↓keeps_mk])

theorem execFnStop_keeps {orig : State} (r : FnReq) (s : State) (hb : Keeps orig s) :
    KeepsOut orig (execFnStop r s) := by
  unfold execFnStop; try dsimp only
  repeat' (with_reducible first | exact hb | apply KeepsOut.next | apply runPacket_keeps | apply fnBody_keeps | apply State.fnStop_keeps | apply State.writeFnctl_keeps | apply keeps_foldl | apply keeps_elim | (intro (t : State); have hb := Keeps.refl t) | intro _ | split | rw [id] | simp only [↓keeps_mk])

theorem execFnStart_keeps {orig : State} (r : FnReq) (fw : Option FwImage) (s : State) (hb : Keeps orig s) :
    KeepsOut orig (execFnStart r fw s) := by
  unfold execFnStart; try dsimp only
  repeat' (with_reducible first | exact hb | apply KeepsOut.next | apply runPacket_keeps | apply fnBody_keeps | apply State.fnStart_keeps | apply State.writeFnctl_keeps | apply keeps_foldl | apply keeps_elim | (intro (t : State); have hb := Keeps.refl t) | intro _ | split | rw [id] | simp only [↓keeps_mk])

theorem State.endRestart_keeps {orig : State} (s : State) (fn : Nat) (unit : Nat) (hb : Keeps orig s) :
    Keeps orig (State.endRestart s fn unit) := by
  unfold State.endRestart; try dsimp only
  repeat' (with_reducible first | exact hb | apply State.setUnit_keeps | apply State.setFn_keeps | apply keeps_foldl | apply keeps_elim | (intro (t : State); have hb := Keeps.refl t) | intro _ | split | rw [id] | simp only [↓keeps_mk])

theorem execDrainComplete_keeps {orig : State} (fn : Nat) (unit : Nat) (s : State) (hb : Keeps orig s) :
    KeepsOut orig (execDrainComplete fn unit s) := by
  unfold execDrainComplete; try dsimp only
  repeat' (with_reducible first | exact hb | apply KeepsOut.next | apply State.moreKernels_keeps | apply State.endRestart_keeps | apply State.stopTarget_keeps | apply keeps_foldl | apply keeps_elim | (intro (t : State); have hb := Keeps.refl t) | intro _ | split | rw [id] | simp only [↓keeps_mk])

theorem State.preempt_keeps {orig : State} (s : State) (k : Kernel) (hb : Keeps orig s) :
    Keeps orig (State.preempt s k) := by
  unfold State.preempt; try dsimp only
  repeat' (with_reducible first | exact hb | apply State.zeroStore_keeps | apply State.putFld_keeps | apply State.completeKernel_keeps | apply keeps_foldl | apply keeps_elim | (intro (t : State); have hb := Keeps.refl t) | intro _ | split | rw [id] | simp only [↓keeps_mk])

theorem State.preemptPort_keeps {orig : State} (s : State) (p : Nat) (hb : Keeps orig s) :
    Keeps orig (State.preemptPort s p) := by
  unfold State.preemptPort; try dsimp only
  repeat' (with_reducible first | exact hb | apply State.complete_keeps | apply State.setEth_keeps | apply keeps_foldl | apply keeps_elim | (intro (t : State); have hb := Keeps.refl t) | intro _ | split | rw [id] | simp only [↓keeps_mk])

theorem State.preemptUnit_keeps {orig : State} (s : State) (fn : Nat) (unit : Nat) (hb : Keeps orig s) :
    Keeps orig (State.preemptUnit s fn unit) := by
  unfold State.preemptUnit; try dsimp only
  repeat' (with_reducible first | exact hb | apply State.preempt_keeps | apply State.preemptPort_keeps | apply State.endFrames_keeps | apply State.complete_keeps | apply State.motEvent_keeps | apply State.axFault_keeps | apply State.takePattern_keeps | apply State.setCan_keeps | apply keeps_foldl | apply keeps_elim | (intro (t : State); have hb := Keeps.refl t) | intro _ | split | rw [id] | simp only [↓keeps_mk])

theorem State.preemptMem_keeps {orig : State} (s : State) (fn : Nat) (hb : Keeps orig s) :
    Keeps orig (State.preemptMem s fn) := by
  unfold State.preemptMem; try dsimp only
  repeat' (with_reducible first | exact hb | apply State.complete_keeps | apply keeps_foldl | apply keeps_elim | (intro (t : State); have hb := Keeps.refl t) | intro _ | split | rw [id] | simp only [↓keeps_mk])

theorem execDrainTimeout_keeps {orig : State} (fn : Nat) (unit : Nat) (s : State) (hb : Keeps orig s) :
    KeepsOut orig (execDrainTimeout fn unit s) := by
  unfold execDrainTimeout; try dsimp only
  repeat' (with_reducible first | exact hb | apply KeepsOut.next | apply State.preemptMem_keeps | apply State.preemptUnit_keeps | apply State.moreKernels_keeps | apply State.endRestart_keeps | apply State.stopTarget_keeps | apply keeps_foldl | apply keeps_elim | (intro (t : State); have hb := Keeps.refl t) | intro _ | split | rw [id] | simp only [↓keeps_mk])

end Sys2Proof.Machine
end

