-- ==== Sys2Proof/Laws/Keeps/Clocks.lean ====
section
/-! SUPPORT. What the operations of Machine/Clocks.lean keep (Laws/Keeps.lean). -/

set_option linter.unusedTactic false
set_option linter.unreachableTactic false

namespace Sys2Proof.Machine

theorem State.restartNet_keeps {orig : State} (s : State) (hb : Keeps orig s) :
    Keeps orig (State.restartNet s) := by
  unfold State.restartNet; try dsimp only
  repeat' (with_reducible first | exact hb | apply State.putFld_keeps | apply keeps_foldl | apply keeps_elim | (intro (t : State); have hb := Keeps.refl t) | intro _ | split | rw [id] | simp only [↓keeps_mk])

theorem State.countRef_keeps {orig : State} (s : State) (hb : Keeps orig s) :
    Keeps orig (State.countRef s) := by
  unfold State.countRef; try dsimp only
  repeat' (with_reducible first | exact hb | apply State.putFld_keeps | apply keeps_foldl | apply keeps_elim | (intro (t : State); have hb := Keeps.refl t) | intro _ | split | rw [id] | simp only [↓keeps_mk])

theorem State.countNet_keeps {orig : State} (s : State) (hb : Keeps orig s) :
    Keeps orig (State.countNet s) := by
  unfold State.countNet; try dsimp only
  repeat' (with_reducible first | exact hb | apply State.putFld_keeps | apply keeps_foldl | apply keeps_elim | (intro (t : State); have hb := Keeps.refl t) | intro _ | split | rw [id] | simp only [↓keeps_mk])

theorem State.addCycles_keeps {orig : State} (s : State) (n : Nat) (hb : Keeps orig s) :
    Keeps orig (State.addCycles s n) := by
  unfold State.addCycles; try dsimp only
  repeat' (with_reducible first | exact hb | apply State.addReg_keeps | apply keeps_foldl | apply keeps_elim | (intro (t : State); have hb := Keeps.refl t) | intro _ | split | rw [id] | simp only [↓keeps_mk])

theorem State.coreTick_keeps {orig : State} (s : State) (hb : Keeps orig s) :
    Keeps orig (State.coreTick s) := by
  unfold State.coreTick; try dsimp only
  repeat' (with_reducible first | exact hb | apply State.addCycles_keeps | apply keeps_foldl | apply keeps_elim | (intro (t : State); have hb := Keeps.refl t) | intro _ | split | rw [id] | simp only [↓keeps_mk])

theorem State.edgeTick_keeps {orig : State} (s : State) (hb : Keeps orig s) :
    Keeps orig (State.edgeTick s) := by
  unfold State.edgeTick; try dsimp only
  repeat' (with_reducible first | exact hb | apply keeps_foldl | apply keeps_elim | (intro (t : State); have hb := Keeps.refl t) | intro _ | split | rw [id] | simp only [↓keeps_mk])

theorem State.clockTick_keeps {orig : State} (s : State) (hb : Keeps orig s) :
    Keeps orig (State.clockTick s) := by
  unfold State.clockTick; try dsimp only
  repeat' (with_reducible first | exact hb | apply State.edgeTick_keeps | apply State.coreTick_keeps | apply State.countNet_keeps | apply State.countRef_keeps | apply State.showBacklog_keeps | apply keeps_foldl | apply keeps_elim | (intro (t : State); have hb := Keeps.refl t) | intro _ | split | rw [id] | simp only [↓keeps_mk])

theorem State.loseSource_keeps {orig : State} (s : State) (n : Nat) (hb : Keeps orig s) :
    Keeps orig (State.loseSource s n) := by
  unfold State.loseSource; try dsimp only
  repeat' (with_reducible first | exact hb | apply State.restartNet_keeps | apply State.putFld_keeps | apply keeps_foldl | apply keeps_elim | (intro (t : State); have hb := Keeps.refl t) | intro _ | split | rw [id] | simp only [↓keeps_mk])

theorem State.switchSource_keeps {orig : State} (s : State) (n : Nat) (software : Bool) (hb : Keeps orig s) :
    Keeps orig (State.switchSource s n software) := by
  unfold State.switchSource; try dsimp only
  repeat' (with_reducible first | exact hb | apply State.putFld_keeps | apply keeps_foldl | apply keeps_elim | (intro (t : State); have hb := Keeps.refl t) | intro _ | split | rw [id] | simp only [↓keeps_mk])

theorem State.onRcoscEntry_keeps {orig : State} (s : State) (hb : Keeps orig s) :
    Keeps orig (State.onRcoscEntry s) := by
  unfold State.onRcoscEntry; try dsimp only
  repeat' (with_reducible first | exact hb | apply State.setFlag_keeps | apply State.chrRcosc_keeps | apply State.enterSafe_keeps | apply keeps_foldl | apply keeps_elim | (intro (t : State); have hb := Keeps.refl t) | intro _ | split | rw [id] | simp only [↓keeps_mk])

theorem State.fallback_keeps {orig : State} (s : State) (hb : Keeps orig s) :
    Keeps orig (State.fallback s) := by
  unfold State.fallback; try dsimp only
  repeat' (with_reducible first | exact hb | apply State.loseSource_keeps | apply State.switchSource_keeps | apply State.setFlag_keeps | apply State.anyEvent_keeps | apply State.onRcoscEntry_keeps | apply keeps_foldl | apply keeps_elim | (intro (t : State); have hb := Keeps.refl t) | intro _ | split | rw [id] | simp only [↓keeps_mk])

theorem State.tripOther_keeps {orig : State} (s : State) (n : Nat) (hb : Keeps orig s) :
    Keeps orig (State.tripOther s n) := by
  unfold State.tripOther; try dsimp only
  repeat' (with_reducible first | exact hb | apply State.loseSource_keeps | apply State.anyEvent_keeps | apply keeps_foldl | apply keeps_elim | (intro (t : State); have hb := Keeps.refl t) | intro _ | split | rw [id] | simp only [↓keeps_mk])

theorem execClockMonitorTrip_keeps {orig : State} (t : ClockTrip) (s : State) (hb : Keeps orig s) :
    KeepsOut orig (execClockMonitorTrip t s) := by
  unfold execClockMonitorTrip; try dsimp only
  repeat' (with_reducible first | exact hb | apply KeepsOut.next | apply State.setReg_keeps | apply State.fallback_keeps | apply State.tripOther_keeps | apply keeps_foldl | apply keeps_elim | (intro (t : State); have hb := Keeps.refl t) | intro _ | split | rw [id] | simp only [↓keeps_mk])

theorem execNetrefReady_keeps {orig : State} (s : State) (hb : Keeps orig s) :
    KeepsOut orig (execNetrefReady s) := by
  unfold execNetrefReady; try dsimp only
  repeat' (with_reducible first | exact hb | apply KeepsOut.next | apply State.putFld_keeps | apply keeps_foldl | apply keeps_elim | (intro (t : State); have hb := Keeps.refl t) | intro _ | split | rw [id] | simp only [↓keeps_mk])

theorem State.stopForRcosc_keeps {orig : State} (s : State) (fn : Nat) (hb : Keeps orig s) :
    Keeps orig (State.stopForRcosc s fn) := by
  unfold State.stopForRcosc; try dsimp only
  repeat' (with_reducible first | exact hb | apply State.drainTarget_keeps | apply keeps_foldl | apply keeps_elim | (intro (t : State); have hb := Keeps.refl t) | intro _ | split | rw [id] | simp only [↓keeps_mk])

theorem State.resumeFn_keeps {orig : State} (s : State) (fn : Nat) (hb : Keeps orig s) :
    Keeps orig (State.resumeFn s fn) := by
  unfold State.resumeFn; try dsimp only
  repeat' (with_reducible first | exact hb | apply State.fnStart_keeps | apply keeps_foldl | apply keeps_elim | (intro (t : State); have hb := Keeps.refl t) | intro _ | split | rw [id] | simp only [↓keeps_mk])

theorem execPllRelock_keeps {orig : State} (s : State) (hb : Keeps orig s) :
    KeepsOut orig (execPllRelock s) := by
  unfold execPllRelock; try dsimp only
  repeat' (with_reducible first | exact hb | apply KeepsOut.next | apply State.putFld_keeps | apply State.stopForRcosc_keeps | apply State.resumeFn_keeps | apply State.seek_keeps | apply keeps_foldl | apply keeps_elim | (intro (t : State); have hb := Keeps.refl t) | intro _ | split | rw [id] | simp only [↓keeps_mk])

theorem State.requestSource_keeps {orig : State} (s : State) (n : Nat) (hb : Keeps orig s) :
    Keeps orig (State.requestSource s n) := by
  unfold State.requestSource; try dsimp only
  repeat' (with_reducible first | exact hb | apply State.putFld_keeps | apply State.anyEvent_keeps | apply State.switchRefused_keeps | apply State.switchSource_keeps | apply State.onRcoscEntry_keeps | apply keeps_foldl | apply keeps_elim | (intro (t : State); have hb := Keeps.refl t) | intro _ | split | rw [id] | simp only [↓keeps_mk])

theorem execClkSrcselReq_keeps {orig : State} (w : RegWrite) (s : State) (hb : Keeps orig s) :
    KeepsOut orig (execClkSrcselReq w s) := by
  unfold execClkSrcselReq; try dsimp only
  repeat' (with_reducible first | exact hb | apply KeepsOut.next | apply State.regWrite_keeps | apply State.requestSource_keeps | apply keeps_foldl | apply keeps_elim | (intro (t : State); have hb := Keeps.refl t) | intro _ | split | rw [id] | simp only [↓keeps_mk])

theorem State.writeNetref_keeps {orig : State} (s : State) (v : Nat) (hb : Keeps orig s) :
    Keeps orig (State.writeNetref s v) := by
  unfold State.writeNetref; try dsimp only
  repeat' (with_reducible first | exact hb | apply State.putFld_keeps | apply State.switchRefused_keeps | apply State.loseSource_keeps | apply keeps_foldl | apply keeps_elim | (intro (t : State); have hb := Keeps.refl t) | intro _ | split | rw [id] | simp only [↓keeps_mk])

theorem execClkNetrefWrite_keeps {orig : State} (w : RegWrite) (s : State) (hb : Keeps orig s) :
    KeepsOut orig (execClkNetrefWrite w s) := by
  unfold execClkNetrefWrite; try dsimp only
  repeat' (with_reducible first | exact hb | apply KeepsOut.next | apply State.regWrite_keeps | apply State.writeNetref_keeps | apply keeps_foldl | apply keeps_elim | (intro (t : State); have hb := Keeps.refl t) | intro _ | split | rw [id] | simp only [↓keeps_mk])

theorem State.writeGate_keeps {orig : State} (s : State) (k : Nat) (v : Nat) (hb : Keeps orig s) :
    Keeps orig (State.writeGate s k v) := by
  unfold State.writeGate; try dsimp only
  repeat' (with_reducible first | exact hb | apply State.setReg_keeps | apply State.setFlag_keeps | apply keeps_foldl | apply keeps_elim | (intro (t : State); have hb := Keeps.refl t) | intro _ | split | rw [id] | simp only [↓keeps_mk])

theorem execClkGateWrite_keeps {orig : State} (k : Nat) (w : RegWrite) (s : State) (hb : Keeps orig s) :
    KeepsOut orig (execClkGateWrite k w s) := by
  unfold execClkGateWrite; try dsimp only
  repeat' (with_reducible first | exact hb | apply KeepsOut.next | apply State.regWrite_keeps | apply State.writeGate_keeps | apply keeps_foldl | apply keeps_elim | (intro (t : State); have hb := Keeps.refl t) | intro _ | split | rw [id] | simp only [↓keeps_mk])

theorem State.senseOut_keeps {orig : State} (s : State) (n : Nat) (on : Bool) (hb : Keeps orig s) :
    Keeps orig (State.senseOut s n on) := by
  unfold State.senseOut; try dsimp only
  repeat' (with_reducible first | exact hb | apply keeps_foldl | apply keeps_elim | (intro (t : State); have hb := Keeps.refl t) | intro _ | split | rw [id] | simp only [↓keeps_mk])

theorem State.writeSensctl_keeps {orig : State} (s : State) (n : Nat) (v : Nat) (hb : Keeps orig s) :
    Keeps orig (State.writeSensctl s n v) := by
  unfold State.writeSensctl; try dsimp only
  repeat' (with_reducible first | exact hb | apply State.senseOut_keeps | apply State.putFld_keeps | apply State.setFlag_keeps | apply keeps_foldl | apply keeps_elim | (intro (t : State); have hb := Keeps.refl t) | intro _ | split | rw [id] | simp only [↓keeps_mk])

theorem execSensclkEnable_keeps {orig : State} (n : Nat) (w : RegWrite) (s : State) (hb : Keeps orig s) :
    KeepsOut orig (execSensclkEnable n w s) := by
  unfold execSensclkEnable; try dsimp only
  repeat' (with_reducible first | exact hb | apply KeepsOut.next | apply State.regWrite_keeps | apply State.writeSensctl_keeps | apply keeps_foldl | apply keeps_elim | (intro (t : State); have hb := Keeps.refl t) | intro _ | split | rw [id] | simp only [↓keeps_mk])

theorem State.setDiv_keeps {orig : State} (s : State) (d : Nat) (hb : Keeps orig s) :
    Keeps orig (State.setDiv s d) := by
  unfold State.setDiv; try dsimp only
  repeat' (with_reducible first | exact hb | apply State.setFlag_keeps | apply State.putFld_keeps | apply keeps_foldl | apply keeps_elim | (intro (t : State); have hb := Keeps.refl t) | intro _ | split | rw [id] | simp only [↓keeps_mk])

theorem State.aim_keeps {orig : State} (s : State) (hb : Keeps orig s) :
    Keeps orig (State.aim s) := by
  unfold State.aim; try dsimp only
  repeat' (with_reducible first | exact hb | apply State.setDiv_keeps | apply State.putFld_keeps | apply keeps_foldl | apply keeps_elim | (intro (t : State); have hb := Keeps.refl t) | intro _ | split | rw [id] | simp only [↓keeps_mk])

theorem State.showGuard_keeps {orig : State} (s : State) (hb : Keeps orig s) :
    Keeps orig (State.showGuard s) := by
  unfold State.showGuard; try dsimp only
  repeat' (with_reducible first | exact hb | apply State.putFld_keeps | apply keeps_foldl | apply keeps_elim | (intro (t : State); have hb := Keeps.refl t) | intro _ | split | rw [id] | simp only [↓keeps_mk])

theorem State.noteGuard_keeps {orig : State} (s : State) (b : Nat) (hb : Keeps orig s) :
    Keeps orig (State.noteGuard s b) := by
  unfold State.noteGuard; try dsimp only
  repeat' (with_reducible first | exact hb | apply State.anyEvent_keeps | apply State.setFlag_keeps | apply keeps_foldl | apply keeps_elim | (intro (t : State); have hb := Keeps.refl t) | intro _ | split | rw [id] | simp only [↓keeps_mk])

theorem State.bandTime_keeps {orig : State} (s : State) (b : Nat) (us : Nat) (hb : Keeps orig s) :
    Keeps orig (State.bandTime s b us) := by
  unfold State.bandTime; try dsimp only
  repeat' (with_reducible first | exact hb | apply keeps_foldl | apply keeps_elim | (intro (t : State); have hb := Keeps.refl t) | intro _ | split | rw [id] | simp only [↓keeps_mk])

theorem State.windowOut_keeps {orig : State} (s : State) (b : Nat) (hb : Keeps orig s) :
    Keeps orig (State.windowOut s b) := by
  unfold State.windowOut; try dsimp only
  repeat' (with_reducible first | exact hb | apply keeps_foldl | apply keeps_elim | (intro (t : State); have hb := Keeps.refl t) | intro _ | split | rw [id] | simp only [↓keeps_mk])

theorem execLoadBandWindow_keeps {orig : State} (busyPercent : Nat) (s : State) (hb : Keeps orig s) :
    KeepsOut orig (execLoadBandWindow busyPercent s) := by
  unfold execLoadBandWindow; try dsimp only
  repeat' (with_reducible first | exact hb | apply KeepsOut.next | apply State.windowOut_keeps | apply State.bandTime_keeps | apply State.showGuard_keeps | apply State.putFld_keeps | apply State.noteGuard_keeps | apply State.aim_keeps | apply keeps_foldl | apply keeps_elim | (intro (t : State); have hb := Keeps.refl t) | intro _ | split | rw [id] | simp only [↓keeps_mk])

theorem State.coolBands_keeps {orig : State} (s : State) (tj : ℤ) (hb : Keeps orig s) :
    Keeps orig (State.coolBands s tj) := by
  unfold State.coolBands; try dsimp only
  repeat' (with_reducible first | exact hb | apply State.putFld_keeps | apply keeps_foldl | apply keeps_elim | (intro (t : State); have hb := Keeps.refl t) | intro _ | split | rw [id] | simp only [↓keeps_mk])

theorem execBandMeasured_keeps {orig : State} (band : Nat) (offset : Nat) (tj : Nat) (s : State) (hb : Keeps orig s) :
    KeepsOut orig (execBandMeasured band offset tj s) := by
  unfold execBandMeasured; try dsimp only
  repeat' (with_reducible first | exact hb | apply KeepsOut.next | apply State.setReg_keeps | apply State.aim_keeps | apply State.showGuard_keeps | apply State.coolBands_keeps | apply keeps_foldl | apply keeps_elim | (intro (t : State); have hb := Keeps.refl t) | intro _ | split | rw [id] | simp only [↓keeps_mk])

theorem execAvsLower_keeps {orig : State} (s : State) (hb : Keeps orig s) :
    KeepsOut orig (execAvsLower s) := by
  unfold execAvsLower; try dsimp only
  repeat' (with_reducible first | exact hb | apply KeepsOut.next | apply State.aim_keeps | apply keeps_foldl | apply keeps_elim | (intro (t : State); have hb := Keeps.refl t) | intro _ | split | rw [id] | simp only [↓keeps_mk])

theorem State.invalidateBands_keeps {orig : State} (s : State) (v : Nat) (hb : Keeps orig s) :
    Keeps orig (State.invalidateBands s v) := by
  unfold State.invalidateBands; try dsimp only
  repeat' (with_reducible first | exact hb | apply State.putFld_keeps | apply keeps_foldl | apply keeps_elim | (intro (t : State); have hb := Keeps.refl t) | intro _ | split | rw [id] | simp only [↓keeps_mk])

theorem execPwrAvsInvalidate_keeps {orig : State} (w : RegWrite) (s : State) (hb : Keeps orig s) :
    KeepsOut orig (execPwrAvsInvalidate w s) := by
  unfold execPwrAvsInvalidate; try dsimp only
  repeat' (with_reducible first | exact hb | apply KeepsOut.next | apply State.regWrite_keeps | apply State.invalidateBands_keeps | apply keeps_foldl | apply keeps_elim | (intro (t : State); have hb := Keeps.refl t) | intro _ | split | rw [id] | simp only [↓keeps_mk])

theorem execDroopDetect_keeps {orig : State} (belowMv : Nat) (s : State) (hb : Keeps orig s) :
    KeepsOut orig (execDroopDetect belowMv s) := by
  unfold execDroopDetect; try dsimp only
  repeat' (with_reducible first | exact hb | apply KeepsOut.next | apply keeps_foldl | apply keeps_elim | (intro (t : State); have hb := Keeps.refl t) | intro _ | split | rw [id] | simp only [↓keeps_mk])

theorem execDroopRecovery_keeps {orig : State} (skipped : Nat) (s : State) (hb : Keeps orig s) :
    KeepsOut orig (execDroopRecovery skipped s) := by
  unfold execDroopRecovery; try dsimp only
  repeat' (with_reducible first | exact hb | apply KeepsOut.next | apply State.addCycles_keeps | apply State.setReg_keeps | apply keeps_foldl | apply keeps_elim | (intro (t : State); have hb := Keeps.refl t) | intro _ | split | rw [id] | simp only [↓keeps_mk])

theorem State.park1_keeps {orig : State} (s : State) (n : Nat) (hb : Keeps orig s) :
    Keeps orig (State.park1 s n) := by
  unfold State.park1; try dsimp only
  repeat' (with_reducible first | exact hb | apply State.setFlag_keeps | apply State.setParked_keeps | apply keeps_foldl | apply keeps_elim | (intro (t : State); have hb := Keeps.refl t) | intro _ | split | rw [id] | simp only [↓keeps_mk])

theorem State.trimEngines_keeps {orig : State} (s : State) (hb : Keeps orig s) :
    Keeps orig (State.trimEngines s) := by
  unfold State.trimEngines; try dsimp only
  repeat' (with_reducible first | exact hb | apply State.park1_keeps | apply keeps_foldl | apply keeps_elim | (intro (t : State); have hb := Keeps.refl t) | intro _ | split | rw [id] | simp only [↓keeps_mk])

theorem State.capStep_keeps {orig : State} (s : State) (hb : Keeps orig s) :
    Keeps orig (State.capStep s) := by
  unfold State.capStep; try dsimp only
  repeat' (with_reducible first | exact hb | apply State.setFlag_keeps | apply State.park1_keeps | apply State.aim_keeps | apply State.setDiv_keeps | apply keeps_foldl | apply keeps_elim | (intro (t : State); have hb := Keeps.refl t) | intro _ | split | rw [id] | simp only [↓keeps_mk])

theorem State.recoverStep_keeps {orig : State} (s : State) (hb : Keeps orig s) :
    Keeps orig (State.recoverStep s) := by
  unfold State.recoverStep; try dsimp only
  repeat' (with_reducible first | exact hb | apply State.aim_keeps | apply State.setDiv_keeps | apply State.setFlag_keeps | apply State.setParked_keeps | apply keeps_foldl | apply keeps_elim | (intro (t : State); have hb := Keeps.refl t) | intro _ | split | rw [id] | simp only [↓keeps_mk])

theorem State.takeReading_keeps {orig : State} (s : State) (r : Nat) (hb : Keeps orig s) :
    Keeps orig (State.takeReading s r) := by
  unfold State.takeReading; try dsimp only
  repeat' (with_reducible first | exact hb | apply State.putFld_keeps | apply keeps_foldl | apply keeps_elim | (intro (t : State); have hb := Keeps.refl t) | intro _ | split | rw [id] | simp only [↓keeps_mk])

theorem State.showCap_keeps {orig : State} (s : State) (above : Bool) (hb : Keeps orig s) :
    Keeps orig (State.showCap s above) := by
  unfold State.showCap; try dsimp only
  repeat' (with_reducible first | exact hb | apply State.anyEvent_keeps | apply State.setFlag_keeps | apply State.putFld_keeps | apply keeps_foldl | apply keeps_elim | (intro (t : State); have hb := Keeps.refl t) | intro _ | split | rw [id] | simp only [↓keeps_mk])

theorem State.powerAct_keeps {orig : State} (s : State) (hb : Keeps orig s) :
    Keeps orig (State.powerAct s) := by
  unfold State.powerAct; try dsimp only
  repeat' (with_reducible first | exact hb | apply State.showCap_keeps | apply State.trimEngines_keeps | apply State.capStep_keeps | apply State.recoverStep_keeps | apply keeps_foldl | apply keeps_elim | (intro (t : State); have hb := Keeps.refl t) | intro _ | split | rw [id] | simp only [↓keeps_mk])

theorem execPowerManagerStep_keeps {orig : State} (reading : Option Nat) (estimate : Nat) (s : State) (hb : Keeps orig s) :
    KeepsOut orig (execPowerManagerStep reading estimate s) := by
  unfold execPowerManagerStep; try dsimp only
  repeat' (with_reducible first | exact hb | apply KeepsOut.next | apply State.powerAct_keeps | apply State.takeReading_keeps | apply State.putFld_keeps | apply keeps_foldl | apply keeps_elim | (intro (t : State); have hb := Keeps.refl t) | intro _ | split | rw [id] | simp only [↓keeps_mk])

theorem execPmbusLost_keeps {orig : State} (s : State) (hb : Keeps orig s) :
    KeepsOut orig (execPmbusLost s) := by
  unfold execPmbusLost; try dsimp only
  repeat' (with_reducible first | exact hb | apply KeepsOut.next | apply State.anyEvent_keeps | apply State.setFlag_keeps | apply State.putFld_keeps | apply keeps_foldl | apply keeps_elim | (intro (t : State); have hb := Keeps.refl t) | intro _ | split | rw [id] | simp only [↓keeps_mk])

theorem execPwrCapUnmet_keeps {orig : State} (s : State) (hb : Keeps orig s) :
    KeepsOut orig (execPwrCapUnmet s) := by
  unfold execPwrCapUnmet; try dsimp only
  repeat' (with_reducible first | exact hb | apply KeepsOut.next | apply State.anyEvent_keeps | apply State.setFlag_keeps | apply State.putFld_keeps | apply keeps_foldl | apply keeps_elim | (intro (t : State); have hb := Keeps.refl t) | intro _ | split | rw [id] | simp only [↓keeps_mk])

theorem State.writePwrCtl_keeps {orig : State} (s : State) (v : Nat) (hb : Keeps orig s) :
    Keeps orig (State.writePwrCtl s v) := by
  unfold State.writePwrCtl; try dsimp only
  repeat' (with_reducible first | exact hb | apply State.putFld_keeps | apply keeps_foldl | apply keeps_elim | (intro (t : State); have hb := Keeps.refl t) | intro _ | split | rw [id] | simp only [↓keeps_mk])

theorem State.startPower_keeps {orig : State} (s : State) (hb : Keeps orig s) :
    Keeps orig (State.startPower s) := by
  unfold State.startPower; try dsimp only
  repeat' (with_reducible first | exact hb | apply State.putFld_keeps | apply State.setParked_keeps | apply State.aim_keeps | apply State.showGuard_keeps | apply State.showPark_keeps | apply keeps_foldl | apply keeps_elim | (intro (t : State); have hb := Keeps.refl t) | intro _ | split | rw [id] | simp only [↓keeps_mk])

theorem State.showTemp_keeps {orig : State} (s : State) (sensor : Nat) (tj : Nat) (hb : Keeps orig s) :
    Keeps orig (State.showTemp s sensor tj) := by
  unfold State.showTemp; try dsimp only
  repeat' (with_reducible first | exact hb | apply State.coolBands_keeps | apply State.putFld_keeps | apply keeps_foldl | apply keeps_elim | (intro (t : State); have hb := Keeps.refl t) | intro _ | split | rw [id] | simp only [↓keeps_mk])

theorem execThermalThrottle_keeps {orig : State} (sensor : Nat) (tj : Nat) (s : State) (hb : Keeps orig s) :
    KeepsOut orig (execThermalThrottle sensor tj s) := by
  unfold execThermalThrottle; try dsimp only
  repeat' (with_reducible first | exact hb | apply KeepsOut.next | apply State.showTemp_keeps | apply State.anyEvent_keeps | apply State.setFlag_keeps | apply State.putFld_keeps | apply keeps_foldl | apply keeps_elim | (intro (t : State); have hb := Keeps.refl t) | intro _ | split | rw [id] | simp only [↓keeps_mk])

end Sys2Proof.Machine
end

