-- ==== Sys2Proof/Laws/Keeps/Boot.lean ====
section
/-! SUPPORT. What the operations of Machine/Boot.lean keep (Laws/Keeps.lean). -/

set_option linter.unusedTactic false
set_option linter.unreachableTactic false

namespace Sys2Proof.Machine

theorem State.cold_keeps {orig : State} (s : State) (porstN : Bool) (rails : Bool) (hb : Keeps orig s) :
    Keeps orig (State.cold s porstN rails) := by
  unfold State.cold; try dsimp only
  repeat' (with_reducible first | exact hb | apply State.putFld_keeps | apply State.setReg_keeps | apply keeps_foldl | apply keeps_elim | (intro (t : State); have hb := Keeps.refl t) | intro _ | split | rw [id] | simp only [↓keeps_mk])

theorem State.powerOn_keeps {orig : State} (s : State) (rails : Bool) (hb : Keeps orig s) :
    Keeps orig (State.powerOn s rails) := by
  unfold State.powerOn; try dsimp only
  repeat' (with_reducible first | exact hb | apply State.setReg_keeps | apply State.resetAll_keeps | apply State.cold_keeps | apply keeps_foldl | apply keeps_elim | (intro (t : State); have hb := Keeps.refl t) | intro _ | split | rw [id] | simp only [↓keeps_mk])

theorem execPowerOnReset_keeps {orig : State} (s : State) (hb : Keeps orig s) :
    KeepsOut orig (execPowerOnReset s) := by
  unfold execPowerOnReset; try dsimp only
  repeat' (with_reducible first | exact hb | apply KeepsOut.next | apply State.powerOn_keeps | apply keeps_foldl | apply keeps_elim | (intro (t : State); have hb := Keeps.refl t) | intro _ | split | rw [id] | simp only [↓keeps_mk])

theorem execRailMonitorTrip_keeps {orig : State} (_rail : Nat) (s : State) (hb : Keeps orig s) :
    KeepsOut orig (execRailMonitorTrip _rail s) := by
  unfold execRailMonitorTrip; try dsimp only
  repeat' (with_reducible first | exact hb | apply KeepsOut.next | apply State.powerOn_keeps | apply keeps_foldl | apply keeps_elim | (intro (t : State); have hb := Keeps.refl t) | intro _ | split | rw [id] | simp only [↓keeps_mk])

theorem State.keepAlwaysOn_keeps {base : State} (t s : State) (cause : Fld) (hb : Keeps base t) :
    Keeps base (State.keepAlwaysOn t s cause) :=
  State.setFlag_keeps _ _ _ _ (State.setReg_keeps _ _ _ _ _ (State.setReg_keeps _ _ _ _ _ hb))

theorem execPorstNAssert_keeps {orig : State} (s : State) (hb : Keeps orig s) :
    KeepsOut orig (execPorstNAssert s) := by
  unfold execPorstNAssert; try dsimp only
  repeat' (with_reducible first | exact hb | apply KeepsOut.next | apply State.cold_keeps | apply State.keepAlwaysOn_keeps | apply State.resetAll_keeps | apply keeps_foldl | apply keeps_elim | (intro (t : State); have hb := Keeps.refl t) | intro _ | split | rw [id] | simp only [↓keeps_mk])

theorem execPorstNRelease_keeps {orig : State} (crown1 : Bool) (crown0 : Bool) (refsel : Bool) (s : State) (hb : Keeps orig s) :
    KeepsOut orig (execPorstNRelease crown1 crown0 refsel s) := by
  unfold execPorstNRelease; try dsimp only
  repeat' (with_reducible first | exact hb | apply KeepsOut.next | apply State.showStart_keeps | apply keeps_foldl | apply keeps_elim | (intro (t : State); have hb := Keeps.refl t) | intro _ | split | rw [id] | simp only [↓keeps_mk])

theorem execThermtripN_keeps {orig : State} (sensor : Nat) (s : State) (hb : Keeps orig s) :
    KeepsOut orig (execThermtripN sensor s) := by
  unfold execThermtripN; try dsimp only
  repeat' (with_reducible first | exact hb | apply KeepsOut.next | apply State.cold_keeps | apply State.keepAlwaysOn_keeps | apply State.resetAll_keeps | apply State.putFld_keeps | apply keeps_foldl | apply keeps_elim | (intro (t : State); have hb := Keeps.refl t) | intro _ | split | rw [id] | simp only [↓keeps_mk])

theorem State.bootStat_keeps {orig : State} (s : State) (cause : Nat) (step : Nat) (sec : Nat) (hb : Keeps orig s) :
    Keeps orig (State.bootStat s cause step sec) := by
  unfold State.bootStat; try dsimp only
  repeat' (with_reducible first | exact hb | apply State.setReg_keeps | apply keeps_foldl | apply keeps_elim | (intro (t : State); have hb := Keeps.refl t) | intro _ | split | rw [id] | simp only [↓keeps_mk])

theorem State.heldQueue_keeps {orig : State} (s : State) (hb : Keeps orig s) :
    Keeps orig (State.heldQueue s) := by
  unfold State.heldQueue; try dsimp only
  repeat' (with_reducible first | exact hb | apply State.loadRegs_keeps | apply keeps_foldl | apply keeps_elim | (intro (t : State); have hb := Keeps.refl t) | intro _ | split | rw [id] | simp only [↓keeps_mk])

theorem State.heldLinks_keeps {orig : State} (s : State) (absent : Bool) (hb : Keeps orig s) :
    Keeps orig (State.heldLinks s absent) := by
  unfold State.heldLinks; try dsimp only
  repeat' (with_reducible first | exact hb | apply State.setFn_keeps | apply State.setUnit_keeps | apply State.heldQueue_keeps | apply State.setReg_keeps | apply State.recordTime_keeps | apply State.trainPcie_keeps | apply State.driveFn_keeps | apply State.drive_keeps | apply keeps_foldl | apply keeps_elim | (intro (t : State); have hb := Keeps.refl t) | intro _ | split | rw [id] | simp only [↓keeps_mk])

theorem State.markUnits_keeps {orig : State} (s : State) (code : Nat) (hb : Keeps orig s) :
    Keeps orig (State.markUnits s code) := by
  unfold State.markUnits; try dsimp only
  repeat' (with_reducible first | exact hb | apply State.putFld_keeps | apply keeps_foldl | apply keeps_elim | (intro (t : State); have hb := Keeps.refl t) | intro _ | split | rw [id] | simp only [↓keeps_mk])

theorem State.testGroup0_keeps {orig : State} (s : State) (hb : Keeps orig s) :
    Keeps orig (State.testGroup0 s) := by
  unfold State.testGroup0; try dsimp only
  repeat' (with_reducible first | exact hb | apply State.clearMem_keeps | apply keeps_foldl | apply keeps_elim | (intro (t : State); have hb := Keeps.refl t) | intro _ | split | rw [id] | simp only [↓keeps_mk])

theorem State.enterHeld_keeps {orig : State} (s : State) (cause : Nat) (step : Nat) (sec : Nat) (hb : Keeps orig s) :
    Keeps orig (State.enterHeld s cause step sec) := by
  unfold State.enterHeld; try dsimp only
  repeat' (with_reducible first | exact hb | apply State.putFld_keeps | apply State.testGroup0_keeps | apply State.setFn_keeps | apply State.bootStat_keeps | apply State.showSafeFault_keeps | apply State.heldLinks_keeps | apply State.recordTime_keeps | apply State.markUnits_keeps | apply keeps_foldl | apply keeps_elim | (intro (t : State); have hb := Keeps.refl t) | intro _ | split | rw [id] | simp only [↓keeps_mk])

theorem State.bootStates_keeps {orig : State} (s : State) (hb : Keeps orig s) :
    Keeps orig (State.bootStates s) := by
  unfold State.bootStates; try dsimp only
  repeat' (with_reducible first | exact hb | apply State.markUnits_keeps | apply State.setFn_keeps | apply keeps_foldl | apply keeps_elim | (intro (t : State); have hb := Keeps.refl t) | intro _ | split | rw [id] | simp only [↓keeps_mk])

theorem State.lockRoot_keeps {orig : State} (s : State) (hb : Keeps orig s) :
    Keeps orig (State.lockRoot s) := by
  unfold State.lockRoot; try dsimp only
  repeat' (with_reducible first | exact hb | apply State.putFld_keeps | apply keeps_foldl | apply keeps_elim | (intro (t : State); have hb := Keeps.refl t) | intro _ | split | rw [id] | simp only [↓keeps_mk])

theorem execRefclkReady_keeps {orig : State} (s : State) (hb : Keeps orig s) :
    KeepsOut orig (execRefclkReady s) := by
  unfold execRefclkReady; try dsimp only
  repeat' (with_reducible first | exact hb | apply KeepsOut.next | apply State.putFld_keeps | apply State.lockRoot_keeps | apply State.showSafeFault_keeps | apply State.bootStates_keeps | apply keeps_foldl | apply keeps_elim | (intro (t : State); have hb := Keeps.refl t) | intro _ | split | rw [id] | simp only [↓keeps_mk])

theorem execRefclkAbsent_keeps {orig : State} (s : State) (hb : Keeps orig s) :
    KeepsOut orig (execRefclkAbsent s) := by
  unfold execRefclkAbsent; try dsimp only
  repeat' (with_reducible first | exact hb | apply KeepsOut.next | apply State.enterHeld_keeps | apply keeps_foldl | apply keeps_elim | (intro (t : State); have hb := Keeps.refl t) | intro _ | split | rw [id] | simp only [↓keeps_mk])

theorem State.drawPrefixKeys_keeps {orig : State} (s : State) (x : Settings) (hb : Keeps orig s) :
    Keeps orig (State.drawPrefixKeys s x) := by
  unfold State.drawPrefixKeys; try dsimp only
  repeat' (with_reducible first | exact hb | apply State.drawFree_keeps | apply State.setReg_keeps | apply keeps_foldl | apply keeps_elim | (intro (t : State); have hb := Keeps.refl t) | intro _ | split | rw [id] | simp only [↓keeps_mk])

theorem State.drawRanding_keeps {orig : State} (s : State) (hb : Keeps orig s) :
    Keeps orig (State.drawRanding s) := by
  unfold State.drawRanding; try dsimp only
  repeat' (with_reducible first | exact hb | apply State.drawFree_keeps | apply keeps_foldl | apply keeps_elim | (intro (t : State); have hb := Keeps.refl t) | intro _ | split | rw [id] | simp only [↓keeps_mk])

theorem State.layFrames_keeps {orig : State} (s : State) (hb : Keeps orig s) :
    Keeps orig (State.layFrames s) := by
  unfold State.layFrames; try dsimp only
  repeat' (with_reducible first | exact hb | apply State.putFld_keeps | apply keeps_foldl | apply keeps_elim | (intro (t : State); have hb := Keeps.refl t) | intro _ | split | rw [id] | simp only [↓keeps_mk])

theorem State.moveRing_keeps {orig : State} (s : State) (before : Nat) (hb : Keeps orig s) :
    Keeps orig (State.moveRing s before) := by
  unfold State.moveRing; try dsimp only
  repeat' (with_reducible first | exact hb | apply State.sysWrite_keeps | apply keeps_foldl | apply keeps_elim | (intro (t : State); have hb := Keeps.refl t) | intro _ | split | rw [id] | simp only [↓keeps_mk])

theorem State.openGates_keeps {orig : State} (s : State) (x : Settings) (hb : Keeps orig s) :
    Keeps orig (State.openGates s x) := by
  unfold State.openGates; try dsimp only
  repeat' (with_reducible first | exact hb | apply State.setReg_keeps | apply keeps_foldl | apply keeps_elim | (intro (t : State); have hb := Keeps.refl t) | intro _ | split | rw [id] | simp only [↓keeps_mk])

theorem State.showAccepted_keeps {orig : State} (s : State) (x : Settings) (again : List Nat) (hb : Keeps orig s) :
    Keeps orig (State.showAccepted s x again) := by
  unfold State.showAccepted; try dsimp only
  repeat' (with_reducible first | exact hb | apply State.markUnits_keeps | apply State.setFn_keeps | apply State.setUnit_keeps | apply State.putFld_keeps | apply State.suspendAll_keeps | apply State.recordTime_keeps | apply keeps_foldl | apply keeps_elim | (intro (t : State); have hb := Keeps.refl t) | intro _ | split | rw [id] | simp only [↓keeps_mk])

theorem State.dropHeldQueue_keeps {orig : State} (s : State) (hb : Keeps orig s) :
    Keeps orig (State.dropHeldQueue s) := by
  unfold State.dropHeldQueue; try dsimp only
  repeat' (with_reducible first | exact hb | apply State.loadRegs_keeps | apply keeps_foldl | apply keeps_elim | (intro (t : State); have hb := Keeps.refl t) | intro _ | split | rw [id] | simp only [↓keeps_mk])

theorem State.startSense_keeps {orig : State} (s : State) (hb : Keeps orig s) :
    Keeps orig (State.startSense s) := by
  unfold State.startSense; try dsimp only
  repeat' (with_reducible first | exact hb | apply State.senseOut_keeps | apply keeps_foldl | apply keeps_elim | (intro (t : State); have hb := Keeps.refl t) | intro _ | split | rw [id] | simp only [↓keeps_mk])

theorem State.accept_keeps {orig : State} (s : State) (img : Nat → Nat → List Byte) (x : Settings) (slot : Nat) (ram : Bool) (hb : Keeps orig s) :
    Keeps orig (State.accept s img x slot ram) := by
  unfold State.accept; try dsimp only
  repeat' (with_reducible first | exact hb | apply State.dropHeldQueue_keeps | apply State.loaded_keeps | apply State.setReg_keeps | apply State.layFrames_keeps | apply State.drawRanding_keeps | apply State.drawPrefixKeys_keeps | apply State.moveRing_keeps | apply State.openGates_keeps | apply State.putFld_keeps | apply State.settle_keeps | apply State.showSafeFault_keeps | apply State.refreshUnits_keeps | apply State.startSense_keeps | apply State.startPower_keeps | apply State.showAccepted_keeps | apply keeps_foldl | apply keeps_elim | (intro (t : State); have hb := Keeps.refl t) | intro _ | split | rw [id] | simp only [↓keeps_mk])

theorem execProfileReadDone_keeps {orig : State} (r : Reading) (s : State) (hb : Keeps orig s) :
    KeepsOut orig (execProfileReadDone r s) := by
  unfold execProfileReadDone; try dsimp only
  repeat' (with_reducible first | exact hb | apply KeepsOut.next | apply State.enterHeld_keeps | apply State.accept_keeps | apply keeps_foldl | apply keeps_elim | (intro (t : State); have hb := Keeps.refl t) | intro _ | split | rw [id] | simp only [↓keeps_mk])

theorem execFlashReadTimeout_keeps {orig : State} (s : State) (hb : Keeps orig s) :
    KeepsOut orig (execFlashReadTimeout s) := by
  unfold execFlashReadTimeout; try dsimp only
  repeat' (with_reducible first | exact hb | apply KeepsOut.next | apply State.enterHeld_keeps | apply keeps_foldl | apply keeps_elim | (intro (t : State); have hb := Keeps.refl t) | intro _ | split | rw [id] | simp only [↓keeps_mk])

theorem State.stage_keeps {orig : State} (s : State) (off : Nat) (data : List Byte) (hb : Keeps orig s) :
    Keeps orig (State.stage s off data) := by
  unfold State.stage; try dsimp only
  repeat' (with_reducible first | exact hb | apply State.sysWrite_keeps | apply keeps_foldl | apply keeps_elim | (intro (t : State); have hb := Keeps.refl t) | intro _ | split | rw [id] | simp only [↓keeps_mk])

theorem State.runLoaded_keeps {orig : State} (s : State) (id : Nat) (slot : Nat) (x : Settings) (ram : Bool) (hb : Keeps orig s) :
    Keeps orig (State.runLoaded s id slot x ram) := by
  unfold State.runLoaded; try dsimp only
  repeat' (with_reducible first | exact hb | apply State.accept_keeps | apply State.complete_keeps | apply keeps_foldl | apply keeps_elim | (intro (t : State); have hb := Keeps.refl t) | intro _ | split | rw [id] | simp only [↓keeps_mk])

theorem loadProfileBody_keeps {orig : State} (p : Packet) (r : Reading) (id : Nat) (s : State) (hb : Keeps orig s) :
    Keeps orig (loadProfileBody p r id s) := by
  unfold loadProfileBody; try dsimp only
  repeat' (with_reducible first | exact hb | apply State.stage_keeps | apply State.finish_keeps | apply State.bootStat_keeps | apply State.runLoaded_keeps | apply keeps_foldl | apply keeps_elim | (intro (t : State); have hb := Keeps.refl t) | intro _ | split | rw [id] | simp only [↓keeps_mk])

theorem execLoadProfile_keeps {orig : State} (p : Packet) (r : Reading) (s : State) (hb : Keeps orig s) :
    KeepsOut orig (execLoadProfile p r s) := by
  unfold execLoadProfile; try dsimp only
  repeat' (with_reducible first | exact hb | apply KeepsOut.next | apply runPacket_keeps | apply loadProfileBody_keeps | apply keeps_foldl | apply keeps_elim | (intro (t : State); have hb := Keeps.refl t) | intro _ | split | rw [id] | simp only [↓keeps_mk])

theorem State.writeHeader_keeps {orig : State} (s : State) (slot : Nat) (sizeLog2 : Nat) (hb : Keeps orig s) :
    Keeps orig (State.writeHeader s slot sizeLog2) := by
  unfold State.writeHeader; try dsimp only
  repeat' (with_reducible first | exact hb | apply State.flashWrite_keeps | apply State.flashErase_keeps | apply keeps_foldl | apply keeps_elim | (intro (t : State); have hb := Keeps.refl t) | intro _ | split | rw [id] | simp only [↓keeps_mk])

theorem State.writeSlot_keeps {orig : State} (s : State) (slot : Nat) (hb : Keeps orig s) :
    Keeps orig (State.writeSlot s slot) := by
  unfold State.writeSlot; try dsimp only
  repeat' (with_reducible first | exact hb | apply State.flashWrite_keeps | apply State.flashErase_keeps | apply keeps_foldl | apply keeps_elim | (intro (t : State); have hb := Keeps.refl t) | intro _ | split | rw [id] | simp only [↓keeps_mk])

theorem State.spoilSlot_keeps {orig : State} (s : State) (slot : Nat) (hb : Keeps orig s) :
    Keeps orig (State.spoilSlot s slot) := by
  unfold State.spoilSlot; try dsimp only
  repeat' (with_reducible first | exact hb | apply State.flashWrite_keeps | apply State.flashErase_keeps | apply keeps_foldl | apply keeps_elim | (intro (t : State); have hb := Keeps.refl t) | intro _ | split | rw [id] | simp only [↓keeps_mk])

theorem State.spoilHeader_keeps {orig : State} (s : State) (slot : Nat) (hb : Keeps orig s) :
    Keeps orig (State.spoilHeader s slot) := by
  unfold State.spoilHeader; try dsimp only
  repeat' (with_reducible first | exact hb | apply State.flashWrite_keeps | apply State.flashErase_keeps | apply keeps_foldl | apply keeps_elim | (intro (t : State); have hb := Keeps.refl t) | intro _ | split | rw [id] | simp only [↓keeps_mk])

theorem State.flashEnded_keeps {orig : State} (s : State) (slot : Nat) (sizeLog2 : Nat) (x3 : FlashEnd) (hb : Keeps orig s) :
    Keeps orig (State.flashEnded s slot sizeLog2 x3) := by
  unfold State.flashEnded; try dsimp only
  repeat' (with_reducible first | exact hb | apply State.writeHeader_keeps | apply State.writeSlot_keeps | apply State.spoilSlot_keeps | apply State.spoilHeader_keeps | apply keeps_foldl | apply keeps_elim | (intro (t : State); have hb := Keeps.refl t) | intro _ | split | rw [id] | simp only [↓keeps_mk])

theorem execLoadProfileFlashDone_keeps {orig : State} (e : FlashEnd) (sizeLog2 : Nat) (s : State) (hb : Keeps orig s) :
    KeepsOut orig (execLoadProfileFlashDone e sizeLog2 s) := by
  unfold execLoadProfileFlashDone; try dsimp only
  repeat' (with_reducible first | exact hb | apply KeepsOut.next | apply State.flashEnded_keeps | apply State.runLoaded_keeps | apply State.complete_keeps | apply State.bootStat_keeps | apply keeps_foldl | apply keeps_elim | (intro (t : State); have hb := Keeps.refl t) | intro _ | split | rw [id] | simp only [↓keeps_mk])

theorem State.setSelect_keeps {orig : State} (s : State) (v : Nat) (hb : Keeps orig s) :
    Keeps orig (State.setSelect s v) := by
  unfold State.setSelect; try dsimp only
  repeat' (with_reducible first | exact hb | apply State.setReg_keeps | apply State.putFld_keeps | apply keeps_foldl | apply keeps_elim | (intro (t : State); have hb := Keeps.refl t) | intro _ | split | rw [id] | simp only [↓keeps_mk])

theorem selectProfileBody_keeps {orig : State} (p : Packet) (flashOk : Bool) (id : Nat) (s : State) (hb : Keeps orig s) :
    Keeps orig (selectProfileBody p flashOk id s) := by
  unfold selectProfileBody; try dsimp only
  repeat' (with_reducible first | exact hb | apply State.finish_keeps | apply State.setSelect_keeps | apply keeps_foldl | apply keeps_elim | (intro (t : State); have hb := Keeps.refl t) | intro _ | split | rw [id] | simp only [↓keeps_mk])

theorem execSelectProfile_keeps {orig : State} (p : Packet) (flashOk : Bool) (s : State) (hb : Keeps orig s) :
    KeepsOut orig (execSelectProfile p flashOk s) := by
  unfold execSelectProfile; try dsimp only
  repeat' (with_reducible first | exact hb | apply KeepsOut.next | apply runPacket_keeps | apply selectProfileBody_keeps | apply keeps_foldl | apply keeps_elim | (intro (t : State); have hb := Keeps.refl t) | intro _ | split | rw [id] | simp only [↓keeps_mk])

theorem execWarmReset_keeps {orig : State} (p : Packet) (s : State) (hb : Keeps orig s) :
    KeepsOut orig (execWarmReset p s) := by
  unfold execWarmReset; try dsimp only
  repeat' (with_reducible first | exact hb | apply KeepsOut.next | apply runPacket_keeps | apply doneBody_keeps | apply keeps_foldl | apply keeps_elim | (intro (t : State); have hb := Keeps.refl t) | intro _ | split | rw [id] | simp only [↓keeps_mk])

end Sys2Proof.Machine
end

