-- ==== Sys2Proof/Laws/Keeps/Registers.lean ====
section
/-! SUPPORT. What the operations of Machine/Registers.lean keep (Laws/Keeps.lean). -/

set_option linter.unusedTactic false
set_option linter.unreachableTactic false

namespace Sys2Proof.Machine

theorem State.readReg_keeps {orig : State} (s : State) (r : Reg) (i : Nat) (j : Nat) (init : Nat) (hb : Keeps orig s) :
    Keeps orig (State.readReg s r i j init).2 := by
  unfold State.readReg; try dsimp only
  repeat' (with_reducible first | exact hb | apply State.syncRefuse_keeps | apply State.setReg_keeps | apply keeps_foldl | apply keeps_elim | (intro (t : State); have hb := Keeps.refl t) | intro _ | split | rw [id] | simp only [↓keeps_mk])

theorem State.readAt_keeps {orig : State} (s : State) (a : Nat) (init : Nat) (hb : Keeps orig s) :
    Keeps orig (State.readAt s a init).2.2.2 := by
  unfold State.readAt; try dsimp only
  repeat' (with_reducible first | exact hb | apply State.gatedRead_keeps | apply State.readReg_keeps | apply keeps_foldl | apply keeps_elim | (intro (t : State); have hb := Keeps.refl t) | intro _ | split | rw [id] | simp only [↓keeps_mk])

theorem readRange_keeps {base : State} (init k a n : Nat) (s : State) (hb : Keeps base s) :
    Keeps base (readRange init k a n s).2 := by
  induction k generalizing a n s with
  | zero => exact hb
  | succ k ih =>
    cases n with
    | zero => exact hb
    | succ n => exact ih _ _ _ (State.readAt_keeps _ _ _ hb)

theorem execGatedRead_keeps {orig : State} (addr : Nat) (initiator : Nat) (s : State) (hb : Keeps orig s) :
    KeepsOut orig (execGatedRead addr initiator s) := by
  unfold execGatedRead; try dsimp only
  repeat' (with_reducible first | exact hb | apply KeepsOut.next | apply State.readAt_keeps | apply State.busErr_keeps | apply State.gatedRead_keeps | apply keeps_foldl | apply keeps_elim | (intro (t : State); have hb := Keeps.refl t) | intro _ | split | rw [id] | simp only [↓keeps_mk])

theorem statusBody_keeps {orig : State} (p : Packet) (id : Nat) (s : State) (hb : Keeps orig s) :
    Keeps orig (statusBody p id s) := by
  unfold statusBody; try dsimp only
  repeat' (with_reducible first | exact hb | apply readRange_keeps | apply State.finish_keeps | apply keeps_foldl | apply keeps_elim | (intro (t : State); have hb := Keeps.refl t) | intro _ | split | rw [id] | simp only [↓keeps_mk])

theorem execStatusRead_keeps {orig : State} (p : Packet) (s : State) (hb : Keeps orig s) :
    KeepsOut orig (execStatusRead p s) := by
  unfold execStatusRead; try dsimp only
  repeat' (with_reducible first | exact hb | apply KeepsOut.next | apply runPacket_keeps | apply statusBody_keeps | apply keeps_foldl | apply keeps_elim | (intro (t : State); have hb := Keeps.refl t) | intro _ | split | rw [id] | simp only [↓keeps_mk])

theorem State.after_keeps {base : State} (s : State) (o : Host.Outcome State Fault Refusal) (ho : KeepsOut base o) (hb : Keeps base s) :
    Keeps base (State.after s o) := by
  unfold State.after
  split
  · exact ho
  · exact hb

theorem State.clearedWith_keeps {orig : State} (s : State) (r : Reg) (i : Nat) (j : Nat) (hb : Keeps orig s) :
    Keeps orig (State.clearedWith s r i j) := by
  unfold State.clearedWith; try dsimp only
  repeat' (with_reducible first | exact hb | apply State.setReg_keeps | apply keeps_foldl | apply keeps_elim | (intro (t : State); have hb := Keeps.refl t) | intro _ | split | rw [id] | simp only [↓keeps_mk])

theorem State.plainWrite_keeps {orig : State} (s : State) (r : Reg) (i : Nat) (j : Nat) (v : Nat) (lanes : Nat) (hb : Keeps orig s) :
    Keeps orig (State.plainWrite s r i j v lanes) := by
  unfold State.plainWrite; try dsimp only
  repeat' (with_reducible first | exact hb | apply State.accessed_keeps | apply State.setReg_keeps | apply State.clearedWith_keeps | apply keeps_foldl | apply keeps_elim | (intro (t : State); have hb := Keeps.refl t) | intro _ | split | rw [id] | simp only [↓keeps_mk])

theorem State.plainStage_keeps {orig : State} (s : State) (r : Reg) (i : Nat) (j : Nat) (v : Nat) (lanes : Nat) (init : Nat) (hb : Keeps orig s) :
    Keeps orig (State.plainStage s r i j v lanes init) := by
  unfold State.plainStage; try dsimp only
  repeat' (with_reducible first | exact hb | apply State.accessed_keeps | apply State.stageReg_keeps | apply keeps_foldl | apply keeps_elim | (intro (t : State); have hb := Keeps.refl t) | intro _ | split | rw [id] | simp only [↓keeps_mk])

theorem State.writeAxctl_keeps {orig : State} (s : State) (a : Nat) (w : RegWrite) (hb : Keeps orig s) :
    Keeps orig (State.writeAxctl s a w) := by
  unfold State.writeAxctl; try dsimp only
  repeat' (with_reducible first | exact hb | apply State.after_keeps | apply execReturnAngle_keeps | apply execAxctlFlush_keeps | apply State.accessed_keeps | apply keeps_foldl | apply keeps_elim | (intro (t : State); have hb := Keeps.refl t) | intro _ | split | rw [id] | simp only [↓keeps_mk])

theorem State.writeTrctl_keeps {orig : State} (s : State) (t : Nat) (w : RegWrite) (hb : Keeps orig s) :
    Keeps orig (State.writeTrctl s t w) := by
  unfold State.writeTrctl; try dsimp only
  repeat' (with_reducible first | exact hb | apply State.after_keeps | apply execArm_keeps | apply execTrigger_keeps | apply execTraceStop_keeps | apply State.accessed_keeps | apply keeps_foldl | apply keeps_elim | (intro (t : State); have hb := Keeps.refl t) | intro _ | split | rw [id] | simp only [↓keeps_mk])

theorem State.writePinctl_keeps {orig : State} (s : State) (w : RegWrite) (hb : Keeps orig s) :
    Keeps orig (State.writePinctl s w) := by
  unfold State.writePinctl; try dsimp only
  repeat' (with_reducible first | exact hb | apply State.after_keeps | apply execPin_keeps | apply execUnpin_keeps | apply State.accessed_keeps | apply keeps_foldl | apply keeps_elim | (intro (t : State); have hb := Keeps.refl t) | intro _ | split | rw [id] | simp only [↓keeps_mk])

theorem State.writeDbgctl_keeps {orig : State} (s : State) (w : RegWrite) (hb : Keeps orig s) :
    Keeps orig (State.writeDbgctl s w) := by
  unfold State.writeDbgctl; try dsimp only
  repeat' (with_reducible first | exact hb | apply State.after_keeps | apply execChallenge_keeps | apply execRespond_keeps | apply execLock_keeps | apply State.accessed_keeps | apply keeps_foldl | apply keeps_elim | (intro (t : State); have hb := Keeps.refl t) | intro _ | split | rw [id] | simp only [↓keeps_mk])

theorem State.ownWrite_keeps {orig : State} (s : State) (r : Reg) (i : Nat) (j : Nat) (v : Nat) (lanes : Nat) (w : RegWrite) (hb : Keeps orig s) :
    Keeps orig (State.ownWrite s r i j v lanes w) := by
  unfold State.ownWrite; try dsimp only
  repeat' (with_reducible first | exact hb | apply State.writeFnctl_keeps | apply State.accessed_keeps | apply State.setSelect_keeps | apply State.after_keeps | apply execClkSrcselReq_keeps | apply execClkNetrefWrite_keeps | apply execClkGateWrite_keeps | apply execSensclkEnable_keeps | apply State.writePwrCtl_keeps | apply execPwrAvsInvalidate_keeps | apply State.writeQcfg_keeps | apply execCplHeadWrite_keeps | apply execCmdqDb_keeps | apply execSyncAddWrite_keeps | apply execSyncRangeWrite_keeps | apply State.writeWatch_keeps | apply State.plainWrite_keeps | apply State.busErr_keeps | apply State.syncRefuse_keeps | apply execEscRepairSwap_keeps | apply execFwlRegionWrite_keeps | apply State.writeRwCtl_keeps | apply State.writePinctl_keeps | apply execAdmaPush_keeps | apply execAdmaLayoutWrite_keeps | apply execCamExpoCommit_keeps | apply State.writeAxctl_keeps | apply State.writeTrctl_keeps | apply execSpwPush_keeps | apply State.writeCanCtl_keeps | apply execCanTxreq_keeps | apply execCanRxfack_keeps | apply State.writeGclctl_keeps | apply execEthRdb_keeps | apply State.wdWrite_keeps | apply State.showFsync_keeps | apply State.suspendDog_keeps | apply State.writeDbgctl_keeps | apply execSecOtpprog_keeps | apply State.dmaControl_keeps | apply keeps_foldl | apply keeps_elim | (intro (t : State); have hb := Keeps.refl t) | intro _ | split | rw [id] | simp only [↓keeps_mk])

theorem State.writeElem_keeps {orig : State} (s : State) (r : Reg) (i : Nat) (j : Nat) (off : Nat) (n : Nat) (w : RegWrite) (hb : Keeps orig s) :
    Keeps orig (State.writeElem s r i j off n w) := by
  unfold State.writeElem; try dsimp only
  repeat' (with_reducible first | exact hb | apply State.busErr_keeps | apply State.plainStage_keeps | apply State.ownWrite_keeps | apply keeps_foldl | apply keeps_elim | (intro (t : State); have hb := Keeps.refl t) | intro _ | split | rw [id] | simp only [↓keeps_mk])

theorem State.writeHole_keeps {orig : State} (s : State) (b : Block) (a : Nat) (n : Nat) (w : RegWrite) (hb : Keeps orig s) :
    Keeps orig (State.writeHole s b a n w) := by
  unfold State.writeHole; try dsimp only
  repeat' (with_reducible first | exact hb | apply State.regWrite_keeps | apply State.setCan_keeps | apply keeps_foldl | apply keeps_elim | (intro (t : State); have hb := Keeps.refl t) | intro _ | split | rw [id] | simp only [↓keeps_mk])

theorem State.writeAt_keeps {orig : State} (s : State) (a : Nat) (n : Nat) (w : RegWrite) (hb : Keeps orig s) :
    Keeps orig (State.writeAt s a n w) := by
  unfold State.writeAt; try dsimp only
  repeat' (with_reducible first | exact hb | apply State.busErr_keeps | apply State.writeElem_keeps | apply State.writeHole_keeps | apply keeps_foldl | apply keeps_elim | (intro (t : State); have hb := Keeps.refl t) | intro _ | split | rw [id] | simp only [↓keeps_mk])

theorem execRegisterWrite_keeps {orig : State} (addr : Nat) (w : RegWrite) (s : State) (hb : Keeps orig s) :
    KeepsOut orig (execRegisterWrite addr w s) := by
  unfold execRegisterWrite; try dsimp only
  repeat' (with_reducible first | exact hb | apply KeepsOut.next | apply State.writeAt_keeps | apply keeps_foldl | apply keeps_elim | (intro (t : State); have hb := Keeps.refl t) | intro _ | split | rw [id] | simp only [↓keeps_mk])

theorem State.unsupported_keeps {orig : State} (s : State) (hb : Keeps orig s) :
    Keeps orig (State.unsupported s) := by
  unfold State.unsupported; try dsimp only
  repeat' (with_reducible first | exact hb | apply State.busErr_keeps | apply State.addFld_keeps | apply keeps_foldl | apply keeps_elim | (intro (t : State); have hb := Keeps.refl t) | intro _ | split | rw [id] | simp only [↓keeps_mk])

theorem State.spaceRead_keeps {orig : State} (s : State) (init : Nat) (a : Nat) (n : Nat) (hb : Keeps orig s) :
    Keeps orig (State.spaceRead s init a n) := by
  unfold State.spaceRead; try dsimp only
  repeat' (with_reducible first | exact hb | apply State.readAt_keeps | apply readRange_keeps | apply State.answered_keeps | apply State.busErr_keeps | apply State.readMem_keeps | apply State.recordDenial_keeps | apply keeps_foldl | apply keeps_elim | (intro (t : State); have hb := Keeps.refl t) | intro _ | split | rw [id] | simp only [↓keeps_mk])

theorem State.spaceWrite_keeps {orig : State} (s : State) (init : Nat) (a : Nat) (data : List Byte) (hb : Keeps orig s) :
    Keeps orig (State.spaceWrite s init a data) := by
  unfold State.spaceWrite; try dsimp only
  repeat' (with_reducible first | exact hb | apply State.writeAt_keeps | apply State.busErr_keeps | apply State.accessed_keeps | apply State.writeBytes_keeps | apply State.keyed_keeps | apply State.recordDenial_keeps | apply keeps_foldl | apply keeps_elim | (intro (t : State); have hb := Keeps.refl t) | intro _ | split | rw [id] | simp only [↓keeps_mk])

theorem State.portWrite_keeps {orig : State} (s : State) (a : Nat) (data : List Byte) (hb : Keeps orig s) :
    Keeps orig (State.portWrite s a data) := by
  unfold State.portWrite; try dsimp only
  repeat' (with_reducible first | exact hb | apply State.accessed_keeps | apply State.raise_keeps | apply State.spaceWrite_keeps | apply State.unsupported_keeps | apply keeps_foldl | apply keeps_elim | (intro (t : State); have hb := Keeps.refl t) | intro _ | split | rw [id] | simp only [↓keeps_mk])

theorem State.portRead_keeps {orig : State} (s : State) (a : Nat) (n : Nat) (hb : Keeps orig s) :
    Keeps orig (State.portRead s a n) := by
  unfold State.portRead; try dsimp only
  repeat' (with_reducible first | exact hb | apply State.spaceRead_keeps | apply State.unsupported_keeps | apply keeps_foldl | apply keeps_elim | (intro (t : State); have hb := Keeps.refl t) | intro _ | split | rw [id] | simp only [↓keeps_mk])

theorem State.barWrite_keeps {orig : State} (s : State) (f : Nat) (bar : Nat) (o : Nat) (data : List Byte) (hb : Keeps orig s) :
    Keeps orig (State.barWrite s f bar o data) := by
  unfold State.barWrite; try dsimp only
  repeat' (with_reducible first | exact hb | apply State.doorbell_keeps | apply State.accessed_keeps | apply keeps_foldl | apply keeps_elim | (intro (t : State); have hb := Keeps.refl t) | intro _ | split | rw [id] | simp only [↓keeps_mk])

theorem execPcieInbound_keeps {orig : State} (x : PcieReq) (s : State) (hb : Keeps orig s) :
    KeepsOut orig (execPcieInbound x s) := by
  unfold execPcieInbound; try dsimp only
  repeat' (with_reducible first | exact hb | apply KeepsOut.next | apply State.acceptFn_keeps | apply State.addFld_keeps | apply State.putFld_keeps | apply State.portRead_keeps | apply State.unsupported_keeps | apply State.portWrite_keeps | apply State.answered_keeps | apply State.barWrite_keeps | apply keeps_foldl | apply keeps_elim | (intro (t : State); have hb := Keeps.refl t) | intro _ | split | rw [id] | simp only [↓keeps_mk])

theorem execOverflowJobDone_keeps {orig : State} (partition : Nat) (ecc : Option Nat) (s : State) (hb : Keeps orig s) :
    KeepsOut orig (execOverflowJobDone partition ecc s) := by
  unfold execOverflowJobDone; try dsimp only
  repeat' (with_reducible first | exact hb | apply KeepsOut.next | apply State.jobRun_keeps | apply State.keyed_keeps | apply State.ppeBody_keeps | apply State.settled_keeps | apply State.completeKernel_keeps | apply keeps_foldl | apply keeps_elim | (intro (t : State); have hb := Keeps.refl t) | intro _ | split | rw [id] | simp only [↓keeps_mk])

end Sys2Proof.Machine
end

