-- ==== Sys2Proof/Laws/Keeps/Dispatch.lean ====
section
/-! SUPPORT. What the operations of Machine/Dispatch.lean keep (Laws/Keeps.lean). -/

set_option linter.unusedTactic false
set_option linter.unreachableTactic false

namespace Sys2Proof.Machine

theorem exec_keeps {orig : State} (i : Instr) (s : State) (hb : Keeps orig s) : KeepsOut orig (exec i s) := by
  cases i with
  | powerOnReset => exact execPowerOnReset_keeps s hb
  | railMonitorTrip rail => exact execRailMonitorTrip_keeps rail s hb
  | porstNAssert => exact execPorstNAssert_keeps s hb
  | porstNRelease crown1 crown0 refsel => exact execPorstNRelease_keeps crown1 crown0 refsel s hb
  | thermtripN sensor => exact execThermtripN_keeps sensor s hb
  | refclkReady => exact execRefclkReady_keeps s hb
  | refclkAbsent => exact execRefclkAbsent_keeps s hb
  | flashReadTimeout => exact execFlashReadTimeout_keeps s hb
  | profileReadDone r => exact execProfileReadDone_keeps r s hb
  | functionStart fn unit => exact execFunctionStart_keeps fn unit s hb
  | functionReady fn unit => exact execFunctionReady_keeps fn unit s hb
  | functionStartFault fn unit => exact execFunctionStartFault_keeps fn unit s hb
  | loadProfile p r => exact execLoadProfile_keeps p r s hb
  | loadProfileFlashDone e sizeLog2 => exact execLoadProfileFlashDone_keeps e sizeLog2 s hb
  | selectProfile p flashOk => exact execSelectProfile_keeps p flashOk s hb
  | warmReset p => exact execWarmReset_keeps p s hb
  | fnStop r => exact execFnStop_keeps r s hb
  | fnStart r fw => exact execFnStart_keeps r fw s hb
  | drainComplete fn unit => exact execDrainComplete_keeps fn unit s hb
  | drainTimeout fn unit => exact execDrainTimeout_keeps fn unit s hb
  | statusRead p => exact execStatusRead_keeps p s hb
  | logRead p => exact execLogRead_keeps p s hb
  | clockMonitorTrip t => exact execClockMonitorTrip_keeps t s hb
  | pllRelock => exact execPllRelock_keeps s hb
  | netrefReady => exact execNetrefReady_keeps s hb
  | clkSrcselReq w => exact execClkSrcselReq_keeps w s hb
  | clkNetrefWrite w => exact execClkNetrefWrite_keeps w s hb
  | clkGateWrite k w => exact execClkGateWrite_keeps k w s hb
  | gatedRead addr initiator => exact execGatedRead_keeps addr initiator s hb
  | sensclkEnable n w => exact execSensclkEnable_keeps n w s hb
  | powerManagerStep reading estimate => exact execPowerManagerStep_keeps reading estimate s hb
  | pmbusLost => exact execPmbusLost_keeps s hb
  | pwrCapUnmet => exact execPwrCapUnmet_keeps s hb
  | loadBandWindow busyPercent => exact execLoadBandWindow_keeps busyPercent s hb
  | bandMeasured band offset tj => exact execBandMeasured_keeps band offset tj s hb
  | avsLower => exact execAvsLower_keeps s hb
  | pwrAvsInvalidate w => exact execPwrAvsInvalidate_keeps w s hb
  | droopDetect belowMv => exact execDroopDetect_keeps belowMv s hb
  | thermalThrottle sensor tj => exact execThermalThrottle_keeps sensor tj s hb
  | cmdqDb q w => exact execCmdqDb_keeps q w s hb
  | udpDatagram d => exact execUdpDatagram_keeps d s hb
  | udpAckTimer q => exact execUdpAckTimer_keeps q s hb
  | cplAck d => exact execCplAck_keeps d s hb
  | cplResend q => exact execCplResend_keeps q s hb
  | glkMessageRx cls code p => exact execGlkMessageRx_keeps cls code p s hb
  | ringAccessFault q write initiator => exact execRingAccessFault_keeps q write initiator s hb
  | queueEnable q w => exact execQueueEnable_keeps q w s hb
  | queueDisable q w => exact execQueueDisable_keeps q w s hb
  | queueDrained q => exact execQueueDrained_keeps q s hb
  | cplHeadWrite q w => exact execCplHeadWrite_keeps q w s hb
  | nop p => exact execNop_keeps p s hb
  | memWrite p => exact execMemWrite_keeps p s hb
  | memRead p ue => exact execMemRead_keeps p ue s hb
  | memFill p => exact execMemFill_keeps p s hb
  | objCreate p => exact execObjCreate_keeps p s hb
  | objWrite p => exact execObjWrite_keeps p s hb
  | objCrcPassDone partition handle ue => exact execObjCrcPassDone_keeps partition handle ue s hb
  | objFree p => exact execObjFree_keeps p s hb
  | syncAdd p => exact execSyncAdd_keeps p s hb
  | syncSet p => exact execSyncSet_keeps p s hb
  | syncRead p => exact execSyncRead_keeps p s hb
  | syncWait p => exact execSyncWait_keeps p s hb
  | syncWaitSatisfied q seq => exact execSyncWaitSatisfied_keeps q seq s hb
  | syncAddWrite n w => exact execSyncAddWrite_keeps n w s hb
  | watchArm k w => exact execWatchArm_keeps k w s hb
  | syncRangeWrite k w => exact execSyncRangeWrite_keeps k w s hb
  | kernelDispatch cls unit path => exact execKernelDispatch_keeps cls unit path s hb
  | lendHoldExpire cls unit => exact execLendHoldExpire_keeps cls unit s hb
  | kernelComplete cls unit run => exact execKernelComplete_keeps cls unit run s hb
  | runLimit cls unit run => exact execRunLimit_keeps cls unit run s hb
  | execLaunch p => exact execExecLaunch_keeps p s hb
  | execTeardown p => exact execExecTeardown_keeps p s hb
  | execQuery p => exact execExecQuery_keeps p s hb
  | regulatorWindow x => exact execRegulatorWindow_keeps x s hb
  | guardEpoch => exact execGuardEpoch_keeps s hb
  | escRepairSwap w => exact execEscRepairSwap_keeps w s hb
  | meSpareTestDone slot ok => exact execMeSpareTestDone_keeps slot ok s hb
  | fwlRegionWrite target region offset w => exact execFwlRegionWrite_keeps target region offset w s hb
  | dmaGo c w => exact execDmaGo_keeps c w s hb
  | dmaDone c => exact execDmaDone_keeps c s hb
  | dmaFault c moved ecc => exact execDmaFault_keeps c moved ecc s hb
  | occupancyWindow x => exact execOccupancyWindow_keeps x s hb
  | reweaveStart w => exact execReweaveStart_keeps w s hb
  | reweaveDone => exact execReweaveDone_keeps s hb
  | reweaveAbort a => exact execReweaveAbort_keeps a s hb
  | clearEccBlock w => exact execClearEccBlock_keeps w s hb
  | smemScrubDone g => exact execSmemScrubDone_keeps g s hb
  | ldt m => exact execLdt_keeps m s hb
  | str m => exact execStr_keeps m s hb
  | dcf m => exact execDcf_keeps m s hb
  | drn m => exact execDrn_keeps m s hb
  | acl m => exact execAcl_keeps m s hb
  | bar m => exact execBar_keeps m s hb
  | meNop m => exact execMeNop_keeps m s hb
  | endStream m => exact execEndStream_keeps m s hb
  | scanChunk x => exact execScanChunk_keeps x s hb
  | scanStep x => exact execScanStep_keeps x s hb
  | scanCombine x => exact execScanCombine_keeps x s hb
  | scanSwapOut partition seq => exact execScanSwapOut_keeps partition seq s hb
  | scanSwapIn partition seq => exact execScanSwapIn_keeps partition seq s hb
  | pin w => exact execPin_keeps w s hb
  | unpin w => exact execUnpin_keeps w s hb
  | kvCreate p => exact execKvCreate_keeps p s hb
  | kvAttach p => exact execKvAttach_keeps p s hb
  | kvStep p => exact execKvStep_keeps p s hb
  | kvCommit p => exact execKvCommit_keeps p s hb
  | kvFree p => exact execKvFree_keeps p s hb
  | kvQuery p => exact execKvQuery_keeps p s hb
  | gatherK g => exact execGatherK_keeps g s hb
  | gatherVt g => exact execGatherVt_keeps g s hb
  | pageManagerRun => exact execPageManagerRun_keeps s hb
  | kvTermination partition seq => exact execKvTermination_keeps partition seq s hb
  | kvSwapOut partition seq => exact execKvSwapOut_keeps partition seq s hb
  | kvSwapIn partition seq => exact execKvSwapIn_keeps partition seq s hb
  | admaPush w => exact execAdmaPush_keeps w s hb
  | admaLayoutWrite n w => exact execAdmaLayoutWrite_keeps n w s hb
  | visRun p => exact execVisRun_keeps p s hb
  | edgeJob x => exact execEdgeJob_keeps x s hb
  | resampleJob x => exact execResampleJob_keeps x s hb
  | ppeJob x => exact execPpeJob_keeps x s hb
  | overflowJobDone partition ecc => exact execOverflowJobDone_keeps partition ecc s hb
  | pcieInbound x => exact execPcieInbound_keeps x s hb
  | glkLinkUp x => exact execGlkLinkUp_keeps x s hb
  | glkLinkDown member port => exact execGlkLinkDown_keeps member port s hb
  | rerouteDone dest => exact execRerouteDone_keeps dest s hb
  | hello n h => exact execHello_keeps n h s hb
  | memberAnnouncement n a => exact execMemberAnnouncement_keeps n a s hb
  | announceTimer => exact execAnnounceTimer_keeps s hb
  | portWait n => exact execPortWait_keeps n s hb
  | rootClaim n prio uid => exact execRootClaim_keeps n prio uid s hb
  | claimTimer => exact execClaimTimer_keeps s hb
  | rootLost => exact execRootLost_keeps s hb
  | flitReplay n flit asked => exact execFlitReplay_keeps n flit asked s hb
  | glkRetrainDone n => exact execGlkRetrainDone_keeps n s hb
  | napPropose n wake => exact execNapPropose_keeps n wake s hb
  | napProposal n wake traffic => exact execNapProposal_keeps n wake traffic s hb
  | napWake n => exact execNapWake_keeps n s hb
  | wakeSequence n => exact execWakeSequence_keeps n s hb
  | napResync n => exact execNapResync_keeps n s hb
  | linkDelayMeasure x => exact execLinkDelayMeasure_keeps x s hb
  | glkBarrier p => exact execGlkBarrier_keeps p s hb
  | barrierArm x => exact execBarrierArm_keeps x s hb
  | barrierReply id member ack => exact execBarrierReply_keeps id member ack s hb
  | barrierDecide id => exact execBarrierDecide_keeps id s hb
  | barrierConfirm id confirm => exact execBarrierConfirm_keeps id confirm s hb
  | barrierRelease id => exact execBarrierRelease_keeps id s hb
  | barrierReport id member released => exact execBarrierReport_keeps id member released s hb
  | glkImage p => exact execGlkImage_keeps p s hb
  | glkDigestRead p => exact execGlkDigestRead_keeps p s hb
  | glkFenceClear p => exact execGlkFenceClear_keeps p s hb
  | fenceSuspendEnd => exact execFenceSuspendEnd_keeps s hb
  | heartbeatTimer => exact execHeartbeatTimer_keeps s hb
  | heartbeatRx data => exact execHeartbeatRx_keeps data s hb
  | csi2FrameStart x => exact execCsi2FrameStart_keeps x s hb
  | csi2LongPacket x => exact execCsi2LongPacket_keeps x s hb
  | csi2FrameEnd x => exact execCsi2FrameEnd_keeps x s hb
  | feTimeout k => exact execFeTimeout_keeps k s hb
  | camExpo p => exact execCamExpo_keeps p s hb
  | camExpoCommit n w => exact execCamExpoCommit_keeps n w s hb
  | i3cWriteDone n ok => exact execI3cWriteDone_keeps n ok s hb
  | ispStrip pipe => exact execIspStrip_keeps pipe s hb
  | ispFrameDone k => exact execIspFrameDone_keeps k s hb
  | ctxCommit p ue => exact execCtxCommit_keeps p ue s hb
  | fsyncPulse n rise => exact execFsyncPulse_keeps n rise s hb
  | decCreate p => exact execDecCreate_keeps p s hb
  | decDecode p u => exact execDecDecode_keeps p u s hb
  | decResume d => exact execDecResume_keeps d s hb
  | decFlush p order => exact execDecFlush_keeps p order s hb
  | decDestroy p => exact execDecDestroy_keeps p s hb
  | encCreate p x => exact execEncCreate_keeps p x s hb
  | encFrame p cycles ue => exact execEncFrame_keeps p cycles ue s hb
  | encDestroy p => exact execEncDestroy_keeps p s hb
  | jpegDec p x => exact execJpegDec_keeps p x s hb
  | jpegEnc p x => exact execJpegEnc_keeps p x s hb
  | currentLoopTick a x => exact execCurrentLoopTick_keeps a x s hb
  | velocityLoopTick a => exact execVelocityLoopTick_keeps a s hb
  | positionLoopTick a => exact execPositionLoopTick_keeps a s hb
  | overcurrent a input bits => exact execOvercurrent_keeps a input bits s hb
  | encoderFault n f => exact execEncoderFault_keeps n f s hb
  | flywheelTimeout a => exact execFlywheelTimeout_keeps a s hb
  | observerStartTimeout a => exact execObserverStartTimeout_keeps a s hb
  | followingError a => exact execFollowingError_keeps a s hb
  | ascHoldEnd a => exact execAscHoldEnd_keeps a s hb
  | motSetpoint p => exact execMotSetpoint_keeps p s hb
  | spwPush a w => exact execSpwPush_keeps a w s hb
  | motFlush p => exact execMotFlush_keeps p s hb
  | motQuery p => exact execMotQuery_keeps p s hb
  | returnAngle a w => exact execReturnAngle_keeps a w s hb
  | axctlFlush a w => exact execAxctlFlush_keeps a w s hb
  | arm t w => exact execArm_keeps t w s hb
  | trigger t w => exact execTrigger_keeps t w s hb
  | traceStop t w => exact execTraceStop_keeps t w s hb
  | ptpSync x offset ratio => exact execPtpSync_keeps x offset ratio s hb
  | ptpAnnounce x rank => exact execPtpAnnounce_keeps x rank s hb
  | ptpPdelay port delay => exact execPtpPdelay_keeps port delay s hb
  | announceTimeout d missed => exact execAnnounceTimeout_keeps d missed s hb
  | revertTimer => exact execRevertTimer_keeps s hb
  | chrRead p => exact execChrRead_keeps p s hb
  | applyPending p => exact execApplyPending_keeps p s hb
  | chrStep p => exact execChrStep_keeps p s hb
  | chrSet p => exact execChrSet_keeps p s hb
  | ethRxFrame x => exact execEthRxFrame_keeps x s hb
  | ethTx p => exact execEthTx_keeps p s hb
  | ethRdb port q w => exact execEthRdb_keeps port q w s hb
  | ethLaunch port => exact execEthLaunch_keeps port s hb
  | ethTxDone port => exact execEthTxDone_keeps port s hb
  | ethLaunchLate port cls => exact execEthLaunchLate_keeps port cls s hb
  | gateInterval port => exact execGateInterval_keeps port s hb
  | gclChange port w => exact execGclChange_keeps port w s hb
  | ethLinkUp port => exact execEthLinkUp_keeps port s hb
  | ethLinkDown port => exact execEthLinkDown_keeps port s hb
  | ethPreemptVerifyFail port => exact execEthPreemptVerifyFail_keeps port s hb
  | canRxFrame c x => exact execCanRxFrame_keeps c x s hb
  | canTx p => exact execCanTx_keeps p s hb
  | canTxreq c w => exact execCanTxreq_keeps c w s hb
  | canLaunch c e => exact execCanLaunch_keeps c e s hb
  | canTxDone c e age => exact execCanTxDone_keeps c e age s hb
  | canBusError c role code kind => exact execCanBusError_keeps c role code kind s hb
  | canBusOffRecovery c => exact execCanBusOffRecovery_keeps c s hb
  | recover c w => exact execRecover_keeps c w s hb
  | canRx p => exact execCanRx_keeps p s hb
  | canRxfack c w => exact execCanRxfack_keeps c w s hb
  | canTtCycleStart c refId cycle => exact execCanTtCycleStart_keeps c refId cycle s hb
  | canTtColumn c j => exact execCanTtColumn_keeps c j s hb
  | canTtRefTimeout c => exact execCanTtRefTimeout_keeps c s hb
  | lockstepMismatch pair => exact execLockstepMismatch_keeps pair s hb
  | safeHeartbeatMiss pair => exact execSafeHeartbeatMiss_keeps pair s hb
  | wdStart k src => exact execWdStart_keeps k src s hb
  | wdKick k src => exact execWdKick_keeps k src s hb
  | wdLate k => exact execWdLate_keeps k s hb
  | tourbillonSlot x => exact execTourbillonSlot_keeps x s hb
  | safeTbLate => exact execSafeTbLate_keeps s hb
  | safeEnter p => exact execSafeEnter_keeps p s hb
  | secAdvance p => exact execSecAdvance_keeps p s hb
  | secRenewKey p => exact execSecRenewKey_keeps p s hb
  | challenge w => exact execChallenge_keeps w s hb
  | respond w => exact execRespond_keeps w s hb
  | lock w => exact execLock_keeps w s hb
  | secOtpprog w => exact execSecOtpprog_keeps w s hb
  | logWrite => exact execLogWrite_keeps s hb
  | logPersist ok => exact execLogPersist_keeps ok s hb
  | registerWrite addr w => exact execRegisterWrite_keeps addr w s hb
  | droopRecovery skipped => exact execDroopRecovery_keeps skipped s hb
  | napAccept n => exact execNapAccept_keeps n s hb

end Sys2Proof.Machine
end

