-- ==== Sys2Proof/Laws/Keeps/Step.lean ====
section
/-! SUPPORT. What the operations of Machine/Step.lean keep (Laws/Keeps.lean). -/

set_option linter.unusedTactic false
set_option linter.unreachableTactic false

namespace Sys2Proof.Machine

theorem State.tick_keeps {orig : State} (s : State) (hb : Keeps orig s) :
    Keeps orig (State.tick s) := by
  unfold State.tick; try dsimp only
  repeat' (with_reducible first | exact hb | apply State.showClusterTime_keeps | apply State.reweaveTick_keeps | apply State.expireDogs_keeps | apply State.showDogs_keeps | apply State.chrTick_keeps | apply State.clockTick_keeps | apply State.rejoin_keeps | apply keeps_foldl | apply keeps_elim | (intro (t : State); have hb := Keeps.refl t) | intro _ | split | rw [id] | simp only [↓keeps_mk])

/-- What the block does by itself keeps, whatever command it takes from those that it owes itself or holds. -/
theorem State.idle_keeps {base : State} (s : State) (hb : Keeps base s) : KeepsOut base (State.idle s) := by
  unfold State.idle
  split
  · exact exec_keeps _ _ hb
  · split
    · exact KeepsOut.next (State.readHead_keeps _ _ hb)
    · split
      · rename_i h
        exact exec_keeps _ _ (State.takeHeld_keeps _ hb _ _ h)
      · split
        · exact KeepsOut.next (State.moreKernels_keeps _ hb)
        · exact KeepsOut.next (State.tick_keeps _ hb)

end Sys2Proof.Machine
end

