-- ==== Sys2Proof/Laws/Packets.lean ====
section
/-! SUPPORT. What running a packet does: a packet that starts runs its opcode's effect on the entered state and completes in ring order. -/

namespace Sys2Proof.Machine

/-- A state with the mark of a packet taken from the held ones. -/
theorem State.taking_eta (s : State) (b : Bool) (h : s.cq.taking = b) : { s with cq := { s.cq with taking := b } } = s := by
  subst h; rfl

/-- A RUNNING queue completes its packets itself (R93, R274). -/
theorem State.endStatus_running {s : State} {q : Nat} (h : s.qState q = stRunning) : s.endStatus q = none := by
  unfold State.endStatus
  rw [h, if_neg (by decide), if_neg (by decide)]

/-- A packet that starts, where the command itself brings it. -/
theorem runPacket_starts {s : State} {r : Rule} {p : Packet} (i : Instr) (body : Nat → State → State)
    (h : s.starts r p = true) : runPacket i r p body s = s.ran r p body := by
  unfold State.starts at h
  simp only [Bool.and_eq_true, decide_eq_true_eq, Bool.not_eq_true', Option.isNone_iff_eq_none] at h
  obtain ⟨⟨⟨⟨⟨⟨⟨⟨⟨⟨⟨hq, ha, hs⟩, ht⟩, hh⟩, hf⟩, hd⟩, hb⟩, hw⟩, hc⟩, hm⟩, hn⟩, h9⟩ := h
  unfold runPacket
  rw [State.taking_eta s false ht]
  dsimp only
  rw [if_neg (by omega), State.endStatus_running hs]
  dsimp only
  rw [if_neg (by simp [hs]), if_neg (by simp [hh]), if_neg (by simp [hf]), if_neg (by simp [hd]), hb]
  dsimp only
  rw [if_neg (by simp [hw]), hc]
  simp only [hm, Bool.false_eq_true, if_false]
  unfold State.startPacket State.ran State.entered
  simp [hn, h9]

/-- After a reset the register file is in canonical form, whatever it was. -/
theorem State.resetAll_regsWf (s : State) : s.resetAll.regsWf := by
  unfold State.resetAll
  apply State.putFld_regsWf
  dsimp only [State.regsWf]
  with_reducible exact resetRegs_wf s.chip

end Sys2Proof.Machine
end

