-- ==== Sys2Proof/Tests/Slice0.lean ====
section
/-! SUPPORT. Tests: a witness for the hypotheses of every statement, ill-formed commands refused, and values that the manual states. -/

set_option Elab.async false

namespace Sys2Proof.Tests

open Sys2Proof.Machine

/-- The machine after reset with an empty register file, small enough to evaluate. -/
def blank : State := { State.reset with regs := [] }

/-- Fields of registers at values: field, indexes, value. -/
def set (s : State) (l : List (Fld × Nat × Nat × Nat)) : State := l.foldl (fun t e => t.putFld e.1 e.2.2.2 e.2.1 e.2.2.1) s

/-- A RUNNING device with every function READY, every gate open, and queue 0 of partition 0 RUNNING with 64 slots handed over. -/
def up : State :=
  (set ((List.range 17).foldl (fun t n => t.putFld (fnFld n) stReady) blank)
    [(F.SYS_DEVSTATE_DEVSTATE, 0, 0, devRunning), (F.CMDQ_QSTAT_STATE, 0, 0, stRunning), (F.CMDQ_QCFG_EN, 0, 0, 1),
     (F.CMDQ_QCFG_SQ_LOG2, 0, 0, 11), (F.CMDQ_QCFG_CQ_LOG2, 0, 0, 8), (F.CMDQ_OPQUOTA_QUOTA, 0, 0, 256),
     (F.ESC_PCFG_STATE, 0, 0, stRunning), (F.MEMC_CAP_TOP_GIB, 0, 0, 192), (F.CLK_STATUS_READY_REFCLK, 0, 0, 1), (F.PWR_STATUS_CORE_DIV, 0, 0, 4)]).loadRegs
    [(.CLK_GATE, 0, 0, 0x1FFFF), (.CMDQ_QTAIL, 0, 0, 64)]

/-- A register write by partition 0. -/
abbrev wr (v : Nat) : RegWrite := ⟨v, 0⟩

/-- A register write by a queue of partition 5. -/
abbrev wr5 (v : Nat) : RegWrite := ⟨v, initiator 6 5⟩

/-- A kernel of partition 0 of a class on an engine; u is the start of its unit descriptor. -/
def ker (cls : Nat) (unit : Option Nat) (u : List Byte := []) : Kernel :=
  { id := 1, queue := 0, seq := 0, partition := 0, context := 0, addr := 0, desc := padTo 128 [BitVec.ofNat 8 cls], unitDesc := u, unit := unit }

/-- The running device with kernels in its operation table. -/
def busy (l : List Kernel) : State := { up with esc := { up.esc with kernels := l } }

/-- A flight of queue 0. -/
def fl (cls code : Nat) : Flight :=
  { id := 7, queue := 0, seq := 0, cls := cls, code := code, partition := 0, last := false, sig := none }

/-- The running device with flights. -/
def flying (l : List Flight) : State := { up with cq := { up.cq with flight := l, nextId := 8 } }

/-- The running device with queue 0 of UDP transport, open to every IPv6 source. -/
def udp : State :=
  { set up [(F.CMDQ_QCFG_TRANSPORT, 0, 0, 2)] with dev := { up.dev with settings := some { udpSources := [(0, true, 0, 0)] } } }

/-- An object of partition 0 in SMEM at 17 MiB with handle 1 and no pass running. -/
def ob : Obj := { partition := 0, handle := 1, size := 64, crc := 0, smem := true, parts := [(0x1100000, 64)] }

/-- The running device with an object. -/
def withObj (o : Obj) : State := { up with objs := [o] }

/-- TARGET of a handle reference to handle 1 at an offset. -/
abbrev href (off : Nat) : Nat := 2 ^ 63 + 2 ^ 40 + off

/-- The running device with four KV sequences of partition 0 in the table at address 0; sequence 0's entry begins with the bytes given. -/
def kvs (l : List Byte) : State :=
  ((set up [(F.ADMA_LAYOUT_VALID, 0, 0, 1), (F.ADMA_LAYOUT_PREFIX_EN, 0, 0, 1), (F.ADMA_PQUOTA_QUOTA, 0, 0, 4)]).setReg .ADMA_SEQCNT 4).sysWrite 0 l

/-- A member of a ring of four with Grenlink RUNNING, port 1 up, and time passing. -/
def ring : State :=
  (set up [(F.GLK_CFG_TOPO, 0, 0, 1), (F.GLK_CFG_N_M1, 0, 0, 3), (F.GLK_PSTAT_WIDTH, 1, 0, 1), (F.GLK_PSTAT_PEER_VALID, 1, 0, 1),
    (F.GLK_PSTAT_STATE, 0, 0, stReady), (F.GLK_PSTAT_STATE, 1, 0, stRunning), (F.GLK_CFG_NAP_EN, 0, 0, 1), (F.GLK_ID_CLUSTER, 0, 0, 9)]).loadRegs
    [(.CHR_TIME, 0, 0, 1000), (.GLK_NAPMAX, 0, 0, 10), (.GLK_UID, 0, 0, 77)]

/-- The device with its Grenlink state changed. -/
def glkSet (s : State) (f : Glk → Glk) : State := { s with glk := f s.glk }

/-- The fields of a scan kernel of one step of one value. -/
def scan1 (mode : Nat) : List Byte := [BitVec.ofNat 8 mode, 0, 0, 1, 1, 0, 1, 0, 1, 0, 0, 0, 1, 0, 0, 0]

/-- The running device with receiver and context 15 of FN_CAM taking virtual channel 1. -/
def camera : State :=
  (set up [(F.CAM_RXSTAT_STATE, 15, 0, stRunning), (F.CAM_CTXSTATE_STATE, 15, 0, stRunning), (F.CAM_CTXCFG_EN, 15, 0, 1),
    (F.CAM_CTXCFG_RX, 15, 0, 15), (F.CAM_CTXCFG_VC, 15, 0, 1), (F.CAM_CTXCFG_DT, 15, 0, 0x2B)]).setReg .CLK_GATE_CAM 0xFFFF

/-- The camera with context 15's frames. -/
def frames (l : List CamFrame) : State := camera.setCamCtx 15 { frames := l }

/-- A frame of context 15. -/
def frame : CamFrame := { index := 0, written := true, num := 1, expoGen := 0, gainGen := 0, sof := 0 }

/-- A decode context of partition 0. -/
def decoder : DecCtx :=
  { ctx := 0, partition := 0, codec := 0, depth := 8, slots := 1, fmt := 8, maxW := 64, maxH := 64, load := 4096, bytes := 64, rel := 0,
    area := [(0x1000000000, 0x100000)] }

/-- The running device with video cores 0, 4 and 6 READY, an object, a decode and an encode context 0. -/
def video (o : Obj) (l : List DecCtx) (e : List EncCtx) : State :=
  { set up [(F.VID_CORESTAT_STATE, 0, 0, stReady), (F.VID_CORESTAT_STATE, 4, 0, stReady), (F.VID_CORESTAT_STATE, 6, 0, stReady)] with
      objs := [o], vid := { dec := l, enc := e } }

/-- DEC_CREATE's payload for 64 × 64 pictures with its area at handle 1. -/
def create : List Byte := padTo 32 ([0, 8, 1, 8, 64, 0, 64, 0, 1, 0, 64, 0, 0, 0, 0, 0] ++ toLe 8 (href 0))

/-- A planar reference of 8 × 8 pixels in a format, with a row pitch of 32 bytes. -/
def pixels (fmt : Nat) : List Byte :=
  padTo 32 (toLe 8 0 ++ toLe 4 1 ++ toLe 4 8 ++ toLe 2 8 ++ toLe 2 8 ++ toLe 2 1 ++ [BitVec.ofNat 8 fmt])

/-- The running device with axis 15 enabled in a state. -/
def axis (st : Nat) : State := set up [(F.MOT_AXCFG_EN, 15, 0, 1), (F.MOT_AXSTATE_STATE, 15, 0, st)]

/-- The running device with the island's pairs good and watchdog 63's window open for some nanoseconds. -/
def dog (ns : Nat) : State :=
  { set up [(F.SAFE_STATUS_PAIR0_OK, 0, 0, 1), (F.SAFE_STATUS_PAIR1_OK, 0, 0, 1), (F.SAFE_WDCFG_EN, 63, 0, 1),
      (F.SAFE_WDWIN_OPEN_US, 63, 0, 10), (F.SAFE_WDWIN_CLOSE_US, 63, 0, 20)] with
    safe := { up.safe with openNs := [(63, 0)] }, clk := { up.clk with edges := ns } }

/-- A state with a response of a level in its first byte, and the hashes of the response's keys in OTP. -/
def debug (s : State) (level : Nat) : State :=
  let t := s.setReg .SEC_DBGRESP level
  { t with chip := { t.chip with otp := { t.chip.otp with dbgMldsa := some (leNat (sha384 (t.dbgBytes (42 + 0x10) 1952))),
                                                          dbgEcdsa := some (leNat (sha384 (t.dbgBytes (42 + 0x7B0) 97))) } } }

/-- An event. -/
def event : LogEvent := { cls := 5, partition := 0, code := 1, source := 0, data := 0 }

/-- The running device with its log changed. -/
def logged (l : Log) : State := { up with log := l }

/-- The running device with both gPTP domains on port 0, their numbers 0 and 1. -/
def ptp : State := set up [(F.CHR_DOMCFG_EN, 0, 0, 1), (F.CHR_DOMCFG_EN, 1, 0, 1), (F.CHR_DOMCFG_DOMAIN, 1, 0, 1),
    (F.ETH_PSTAT_STATE, 0, 0, stReady)]

/-- CHRONO_STEP's packet in a mode by a value. -/
def stepBy (mode v : Nat) : Packet := sealPacket ⟨9, 0x21⟩ { queue := 0, plen := 1, payload := padTo 32 (toLe 8 mode ++ toLe 8 v) }

/-- The running device with Ethernet port 7 up at 0 time and rings of 64 slots. -/
def port7 : State :=
  set up [(F.ETH_PSTAT_STATE, 7, 0, stReady), (F.ETH_PSTAT_LINK, 7, 0, 1), (F.ETH_RCFG_EN, 7, 15, 1), (F.ETH_RCFG_SIZE_LOG2, 7, 15, 6),
    (F.ETH_RCFG_EN, 7, 8, 1), (F.ETH_RCFG_SIZE_LOG2, 7, 8, 6), (F.ETH_RCFG_EN, 7, 7, 1), (F.ETH_RCFG_SIZE_LOG2, 7, 7, 6),
    (F.ETH_GCLCTL_EN, 7, 0, 1), (F.ETH_PREEMPT_EN, 7, 0, 1)]

/-- A frame that waits in class 7. -/
def waiting (flight : Option Nat) : EthFrame :=
  { cls := 7, flight := flight, partition := 0, data := List.replicate 60 0, len := 60, flags := 0, launch := 0 }

/-- Port 7 with its state beyond the registers. -/
def port7x (x : EthPort) : State := port7.setEth 7 x

/-- The running device with CAN controller 7 RUNNING. -/
def can7 (l : List (Fld × Nat)) : State :=
  (set up ((F.CAN_CTL_STATE, 7, 0, stRunning) :: l.map (fun e => (e.1, 7, 0, e.2)))).setReg .CLK_GATE_CAN 0xFF

/-- Controller 7 with TX element 31 asked for. -/
def can7tx (l : List (Fld × Nat)) : State := (can7 l).setReg .CAN_TXREQ (2 ^ 31) 7

/-- A list of bytes with its CRC-32C behind it. -/
def sealed (l : List Byte) : List Byte := l ++ toLe 4 (crc32c l)

/-- Flash with a valid image header that names slot 3 and slot 3's commit marker. -/
def flashed : State :=
  { up with flash := sparseSetList (fun _ => 0xFF) (sparseSetList (fun _ => 0xFF) [] 0
      (sealed (padTo 60 (toLe 4 0x534C5448 ++ toLe 2 1 ++ [8])))) (slotBase 3 + 0xBFF000) (sealed (padTo 28 (toLe 4 0x434D4954))) }

/-- The state that a step answers. -/
def after (s : State) : State :=
  match step s with
  | .next t => t
  | _ => s

/-! Ill-formed commands. -/

/-- Table CMDQ-1: a field of the header that does not fit its bits, or a payload that is not PLEN units, makes the packet ill formed. -/
theorem test_packet_wf_refuses :
    ([{ queue := 8192 }, { queue := 0, seq := 2 ^ 32 }, { queue := 0, partition := 64 }, { queue := 0, destDev := 2 ^ 20 },
      { queue := 0, flags := 256 }, { queue := 0, target := 2 ^ 64 }, { queue := 0, sigCtr := 65536 }, { queue := 0, sigInc := 64 },
      { queue := 0, waitCtr := 65536 }, { queue := 0, waitVal := 65536 }, { queue := 0, version := 256 },
      { queue := 0, plen := 2047, payload := List.replicate 65504 0 }, { queue := 0, plen := 1 }, { queue := 0, hcrc := 65536 },
      { queue := 0, trailer := 2 ^ 32 }] : List Packet).all (fun p => !p.wf) = true := by decide +kernel

/-- R119: a value beyond 64 bits or an initiator beyond 10 bits makes a register write ill formed. -/
theorem test_write_wf_refuses : (wr (2 ^ 64)).wf = false ∧ ({ value := 0, initiator := 1024 } : RegWrite).wf = false := by decide

/-- The largest values of every field are well formed. -/
theorem test_packet_wf_admits :
    ({ queue := 8191, seq := 2 ^ 32 - 1, partition := 63, destDev := 2 ^ 20 - 1, flags := 255, target := 2 ^ 64 - 1, sigCtr := 65535,
       sigInc := 63, waitCtr := 65535, waitVal := 65535, version := 255, hcrc := 65535, trailer := 2 ^ 32 - 1 } : Packet).wf = true := by
  decide

/-- A command is as well formed as its packet and its register write. -/
theorem test_instr_wf_refuses :
    (Instr.nop { queue := 8192 }).wf = false ∧ (Instr.clkNetrefWrite (wr (2 ^ 64))).wf = false ∧ Instr.netrefReady.wf = true := by
  decide +kernel

/-- R155: a slot beyond 47, a word beyond 128 bits or the OP of another row makes an engine's instruction ill formed; a word of an OP that no
row lists is ME_NOP's. -/
theorem test_step_wf_refuses :
    (Instr.bar { slot := 48, word := 6 * 2 ^ 26 }).wf = false ∧ (Instr.bar { slot := 0, word := 2 ^ 128 + 6 * 2 ^ 26 }).wf = false ∧
      (Instr.bar { slot := 0, word := 5 * 2 ^ 26 }).wf = false ∧ (Instr.bar { slot := 47, word := 6 * 2 ^ 26 }).wf = true ∧
      (Instr.meNop { slot := 0, word := 7 * 2 ^ 26 }).wf = true ∧ (Instr.meNop { slot := 0, word := 6 * 2 ^ 26 }).wf = false := by decide +kernel

/-! Encodings and checksums. -/

/-- Table CMDQ-1: NOP of queue 5 and partition 3 with SEQ 1, byte by byte. -/
theorem test_header_bytes :
    headerBytes ⟨0, 0⟩ { queue := 5, seq := 1, partition := 3 } =
      [1, 0, 0, 0, 0xFF, 0xFF, 0x0F, 0x0C, 0, 0, 0x28, 0, 1, 0, 0, 0, 0, 0, 0, 0, 0, 0, 0, 0, 0, 0, 0, 0, 0, 0] := by decide +kernel

/-- R78, R79: the packet read back from its 64 bytes; one byte of padding that is not zero makes the bytes no packet. -/
theorem test_decode_packet :
    decodePacket (ringBytes ⟨3, 2⟩ { queue := 8191, target := 77 }) = some (⟨3, 2⟩, { queue := 8191, target := 77 }) ∧
      decodePacket ((ringBytes ⟨3, 2⟩ { queue := 0 }).dropLast ++ [1]) = none := by decide +kernel

/-- No row of the table gives bits. -/
theorem test_no_table_word : decodeTableWord 32 0 = none := rfl

/-- The check values of CRC-16 and CRC-32C for the nine digits (outside the manual: their published check values). -/
theorem test_crc :
    crc16 [0x31, 0x32, 0x33, 0x34, 0x35, 0x36, 0x37, 0x38, 0x39] = 0x29B1 ∧
      crc32c [0x31, 0x32, 0x33, 0x34, 0x35, 0x36, 0x37, 0x38, 0x39] = 0xE3069283 := by decide +kernel

/-- SipHash-2-4's published vector (outside the manual): key 00 to 0F, message 00 to 0E. -/
theorem test_siphash :
    siphash 0x0706050403020100 0x0F0E0D0C0B0A0908 ((List.range 15).map (BitVec.ofNat 8)) = 0xA129CA6149BE45E5 := by decide +kernel

/-- SHA-384 of "abc" (FIPS 180-4's example), its first eight bytes. -/
theorem test_sha384 : (sha384 [0x61, 0x62, 0x63]).take 8 = toBe 8 0xCB00753F45A35E8B := by decide +kernel

/-! The manual's worked examples. -/

/-- Slot 3's engine with the tile, weights, scale, bias and drain configuration of the example before R177. -/
def engine : State :=
  let s := ((((busy [ker 0 (some 3)]).sysWrite 0 [0xA3, 0x61]).sysWrite 64 [0x7D])).sysWrite 0x2000 (toLe 4 0xBF400000)
  s.setSt 3 { buf0 := { afmt := 2, klen := 4, valid := [true], data := [[0x44, 0xB9, 0x02, 0x5C]] }, valid := [true],
              dcf := 3 * 2 ^ 26 + 4 * 2 ^ 22 + 2 ^ 19 + 1 + 2 ^ 64 * 0x80 + 2 ^ 96 * 0x100 }

/-- What a command leaves. -/
def left (i : Instr) (s : State) : State :=
  match exec i s with
  | .next t => t
  | _ => s

/-- Table ME-13: with WIN 56 the sum is 6,504. -/
theorem test_me_sum :
    (((left (.str { slot := 3, word := 2 * 2 ^ 26 + 5 * 2 ^ 20 + 1 + 2 ^ 48 * 56 }) engine).meSt 3).cols.map
      (fun c => (c.1, c.2.rows.map (fun r => (r.1, r.2.sum))))) = [(0, [(0, 6504)])] := by decide +kernel

/-- Table ME-13: drained to BF16 the output is 0x41C5. -/
theorem test_me_drain :
    (left (.str { slot := 3, word := 2 * 2 ^ 26 + 5 * 2 ^ 20 + 2 * 2 ^ 16 + 1 + 2 ^ 48 * 56 }) engine).bytes 0x1000 2 = [0xC5, 0x41] := by
  decide +kernel

/-- Table SCAN-2: h of the four steps in binary32: 5.0, 4.5, 5.25 and 6.625. -/
theorem test_scan :
    chunksOut 2 5 0x41000000 [(0x3F000000, 0x3F800000), (0x3F000000, 0x40000000), (0x3F000000, 0x40400000), (0x3F000000, 0x40800000)] =
      [0x40A00000, 0x40900000, 0x40A80000, 0x40D40000] := by decide +kernel

/-- Table SCAN-2: 6.625 and 0.3 stored in INT8 are codes 106 and 5 with exponent -4; 5 reads back as 0.3125. -/
theorem test_scan_store :
    (quantise 0 [0x40D40000, 0x3E99999A]).1.exps = [-4] ∧ (quantise 0 [0x40D40000, 0x3E99999A]).1.codes.take 3 = [106, 5, 0] ∧
      ({ exps := [-4], codes := [106, 5] } : ScanCopy).elem 0 1 = 0x3EA00000 := by decide +kernel

/-- The feeder's example before R246: number 261 is output pixel (3, 21), whose element 258 is (28, 7, 41). -/
theorem test_feeder :
    pixelOf 0 80 261 = (3, 21) ∧
      (let r : Planar := { addr := 0, rowPitch := 5, planePitch := 640, w := 160, h := 128, c := 64, fmt := 0, exp := 0, zp := 0, zero := true, bsel := 0 }
       (up.sysWrite (planarAt r 28 7 41) [99]).windowCode 1 (windowAt r [3, 3, 2, 2, 1, 1, 1, 1] 0 0 (3, 21) 258) = 99) := by decide +kernel

/-- The resize example after R252: 5 × 3 to 8 × 4 at (3, 2) gives 107. -/
theorem test_resize :
    resizeAxis 5 8 3 = (1, 2, 176) ∧ resizeAxis 3 4 2 = (1, 2, 96) ∧ bilinearInt 40 200 90 10 176 96 = 107 := by decide

/-- Table PWR-3: bands 0 and 1 measured at +10 and +18 mV put band 2 at +43 mV, and at +31 mV once it is measured. -/
theorem test_avs :
    (let s := set blank [(F.PWR_BAND_MEASURED, 0, 0, 1), (F.PWR_BAND_OFFSET_MV, 0, 0, 10), (F.PWR_BAND_MEASURED, 1, 0, 1), (F.PWR_BAND_OFFSET_MV, 1, 0, 18)]
     s.offsetOf 2 = 43 ∧ (set s [(F.PWR_BAND_MEASURED, 2, 0, 1), (F.PWR_BAND_OFFSET_MV, 2, 0, 31)]).offsetOf 2 = 31) := by decide +kernel

/-- The example of R467: PWM(37) is axis 6's second gate at ball (14, 7). -/
theorem test_pwm_ball : (blank.axisBalls 6)[1]? = some (ball 14 7) := by decide +kernel

/-- Layout 3 and the sequence of the example before R221: POS 10,000 of row 0, one full and one ring layer's entry. -/
def pages : State :=
  let s := set up [(F.ADMA_LAYOUT_VALID, 3, 0, 1), (F.ADMA_LAYOUT_P_LOG2, 3, 0, 6), (F.ADMA_LAYOUT_NL_FULL, 3, 0, 4),
    (F.ADMA_LAYOUT_NL_RING, 3, 0, 2), (F.ADMA_LAYOUT_WINDOW, 3, 0, 4096), (F.ADMA_LAYOUT_W_PAGES, 3, 0, 67)]
  let s := (s.setReg .ADMA_SEQCNT 1).sysWrite 0 ([1, 3, 0, 0] ++ toLe 4 10001 ++ toLe 4 0 ++ toLe 4 157 ++ toLe 8 0x1200000000 ++ toLe 8 0 ++
    toLe 8 0x1200100000)
  let s := (s.sysWrite 0x1200000C3C (toLe 4 0x12345)).sysWrite 0x1200100164 (toLe 4 0x9A10)
  (s.setOwner 0x12345 0).setOwner 0x9A10 0

/-- A row map entry: row 0 is position 10,000 of sequence 0. -/
def mapped : State := pages.sysWrite 0x8000 (toLe 8 (2 ^ 63 + 2 ^ 62 + 2 ^ 60 + 10000))

/-- The key element in full layer 2 lies at 0x0011_2345_2105: INT8 code 7 is written there. -/
theorem test_kv_full :
    ((mapped.sysWrite 0x9000 (toLe 8 0x8000 ++ [0, 3] ++ toLe 2 2 ++ toLe 2 10 ++ toLe 2 6 ++ toLe 2 0x100)).appendRow 0 0 0 0x9000 15 0 0x40E00000).1.bytes
      0x1123452105 1 = [7] := by decide +kernel

/-- The value element in ring layer 1 lies at 0x0010_9A10_A105. -/
theorem test_kv_ring :
    ((mapped.sysWrite 0x9000 (toLe 8 0x8000 ++ [1, 3] ++ toLe 2 1 ++ toLe 2 10 ++ toLe 2 6 ++ toLe 2 0x100)).appendRow 0 0 1 0x9000 15 0 0x40E00000).1.bytes
      0x109A10A105 1 = [7] := by decide +kernel

/-! Single steps. -/

/-- R107: a counter holds at 2^64 - 1 and shows it. -/
theorem test_signal_saturates :
    (let t := (up.setReg .SYNC_CTR (2 ^ 64 - 2) 9).signal 9 2
     t.reg .SYNC_CTR 9 = 2 ^ 64 - 1 ∧ t.flag F.SYNC_STATUS_SATURATED = true) := by decide +kernel

/-- R108: a short wait compares modulo 2^16: 0x0005 meets 0xFFFE, 0xFFFE does not meet 0x0005. -/
theorem test_short_wait :
    (up.setReg .SYNC_CTR 5 9).shortMet 9 0xFFFE = true ∧ (up.setReg .SYNC_CTR 0xFFFE 9).shortMet 9 5 = false := by decide +kernel

/-- R92, R94: a NOP consumes its two slots, and its record says DONE: status byte 0 in the word at 0x0C, phase 1. -/
theorem test_nop :
    (let t := left (.nop (sealPacket ⟨0, 0⟩ { queue := 0, flags := 4 })) up
     t.reg .CMDQ_QHEAD 0 = 2 ∧ t.bytes 0 16 = [0, 0, 0, 0, 0, 0, 0, 0x80, 0, 0, 0, 0, 0, 0, 0, 0]) := by decide +kernel

/-- R82, R83: a wrong HCRC puts the queue in FAULT with CMDQ_QHEAD at the packet. -/
theorem test_hcrc_faults :
    (let t := left (.nop { queue := 0 }) up
     t.qState 0 = stFault ∧ t.reg .CMDQ_QHEAD 0 = 0 ∧ t.flag F.CMDQ_ERR_HCRC = true) := by decide +kernel

/-- MEM_WRITE stores its payload; MEM_FILL repeats its 64-bit pattern. -/
theorem test_mem_packets :
    (left (.memWrite (sealPacket ⟨2, 1⟩ { queue := 0, target := 0x100000, plen := 1, payload := padTo 32 [1, 2, 3] })) up).bytes 0x100000 4 =
      [1, 2, 3, 0] ∧
    (left (.memFill (sealPacket ⟨2, 3⟩ { queue := 0, target := 0x100000, plen := 1, payload := padTo 32 (toLe 8 9 ++ [1, 2]) })) up).bytes
      0x100000 10 = [1, 2, 0, 0, 0, 0, 0, 0, 1, 0] := by decide +kernel

/-- R442: a kick inside its window is in time: the window closes and the count of kicks in time grows. -/
theorem test_kick_in_time :
    (let t := left (.wdKick 63 (.register (wr 1))) (dog 15000)
     t.wdOpened 63 = none ∧ t.fld F.SAFE_WDSTAT_RUN 63 = 0) := by decide +kernel

/-- R54: a source other than 0 to 2 is ignored, and a switch to a source that is not READY is refused. -/
theorem test_srcsel : (left (.clkSrcselReq (wr 3)) up).active = 0 ∧ (left (.clkSrcselReq (wr 1)) up).active = 0 := by decide +kernel

/-- R70: with one band served, the target is its V_cal and offset. -/
theorem want_of (u : State) (b d : Nat) (o : Int) (hb : u.heldBands = [b]) (hd : u.fld F.PWR_STATUS_CORE_DIV = d) (ho : u.offsetOf b = o) :
    u.wantMv = max 0 (Config.vcalMv d + o) := by simp [State.wantMv, State.bandTarget, hb, hd, ho]

/-- R452: a response of a level in its first byte and zeros behind it is signed with the debug keys of OTP where both verifiers accept it. -/
theorem debug_signed (s : State) (level : Nat) (h : ∀ k m g, Config.mldsaVerify k m g = true)
    (h' : ∀ k m g, Config.ecdsaVerify k m g = true) : (debug s level).dbgSigned = true := by
  have k (b : List Byte) : keyHashOk b (some (leNat (sha384 b))) = true := by simp [keyHashOk]
  simp only [State.dbgSigned, h, h', Bool.and_true, Bool.and_eq_true]
  exact ⟨k _, k _⟩

/-! A profile that passes. -/

/-- The header and section table of a profile with one section, FW_MGMT of one zero byte. -/
def goodHeader : List Byte :=
  sealed (padTo 0xFC (toLe 4 0x50524F46 ++ [1, 0, 0, 0] ++ toLe 4 0 ++ [0, 0, 1, 0] ++ toLe 4 0x1001 ++ toLe 4 0x2000)) ++
    padTo 1024 ([7, 0, 0, 0] ++ toLe 4 0x1000 ++ toLe 4 1 ++ toLe 4 (crc32c [0]))

/-- Its signature block: key slots 0, keys and signatures of one byte repeated. -/
def goodSig (v : Byte) : List Byte := [0x42, 0x47, 0x49, 0x53, 0, 0] ++ List.replicate 8186 v

/-- Its commit marker. -/
def goodMarker (v : Byte) : List Byte :=
  toLe 4 0x434D4954 ++ toLe 4 0 ++ toLe 4 0x1001 ++ toLe 4 (crc32c (goodSig v)) ++ List.replicate 12 0

/-- What its firmware decodes: group 0 of SMEM and 256 operation-table entries for partition 0. -/
def goodSettings : Settings :=
  { smemGranules := (List.range 16).map (fun g => (g, 0)), loads := [(Reg.CMDQ_OPQUOTA.addr 0 0, 256 * 65536)] }

/-- An image that reads as the profile. -/
structure Good (img : Nat → Nat → List Byte) (v : Byte) : Prop where
  low : ∀ off n, off + n ≤ 0x500 → img off n = bytesAt goodHeader off n
  body : img 0x1000 1 = [0]
  sig : img 0x2000 8192 = goodSig v
  sig4 : img 0x2000 4 = [0x42, 0x47, 0x49, 0x53]
  slot0 : img 0x2004 1 = [0]
  slot1 : img 0x2005 1 = [0]
  key : img 0x2010 1952 = List.replicate 1952 v
  key1 : img 0x27B0 97 = List.replicate 97 v
  marker : img 0xBFF000 32 = sealed (goodMarker v)

/-- A device whose OTP holds the hashes of the profile's keys. -/
structure Ready (s : State) (v : Byte) : Prop where
  state : s.flag F.SEC_LIFECYCLE_STATE = true
  mldsa : s.chip.otp.mldsa = [some (leNat (sha384 (List.replicate 1952 v)))]
  ecdsa : s.chip.otp.ecdsa = [some (leNat (sha384 (List.replicate 97 v)))]
  kept : s.chip.otp.mldsaRevoked = 0 ∧ s.chip.otp.ecdsaRevoked = 0 ∧ s.chip.otp.rollback = 0
  set : (s.loaded 0 goodSettings).settingsFault (bytesAt goodHeader) goodSettings = none

section
variable {img : Nat → Nat → List Byte} {v : Byte} (g : Good img v)
include g

/-- Its section table is the header's. -/
theorem good_used : usedSections img = usedSections (bytesAt goodHeader) := by
  simp only [usedSections]
  rw [List.map_congr_left (fun k hk => by
    rw [sectionEntry, g.low _ _ (by have := List.mem_range.mp hk; omega)])]
  rfl

/-- Check 4 passes. -/
theorem good_header (o : Option Nat) (h : o = none ∨ o = some 0) : headerOk img o = true := by
  have e : headerOk img o = headerOk (bytesAt goodHeader) o := by
    simp (disch := decide) only [headerOk, headerConsistent, phNum, phSigBlock, phSigned, g.low, good_used g]
    rfl
  rw [e]
  rcases h with rfl | rfl <;> decide +kernel

/-- Checks 13 to 18 read its header alone. -/
theorem good_settings (t : State) : t.settingsFault img goodSettings = t.settingsFault (bytesAt goodHeader) goodSettings := by
  simp (disch := decide) only [State.settingsFault, phNum, g.low, good_used g]
  rfl

theorem good_sigBlock : phSigBlock img = 0x2000 := by
  rw [phSigBlock, phNum, g.low _ _ (by decide)]; decide +kernel

theorem good_signed : phSigned img = 0x1001 := by
  rw [phSigned, phNum, g.low _ _ (by decide)]; decide +kernel

/-- Checks 5 and 6 pass. -/
theorem good_marker : markerOk (marker img) = true ∧ markerMatches img = true := by
  have c (l : List Byte) : crc32c l % 256 ^ 4 = crc32c l := Nat.mod_eq_of_lt (crc32c_lt l)
  have len : (goodMarker v).length = 28 := by simp [goodMarker]
  have m {l pre post : List Byte} {n w : Nat} (h : pre.length = n) (hl : l = pre ++ (toLe 4 w ++ post)) (hw : w % 256 ^ 4 = w) : leAt l n 4 = w := by
    rw [hl, leAt_mid h, hw]
  have len : (goodMarker v).length = 28 := by simp [goodMarker]
  have e : sealed (goodMarker v) = toLe 4 0x434D4954 ++ toLe 4 0 ++ toLe 4 0x1001 ++ toLe 4 (crc32c (goodSig v)) ++ List.replicate 12 0 ++
    toLe 4 (crc32c (goodMarker v)) := by
    rw [sealed]
    exact congrArg (· ++ toLe 4 (crc32c (goodMarker v))) (by rw [goodMarker])
  have h4 : leAt (sealed (goodMarker v)) 0x1C 4 = crc32c (goodMarker v) := m (pre := goodMarker v) (post := []) len (by simp [sealed]) (c _)
  have h3 : leAt (sealed (goodMarker v)) 0x0C 4 = crc32c (goodSig v) :=
    m (pre := toLe 4 0x434D4954 ++ toLe 4 0 ++ toLe 4 0x1001) (post := List.replicate 12 0 ++ toLe 4 (crc32c (goodMarker v))) (by simp) (by rw [e]; simp only [List.append_assoc]) (c _)
  have h5 : (sealed (goodMarker v)).take 0x1C = goodMarker v := by rw [sealed, ← len, List.take_left]
  have h0 : leAt (sealed (goodMarker v)) 0 4 = 0x434D4954 := m (pre := []) (post := toLe 4 0 ++ (toLe 4 0x1001 ++ (toLe 4 (crc32c (goodSig v)) ++ (List.replicate 12 0 ++ toLe 4 (crc32c (goodMarker v))))))
    List.length_nil (by rw [e, List.nil_append]; simp only [List.append_assoc]) (by decide)
  have h1 : leAt (sealed (goodMarker v)) 4 4 = 0 := m (pre := toLe 4 0x434D4954) (post := toLe 4 0x1001 ++ (toLe 4 (crc32c (goodSig v)) ++ (List.replicate 12 0 ++ toLe 4 (crc32c (goodMarker v)))))
    (by simp) (by rw [e]; simp only [List.append_assoc]) (by decide)
  have h2 : leAt (sealed (goodMarker v)) 8 4 = 0x1001 := m (pre := toLe 4 0x434D4954 ++ toLe 4 0)
    (post := toLe 4 (crc32c (goodSig v)) ++ (List.replicate 12 0 ++ toLe 4 (crc32c (goodMarker v)))) (by simp) (by rw [e]; simp only [List.append_assoc]) (by decide)
  have hg : phNum img 8 4 = 0 := by rw [phNum, g.low _ _ (by decide)]; decide +kernel
  constructor
  · rw [marker, g.marker, markerOk, h0, h4, h5]; simp
  · rw [markerMatches, marker, g.marker, good_sigBlock g, g.sig, good_signed g, h1, h2, h3, hg]; simp

omit g in
/-- Check 7 passes where every entry does. -/
theorem sections_pass (l : List Nat) (h : ∀ k ∈ l, placed img k = true ∧ sectionCrcOk img k = true)
    (h' : (lastSection img).2 = phSigned img) : sectionFault img l = none := by
  induction l with
  | nil => rw [sectionFault, if_pos h']
  | cons k l ih =>
    have hk := h k (by simp)
    rw [sectionFault, hk.1, hk.2, ih (fun x hx => h x (by simp [hx]))]
    simp

/-- Check 7 passes. -/
theorem good_sections : sectionFault img (List.range 32) = none := by
  refine sections_pass _ (fun k hk => ?_) ?_
  · have hk := List.mem_range.mp hk
    have e : sectionEntry img k = bytesAt goodHeader (0x100 + 32 * k) 32 := g.low _ _ (by omega)
    constructor
    · have a : ∀ k < 32, placed (bytesAt goodHeader) k = true := by decide +kernel
      rw [← a k hk]
      simp only [placed, e, good_used g, good_signed g, show phSigned (bytesAt goodHeader) = 0x1001 from by decide +kernel]
      rfl
    · by_cases h0 : k = 0
      · subst h0
        simp only [sectionCrcOk, e]
        rw [show seOffset (bytesAt goodHeader (0x100 + 32 * 0) 32) = 0x1000 by decide +kernel,
          show seLength (bytesAt goodHeader (0x100 + 32 * 0) 32) = 1 by decide +kernel, g.body]
        decide +kernel
      · have z : ∀ k < 32, k ≠ 0 → (seType (bytesAt goodHeader (0x100 + 32 * k) 32) == 0) = true := by decide +kernel
        simp [sectionCrcOk, e, z k hk h0]
  · simp only [lastSection, good_used g, good_signed g]
    decide +kernel

/-- Checks 5 to 18 pass where both verifiers accept. -/
theorem good_body {s : State} (d : Ready s v) (h : ∀ k m x, Config.mldsaVerify k m x = true)
    (h' : ∀ k m x, Config.ecdsaVerify k m x = true) : s.bodyFault img { settings := goodSettings } = none := by
  have n0 : phNum img 7 1 = 0 := by rw [phNum, g.low _ _ (by decide)]; decide +kernel
  have n1 : phNum img 0x18 4 = 0 := by rw [phNum, g.low _ _ (by decide)]; decide +kernel
  have n2 : phNum img 0x0C 2 = 0 := by rw [phNum, g.low _ _ (by decide)]; decide +kernel
  have q (b : List Byte) : keyHashOk b (some (leNat (sha384 b))) = true := by simp [keyHashOk]
  have ko (x : Nat) : keySlotOk [some x] 0 0 = true := by simp [keySlotOk]
  have ks : keysOk s.chip.otp img = true := by
    simp only [keysOk, keySlotsOk, good_sigBlock g, phNum, sbMldsaKey, sbEcdsaKey, g.sig4, g.slot0, g.slot1, g.key, g.key1, d.mldsa, d.ecdsa,
      d.kept.1, d.kept.2.1, show leNat ([0] : List Byte) = 0 from rfl, List.getD_cons_zero, q, ko, Bool.and_true]
    rfl
  have rb : ¬ phNum img 0x18 4 < s.chip.otp.rollback := by rw [d.kept.2.2]; exact Nat.not_lt_zero _
  rw [State.bodyFault, (good_marker g).1, (good_marker g).2, good_sections g, d.state, ks, show mldsaOk img = true from h _ _ _,
    show ecdsaOk img = true from h' _ _ _, if_neg rb, n2, n0, good_settings g, d.set]
  rfl

end

/-- Bytes from an address on, as listed cells. -/
def cellsAt (a : Nat) : List Byte → List Host.Cell
  | [] => []
  | b :: l => (a, b) :: cellsAt (a + 1) l

theorem cell_read (d : Nat → Byte) (m : List Host.Cell) (l : List Byte) : ∀ (a off : Nat), off < l.length →
    sparseGet d (cellsAt a l ++ m) (a + off) = l.getD off 0 := by
  induction l with
  | nil => intro a off h; simp at h
  | cons b l ih =>
    intro a off h
    rw [cellsAt, List.cons_append, sparseGet, if_neg (by omega)]
    cases off with
    | zero => simp
    | succ k =>
      rw [if_neg (by omega), show a + (k + 1) = a + 1 + k by omega, ih (a + 1) k (by simpa using h)]
      simp

/-- Bytes laid from an address read back. -/
theorem cells_read (d : Nat → Byte) (a : Nat) (l : List Byte) (m : List Host.Cell) (n off : Nat) (h : off + n ≤ l.length) :
    sparseGetList d (cellsAt a l ++ m) (a + off) n = bytesAt l off n := by
  induction n generalizing off with
  | zero => simp [sparseGetList, bytesAt]
  | succ n ih =>
    have hd : l.drop off = l.getD off 0 :: l.drop (off + 1) := by
      rw [List.drop_eq_getElem_cons (by omega), List.getD_eq_getElem (hn := by omega)]
    rw [sparseGetList, Nat.add_assoc, ih (off + 1) (by omega), bytesAt, bytesAt, hd, List.take_succ_cons, cell_read _ _ _ _ _ (by omega)]

/-- The profile's listed bytes, at the place of slot 0 in flash and of the staging buffer in SMEM alike. -/
def goodCells (v : Byte) : List Host.Cell :=
  cellsAt 0x400000 goodHeader ++ (0x401000, 0) :: (cellsAt 0x402000 [0x42, 0x47, 0x49, 0x53, 0, 0] ++ cellsAt 0xFFF000 (sealed (goodMarker v)))

theorem header_lt : ∀ e ∈ cellsAt 0x400000 goodHeader, e.1 < 0x400500 := by decide +kernel

theorem six_lt : ∀ e ∈ cellsAt 0x402000 [0x42, 0x47, 0x49, 0x53, 0, 0], e.1 < 0x402006 := by decide

/-- The listed bytes read as the profile. -/
theorem good_cells (pre : List Host.Cell) (v : Byte) (h : ∀ e ∈ pre, e.1 < 0x400000) :
    Good (fun off n => sparseGetList (fun _ => v) (pre ++ goodCells v) (0x400000 + off) n) v := by
  have skip (off n : Nat) : sparseGetList (fun _ => v) (pre ++ goodCells v) (0x400000 + off) n =
      sparseGetList (fun _ => v) (goodCells v) (0x400000 + off) n :=
    getList_skip _ _ _ _ _ (fun e he => by have := h e he; omega)
  have late (k n : Nat) (hk : 0x400500 ≤ k) : sparseGetList (fun _ => v) (goodCells v) k n = sparseGetList (fun _ => v)
      ((0x401000, 0) :: (cellsAt 0x402000 [0x42, 0x47, 0x49, 0x53, 0, 0] ++ cellsAt 0xFFF000 (sealed (goodMarker v)))) k n :=
    getList_skip _ _ _ _ _ (fun e he => by have := header_lt e he; omega)
  have mark : ∀ e ∈ cellsAt 0xFFF000 (sealed (goodMarker v)), 0xFFF000 ≤ e.1 := by
    have gen (l : List Byte) : ∀ a, ∀ e ∈ cellsAt a l, a ≤ e.1 := by
      induction l with
      | nil => intro a e he; cases he
      | cons b l ih =>
        intro a e he
        rcases List.mem_cons.mp he with rfl | he
        · exact Nat.le_refl _
        · exact Nat.le_trans (Nat.le_succ a) (ih _ e he)
    exact gen _ _
  have tail (k n : Nat) (h1 : 0x402006 ≤ k) (h2 : k + n ≤ 0xFFF000) : sparseGetList (fun _ => v) (goodCells v) k n = List.replicate n v := by
    rw [late k n (by omega)]
    refine getList_none v _ n k (fun e he => ?_)
    rcases List.mem_cons.mp he with rfl | he
    · left; show 0x401000 < k; omega
    rcases List.mem_append.mp he with he | he
    · left
      have := six_lt e he
      omega
    · right; have := mark e he; omega
  have six (n : Nat) (k : Nat) (hk : k + n ≤ 6) : sparseGetList (fun _ => v) (goodCells v) (0x402000 + k) n =
      bytesAt [0x42, 0x47, 0x49, 0x53, 0, 0] k n := by
    rw [late _ _ (by omega), ← List.singleton_append, getList_skip _ [(0x401000, 0)] _ _ _ (by simp; omega)]
    exact cells_read _ _ _ _ _ _ (by simpa using hk)
  refine { low := fun off n hn => ?_, body := ?_, sig := ?_, sig4 := ?_, slot0 := ?_, slot1 := ?_, key := ?_, key1 := ?_, marker := ?_ } <;>
    simp only [skip]
  · exact cells_read _ _ _ _ _ _ (by rw [show goodHeader.length = 0x500 by decide +kernel]; exact hn)
  · rw [late _ _ (by omega)]; rfl
  · rw [show 0x400000 + 0x2000 = 0x402000 + 0 from rfl, show 8192 = 6 + 8186 from rfl, getList_append, six _ _ (by omega), tail _ _ (by omega) (by omega)]
    rfl
  · rw [show 0x400000 + 0x2000 = 0x402000 + 0 from rfl, six _ _ (by omega)]; rfl
  · rw [show 0x400000 + 0x2004 = 0x402000 + 4 from rfl, six _ _ (by omega)]; rfl
  · rw [show 0x400000 + 0x2005 = 0x402000 + 5 from rfl, six _ _ (by omega)]; rfl
  · exact tail _ _ (by omega) (by omega)
  · exact tail _ _ (by omega) (by omega)
  · rw [late _ _ (by omega), ← List.singleton_append, ← List.append_assoc, getList_skip _ _ _ _ _ (fun e he => by
      rcases List.mem_append.mp he with he | he
      · simp at he; subst he; show 0x401000 < _; omega
      · have := six_lt e he
        omega)]
    have := cells_read (fun _ => v) 0xFFF000 (sealed (goodMarker v)) [] 32 0 (by simp [sealed, goodMarker])
    rw [List.append_nil] at this
    rw [show 0x400000 + 0xBFF000 = 0xFFF000 + 0 from rfl, this, bytesAt, List.drop_zero, List.take_of_length_le (by simp [sealed, goodMarker])]

/-- The hashes of the profile's keys in OTP. -/
def goodOtp (v : Byte) (o : Otp) : Otp :=
  { o with mldsa := [some (leNat (sha384 (List.replicate 1952 v)))], ecdsa := [some (leNat (sha384 (List.replicate 97 v)))] }

/-- A device that reads slot 0, which holds the profile. -/
def reading : State :=
  { set blank [(F.SYS_DEVSTATE_DEVSTATE, 0, 0, devBoot), (F.SEC_LIFECYCLE_STATE, 0, 0, 1)] with
    flash := cellsAt 0 (sealed (padTo 60 (toLe 4 0x534C5448 ++ toLe 2 1 ++ [1]))) ++ goodCells 0xFF
    chip := { blank.chip with otp := goodOtp 0xFF blank.chip.otp }
    dev := { blank.dev with boot := .reading } }

/-- R18: slot 0 passes checks 2 to 18. -/
theorem reading_passes (h : ∀ k m x, Config.mldsaVerify k m x = true) (h' : ∀ k m x, Config.ecdsaVerify k m x = true) :
    reading.slotFault reading.dev.slot { settings := goodSettings } = none := by
  rw [show reading.dev.slot = 0 by decide +kernel]
  have g : Good (fun off n => reading.flashBytes (slotBase 0 + off) n) 0xFF := good_cells _ 0xFF (by decide +kernel)
  have r : Ready reading 0xFF := ⟨by decide +kernel, rfl, rfl, by decide +kernel, by decide +kernel⟩
  have a1 : reading.ihUsed = some 0 := by decide +kernel
  have a2 : (reading.slotMask 0).testBit 0 = true := by decide +kernel
  rw [State.slotFault, a1]
  simp only [a2, good_header g (some 0) (.inr rfl), good_body g r h h']
  rfl

theorem reading_state : reading.devState = devBoot ∧ reading.dev.boot = .reading := ⟨by decide +kernel, rfl⟩

/-- The bytes of SMEM that nothing scrubs. -/
theorem smem_bytes (s : State) (a n : Nat) (ha : a < 0x10000000) (hs : s.scrub = []) :
    s.sysBytes a n = sparseGetList (fun _ => 0) s.mem a n := by
  have c : s.sys.cell a = a := by
    have hl : s.sys.localAddr a = a := by
      rw [State.localAddr]
      exact if_neg (by omega)
    rw [State.cell, hl]
    exact if_neg (by omega)
  have f : s.sys.foreign a n false = [] := by
    rw [State.foreign, if_neg (by simp [inDram]; omega)]
  have k : s.sys.scrubbing a n = false := by
    show s.scrub.any _ = false
    rw [hs]; rfl
  rw [State.sysBytes, State.bytes, c, f, k]
  rfl

/-- A HELD device with the profile staged. -/
def staged : State :=
  { set up [(F.SYS_DEVSTATE_DEVSTATE, 0, 0, devHeld), (F.SEC_LIFECYCLE_STATE, 0, 0, 1)] with
    mem := goodCells 0
    chip := { up.chip with otp := goodOtp 0 up.chip.otp }
    dev := { up.dev with load := some { signedLength := some 0x1001, arrived := [(0, 0xC00000)] } } }

/-- The last packet of the load, with no payload. -/
def lastPacket (flags : Nat) : Packet := sealPacket ⟨1, 1⟩ { queue := 0, flags := flags }

theorem staged_passes (t : State) (p : Packet) (hm : t.mem = goodCells 0) (hs : t.scrub = []) (hr : Ready t 0)
    (hl : t.loadRanges = [(0, 0xC00000)]) (hi : t.ihUsed = none) (hf : bitsOf p.flags 7 6 = 0) (h : ∀ k m x, Config.mldsaVerify k m x = true)
    (h' : ∀ k m x, Config.ecdsaVerify k m x = true) : t.stagedFault p { settings := goodSettings } = none := by
  have g0 := good_cells [] 0 (by simp)
  have e (off n : Nat) (ho : off < 0xC00000) : t.stagedImage off n = sparseGetList (fun _ => 0) ([] ++ goodCells 0) (0x400000 + off) n := by
    rw [State.stagedImage, smem_bytes t _ _ (by rw [stagingBase]; omega) hs, hm]; rfl
  have g : Good t.stagedImage 0 :=
    { low := fun off n hn => by
        by_cases ho : off < 0xC00000
        · rw [e off n ho]; exact g0.low off n hn
        · omega
      body := (e _ _ (by decide)).trans g0.body
      sig := (e _ _ (by decide)).trans g0.sig
      sig4 := (e _ _ (by decide)).trans g0.sig4
      slot0 := (e _ _ (by decide)).trans g0.slot0
      slot1 := (e _ _ (by decide)).trans g0.slot1
      key := (e _ _ (by decide)).trans g0.key
      key1 := (e _ _ (by decide)).trans g0.key1
      marker := (e _ _ (by decide)).trans g0.marker }
  have hw : ((State.headerWrite t 0).any (fun x => x.2.1 == 0xFFFFFFFF)) = false := by rw [State.headerWrite, hi]; rfl
  have ho : headerOk t.stagedImage (if p.flags.testBit 4 then some (bitsOf p.flags 7 6) else none) = true :=
    good_header g _ (by rw [hf]; split <;> simp)
  rw [State.stagedFault]
  simp only [hl, good_signed g, good_sigBlock g, good_body g hr h h']
  rw [ho, hf, hw, Bool.and_false]
  decide


/-- What checking a staged profile reads beside registers. -/
def kept (s : State) : List Host.Cell × List Nat × List Host.Cell × Chip × Dev := (s.mem, s.scrub, s.flash, s.chip, s.dev)

theorem accept_kept (s : State) (n : Nat) : kept (s.acceptFn n) = kept s := by
  rw [State.acceptFn]
  split
  · rw [State.setFn]
    repeat' split
    all_goals rfl
  · rfl

theorem pieces_kept (ps : List (Nat × Nat)) (s : State) (i : Nat) : kept (s.chargePieces i ps) = kept s := by
  induction ps generalizing s with
  | nil => rfl
  | cons e l ih =>
    refine (ih (s.charge i e.1 e.2)).trans ?_
    rw [State.charge]
    repeat' split
    all_goals rfl

/-- R92: reading a packet's slots leaves memory, flash and the package. -/
theorem consume_kept (s : State) (p : Packet) : kept (s.consume p) = kept s := pieces_kept _ s _

/-- Entering the operation table leaves memory, flash and the package. -/
theorem entered_kept (s : State) (r : Rule) (p : Packet) (n : Nat) (h : r.fn = some (n, none)) : kept (s.entered r p) = kept s := by
  have c (t : State) (q m : Nat) : kept (t.countOps q m) = kept t := by rw [State.countOps]; split <;> rfl
  have w (t : State) : kept (t.acceptWork r p) = kept t := by
    have q (t : State) : kept (if t.fld F.CMDQ_QCFG_TRANSPORT p.queue = 0 then t.acceptFn fnPcie
        else if t.fld F.CMDQ_QCFG_TRANSPORT p.queue = 2 then t.acceptFn fnEth else t) = kept t := by
      repeat' split
      all_goals first | exact accept_kept _ _ | rfl
    rw [State.acceptWork, h]
    exact (accept_kept _ _).trans (q _)
  rw [State.entered]
  exact ((show kept (State.keyed _ _) = kept _ from rfl).trans (w _)).trans ((c _ _ _).trans (consume_kept s p))

theorem staged_settings :
    ((staged.entered (loadProfileRule (lastPacket 4) staged) (lastPacket 4)).loaded 0 goodSettings).settingsFault (bytesAt goodHeader) goodSettings = none := by
  decide +kernel

/-- Two packets of the same queue, partition and length, whose flights are the same, enter alike. -/
theorem entered_congr (s : State) (r : Rule) (p q : Packet) (h1 : p.queue = q.queue) (h2 : p.partition = q.partition) (h3 : pSlots p = pSlots q)
    (h4 : ∀ id, newFlight id r p = newFlight id r q) : s.entered r p = s.entered r q := by
  have a (t : State) : t.launch r p = t.launch r q := by rw [State.launch, State.launch, h4]
  have b (t : State) : t.acceptWork r p = t.acceptWork r q := by rw [State.acceptWork, State.acceptWork, h1]
  rw [State.entered, State.entered, State.consume, State.consume, a, b, h1, h2, h3]

theorem entered_same (f : Nat) (hf : f ∈ [4, 0x14, 0x24]) : staged.entered (loadProfileRule (lastPacket f) staged) (lastPacket f) =
    staged.entered (loadProfileRule (lastPacket 4) staged) (lastPacket 4) := by
  have hr : loadProfileRule (lastPacket f) staged = loadProfileRule (lastPacket 4) staged := by rw [loadProfileRule, loadProfileRule]; rfl
  rw [hr]
  refine entered_congr _ _ _ _ rfl rfl rfl (fun id => ?_)
  simp only [List.mem_cons, List.not_mem_nil, or_false] at hf
  rcases hf with rfl | rfl | rfl <;> rfl

theorem staged_starts : ∀ f ∈ [4, 0x14, 0x24],
    (staged.entered (loadProfileRule (lastPacket f) staged) (lastPacket f)).flag F.SEC_LIFECYCLE_STATE = true ∧
    staged.starts (loadProfileRule (lastPacket f) staged) (lastPacket f) = true := by decide +kernel

/-- R33: the staged profile passes. -/
theorem staged_ready (f : Nat) (hf : f ∈ [4, 0x14, 0x24]) (h : ∀ k m x, Config.mldsaVerify k m x = true)
    (h' : ∀ k m x, Config.ecdsaVerify k m x = true) :
    ((staged.entered (loadProfileRule (lastPacket f) staged) (lastPacket f)).stage (lastPacket f).target (lastPacket f).payload).stagedFault
      (lastPacket f) { settings := goodSettings } = none := by
  have hq := (staged_starts f hf).1
  have hs : ((staged.entered (loadProfileRule (lastPacket f) staged) (lastPacket f)).loaded 0 goodSettings).settingsFault (bytesAt goodHeader)
      goodSettings = none := by
    rw [entered_same f hf]; exact staged_settings
  have hb : bitsOf (lastPacket f).flags 7 6 = 0 := (show ∀ f ∈ [4, 0x14, 0x24], bitsOf f 7 6 = 0 by decide) f hf
  have e := entered_kept staged (loadProfileRule (lastPacket f) staged) (lastPacket f) _ rfl
  rw [show (lastPacket f).payload = [] from rfl]
  generalize staged.entered (loadProfileRule (lastPacket f) staged) (lastPacket f) = t at *
  obtain ⟨h1, h2, h3, h4, h5⟩ : t.mem = staged.mem ∧ t.scrub = staged.scrub ∧ t.flash = staged.flash ∧ t.chip = staged.chip ∧ t.dev = staged.dev := by
    simpa only [kept, Prod.mk.injEq] using e
  refine staged_passes t _ h1 h2 ⟨hq, by rw [h4]; rfl, by rw [h4]; rfl, by rw [h4]; decide +kernel, hs⟩ (by rw [State.loadRanges, h5]; rfl) ?_ hb h h'
  rw [State.ihUsed, State.ihCopy, State.ihCopy, State.flashBytes, State.flashBytes, h3]
  decide +kernel

/-! A witness for the hypotheses of each statement, clause by clause. -/

/-- ResetCommands. -/
theorem wit_ResetCommands :
    (∃ (s : State), s.dev.railsValid = true) ∧
    (∃ (s : State), s.regsWf ∧ s.devState = devCold ∧ s.dev.porstN = false) ∧
    (∃ (s : State) (n : Nat), s.dev.thermTrip = false ∧ n < 24) :=
  ⟨⟨blank, by decide +kernel⟩,
   ⟨{ blank with dev := { blank.dev with porstN := false } }, by decide +kernel⟩,
   ⟨blank, 23, by decide +kernel⟩⟩

/-- BootCommands. -/
theorem wit_BootCommands :
    (∃ (s : State), s.regsWf ∧ s.devState = devBoot ∧ s.dev.boot = .qualifying ∧ s.srcReady 0 = false) ∧
    (∃ (s : State), s.regsWf ∧ s.devState = devHeld ∧ s.fld F.SYS_BOOTSTAT_CAUSE = 0x13 ∧ s.srcReady 0 = false) ∧
    (∃ (s : State) (r : Reading) (c : Nat) (n : Nat) (k : Nat), s.devState = devBoot ∧ s.dev.boot = .reading ∧ s.slotFault s.dev.slot r = some (c, n, k)) ∧
    ((∀ k m g, Config.mldsaVerify k m g = true) → (∀ k m g, Config.ecdsaVerify k m g = true) → ∃ (s : State) (r : Reading), s.devState = devBoot ∧ s.dev.boot = .reading ∧ s.slotFault s.dev.slot r = none) :=
  ⟨⟨(set blank [(F.SYS_DEVSTATE_DEVSTATE, 0, 0, devBoot)]), by decide +kernel⟩,
   ⟨(set blank [(F.SYS_DEVSTATE_DEVSTATE, 0, 0, devHeld), (F.SYS_BOOTSTAT_CAUSE, 0, 0, 0x13)]), by decide +kernel⟩,
   ⟨{ (set blank [(F.SYS_DEVSTATE_DEVSTATE, 0, 0, devBoot)]) with dev := { blank.dev with boot := .reading } }, {}, 1, 2, 0, by decide +kernel⟩,
   (fun h h' => ⟨reading, { settings := goodSettings }, reading_state.1, reading_state.2, reading_passes h h'⟩)⟩

/-- ProfilePackets. -/
theorem wit_ProfilePackets :
    (∃ (s : State) (p : Packet), s.starts (loadProfileRule p s) p = true ∧ pLast p = false) ∧
    (∃ (s : State) (p : Packet) (r : Reading) (c : _) (n : _) (k : _), s.starts (loadProfileRule p s) p = true ∧ pLast p = true ∧ ((s.entered (loadProfileRule p s) p).stage p.target p.payload).stagedFault p r = some (c, n, k)) ∧
    ((∀ k m g, Config.mldsaVerify k m g = true) → (∀ k m g, Config.ecdsaVerify k m g = true) → ∃ (s : State) (p : Packet) (r : Reading), s.starts (loadProfileRule p s) p = true ∧ pLast p = true ∧ ((s.entered (loadProfileRule p s) p).stage p.target p.payload).stagedFault p r = none ∧ p.flags.testBit 4 = true) ∧
    ((∀ k m g, Config.mldsaVerify k m g = true) → (∀ k m g, Config.ecdsaVerify k m g = true) → ∃ (s : State) (p : Packet) (r : Reading), s.starts (loadProfileRule p s) p = true ∧ pLast p = true ∧ ((s.entered (loadProfileRule p s) p).stage p.target p.payload).stagedFault p r = none ∧ p.flags.testBit 4 = false ∧ p.flags.testBit 5 = true) ∧
    ((∀ k m g, Config.mldsaVerify k m g = true) → (∀ k m g, Config.ecdsaVerify k m g = true) → ∃ (s : State) (p : Packet) (r : Reading), s.starts (loadProfileRule p s) p = true ∧ pLast p = true ∧ ((s.entered (loadProfileRule p s) p).stage p.target p.payload).stagedFault p r = none ∧ p.flags.testBit 4 = false ∧ p.flags.testBit 5 = false) ∧
    (∃ (s : State) (id : Nat) (slot : Nat) (flags : Nat) (x : Settings) (t : State), t = { s with dev := { s.dev with flashWrite := none } } ∧ s.dev.flashWrite = some (id, slot, flags, x) ∧ flags.testBit 5 = false) ∧
    (∃ (s : State) (id : Nat) (slot : Nat) (flags : Nat) (x : Settings) (t : State), t = { s with dev := { s.dev with flashWrite := none } } ∧ s.dev.flashWrite = some (id, slot, flags, x) ∧ flags.testBit 5 = true) ∧
    (∃ (s : State) (p : Packet) (ok : Bool), s.starts (selectProfileRule p) p = true ∧ (s.entered (selectProfileRule p) p).selectFault (bitsOf p.flags 7 6) ok = 0) ∧
    (∃ (s : State) (p : Packet) (ok : Bool) (c : _), s.starts (selectProfileRule p) p = true ∧ (s.entered (selectProfileRule p) p).selectFault (bitsOf p.flags 7 6) ok = c ∧ c ≠ 0) ∧
    (∃ (s : State) (p : Packet), s.starts (warmResetRule p) p = true) :=
  ⟨⟨(set up [(F.SYS_DEVSTATE_DEVSTATE, 0, 0, devHeld)]), sealPacket ⟨1, 1⟩ { queue := 0 }, by decide +kernel⟩,
   ⟨(set up [(F.SYS_DEVSTATE_DEVSTATE, 0, 0, devHeld)]), sealPacket ⟨1, 1⟩ { queue := 0, flags := 4 }, {}, 0x14, 0, 0, by decide +kernel⟩,
   (fun h h' => ⟨staged, lastPacket 0x14, _, (staged_starts _ (by decide)).2, by decide, staged_ready _ (by decide) h h', by decide⟩),
   (fun h h' => ⟨staged, lastPacket 0x24, _, (staged_starts _ (by decide)).2, by decide, staged_ready _ (by decide) h h', by decide⟩),
   (fun h h' => ⟨staged, lastPacket 4, _, (staged_starts _ (by decide)).2, by decide, staged_ready _ (by decide) h h', by decide⟩),
   ⟨{ up with dev := { up.dev with flashWrite := some (0, 1, 0x10, {}) } }, 0, 1, 0x10, {}, _, rfl, by decide +kernel⟩,
   ⟨{ up with dev := { up.dev with flashWrite := some (0, 1, 0x30, {}) } }, 0, 1, 0x30, {}, _, rfl, by decide +kernel⟩,
   ⟨flashed, sealPacket ⟨1, 2⟩ { queue := 0, flags := 0xC0 }, true, by decide +kernel⟩,
   ⟨up, sealPacket ⟨1, 2⟩ { queue := 0 }, true, 1, by decide +kernel⟩,
   ⟨up, sealPacket ⟨1, 3⟩ { queue := 0 }, by decide +kernel⟩⟩

/-- FunctionStarts. -/
theorem wit_FunctionStarts :
    (∃ (s : State) (fn : Nat) (unit : Nat) (t : State), t = { s with dev := { s.dev with begun := s.dev.begun ++ [(fn, unit)] } } ∧ s.target fn unit = stStarting ∧ s.prereqsMet fn unit = true ∧ s.dev.begun.contains (fn, unit) = false ∧ s.rcoscHolds fn = false ∧ unit ≠ whole) ∧
    (∃ (s : State) (fn : Nat) (unit : Nat) (t : State), t = { s with dev := { s.dev with begun := s.dev.begun ++ [(fn, unit)] } } ∧ s.target fn unit = stStarting ∧ s.prereqsMet fn unit = true ∧ s.dev.begun.contains (fn, unit) = false ∧ s.rcoscHolds fn = false ∧ unit = whole) ∧
    (∃ (s : State) (fn : Nat), fn < 17 ∧ s.fnState fn = stStopped ∧ s.dev.restart.contains fn = true) ∧
    (∃ (s : State) (fn : Nat) (unit : Nat), s.target fn unit = stStarting ∧ s.dev.begun.contains (fn, unit) = true ∧ s.repairWaits fn unit = false ∧ ((fn = fnGlk → s.glkReady = true)) ∧ unit ≠ whole ∧ s.dev.stopAfterStart.contains (fn, unit) = false) ∧
    (∃ (s : State) (fn : Nat) (unit : Nat), s.target fn unit = stStarting ∧ s.dev.begun.contains (fn, unit) = true ∧ s.repairWaits fn unit = false ∧ ((fn = fnGlk → s.glkReady = true)) ∧ unit ≠ whole ∧ s.dev.stopAfterStart.contains (fn, unit) = true) ∧
    (∃ (s : State) (fn : Nat) (unit : Nat), s.target fn unit = stStarting ∧ s.dev.begun.contains (fn, unit) = true ∧ s.repairWaits fn unit = false ∧ ((fn = fnGlk → s.glkReady = true)) ∧ unit = whole ∧ s.dev.stopAfterStart.contains (fn, unit) = false) ∧
    (∃ (s : State) (fn : Nat) (unit : Nat), s.target fn unit = stStarting ∧ s.dev.begun.contains (fn, unit) = true ∧ s.repairWaits fn unit = false ∧ ((fn = fnGlk → s.glkReady = true)) ∧ unit = whole ∧ s.dev.stopAfterStart.contains (fn, unit) = true) ∧
    (∃ (s : State) (fn : Nat) (unit : Nat), s.target fn unit = stStarting ∧ s.dev.begun.contains (fn, unit) = true ∧ unit ≠ whole ∧ fn ≠ fnMot) ∧
    (∃ (s : State) (fn : Nat) (unit : Nat), s.target fn unit = stStarting ∧ s.dev.begun.contains (fn, unit) = true ∧ unit ≠ whole ∧ fn = fnMot) :=
  ⟨⟨set up [(F.CAM_RXSTAT_STATE, 2, 0, stStarting)], fnCam, 2, _, rfl, by decide +kernel⟩,
   ⟨set up [(F.SYS_FNSTATE0_ME, 0, 0, stStarting)], fnMe, whole, _, rfl, by decide +kernel⟩,
   ⟨{ set up [(F.SYS_FNSTATE0_ME, 0, 0, stStopped)] with dev := { up.dev with restart := [fnMe] } }, fnMe, by decide +kernel⟩,
   ⟨{ (set up [(F.CAM_RXSTAT_STATE, 2, 0, stStarting)]) with dev := { up.dev with begun := [(fnCam, 2)] } }, fnCam, 2, by decide +kernel⟩,
   ⟨{ (set up [(F.CAM_RXSTAT_STATE, 2, 0, stStarting)]) with dev := { up.dev with begun := [(fnCam, 2)], stopAfterStart := [(fnCam, 2)] } }, fnCam, 2, by decide +kernel⟩,
   ⟨{ (set up [(F.SYS_FNSTATE0_ME, 0, 0, stStarting)]) with dev := { up.dev with begun := [(fnMe, whole)] } }, fnMe, whole, by decide +kernel⟩,
   ⟨{ (set up [(F.SYS_FNSTATE0_ME, 0, 0, stStarting)]) with dev := { up.dev with begun := [(fnMe, whole)], stopAfterStart := [(fnMe, whole)] } }, fnMe, whole, by decide +kernel⟩,
   ⟨{ set up [(F.CAM_RXSTAT_STATE, 2, 0, stStarting)] with dev := { up.dev with begun := [(fnCam, 2)] } }, fnCam, 2, by decide +kernel⟩,
   ⟨{ set up [(F.MOT_AXSTATE_STATE, 15, 0, stStarting)] with dev := { up.dev with begun := [(fnMot, 15)] } }, fnMot, 15, by decide +kernel⟩⟩

/-- FunctionStops. -/
theorem wit_FunctionStops :
    (∃ (s : State) (p : Packet), s.starts (fnRule 0x10 p) p = true) ∧
    (∃ (s : State) (p : Packet), s.starts (fnRule 0x11 p) p = true) ∧
    (∃ (s : State) (w : RegWrite), s.p0 w.initiator = true ∧ s.gated .SYS = false ∧ bitsOf w.value 20 16 ≤ 16) ∧
    (∃ (s : State) (fn : Nat) (unit : Nat), s.target fn unit = stDraining ∧ s.busy fn unit = false) ∧
    (∃ (s : State) (fn : Nat) (unit : Nat), s.target fn unit = stDraining ∧ unit ≠ whole) ∧
    (∃ (s : State) (fn : Nat) (unit : Nat), s.target fn unit = stDraining ∧ unit = whole) :=
  ⟨⟨up, sealPacket ⟨1, 0x10⟩ { queue := 0, target := 6 }, by decide +kernel⟩,
   ⟨(set up [(F.SYS_FNSTATE0_ME, 0, 0, stStopped)]), sealPacket ⟨1, 0x11⟩ { queue := 0, target := 6 }, by decide +kernel⟩,
   ⟨up, wr 0x100000, by decide +kernel⟩,
   ⟨(set up [(F.SYS_FNSTATE0_ME, 0, 0, stDraining)]), fnMe, whole, by decide +kernel⟩,
   ⟨(set up [(F.CAM_RXSTAT_STATE, 2, 0, stDraining)]), fnCam, 2, by decide +kernel⟩,
   ⟨(set up [(F.SYS_FNSTATE0_ME, 0, 0, stDraining)]), fnMe, whole, by decide +kernel⟩⟩

/-- ClockCommands. -/
theorem wit_ClockCommands :
    (∃ (s : State) (m : ClockTrip), s.monitored m = true ∧ s.devState ≠ devCold ∧ s.tripSource m = s.active) ∧
    (∃ (s : State) (m : ClockTrip), s.monitored m = true ∧ s.devState ≠ devCold ∧ s.tripSource m ≠ s.active) ∧
    (∃ (s : State), s.regsWf ∧ s.flag F.CLK_NETREF_EN = true ∧ s.srcReady 0 = true) ∧
    (∃ (s : State) (t : State), t = (s.putFld F.CLK_STATUS_SWITCHING 0).putFld F.CLK_STATUS_PLL_LOCK 1 ∧ s.regsWf ∧ s.flag F.CLK_STATUS_SWITCHING = true ∧ s.active = 2) ∧
    (∃ (s : State) (t : State), t = (s.putFld F.CLK_STATUS_SWITCHING 0).putFld F.CLK_STATUS_PLL_LOCK 1 ∧ s.regsWf ∧ s.flag F.CLK_STATUS_SWITCHING = true ∧ s.active ≠ 2 ∧ s.clk.softwareSwitch = false) ∧
    (∃ (s : State) (t : State), t = (s.putFld F.CLK_STATUS_SWITCHING 0).putFld F.CLK_STATUS_PLL_LOCK 1 ∧ s.regsWf ∧ s.flag F.CLK_STATUS_SWITCHING = true ∧ s.active ≠ 2 ∧ s.clk.softwareSwitch = true) ∧
    (∃ (s : State) (w : RegWrite), s.regsWf ∧ s.p0 w.initiator = true ∧ s.gated .CLK = false ∧ w.value % 4 ≠ 3 ∧ s.flag F.CLK_STATUS_SWITCHING = true) ∧
    (∃ (s : State) (w : RegWrite), s.regsWf ∧ s.p0 w.initiator = true ∧ s.gated .CLK = false ∧ w.value % 4 ≠ 3 ∧ s.flag F.CLK_STATUS_SWITCHING = false ∧ s.srcReady (w.value % 4) = false) ∧
    (∃ (s : State) (w : RegWrite), s.regsWf ∧ s.p0 w.initiator = true ∧ s.gated .CLK = false ∧ w.value % 4 ≠ 3 ∧ s.flag F.CLK_STATUS_SWITCHING = false ∧ s.srcReady (w.value % 4) = true ∧ w.value % 4 ≠ 2) ∧
    (∃ (s : State) (w : RegWrite), s.regsWf ∧ s.p0 w.initiator = true ∧ s.gated .CLK = false ∧ s.active = 1) :=
  ⟨⟨up, .refMissing, by decide +kernel⟩,
   ⟨(set up [(F.CLK_STATUS_ACTIVE, 0, 0, 2)]), .refMissing, by decide +kernel⟩,
   ⟨(set up [(F.CLK_NETREF_EN, 0, 0, 1)]), by decide +kernel⟩,
   ⟨set up [(F.CLK_STATUS_SWITCHING, 0, 0, 1), (F.CLK_STATUS_ACTIVE, 0, 0, 2)], _, rfl, by decide +kernel⟩,
   ⟨set up [(F.CLK_STATUS_SWITCHING, 0, 0, 1)], _, rfl, by decide +kernel⟩,
   ⟨{ set up [(F.CLK_STATUS_SWITCHING, 0, 0, 1)] with clk := { up.clk with softwareSwitch := true } }, _, rfl, by decide +kernel⟩,
   ⟨(set up [(F.CLK_STATUS_SWITCHING, 0, 0, 1)]), wr 1, by decide +kernel⟩,
   ⟨up, wr 1, by decide +kernel⟩,
   ⟨up, wr 0, by decide +kernel⟩,
   ⟨(set up [(F.CLK_STATUS_ACTIVE, 0, 0, 1)]), wr 0x12345, by decide +kernel⟩⟩

/-- GateCommands. -/
theorem wit_GateCommands :
    (∃ (s : State) (k : Nat) (w : RegWrite) (ask : Nat), ask = (w.value ||| gateFixed k) &&& gateMask k ∧ s.regsWf ∧ k < 3 ∧ s.p0 w.initiator = true ∧ s.gated .CLK = false ∧ (∀ n, n < 17 → (s.reg (gateReg k)).testBit n = true → ask.testBit n = true ∨ s.mayGate k n = true)) ∧
    (∃ (s : State) (k : Nat) (w : RegWrite) (ask : Nat) (n : _), ask = (w.value ||| gateFixed k) &&& gateMask k ∧ s.regsWf ∧ k < 3 ∧ s.p0 w.initiator = true ∧ s.gated .CLK = false ∧ n < 17 ∧ (s.reg (gateReg k)).testBit n = true ∧ ask.testBit n = false ∧ s.mayGate k n = false) ∧
    (∃ (s : State) (a : Nat) (i : Nat), a % 4 = 0 ∧ s.blockHere a = true ∧ (s.readAt a i).1 = true ∧ (blockOf a).any s.gated = true) ∧
    (∃ (s : State) (a : Nat) (i : Nat), a % 4 = 0 ∧ s.blockHere a = true ∧ (s.readAt a i).1 = true ∧ (blockOf a).any s.gated = false) ∧
    (∃ (s : State) (a : Nat) (i : Nat), (a % 4 ≠ 0 ∨ s.blockHere a = false ∨ (s.readAt a i).1 = false)) ∧
    (∃ (s : State) (i : Nat) (a : Nat) (t : _), t = s.gatedRead i a ∧ s.regsWf ∧ s.flag F.CLK_FLAGS_GATED_READ = false) ∧
    (∃ (s : State) (i : Nat) (a : Nat) (t : _), t = s.gatedRead i a ∧ s.regsWf ∧ s.flag F.CLK_FLAGS_GATED_READ = true) ∧
    (∃ (s : State) (n : Nat) (w : RegWrite), s.regsWf ∧ n < 8 ∧ s.debugLocked w.initiator = false ∧ s.gated .CLK = false ∧ s.flag F.CLK_SENSCTL_EN n = true ∧ w.value.testBit 31 = false) ∧
    (∃ (s : State) (n : Nat) (w : RegWrite), s.regsWf ∧ n < 8 ∧ s.debugLocked w.initiator = false ∧ s.gated .CLK = false ∧ s.flag F.CLK_SENSCTL_EN n = true ∧ w.value.testBit 31 = true) ∧
    (∃ (s : State) (n : Nat) (w : RegWrite) (t : State), t = (s.putFld F.CLK_SENSCTL_DEPTH (bitsOf w.value 20 16) n).putFld F.CLK_SENSCTL_RATE_KHZ (bitsOf w.value 6 0) n ∧ s.regsWf ∧ n < 8 ∧ s.debugLocked w.initiator = false ∧ s.gated .CLK = false ∧ s.flag F.CLK_SENSCTL_EN n = false ∧ w.value.testBit 31 = false) ∧
    (∃ (s : State) (n : Nat) (w : RegWrite) (t : State), t = (s.putFld F.CLK_SENSCTL_DEPTH (bitsOf w.value 20 16) n).putFld F.CLK_SENSCTL_RATE_KHZ (bitsOf w.value 6 0) n ∧ s.regsWf ∧ n < 8 ∧ s.debugLocked w.initiator = false ∧ s.gated .CLK = false ∧ s.flag F.CLK_SENSCTL_EN n = false ∧ w.value.testBit 31 = true ∧ 6000000 ≤ s.fld F.CLK_SENSFREQ_FREQ_HZ n ∧ s.fld F.CLK_SENSFREQ_FREQ_HZ n ≤ 54000000 ∧ bitsOf w.value 20 16 ≤ 20 ∧ 10 ≤ bitsOf w.value 6 0 ∧ bitsOf w.value 6 0 ≤ 100) ∧
    (∃ (s : State) (n : Nat) (w : RegWrite) (t : State), t = (s.putFld F.CLK_SENSCTL_DEPTH (bitsOf w.value 20 16) n).putFld F.CLK_SENSCTL_RATE_KHZ (bitsOf w.value 6 0) n ∧ s.regsWf ∧ n < 8 ∧ s.debugLocked w.initiator = false ∧ s.gated .CLK = false ∧ s.flag F.CLK_SENSCTL_EN n = false ∧ w.value.testBit 31 = true ∧ (s.fld F.CLK_SENSFREQ_FREQ_HZ n < 6000000 ∨ 54000000 < s.fld F.CLK_SENSFREQ_FREQ_HZ n ∨ 20 < bitsOf w.value 20 16 ∨ bitsOf w.value 6 0 < 10 ∨ 100 < bitsOf w.value 6 0)) :=
  ⟨⟨up, 2, wr 0xFF, _, rfl, by decide +kernel, by decide +kernel, by decide +kernel, by decide +kernel, (by intro n h _; exact .inr (by interval_cases n <;> decide +kernel))⟩,
   ⟨up, 0, wr 0, _, 16, rfl, by decide +kernel⟩,
   ⟨blank, Block.base .CAM, 0, by decide +kernel⟩,
   ⟨up, Block.base .CAM, 0, by decide +kernel⟩,
   ⟨up, 2, 0, by decide +kernel⟩,
   ⟨up, 1023, 0, _, rfl, by decide +kernel⟩,
   ⟨set up [(F.CLK_FLAGS_GATED_READ, 0, 0, 1)], 1, 0, _, rfl, by decide +kernel⟩,
   ⟨(set up [(F.CLK_SENSCTL_EN, 7, 0, 1)]), 7, wr 0, by decide +kernel⟩,
   ⟨(set up [(F.CLK_SENSCTL_EN, 7, 0, 1)]), 7, wr 0x80000000, by decide +kernel⟩,
   ⟨up, 0, wr 0x100064, _, rfl, by decide +kernel⟩,
   ⟨(set up [(F.CLK_SENSFREQ_FREQ_HZ, 7, 0, 54000000)]), 7, wr 0x80140064, _, rfl, by decide +kernel⟩,
   ⟨(set up [(F.CLK_SENSFREQ_FREQ_HZ, 0, 0, 6000000)]), 0, wr 0x80150064, _, rfl, by decide +kernel⟩⟩

/-- PowerCommands. -/
theorem wit_PowerCommands :
    (∃ (s : State), s.fld F.PWR_STATUS_CORE_DIV ≠ 0 ∧ s.flag F.PWR_STATUS_PMBUS_LOST = true) ∧
    (∃ (s : State), s.fld F.PWR_STATUS_CORE_DIV ≠ 0 ∧ s.flag F.PWR_STATUS_PMBUS_LOST = false) ∧
    (∃ (s : State), s.regsWf ∧ s.flag F.PWR_STATUS_PMBUS_LOST = false) ∧
    (∃ (s : State), s.regsWf ∧ 100 ≤ s.clk.overMs ∧ s.fld F.PWR_STATUS_CAP_STATE ≠ 2) ∧
    (∃ (s : State) (busy : Nat) (u : State), u = ((((s.noteGuard (loadBand busy)).putFld F.PWR_STATUS_BAND (loadBand busy)).showGuard.bandTime (loadBand busy) 10).windowOut (loadBand busy)) ∧ s.fld F.PWR_STATUS_CORE_DIV ≠ 0 ∧ (u.fld F.PWR_VCORE_TARGET_MV : Int) < u.wantMv) ∧
    (Config.vcalMv 4 ≤ 875 → ∃ (s : State) (busy : Nat) (u : State), u = ((((s.noteGuard (loadBand busy)).putFld F.PWR_STATUS_BAND (loadBand busy)).showGuard.bandTime (loadBand busy) 10).windowOut (loadBand busy)) ∧ s.fld F.PWR_STATUS_CORE_DIV ≠ 0 ∧ u.wantMv ≤ (u.fld F.PWR_VCORE_TARGET_MV : Int)) ∧
    (∃ (s : State) (b : Nat), b < 4 ∧ s.flag F.PWR_BAND_MEASURED b = false ∧ 2000 ≤ s.clk.bandUs.getD b 0) ∧
    (∃ (s : State) (w : RegWrite), s.p0 w.initiator = true ∧ s.gated .PWR = false) ∧
    (∃ (s : State) (mv : Nat), s.fld F.PWR_DROOP_CFG_THRESH_MV < mv) ∧
    (∃ (s : State), s.regsWf ∧ s.clk.droop = true) ∧
    (∃ (s : State) (t : State) (n : Nat) (tj : Nat) (limit : Int), limit = (8 * s.fld F.PWR_TLIMITS_THROTTLE_C : Int) ∧ t = s.showTemp n tj ∧ s.flag F.PWR_STATUS_THROTTLE = true ∧ limit - 24 ≤ signedOf 12 tj) ∧
    (∃ (s : State) (t : State) (n : Nat) (tj : Nat) (limit : Int), limit = (8 * s.fld F.PWR_TLIMITS_THROTTLE_C : Int) ∧ t = s.showTemp n tj ∧ s.flag F.PWR_STATUS_THROTTLE = false ∧ limit ≤ signedOf 12 tj) ∧
    (∃ (s : State) (t : State) (n : Nat) (tj : Nat) (limit : Int), limit = (8 * s.fld F.PWR_TLIMITS_THROTTLE_C : Int) ∧ t = s.showTemp n tj ∧ s.flag F.PWR_STATUS_THROTTLE = true ∧ signedOf 12 tj < limit - 24) ∧
    (∃ (s : State) (t : State) (n : Nat) (tj : Nat) (limit : Int), limit = (8 * s.fld F.PWR_TLIMITS_THROTTLE_C : Int) ∧ t = s.showTemp n tj ∧ s.flag F.PWR_STATUS_THROTTLE = false ∧ signedOf 12 tj < limit) :=
  ⟨⟨(set up [(F.PWR_STATUS_PMBUS_LOST, 0, 0, 1)]), by decide +kernel⟩,
   ⟨up, by decide +kernel⟩,
   ⟨up, by decide +kernel⟩,
   ⟨{ up with clk := { up.clk with overMs := 100 } }, by decide +kernel⟩,
   ⟨up, 100, _, rfl, by decide +kernel, by rw [want_of _ 3 4 25 (by decide +kernel) (by decide +kernel) (by decide +kernel), show ((((up.noteGuard (loadBand 100)).putFld F.PWR_STATUS_BAND (loadBand 100)).showGuard.bandTime (loadBand 100) 10).windowOut (loadBand 100)).fld F.PWR_VCORE_TARGET_MV = 0 from by decide +kernel]; omega⟩,
   fun h => ⟨set up [(F.PWR_VCORE_TARGET_MV, 0, 0, 900)], 100, _, rfl, by decide +kernel, by rw [want_of _ 3 4 25 (by decide +kernel) (by decide +kernel) (by decide +kernel), show (((((set up [(F.PWR_VCORE_TARGET_MV, 0, 0, 900)]).noteGuard (loadBand 100)).putFld F.PWR_STATUS_BAND (loadBand 100)).showGuard.bandTime (loadBand 100) 10).windowOut (loadBand 100)).fld F.PWR_VCORE_TARGET_MV = 900 from by decide +kernel]; omega⟩,
   ⟨{ up with clk := { up.clk with bandUs := [0, 0, 0, 2000] } }, 3, by decide +kernel⟩,
   ⟨up, wr 1, by decide +kernel⟩,
   ⟨(set up [(F.PWR_DROOP_CFG_THRESH_MV, 0, 0, 20)]), 21, by decide +kernel⟩,
   ⟨{ up with clk := { up.clk with droop := true } }, by decide +kernel⟩,
   ⟨(set up [(F.PWR_TLIMITS_THROTTLE_C, 0, 0, 105), (F.PWR_STATUS_THROTTLE, 0, 0, 1)]), _, 23, 816, _, rfl, rfl, by decide +kernel⟩,
   ⟨(set up [(F.PWR_TLIMITS_THROTTLE_C, 0, 0, 105)]), _, 0, 840, _, rfl, rfl, by decide +kernel⟩,
   ⟨(set up [(F.PWR_TLIMITS_THROTTLE_C, 0, 0, 105), (F.PWR_STATUS_THROTTLE, 0, 0, 1)]), _, 0, 815, _, rfl, rfl, by decide +kernel⟩,
   ⟨(set up [(F.PWR_TLIMITS_THROTTLE_C, 0, 0, 105)]), _, 0, 839, _, rfl, rfl, by decide +kernel⟩⟩

/-- QueueRegisterCommands. -/
theorem wit_QueueRegisterCommands :
    (∃ (s : State) (q : Nat) (w : RegWrite), s.regsWf ∧ q < 8192 ∧ s.ofPart w.initiator (s.qPart q) = false) ∧
    (∃ (s : State) (q : Nat) (w : RegWrite), s.regsWf ∧ q < 8192 ∧ s.ofPart w.initiator (s.qPart q) = true ∧ s.qState q ≠ stRunning) ∧
    (∃ (s : State) (q : Nat) (w : RegWrite), s.regsWf ∧ q < 8192 ∧ s.ofPart w.initiator (s.qPart q) = true ∧ s.qState q = stRunning ∧ 2 ^ s.fld F.CMDQ_QCFG_SQ_LOG2 q < (w.value % 2 ^ 32 + 2 ^ 32 - s.reg .CMDQ_QHEAD q) % 2 ^ 32) ∧
    (∃ (s : State) (q : Nat) (w : RegWrite) (r : Reg) (i : _) (j : _), s.regsWf ∧ q < 8192 ∧ s.ofPart w.initiator (s.qPart q) = true ∧ s.qState q = stRunning ∧ (w.value % 2 ^ 32 + 2 ^ 32 - s.reg .CMDQ_QHEAD q) % 2 ^ 32 ≤ 2 ^ s.fld F.CMDQ_QCFG_SQ_LOG2 q ∧ (¬(r = .CMDQ_QTAIL ∧ i = q ∧ j = 0))) ∧
    (∃ (s : State) (t : State) (q : Nat) (w : RegWrite), t = (if s.p0 w.initiator then s.setReg .CMDQ_QCFG (2 ^ 31 * s.fld F.CMDQ_QCFG_EN q + w.value % 2 ^ 31) q else s) ∧ q < 8192 ∧ s.ofPart w.initiator (s.qPart q) = true ∧ s.regStopped .CMDQ_QCFG q = false ∧ s.qState q ≠ stDraining ∧ s.qState q ≠ stFault) ∧
    (∃ (s : State) (t : State) (q : Nat) (w : RegWrite), t = (if s.p0 w.initiator then s.setReg .CMDQ_QCFG (2 ^ 31 * s.fld F.CMDQ_QCFG_EN q + w.value % 2 ^ 31) q else s) ∧ q < 8192 ∧ s.ofPart w.initiator (s.qPart q) = true ∧ s.regStopped .CMDQ_QCFG q = false ∧ (s.qState q = stDraining ∨ s.qState q = stFault)) ∧
    (∃ (s : State) (q : Nat) (m : Nat) (w : RegWrite), m = (if s.p0 w.initiator then 2 ^ 32 - 1 else 2 ^ 31) ∧ q < 8192 ∧ s.ofPart w.initiator (s.qPart q) = true ∧ s.regStopped .CMDQ_QCFG q = true) ∧
    (∃ (s : State) (q : Nat) (w : RegWrite), s.regsWf ∧ q < 8192 ∧ s.ofPart w.initiator (s.qPart q) = true ∧ s.p0 w.initiator = false ∧ s.qState q = stOff) ∧
    (∃ (s : State) (t : State) (q : Nat), t = s.putFld F.CMDQ_QSTAT_STATE stOff q ∧ s.qState q = stDraining ∧ s.queueEmpty q = true ∧ s.regsWf) ∧
    (∃ (s : State) (t : State) (q : Nat), t = s.putFld F.CMDQ_QSTAT_STATE stOff q ∧ s.qState q = stDraining ∧ s.queueEmpty q = true ∧ t.ctxOf (t.qPart q) q = none) ∧
    (∃ (s : State) (t : State) (q : Nat) (k : _), t = s.putFld F.CMDQ_QSTAT_STATE stOff q ∧ s.qState q = stDraining ∧ s.queueEmpty q = true ∧ t.ctxOf (t.qPart q) q = some k) ∧
    (∃ (s : State) (q : Nat), s.qState q ≠ stOff) :=
  ⟨⟨up, 8191, wr5 0, by decide +kernel⟩,
   ⟨up, 8191, wr 0, by decide +kernel⟩,
   ⟨up, 0, wr 2049, by decide +kernel⟩,
   ⟨up, 0, wr 2048, Reg.CMDQ_QTAIL, 1, 0, by decide +kernel⟩,
   ⟨(set up [(F.CMDQ_QCFG_PARTITION, 8191, 0, 5)]), _, 8191, wr5 1, rfl, by decide +kernel⟩,
   ⟨set up [(F.CMDQ_QSTAT_STATE, 0, 0, stFault)], _, 0, wr 1, rfl, by decide +kernel⟩,
   ⟨set up [(fnFld fnMgmt, 0, 0, stStopped)], 0, _, wr 1, rfl, by decide +kernel⟩,
   ⟨(set up [(F.CMDQ_QCFG_PARTITION, 8191, 0, 5)]), 8191, wr5 1, by decide +kernel⟩,
   ⟨(set up [(F.CMDQ_QSTAT_STATE, 0, 0, stDraining)]).setReg .CMDQ_QTAIL 0, _, 0, rfl, by decide +kernel⟩,
   ⟨(set up [(F.CMDQ_QSTAT_STATE, 0, 0, stDraining)]).setReg .CMDQ_QTAIL 0, _, 0, rfl, by decide +kernel⟩,
   ⟨set up [(F.CMDQ_QSTAT_STATE, 9, 0, stDraining), (F.ESC_CTX_STATE, 0, 1, stFault), (F.ESC_CTX_QBASE, 0, 1, 9), (F.ESC_CTX_QCOUNT, 0, 1, 1)], _, 9, 1, rfl, by decide +kernel⟩,
   ⟨up, 0, by decide +kernel⟩⟩

/-- SyncRegisterCommands. -/
theorem wit_SyncRegisterCommands :
    (∃ (s : State) (n : Nat) (w : RegWrite), n < 65536 ∧ (s.p0 w.initiator || (!isP0 w.initiator && s.ownsCtr (iInst w.initiator) n)) = true ∧ w.value % 2 ^ 32 ≠ 0) ∧
    (∃ (s : State) (n : Nat) (w : RegWrite), n < 65536 ∧ (s.p0 w.initiator || (!isP0 w.initiator && s.ownsCtr (iInst w.initiator) n)) = true ∧ w.value % 2 ^ 32 = 0) ∧
    (∃ (s : State) (n : Nat) (w : RegWrite), n < 65536 ∧ (s.p0 w.initiator || (!isP0 w.initiator && s.ownsCtr (iInst w.initiator) n)) = false) ∧
    (∃ (s : State) (k : Nat) (w : RegWrite), k < 256 ∧ s.ofPart w.initiator (s.watchOwner k) = true ∧ s.ownsCtr (s.watchOwner k) (w.value % 65536) = true) ∧
    (∃ (s : State) (k : Nat) (w : RegWrite), s.regsWf ∧ k < 64 ∧ s.p0 w.initiator = true ∧ s.rangeBad k w.value = false ∧ s.gated .SYNC = false ∧ s.regStopped .SYNC_RANGE k = true) ∧
    (∃ (s : State) (k : Nat) (w : RegWrite) (r : Reg) (i : _) (j : _), s.regsWf ∧ k < 64 ∧ s.p0 w.initiator = true ∧ s.rangeBad k w.value = false ∧ s.gated .SYNC = false ∧ s.regStopped .SYNC_RANGE k = false ∧ ¬(r = .SYNC_RANGE ∧ i = k ∧ j = 0)) ∧
    (∃ (s : State) (k : Nat) (w : RegWrite), s.regsWf ∧ k < 64 ∧ s.p0 w.initiator = true ∧ s.rangeBad k w.value = true) :=
  ⟨⟨up, 65535, wr 1, by decide +kernel⟩,
   ⟨up, 65535, wr 0, by decide +kernel⟩,
   ⟨up, 65535, wr5 1, by decide +kernel⟩,
   ⟨up, 255, wr 65535, by decide +kernel⟩,
   ⟨set up [(fnFld fnMgmt, 0, 0, stStopped)], 63, wr 0, by decide +kernel⟩,
   ⟨up, 63, wr 0, Reg.SYNC_RANGE, 62, 0, by decide +kernel⟩,
   ⟨up, 63, wr (2 ^ 34 - 1), by decide +kernel⟩⟩

/-- TransportCommands. -/
theorem wit_TransportCommands :
    (∃ (s : State) (d : Datagram), s.udpAdmits d = false) ∧
    (∃ (s : State) (d : Datagram), s.udpAdmits d = true ∧ d.packet.hcrc ≠ hcrcOf ⟨d.cls, d.code⟩ d.packet) ∧
    (∃ (s : State) (d : Datagram), s.udpAdmits d = true ∧ d.packet.hcrc = hcrcOf ⟨d.cls, d.code⟩ d.packet ∧ d.packet.version = 1 ∧ d.packet.trailer ≠ trailerOf ⟨d.cls, d.code⟩ d.packet) ∧
    (∃ (s : State) (d : Datagram), s.udpAdmits d = true ∧ d.packet.hcrc = hcrcOf ⟨d.cls, d.code⟩ d.packet ∧ (d.packet.version ≠ 1 ∨ d.packet.trailer = trailerOf ⟨d.cls, d.code⟩ d.packet) ∧ d.cls = 0 ∧ 1 ≤ d.code ∧ d.code ≤ 4) ∧
    (∃ (s : State) (d : Datagram), s.udpAdmits d = true ∧ d.packet.hcrc = hcrcOf ⟨d.cls, d.code⟩ d.packet ∧ (d.packet.version ≠ 1 ∨ d.packet.trailer = trailerOf ⟨d.cls, d.code⟩ d.packet) ∧ (d.cls ≠ 0 ∨ d.code = 0 ∨ 5 ≤ d.code) ∧ (d.packet.seq + 2 ^ 32 - s.reg .CMDQ_QSEQ d.packet.queue) % 2 ^ 32 = 0) ∧
    (∃ (s : State) (d : Datagram), s.udpAdmits d = true ∧ d.packet.hcrc = hcrcOf ⟨d.cls, d.code⟩ d.packet ∧ (d.packet.version ≠ 1 ∨ d.packet.trailer = trailerOf ⟨d.cls, d.code⟩ d.packet) ∧ (d.cls ≠ 0 ∨ d.code = 0 ∨ 5 ≤ d.code) ∧ 0 < (d.packet.seq + 2 ^ 32 - s.reg .CMDQ_QSEQ d.packet.queue) % 2 ^ 32 ∧ (d.packet.seq + 2 ^ 32 - s.reg .CMDQ_QSEQ d.packet.queue) % 2 ^ 32 < 2 ^ 31) ∧
    (∃ (s : State) (d : Datagram), s.udpAdmits d = true ∧ d.packet.hcrc = hcrcOf ⟨d.cls, d.code⟩ d.packet ∧ (d.packet.version ≠ 1 ∨ d.packet.trailer = trailerOf ⟨d.cls, d.code⟩ d.packet) ∧ (d.cls ≠ 0 ∨ d.code = 0 ∨ 5 ≤ d.code) ∧ 2 ^ 31 ≤ (d.packet.seq + 2 ^ 32 - s.reg .CMDQ_QSEQ d.packet.queue) % 2 ^ 32) ∧
    (∃ (s : State) (q : Nat), (s.udpOf q).unacked ≠ 0) ∧
    (∃ (s : State) (d : Datagram), s.udpReaches d = false) ∧
    (∃ (s : State) (d : Datagram), s.udpReaches d = true ∧ d.packet.hcrc ≠ hcrcOf ⟨0, 4⟩ d.packet) ∧
    (∃ (s : State) (d : Datagram), s.udpReaches d = true ∧ d.packet.hcrc = hcrcOf ⟨0, 4⟩ d.packet ∧ d.packet.version ≠ 1) ∧
    (∃ (s : State) (d : Datagram), s.udpReaches d = true ∧ d.packet.hcrc = hcrcOf ⟨0, 4⟩ d.packet ∧ d.packet.version = 1 ∧ d.packet.trailer ≠ trailerOf ⟨0, 4⟩ d.packet) ∧
    (∃ (s : State) (d : Datagram), s.udpReaches d = true ∧ d.packet.hcrc = hcrcOf ⟨0, 4⟩ d.packet ∧ d.packet.version = 1 ∧ d.packet.trailer = trailerOf ⟨0, 4⟩ d.packet) ∧
    (∃ (s : State) (q : Nat), s.overUdp q = true ∧ (s.cplIndex q + 2 ^ 32 - s.reg .CMDQ_QCPLHEAD q) % 2 ^ 32 ≠ 0) ∧
    (∃ (cls : Nat) (code : Nat) (p : Packet), p.hcrc ≠ hcrcOf ⟨cls, code⟩ p) ∧
    (∃ (s : State) (cls : Nat) (code : Nat) (p : Packet), p.hcrc = hcrcOf ⟨cls, code⟩ p ∧ s.fnUsable fnGlk = true ∧ s.forwards ⟨cls, code⟩ p = false ∧ p.queue < 8192 ∧ s.fld F.CMDQ_QCFG_TRANSPORT p.queue = 3 ∧ s.qState p.queue = stRunning ∧ s.subFits p.queue (pSlots p) = true) ∧
    (∃ (s : State) (cls : Nat) (code : Nat) (p : Packet), p.hcrc = hcrcOf ⟨cls, code⟩ p ∧ s.fnUsable fnGlk = true ∧ s.forwards ⟨cls, code⟩ p = false ∧ p.queue < 8192 ∧ s.fld F.CMDQ_QCFG_TRANSPORT p.queue = 3 ∧ s.qState p.queue = stRunning ∧ s.subFits p.queue (pSlots p) = false) ∧
    (∃ (s : State) (cls : Nat) (code : Nat) (p : Packet), p.hcrc = hcrcOf ⟨cls, code⟩ p ∧ s.fnUsable fnGlk = true ∧ s.forwards ⟨cls, code⟩ p = true) :=
  ⟨⟨up, { cls := 0, code := 0, packet := { queue := 0 } }, by decide +kernel⟩,
   ⟨udp, { cls := 0, code := 0, packet := { queue := 0 } }, by decide +kernel⟩,
   ⟨udp, { cls := 0, code := 0, packet := { sealPacket ⟨0, 0⟩ { queue := 0 } with trailer := 0 } }, by decide +kernel⟩,
   ⟨udp, { cls := 0, code := 3, packet := sealPacket ⟨0, 3⟩ { queue := 0 } }, by decide +kernel⟩,
   ⟨udp, { cls := 0, code := 0, packet := sealPacket ⟨0, 0⟩ { queue := 0 } }, by decide +kernel⟩,
   ⟨udp, { cls := 0, code := 0, packet := sealPacket ⟨0, 0⟩ { queue := 0, seq := 0x7FFFFFFF } }, by decide +kernel⟩,
   ⟨udp, { cls := 0, code := 5, packet := sealPacket ⟨0, 5⟩ { queue := 0, seq := 0x80000000 } }, by decide +kernel⟩,
   ⟨{ up with cq := { up.cq with udp := [{ queue := 0, unacked := 1 }] } }, 0, by decide +kernel⟩,
   ⟨up, { cls := 0, code := 4, packet := { queue := 0 } }, by decide +kernel⟩,
   ⟨udp, { cls := 0, code := 4, packet := { queue := 0 } }, by decide +kernel⟩,
   ⟨udp, { cls := 0, code := 4, packet := sealPacket ⟨0, 4⟩ { queue := 0, version := 2 } }, by decide +kernel⟩,
   ⟨udp, { cls := 0, code := 4, packet := { sealPacket ⟨0, 4⟩ { queue := 0 } with trailer := 0 } }, by decide +kernel⟩,
   ⟨udp, { cls := 0, code := 4, packet := sealPacket ⟨0, 4⟩ { queue := 0 } }, by decide +kernel⟩,
   ⟨{ udp with cq := { up.cq with cplIndex := [(0, 1)] } }, 0, by decide +kernel⟩,
   ⟨0, 0, { queue := 0 }, by decide +kernel⟩,
   ⟨(set up [(F.CMDQ_QCFG_TRANSPORT, 0, 0, 3)]), 0, 0, sealPacket ⟨0, 0⟩ { queue := 0 }, by decide +kernel⟩,
   ⟨(set (State.loadRegs up [(.CMDQ_QTAIL, 0, 0, 2047)]) [(F.CMDQ_QCFG_TRANSPORT, 0, 0, 3)]), 0, 0, sealPacket ⟨0, 0⟩ { queue := 0 }, by decide +kernel⟩,
   ⟨(set (State.loadRegs up [(.GLK_PEERS, 0, 0, 1)]) [(F.GLK_ID_MEMBER, 0, 0, 1)]), 0, 0, sealPacket ⟨0, 0⟩ { queue := 0, destDev := 0 }, by decide +kernel⟩⟩

/-- QueueAndMemoryPackets. -/
theorem wit_QueueAndMemoryPackets :
    (∃ (s : State) (p : Packet), s.starts (nopRule p) p = true) ∧
    (∃ (c : Instr) (s : State) (p : Packet) (r : Rule) (f : Option Nat) (data : List Byte), ((c = .memWrite p ∧ data = p.payload ∧ f = none ∧ r = memRule ⟨2, 1⟩ p s p.payload.length true true 0) ∨ (c = .memFill p ∧ data = fillBytes (pNum p 8 8) (pNum p 0 8) ∧ f = some (pNum p 8 8) ∧ r = memRule ⟨2, 3⟩ p s (pNum p 0 8) true (memFillFormat p) 0)) ∧ s.starts r p = true ∧ pIsHandle p = false) ∧
    (∃ (c : Instr) (s : State) (p : Packet) (r : Rule) (f : Option Nat) (data : List Byte) (b : _), ((c = .memWrite p ∧ data = p.payload ∧ f = none ∧ r = memRule ⟨2, 1⟩ p s p.payload.length true true 0) ∨ (c = .memFill p ∧ data = fillBytes (pNum p 8 8) (pNum p 0 8) ∧ f = some (pNum p 8 8) ∧ r = memRule ⟨2, 3⟩ p s (pNum p 0 8) true (memFillFormat p) 0)) ∧ s.starts r p = true ∧ pIsHandle p = true ∧ (s.entered r p).pObj p = some b ∧ pOffset p + data.length ≤ b.size) ∧
    (∃ (c : Instr) (s : State) (p : Packet) (r : Rule) (f : Option Nat) (data : List Byte) (b : _), ((c = .memWrite p ∧ data = p.payload ∧ f = none ∧ r = memRule ⟨2, 1⟩ p s p.payload.length true true 0) ∨ (c = .memFill p ∧ data = fillBytes (pNum p 8 8) (pNum p 0 8) ∧ f = some (pNum p 8 8) ∧ r = memRule ⟨2, 3⟩ p s (pNum p 0 8) true (memFillFormat p) 0)) ∧ s.starts r p = true ∧ pIsHandle p = true ∧ (s.entered r p).pObj p = some b ∧ b.size < pOffset p + data.length) ∧
    (∃ (s : State) (u : State) (p : Packet) (r : Rule) (n : Nat) (ps : List (Nat × Nat)), n = pNum p 0 8 ∧ r = memRule ⟨2, 2⟩ p s n false (memReadFormat p) ((n + 31) / 32) ∧ u = s.entered r p ∧ s.starts r p = true ∧ ((pIsHandle p = false ∧ ps = [(p.target, n)]) ∨ (∃ b, pIsHandle p = true ∧ (s.entered r p).pObj p = some b ∧ pOffset p + n ≤ b.size ∧ b.valid = true ∧ ps = b.pieces (pOffset p) n)) ∧ u.underScrub ps = false) ∧
    (∃ (s : State) (u : State) (p : Packet) (r : Rule) (n : Nat) (ps : List (Nat × Nat)), n = pNum p 0 8 ∧ r = memRule ⟨2, 2⟩ p s n false (memReadFormat p) ((n + 31) / 32) ∧ u = s.entered r p ∧ s.starts r p = true ∧ ((pIsHandle p = false ∧ ps = [(p.target, n)]) ∨ (∃ b, pIsHandle p = true ∧ (s.entered r p).pObj p = some b ∧ pOffset p + n ≤ b.size ∧ b.valid = true ∧ ps = b.pieces (pOffset p) n)) ∧ u.underScrub ps = true) ∧
    (∃ (s : State) (p : Packet) (r : Rule) (n : Nat) (b : Obj), n = pNum p 0 8 ∧ r = memRule ⟨2, 2⟩ p s n false (memReadFormat p) ((n + 31) / 32) ∧ s.starts r p = true ∧ pIsHandle p = true ∧ (s.entered r p).pObj p = some b ∧ pOffset p + n ≤ b.size ∧ b.valid = false) ∧
    (∃ (s : State) (t : State) (p : Packet) (ctx : Nat) (ps : _), t = s.entered (objCreateRule p) p ∧ ctx = (t.ctxOf p.partition p.queue).getD 0 ∧ s.starts (objCreateRule p) p = true ∧ pNum p 12 1 ≤ 1 ∧ pNum p 0 8 ≠ 0 ∧ pNum p 0 8 ≤ 2 ^ 36 ∧ t.pObj p = none ∧ firstFit (t.objs.flatMap (·.parts)) (t.objRegions p.partition ctx (pNum p 12 1 == 1)) (pNum p 0 8) = some ps) ∧
    (∃ (s : State) (t : State) (p : Packet) (ctx : Nat), t = s.entered (objCreateRule p) p ∧ ctx = (t.ctxOf p.partition p.queue).getD 0 ∧ s.starts (objCreateRule p) p = true ∧ pNum p 12 1 ≤ 1 ∧ pNum p 0 8 ≠ 0 ∧ pNum p 0 8 ≤ 2 ^ 36 ∧ t.pObj p = none ∧ firstFit (t.objs.flatMap (·.parts)) (t.objRegions p.partition ctx (pNum p 12 1 == 1)) (pNum p 0 8) = none) ∧
    (∃ (s : State) (p : Packet) (r : Rule) (b : Obj), r = objRule ⟨2, 0x11⟩ p s true true ∧ s.starts r p = true ∧ (s.entered r p).pObj p = some b ∧ pOffset p < b.size ∧ pLast p = false) ∧
    (∃ (s : State) (p : Packet) (r : Rule) (b : Obj), r = objRule ⟨2, 0x11⟩ p s true true ∧ s.starts r p = true ∧ (s.entered r p).pObj p = some b ∧ pOffset p < b.size ∧ pLast p = true) ∧
    (∃ (s : State) (t : State) (part : Nat) (h : Nat) (id : Nat) (b : Obj) (ps : List (Nat × Nat)) (left : List Nat), ps = b.pieces 0 b.size ∧ t = s.chargePieces (initiator 6 b.partition) ps ∧ left = b.pass.filter (fun f => f != id) ∧ s.obj? part h = some b ∧ s.passOf b = some id ∧ s.underScrub ps = true) ∧
    (∃ (s : State) (t : State) (part : Nat) (h : Nat) (id : Nat) (b : Obj) (ps : List (Nat × Nat)) (left : List Nat), ps = b.pieces 0 b.size ∧ t = s.chargePieces (initiator 6 b.partition) ps ∧ left = b.pass.filter (fun f => f != id) ∧ s.obj? part h = some b ∧ s.passOf b = some id ∧ s.underScrub ps = false ∧ crc32c ((s.keyed (initiator 6 b.partition)).readPieces ps) = b.crc) ∧
    (∃ (s : State) (t : State) (part : Nat) (h : Nat) (id : Nat) (b : Obj) (ps : List (Nat × Nat)) (left : List Nat), ps = b.pieces 0 b.size ∧ t = s.chargePieces (initiator 6 b.partition) ps ∧ left = b.pass.filter (fun f => f != id) ∧ s.obj? part h = some b ∧ s.passOf b = some id ∧ s.underScrub ps = false ∧ crc32c ((s.keyed (initiator 6 b.partition)).readPieces ps) ≠ b.crc) ∧
    (∃ (s : State) (part : Nat) (h : Nat) (b : Obj), s.obj? part h = some b ∧ s.passOf b = none) ∧
    (∃ (s : State) (p : Packet) (b : Obj), s.starts (objRule ⟨2, 0x12⟩ p s (pOffset p == 0 && p.plen == 0)) p = true ∧ (s.entered (objRule ⟨2, 0x12⟩ p s (pOffset p == 0 && p.plen == 0)) p).pObj p = some b ∧ b.pass = []) ∧
    (∃ (s : State) (p : Packet) (b : Obj), s.starts (objRule ⟨2, 0x12⟩ p s (pOffset p == 0 && p.plen == 0)) p = true ∧ (s.entered (objRule ⟨2, 0x12⟩ p s (pOffset p == 0 && p.plen == 0)) p).pObj p = some b ∧ b.pass ≠ []) :=
  ⟨⟨up, sealPacket ⟨0, 0⟩ { queue := 0 }, by decide +kernel⟩,
   ⟨_, up, sealPacket ⟨2, 1⟩ { queue := 0, target := 0x100000, plen := 1, payload := padTo 32 [7] }, _, _, _, .inl ⟨rfl, rfl, rfl, rfl⟩, by decide +kernel⟩,
   ⟨_, withObj ob, sealPacket ⟨2, 1⟩ { queue := 0, target := href 32, plen := 1, payload := padTo 32 [7] }, _, _, _, ob, .inl ⟨rfl, rfl, rfl, rfl⟩, by decide +kernel⟩,
   ⟨_, withObj ob, sealPacket ⟨2, 3⟩ { queue := 0, target := href 1, plen := 1, payload := padTo 32 [64] }, _, _, _, ob, .inr ⟨rfl, rfl, rfl, rfl⟩, by decide +kernel⟩,
   ⟨up, _, sealPacket ⟨2, 2⟩ { queue := 0, target := 0x100000, plen := 1, payload := padTo 32 [64] }, _, _, _, rfl, rfl, rfl, by decide +kernel, .inl ⟨by decide +kernel, rfl⟩, by decide +kernel⟩,
   ⟨{ up with scrub := [1] }, _, sealPacket ⟨2, 2⟩ { queue := 0, target := 0x100000, plen := 1, payload := padTo 32 [64] }, _, _, _, rfl, rfl, rfl, by decide +kernel, .inl ⟨by decide +kernel, rfl⟩, by decide +kernel⟩,
   ⟨withObj ob, sealPacket ⟨2, 2⟩ { queue := 0, target := (href 0), plen := 1, payload := padTo 32 [64] }, _, _, ob, rfl, rfl, by decide +kernel⟩,
   ⟨{ up with dev := { up.dev with settings := some { smemGranules := [(16, 0)] } } }, _, sealPacket ⟨2, 0x10⟩ { queue := 0, target := href 0, plen := 1, payload := padTo 32 ([0, 0, 16] ++ List.replicate 9 0 ++ [1]) }, _, [(0x1000000, 0x100000)], rfl, rfl, by decide +kernel⟩,
   ⟨up, _, sealPacket ⟨2, 0x10⟩ { queue := 0, target := href 0, plen := 1, payload := padTo 32 [1] }, _, rfl, rfl, by decide +kernel⟩,
   ⟨withObj ob, sealPacket ⟨2, 0x11⟩ { queue := 0, target := href 0, plen := 1, payload := padTo 32 [7] }, _, ob, rfl, by decide +kernel⟩,
   ⟨withObj ob, sealPacket ⟨2, 0x11⟩ { queue := 0, flags := 4, target := href 32, plen := 1, payload := padTo 32 [7] }, _, ob, rfl, by decide +kernel⟩,
   ⟨{ { withObj { ob with pass := [3] } with cq := { up.cq with flight := [{ fl 2 0x11 with id := 3, writes := some 1 }] } } with scrub := [0x11] }, _, 0, 1, 3, { ob with pass := [3] }, _, _, rfl, rfl, rfl, by decide +kernel⟩,
   ⟨{ withObj { { ob with crc := crc32c (List.replicate 64 0) } with pass := [3] } with cq := { up.cq with flight := [{ fl 2 0x11 with id := 3, writes := some 1 }] } }, _, 0, 1, 3, { { ob with crc := crc32c (List.replicate 64 0) } with pass := [3] }, _, _, rfl, rfl, rfl, by decide +kernel⟩,
   ⟨{ withObj { ob with pass := [3] } with cq := { up.cq with flight := [{ fl 2 0x11 with id := 3, writes := some 1 }] } }, _, 0, 1, 3, { ob with pass := [3] }, _, _, rfl, rfl, rfl, by decide +kernel⟩,
   ⟨withObj ob, 0, 1, ob, by decide +kernel⟩,
   ⟨withObj ob, sealPacket ⟨2, 0x12⟩ { queue := 0, target := href 0 }, ob, by decide +kernel⟩,
   ⟨withObj { ob with pass := [3] }, sealPacket ⟨2, 0x12⟩ { queue := 0, target := href 0 }, { ob with pass := [3] }, by decide +kernel⟩⟩

/-- SyncPackets. -/
theorem wit_SyncPackets :
    (∃ (s : State) (p : Packet), s.starts (syncRule ⟨3, 1⟩ p s true) p = true) ∧
    (∃ (s : State) (p : Packet), s.starts (syncRule ⟨3, 2⟩ p s true) p = true ∧ (s.entered (syncRule ⟨3, 2⟩ p s true) p).waitedOn p.target = true) ∧
    (∃ (s : State) (p : Packet), s.starts (syncRule ⟨3, 2⟩ p s true) p = true ∧ (s.entered (syncRule ⟨3, 2⟩ p s true) p).waitedOn p.target = false) ∧
    (∃ (s : State) (p : Packet), s.starts (syncRule ⟨3, 3⟩ p s false) p = true) ∧
    (∃ (s : State) (p : Packet), s.starts (syncRule ⟨3, 4⟩ p s true) p = true ∧ pNum p 0 8 ≤ (s.entered (syncRule ⟨3, 4⟩ p s true) p).reg .SYNC_CTR p.target) ∧
    (∃ (s : State) (p : Packet), s.starts (syncRule ⟨3, 4⟩ p s true) p = true ∧ (s.entered (syncRule ⟨3, 4⟩ p s true) p).reg .SYNC_CTR p.target < pNum p 0 8) ∧
    (∃ (s : State) (q : Nat) (seq : Nat) (f : Flight), (s.cq.flight.find? (fun f => f.queue == q && f.seq == seq && f.cls == 3 && f.code == 4 && f.waitMet && f.status.isNone) = some f)) :=
  ⟨⟨up, sealPacket ⟨3, 1⟩ { queue := 0, target := 65535, plen := 1, payload := padTo 32 [1] }, by decide +kernel⟩,
   ⟨(set up [(F.SYNC_WATCHCFG_ARMED, 255, 0, 1), (F.SYNC_WATCHCFG_COUNTER, 255, 0, 65535)]), sealPacket ⟨3, 2⟩ { queue := 0, target := 65535, plen := 1, payload := padTo 32 [1] }, by decide +kernel⟩,
   ⟨up, sealPacket ⟨3, 2⟩ { queue := 0, target := 65535, plen := 1, payload := padTo 32 [1] }, by decide +kernel⟩,
   ⟨up, sealPacket ⟨3, 3⟩ { queue := 0, target := 65535 }, by decide +kernel⟩,
   ⟨(State.loadRegs up [(.SYNC_CTR, 65535, 0, 5)]), sealPacket ⟨3, 4⟩ { queue := 0, target := 65535, plen := 1, payload := padTo 32 [5] }, by decide +kernel⟩,
   ⟨(State.loadRegs up [(.SYNC_CTR, 65535, 0, 4)]), sealPacket ⟨3, 4⟩ { queue := 0, target := 65535, plen := 1, payload := padTo 32 [5] }, by decide +kernel⟩,
   ⟨flying [{ fl 3 4 with waitMet := true }], 0, 0, { fl 3 4 with waitMet := true }, by decide +kernel⟩⟩

/-- KernelCommands. -/
theorem wit_KernelCommands :
    (∃ (s : State) (p : Packet), s.starts (execLaunchRule p s) p = true) ∧
    (∃ (s : State) (p : Packet), s.starts (execQueryRule p) p = true) ∧
    (∃ (s : State) (p : Packet), s.starts (execTeardownRule p) p = true ∧ (s.entered (execTeardownRule p) p).ctxOf p.partition p.queue = some p.target) ∧
    (∃ (s : State) (p : Packet), s.starts (execTeardownRule p) p = true ∧ (s.entered (execTeardownRule p) p).ctxOf p.partition p.queue ≠ some p.target) ∧
    (∃ (s : State) (cls : Nat) (n : Nat) (k : Kernel) (lent : Bool), s.engineFree cls n = true ∧ s.choose cls n = some (k, lent)) ∧
    (∃ (s : State) (cls : Nat) (n : Nat) (o : Nat), s.engineOwner cls n = some o ∧ s.flag F.ESC_RESV_LEND o = true ∧ s.kernelOn cls n = none ∧ (cls, n) ∉ s.esc.lendable) ∧
    (∃ (s : State) (cls : Nat) (n : Nat) (st : Nat) (k : Kernel), s.kernelOn cls n = some k ∧ k.status = some st) ∧
    (∃ (s : State) (t : State) (cls : Nat) (n : Nat) (run : Nat) (k : Kernel), t = (s.escStatus F.ESC_STATUS_RUN_LIMIT k.partition k.context).dataEvent 0x05 0x0002 k.addr k.partition ∧ s.running cls n = some k ∧ run < s.reg .ESC_QCYC + 1024) ∧
    (∃ (s : State) (t : State) (cls : Nat) (n : Nat) (run : Nat) (k : Kernel), t = (s.escStatus F.ESC_STATUS_RUN_LIMIT k.partition k.context).dataEvent 0x05 0x0002 k.addr k.partition ∧ s.running cls n = some k ∧ s.reg .ESC_QCYC + 1024 ≤ run ∧ cls = 0) ∧
    (∃ (s : State) (t : State) (cls : Nat) (n : Nat) (run : Nat) (k : Kernel), t = (s.escStatus F.ESC_STATUS_RUN_LIMIT k.partition k.context).dataEvent 0x05 0x0002 k.addr k.partition ∧ s.running cls n = some k ∧ s.reg .ESC_QCYC + 1024 ≤ run ∧ cls = 6) ∧
    (∃ (s : State) (t : State) (cls : Nat) (n : Nat) (run : Nat) (k : Kernel), t = (s.escStatus F.ESC_STATUS_RUN_LIMIT k.partition k.context).dataEvent 0x05 0x0002 k.addr k.partition ∧ s.running cls n = some k ∧ s.reg .ESC_QCYC + 1024 ≤ run ∧ cls ≠ 0 ∧ cls ≠ 6) :=
  ⟨⟨(set (State.loadRegs up [(.ESC_QCYC, 0, 0, 1000)]) [(F.ESC_CTX_QCOUNT, 0, 0, 1)]), sealPacket ⟨4, 1⟩ { queue := 0, plen := 4, payload := padTo 128 [0, 0, 1, 0, 100] }, by decide +kernel⟩,
   ⟨up, sealPacket ⟨4, 3⟩ { queue := 0, target := 15 }, by decide +kernel⟩,
   ⟨(set up [(F.ESC_CTX_QCOUNT, 0, 15, 1)]), sealPacket ⟨4, 2⟩ { queue := 0, target := 15 }, by decide +kernel⟩,
   ⟨up, sealPacket ⟨4, 2⟩ { queue := 0, target := 15 }, by decide +kernel⟩,
   ⟨(busy [{ ker 1 none with ready := some 0 }]).putFld F.SCAN_ESTATE_STATE stReady 7, 1, 7, { ker 1 none with ready := some 0 }, false, by decide +kernel⟩,
   ⟨(set up [(F.ESC_RESV_ME, 3, 0, 1), (F.ESC_RESV_LEND, 3, 0, 1)]), 0, 0, 3, by decide +kernel⟩,
   ⟨busy [{ ker 6 (some 0) with status := some csDone }], 6, 0, csDone, { ker 6 (some 0) with status := some csDone }, by decide +kernel⟩,
   ⟨busy [ker 5 (some 3)], _, 5, 3, 1023, ker 5 (some 3), rfl, by decide +kernel⟩,
   ⟨busy [ker 0 (some 3)], _, 0, 3, 1024, ker 0 (some 3), rfl, by decide +kernel⟩,
   ⟨busy [ker 6 (some 3)], _, 6, 3, 1024, ker 6 (some 3), rfl, by decide +kernel⟩,
   ⟨busy [ker 5 (some 3)], _, 5, 3, 1024, ker 5 (some 3), rfl, by decide +kernel⟩⟩

/-- SharingCommands. -/
theorem wit_SharingCommands :
    (∃ (s : State), s.dev.settings.isSome = true) ∧
    (∃ (s : State) (dram : Bool) (p : Nat) (harts : Nat) (asked : Nat) (t : _), asked = sparseGet (fun _ => 0) s.traffic (regKey dram p) + harts ∧ t = s.endWindow dram p harts ∧ sparseWf (fun _ => 0) s.traffic = true ∧ sparseWf (fun _ => 0) s.esc.excess = true ∧ asked ≤ s.windowMost dram p) ∧
    (∃ (s : State) (dram : Bool) (p : Nat) (harts : Nat) (asked : Nat) (t : _), asked = sparseGet (fun _ => 0) s.traffic (regKey dram p) + harts ∧ t = s.endWindow dram p harts ∧ sparseWf (fun _ => 0) s.traffic = true ∧ sparseWf (fun _ => 0) s.esc.excess = true ∧ s.windowMost dram p < asked) ∧
    (∃ (s : State) (t : State) (victims : List Nat) (u : _), t = (List.range 64).foldl (fun u p => u.putFld F.ESC_P99_P99_US (satNat 16 (s.p99Of p)) p) s ∧ victims = (List.range 64).filter (fun p => s.fld F.ESC_P99_TARGET_US p != 0 && decide (s.fld F.ESC_P99_TARGET_US p < s.p99Of p)) ∧ u = victims.foldl State.guardVictim t ∧ s.flag F.ESC_GUARD_EN = true ∧ victims ≠ []) ∧
    (∃ (s : State) (t : State) (victims : List Nat), t = (List.range 64).foldl (fun u p => u.putFld F.ESC_P99_P99_US (satNat 16 (s.p99Of p)) p) s ∧ victims = (List.range 64).filter (fun p => s.fld F.ESC_P99_TARGET_US p != 0 && decide (s.fld F.ESC_P99_TARGET_US p < s.p99Of p)) ∧ s.flag F.ESC_GUARD_EN = true ∧ victims = [] ∧ s.esc.calm < 9) ∧
    (∃ (s : State) (t : State) (victims : List Nat), t = (List.range 64).foldl (fun u p => u.putFld F.ESC_P99_P99_US (satNat 16 (s.p99Of p)) p) s ∧ victims = (List.range 64).filter (fun p => s.fld F.ESC_P99_TARGET_US p != 0 && decide (s.fld F.ESC_P99_TARGET_US p < s.p99Of p)) ∧ s.flag F.ESC_GUARD_EN = true ∧ victims = [] ∧ 9 ≤ s.esc.calm) ∧
    (∃ (s : State) (w : RegWrite), s.p0 w.initiator = true ∧ s.gated .ESC = false ∧ bitsOf w.value 31 28 = 1 ∧ s.regsWf ∧ s.repairRefusal (w.value % 32) (bitsOf w.value 13 8) (w.value.testBit 27) = 0) ∧
    (∃ (s : State) (w : RegWrite) (r : Nat) (t : State), r = s.repairRefusal (w.value % 32) (bitsOf w.value 13 8) (w.value.testBit 27) ∧ t = s.putFld F.ESC_REPSTAT_RESULT r ∧ s.p0 w.initiator = true ∧ s.gated .ESC = false ∧ bitsOf w.value 31 28 = 1 ∧ r ≠ 0) ∧
    (∃ (s : State) (w : RegWrite) (r : Nat) (t : State), r = s.repairRefusal (w.value % 32) (bitsOf w.value 13 8) (w.value.testBit 27) ∧ t = s.putFld F.ESC_REPSTAT_RESULT r ∧ s.p0 w.initiator = true ∧ s.gated .ESC = false ∧ bitsOf w.value 31 28 = 1 ∧ r = 0) ∧
    (∃ (s : State) (w : RegWrite) (r : Nat), r = s.repairRefusal (w.value % 32) (bitsOf w.value 13 8) (w.value.testBit 27) ∧ s.p0 w.initiator = true ∧ s.gated .ESC = false ∧ bitsOf w.value 31 28 ≠ 1) ∧
    (∃ (s : State) (slot : Nat) (spare : Nat) (persist : Bool), (s.esc.repairs.find? (fun e => e.1 == slot) = some (slot, spare, persist)) ∧ s.unitState fnMe slot = stStarting) ∧
    (∃ (s : State) (t : Nat) (k : Nat) (off : Nat) (r : Reg) (w : RegWrite), regionReg off = some r ∧ t < 4 ∧ k < 64 ∧ s.p0 w.initiator = true ∧ s.devState = devBoot) ∧
    (∃ (s : State) (t : Nat) (k : Nat) (off : Nat) (r : Reg) (w : RegWrite), regionReg off = some r ∧ t < 4 ∧ k < 64 ∧ s.p0 w.initiator = true ∧ s.devState ≠ devBoot ∧ s.regionOpen (s.seen .FWL_RATTR t k) (if r = .FWL_RATTR then w.value &&& r.params else s.seen .FWL_RATTR t k) = true) ∧
    (∃ (s : State) (t : Nat) (k : Nat) (off : Nat) (r : Reg) (w : RegWrite), regionReg off = some r ∧ t < 4 ∧ k < 64 ∧ s.p0 w.initiator = true ∧ s.regionOpen (s.seen .FWL_RATTR t k) (if r = .FWL_RATTR then w.value &&& r.params else s.seen .FWL_RATTR t k) = false) ∧
    (∃ (s : State) (t : Nat) (k : Nat) (off : Nat) (r : Reg) (w : RegWrite), regionReg off = some r ∧ t < 4 ∧ k < 64 ∧ s.p0 w.initiator = false) :=
  ⟨⟨{ up with dev := { up.dev with settings := some {} } }, by decide +kernel⟩,
   ⟨up, true, 63, 0, _, _, rfl, rfl, by decide +kernel⟩,
   ⟨up, false, 63, 1, _, _, rfl, rfl, by decide +kernel⟩,
   ⟨{ set up [(F.ESC_GUARD_EN, 0, 0, 1), (F.ESC_P99_TARGET_US, 5, 0, 1)] with esc := { up.esc with waits := [(5, 2)] } }, _, _, _, rfl, rfl, rfl, by decide +kernel⟩,
   ⟨set up [(F.ESC_GUARD_EN, 0, 0, 1)], _, _, rfl, rfl, by decide +kernel⟩,
   ⟨{ set up [(F.ESC_GUARD_EN, 0, 0, 1)] with esc := { up.esc with calm := 9 } }, _, _, rfl, rfl, by decide +kernel⟩,
   ⟨(set up [(F.ME_STATE_STATE, 31, 0, stStopped), (F.ESC_REPSTAT_SPARES, 0, 0, 1)]), wr 0x1000001F, by decide +kernel⟩,
   ⟨up, wr 0x1000001F, _, _, rfl, rfl, by decide +kernel⟩,
   ⟨(set up [(F.ME_STATE_STATE, 31, 0, stStopped), (F.ESC_REPSTAT_SPARES, 0, 0, 1)]), wr 0x1000001F, _, _, rfl, rfl, by decide +kernel⟩,
   ⟨up, wr 0x1F, _, rfl, by decide +kernel⟩,
   ⟨{ (set up [(F.ME_STATE_STATE, 31, 0, stStarting)]) with esc := { up.esc with repairs := [(31, 0, false)] } }, 31, 0, false, by decide +kernel⟩,
   ⟨(set blank [(F.SYS_DEVSTATE_DEVSTATE, 0, 0, devBoot)]), 3, 63, 0x10, Reg.FWL_RATTR, wr 0, by decide +kernel⟩,
   ⟨(set up [(F.ESC_PCFG_STATE, 0, 0, stStopped)]), 3, 63, 0x10, Reg.FWL_RATTR, wr 0, by decide +kernel⟩,
   ⟨up, 3, 63, 0, Reg.FWL_RBASE, wr 0, by decide +kernel⟩,
   ⟨up, 3, 63, 0, Reg.FWL_RBASE, wr5 0, by decide +kernel⟩⟩

/-- MemoryCommands. -/
theorem wit_MemoryCommands :
    (∃ (s : State) (t : State) (c : Nat) (v : Nat) (w : RegWrite), v = withBit w.value 31 ∧ t = s.setReg .DMA_CTL (2 ^ 22 * bitsOf v 30 22 + v % 2 ^ 16) c ∧ c < 16 ∧ s.p0 w.initiator = true ∧ s.gated .DMA = false ∧ (s.fwChannel c = false ∨ s.fld F.DMA_STAT_STATE c = 1)) ∧
    (∃ (s : State) (t : State) (c : Nat) (v : Nat) (w : RegWrite), v = withBit w.value 31 ∧ t = s.setReg .DMA_CTL (2 ^ 22 * bitsOf v 30 22 + v % 2 ^ 16) c ∧ c < 16 ∧ s.p0 w.initiator = true ∧ s.gated .DMA = false ∧ s.fwChannel c = true ∧ s.fld F.DMA_STAT_STATE c ≠ 1 ∧ s.dmaLen c = 0) ∧
    (∃ (s : State) (t : State) (c : Nat) (v : Nat) (w : RegWrite), v = withBit w.value 31 ∧ t = s.setReg .DMA_CTL (2 ^ 22 * bitsOf v 30 22 + v % 2 ^ 16) c ∧ c < 16 ∧ s.p0 w.initiator = true ∧ s.gated .DMA = false ∧ s.fwChannel c = true ∧ s.fld F.DMA_STAT_STATE c ≠ 1 ∧ s.dmaLen c ≠ 0) ∧
    (∃ (s : State) (c : Nat), c < 16 ∧ s.fld F.DMA_STAT_STATE c = 1 ∧ s.dmaWaits c = true) ∧
    (∃ (s : State) (c : Nat) (t : State), c < 16 ∧ s.fld F.DMA_STAT_STATE c = 1 ∧ s.dmaWaits c = false ∧ dmaMove c (s.dmaLen c) 0 (s.keyed (initiator 5 (s.fld F.DMA_CTL_PARTITION c))) = (t, none)) ∧
    (∃ (s : State) (c : Nat) (j : Nat) (t : State), c < 16 ∧ s.fld F.DMA_STAT_STATE c = 1 ∧ dmaMove c (s.dmaLen c) 0 (s.keyed (initiator 5 (s.fld F.DMA_CTL_PARTITION c))) = (t, some j)) ∧
    (∃ (s : State) (c : Nat) (m : Nat) (t : State) (j : _), c < 16 ∧ s.fld F.DMA_STAT_STATE c = 1 ∧ dmaMove c (min m (s.dmaLen c - 1)) 0 (s.keyed (initiator 5 (s.fld F.DMA_CTL_PARTITION c))) = (t, some j)) ∧
    (∃ (s : State) (c : Nat) (m : Nat) (t : State), c < 16 ∧ s.fld F.DMA_STAT_STATE c = 1 ∧ s.flag F.DMA_CTL_FILL c = false ∧ dmaMove c (min m (s.dmaLen c - 1)) 0 (s.keyed (initiator 5 (s.fld F.DMA_CTL_PARTITION c))) = (t, none) ∧ t.flag F.DMA_CTL_FILL c = false) ∧
    (∃ (s : State) (t : State) (u : State) (x : Occupancy), t = (x.corrected.foldl State.corrected s).patrol x.uncorrected ∧ u = (t.countWindow (t.occOf x) x.requests).showOcc (t.occOf x) ∧ t.fnUsable fnDram = true ∧ u.hotChannel (t.occOf x) = none) ∧
    (∃ (s : State) (t : State) (u : State) (x : Occupancy) (c : _), t = (x.corrected.foldl State.corrected s).patrol x.uncorrected ∧ u = (t.countWindow (t.occOf x) x.requests).showOcc (t.occOf x) ∧ t.fnUsable fnDram = true ∧ u.hotChannel (t.occOf x) = some c) ∧
    (∃ (s : State) (t : State) (w : RegWrite) (c : Instr) (b : Nat) (v : Nat), v = withBit w.value b ∧ t = (if v.testBit 29 then s.clearEccBlock else s) ∧ (c, b) ∈ [(Instr.reweaveStart w, 31), (.reweaveAbort (.firmware w), 30), (.clearEccBlock w, 29)] ∧ s.p0 w.initiator = true ∧ s.gated .MEMC = false ∧ s.fld F.MEMC_RW_STAT_STATE ≠ 0 ∧ v.testBit 30 = true) ∧
    (∃ (s : State) (t : State) (w : RegWrite) (c : Instr) (b : Nat) (v : Nat), v = withBit w.value b ∧ t = (if v.testBit 29 then s.clearEccBlock else s) ∧ (c, b) ∈ [(Instr.reweaveStart w, 31), (.reweaveAbort (.firmware w), 30), (.clearEccBlock w, 29)] ∧ s.p0 w.initiator = true ∧ s.gated .MEMC = false ∧ s.fld F.MEMC_RW_STAT_STATE ≠ 0 ∧ v.testBit 30 = false) ∧
    (∃ (s : State) (t : State) (w : RegWrite) (c : Instr) (b : Nat) (v : Nat), v = withBit w.value b ∧ t = (if v.testBit 29 then s.clearEccBlock else s) ∧ (c, b) ∈ [(Instr.reweaveStart w, 31), (.reweaveAbort (.firmware w), 30), (.clearEccBlock w, 29)] ∧ s.p0 w.initiator = true ∧ s.gated .MEMC = false ∧ s.fld F.MEMC_RW_STAT_STATE = 0 ∧ (v.testBit 31 && t.mayReweave (v % 256)) = true) ∧
    (∃ (s : State) (t : State) (w : RegWrite) (c : Instr) (b : Nat) (v : Nat), v = withBit w.value b ∧ t = (if v.testBit 29 then s.clearEccBlock else s) ∧ (c, b) ∈ [(Instr.reweaveStart w, 31), (.reweaveAbort (.firmware w), 30), (.clearEccBlock w, 29)] ∧ s.p0 w.initiator = true ∧ s.gated .MEMC = false ∧ s.fld F.MEMC_RW_STAT_STATE = 0 ∧ (v.testBit 31 && t.mayReweave (v % 256)) = false) ∧
    (∃ (s : State) (n : Nat), s.regsWf ∧ n < 192) ∧
    (∃ (s : State), s.regsWf ∧ s.fld F.MEMC_RW_STAT_STATE = 1 ∧ (sparseWf (fun _ => 0) s.memc.keys = true)) ∧
    (∃ (s : State), s.fnState fnDram = stDraining) ∧
    (∃ (s : State) (t : State) (c : Nat) (v : Nat) (w : RegWrite), v = withBit w.value 31 ∧ t = s.setReg .DMA_CTL (2 ^ 22 * bitsOf v 30 22 + v % 2 ^ 16) c ∧ c < 16 ∧ s.p0 w.initiator = true ∧ s.gated .DMA = false ∧ (s.fwChannel c = false ∨ s.fld F.DMA_STAT_STATE c = 1)) :=
  ⟨⟨up, _, 15, _, wr 0, rfl, rfl, by decide +kernel⟩,
   ⟨up.setReg .DMA_FWMASK 0x8000, _, 15, _, wr 0, rfl, rfl, by decide +kernel⟩,
   ⟨State.loadRegs up [(.DMA_FWMASK, 0, 0, 0x8000), (.DMA_LEN, 15, 0, 1)], _, 15, _, wr 0, rfl, rfl, by decide +kernel⟩,
   ⟨{ (set up [(F.DMA_STAT_STATE, 15, 0, 1)]).setReg .DMA_LEN 8 15 with scrub := [0] }, 15, by decide +kernel⟩,
   ⟨(set up [(F.DMA_STAT_STATE, 15, 0, 1)]), 15, (set up [(F.DMA_STAT_STATE, 15, 0, 1)]).keyed (initiator 5 0), by decide +kernel⟩,
   ⟨(set (State.loadRegs up [(.DMA_LEN, 15, 0, 1), (.DMA_SRC, 15, 0, 0x30000000)]) [(F.DMA_STAT_STATE, 15, 0, 1)]), 15, 0, (set (State.loadRegs up [(.DMA_LEN, 15, 0, 1), (.DMA_SRC, 15, 0, 0x30000000)]) [(F.DMA_STAT_STATE, 15, 0, 1)]).keyed (initiator 5 0), by decide +kernel⟩,
   ⟨(set (State.loadRegs up [(.DMA_LEN, 15, 0, 2), (.DMA_SRC, 15, 0, 0x30000000)]) [(F.DMA_STAT_STATE, 15, 0, 1)]), 15, 1, (set (State.loadRegs up [(.DMA_LEN, 15, 0, 2), (.DMA_SRC, 15, 0, 0x30000000)]) [(F.DMA_STAT_STATE, 15, 0, 1)]).keyed (initiator 5 0), 0, by decide +kernel⟩,
   ⟨(set (State.loadRegs up [(.DMA_LEN, 15, 0, 2)]) [(F.DMA_STAT_STATE, 15, 0, 1)]), 15, 1, (set (State.loadRegs up [(.DMA_LEN, 15, 0, 2)]) [(F.DMA_STAT_STATE, 15, 0, 1)]).keyed (initiator 5 0), by decide +kernel⟩,
   ⟨(set up [(F.MEMC_CAP_CHANNELS, 0, 0, 2)]), _, _, { occ := [500, 500] }, rfl, rfl, by decide +kernel⟩,
   ⟨{ (set up [(F.MEMC_CAP_CHANNELS, 0, 0, 3)]) with memc := { up.memc with streaks := [(1, 99)] } }, _, _, { occ := [0, 500] }, 1, rfl, rfl, by decide +kernel⟩,
   ⟨(set up [(F.MEMC_RW_STAT_STATE, 0, 0, 1)]), _, wr 0, .reweaveAbort (.firmware (wr 0)), 30, _, rfl, rfl, by decide +kernel⟩,
   ⟨(set up [(F.MEMC_RW_STAT_STATE, 0, 0, 1)]), _, wr 0, .clearEccBlock (wr 0), 29, _, rfl, rfl, by decide +kernel⟩,
   ⟨(set up [(F.MEMC_CFG_REWEAVE_EN, 0, 0, 1), (F.MEMC_CFG_RESERVE, 0, 0, 1)]), _, wr 0, .reweaveStart (wr 0), 31, _, rfl, rfl, by decide +kernel⟩,
   ⟨up, _, wr 0, .reweaveStart (wr 0), 31, _, rfl, rfl, by decide +kernel⟩,
   ⟨up, 191, by decide +kernel⟩,
   ⟨(set up [(F.MEMC_RW_STAT_STATE, 0, 0, 1)]), by decide +kernel⟩,
   ⟨(set up [(F.SYS_FNSTATE0_DRAM, 0, 0, stDraining)]), by decide +kernel⟩,
   ⟨up, _, 15, _, wr 0, rfl, rfl, by decide +kernel⟩⟩

/-- RegisterCommands. -/
theorem wit_RegisterCommands :
    (∃ (s : State) (p : Packet), s.starts (statusReadRule p s) p = true) ∧
    (∃ (s : State) (p : Packet) (l : _) (e : _) (m : _), l = e :: m ∧ s.starts (logReadRule p) p = true ∧ ((s.entered (logReadRule p) p).logChosen (pNum p 6 1) (pNum p 0 4) (pNum p 8 2) p.partition).take (pNum p 4 2) = l) ∧
    (∃ (s : State) (p : Packet), s.starts (logReadRule p) p = true ∧ ((s.entered (logReadRule p) p).logChosen (pNum p 6 1) (pNum p 0 4) (pNum p 8 2) p.partition).take (pNum p 4 2) = []) ∧
    (∃ (s : State) (a : Nat), (a % 4 ≠ 0 ∨ s.blockHere a = false)) ∧
    (∃ (s : State) (a : Nat) (i : Nat) (j : Nat) (off : Nat) (v : Nat) (lanes : Nat) (b : Block) (r : Reg) (w : RegWrite), lanes = (2 ^ (8 * (r.info.width / 8 - off)) - 1) * 256 ^ off &&& (2 ^ r.info.width - 1) ∧ v = mixBits (s.seen r i j) (w.value * 256 ^ off) lanes ∧ a % 4 = 0 ∧ s.blockHere a = true ∧ blockOf a = some b ∧ findReg a = some (r, i, j, off) ∧ (s.mayWrite r i w.initiator = false ∨ s.gated r.info.block = true)) ∧
    (∃ (s : State) (a : Nat) (i : Nat) (j : Nat) (off : Nat) (v : Nat) (lanes : Nat) (b : Block) (r : Reg) (w : RegWrite), lanes = (2 ^ (8 * (r.info.width / 8 - off)) - 1) * 256 ^ off &&& (2 ^ r.info.width - 1) ∧ v = mixBits (s.seen r i j) (w.value * 256 ^ off) lanes ∧ a % 4 = 0 ∧ s.blockHere a = true ∧ blockOf a = some b ∧ findReg a = some (r, i, j, off) ∧ s.mayWrite r i w.initiator = true ∧ s.gated r.info.block = false ∧ (s.regStopped r i && r.params != 0 && !stagesItself.contains r) = true) ∧
    (∃ (s : State) (a : Nat) (i : Nat) (j : Nat) (off : Nat) (b : Block) (r : Reg) (w : RegWrite), a % 4 = 0 ∧ s.blockHere a = true ∧ blockOf a = some b ∧ findReg a = some (r, i, j, off) ∧ s.mayWrite r i w.initiator = true ∧ s.gated r.info.block = false ∧ (s.regStopped r i && r.params != 0 && !stagesItself.contains r) = false) ∧
    (∃ (s : State), s.fnUsable fnPcie = true ∧ (s.flag F.PCIE_CFG_ROLE && s.devState != devHeld) = true) ∧
    (∃ (s : State) (t : State) (root : Bool) (f : _) (bar : _) (o : _) (n : _) (u : _), root = (s.flag F.PCIE_CFG_ROLE && s.devState != devHeld) ∧ t = s.acceptFn fnPcie ∧ u = t.answered ((List.range n).map (fun k => t.barByte f bar (o + k))) ∧ s.fnUsable fnPcie = true ∧ root = false ∧ s.pcieAnswers f = true ∧ o + n ≤ barSize f bar ∧ bar ≠ 2) ∧
    (∃ (s : State) (t : State) (root : Bool) (f : _) (bar : _) (o : _) (n : _) (u : _), root = (s.flag F.PCIE_CFG_ROLE && s.devState != devHeld) ∧ t = s.acceptFn fnPcie ∧ u = t.answered ((List.range n).map (fun k => t.barByte f bar (o + k))) ∧ s.fnUsable fnPcie = true ∧ root = false ∧ s.pcieAnswers f = true ∧ o + n ≤ barSize f bar ∧ bar = 2) ∧
    (∃ (s : State) (t : State) (root : Bool) (f : _) (bar : _) (o : _) (data : List Byte), root = (s.flag F.PCIE_CFG_ROLE && s.devState != devHeld) ∧ t = s.acceptFn fnPcie ∧ s.fnUsable fnPcie = true ∧ root = false ∧ s.pcieAnswers f = true ∧ o + data.length ≤ barSize f bar) ∧
    (∃ (s : State) (t : State) (root : Bool) (f : _), root = (s.flag F.PCIE_CFG_ROLE && s.devState != devHeld) ∧ t = s.acceptFn fnPcie ∧ s.fnUsable fnPcie = true ∧ (root = true ∨ s.pcieAnswers f = false)) ∧
    (∃ (t : State) (f : Nat) (o : Nat) (q : Nat) (data : List Byte), o < 0x8000 ∧ o % 4 = 0 ∧ data.length = 4 ∧ (t.pcieQueues f)[o / 4]? = some q) :=
  ⟨⟨up, sealPacket ⟨1, 0x20⟩ { queue := 0, target := 0x40000000, plen := 1, payload := padTo 32 [4] }, by decide +kernel⟩,
   ⟨{ up with log := { up.log with written := 1 } }, sealPacket ⟨1, 0x21⟩ { queue := 0, plen := 1, payload := padTo 32 [0, 0, 0, 0, 1, 0, 0, 0, 1] }, _, (0, List.replicate 32 (0 : Byte)), ([] : List (Nat × List Byte)), rfl, by decide +kernel, by decide +kernel⟩,
   ⟨up, sealPacket ⟨1, 0x21⟩ { queue := 0, plen := 1, payload := padTo 32 [0, 0, 0, 0, 1, 0, 0, 0, 1] }, by decide +kernel, by decide +kernel⟩,
   ⟨up, 0x40000002, by decide +kernel⟩,
   ⟨up, Block.base .MEMC, 0, 0, 0, _, _, .MEMC, Reg.MEMC_CAP, wr5 0, rfl, rfl, by decide +kernel⟩,
   ⟨set up [(fnFld fnGlk, 0, 0, stStopped)], Block.base .GLK, 0, 0, 0, _, _, .GLK, Reg.GLK_CFG, wr 0, rfl, rfl, by decide +kernel⟩,
   ⟨up, Block.base .MEMC, 0, 0, 0, .MEMC, Reg.MEMC_CAP, wr 0, by decide +kernel⟩,
   ⟨(set up [(F.PCIE_CFG_ROLE, 0, 0, 1)]), by decide +kernel⟩,
   ⟨up, _, _, 0, 0, 0xFFFC, 4, _, rfl, rfl, rfl, by decide +kernel⟩,
   ⟨up, _, _, 0, 2, 0xFFFC, 4, _, rfl, rfl, rfl, by decide +kernel⟩,
   ⟨up, _, _, 0, 0, 0xFFFC, [1, 0, 0, 0], rfl, rfl, by decide +kernel⟩,
   ⟨set up [(F.PCIE_CFG_ROLE, 0, 0, 1)], _, _, 0, rfl, rfl, by decide +kernel⟩,
   ⟨{ up with dev := { up.dev with settings := some { queueFns := [(0, 0)] } } }, 0, 0, 0, [1, 0, 0, 0], by decide +kernel⟩⟩

/-- MatrixEngineInstructions. -/
theorem wit_MatrixEngineInstructions :
    (∃ (c : MeStep → Instr) (op : Nat) (b : Nat → Kernel → Nat → State → Run) (s : State) (u : State) (m : MeStep) (k : Kernel) (t : _) (v : _), v = t.meTiming m ∧ ((c = .meNop ∧ op = 0 ∧ b = fun _ _ => plainBody) ∨ (c = .ldt ∧ op = 1 ∧ b = ldtBody) ∨ (c = .str ∧ op = 2 ∧ b = strBody) ∨ (c = .dcf ∧ op = 3 ∧ b = dcfBody) ∨ (c = .drn ∧ op = 4 ∧ b = drnBody) ∨ (c = .acl ∧ op = 5 ∧ b = aclBody) ∨ (c = .bar ∧ op = 6 ∧ b = fun _ _ => plainBody) ∨ (c = .endStream ∧ op = 0x3F ∧ b = endBody)) ∧ s.kernelOn 0 m.slot = some k ∧ k.status = none ∧ bitsOf (m.word % 2 ^ 128) 31 26 = op ∧ ((m.ecc = .none ∧ u = s.keyed (initiator 1 k.partition)) ∨ (m.ecc = .storeCorrected ∧ u = (s.keyed (initiator 1 k.partition)).addFld F.ME_ECC_CE 1 m.slot) ∨ (∃ a q, m.ecc = .append a q ∧ ((s.meSt m.slot).stages.getD []).any (fun w => stOp w == 0x0D) = false ∧ u = s.keyed (initiator 1 k.partition))) ∧ b m.slot k (m.word % 2 ^ 128) u = (t, none)) ∧
    (∃ (c : MeStep → Instr) (op : Nat) (b : Nat → Kernel → Nat → State → Run) (s : State) (u : State) (m : MeStep) (k : Kernel) (t : _) (cause : _), ((c = .meNop ∧ op = 0 ∧ b = fun _ _ => plainBody) ∨ (c = .ldt ∧ op = 1 ∧ b = ldtBody) ∨ (c = .str ∧ op = 2 ∧ b = strBody) ∨ (c = .dcf ∧ op = 3 ∧ b = dcfBody) ∨ (c = .drn ∧ op = 4 ∧ b = drnBody) ∨ (c = .acl ∧ op = 5 ∧ b = aclBody) ∨ (c = .bar ∧ op = 6 ∧ b = fun _ _ => plainBody) ∨ (c = .endStream ∧ op = 0x3F ∧ b = endBody)) ∧ s.kernelOn 0 m.slot = some k ∧ k.status = none ∧ bitsOf (m.word % 2 ^ 128) 31 26 = op ∧ ((m.ecc = .none ∧ u = s.keyed (initiator 1 k.partition)) ∨ (m.ecc = .storeCorrected ∧ u = (s.keyed (initiator 1 k.partition)).addFld F.ME_ECC_CE 1 m.slot) ∨ (∃ a q, m.ecc = .append a q ∧ ((s.meSt m.slot).stages.getD []).any (fun w => stOp w == 0x0D) = false ∧ u = s.keyed (initiator 1 k.partition))) ∧ b m.slot k (m.word % 2 ^ 128) u = (t, some cause)) ∧
    (∃ (t : State), t.scrubHit = true) ∧
    (∃ (t : State), t.scrubHit = false) ∧
    (∃ (c : MeStep → Instr) (s : State) (u : State) (m : MeStep) (k : Kernel), u = s.keyed (initiator 1 k.partition) ∧ c ∈ [Instr.meNop, .ldt, .str, .dcf, .drn, .acl, .bar, .endStream] ∧ s.kernelOn 0 m.slot = some k ∧ k.status = none ∧ s.scrubHit = false ∧ meListed (bitsOf (m.word % 2 ^ 128) 31 26) = false ∧ m.ecc = .none) ∧
    (∃ (c : MeStep → Instr) (s : State) (u : State) (m : MeStep) (k : Kernel) (a : _), u = s.keyed (initiator 1 k.partition) ∧ c ∈ [Instr.meNop, .ldt, .str, .dcf, .drn, .acl, .bar, .endStream] ∧ s.kernelOn 0 m.slot = some k ∧ k.status = none ∧ s.scrubHit = false ∧ m.ecc = .memory a) ∧
    (∃ (c : MeStep → Instr) (s : State) (u : State) (m : MeStep) (k : Kernel) (a : _) (q : _), u = s.keyed (initiator 1 k.partition) ∧ c ∈ [Instr.meNop, .ldt, .str, .dcf, .drn, .acl, .bar, .endStream] ∧ s.kernelOn 0 m.slot = some k ∧ k.status = none ∧ s.scrubHit = false ∧ m.ecc = .append a q ∧ ((s.meSt m.slot).stages.getD []).any (fun w => stOp w == 0x0D) = true) ∧
    (∃ (c : MeStep → Instr) (s : State) (u : State) (m : MeStep) (k : Kernel), u = s.keyed (initiator 1 k.partition) ∧ c ∈ [Instr.meNop, .ldt, .str, .dcf, .drn, .acl, .bar, .endStream] ∧ s.kernelOn 0 m.slot = some k ∧ k.status = none ∧ s.scrubHit = false ∧ m.ecc = .storeUncorrectable) ∧
    (∃ (s : State) (m : MeStep) (k : Kernel), s.kernelOn 0 m.slot = some k ∧ k.status = none ∧ s.scrubHit = false ∧ m.ecc = .none ∧ plainWord (m.word % 2 ^ 128) = true ∧ m.slot < s.me.stores.length ∧ bitsOf (m.word % 2 ^ 128) 31 26 = 6) ∧
    (∃ (s : State) (m : MeStep) (k : Kernel), s.kernelOn 0 m.slot = some k ∧ k.status = none ∧ s.scrubHit = false ∧ m.ecc = .none ∧ plainWord (m.word % 2 ^ 128) = true ∧ m.slot < s.me.stores.length ∧ bitsOf (m.word % 2 ^ 128) 31 26 = 0) ∧
    (∃ (s : State) (u : State) (v : State) (m : MeStep) (k : Kernel), u = s.keyed (initiator 1 k.partition) ∧ v = (u.setSt m.slot { u.meSt m.slot with dcf := m.word % 2 ^ 128 }).meTiming m ∧ s.kernelOn 0 m.slot = some k ∧ k.status = none ∧ m.ecc = .none ∧ s.scrubHit = false ∧ bitsOf (m.word % 2 ^ 128) 31 26 = 3 ∧ dcfBad (m.word % 2 ^ 128) = false ∧ dcfEwp (m.word % 2 ^ 128) = false) ∧
    (∃ (s : State) (u : State) (v : State) (m : MeStep) (k : Kernel), u = s.keyed (initiator 1 k.partition) ∧ v = ((u.zeroStore m.slot).endKernel k.id (if (u.meSt m.slot).clamped then csClamped else csDone)).meTiming m ∧ s.kernelOn 0 m.slot = some k ∧ k.status = none ∧ m.ecc = .none ∧ s.scrubHit = false ∧ bitsOf (m.word % 2 ^ 128) 31 26 = 0x3F ∧ plainWord (m.word % 2 ^ 128) = true ∧ (u.meSt m.slot).block = none) :=
  ⟨⟨Instr.bar, 6, fun _ _ => plainBody, busy [ker 0 (some 31)], (busy [ker 0 (some 31)]).keyed (initiator 1 0), { slot := 31, word := 6 * 2 ^ 26 }, ker 0 (some 31), (busy [ker 0 (some 31)]).keyed (initiator 1 0), _, rfl, .inr (.inr (.inr (.inr (.inr (.inr (.inl ⟨rfl, rfl, rfl⟩)))))), by decide +kernel, by decide +kernel, by decide +kernel, .inl ⟨rfl, rfl⟩, by decide +kernel⟩,
   ⟨Instr.str, 2, strBody, busy [ker 0 (some 31)], (busy [ker 0 (some 31)]).keyed (initiator 1 0), { slot := 31, word := 2 ^ 128 - 2 ^ 32 + 2 * 2 ^ 26, ecc := .append 64 3 }, ker 0 (some 31), (busy [ker 0 (some 31)]).keyed (initiator 1 0), 2, .inr (.inr (.inl ⟨rfl, rfl, rfl⟩)), by decide +kernel, by decide +kernel, by decide +kernel, .inr (.inr ⟨64, 3, rfl, by decide +kernel, rfl⟩), by decide +kernel⟩,
   ⟨{ up with scrubHit := true }, rfl⟩,
   ⟨up, rfl⟩,
   ⟨Instr.ldt, busy [ker 0 (some 31)], _, { slot := 31, word := 7 * 2 ^ 26 }, ker 0 (some 31), rfl, by simp, by decide +kernel⟩,
   ⟨Instr.ldt, busy [ker 0 (some 31)], _, { slot := 31, word := 0, ecc := .memory 64 }, ker 0 (some 31), 64, rfl, by simp, by decide +kernel⟩,
   ⟨Instr.drn, (busy [ker 0 (some 31)]).setSt 31 { stages := some [0x0D * 2 ^ 58] }, _, { slot := 31, word := 0, ecc := .append 64 3 }, ker 0 (some 31), 64, 3, rfl, by simp, by decide +kernel⟩,
   ⟨Instr.endStream, busy [ker 0 (some 31)], _, { slot := 31, word := 0, ecc := .storeUncorrectable }, ker 0 (some 31), rfl, by simp, by decide +kernel⟩,
   ⟨busy [ker 0 (some 31)], { slot := 31, word := 6 * 2 ^ 26 }, ker 0 (some 31), by decide +kernel⟩,
   ⟨busy [ker 0 (some 31)], { slot := 31, word := 0 }, ker 0 (some 31), by decide +kernel⟩,
   ⟨busy [ker 0 (some 31)], _, _, { slot := 31, word := 3 * 2 ^ 26 + 4 * 2 ^ 22 + 2 ^ 19 + 1 + 2 ^ 64 * 0x80 + 2 ^ 96 * 0x100 }, ker 0 (some 31), rfl, rfl, by decide +kernel⟩,
   ⟨busy [ker 0 (some 31)], _, _, { slot := 31, word := 63 * 2 ^ 26 }, ker 0 (some 31), rfl, rfl, by decide +kernel⟩⟩

/-- ScanCommands. -/
theorem wit_ScanCommands :
    (∃ (c : ScanRun → Instr) (mode : Nat) (s : State) (u : State) (r : ScanRun) (k : Kernel), u = s.keyed (initiator 2 k.partition) ∧ (c, mode) ∈ [(Instr.scanChunk, 0), (.scanStep, 1), (.scanCombine, 2)] ∧ s.running 1 r.engine = some k ∧ (if k.scan.mode = 1 ∨ k.scan.mode = 2 then k.scan.mode else 0) = mode ∧ k.scan.bad = true) ∧
    (∃ (c : ScanRun → Instr) (mode : Nat) (s : State) (u : State) (r : ScanRun) (k : Kernel), u = s.keyed (initiator 2 k.partition) ∧ (c, mode) ∈ [(Instr.scanChunk, 0), (.scanStep, 1), (.scanCombine, 2)] ∧ s.running 1 r.engine = some k ∧ (if k.scan.mode = 1 ∨ k.scan.mode = 2 then k.scan.mode else 0) = mode ∧ k.scan.bad = false ∧ mode = 2) ∧
    (∃ (c : ScanRun → Instr) (mode : Nat) (s : State) (u : State) (r : ScanRun) (k : Kernel), u = s.keyed (initiator 2 k.partition) ∧ (c, mode) ∈ [(Instr.scanChunk, 0), (.scanStep, 1), (.scanCombine, 2)] ∧ s.running 1 r.engine = some k ∧ (if k.scan.mode = 1 ∨ k.scan.mode = 2 then k.scan.mode else 0) = mode ∧ k.scan.bad = false ∧ mode ≠ 2 ∧ u.memOk (initiator 2 k.partition) (k.scanRef 0x10) (4 * k.scan.batch) false = false) ∧
    (∃ (c : ScanRun → Instr) (mode : Nat) (s : State) (u : State) (r : ScanRun) (k : Kernel), u = s.keyed (initiator 2 k.partition) ∧ (c, mode) ∈ [(Instr.scanChunk, 0), (.scanStep, 1), (.scanCombine, 2)] ∧ s.running 1 r.engine = some k ∧ (if k.scan.mode = 1 ∨ k.scan.mode = 2 then k.scan.mode else 0) = mode ∧ k.scan.bad = false ∧ mode ≠ 2 ∧ u.memOk (initiator 2 k.partition) (k.scanRef 0x10) (4 * k.scan.batch) false = true ∧ u.scanWaits k k.scan = true) ∧
    (∃ (c : ScanRun → Instr) (mode : Nat) (s : State) (u : State) (r : ScanRun) (k : Kernel) (q : _), u = s.keyed (initiator 2 k.partition) ∧ (c, mode) ∈ [(Instr.scanChunk, 0), (.scanStep, 1), (.scanCombine, 2)] ∧ s.running 1 r.engine = some k ∧ (if k.scan.mode = 1 ∨ k.scan.mode = 2 then k.scan.mode else 0) = mode ∧ k.scan.bad = false ∧ mode ≠ 2 ∧ u.memOk (initiator 2 k.partition) (k.scanRef 0x10) (4 * k.scan.batch) false = true ∧ u.scanWaits k k.scan = false ∧ u.scanLost k k.scan = some q ∧ s.scrubHit = false) ∧
    (∃ (c : ScanRun → Instr) (mode : Nat) (s : State) (u : State) (r : ScanRun) (k : Kernel), u = s.keyed (initiator 2 k.partition) ∧ (c, mode) ∈ [(Instr.scanChunk, 0), (.scanStep, 1), (.scanCombine, 2)] ∧ s.running 1 r.engine = some k ∧ (if k.scan.mode = 1 ∨ k.scan.mode = 2 then k.scan.mode else 0) = mode ∧ k.scan.bad = false ∧ mode ≠ 2 ∧ u.memOk (initiator 2 k.partition) (k.scanRef 0x10) (4 * k.scan.batch) false = true ∧ u.scanWaits k k.scan = false ∧ u.scanLost k k.scan = none) ∧
    (∃ (s : State) (p : Nat) (q : Nat) (x : Stream), s.stream? p q = some x ∧ x.slot.isSome = true ∧ x.pin = none ∧ x.lock = none ∧ ((s.reg .SCAN_SWAPCFG ≠ 0 ∧ x.used + 1000 * s.reg .SCAN_SWAPCFG ≤ s.dev.nowNs) ∨ (s.freeSlot p = none ∧ s.victim p = some x))) ∧
    (∃ (s : State) (p : Nat) (q : Nat) (x : Stream) (k : _) (t : _), s.stream? p q = some x ∧ x.slot = none ∧ x.pin = none ∧ s.takeSlot p = some (k, t)) ∧
    (∃ (s : State) (p : Nat) (q : Nat) (x : Stream), s.stream? p q = some x ∧ x.slot = none ∧ x.pin = none ∧ s.takeSlot p = none) ∧
    (∃ (s : State) (w : RegWrite), s.p0 w.initiator = true ∧ s.gated .SCAN = false ∧ s.flag F.SCAN_PINSTAT_BUSY = false) ∧
    (∃ (s : State) (w : RegWrite), s.p0 w.initiator = true ∧ s.gated .SCAN = false ∧ s.flag F.SCAN_PINSTAT_BUSY = true) :=
  ⟨⟨Instr.scanCombine, 2, busy [ker 1 (some 7) ([2])], _, { engine := 7 }, ker 1 (some 7) ([2]), rfl, by simp, by decide +kernel⟩,
   ⟨Instr.scanCombine, 2, busy [ker 1 (some 7) (scan1 2)], _, { engine := 7 }, ker 1 (some 7) (scan1 2), rfl, by simp, by decide +kernel⟩,
   ⟨Instr.scanStep, 1, busy [ker 1 (some 7) (scan1 1 ++ toLe 8 0x30000000)], _, { engine := 7 }, ker 1 (some 7) (scan1 1 ++ toLe 8 0x30000000), rfl, by simp, by decide +kernel⟩,
   ⟨Instr.scanStep, 1, { busy [ker 1 (some 7) (scan1 1)] with streams := [{ partition := 0, seq := 0, slot := some 0, lock := some 99 }] }, _, { engine := 7 }, ker 1 (some 7) (scan1 1), rfl, by simp, by decide +kernel⟩,
   ⟨Instr.scanStep, 1, { busy [ker 1 (some 7) (scan1 1)] with streams := [{ partition := 0, seq := 0 }] }, _, { engine := 7 }, ker 1 (some 7) (scan1 1), 0, rfl, by simp, by decide +kernel⟩,
   ⟨Instr.scanStep, 1, busy [ker 1 (some 7) (scan1 1)], _, { engine := 7 }, ker 1 (some 7) (scan1 1), rfl, by simp, by decide +kernel⟩,
   ⟨{ (State.loadRegs up [(.SCAN_SWAPCFG, 0, 0, 1)]) with streams := [{ partition := 0, seq := 5, slot := some 0 }], dev := { up.dev with nowNs := 1000 } }, 0, 5, { partition := 0, seq := 5, slot := some 0 }, by decide +kernel⟩,
   ⟨{ (set up [(F.SCAN_SLOTCFG_COUNT, 0, 0, 1), (F.SCAN_QUOTA_QUOTA, 0, 0, 1)]) with streams := [{ partition := 0, seq := 5 }] }, 0, 5, { partition := 0, seq := 5 }, 0, { (set up [(F.SCAN_SLOTCFG_COUNT, 0, 0, 1), (F.SCAN_QUOTA_QUOTA, 0, 0, 1)]) with streams := [{ partition := 0, seq := 5 }] }, by decide +kernel⟩,
   ⟨{ up with streams := [{ partition := 0, seq := 5 }] }, 0, 5, { partition := 0, seq := 5 }, by decide +kernel⟩,
   ⟨up, wr 1, by decide +kernel⟩,
   ⟨(set up [(F.SCAN_PINSTAT_BUSY, 0, 0, 1)]), wr 1, by decide +kernel⟩⟩

/-- KvPackets. -/
theorem wit_KvPackets :
    (∃ (s : State) (p : Packet) (r : Rule) (n : Nat), r = kvCreateRule p s ∧ n = (s.entered r p).seqState p.partition p.target ∧ s.starts r p = true ∧ n = 0) ∧
    (∃ (s : State) (p : Packet) (r : Rule) (n : Nat), r = kvCreateRule p s ∧ n = (s.entered r p).seqState p.partition p.target ∧ s.starts r p = true ∧ n = 4) ∧
    (∃ (s : State) (p : Packet) (r : Rule) (n : Nat), r = kvCreateRule p s ∧ n = (s.entered r p).seqState p.partition p.target ∧ s.starts r p = true ∧ n ≠ 0 ∧ n ≠ 4) ∧
    (∃ (s : State) (u : State) (p : Packet) (r : Rule), r = kvRule 2 p s (kvAttachFormat p) ∧ u = s.entered r p ∧ s.starts r p = true ∧ u.seqState p.partition p.target = 4) ∧
    (∃ (s : State) (u : State) (p : Packet) (r : Rule), r = kvRule 2 p s (kvAttachFormat p) ∧ u = s.entered r p ∧ s.starts r p = true ∧ u.seqState p.partition p.target ≠ 4 ∧ kvAttachOk p u = false) ∧
    (∃ (s : State) (p : Packet), s.starts (kvRule 2 p s (kvAttachFormat p)) p = true ∧ (s.entered (kvRule 2 p s (kvAttachFormat p)) p).seqState p.partition p.target ≠ 4 ∧ kvAttachOk p (s.entered (kvRule 2 p s (kvAttachFormat p)) p) = true ∧ (s.entered (kvRule 2 p s (kvAttachFormat p)) p).usesTree p.partition p.target = true) ∧
    (∃ (s : State) (p : Packet), s.starts (kvRule 2 p s (kvAttachFormat p)) p = true ∧ (s.entered (kvRule 2 p s (kvAttachFormat p)) p).seqState p.partition p.target ≠ 4 ∧ kvAttachOk p (s.entered (kvRule 2 p s (kvAttachFormat p)) p) = true ∧ (s.entered (kvRule 2 p s (kvAttachFormat p)) p).usesTree p.partition p.target = false) ∧
    (∃ (s : State) (p : Packet), s.starts (kvStepRule p) p = true) ∧
    (∃ (s : State) (p : Packet), s.starts (kvCommitRule p) p = true) ∧
    (∃ (s : State) (u : State) (p : Packet) (r : Rule) (n : Nat), r = kvRule 5 p s (p.plen == 0) ∧ u = s.entered r p ∧ n = u.seqState p.partition p.target ∧ s.starts r p = true ∧ (n = 0 ∨ u.seqFlag p.partition p.target 2 = true ∨ u.seqFlag p.partition p.target 4 = true)) ∧
    (∃ (s : State) (u : State) (p : Packet) (r : Rule) (n : Nat), r = kvRule 5 p s (p.plen == 0) ∧ u = s.entered r p ∧ n = u.seqState p.partition p.target ∧ s.starts r p = true ∧ u.seqFlag p.partition p.target 2 = false ∧ u.seqFlag p.partition p.target 4 = false ∧ (n = 1 ∨ n = 2)) ∧
    (∃ (s : State) (u : State) (p : Packet) (r : Rule) (n : Nat), r = kvRule 5 p s (p.plen == 0) ∧ u = s.entered r p ∧ n = u.seqState p.partition p.target ∧ s.starts r p = true ∧ u.seqFlag p.partition p.target 2 = false ∧ u.seqFlag p.partition p.target 4 = false ∧ n ≠ 0 ∧ n ≠ 1 ∧ n ≠ 2) ∧
    (∃ (s : State) (p : Packet), s.starts (kvQueryRule p s) p = true) :=
  ⟨⟨kvs [], sealPacket ⟨5, 1⟩ { queue := 0, target := 3, plen := 2, payload := padTo 64 [] }, _, _, rfl, rfl, by decide +kernel⟩,
   ⟨kvs [4], sealPacket ⟨5, 1⟩ { queue := 0, plen := 2, payload := padTo 64 [] }, _, _, rfl, rfl, by decide +kernel⟩,
   ⟨kvs [1], sealPacket ⟨5, 1⟩ { queue := 0, plen := 2, payload := padTo 64 [] }, _, _, rfl, rfl, by decide +kernel⟩,
   ⟨kvs [4], _, sealPacket ⟨5, 2⟩ { queue := 0, plen := 1, payload := padTo 32 [] }, _, rfl, rfl, by decide +kernel⟩,
   ⟨kvs [1, 0, 4], _, sealPacket ⟨5, 2⟩ { queue := 0, plen := 1, payload := padTo 32 [] }, _, rfl, rfl, by decide +kernel⟩,
   ⟨kvs [1], sealPacket ⟨5, 2⟩ { queue := 0, plen := 1, payload := padTo 32 [] }, by decide +kernel⟩,
   ⟨kvs [1, 0, 2], sealPacket ⟨5, 2⟩ { queue := 0, plen := 1, payload := padTo 32 [] }, by decide +kernel⟩,
   ⟨kvs [1], sealPacket ⟨5, 3⟩ { queue := 0, plen := 3, payload := padTo 96 [1] }, by decide +kernel⟩,
   ⟨kvs [1], sealPacket ⟨5, 4⟩ { queue := 0, target := 0x1000 }, by decide +kernel⟩,
   ⟨kvs [], _, sealPacket ⟨5, 5⟩ { queue := 0, target := 3 }, _, _, rfl, rfl, rfl, by decide +kernel⟩,
   ⟨kvs [1], _, sealPacket ⟨5, 5⟩ { queue := 0 }, _, _, rfl, rfl, rfl, by decide +kernel⟩,
   ⟨kvs [3], _, sealPacket ⟨5, 5⟩ { queue := 0 }, _, _, rfl, rfl, rfl, by decide +kernel⟩,
   ⟨kvs [1], sealPacket ⟨5, 6⟩ { queue := 0 }, by decide +kernel⟩⟩

/-- KvEngineCommands. -/
theorem wit_KvEngineCommands :
    (∃ (s : State) (x : GatherRun) (k : Kernel) (u : _), s.running 2 x.engine = some k ∧ u = s.keyed (initiator 3 k.partition) ∧ k.gather.mode = 1) ∧
    (∃ (s : State) (x : GatherRun) (k : Kernel) (u : _), s.running 2 x.engine = some k ∧ u = s.keyed (initiator 3 k.partition) ∧ k.gather.mode ≠ 1) ∧
    (∃ (s : State), s.kv.parked = []) ∧
    (∃ (s : State) (p : Nat) (q : Nat), s.seqExists p q = true ∧ s.seqState p q = 2 ∧ s.kv.parked.contains (p, q) = true ∧ s.parkedOut p q = true ∧ s.grants p (s.seqDemand p q) = false) ∧
    (∃ (s : State) (t : State) (p : Nat) (q : Nat), t = { s with due := s.due.erase (.kvTermination p q) } ∧ s.seqExists p q = true ∧ s.seqState p q = 2 ∧ s.kv.parked.contains (p, q) = true ∧ (s.parkedOut p q = false ∨ s.grants p (s.seqDemand p q) = true)) ∧
    (∃ (s : State) (p : Nat) (q : Nat), s.seqExists p q = true ∧ (s.seqState p q = 1 ∨ s.seqState p q = 2) ∧ s.seqFlag p q 4 = true ∧ s.seqFlag p q 2 = false ∧ s.freePlaces p (s.seqPages p q).length = none) ∧
    (∃ (s : State) (p : Nat) (q : Nat) (places : List Nat) (r : State × Bool), r = swapPages p true ((s.seqPages p q).zip places) s ∧ s.seqExists p q = true ∧ (s.seqState p q = 1 ∨ s.seqState p q = 2) ∧ s.seqFlag p q 4 = true ∧ s.seqFlag p q 2 = false ∧ s.freePlaces p (s.seqPages p q).length = some places ∧ r.2 = false) ∧
    (∃ (s : State) (p : Nat) (q : Nat) (places : List Nat) (r : State × Bool), r = swapPages p true ((s.seqPages p q).zip places) s ∧ s.seqExists p q = true ∧ (s.seqState p q = 1 ∨ s.seqState p q = 2) ∧ s.seqFlag p q 4 = true ∧ s.seqFlag p q 2 = false ∧ s.freePlaces p (s.seqPages p q).length = some places ∧ r.2 = true) ∧
    (∃ (s : State) (p : Nat) (q : Nat) (asked : Nat) (places : List Nat), s.kv.swapped.find? (fun e => e.1 == p && e.2.1 == q) = some (p, q, places) ∧ s.askedAt p q = some asked ∧ s.seqState p q = 3 ∧ s.grants p places.length = false) ∧
    (∃ (s : State) (p : Nat) (q : Nat) (asked : Nat) (places : List Nat) (r : List Nat × State) (m : State × Bool), r = State.popPages p places.length s ∧ m = swapPages p false (r.1.zip places) r.2 ∧ s.kv.swapped.find? (fun e => e.1 == p && e.2.1 == q) = some (p, q, places) ∧ s.askedAt p q = some asked ∧ s.seqState p q = 3 ∧ s.grants p places.length = true ∧ m.2 = false) ∧
    (∃ (s : State) (p : Nat) (q : Nat) (asked : Nat) (places : List Nat) (r : List Nat × State) (m : State × Bool), r = State.popPages p places.length s ∧ m = swapPages p false (r.1.zip places) r.2 ∧ s.kv.swapped.find? (fun e => e.1 == p && e.2.1 == q) = some (p, q, places) ∧ s.askedAt p q = some asked ∧ s.seqState p q = 3 ∧ s.grants p places.length = true ∧ m.2 = true) ∧
    (∃ (s : State) (n : Nat) (w : RegWrite), s.p0 w.initiator = true ∧ s.gated .ADMA = false ∧ n < 64 ∧ s.layoutOk (w.value % 2 ^ 64) = true ∧ s.layoutUsed n = false) ∧
    (∃ (s : State) (n : Nat) (w : RegWrite), s.p0 w.initiator = true ∧ s.gated .ADMA = false ∧ n < 64 ∧ (s.layoutOk (w.value % 2 ^ 64) = false ∨ s.layoutUsed n = true)) :=
  ⟨⟨busy [ker 2 (some 7) [1]], { engine := 7 }, ker 2 (some 7) [1], _, by decide +kernel, rfl, by decide +kernel⟩,
   ⟨busy [ker 2 (some 7)], { engine := 7 }, ker 2 (some 7), _, by decide +kernel, rfl, by decide +kernel⟩,
   ⟨up, by decide +kernel⟩,
   ⟨{ (kvs ([2] ++ List.replicate 0x39 0 ++ [255])) with kv := { up.kv with parked := [(0, 0)] } }, 0, 0, by decide +kernel⟩,
   ⟨{ kvs [2] with kv := { up.kv with parked := [(0, 0)] } }, _, 0, 0, rfl, by decide +kernel⟩,
   ⟨set (kvs ([1, 0, 16] ++ List.replicate 9 0 ++ [1])) [(F.ADMA_LAYOUT_NL_FULL, 0, 0, 1), (F.ADMA_BACKING_SIZE_GIB, 0, 0, 0)], 0, 0, by decide +kernel⟩,
   ⟨set (kvs ([1, 0, 16] ++ List.replicate 9 0 ++ [1])) [(F.ADMA_LAYOUT_NL_FULL, 0, 0, 1), (F.ADMA_BACKING_SIZE_GIB, 0, 0, 1)], 0, 0, [0], _, rfl, by decide +kernel⟩,
   ⟨kvs [1, 0, 16], 0, 0, [], _, rfl, by decide +kernel⟩,
   ⟨{ kvs [3] with kv := { up.kv with wanted := [((0, 0), 0)], swapped := [(0, 0, [0])] } }, 0, 0, 0, [0], by decide +kernel⟩,
   ⟨{ set (kvs [3]) [(F.ADMA_STACKCNT_COUNT, 0, 0, 9)] with kv := { up.kv with wanted := [((0, 0), 0)], swapped := [(0, 0, [0])] } }, 0, 0, 0, [0], _, _, rfl, rfl, by decide +kernel⟩,
   ⟨{ kvs [3] with kv := { up.kv with wanted := [((0, 0), 0)], swapped := [(0, 0, [])] } }, 0, 0, 0, [], _, _, rfl, rfl, by decide +kernel⟩,
   ⟨up, 63, wr 0, by decide +kernel⟩,
   ⟨up, 63, wr (2 ^ 63), by decide +kernel⟩⟩

/-- VisionCommands. -/
theorem wit_VisionCommands :
    (∃ (s : State) (p : Packet), s.starts (visRunRule p s) p = true) ∧
    (∃ (s : State) (x : VisRun) (k : Kernel) (u : _), u = s.keyed (initiator 4 k.partition) ∧ s.scrubHit = false ∧ s.running 3 x.unit = some k ∧ x.ecc = none) ∧
    (∃ (s : State) (x : VisRun) (k : Kernel) (u : _) (a : _), u = s.keyed (initiator 4 k.partition) ∧ s.scrubHit = false ∧ s.running 3 x.unit = some k ∧ x.ecc = some a) ∧
    (∃ (s : State) (x : VisRun) (k : Kernel) (u : _), u = s.keyed (initiator 4 k.partition) ∧ s.scrubHit = false ∧ s.running 4 x.unit = some k ∧ x.ecc = none) ∧
    (∃ (s : State) (x : VisRun) (k : Kernel) (u : _) (a : _), u = s.keyed (initiator 4 k.partition) ∧ s.scrubHit = false ∧ s.running 4 x.unit = some k ∧ x.ecc = some a) ∧
    (∃ (s : State) (x : VisRun) (k : Kernel) (u : _), u = s.keyed (initiator 4 k.partition) ∧ s.scrubHit = false ∧ s.running 5 x.unit = some k ∧ x.ecc = none) ∧
    (∃ (s : State) (x : VisRun) (k : Kernel) (u : _) (a : _), u = s.keyed (initiator 4 k.partition) ∧ s.scrubHit = false ∧ s.running 5 x.unit = some k ∧ x.ecc = some a) ∧
    (∃ (s : State) (t : State) (part : Nat) (ecc : Option Nat) (k : Kernel) (x : Kernel), t = (s.keyed (initiator 7 part)).jobRun none k ecc (fun u => u.ppeBody k) ∧ s.nextRouted part = some k ∧ s.libraryRuns part = true ∧ t.esc.kernels.find? (fun x => x.id == k.id) = some x) :=
  ⟨⟨up, sealPacket ⟨7, 1⟩ { queue := 0, plen := 4, payload := padTo 128 [] }, by decide +kernel⟩,
   ⟨busy [ker 3 (some 3)], { unit := 3 }, ker 3 (some 3), _, rfl, by decide +kernel⟩,
   ⟨busy [ker 3 (some 3)], { unit := 3, ecc := some 64 }, ker 3 (some 3), _, 64, rfl, by decide +kernel⟩,
   ⟨busy [ker 4 (some 3)], { unit := 3 }, ker 4 (some 3), _, rfl, by decide +kernel⟩,
   ⟨busy [ker 4 (some 3)], { unit := 3, ecc := some 64 }, ker 4 (some 3), _, 64, rfl, by decide +kernel⟩,
   ⟨busy [ker 5 (some 3)], { unit := 3 }, ker 5 (some 3), _, rfl, by decide +kernel⟩,
   ⟨busy [ker 5 (some 3)], { unit := 3, ecc := some 64 }, ker 5 (some 3), _, 64, rfl, by decide +kernel⟩,
   ⟨{ set (busy [{ ker 5 none with routed := true }]) [(⟨.SYS_HARTSTATE, 2, 0⟩, 0, 0, stRunning)] with dev := { up.dev with settings := some { harts := [(0, 0)] } } }, _, 0, none, { ker 5 none with routed := true }, { ker 5 none with routed := true, status := some csEngine, result := 2 }, rfl, by decide +kernel⟩⟩

/-- GrenlinkLinkCommands. -/
theorem wit_GrenlinkLinkCommands :
    (∃ (s : State) (x : LinkUp), x.member = s.self ∧ s.glkPortLive x.port = true ∧ s.fld F.GLK_PSTAT_WIDTH x.port = 0) ∧
    (∃ (s : State) (x : LinkUp), x.member = s.self ∧ (s.glkPortLive x.port = false ∨ s.fld F.GLK_PSTAT_WIDTH x.port ≠ 0)) ∧
    (∃ (s : State) (x : LinkUp), x.member ≠ s.self) ∧
    (∃ (s : State) (m : Nat) (n : Nat), m = s.self ∧ n < 4 ∧ s.fld F.GLK_PSTAT_WIDTH n ≠ 0) ∧
    (∃ (s : State) (m : Nat) (n : Nat), m ≠ s.self ∧ s.glk.down.contains (s.linkOf m n) = false) ∧
    (∃ (s : State) (m : Nat) (n : Nat), m ≠ s.self ∧ s.glk.down.contains (s.linkOf m n) = true) ∧
    (∃ (s : State) (n : Nat) (h : Hello), s.glkPortLive n = true ∧ s.fld F.GLK_PSTAT_WIDTH n ≠ 0 ∧ s.helloOk n h = false) ∧
    (∃ (s : State) (n : Nat) (h : Hello), s.glkPortLive n = true ∧ s.fld F.GLK_PSTAT_WIDTH n ≠ 0 ∧ s.helloOk n h = true) ∧
    (∃ (s : State) (n : Nat), s.glkPortLive n = true ∧ (s.neighbour s.self n).isSome = true ∧ s.portUp n = false) ∧
    (∃ (s : State) (n : Nat), s.glkPortLive n = true ∧ ((s.neighbour s.self n).isSome = false ∨ s.portUp n = true)) ∧
    (∃ (s : State) (n : Nat) (a : Announce), (s.portUp n = false ∨ 64 ≤ a.hops ∨ a.cluster ≠ s.fld F.GLK_ID_CLUSTER ∨ a.uid = s.reg .GLK_UID)) ∧
    (∃ (s : State) (n : Nat) (a : Announce) (keep : _) (t : _), keep = s.liveMembers.filter (fun e => !(e.1.member == a.member && e.1.uid == a.uid)) ∧ t = { s with glk := { s.glk with members := keep ++ [(a, s.dev.nowNs)] } } ∧ s.portUp n = true ∧ a.hops < 64 ∧ a.cluster = s.fld F.GLK_ID_CLUSTER ∧ a.uid ≠ s.reg .GLK_UID ∧ s.seenBefore a = true) ∧
    (∃ (s : State) (n : Nat) (a : Announce) (keep : _) (t : _), keep = s.liveMembers.filter (fun e => !(e.1.member == a.member && e.1.uid == a.uid)) ∧ t = { s with glk := { s.glk with members := keep ++ [(a, s.dev.nowNs)] } } ∧ s.portUp n = true ∧ a.hops < 64 ∧ a.cluster = s.fld F.GLK_ID_CLUSTER ∧ a.uid ≠ s.reg .GLK_UID ∧ s.seenBefore a = false) ∧
    (∃ (s : State), (s.fnState fnGlk = stStarting ∨ s.fnUsable fnGlk = true)) ∧
    (∃ (s : State) (n : Nat) (flit : Nat), s.portUp n = true ∧ 16 ≤ s.badReplays n flit) ∧
    (∃ (s : State) (n : Nat) (flit : Nat), s.portUp n = true ∧ s.badReplays n flit < 16) ∧
    (∃ (s : State) (x : DelayMeasure), s.regsWf ∧ s.portUp x.port = true ∧ s.rootPort ≠ some x.port) ∧
    (∃ (s : State) (t : State) (u : State) (x : DelayMeasure), t = (s.putFld F.GLK_PDELAY_DELAY x.delay x.port).putFld F.GLK_PDELAY_CAL 1 x.port ∧ u = { t with glk := { t.glk with offsets := t.glk.offsets.filter (fun (e : Nat × Int) => e.1 != x.port) ++ [(x.port, x.offset)] } } ∧ s.portUp x.port = true ∧ s.rootPort = some x.port) :=
  ⟨⟨ring, { member := 0, port := 0 }, by decide +kernel⟩,
   ⟨ring, { member := 0, port := 1 }, by decide +kernel⟩,
   ⟨ring, { member := 1, port := 0 }, by decide +kernel⟩,
   ⟨ring, _, 1, rfl, by decide +kernel⟩,
   ⟨ring, 1, 0, by decide +kernel⟩,
   ⟨glkSet ring (fun g => { g with down := [ring.linkOf 1 0] }), 1, 0, by decide +kernel⟩,
   ⟨ring, 1, { member := 2, cluster := 9, uid := 78, port := 0 }, by decide +kernel⟩,
   ⟨ring, 1, { member := 3, cluster := 9, uid := 78, port := 0 }, by decide +kernel⟩,
   ⟨ring, 0, by decide +kernel⟩,
   ⟨ring, 1, by decide +kernel⟩,
   ⟨ring, 0, { member := 3, cluster := 9, uid := 78, prio := 1 }, by decide +kernel⟩,
   ⟨glkSet ring (fun g => { g with members := [({ member := 3, cluster := 9, uid := 78, prio := 1, hops := 63 }, 0)] }), 1, { member := 3, cluster := 9, uid := 78, prio := 1, hops := 63 }, _, _, rfl, rfl, by decide +kernel⟩,
   ⟨ring, 1, { member := 3, cluster := 9, uid := 78, prio := 1, hops := 63 }, _, _, rfl, rfl, by decide +kernel⟩,
   ⟨up, by decide +kernel⟩,
   ⟨glkSet ring (fun g => { g with replays := [(1, 5, 15)] }), 1, 5, by decide +kernel⟩,
   ⟨glkSet ring (fun g => { g with replays := [(1, 5, 14)] }), 1, 5, by decide +kernel⟩,
   ⟨ring, { port := 1, delay := 100 }, by decide +kernel⟩,
   ⟨set ring [(F.GLK_ROOTSTAT_ELECTED, 0, 0, 1), (F.GLK_ROOTSTAT_ROOT_MEMBER, 0, 0, 3)], _, _, { port := 1, delay := 100 }, rfl, rfl, by decide +kernel⟩⟩

/-- GrenlinkTimeCommands. -/
theorem wit_GrenlinkTimeCommands :
    (∃ (s : State) (n : Nat) (prio : Nat) (uid : Nat), s.portUp n = true ∧ prio ≠ 0 ∧ betterClaim (prio, uid) s.glk.best = true) ∧
    (∃ (s : State) (n : Nat) (prio : Nat) (uid : Nat), s.portUp n = true ∧ (prio = 0 ∨ betterClaim (prio, uid) s.glk.best = false)) ∧
    (∃ (s : State), (s.fnState fnGlk = stStarting ∨ s.fnUsable fnGlk = true)) ∧
    (∃ (s : State), s.flag F.GLK_ROOTSTAT_ELECTED = true ∧ s.flag F.GLK_ROOTSTAT_IS_ROOT = false) ∧
    (∃ (s : State) (n : Nat) (wake : Nat), s.napEnabled = true ∧ s.portUp n = true ∧ s.napOf n = none ∧ s.portBusy n = false ∧ s.time < wake ∧ wake ≤ s.time + bitsOf (s.reg .GLK_NAPMAX) 15 0 * 1000) ∧
    (∃ (s : State) (n : Nat), s.portUp n = true ∧ s.flag F.MEMC_CFG_REPEATABLE = false ∧ s.flag F.GLK_PSTAT_NAP n = false ∧ s.portBusy n = false ∧ s.ownStands n = false) ∧
    (∃ (s : State) (n : Nat) (b : Bool), (s.portUp n = false ∨ s.flag F.MEMC_CFG_REPEATABLE = true ∨ s.flag F.GLK_PSTAT_NAP n = true ∨ b = true ∨ s.portBusy n = true ∨ s.ownStands n = true)) ∧
    (∃ (s : State) (n : Nat) (x : Nap), s.napOf n = some x ∧ x.mine = true ∧ x.asleep = false ∧ s.portUp n = true) ∧
    (∃ (s : State) (n : Nat) (x : Nap), s.napOf n = some x ∧ x.asleep = true ∧ s.listens x = true) :=
  ⟨⟨ring, 1, 1, 77, by decide +kernel⟩,
   ⟨ring, 1, 0, 0, by decide +kernel⟩,
   ⟨up, by decide +kernel⟩,
   ⟨(set ring [(F.GLK_ROOTSTAT_ELECTED, 0, 0, 1)]), by decide +kernel⟩,
   ⟨ring, 1, 11000, by decide +kernel⟩,
   ⟨ring, 1, by decide +kernel⟩,
   ⟨up, 0, false, by decide +kernel⟩,
   ⟨glkSet ring (fun g => { g with naps := [{ port := 1, wake := 5000 }] }), 1, { port := 1, wake := 5000 }, by decide +kernel⟩,
   ⟨glkSet ring (fun g => { g with naps := [{ port := 1, wake := 1000, asleep := true }] }), 1, { port := 1, wake := 1000, asleep := true }, by decide +kernel⟩⟩

/-- BarrierCommands. -/
theorem wit_BarrierCommands :
    (∃ (s : State) (p : Packet), s.starts (barrierRule p) p = true ∧ (s.entered (barrierRule p) p).flag F.GLK_ROOTSTAT_IS_ROOT = false) ∧
    (∃ (s : State) (p : Packet), s.starts (barrierRule p) p = true ∧ (s.entered (barrierRule p) p).flag F.GLK_ROOTSTAT_IS_ROOT = true ∧ (((s.entered (barrierRule p) p).flag F.GLK_TIMESTAT_LOCKED = false ∨ 8 ≤ (s.entered (barrierRule p) p).glk.roots.length))) ∧
    (∃ (s : State) (p : Packet), s.starts (barrierRule p) p = true ∧ (s.entered (barrierRule p) p).flag F.GLK_ROOTSTAT_IS_ROOT = true ∧ (s.entered (barrierRule p) p).flag F.GLK_TIMESTAT_LOCKED = true ∧ (s.entered (barrierRule p) p).glk.roots.length < 8) ∧
    (∃ (s : State) (id : Nat) (m : Nat) (b : RootBar), s.glk.roots.find? (fun b => b.id == id) = some b ∧ b.members.testBit m = true ∧ b.acks.testBit m = false ∧ b.nacks.testBit m = false) ∧
    (∃ (s : State) (id : Nat), s.glk.void.contains id = true) ∧
    (∃ (s : State) (id : Nat), s.glk.void.contains id = false) ∧
    (∃ (s : State) (id : Nat) (m : Nat) (ok : Bool) (b : RootBar) (c : RootBar), c = (if ok then { b with released := b.released + 2 ^ m } else { b with missed := b.missed + 2 ^ m }) ∧ s.glk.roots.find? (fun b => b.id == id && b.confirmed) = some b ∧ b.members.testBit m = true ∧ b.released.testBit m = false ∧ b.missed.testBit m = false ∧ c.released + c.missed ≠ c.members) ∧
    (∃ (s : State) (id : Nat) (m : Nat) (ok : Bool) (b : RootBar) (c : RootBar), c = (if ok then { b with released := b.released + 2 ^ m } else { b with missed := b.missed + 2 ^ m }) ∧ s.glk.roots.find? (fun b => b.id == id && b.confirmed) = some b ∧ b.members.testBit m = true ∧ b.released.testBit m = false ∧ b.missed.testBit m = false ∧ c.released + c.missed = c.members ∧ c.missed = 0) ∧
    (∃ (s : State) (id : Nat) (m : Nat) (ok : Bool) (b : RootBar) (c : RootBar), c = (if ok then { b with released := b.released + 2 ^ m } else { b with missed := b.missed + 2 ^ m }) ∧ s.glk.roots.find? (fun b => b.id == id && b.confirmed) = some b ∧ b.members.testBit m = true ∧ b.released.testBit m = false ∧ b.missed.testBit m = false ∧ c.released + c.missed = c.members ∧ c.missed ≠ 0) ∧
    (∃ (s : State) (id : Nat) (b : RootBar), s.glk.roots.find? (fun b => b.id == id && !b.confirmed) = some b ∧ b.acks = b.members ∧ s.flag F.GLK_ROOTSTAT_IS_ROOT = true ∧ b.members ≠ 0) ∧
    (∃ (s : State) (id : Nat) (b : RootBar), s.glk.roots.find? (fun b => b.id == id && !b.confirmed) = some b ∧ b.acks = b.members ∧ s.flag F.GLK_ROOTSTAT_IS_ROOT = true ∧ b.members = 0) ∧
    (∃ (s : State) (id : Nat) (b : RootBar), s.glk.roots.find? (fun b => b.id == id && !b.confirmed) = some b ∧ (b.acks ≠ b.members ∨ s.flag F.GLK_ROOTSTAT_IS_ROOT = false)) ∧
    (∃ (s : State) (id : Nat) (x : BarArm) (ok : Bool) (t : _), (s.glk.bars.find? (fun b => b.1.id == id) = some (x, ok)) ∧ (t = ({ s with glk := { s.glk with bars := s.glk.bars.filter (fun b => b.1.id != id) } } : State).showArmed) ∧ ok = true) ∧
    (∃ (s : State) (id : Nat) (x : BarArm) (ok : Bool) (t : _), (s.glk.bars.find? (fun b => b.1.id == id) = some (x, ok)) ∧ (t = ({ s with glk := { s.glk with bars := s.glk.bars.filter (fun b => b.1.id != id) } } : State).showArmed) ∧ ok = false) :=
  ⟨⟨ring, sealPacket ⟨0xA, 1⟩ { queue := 0, plen := 1, payload := padTo 32 [] }, by decide +kernel⟩,
   ⟨(set ring [(F.GLK_ROOTSTAT_IS_ROOT, 0, 0, 1)]), sealPacket ⟨0xA, 1⟩ { queue := 0, plen := 1, payload := padTo 32 [] }, by decide +kernel⟩,
   ⟨glkSet (set ring [(F.GLK_ROOTSTAT_IS_ROOT, 0, 0, 1), (F.GLK_TIMESTAT_LOCKED, 0, 0, 1)]) (fun g => { g with roots := List.replicate 7 { id := 0, members := 0 } }), sealPacket ⟨0xA, 1⟩ { queue := 0, plen := 1, payload := padTo 32 [1] }, by decide +kernel⟩,
   ⟨glkSet ring (fun g => { g with roots := [{ id := 4, members := 2 }] }), 4, 1, { id := 4, members := 2 }, by decide +kernel⟩,
   ⟨glkSet ring (fun g => { g with void := [4] }), 4, by decide +kernel⟩,
   ⟨ring, 4, by decide +kernel⟩,
   ⟨glkSet ring (fun g => { g with roots := [{ id := 4, members := 6, confirmed := true }] }), 4, 1, true, { id := 4, members := 6, confirmed := true }, _, rfl, by decide +kernel⟩,
   ⟨glkSet ring (fun g => { g with roots := [{ id := 4, members := 2, confirmed := true }] }), 4, 1, true, { id := 4, members := 2, confirmed := true }, _, rfl, by decide +kernel⟩,
   ⟨glkSet ring (fun g => { g with roots := [{ id := 4, members := 2, confirmed := true }] }), 4, 1, false, { id := 4, members := 2, confirmed := true }, _, rfl, by decide +kernel⟩,
   ⟨glkSet (set ring [(F.GLK_ROOTSTAT_IS_ROOT, 0, 0, 1)]) (fun g => { g with roots := [{ id := 4, members := 2, acks := 2 }] }), 4, { id := 4, members := 2, acks := 2 }, by decide +kernel⟩,
   ⟨glkSet (set ring [(F.GLK_ROOTSTAT_IS_ROOT, 0, 0, 1)]) (fun g => { g with roots := [{ id := 4, members := 0 }] }), 4, { id := 4, members := 0 }, by decide +kernel⟩,
   ⟨glkSet (set ring [(F.GLK_ROOTSTAT_IS_ROOT, 0, 0, 1)]) (fun g => { g with roots := [{ id := 4, members := 2, acks := 0 }] }), 4, { id := 4, members := 2, acks := 0 }, by decide +kernel⟩,
   ⟨glkSet ring (fun g => { g with bars := [({ id := 4, partition := 0, ctr := 1, inc := 1, start := 9 }, true)] }), 4, { id := 4, partition := 0, ctr := 1, inc := 1, start := 9 }, true, _, by decide +kernel, rfl, by decide +kernel⟩,
   ⟨glkSet ring (fun g => { g with bars := [({ id := 4, partition := 0, ctr := 1, inc := 1, start := 9 }, false)] }), 4, { id := 4, partition := 0, ctr := 1, inc := 1, start := 9 }, false, _, by decide +kernel, rfl, by decide +kernel⟩⟩

/-- DigestCommands. -/
theorem wit_DigestCommands :
    (∃ (s : State) (p : Packet), s.starts (glkImageRule p) p = true ∧ p.target = 0 ∧ (s.entered (glkImageRule p) p).glk.images.contains (p.partition, pNum p 0 16) = false ∧ (s.entered (glkImageRule p) p).glk.images.length < 1024) ∧
    (∃ (s : State) (p : Packet), s.starts (glkImageRule p) p = true ∧ p.target ≠ 0 ∧ (s.entered (glkImageRule p) p).glk.images.contains (p.partition, pNum p 0 16) = true) ∧
    (∃ (s : State) (p : Packet), s.starts (glkImageRule p) p = true ∧ p.target = 0 ∧ ((s.entered (glkImageRule p) p).glk.images.contains (p.partition, pNum p 0 16) = true ∨ 1024 ≤ (s.entered (glkImageRule p) p).glk.images.length)) ∧
    (∃ (s : State) (p : Packet), s.starts (glkImageRule p) p = true ∧ p.target ≠ 0 ∧ (s.entered (glkImageRule p) p).glk.images.contains (p.partition, pNum p 0 16) = false) ∧
    (∃ (s : State) (p : Packet), s.starts (glkDigestReadRule p) p = true) ∧
    (∃ (s : State) (p : Packet), s.starts (glkFenceClearRule p) p = true) ∧
    (∃ (s : State), s.glk.suspended = true) ∧
    (∃ (s : State), s.dev.settings.isSome = true) ∧
    (∃ (s : State) (d : List Byte) (ok : Bool), ok = decide (d.length = 64 ∧ leAt d 0 4 = 0x48424541 ∧ leAt d 4 1 = 1 ∧ leAt d 0x3C 4 = crc32c (d.take 0x3C) ∧ leAt d 8 8 ≠ s.reg .GLK_UID) ∧ ok = false) ∧
    (∃ (s : State) (d : List Byte) (ok : Bool), ok = decide (d.length = 64 ∧ leAt d 0 4 = 0x48424541 ∧ leAt d 4 1 = 1 ∧ leAt d 0x3C 4 = crc32c (d.take 0x3C) ∧ leAt d 8 8 ≠ s.reg .GLK_UID) ∧ ok = true) :=
  ⟨⟨glkSet up (fun g => { g with images := List.replicate 1023 (1, 1) }), sealPacket ⟨0xA, 2⟩ { queue := 0, plen := 1, payload := padTo 32 [7] }, by decide +kernel⟩,
   ⟨glkSet up (fun g => { g with images := [(0, 7)] }), sealPacket ⟨0xA, 2⟩ { queue := 0, target := 1, plen := 1, payload := padTo 32 [7] }, by decide +kernel⟩,
   ⟨glkSet up (fun g => { g with images := [(0, 7)] }), sealPacket ⟨0xA, 2⟩ { queue := 0, plen := 1, payload := padTo 32 [7] }, by decide +kernel⟩,
   ⟨up, sealPacket ⟨0xA, 2⟩ { queue := 0, target := 1, plen := 1, payload := padTo 32 [7] }, by decide +kernel⟩,
   ⟨up, sealPacket ⟨0xA, 3⟩ { queue := 0 }, by decide +kernel⟩,
   ⟨up, sealPacket ⟨0xA, 4⟩ { queue := 0 }, by decide +kernel⟩,
   ⟨glkSet up (fun g => { g with suspended := true }), by decide +kernel⟩,
   ⟨{ up with dev := { up.dev with settings := some {} } }, by decide +kernel⟩,
   ⟨ring, [], _, rfl, by decide +kernel⟩,
   ⟨ring, padTo 60 [0x41, 0x45, 0x42, 0x48, 1] ++ toLe 4 (crc32c (padTo 60 [0x41, 0x45, 0x42, 0x48, 1])), _, rfl, by decide +kernel⟩⟩

/-- CameraCommands. -/
theorem wit_CameraCommands :
    (∃ (s : State) (x : ShortPacket), (s.rxLive x.rx = false ∨ s.bound x.rx x.vc = [])) ∧
    (∃ (s : State) (x : ShortPacket) (t : State) (u : State), s.rxLive x.rx = true ∧ s.bound x.rx x.vc ≠ [] ∧ t = s.eccCorrected x.rx x.corrected ∧ u = (if t.unitUsable fnCam x.rx then t.acceptUnit fnCam x.rx else t) ∧ s.sensorVc x.rx ≠ some x.vc) ∧
    (∃ (s : State) (x : ShortPacket) (t : State) (u : State), s.rxLive x.rx = true ∧ s.bound x.rx x.vc ≠ [] ∧ t = s.eccCorrected x.rx x.corrected ∧ u = (if t.unitUsable fnCam x.rx then t.acceptUnit fnCam x.rx else t) ∧ s.sensorVc x.rx = some x.vc) ∧
    (∃ (s : State) (x : LongPacket), s.rxLive x.rx = true ∧ x.ecc = .bad) ∧
    (∃ (s : State) (x : LongPacket) (k : _), s.rxLive x.rx = true ∧ x.ecc ≠ .bad ∧ ((s.bound x.rx x.vc).find? (fun k => s.fld F.CAM_CTXCFG_DT k == x.dt) = some k)) ∧
    (∃ (s : State) (x : LongPacket), s.rxLive x.rx = true ∧ x.ecc ≠ .bad ∧ (s.bound x.rx x.vc).find? (fun k => s.fld F.CAM_CTXCFG_DT k == x.dt) = none) ∧
    (∃ (s : State) (x : LongPacket), s.rxLive x.rx = false) ∧
    (∃ (s : State) (x : ShortPacket) (t : State) (u : State), s.rxLive x.rx = true ∧ s.bound x.rx x.vc ≠ [] ∧ t = s.eccCorrected x.rx x.corrected ∧ u = (if t.unitUsable fnCam x.rx then t.acceptUnit fnCam x.rx else t) ∧ s.sensorVc x.rx = some x.vc) ∧
    (∃ (s : State) (x : ShortPacket) (t : State) (u : State), s.rxLive x.rx = true ∧ s.bound x.rx x.vc ≠ [] ∧ t = s.eccCorrected x.rx x.corrected ∧ u = (if t.unitUsable fnCam x.rx then t.acceptUnit fnCam x.rx else t) ∧ s.sensorVc x.rx ≠ some x.vc) ∧
    (∃ (s : State) (p : Packet), s.starts (camExpoRule p s) p = true) ∧
    (∃ (s : State) (n : Nat) (w : RegWrite), n < 16 ∧ s.p0 w.initiator = true ∧ s.gated .CAM = false ∧ w.value.testBit 0 = true) ∧
    (∃ (s : State) (n : Nat) (w : RegWrite), n < 16 ∧ s.p0 w.initiator = true ∧ s.gated .CAM = false ∧ w.value.testBit 0 = false) ∧
    (∃ (s : State) (n : Nat) (g : Nat) (frame : Nat) (retried : Bool), (s.sensor n).writing = some (g, frame, retried) ∧ (s.sensor n).frame = frame) ∧
    (∃ (s : State) (n : Nat) (g : Nat) (frame : Nat) (retried : Bool), (s.sensor n).writing = some (g, frame, retried) ∧ (s.sensor n).frame ≠ frame) ∧
    (∃ (s : State) (n : Nat) (g : Nat) (frame : Nat) (retried : Bool), (s.sensor n).writing = some (g, frame, retried) ∧ retried = true) ∧
    (∃ (s : State) (n : Nat) (g : Nat) (frame : Nat) (retried : Bool), (s.sensor n).writing = some (g, frame, retried) ∧ retried = false) ∧
    (∃ (s : State) (pipe : Nat) (k : Nat) (i : Nat), s.fullest pipe = some k ∧ (s.camCtx k).strip = some i) ∧
    (∃ (s : State) (k : Nat) (f : CamFrame), (s.camCtx k).frames.head? = some f ∧ f.ended = true ∧ s.ctxLive k = false) ∧
    (∃ (s : State) (k : Nat) (f : CamFrame), (s.camCtx k).frames.head? = some f ∧ f.ended = true ∧ s.ctxLive k = true ∧ s.camRaw k = true) ∧
    (∃ (s : State) (k : Nat) (f : CamFrame), (s.camCtx k).frames.head? = some f ∧ f.ended = true ∧ s.camRaw k = false ∧ f.fed ≠ f.lines.length) ∧
    (∃ (s : State) (k : Nat) (f : CamFrame), (s.camCtx k).frames.head? = some f ∧ f.ended = true ∧ s.ctxLive k = true ∧ s.camRaw k = false ∧ f.fed = f.lines.length) ∧
    (Config.paramBytes = 64 → ∃ (s : State) (p : Packet) (l : List (Nat × Nat)), l = [(pNum p 0 8, Config.paramBytes)] ∧ s.starts (ctxCommitRule p s) p = true) ∧
    (∃ (s : State) (n : Nat), s.flag F.CAM_FSYNCCFG_EN n = true ∧ n < 16 ∧ s.devState ≠ devHeld ∧ s.devState ≠ devSafe ∧ s.time % s.fld F.CAM_FSYNCPER_PERIOD_NS n = s.fld F.CAM_FSYNCPER_PHASE_NS n ∧ s.fld F.CAM_FSYNCPER_PHASE_NS n < s.fld F.CAM_FSYNCPER_PERIOD_NS n) ∧
    (∃ (s : State) (n : Nat), s.flag F.CAM_FSYNCCFG_EN n = true ∧ n < 16 ∧ s.devState ≠ devHeld ∧ s.devState ≠ devSafe ∧ 1000 * s.fld F.CAM_FSYNCCFG_WIDTH_US n ≤ s.fsyncAge n) ∧
    (∃ (s : State) (n : Nat) (b : Bool), (s.flag F.CAM_FSYNCCFG_EN n = false ∨ 16 ≤ n ∨ s.devState = devHeld ∨ s.devState = devSafe ∨ s.fsyncDue n b = false)) :=
  ⟨⟨up, { rx := 15, vc := 1 }, by decide +kernel⟩,
   ⟨(set camera [(F.CAM_CTXSTATE_STATE, 14, 0, stRunning), (F.CAM_CTXCFG_EN, 14, 0, 1), (F.CAM_CTXCFG_RX, 14, 0, 15), (F.CAM_CTXCFG_VC, 14, 0, 2), (F.CAM_CTXCFG_DT, 14, 0, 0x2B)]), { rx := 15, vc := 2 }, _, _, by decide +kernel, by decide +kernel, rfl, rfl, by decide +kernel⟩,
   ⟨camera, { rx := 15, vc := 1 }, _, _, by decide +kernel, by decide +kernel, rfl, rfl, by decide +kernel⟩,
   ⟨camera, { rx := 15, vc := 1, dt := 0x2B, wc := 4, data := [], ecc := .bad }, by decide +kernel⟩,
   ⟨camera, { rx := 15, vc := 1, dt := 0x2B, wc := 4, data := [] }, 15, by decide +kernel⟩,
   ⟨camera, { rx := 15, vc := 1, dt := 0x2C, wc := 4, data := [] }, by decide +kernel⟩,
   ⟨up, { rx := 15, vc := 1, dt := 0x2B, wc := 4, data := [] }, by decide +kernel⟩,
   ⟨camera, { rx := 15, vc := 1 }, _, _, by decide +kernel, by decide +kernel, rfl, rfl, by decide +kernel⟩,
   ⟨(set camera [(F.CAM_CTXSTATE_STATE, 14, 0, stRunning), (F.CAM_CTXCFG_EN, 14, 0, 1), (F.CAM_CTXCFG_RX, 14, 0, 15), (F.CAM_CTXCFG_VC, 14, 0, 2), (F.CAM_CTXCFG_DT, 14, 0, 0x2B)]), { rx := 15, vc := 2 }, _, _, by decide +kernel, by decide +kernel, rfl, rfl, by decide +kernel⟩,
   ⟨up, sealPacket ⟨6, 1⟩ { queue := 0, target := 15, plen := 1, payload := padTo 32 [1] }, by decide +kernel⟩,
   ⟨up, 15, wr 1, by decide +kernel⟩,
   ⟨up, 15, wr 2, by decide +kernel⟩,
   ⟨up.setSensor 15 { frame := 3, writing := some (1, 3, false) }, 15, 1, 3, false, by decide +kernel⟩,
   ⟨up.setSensor 15 { frame := 4, writing := some (1, 3, false) }, 15, 1, 3, false, by decide +kernel⟩,
   ⟨up.setSensor 15 { frame := 3, writing := some (1, 3, true) }, 15, 1, 3, true, by decide +kernel⟩,
   ⟨up.setSensor 15 { frame := 3, writing := some (1, 3, false) }, 15, 1, 3, false, by decide +kernel⟩,
   ⟨frames [{ frame with lines := List.replicate 8 [] }], 0, 15, 0, by decide +kernel⟩,
   ⟨(frames [{ frame with ended := true }]).putFld F.CAM_CTXSTATE_STATE stStopped 15, 15, { frame with ended := true }, by decide +kernel⟩,
   ⟨(frames [{ frame with ended := true }]).putFld F.CAM_CTXCFG_MODE 1 15, 15, { frame with ended := true }, by decide +kernel⟩,
   ⟨frames [{ frame with ended := true, lines := [[]] }], 15, { frame with ended := true, lines := [[]] }, by decide +kernel⟩,
   ⟨frames [{ frame with ended := true }], 15, { frame with ended := true }, by decide +kernel⟩,
   (fun h => ⟨camera, sealPacket ⟨6, 2⟩ { queue := 0, target := 15, plen := 1, payload := padTo 32 [] }, _, rfl, by rw [show ctxCommitRule (sealPacket ⟨6, 2⟩ { queue := 0, target := 15, plen := 1, payload := padTo 32 [] }) camera = { op := ⟨6, 2⟩, format := true, permit := true, access := [(0, 64, false)], fn := some (fnCam, some 31) } from by rw [← h]; rfl]; decide +kernel⟩),
   ⟨(set (camera.setReg .CHR_TIME 1000) [(F.CAM_FSYNCCFG_EN, 15, 0, 1), (F.CAM_FSYNCPER_PERIOD_NS, 15, 0, 900), (F.CAM_FSYNCPER_PHASE_NS, 15, 0, 100)]), 15, by decide +kernel⟩,
   ⟨(set (camera.setReg .CHR_TIME 1000) [(F.CAM_FSYNCCFG_EN, 15, 0, 1), (F.CAM_FSYNCPER_PERIOD_NS, 15, 0, 900), (F.CAM_FSYNCPER_PHASE_NS, 15, 0, 100)]), 15, by decide +kernel⟩,
   ⟨(set (camera.setReg .CHR_TIME 1001) [(F.CAM_FSYNCCFG_EN, 15, 0, 1), (F.CAM_FSYNCPER_PERIOD_NS, 15, 0, 900), (F.CAM_FSYNCPER_PHASE_NS, 15, 0, 100)]), 15, true, by decide +kernel⟩⟩

/-- CodecPackets. -/
theorem wit_CodecPackets :
    (∃ (s : State) (p : Packet) (b : Obj) (off : Nat), s.starts (decCreateRule p s) p = true ∧ (s.entered (decCreateRule p s) p).payloadObj p 0x10 = some (b, off) ∧ (b.smem = true ∨ decCreateOk p = false)) ∧
    (∃ (s : State) (p : Packet) (b : Obj) (off : Nat), s.starts (decCreateRule p s) p = true ∧ (s.entered (decCreateRule p s) p).payloadObj p 0x10 = some (b, off) ∧ b.smem = false ∧ decCreateOk p = true ∧ b.size < off + ((newDec p b off).slots + 2) * frameBytes (newDec p b off).maxW (newDec p b off).maxH (newDec p b off).depth + (newDec p b off).bytes + 65536) ∧
    (∃ (s : State) (p : Packet) (b : Obj) (off : Nat), s.starts (decCreateRule p s) p = true ∧ (s.entered (decCreateRule p s) p).payloadObj p 0x10 = some (b, off) ∧ b.smem = false ∧ decCreateOk p = true ∧ off + ((newDec p b off).slots + 2) * frameBytes (newDec p b off).maxW (newDec p b off).maxH (newDec p b off).depth + (newDec p b off).bytes + 65536 ≤ b.size ∧ (s.entered (decCreateRule p s) p).pickCore [0, 1, 2, 3] (newDec p b off).load = none) ∧
    (∃ (s : State) (p : Packet) (b : Obj) (off : Nat) (c : _), s.starts (decCreateRule p s) p = true ∧ (s.entered (decCreateRule p s) p).payloadObj p 0x10 = some (b, off) ∧ b.smem = false ∧ decCreateOk p = true ∧ off + ((newDec p b off).slots + 2) * frameBytes (newDec p b off).maxW (newDec p b off).maxH (newDec p b off).depth + (newDec p b off).bytes + 65536 ≤ b.size ∧ (s.entered (decCreateRule p s) p).pickCore [0, 1, 2, 3] (newDec p b off).load = some c) ∧
    (∃ (s : State) (p : Packet) (d : DecCtx), s.starts (decRule 0x11 p s true 1) p = true ∧ (s.entered (decRule 0x11 p s true 1) p).decCtx p.target = some d ∧ pLast p = false) ∧
    (∃ (s : State) (p : Packet) (d : DecCtx), s.starts (decRule 0x11 p s true 1) p = true ∧ (s.entered (decRule 0x11 p s true 1) p).decCtx p.target = some d ∧ pLast p = true) ∧
    (∃ (s : State) (n : Nat) (d : DecCtx), s.decCtx n = some d) ∧
    (∃ (s : State) (p : Packet) (d : DecCtx), s.starts (decRule 0x12 p s (p.plen == 0) 1) p = true ∧ (s.entered (decRule 0x12 p s (p.plen == 0) 1) p).decCtx p.target = some d) ∧
    (∃ (s : State) (p : Packet) (d : DecCtx), s.starts (decRule 0x13 p s (p.plen == 0) 0) p = true ∧ (s.entered (decRule 0x13 p s (p.plen == 0) 0) p).decCtx p.target = some d) ∧
    (∃ (s : State) (p : Packet) (x : EncSettings), s.starts (encCreateRule p s x) p = true ∧ (s.entered (encCreateRule p s x) p).pickCore [4, 5] (x.w * x.h * x.fps) = none) ∧
    (∃ (s : State) (p : Packet) (x : EncSettings) (c : _), s.starts (encCreateRule p s x) p = true ∧ (s.entered (encCreateRule p s x) p).pickCore [4, 5] (x.w * x.h * x.fps) = some c) ∧
    (∃ (s : State) (u : State) (v : State) (p : Packet) (i : Nat) (off : Nat) (r : Rule) (e : EncCtx) (b : Obj) (q : Planar) (out : List Byte), r = encFrameRule p s ∧ u = s.entered r p ∧ q = u.planarRef p.partition (pNum p 0 8) ∧ i = initiator 0xC p.partition ∧ v = u.chargePieces i (sourceRows q) ∧ out = Config.encoded e.settings.codec e.settings.profile e.settings.rate e.token ((v.keyed i).sourceBytes q) ∧ s.starts r p = true ∧ u.encCtx p.target = some e ∧ u.payloadObj p 8 = some (b, off) ∧ (is420 q.fmt = false ∨ q.w ≠ e.settings.w ∨ q.h ≠ e.settings.h)) ∧
    (∃ (s : State) (u : State) (v : State) (p : Packet) (i : Nat) (off : Nat) (r : Rule) (e : EncCtx) (b : Obj) (q : Planar) (out : List Byte), r = encFrameRule p s ∧ u = s.entered r p ∧ q = u.planarRef p.partition (pNum p 0 8) ∧ i = initiator 0xC p.partition ∧ v = u.chargePieces i (sourceRows q) ∧ out = Config.encoded e.settings.codec e.settings.profile e.settings.rate e.token ((v.keyed i).sourceBytes q) ∧ s.starts r p = true ∧ u.encCtx p.target = some e ∧ u.payloadObj p 8 = some (b, off) ∧ is420 q.fmt = true ∧ q.w = e.settings.w ∧ q.h = e.settings.h ∧ (sourceRows q).all (fun a => u.memOk i a.1 a.2 false) = false) ∧
    (∃ (s : State) (u : State) (v : State) (p : Packet) (i : Nat) (off : Nat) (ue : Option Nat) (r : Rule) (e : EncCtx) (b : Obj) (q : Planar) (out : List Byte) (k : _), r = encFrameRule p s ∧ u = s.entered r p ∧ q = u.planarRef p.partition (pNum p 0 8) ∧ i = initiator 0xC p.partition ∧ v = u.chargePieces i (sourceRows q) ∧ out = Config.encoded e.settings.codec e.settings.profile e.settings.rate e.token ((v.keyed i).sourceBytes q) ∧ ue = some k ∧ s.starts r p = true ∧ u.encCtx p.target = some e ∧ u.payloadObj p 8 = some (b, off) ∧ is420 q.fmt = true ∧ q.w = e.settings.w ∧ q.h = e.settings.h ∧ (sourceRows q).all (fun a => u.memOk i a.1 a.2 false) = true) ∧
    (0 < (Config.encoded 0 0 0 0 []).length → ∃ (s : State) (u : State) (v : State) (p : Packet) (i : Nat) (off : Nat) (ue : Option Nat) (r : Rule) (e : EncCtx) (b : Obj) (q : Planar) (out : List Byte), r = encFrameRule p s ∧ u = s.entered r p ∧ q = u.planarRef p.partition (pNum p 0 8) ∧ i = initiator 0xC p.partition ∧ v = u.chargePieces i (sourceRows q) ∧ out = Config.encoded e.settings.codec e.settings.profile e.settings.rate e.token ((v.keyed i).sourceBytes q) ∧ ue = none ∧ s.starts r p = true ∧ u.encCtx p.target = some e ∧ u.payloadObj p 8 = some (b, off) ∧ is420 q.fmt = true ∧ q.w = e.settings.w ∧ q.h = e.settings.h ∧ (sourceRows q).all (fun a => u.memOk i a.1 a.2 false) = true ∧ b.size - off < out.length) ∧
    (∃ (s : State) (u : State) (v : State) (p : Packet) (i : Nat) (off : Nat) (ue : Option Nat) (r : Rule) (e : EncCtx) (b : Obj) (q : Planar) (out : List Byte), r = encFrameRule p s ∧ u = s.entered r p ∧ q = u.planarRef p.partition (pNum p 0 8) ∧ i = initiator 0xC p.partition ∧ v = u.chargePieces i (sourceRows q) ∧ out = Config.encoded e.settings.codec e.settings.profile e.settings.rate e.token ((v.keyed i).sourceBytes q) ∧ ue = none ∧ s.starts r p = true ∧ u.encCtx p.target = some e ∧ u.payloadObj p 8 = some (b, off) ∧ is420 q.fmt = true ∧ q.w = e.settings.w ∧ q.h = e.settings.h ∧ (sourceRows q).all (fun a => u.memOk i a.1 a.2 false) = true ∧ out.length ≤ b.size - off) ∧
    (∃ (s : State) (p : Packet), s.starts (encRule 0x22 p s (p.plen == 0) true []) p = true) ∧
    (∃ (s : State) (u : State) (p : Packet) (x : JpegJob) (i : Nat) (r : Rule), i = initiator 0xC p.partition ∧ r = jpegRule 0x30 p s true [(x.addr, max 1 x.len, false), ((jpegRef x).addr, 1, true)] ∧ u = s.entered r p ∧ s.starts r p = true ∧ x.unsupported = true) ∧
    (∃ (s : State) (u : State) (p : Packet) (x : JpegJob) (i : Nat) (r : Rule), i = initiator 0xC p.partition ∧ r = jpegRule 0x30 p s true [(x.addr, max 1 x.len, false), ((jpegRef x).addr, 1, true)] ∧ u = s.entered r p ∧ s.starts r p = true ∧ x.unsupported = false ∧ jpegFormOk x = false) ∧
    (∃ (s : State) (u : State) (p : Packet) (x : JpegJob) (i : Nat) (r : Rule), i = initiator 0xC p.partition ∧ r = jpegRule 0x30 p s true [(x.addr, max 1 x.len, false), ((jpegRef x).addr, 1, true)] ∧ u = s.entered r p ∧ s.starts r p = true ∧ x.unsupported = false ∧ jpegFormOk x = true ∧ jpegAdmits x = false) ∧
    (∃ (s : State) (u : State) (p : Packet) (x : JpegJob) (i : Nat) (r : Rule), i = initiator 0xC p.partition ∧ r = jpegRule 0x30 p s true [(x.addr, max 1 x.len, false), ((jpegRef x).addr, 1, true)] ∧ u = s.entered r p ∧ s.starts r p = true ∧ x.unsupported = false ∧ jpegFormOk x = true ∧ jpegAdmits x = true ∧ u.memOk i x.addr x.len false = false) ∧
    (∃ (s : State) (u : State) (p : Packet) (x : JpegJob) (i : Nat) (r : Rule) (k : _), i = initiator 0xC p.partition ∧ r = jpegRule 0x30 p s true [(x.addr, max 1 x.len, false), ((jpegRef x).addr, 1, true)] ∧ u = s.entered r p ∧ s.starts r p = true ∧ x.unsupported = false ∧ jpegFormOk x = true ∧ jpegAdmits x = true ∧ u.memOk i x.addr x.len false = true ∧ x.ue = some k) ∧
    (∃ (s : State) (u : State) (p : Packet) (x : JpegJob) (i : Nat) (r : Rule), i = initiator 0xC p.partition ∧ r = jpegRule 0x30 p s true [(x.addr, max 1 x.len, false), ((jpegRef x).addr, 1, true)] ∧ u = s.entered r p ∧ s.starts r p = true ∧ x.unsupported = false ∧ jpegFormOk x = true ∧ jpegAdmits x = true ∧ u.memOk i x.addr x.len false = true ∧ x.ue = none) ∧
    (∃ (s : State) (u : State) (v : State) (p : Packet) (x : JpegJob) (i : Nat) (off : Nat) (r : Rule) (b : Obj) (out : List Byte), i = initiator 0xC p.partition ∧ r = { jpegRule 0x31 p s (s.jpegObj p.partition x).isSome [((jpegRef x).addr, 1, false)] with writes := some (bitsOf x.addr 62 40) } ∧ u = s.entered r p ∧ v = u.chargePieces i (sourceRows (jpegRef x)) ∧ out = Config.jpegBytes x.select ((v.keyed i).sourceBytes (jpegRef x)) ∧ s.starts r p = true ∧ u.jpegObj p.partition x = some (b, off) ∧ (jpegFormOk x = false ∨ min x.maxW 16384 < (jpegRef x).w ∨ min x.maxH 16384 < (jpegRef x).h)) ∧
    (∃ (s : State) (u : State) (v : State) (p : Packet) (x : JpegJob) (i : Nat) (off : Nat) (r : Rule) (b : Obj) (out : List Byte), i = initiator 0xC p.partition ∧ r = { jpegRule 0x31 p s (s.jpegObj p.partition x).isSome [((jpegRef x).addr, 1, false)] with writes := some (bitsOf x.addr 62 40) } ∧ u = s.entered r p ∧ v = u.chargePieces i (sourceRows (jpegRef x)) ∧ out = Config.jpegBytes x.select ((v.keyed i).sourceBytes (jpegRef x)) ∧ s.starts r p = true ∧ u.jpegObj p.partition x = some (b, off) ∧ jpegFormOk x = true ∧ (jpegRef x).w ≤ min x.maxW 16384 ∧ (jpegRef x).h ≤ min x.maxH 16384 ∧ (sourceRows (jpegRef x)).all (fun a => u.memOk i a.1 a.2 false) = false) ∧
    (∃ (s : State) (u : State) (v : State) (p : Packet) (x : JpegJob) (i : Nat) (off : Nat) (r : Rule) (b : Obj) (out : List Byte) (k : _), i = initiator 0xC p.partition ∧ r = { jpegRule 0x31 p s (s.jpegObj p.partition x).isSome [((jpegRef x).addr, 1, false)] with writes := some (bitsOf x.addr 62 40) } ∧ u = s.entered r p ∧ v = u.chargePieces i (sourceRows (jpegRef x)) ∧ out = Config.jpegBytes x.select ((v.keyed i).sourceBytes (jpegRef x)) ∧ s.starts r p = true ∧ u.jpegObj p.partition x = some (b, off) ∧ jpegFormOk x = true ∧ (jpegRef x).w ≤ min x.maxW 16384 ∧ (jpegRef x).h ≤ min x.maxH 16384 ∧ (sourceRows (jpegRef x)).all (fun a => u.memOk i a.1 a.2 false) = true ∧ x.ue = some k) ∧
    (0 < (Config.jpegBytes 0 []).length → ∃ (s : State) (u : State) (v : State) (p : Packet) (x : JpegJob) (i : Nat) (off : Nat) (r : Rule) (b : Obj) (out : List Byte), i = initiator 0xC p.partition ∧ r = { jpegRule 0x31 p s (s.jpegObj p.partition x).isSome [((jpegRef x).addr, 1, false)] with writes := some (bitsOf x.addr 62 40) } ∧ u = s.entered r p ∧ v = u.chargePieces i (sourceRows (jpegRef x)) ∧ out = Config.jpegBytes x.select ((v.keyed i).sourceBytes (jpegRef x)) ∧ s.starts r p = true ∧ u.jpegObj p.partition x = some (b, off) ∧ jpegFormOk x = true ∧ (jpegRef x).w ≤ min x.maxW 16384 ∧ (jpegRef x).h ≤ min x.maxH 16384 ∧ (sourceRows (jpegRef x)).all (fun a => u.memOk i a.1 a.2 false) = true ∧ x.ue = none ∧ b.size - off < out.length) ∧
    (∃ (s : State) (u : State) (v : State) (p : Packet) (x : JpegJob) (i : Nat) (off : Nat) (r : Rule) (b : Obj) (out : List Byte), i = initiator 0xC p.partition ∧ r = { jpegRule 0x31 p s (s.jpegObj p.partition x).isSome [((jpegRef x).addr, 1, false)] with writes := some (bitsOf x.addr 62 40) } ∧ u = s.entered r p ∧ v = u.chargePieces i (sourceRows (jpegRef x)) ∧ out = Config.jpegBytes x.select ((v.keyed i).sourceBytes (jpegRef x)) ∧ s.starts r p = true ∧ u.jpegObj p.partition x = some (b, off) ∧ jpegFormOk x = true ∧ (jpegRef x).w ≤ min x.maxW 16384 ∧ (jpegRef x).h ≤ min x.maxH 16384 ∧ (sourceRows (jpegRef x)).all (fun a => u.memOk i a.1 a.2 false) = true ∧ x.ue = none ∧ out.length ≤ b.size - off) :=
  ⟨⟨video ob [] [], sealPacket ⟨6, 0x10⟩ { queue := 0, plen := 1, payload := create }, ob, 0, by decide +kernel⟩,
   ⟨video { ob with smem := false } [] [], sealPacket ⟨6, 0x10⟩ { queue := 0, plen := 1, payload := create }, { ob with smem := false }, 0, by decide +kernel⟩,
   ⟨video { ob with smem := false, parts := [(0x1000000000, 2 ^ 30)], size := 2 ^ 30 } [] [], sealPacket ⟨6, 0x10⟩ { queue := 0, plen := 1, payload := create.set 8 240 |>.set 4 0 |>.set 5 32 |>.set 6 0 |>.set 7 32 |>.set 2 1 }, { ob with smem := false, parts := [(0x1000000000, 2 ^ 30)], size := 2 ^ 30 }, 0, by decide +kernel⟩,
   ⟨video { ob with smem := false, parts := [(0x1000000000, 2 ^ 24)], size := 2 ^ 24 } [] [], sealPacket ⟨6, 0x10⟩ { queue := 0, plen := 1, payload := create }, { ob with smem := false, parts := [(0x1000000000, 2 ^ 24)], size := 2 ^ 24 }, 0, 0, by decide +kernel⟩,
   ⟨video ob [decoder] [], sealPacket ⟨6, 0x11⟩ { queue := 0 }, decoder, by decide +kernel⟩,
   ⟨video ob [decoder] [], sealPacket ⟨6, 0x11⟩ { queue := 0, flags := 4 }, decoder, by decide +kernel⟩,
   ⟨video ob [decoder] [], 0, decoder, by decide +kernel⟩,
   ⟨video ob [decoder] [], sealPacket ⟨6, 0x12⟩ { queue := 0 }, decoder, by decide +kernel⟩,
   ⟨video ob [decoder] [], sealPacket ⟨6, 0x13⟩ { queue := 0 }, decoder, by decide +kernel⟩,
   ⟨up, sealPacket ⟨6, 0x20⟩ { queue := 0, target := 15, plen := 2, payload := padTo 64 [] }, {}, by decide +kernel⟩,
   ⟨video ob [] [], sealPacket ⟨6, 0x20⟩ { queue := 0, target := 15, plen := 2, payload := padTo 64 [] }, {}, 4, by decide +kernel⟩,
   ⟨(video (ob) [] [{ ctx := 0, partition := 0, core := 0, settings := { w := 8, h := 8 } }]).sysWrite 0 (pixels 1), _, _, sealPacket ⟨6, 0x21⟩ { queue := 0, plen := 1, payload := padTo 32 (toLe 8 0 ++ toLe 8 (href 0)) }, _, 0, _, { ctx := 0, partition := 0, core := 0, settings := { w := 8, h := 8 } }, ob, _, _, rfl, rfl, rfl, rfl, rfl, rfl, by decide +kernel⟩,
   ⟨(video (ob) [] [{ ctx := 0, partition := 0, core := 0, settings := { w := 8, h := 8 } }]).sysWrite 0 (toLe 8 0x1800000 ++ (pixels 8).drop 8), _, _, sealPacket ⟨6, 0x21⟩ { queue := 0, plen := 1, payload := padTo 32 (toLe 8 0 ++ toLe 8 (href 0)) }, _, 0, _, { ctx := 0, partition := 0, core := 0, settings := { w := 8, h := 8 } }, ob, _, _, rfl, rfl, rfl, rfl, rfl, rfl, by decide +kernel⟩,
   ⟨(video ({ ob with size := 0 }) [] [{ ctx := 0, partition := 0, core := 0, settings := { w := 0, h := 0 } }]).sysWrite 0 (padTo 32 (List.replicate 22 0 ++ [8])), _, _, sealPacket ⟨6, 0x21⟩ { queue := 0, plen := 1, payload := padTo 32 (toLe 8 0 ++ toLe 8 (href 0)) }, _, 0, _, _, { ctx := 0, partition := 0, core := 0, settings := { w := 0, h := 0 } }, { ob with size := 0 }, _, _, 0, rfl, rfl, rfl, rfl, rfl, rfl, rfl, by decide +kernel, rfl, rfl, by decide +kernel, by decide +kernel, by decide +kernel, by decide +kernel⟩,
   (fun h => ⟨(video ({ ob with size := 0 }) [] [{ ctx := 0, partition := 0, core := 0, settings := { w := 0, h := 0 } }]).sysWrite 0 (padTo 32 (List.replicate 22 0 ++ [8])), _, _, sealPacket ⟨6, 0x21⟩ { queue := 0, plen := 1, payload := padTo 32 (toLe 8 0 ++ toLe 8 (href 0)) }, _, 0, _, _, { ctx := 0, partition := 0, core := 0, settings := { w := 0, h := 0 } }, { ob with size := 0 }, _, _, rfl, rfl, rfl, rfl, rfl, rfl, rfl, by decide +kernel, rfl, rfl, by decide +kernel, by decide +kernel, by decide +kernel, by decide +kernel, by refine Nat.lt_of_lt_of_eq h (congrArg (fun l => (Config.encoded 0 0 0 0 l).length) (a₁ := []) ?_); decide +kernel⟩),
   ⟨(video ({ ob with size := (Config.encoded 0 0 0 0 []).length }) [] [{ ctx := 0, partition := 0, core := 0, settings := { w := 0, h := 0 } }]).sysWrite 0 (padTo 32 (List.replicate 22 0 ++ [8])), _, _, sealPacket ⟨6, 0x21⟩ { queue := 0, plen := 1, payload := padTo 32 (toLe 8 0 ++ toLe 8 (href 0)) }, _, 0, _, _, { ctx := 0, partition := 0, core := 0, settings := { w := 0, h := 0 } }, { ob with size := (Config.encoded 0 0 0 0 []).length }, _, _, rfl, rfl, rfl, rfl, rfl, rfl, rfl, by decide +kernel, rfl, rfl, by decide +kernel, by decide +kernel, by decide +kernel, by decide +kernel, by refine Nat.le_of_eq (congrArg (fun l => (Config.encoded 0 0 0 0 l).length) (a₂ := []) ?_); decide +kernel⟩,
   ⟨video ob [] [{ ctx := 0, partition := 0, core := 0, settings := {} }], sealPacket ⟨6, 0x22⟩ { queue := 0 }, by decide +kernel⟩,
   ⟨video ob [] [], _, sealPacket ⟨6, 0x30⟩ { queue := 0, plen := 2, payload := padTo 64 [] }, { addr := 0x1000, planar := pixels 8, unsupported := true }, _, _, rfl, rfl, rfl, by decide +kernel⟩,
   ⟨video ob [] [], _, sealPacket ⟨6, 0x30⟩ { queue := 0, plen := 2, payload := padTo 64 [] }, { addr := 0x1000, planar := pixels 0 }, _, _, rfl, rfl, rfl, by decide +kernel⟩,
   ⟨video ob [] [], _, sealPacket ⟨6, 0x30⟩ { queue := 0, plen := 2, payload := padTo 64 [] }, { addr := 0x1000, planar := pixels 8, w := 9 }, _, _, rfl, rfl, rfl, by decide +kernel⟩,
   ⟨set (video ob [] []) [(F.CMDQ_QCFG_PARTITION, 0, 0, 5), (F.ESC_PCFG_STATE, 5, 0, stRunning), (F.CMDQ_OPQUOTA_QUOTA, 5, 0, 256), (F.FWL_RATTR_EN, 0, 0, 1), (F.FWL_RATTR_RD, 0, 0, 1), (F.FWL_RATTR_WR, 0, 0, 1), (F.FWL_RATTR_CLASS_MASK, 0, 0, 64), (F.FWL_RATTR_ANY_PART, 0, 0, 1), (F.FWL_RLIMIT_ADDR, 0, 0, 0xFFFF)], _, sealPacket ⟨6, 0x30⟩ { queue := 0, partition := 5, plen := 2, payload := padTo 64 [] }, { addr := 0x1000, planar := pixels 8 }, _, _, rfl, rfl, rfl, by decide +kernel⟩,
   ⟨video ob [] [], _, sealPacket ⟨6, 0x30⟩ { queue := 0, plen := 2, payload := padTo 64 [] }, { addr := 0x1000, planar := pixels 8, ue := some 0 }, _, _, 0, rfl, rfl, rfl, by decide +kernel⟩,
   ⟨video ob [] [], _, sealPacket ⟨6, 0x30⟩ { queue := 0, plen := 2, payload := padTo 64 [] }, { addr := 0x1000, planar := pixels 8 }, _, _, rfl, rfl, rfl, by decide +kernel⟩,
   ⟨video (ob) [] [], _, _, sealPacket ⟨6, 0x31⟩ { queue := 0, plen := 2, payload := padTo 64 [] }, { addr := href 0, planar := pixels 0 }, _, 0, _, ob, _, rfl, rfl, rfl, rfl, rfl, by decide +kernel⟩,
   ⟨video (ob) [] [], _, _, sealPacket ⟨6, 0x31⟩ { queue := 0, plen := 2, payload := padTo 64 [] }, { addr := href 0, planar := toLe 8 0x7FFFFF ++ (pixels 8).drop 8 }, _, 0, _, ob, _, rfl, rfl, rfl, rfl, rfl, by decide +kernel⟩,
   ⟨video ({ ob with size := 0 }) [] [], _, _, sealPacket ⟨6, 0x31⟩ { queue := 0, plen := 2, payload := padTo 64 [] }, { addr := href 0, planar := List.replicate 22 0 ++ [8], ue := some 0 }, _, 0, _, { ob with size := 0 }, _, 0, rfl, rfl, rfl, rfl, rfl, by decide +kernel, rfl, by decide +kernel, by decide +kernel, by decide +kernel, by decide +kernel, rfl⟩,
   (fun h => ⟨video ({ ob with size := 0 }) [] [], _, _, sealPacket ⟨6, 0x31⟩ { queue := 0, plen := 2, payload := padTo 64 [] }, { addr := href 0, planar := List.replicate 22 0 ++ [8] }, _, 0, _, { ob with size := 0 }, _, rfl, rfl, rfl, rfl, rfl, by decide +kernel, rfl, by decide +kernel, by decide +kernel, by decide +kernel, by decide +kernel, rfl, by refine Nat.lt_of_lt_of_eq h (congrArg (fun l => (Config.jpegBytes 0 l).length) (a₁ := []) ?_); decide +kernel⟩),
   ⟨video ({ ob with size := (Config.jpegBytes 0 []).length }) [] [], _, _, sealPacket ⟨6, 0x31⟩ { queue := 0, plen := 2, payload := padTo 64 [] }, { addr := href 0, planar := List.replicate 22 0 ++ [8] }, _, 0, _, { ob with size := (Config.jpegBytes 0 []).length }, _, rfl, rfl, rfl, rfl, rfl, by decide +kernel, rfl, by decide +kernel, by decide +kernel, by decide +kernel, by decide +kernel, rfl, by refine Nat.le_of_eq (congrArg (fun l => (Config.jpegBytes 0 l).length) (a₂ := []) ?_); decide +kernel⟩⟩

/-- MotionLoops. -/
theorem wit_MotionLoops :
    (∃ (s : State) (t : State) (a : Nat) (x : MotSample), t = (if s.samples a then s.sampleAxis a x else s) ∧ a < 16 ∧ s.flag F.MOT_AXCFG_EN a = true ∧ (usableCode (t.axState a) || t.axState a == stDraining) = true) ∧
    (∃ (s : State) (t : State) (a : Nat) (x : MotSample), t = (if s.samples a then s.sampleAxis a x else s) ∧ a < 16 ∧ s.flag F.MOT_AXCFG_EN a = true ∧ (usableCode (t.axState a) || t.axState a == stDraining) = false ∧ t.samples a = true) ∧
    (∃ (s : State) (t : State) (a : Nat) (x : MotSample), t = (if s.samples a then s.sampleAxis a x else s) ∧ a < 16 ∧ s.flag F.MOT_AXCFG_EN a = true ∧ (usableCode (t.axState a) || t.axState a == stDraining) = false ∧ t.samples a = false) ∧
    (∃ (s : State) (a : Nat), (16 ≤ a ∨ s.flag F.MOT_AXCFG_EN a = false)) ∧
    (∃ (s : State) (a : Nat), a < 16 ∧ s.flag F.MOT_AXCFG_EN a = true ∧ (s.measureVel a).cascade = false) ∧
    (∃ (s : State) (a : Nat) (t : State), t = (s.measureVel a).applyDue a [1, 4] ∧ a < 16 ∧ s.flag F.MOT_AXCFG_EN a = true ∧ (s.measureVel a).cascade = true ∧ t.axState a ≠ stRunning ∧ t.axState a ≠ stDraining) ∧
    (∃ (s : State) (a : Nat) (t : State), a < 16 ∧ s.flag F.MOT_AXCFG_EN a = true ∧ (s.measureVel a).cascade = true ∧ t = (s.measureVel a).applyDue a [1, 4] ∧ (t.axState a = stRunning ∨ t.axState a = stDraining) ∧ t.directMode a = true) ∧
    (∃ (s : State) (a : Nat) (t : State), a < 16 ∧ s.flag F.MOT_AXCFG_EN a = true ∧ (s.measureVel a).cascade = true ∧ t = (s.measureVel a).applyDue a [1, 4] ∧ (t.axState a = stRunning ∨ t.axState a = stDraining) ∧ t.directMode a = false) ∧
    (∃ (s : State) (a : Nat), a < 16 ∧ s.flag F.MOT_AXCFG_EN a = true ∧ s.cascade = false) ∧
    (∃ (s : State) (a : Nat) (t : State), t = s.applyDue a [0] ∧ a < 16 ∧ s.flag F.MOT_AXCFG_EN a = true ∧ s.cascade = true ∧ t.axState a ≠ stRunning ∧ t.axState a ≠ stDraining) ∧
    (∃ (s : State) (a : Nat) (t : State), a < 16 ∧ s.flag F.MOT_AXCFG_EN a = true ∧ s.cascade = true ∧ t = s.applyDue a [0] ∧ (t.axState a = stRunning ∨ t.axState a = stDraining) ∧ t.directMode a = true) ∧
    (∃ (s : State) (a : Nat) (t : State), a < 16 ∧ s.flag F.MOT_AXCFG_EN a = true ∧ s.cascade = true ∧ t = s.applyDue a [0] ∧ (t.axState a = stRunning ∨ t.axState a = stDraining) ∧ t.directMode a = false) ∧
    (∃ (s : State) (a : Nat) (bits : List Bool), (16 ≤ a ∨ s.fastCrosses a bits = false)) ∧
    (∃ (s : State) (a : Nat) (bits : List Bool), a < 16 ∧ s.fastCrosses a bits = true) ∧
    (∃ (s : State) (n : Nat) (f : EncFault), n < 16 ∧ (s.enc n).faults.contains f = true) ∧
    (∃ (s : State) (n : Nat) (f : EncFault), n < 16 ∧ (s.enc n).faults.contains f = false) ∧
    (∃ (s : State) (a : Nat), a < 16 ∧ s.fld F.MOT_AXSTATE_ANGLE a = 2) ∧
    (∃ (s : State) (a : Nat), a < 16 ∧ s.fld F.MOT_AXSTATE_OBS a = 1) ∧
    (∃ (s : State) (a : Nat), a < 16 ∧ (s.ax a).feOver = true ∧ s.directMode a = false ∧ (s.axState a = stRunning ∨ s.axState a = stDraining) ∧ s.feSuspended a = false) ∧
    (∃ (s : State) (a : Nat), a < 16 ∧ s.fld F.MOT_AXSTATE_SAFE a = 2 ∧ s.ascHolds a = false) ∧
    (∃ (s : State) (a : Nat), a < 16 ∧ (s.fld F.MOT_AXSTATE_SAFE a ≠ 2 ∨ s.ascHolds a = true)) :=
  ⟨⟨axis stDraining, _, 15, { a := [], b := [], c := [] }, rfl, by decide +kernel⟩,
   ⟨axis stFault, _, 15, { a := [], b := [], c := [] }, rfl, by decide +kernel⟩,
   ⟨axis stStarting, _, 15, { a := [], b := [], c := [] }, rfl, by decide +kernel⟩,
   ⟨up, 16, by decide +kernel⟩,
   ⟨(axis stRunning).putFld F.MOT_CFG_MODE 1, 15, by decide +kernel⟩,
   ⟨axis stStopped, 15, _, rfl, by decide +kernel⟩,
   ⟨(axis stRunning).putFld F.MOT_AXSTATE_SP_TYPE 3 15, 15, _, by decide +kernel, by decide +kernel, by decide +kernel, rfl, by decide +kernel⟩,
   ⟨axis stRunning, 15, _, by decide +kernel, by decide +kernel, by decide +kernel, rfl, by decide +kernel⟩,
   ⟨(axis stRunning).putFld F.MOT_CFG_MODE 1, 15, by decide +kernel⟩,
   ⟨axis stStopped, 15, _, rfl, by decide +kernel⟩,
   ⟨(axis stDraining).putFld F.MOT_AXSTATE_SP_TYPE 2 15, 15, _, by decide +kernel, by decide +kernel, by decide +kernel, rfl, by decide +kernel⟩,
   ⟨axis stDraining, 15, _, by decide +kernel, by decide +kernel, by decide +kernel, rfl, by decide +kernel⟩,
   ⟨up, 16, [], by decide +kernel⟩,
   ⟨(set (axis stRunning) [(F.MOT_SDCFG_OSR_FAST, 15, 0, 1)]), 15, [true], by decide +kernel⟩,
   ⟨{ up with mot := { up.mot with encs := up.mot.encs.set 15 { faults := [.hall] } } }, 15, .hall, by decide +kernel⟩,
   ⟨up, 15, .hall, by decide +kernel⟩,
   ⟨(set up [(F.MOT_AXSTATE_ANGLE, 15, 0, 2)]), 15, by decide +kernel⟩,
   ⟨(set up [(F.MOT_AXSTATE_OBS, 15, 0, 1)]), 15, by decide +kernel⟩,
   ⟨(set ((axis stRunning).setAx 15 { feOver := true }) [(F.MOT_AXSTATE_SP_TYPE, 15, 0, 1)]), 15, by decide +kernel⟩,
   ⟨set up [(F.MOT_AXSTATE_SAFE, 15, 0, 2), (F.MOT_ASCCFG_ASC_SPEED, 15, 0, 1)], 15, by decide +kernel⟩,
   ⟨up, 15, by decide +kernel⟩⟩

/-- MotionQueues. -/
theorem wit_MotionQueues :
    (∃ (s : State) (p : Packet), s.starts (setpointRule p s) p = true) ∧
    (∃ (s : State) (p : Packet), s.starts (axisRule 2 p s 0) p = true) ∧
    (∃ (s : State) (p : Packet), s.starts (axisRule 3 p s 2) p = true) ∧
    (∃ (s : State) (a : Nat) (w : RegWrite), a < 16 ∧ s.ofPart w.initiator (s.axPart a) = true ∧ s.gated .MOT = false) ∧
    (∃ (s : State) (a : Nat) (w : RegWrite), a < 16 ∧ s.p0 w.initiator = true ∧ s.gated .MOT = false ∧ s.fld F.MOT_AXSTATE_OBS a = 2) ∧
    (∃ (s : State) (a : Nat) (w : RegWrite), a < 16 ∧ s.p0 w.initiator = true ∧ s.gated .MOT = false ∧ s.fld F.MOT_AXSTATE_OBS a ≠ 2) ∧
    (∃ (s : State) (k : Nat) (w : RegWrite), k < 4 ∧ s.p0 w.initiator = true ∧ s.gated .MOT = false ∧ (s.fld F.MOT_TRSTAT_STATE k = 0 ∨ s.fld F.MOT_TRSTAT_STATE k = 3)) ∧
    (∃ (s : State) (k : Nat) (w : RegWrite), k < 4 ∧ s.p0 w.initiator = true ∧ s.gated .MOT = false ∧ s.fld F.MOT_TRSTAT_STATE k ≠ 0 ∧ s.fld F.MOT_TRSTAT_STATE k ≠ 3) ∧
    (∃ (s : State) (a : Nat) (w : RegWrite), s.p0 w.initiator = false ∧ a < 4) ∧
    (∃ (s : State) (a : Nat) (w : RegWrite), s.ofPart w.initiator (s.axPart a) = false) :=
  ⟨⟨up, sealPacket ⟨8, 1⟩ { queue := 0, plen := 2, payload := padTo 64 [] }, by decide +kernel⟩,
   ⟨up, sealPacket ⟨8, 2⟩ { queue := 0, target := 15 }, by decide +kernel⟩,
   ⟨up, sealPacket ⟨8, 3⟩ { queue := 0, target := 15 }, by decide +kernel⟩,
   ⟨(set up [(F.MOT_AXCFG_PARTITION, 15, 0, 5)]), 15, wr5 1, by decide +kernel⟩,
   ⟨(set up [(F.MOT_AXSTATE_OBS, 15, 0, 2)]), 15, wr 1, by decide +kernel⟩,
   ⟨up, 15, wr 1, by decide +kernel⟩,
   ⟨(set up [(F.MOT_TRSTAT_STATE, 3, 0, 3)]), 3, wr 1, by decide +kernel⟩,
   ⟨(set up [(F.MOT_TRSTAT_STATE, 3, 0, 1)]), 3, wr 1, by decide +kernel⟩,
   ⟨up, 3, wr5 1, by decide +kernel⟩,
   ⟨up, 15, wr5 1, by decide +kernel⟩⟩

/-- Table SAFE-3: a checker's function is one of the 17. -/
theorem checkerFn_lt (c : Nat) : checkerFn c < 17 := by
  rw [checkerFn]
  split <;> first | decide | exact Nat.mod_lt _ (by decide)

/-- R444: with every function's clock on, a rotation tests a checker that has not failed. -/
theorem tested_of (s : State) (c : Nat) (hf : s.tbFailed c = false) (hg : s.reg .CLK_GATE = 0x1FFFF) : s.tbTests c = true := by
  rw [State.tbTests, hf, hg]
  exact (show ∀ n < 17, (!false && (0x1FFFF : Nat).testBit n) = true by decide) _ (checkerFn_lt c)

/-- R445: with no repeat owed, such a checker's test may run. -/
theorem may_of (s : State) (c : Nat) (hc : c < 408) (hf : s.tbFailed c = false) (hg : s.reg .CLK_GATE = 0x1FFFF) (hr : s.safe.repeatNext = none) :
    s.tbMay c = true := by
  rw [State.tbMay, tested_of s c hf hg, hr, decide_eq_true hc]; rfl

/-- R444: with every function's clock off, a rotation tests none. -/
theorem untested_of (s : State) (c : Nat) (hg : s.reg .CLK_GATE = 0) : s.tbTests c = false := by
  rw [State.tbTests, hg, Nat.zero_testBit, Bool.and_false]

/-- SafetyIslandCommands. -/
theorem wit_SafetyIslandCommands :
    (∃ (s : State) (pair : Nat), pair < 2 ∧ s.pairsRun = true ∧ s.flag (pairFld pair) = true) ∧
    (∃ (s : State) (pair : Nat), (2 ≤ pair ∨ s.pairsRun = false ∨ s.flag (pairFld pair) = false)) ∧
    (∃ (s : State) (k : Nat), s.due.contains (.wdStart k .counter) = true) ∧
    (∃ (s : State) (k : Nat), s.due.contains (.wdKick k .counter) = true) ∧
    (∃ (s : State) (k : Nat) (w : RegWrite), k < 64 ∧ s.ofPart w.initiator (s.fld F.SAFE_WDCFG_PARTITION k) = true ∧ s.gated .SAFE = false) ∧
    (∃ (s : State) (k : Nat), s.due.contains (.wdKick k .counter) = false) ∧
    (∃ (s : State) (k : Nat), k < 64 ∧ s.wdLive k = true ∧ (s.wdOpened k).isSome = true ∧ s.fld F.SAFE_WDWIN_CLOSE_US k < s.wdTime k) ∧
    (∃ (s : State) (k : Nat), k < 64 ∧ s.wdLive k = true ∧ (s.wdOpened k).isSome = true ∧ s.wdTime k ≤ s.fld F.SAFE_WDWIN_CLOSE_US k) ∧
    (∃ (s : State) (x : TbSlot) (t : State) (u : State), t = s.putFld F.SAFE_TBSTAT_CHECKER x.checker ∧ u = { t with safe := { t.safe with repeatNext := if x.realFault then some x.checker else none } } ∧ s.fnUsable fnSafe = true ∧ s.flag F.SAFE_STATUS_PAIR1_OK = true ∧ s.tbMay x.checker = true ∧ x.realFault = true) ∧
    (∃ (s : State) (x : TbSlot) (t : State) (u : State), t = s.putFld F.SAFE_TBSTAT_CHECKER x.checker ∧ u = { t with safe := { t.safe with repeatNext := if x.realFault then some x.checker else none } } ∧ s.fnUsable fnSafe = true ∧ s.flag F.SAFE_STATUS_PAIR1_OK = true ∧ s.tbMay x.checker = true ∧ x.realFault = false ∧ x.passed = true) ∧
    (∃ (s : State) (x : TbSlot) (t : State) (u : State), t = s.putFld F.SAFE_TBSTAT_CHECKER x.checker ∧ u = { t with safe := { t.safe with repeatNext := if x.realFault then some x.checker else none } } ∧ s.fnUsable fnSafe = true ∧ s.flag F.SAFE_STATUS_PAIR1_OK = true ∧ s.tbMay x.checker = true ∧ x.realFault = false ∧ x.passed = false) ∧
    (∃ (s : State) (d : _), s.safe.repeatNext = some d) ∧
    (∃ (s : State) (t : State) (c : Nat), t = { s with safe := { s.safe with tested := if s.safe.tested.contains c then s.safe.tested else s.safe.tested ++ [c] } } ∧ (∀ d < 408, d ∈ t.safe.tested ∨ t.tbTests d = false)) ∧
    (∃ (s : State) (t : State) (c : Nat) (d : _), t = { s with safe := { s.safe with tested := if s.safe.tested.contains c then s.safe.tested else s.safe.tested ++ [c] } } ∧ d < 408 ∧ d ∉ t.safe.tested ∧ t.tbTests d = true) ∧
    (∃ (s : State) (t : State), s.fnUsable fnSafe = true ∧ s.flag F.SAFE_STATUS_PAIR1_OK = true ∧ s.safe.late = false ∧ t = ({ s with safe := { s.safe with late := true, overruns := s.safe.overruns + 1 } } : State).anyEvent 0x0D 4 ∧ s.safe.overruns = 0) ∧
    (∃ (s : State) (t : State), s.fnUsable fnSafe = true ∧ s.flag F.SAFE_STATUS_PAIR1_OK = true ∧ s.safe.late = false ∧ t = ({ s with safe := { s.safe with late := true, overruns := s.safe.overruns + 1 } } : State).anyEvent 0x0D 4 ∧ 1 ≤ s.safe.overruns) ∧
    (∃ (s : State) (p : Packet), s.starts (safeRule 1 p 0 fnSafe true) p = true) :=
  ⟨⟨dog 0, 1, by decide +kernel⟩,
   ⟨up, 2, by decide +kernel⟩,
   ⟨{ up with due := [.wdStart 63 .counter] }, 63, by decide +kernel⟩,
   ⟨{ up with due := [.wdKick 63 .counter] }, 63, by decide +kernel⟩,
   ⟨(set up [(F.SAFE_WDCFG_PARTITION, 63, 0, 5)]), 63, wr5 1, by decide +kernel⟩,
   ⟨dog 0, 63, by decide +kernel⟩,
   ⟨dog 21000, 63, by decide +kernel⟩,
   ⟨dog 20999, 63, by decide +kernel⟩,
   ⟨dog 0, { checker := 407, realFault := true }, _, _, rfl, rfl, by decide +kernel, by decide +kernel, may_of _ _ (by decide +kernel) (by decide +kernel) (by decide +kernel) rfl, by decide +kernel⟩,
   ⟨dog 0, { checker := 407 }, _, _, rfl, rfl, by decide +kernel, by decide +kernel, may_of _ _ (by decide +kernel) (by decide +kernel) (by decide +kernel) rfl, by decide +kernel, by decide +kernel⟩,
   ⟨dog 0, { checker := 407, passed := false }, _, _, rfl, rfl, by decide +kernel, by decide +kernel, may_of _ _ (by decide +kernel) (by decide +kernel) (by decide +kernel) rfl, by decide +kernel, by decide +kernel⟩,
   ⟨{ up with safe := { up.safe with repeatNext := some 407 } }, 407, by decide +kernel⟩,
   ⟨up.setReg .CLK_GATE 0, _, 407, rfl, fun d _ => .inr (untested_of _ d (by decide +kernel))⟩,
   ⟨up, _, 407, 0, rfl, by decide +kernel, by decide +kernel, tested_of _ _ (by decide +kernel) (by decide +kernel)⟩,
   ⟨dog 0, _, by decide +kernel, by decide +kernel, by decide +kernel, rfl, by decide +kernel⟩,
   ⟨{ dog 0 with safe := { up.safe with overruns := 1 } }, _, by decide +kernel, by decide +kernel, by decide +kernel, rfl, by decide +kernel⟩,
   ⟨up, sealPacket ⟨0xB, 1⟩ { queue := 0 }, by decide +kernel⟩⟩

/-- SecurityCommands. -/
theorem wit_SecurityCommands :
    (∃ (s : State) (w : RegWrite), s.secReach w.initiator false = true ∧ s.gated .SEC = false ∧ s.flag F.SEC_LIFECYCLE_STATE = true) ∧
    (∃ (s : State) (w : RegWrite), s.secReach w.initiator false = true ∧ s.gated .SEC = false ∧ s.flag F.SEC_LIFECYCLE_STATE = false) ∧
    (∃ (s : State) (p : Packet) (r : Rule), r = safeRule 0x10 p 0 fnMgmt (!s.flag F.SYS_DEVSTATE_RAM_PROFILE) ∧ s.starts r p = true) ∧
    (∃ (s : State) (p : Packet) (r : Rule), r = safeRule 0x11 p 6 fnMgmt (p.target != 0 && s.unitState fnMgmt p.target == stStopped) ∧ s.starts r p = true) ∧
    (∃ (s : State) (w : RegWrite), s.secReach w.initiator true = true ∧ s.gated .SEC = false ∧ s.fld F.SEC_LIFECYCLE_DENIALS = 3) ∧
    (∃ (s : State) (w : RegWrite), s.secReach w.initiator true = true ∧ s.gated .SEC = false ∧ s.fld F.SEC_LIFECYCLE_DENIALS ≠ 3 ∧ s.dbgSigned = false) ∧
    ((∀ k m g, Config.mldsaVerify k m g = true) → (∀ k m g, Config.ecdsaVerify k m g = true) → ∃ (s : State) (w : RegWrite), s.secReach w.initiator true = true ∧ s.gated .SEC = false ∧ s.fld F.SEC_LIFECYCLE_DENIALS ≠ 3 ∧ s.dbgSigned = true ∧ (s.dbgNum 10 32 ≠ s.nonce ∨ s.dbgNum 2 8 ≠ s.reg .GLK_UID)) ∧
    ((∀ k m g, Config.mldsaVerify k m g = true) → (∀ k m g, Config.ecdsaVerify k m g = true) → ∃ (s : State) (w : RegWrite), s.secReach w.initiator true = true ∧ s.gated .SEC = false ∧ s.fld F.SEC_LIFECYCLE_DENIALS ≠ 3 ∧ s.dbgSigned = true ∧ s.dbgNum 10 32 = s.nonce ∧ s.dbgNum 2 8 = s.reg .GLK_UID ∧ s.dbgByte 0 = 1) ∧
    ((∀ k m g, Config.mldsaVerify k m g = true) → (∀ k m g, Config.ecdsaVerify k m g = true) → ∃ (s : State) (w : RegWrite), s.secReach w.initiator true = true ∧ s.gated .SEC = false ∧ s.fld F.SEC_LIFECYCLE_DENIALS ≠ 3 ∧ s.dbgSigned = true ∧ s.dbgNum 10 32 = s.nonce ∧ s.dbgNum 2 8 = s.reg .GLK_UID ∧ s.dbgByte 0 = 2 ∧ (s.devState = devHeld ∨ s.devState = devSafe)) ∧
    ((∀ k m g, Config.mldsaVerify k m g = true) → (∀ k m g, Config.ecdsaVerify k m g = true) → ∃ (s : State) (w : RegWrite), s.secReach w.initiator true = true ∧ s.gated .SEC = false ∧ s.fld F.SEC_LIFECYCLE_DENIALS ≠ 3 ∧ s.dbgSigned = true ∧ s.dbgNum 10 32 = s.nonce ∧ s.dbgNum 2 8 = s.reg .GLK_UID ∧ s.dbgByte 0 = 2 ∧ s.devState ≠ devHeld ∧ s.devState ≠ devSafe) ∧
    ((∀ k m g, Config.mldsaVerify k m g = true) → (∀ k m g, Config.ecdsaVerify k m g = true) → ∃ (s : State) (w : RegWrite), s.secReach w.initiator true = true ∧ s.gated .SEC = false ∧ s.fld F.SEC_LIFECYCLE_DENIALS ≠ 3 ∧ s.dbgSigned = true ∧ s.dbgNum 10 32 = s.nonce ∧ s.dbgNum 2 8 = s.reg .GLK_UID ∧ s.dbgByte 0 ≠ 1 ∧ s.dbgByte 0 ≠ 2) ∧
    (∃ (s : State) (w : RegWrite), s.secReach w.initiator true = false) ∧
    (∃ (s : State) (w : RegWrite), s.secReach w.initiator false = false) :=
  ⟨⟨(set up [(F.SEC_LIFECYCLE_STATE, 0, 0, 1)]), wr 0, by decide +kernel⟩,
   ⟨up, wr 0, by decide +kernel⟩,
   ⟨up, sealPacket ⟨0xB, 0x10⟩ { queue := 0 }, _, rfl, by decide +kernel⟩,
   ⟨(set up [(F.ESC_PCFG_STATE, 63, 0, stStopped)]), sealPacket ⟨0xB, 0x11⟩ { queue := 0, target := 63 }, _, rfl, by decide +kernel⟩,
   ⟨(set up [(F.SEC_LIFECYCLE_DENIALS, 0, 0, 3)]), wr 1, by decide +kernel⟩,
   ⟨up, wr 1, by decide +kernel⟩,
   (fun h h' => ⟨debug (up.setReg .SEC_DBGNONCE 1) 1, wr 1, by decide +kernel, by decide +kernel, by decide +kernel, debug_signed _ _ h h', by decide +kernel⟩),
   (fun h h' => ⟨debug up 1, wr 1, by decide +kernel, by decide +kernel, by decide +kernel, debug_signed _ _ h h', by decide +kernel, by decide +kernel, by decide +kernel⟩),
   (fun h h' => ⟨debug (up.putFld F.SYS_DEVSTATE_DEVSTATE devSafe) 2, wr 1, by decide +kernel, by decide +kernel, by decide +kernel, debug_signed _ _ h h', by decide +kernel, by decide +kernel, by decide +kernel, by decide +kernel⟩),
   (fun h h' => ⟨debug up 2, wr 1, by decide +kernel, by decide +kernel, by decide +kernel, debug_signed _ _ h h', by decide +kernel, by decide +kernel, by decide +kernel, by decide +kernel, by decide +kernel⟩),
   (fun h h' => ⟨debug up 3, wr 1, by decide +kernel, by decide +kernel, by decide +kernel, debug_signed _ _ h h', by decide +kernel, by decide +kernel, by decide +kernel, by decide +kernel⟩),
   ⟨up, wr5 1, by decide +kernel⟩,
   ⟨up, wr5 1, by decide +kernel⟩⟩

/-- EventLogCommands. -/
theorem wit_EventLogCommands :
    (∃ (s : State) (e : LogEvent), s.log.held = some e) ∧
    (∃ (s : State) (c : _), s.log.held = none ∧ s.log.nextClass = some c) ∧
    (∃ (s : State), s.log.held = none ∧ s.log.nextClass = none) ∧
    (∃ (s : State) (r : List Byte) (rest : List (List Byte)), s.log.persist = r :: rest) ∧
    (∃ (s : State), s.log.persist = []) ∧
    (∃ (s : State) (t : State) (p : Packet) (l : List (Nat × List Byte)) (e : _) (m : _), t = s.entered (logReadRule p) p ∧ l = (t.logChosen (pNum p 6 1) (pNum p 0 4) (pNum p 8 2) p.partition).take (pNum p 4 2) ∧ s.starts (logReadRule p) p = true ∧ l = e :: m) ∧
    (∃ (s : State) (t : State) (p : Packet) (l : List (Nat × List Byte)), t = s.entered (logReadRule p) p ∧ l = (t.logChosen (pNum p 6 1) (pNum p 0 4) (pNum p 8 2) p.partition).take (pNum p 4 2) ∧ s.starts (logReadRule p) p = true ∧ l = []) :=
  ⟨⟨logged { held := some event }, event, by decide +kernel⟩,
   ⟨logged { staged := [event] }, 5, by decide +kernel⟩,
   ⟨up, by decide +kernel⟩,
   ⟨logged { persist := [[1]] }, [1], [], by decide +kernel⟩,
   ⟨up, by decide +kernel⟩,
   ⟨logged { written := 1 }, _, sealPacket ⟨1, 0x21⟩ { queue := 0, plen := 1, payload := padTo 32 [0, 0, 0, 0, 1, 0, 0, 0, 1] }, _, (0, List.replicate 32 (0 : Byte)), ([] : List (Nat × List Byte)), rfl, rfl, by decide +kernel, by decide +kernel⟩,
   ⟨up, _, sealPacket ⟨1, 0x21⟩ { queue := 0, plen := 1, payload := padTo 32 [0, 0, 0, 0, 1, 0, 0, 0, 1] }, _, rfl, rfl, by decide +kernel, by decide +kernel⟩⟩

/-- ChronometerCommands. -/
theorem wit_ChronometerCommands :
    (∃ (s : State) (x : PtpMsg) (d : Nat) (offset : Int) (ratio : Int) (t : State) (u : State), t = (s.setReg .CHR_DOMOFF (ofSigned 64 (offset + s.linkDelay x.port)) d).setReg .CHR_DOMRATE (ofSigned 32 ratio) d ∧ u = (t.setDom d { t.chr.dom d with syncs := if (t.chr.dom d).lastSeq.all (fun k => (k + 1) % 65536 == x.seq % 65536) then (t.chr.dom d).syncs + 1 else 1, lastSeq := some (x.seq % 65536) }).judgeDomain d ∧ s.domainsOf x = [d] ∧ s.followed = some d ∧ s.onRcosc = false) ∧
    (∃ (s : State) (x : PtpMsg) (d : Nat) (offset : Int) (ratio : Int) (t : State) (u : State), t = (s.setReg .CHR_DOMOFF (ofSigned 64 (offset + s.linkDelay x.port)) d).setReg .CHR_DOMRATE (ofSigned 32 ratio) d ∧ u = (t.setDom d { t.chr.dom d with syncs := if (t.chr.dom d).lastSeq.all (fun k => (k + 1) % 65536 == x.seq % 65536) then (t.chr.dom d).syncs + 1 else 1, lastSeq := some (x.seq % 65536) }).judgeDomain d ∧ s.domainsOf x = [d] ∧ s.followed = some d ∧ s.onRcosc = true) ∧
    (∃ (s : State) (x : PtpMsg) (d : Nat) (offset : Int) (ratio : Int) (t : State) (u : State), t = (s.setReg .CHR_DOMOFF (ofSigned 64 (offset + s.linkDelay x.port)) d).setReg .CHR_DOMRATE (ofSigned 32 ratio) d ∧ u = (t.setDom d { t.chr.dom d with syncs := if (t.chr.dom d).lastSeq.all (fun k => (k + 1) % 65536 == x.seq % 65536) then (t.chr.dom d).syncs + 1 else 1, lastSeq := some (x.seq % 65536) }).judgeDomain d ∧ s.domainsOf x = [d] ∧ s.followed ≠ some d ∧ s.chr.pendingDom = some d) ∧
    (∃ (s : State) (x : PtpMsg) (d : Nat) (offset : Int) (ratio : Int) (t : State) (u : State), t = (s.setReg .CHR_DOMOFF (ofSigned 64 (offset + s.linkDelay x.port)) d).setReg .CHR_DOMRATE (ofSigned 32 ratio) d ∧ u = (t.setDom d { t.chr.dom d with syncs := if (t.chr.dom d).lastSeq.all (fun k => (k + 1) % 65536 == x.seq % 65536) then (t.chr.dom d).syncs + 1 else 1, lastSeq := some (x.seq % 65536) }).judgeDomain d ∧ s.domainsOf x = [d] ∧ s.followed ≠ some d ∧ s.chr.pendingDom ≠ some d) ∧
    (∃ (s : State) (x : PtpMsg) (d : Nat) (rank : List Nat) (t : State) (u : State), t = (s.putFld F.CHR_DOMSTAT_MISSED 0 d).putFld F.CHR_DOMSTAT_CLOCK_CLASS (rank.getD 1 0) d ∧ u = (t.setDom d { t.chr.dom d with announced := true, rank := rank }).judgeDomain d ∧ s.domainsOf x = [d] ∧ d = 0) ∧
    (∃ (s : State) (x : PtpMsg) (d : Nat) (rank : List Nat) (t : State) (u : State), t = (s.putFld F.CHR_DOMSTAT_MISSED 0 d).putFld F.CHR_DOMSTAT_CLOCK_CLASS (rank.getD 1 0) d ∧ u = (t.setDom d { t.chr.dom d with announced := true, rank := rank }).judgeDomain d ∧ s.domainsOf x = [d] ∧ d ≠ 0) ∧
    (∃ (s : State), s.fnUsable fnChr = true) ∧
    (∃ (s : State) (d : Nat), (2 ≤ d ∨ s.fnUsable fnChr = false)) ∧
    (∃ (s : State) (d : Nat) (m : Nat), d < 2 ∧ s.fnUsable fnChr = true ∧ m < 3) ∧
    (∃ (s : State) (d : Nat) (m : Nat), d < 2 ∧ s.fnUsable fnChr = true ∧ 3 ≤ m) ∧
    (∃ (s : State), s.flag F.CHR_CFG_REVERT = true ∧ s.followed = some 1 ∧ s.qualified 0 = true ∧ ranksBelow s.chr.a.rank s.chr.b.rank = false) ∧
    (∃ (s : State) (p : Packet), s.starts (chrReadRule p) p = true) ∧
    (∃ (s : State) (t : State) (p : Packet), s.starts (chrStepRule p) p = true ∧ t = s.entered (chrStepRule p) p ∧ pNum p 0 1 = 0 ∧ t.chr.pendingDom = none) ∧
    (∃ (s : State) (t : State) (p : Packet) (d : Nat) (j : Int) (u : State) (v : State), s.starts (chrStepRule p) p = true ∧ t = s.entered (chrStepRule p) p ∧ pNum p 0 1 = 0 ∧ t.chr.pendingDom = some d ∧ j = signedOf 64 (t.reg .CHR_PENDING) ∧ u = (t.stepCount j).dropPending ∧ v = u.setDom d { u.chr.dom d with beyond := 0 } ∧ t.onRcosc = true) ∧
    (∃ (s : State) (t : State) (p : Packet) (d : Nat) (j : Int) (u : State) (v : State), s.starts (chrStepRule p) p = true ∧ t = s.entered (chrStepRule p) p ∧ pNum p 0 1 = 0 ∧ t.chr.pendingDom = some d ∧ j = signedOf 64 (t.reg .CHR_PENDING) ∧ u = (t.stepCount j).dropPending ∧ v = u.setDom d { u.chr.dom d with beyond := 0 } ∧ t.onRcosc = false) ∧
    (∃ (s : State) (t : State) (p : Packet) (j : Int), s.starts (chrStepRule p) p = true ∧ t = s.entered (chrStepRule p) p ∧ pNum p 0 1 = 1 ∧ j = signedOf 64 (pNum p 8 8) ∧ t.needsForce p j = true) ∧
    (∃ (s : State) (t : State) (p : Packet) (j : Int), s.starts (chrStepRule p) p = true ∧ t = s.entered (chrStepRule p) p ∧ pNum p 0 1 = 1 ∧ j = signedOf 64 (pNum p 8 8) ∧ t.needsForce p j = false) ∧
    (∃ (s : State) (t : State) (p : Packet) (j : Int), s.starts (chrStepRule p) p = true ∧ t = s.entered (chrStepRule p) p ∧ pNum p 0 1 = 2 ∧ j = (pNum p 8 8 : Int) - t.time ∧ t.needsForce p j = true) ∧
    (∃ (s : State) (t : State) (p : Packet) (j : Int), s.starts (chrStepRule p) p = true ∧ t = s.entered (chrStepRule p) p ∧ pNum p 0 1 = 2 ∧ j = (pNum p 8 8 : Int) - t.time ∧ t.needsForce p j = false ∧ t.chrState ≠ chrUnset) ∧
    (∃ (s : State) (t : State) (p : Packet) (j : Int), s.starts (chrStepRule p) p = true ∧ t = s.entered (chrStepRule p) p ∧ pNum p 0 1 = 2 ∧ j = (pNum p 8 8 : Int) - t.time ∧ t.needsForce p j = false ∧ t.chrState = chrUnset) :=
  ⟨⟨ptp.putFld F.CHR_STATUS_STATE 1, { port := 0, domain := 0 }, 0, 5, 0, _, _, rfl, rfl, by decide +kernel, by decide +kernel, by decide +kernel⟩,
   ⟨(ptp.putFld F.CHR_STATUS_STATE 2).putFld F.CLK_STATUS_ACTIVE 2, { port := 0, domain := 1, interval := 3 }, 1, 5, 0, _, _, rfl, rfl, by decide +kernel, by decide +kernel, by decide +kernel⟩,
   ⟨{ ptp with chr := { ptp.chr with pendingDom := some 1 } }, { port := 0, domain := 1 }, 1, 5, 0, _, _, rfl, rfl, by decide +kernel, by decide +kernel, by decide +kernel⟩,
   ⟨ptp, { port := 0, domain := 1, interval := -7 }, 1, 5, 0, _, _, rfl, rfl, by decide +kernel, by decide +kernel, by decide +kernel⟩,
   ⟨ptp, { port := 0, domain := 0 }, 0, [1, 6], _, _, rfl, rfl, by decide +kernel, rfl⟩,
   ⟨ptp, { port := 0, domain := 1 }, 1, [1, 6], _, _, rfl, rfl, by decide +kernel, by decide +kernel⟩,
   ⟨up, by decide +kernel⟩,
   ⟨up, 2, by decide +kernel⟩,
   ⟨up, 1, 2, by decide +kernel⟩,
   ⟨up, 1, 3, by decide +kernel⟩,
   ⟨((ptp.putFld F.CHR_CFG_REVERT 1).putFld F.CHR_STATUS_STATE 2).putFld F.CHR_DOMSTAT_QUALIFIED 1, by decide +kernel⟩,
   ⟨up, sealPacket ⟨9, 0x20⟩ { queue := 0 }, by decide +kernel⟩,
   ⟨up, _, stepBy 0 0, by decide +kernel, rfl, by decide +kernel⟩,
   ⟨{ up with chr := { up.chr with pendingDom := some 1 } }.putFld F.CLK_STATUS_ACTIVE 2, _, stepBy 0 0, 1, _, _, _, by decide +kernel, rfl, by decide +kernel, by decide +kernel, rfl, rfl, rfl, by decide +kernel⟩,
   ⟨{ up with chr := { up.chr with pendingDom := some 0 } }, _, stepBy 0 0, 0, _, _, _, by decide +kernel, rfl, by decide +kernel, by decide +kernel, rfl, rfl, rfl, by decide +kernel⟩,
   ⟨(set up [(F.CHR_STATUS_STATE, 0, 0, 1)]), _, stepBy 1 1, _, by decide +kernel, rfl, by decide +kernel, rfl, by decide +kernel⟩,
   ⟨(set (State.loadRegs up [(.CHR_JUMP, 0, 0, 1)]) [(F.CHR_STATUS_STATE, 0, 0, 1)]), _, stepBy 1 1, _, by decide +kernel, rfl, by decide +kernel, rfl, by decide +kernel⟩,
   ⟨(set (State.loadRegs up [(.CHR_TIME, 0, 0, 5)]) [(F.CHR_STATUS_STATE, 0, 0, 1)]), _, stepBy 2 6, _, by decide +kernel, rfl, by decide +kernel, rfl, by decide +kernel⟩,
   ⟨(set (State.loadRegs up [(.CHR_JUMP, 0, 0, 1), (.CHR_TIME, 0, 0, 5)]) [(F.CHR_STATUS_STATE, 0, 0, 1)]), _, stepBy 2 6, _, by decide +kernel, rfl, by decide +kernel, rfl, by decide +kernel⟩,
   ⟨up, _, stepBy 2 6, _, by decide +kernel, rfl, by decide +kernel, rfl, by decide +kernel⟩⟩

/-- R416: where every entry holds one filter, and it identifies a frame of a data port, the first is the frame's. -/
theorem streamOf_all (s : State) (x : EthRx) (f : Config.StreamFilter) (h : ∀ a b, Config.streamFilter a b = f) (hx : x.port ≠ 8)
    (hm : streamMatch f x.data = true) : s.streamOf x = some (0, f) := by
  rw [State.streamOf, if_neg hx, show (128 : Nat) = 127 + 1 from rfl, List.range_succ_eq_map]
  simp [State.streamFilter, h, hm]

/-- EthernetCommands. -/
theorem wit_EthernetCommands :
    (∃ (s : State) (n : Nat), n < 9 ∧ s.unitUsable fnEth n = true ∧ s.ethSpeed n ≠ 0 ∧ s.mayDrive fnEth n = true) ∧
    (∃ (s : State) (n : Nat), (9 ≤ n ∨ s.unitUsable fnEth n = false ∨ s.ethSpeed n = 0 ∨ s.mayDrive fnEth n = false)) ∧
    (∃ (s : State) (n : Nat), n < 8 ∧ s.flag F.ETH_PREEMPT_EN n = true) ∧
    (∃ (s : State) (x : EthRx), x.port < 9 ∧ s.unitUsable fnEth x.port = true ∧ (x.fcsOk = false ∨ x.data.length < 60 ∨ 9212 < x.data.length)) ∧
    ((∀ a b, Config.streamFilter a b = { used := true, maxSdu := 1 }) → ∃ (s : State) (x : EthRx), x.port < 9 ∧ s.unitUsable fnEth x.port = true ∧ x.fcsOk = true ∧ 60 ≤ x.data.length ∧ x.data.length ≤ 9212 ∧ (s.streamFiltered x).1 = true) ∧
    (∃ (s : State) (x : EthRx) (q : Nat) (u : State), q = s.rxRing x ∧ u = (s.streamFiltered x).2.acceptUnit fnEth x.port ∧ x.port < 9 ∧ s.unitUsable fnEth x.port = true ∧ x.fcsOk = true ∧ 60 ≤ x.data.length ∧ x.data.length ≤ 9212 ∧ (s.streamFiltered x).1 = false ∧ s.consumed x = true) ∧
    (∃ (s : State) (x : EthRx) (q : Nat) (u : State), q = s.rxRing x ∧ u = (s.streamFiltered x).2.acceptUnit fnEth x.port ∧ x.port < 9 ∧ s.unitUsable fnEth x.port = true ∧ x.fcsOk = true ∧ 60 ≤ x.data.length ∧ x.data.length ≤ 9212 ∧ (s.streamFiltered x).1 = false ∧ s.consumed x = false ∧ 8 ≤ q ∧ ringExists x.port q = true ∧ s.ringOn x.port q = true ∧ s.ringAvail x.port q ≠ 0) ∧
    (∃ (s : State) (x : EthRx) (q : Nat) (u : State), q = s.rxRing x ∧ u = (s.streamFiltered x).2.acceptUnit fnEth x.port ∧ x.port < 9 ∧ s.unitUsable fnEth x.port = true ∧ x.fcsOk = true ∧ 60 ≤ x.data.length ∧ x.data.length ≤ 9212 ∧ (s.streamFiltered x).1 = false ∧ s.consumed x = false ∧ (q < 8 ∨ ringExists x.port q = false ∨ s.ringOn x.port q = false ∨ s.ringAvail x.port q = 0)) ∧
    (∃ (s : State) (x : EthRx), s.streamOf x = none) ∧
    ((∀ a b, Config.streamFilter a b = { used := true, maxSdu := 45 }) → ∃ (s : State) (x : EthRx) (i : _) (f : _), s.streamOf x = some (i, f) ∧ ((∃ g, f.gate = some g ∧ s.streamOpen x.port (g % 64) = false) ∨ (f.maxSdu ≠ 0 ∧ f.maxSdu < sduBytes x.data))) ∧
    ((∀ a b, Config.streamFilter a b = { used := true, maxSdu := 46 }) → ∃ (s : State) (x : EthRx) (i : _) (f : _), s.streamOf x = some (i, f) ∧ (∀ g, f.gate = some g → s.streamOpen x.port (g % 64) = true) ∧ (f.maxSdu = 0 ∨ sduBytes x.data ≤ f.maxSdu) ∧ f.meter = none) ∧
    ((∀ a b, Config.streamFilter a b = { used := true, meter := some 63 }) → ∃ (s : State) (x : EthRx) (i : _) (f : _) (m : _), s.streamOf x = some (i, f) ∧ (∀ g, f.gate = some g → s.streamOpen x.port (g % 64) = true) ∧ (f.maxSdu = 0 ∨ sduBytes x.data ≤ f.maxSdu) ∧ f.meter = some m) ∧
    (∃ (s : State) (p : Packet), s.starts (ethTxRule p s) p = true) ∧
    (∃ (s : State) (n : Nat) (q : Nat) (w : RegWrite) (t : State), t = (s.setReg .ETH_RDB (w.value % 2 ^ 32) n q).acceptUnit fnEth n ∧ n < 9 ∧ q < 16 ∧ s.gated .ETH = false ∧ initPart w.initiator = s.ringPart n q ∧ ringExists n q = true ∧ s.ringOn n q = true ∧ s.unitUsable fnEth n = true ∧ (w.value % 2 ^ 32 + 2 ^ 32 - s.reg .ETH_RHEAD n q) % 2 ^ 32 ≤ s.ringSize n q ∧ 8 ≤ q) ∧
    (∃ (s : State) (n : Nat) (q : Nat) (w : RegWrite) (t : State), t = (s.setReg .ETH_RDB (w.value % 2 ^ 32) n q).acceptUnit fnEth n ∧ n < 9 ∧ q < 16 ∧ s.gated .ETH = false ∧ initPart w.initiator = s.ringPart n q ∧ ringExists n q = true ∧ s.ringOn n q = true ∧ s.unitUsable fnEth n = true ∧ (w.value % 2 ^ 32 + 2 ^ 32 - s.reg .ETH_RHEAD n q) % 2 ^ 32 ≤ s.ringSize n q ∧ q < 8) ∧
    (∃ (s : State) (n : Nat) (a : _), n < 8 ∧ s.flag F.ETH_GCLCTL_EN n = true ∧ (s.ethPort n).adminAt = some a ∧ a ≤ s.time) ∧
    (∃ (s : State) (n : Nat), n < 8 ∧ s.flag F.ETH_GCLCTL_EN n = true ∧ (∀ a, (s.ethPort n).adminAt = some a → s.time < a) ∧ (s.ethPort n).gates ≠ [] ∧ (s.ethPort n).entryEnd ≤ s.time) ∧
    (∃ (s : State) (n : Nat), n < 8 ∧ s.flag F.ETH_GCLCTL_EN n = true ∧ (∀ a, (s.ethPort n).adminAt = some a → s.time < a) ∧ ((s.ethPort n).gates = [] ∨ s.time < (s.ethPort n).entryEnd)) ∧
    (∃ (s : State) (n : Nat) (w : RegWrite), n < 8 ∧ s.p0 w.initiator = true ∧ s.gated .ETH = false ∧ s.regStopped .ETH_GCLCTL n = false) ∧
    (∃ (s : State) (n : Nat) (f : EthFrame), n < 9 ∧ s.flag F.ETH_PSTAT_LINK n = true ∧ s.nextFrame n = some f ∧ f.flight.isSome = true) ∧
    (∃ (s : State) (n : Nat) (f : EthFrame), n < 9 ∧ s.flag F.ETH_PSTAT_LINK n = true ∧ s.nextFrame n = some f ∧ f.flight = none) ∧
    (∃ (s : State) (n : Nat) (f : EthFrame) (bs : List Byte) (stamp : Nat) (l : List (EthFrame × List Byte × Nat)) (t : State) (id : _), (s.ethPort n).sending = (f, bs, stamp) :: l ∧ t = (s.setEth n { s.ethPort n with sending := l }).send (.frame n bs) ∧ f.flight = some id) ∧
    (∃ (s : State) (n : Nat) (f : EthFrame) (bs : List Byte) (stamp : Nat) (l : List (EthFrame × List Byte × Nat)) (t : State), (s.ethPort n).sending = (f, bs, stamp) :: l ∧ t = (s.setEth n { s.ethPort n with sending := l }).send (.frame n bs) ∧ f.flight = none) ∧
    (∃ (s : State) (n : Nat) (c : Nat) (f : EthFrame) (t : State), t = ((s.unqueue n f).addFld F.ETH_CNT_LATE 1 n).lateEvent n f.partition ∧ (s.ethPort n).headOf c = some f ∧ (launchEn f = false ∨ s.reg .ETH_LTCFG n = 0xFFFFFFFF ∨ s.time ≤ f.launch + s.reg .ETH_LTCFG n)) ∧
    (∃ (s : State) (n : Nat) (c : Nat) (f : EthFrame) (t : State) (id : _), t = ((s.unqueue n f).addFld F.ETH_CNT_LATE 1 n).lateEvent n f.partition ∧ (s.ethPort n).headOf c = some f ∧ launchEn f = true ∧ s.reg .ETH_LTCFG n ≠ 0xFFFFFFFF ∧ f.launch + s.reg .ETH_LTCFG n < s.time ∧ f.flight = some id) ∧
    (∃ (s : State) (n : Nat) (c : Nat) (f : EthFrame) (t : State), t = ((s.unqueue n f).addFld F.ETH_CNT_LATE 1 n).lateEvent n f.partition ∧ (s.ethPort n).headOf c = some f ∧ launchEn f = true ∧ s.reg .ETH_LTCFG n ≠ 0xFFFFFFFF ∧ f.launch + s.reg .ETH_LTCFG n < s.time ∧ f.flight = none) :=
  ⟨⟨(set up [(F.ETH_PSTAT_STATE, 8, 0, stReady)]), 8, by decide +kernel⟩,
   ⟨(set up [(F.ETH_PSTAT_STATE, 8, 0, stReady)]), 9, by decide +kernel⟩,
   ⟨port7, 7, by decide +kernel⟩,
   ⟨port7, { port := 7, data := List.replicate 59 0 }, by decide +kernel⟩,
   (fun h => ⟨port7, { port := 7, data := List.replicate 60 0 }, by decide +kernel, by decide +kernel, rfl, by decide +kernel, by decide +kernel, by rw [State.streamFiltered, streamOf_all _ _ _ h (by decide) (by decide)]; rfl⟩),
   ⟨(set up [(F.ETH_PSTAT_STATE, 8, 0, stReady), (F.CHR_DOMCFG_EN, 1, 0, 1), (F.CHR_DOMCFG_PORT, 1, 0, 8)]), { port := 8, data := List.replicate 12 0 ++ [0x88, 0xF7] ++ List.replicate 46 0 }, _, _, rfl, rfl, by decide +kernel⟩,
   ⟨((set up [(F.ETH_PSTAT_STATE, 8, 0, stReady), (F.ETH_RCFG_EN, 8, 8, 1), (F.ETH_RCFG_SIZE_LOG2, 8, 8, 6)]).setReg .ETH_RDB 1 8 8), { port := 8, data := List.replicate 60 0 }, _, _, rfl, rfl, by decide +kernel⟩,
   ⟨(set up [(F.ETH_PSTAT_STATE, 8, 0, stReady), (F.ETH_RCFG_EN, 8, 15, 1), (F.ETH_RCFG_SIZE_LOG2, 8, 15, 6)]), { port := 8, data := List.replicate 12 0 ++ [0x81, 0, 0xE0, 0] ++ List.replicate 46 0 }, _, _, rfl, rfl, by decide +kernel⟩,
   ⟨port7, { port := 8, data := [] }, by decide +kernel⟩,
   (fun h => ⟨port7, { port := 7, data := List.replicate 60 0 }, 0, { used := true, maxSdu := 45 }, streamOf_all _ _ _ h (by decide) (by decide), .inr (by decide)⟩),
   (fun h => ⟨port7, { port := 7, data := List.replicate 60 0 }, 0, { used := true, maxSdu := 46 }, streamOf_all _ _ _ h (by decide) (by decide), nofun, .inr (by decide), rfl⟩),
   (fun h => ⟨port7, { port := 7, data := List.replicate 60 0 }, 0, { used := true, meter := some 63 }, 63, streamOf_all _ _ _ h (by decide) (by decide), nofun, .inl rfl, rfl⟩),
   ⟨port7.putFld F.ETH_RCFG_EN 1 7 0, sealPacket ⟨9, 0x10⟩ { queue := 0, target := 7, plen := 3, payload := padTo 96 (toLe 8 0 ++ toLe 2 0 ++ toLe 2 60) }, by decide +kernel⟩,
   ⟨port7, 7, 15, wr 64, _, rfl, by decide +kernel⟩,
   ⟨port7, 7, 7, wr 64, _, rfl, by decide +kernel⟩,
   ⟨port7x { adminAt := some 0 }, 7, 0, by decide +kernel⟩,
   ⟨port7x { gates := [(255, 100)] }, 7, by decide +kernel, by decide +kernel, (fun a h => nomatch (show (none : Option Nat) = some a from h)), by decide +kernel, by decide +kernel⟩,
   ⟨port7x { gates := [(255, 100)], entryEnd := 1 }, 7, by decide +kernel, by decide +kernel, (fun a h => nomatch (show (none : Option Nat) = some a from h)), .inr (by decide +kernel)⟩,
   ⟨port7, 7, wr 1, by decide +kernel⟩,
   ⟨port7x { frames := [waiting (some 3)] }, 7, waiting (some 3), by decide +kernel⟩,
   ⟨port7x { frames := [waiting none] }, 7, waiting none, by decide +kernel⟩,
   ⟨port7x { sending := [(waiting (some 3), [], 0)] }, 7, waiting (some 3), [], 0, [], _, 3, by decide +kernel, rfl, by decide +kernel⟩,
   ⟨port7x { sending := [(waiting none, [], 0)] }, 7, waiting none, [], 0, [], _, by decide +kernel, rfl, by decide +kernel⟩,
   ⟨port7x { frames := [{ waiting (some 3) with flags := 1 }] }, 7, 7, { waiting (some 3) with flags := 1 }, _, rfl, by decide +kernel⟩,
   ⟨(port7x { frames := [{ waiting (some 3) with flags := 1 }] }).setReg .CHR_TIME 1, 7, 7, { waiting (some 3) with flags := 1 }, _, 3, rfl, by decide +kernel⟩,
   ⟨(port7x { frames := [{ waiting none with flags := 1 }] }).setReg .CHR_TIME 1, 7, 7, { waiting none with flags := 1 }, _, rfl, by decide +kernel⟩⟩

/-- CanFrames. -/
theorem wit_CanFrames :
    (∃ (s : State) (c : Nat) (x : CanRx) (t : State) (n : _) (a : _), t = (if s.flag F.CAN_CTL_ROP c then s.acceptUnit fnCan c else (s.acceptUnit fnCan c).canGot c).canFrameEnd c ∧ s.canBus c = true ∧ s.canFormat c x.flags = true ∧ s.canFilter c x = some (n, a)) ∧
    (∃ (s : State) (c : Nat) (x : CanRx) (t : State), t = (if s.flag F.CAN_CTL_ROP c then s.acceptUnit fnCan c else (s.acceptUnit fnCan c).canGot c).canFrameEnd c ∧ s.canBus c = true ∧ s.canFormat c x.flags = true ∧ s.canFilter c x = none) ∧
    (∃ (s : State) (c : Nat) (x : CanRx), (s.canBus c = false ∨ s.canFormat c x.flags = false)) ∧
    (∃ (s : State) (c : Nat), s.canBus c = false) ∧
    (∃ (s : State) (t : State) (p : Packet) (n : Nat) (k : Nat), t = s.entered (canTxRule p s) p ∧ n = (t.canTxElems p).length ∧ k = (placeElems p.target (t.canTxElems p) t).2 ∧ s.starts (canTxRule p s) p = true ∧ k < n) ∧
    (∃ (s : State) (t : State) (p : Packet) (n : Nat) (k : Nat), t = s.entered (canTxRule p s) p ∧ n = (t.canTxElems p).length ∧ k = (placeElems p.target (t.canTxElems p) t).2 ∧ s.starts (canTxRule p s) p = true ∧ n ≤ k) ∧
    (∃ (s : State) (c : Nat) (w : RegWrite), c < 8 ∧ s.ofPart w.initiator (s.canPart c) = true ∧ s.gated .CAN = false) ∧
    (∃ (s : State) (c : Nat) (e : Nat) (t : State), t = s.setCan c { s.canCtl c with waiting := (s.canCtl c).waiting.filter (· != e) } ∧ ((s.canCtl c).waiting.contains e = false ∨ s.time < s.canLaunchTime c e)) ∧
    (∃ (s : State) (c : Nat) (e : Nat) (t : State), t = s.setCan c { s.canCtl c with waiting := (s.canCtl c).waiting.filter (· != e) } ∧ (s.canCtl c).waiting.contains e = true ∧ s.canLaunchTime c e ≤ s.time ∧ t.canLate c e = true) ∧
    (∃ (s : State) (c : Nat) (e : Nat) (t : State), t = s.setCan c { s.canCtl c with waiting := (s.canCtl c).waiting.filter (· != e) } ∧ (s.canCtl c).waiting.contains e = true ∧ s.canLaunchTime c e ≤ s.time ∧ t.canLate c e = false) ∧
    (∃ (s : State) (c : Nat) (e : Nat), s.canFirst c = some e ∧ s.canPending c e = true ∧ s.inWindow c e = true) ∧
    (∃ (s : State) (c : Nat) (e : Nat), (s.canOwn c = false ∨ s.canWire c ≠ some e)) ∧
    (∃ (s : State) (c : Nat) (code : Nat), s.canBus c = true ∧ s.flag F.CAN_CTL_ROP c = true ∧ code ≠ 0) ∧
    (∃ (s : State) (c : Nat) (code : Nat), s.canBus c = true ∧ s.flag F.CAN_CTL_ROP c = true ∧ code = 0) ∧
    (∃ (s : State) (c : Nat) (code : Nat) (e : _), s.canBus c = true ∧ s.flag F.CAN_CTL_ROP c = false ∧ code ≠ 0 ∧ s.canOwn c = true ∧ s.canWire c = some e) ∧
    (∃ (s : State) (c : Nat) (e : _) (u : _), u = s.canRetry c e ∧ s.canBus c = true ∧ s.flag F.CAN_CTL_ROP c = false ∧ s.canOwn c = true ∧ s.canWire c = some e) ∧
    (∃ (s : State) (c : Nat) (code : Nat) (kind : CanErrKind), s.regsWf ∧ c < 8 ∧ s.fld F.CAN_ERR_TEC c + s.txErrors c code kind ≤ 255) ∧
    (∃ (s : State) (c : Nat), s.regsWf ∧ s.fld F.CAN_ERR_ESTATE c = 2 ∧ (s.canCtl c).recovering = true) ∧
    (∃ (s : State) (c : Nat), (s.fld F.CAN_ERR_ESTATE c ≠ 2 ∨ (s.canCtl c).recovering = false)) ∧
    (∃ (s : State) (c : Nat) (w : RegWrite), c < 8 ∧ s.p0 w.initiator = true ∧ s.gated .CAN = false ∧ s.regStopped .CAN_CTL c = false) ∧
    (∃ (s : State) (p : Packet), s.starts (canRxRule p s) p = true) :=
  ⟨⟨(can7 []).setReg .CAN_STDFILT (2 ^ 61) 7 127, 7, { id := 0 }, _, 127, 1, rfl, by decide +kernel⟩,
   ⟨can7 [], 7, { id := 0 }, _, rfl, by decide +kernel⟩,
   ⟨can7 [], 7, { id := 0, flags := 2 }, by decide +kernel⟩,
   ⟨up, 7, by decide +kernel⟩,
   ⟨can7 [(F.CAN_RAMCFG_NTX, 0)], _, sealPacket ⟨9, 1⟩ { queue := 0, target := 7, plen := 2, payload := padTo 64 [] }, _, _, rfl, rfl, rfl, by decide +kernel⟩,
   ⟨can7 [(F.CAN_RAMCFG_NTX, 32)], _, sealPacket ⟨9, 1⟩ { queue := 0, target := 7, plen := 2, payload := padTo 64 [] }, _, _, rfl, rfl, rfl, by decide +kernel⟩,
   ⟨(can7 [(F.CAN_CTL_PARTITION, 5)]), 7, wr5 1, by decide +kernel⟩,
   ⟨(can7tx []).setCan 7 { waiting := [31], ram := [(40 * 31 + 0x18, 1)] }, 7, 31, _, rfl, by decide +kernel⟩,
   ⟨((can7tx []).setCan 7 { waiting := [31], ram := [(40 * 31 + 4, 128)] }).setReg .CHR_TIME 1, 7, 31, _, rfl, by decide +kernel, by decide +kernel, by decide +kernel⟩,
   ⟨((can7tx []).setCan 7 { waiting := [31] }), 7, 31, _, rfl, by decide +kernel, by decide +kernel, by decide +kernel⟩,
   ⟨can7tx [], 7, 31, by decide +kernel⟩,
   ⟨can7 [], 7, 31, by decide +kernel⟩,
   ⟨can7 [(F.CAN_CTL_ROP, 1)], 7, 7, by decide +kernel⟩,
   ⟨can7 [(F.CAN_CTL_ROP, 1)], 7, 0, by decide +kernel⟩,
   ⟨can7tx [], 7, 1, 31, by decide +kernel⟩,
   ⟨can7tx [], 7, 31, _, rfl, by decide +kernel⟩,
   ⟨can7 [(F.CAN_ERR_TEC, 247)], 7, 3, .plain, by decide +kernel⟩,
   ⟨(can7 [(F.CAN_ERR_ESTATE, 2)]).setCan 7 { recovering := true }, 7, by decide +kernel⟩,
   ⟨up, 7, by decide +kernel⟩,
   ⟨up, 7, wr 0, by decide +kernel⟩,
   ⟨can7 [], sealPacket ⟨9, 2⟩ { queue := 0, target := 263, plen := 1, payload := padTo 32 [1] }, by decide +kernel⟩⟩

/-- CanTimeTriggered. -/
theorem wit_CanTimeTriggered :
    (∃ (s : State) (c : Nat) (j : Nat) (w : Nat), s.canLive c = true ∧ s.flag F.CAN_CTL_TT c = true ∧ j < 32 ∧ w = s.reg .CAN_TTCELL c (32 * s.fld F.CAN_TTSTAT_CYCLE c + j) ∧ cellType w = cellMerged) ∧
    (∃ (s : State) (c : Nat) (j : Nat) (w : Nat), s.canLive c = true ∧ s.flag F.CAN_CTL_TT c = true ∧ j < 32 ∧ w = s.reg .CAN_TTCELL c (32 * s.fld F.CAN_TTSTAT_CYCLE c + j) ∧ cellType w = cellMerged) ∧
    (∃ (s : State) (c : Nat) (j : Nat) (w : Nat), s.canLive c = true ∧ s.flag F.CAN_CTL_TT c = true ∧ j < 32 ∧ w = s.reg .CAN_TTCELL c (32 * s.fld F.CAN_TTSTAT_CYCLE c + j) ∧ cellType w ≠ cellMerged) ∧
    (∃ (s : State) (t : State) (c : Nat), s.canLive c = true ∧ s.flag F.CAN_CTL_TT c = true ∧ t = s.ttError c 2 ∧ s.flag F.CAN_TTCFG_TTROLE c = true ∧ s.canSends c = true) ∧
    (∃ (s : State) (t : State) (c : Nat), t = s.ttError c 2 ∧ s.canLive c = true ∧ s.flag F.CAN_CTL_TT c = true ∧ (s.flag F.CAN_TTCFG_TTROLE c = false ∨ s.canSends c = false)) ∧
    (∃ (s : State) (c : Nat), (s.canLive c = false ∨ s.flag F.CAN_CTL_TT c = false)) :=
  ⟨⟨(can7 [(F.CAN_CTL_TT, 1)]).setReg .CAN_TTCELL (3 * 2 ^ 29) 7 31, 7, 31, _, by decide +kernel, by decide +kernel, by decide +kernel, rfl, by decide +kernel⟩,
   ⟨(can7 [(F.CAN_CTL_TT, 1)]).setReg .CAN_TTCELL (3 * 2 ^ 29) 7 31, 7, 31, _, by decide +kernel, by decide +kernel, by decide +kernel, rfl, by decide +kernel⟩,
   ⟨can7 [(F.CAN_CTL_TT, 1)], 7, 31, _, by decide +kernel, by decide +kernel, by decide +kernel, rfl, by decide +kernel⟩,
   ⟨can7 [(F.CAN_CTL_TT, 1), (F.CAN_TTCFG_TTROLE, 1)], _, 7, by decide +kernel, by decide +kernel, rfl, by decide +kernel⟩,
   ⟨can7 [(F.CAN_CTL_TT, 1)], _, 7, rfl, by decide +kernel⟩,
   ⟨up, 7, by decide +kernel⟩⟩

/-- FrontCommandRuns. -/
theorem wit_FrontCommandRuns :
    (∃ (s : State) (c : Instr) (l : List Instr), s.pending = c :: l) :=
  ⟨{ blank with pending := [.netrefReady] }, .netrefReady, [], by decide +kernel⟩

/-- EmptyQueueOrder. -/
theorem wit_EmptyQueueOrder :
    (∃ (s : State) (c : _) (l : _), s.pending = [] ∧ s.due = c :: l) ∧
    (∃ (s : State) (q : _) (l : _), s.pending = [] ∧ s.due = [] ∧ s.cq.fresh = q :: l) ∧
    (∃ (s : State) (c : _) (t : _), s.pending = [] ∧ s.due = [] ∧ s.cq.fresh = [] ∧ s.takeHeld = some (c, t)) ∧
    (∃ (s : State), s.pending = [] ∧ s.due = [] ∧ s.cq.fresh = [] ∧ s.takeHeld = none ∧ s.canLaunch = true) ∧
    (∃ (s : State), s.pending = [] ∧ s.due = [] ∧ s.cq.fresh = [] ∧ s.takeHeld = none ∧ s.canLaunch = false) :=
  ⟨⟨{ blank with due := [.netrefReady] }, .netrefReady, [], by decide +kernel⟩,
   ⟨{ blank with cq := { blank.cq with fresh := [5] } }, 5, [], by decide +kernel⟩,
   ⟨{ up with cq := { up.cq with held := [.nop { queue := 0 }] } }, .nop { queue := 0 }, { up with cq := { up.cq with taking := true } }, by decide +kernel⟩,
   ⟨{ up with esc := { up.esc with launches := [{ flight := 0, queue := 0, seq := 0, partition := 0, context := 0, total := 1, waiting := [] }] } }, by decide +kernel⟩,
   ⟨up, by decide +kernel⟩⟩

/-- StepsKeepCanonicalForm. -/
theorem wit_StepsKeepCanonicalForm :
    (∃ (s : State) (t : State), s.canonicalForm ∧ stepsTo s t) :=
  ⟨{ blank with pending := [.netrefReady] }, after { blank with pending := [.netrefReady] }, by decide +kernel, rfl⟩

/-- OneTimeMemoryOnlyGrows. -/
theorem wit_OneTimeMemoryOnlyGrows :
    (∃ (s : State) (t : State), stepsTo s t) :=
  ⟨{ blank with pending := [.secOtpprog (wr 0)] }, after { blank with pending := [.secOtpprog (wr 0)] }, rfl⟩

/-- CommandsLeaveTheQueue. -/
theorem wit_CommandsLeaveTheQueue :
    (∃ (c : Instr) (s : State) (t : State), exec c s = .next t) ∧
    (∃ (c : Instr) (l : List Instr) (s : State) (t : State), s.pending = c :: l ∧ stepsTo s t) ∧
    (∃ (s : State) (t : State), s.pending = [] ∧ stepsTo s t) :=
  ⟨⟨.netrefReady, blank, _, rfl⟩,
   ⟨.netrefReady, [], { blank with pending := [.netrefReady] }, after { blank with pending := [.netrefReady] }, by decide +kernel, rfl⟩,
   ⟨blank, after blank, by decide +kernel, rfl⟩⟩

/-- PacketBytesRoundTrip. -/
theorem wit_PacketBytesRoundTrip :
    (∃ (o : Opcode) (p : Packet), p.wf = true ∧ o.cls < 2 ^ 8 ∧ o.code < 2 ^ 16) :=
  ⟨⟨255, 65535⟩, { queue := 8191, seq := 2 ^ 32 - 1 }, by decide +kernel⟩

/-- SyncSetPackets. -/
theorem wit_SyncSetPackets :
    (∃ (s : State) (t : State) (p : Packet) (w : Prop), s.starts (syncRule ⟨3, 2⟩ p s true) p = true ∧ t = s.entered (syncRule ⟨3, 2⟩ p s true) p ∧ (w = ((∃ k ∈ t.esc.kernels, k.ready = none ∧ k.waitEn = true ∧ k.waitCtr = p.target) ∨ (∃ h ∈ heldHeads t.cq.held [], pWaitEn h = true ∧ h.waitCtr = p.target ∧ h.queue ∉ t.cq.waitMet) ∨ (∃ f ∈ t.cq.flight, f.cls = 3 ∧ f.code = 4 ∧ f.status = none ∧ f.waitCtr = p.target ∧ f.waitMet = false) ∨ (∃ k < 256, t.flag F.SYNC_WATCHCFG_ARMED k = true ∧ t.fld F.SYNC_WATCHCFG_COUNTER k = p.target))) ∧ w) ∧
    (∃ (s : State) (t : State) (p : Packet) (w : Prop), s.starts (syncRule ⟨3, 2⟩ p s true) p = true ∧ t = s.entered (syncRule ⟨3, 2⟩ p s true) p ∧ (w = ((∃ k ∈ t.esc.kernels, k.ready = none ∧ k.waitEn = true ∧ k.waitCtr = p.target) ∨ (∃ h ∈ heldHeads t.cq.held [], pWaitEn h = true ∧ h.waitCtr = p.target ∧ h.queue ∉ t.cq.waitMet) ∨ (∃ f ∈ t.cq.flight, f.cls = 3 ∧ f.code = 4 ∧ f.status = none ∧ f.waitCtr = p.target ∧ f.waitMet = false) ∨ (∃ k < 256, t.flag F.SYNC_WATCHCFG_ARMED k = true ∧ t.fld F.SYNC_WATCHCFG_COUNTER k = p.target))) ∧ ¬w) :=
  ⟨⟨(set up [(F.SYNC_WATCHCFG_ARMED, 255, 0, 1), (F.SYNC_WATCHCFG_COUNTER, 255, 0, 65535)]), _, sealPacket ⟨3, 2⟩ { queue := 0, target := 65535, plen := 1, payload := padTo 32 [1] }, _, by decide +kernel, rfl, rfl, .inr (.inr (.inr ⟨255, by decide +kernel, by decide +kernel, by decide +kernel⟩))⟩,
   ⟨up, _, sealPacket ⟨3, 2⟩ { queue := 0, target := 65535, plen := 1, payload := padTo 32 [1] }, _, by decide +kernel, rfl, rfl, by decide +kernel⟩⟩

/-- NetworkReferenceWrites. -/
theorem wit_NetworkReferenceWrites :
    (∃ (s : State) (w : RegWrite), s.regsWf ∧ s.p0 w.initiator = true ∧ s.gated .CLK = false ∧ s.active = 1) ∧
    (∃ (s : State) (w : RegWrite), s.regsWf ∧ s.p0 w.initiator = true ∧ s.gated .CLK = false ∧ s.active ≠ 1 ∧ (w.value % 4 ≠ s.fld F.CLK_NETREF_SEL ∨ bitsOf w.value 9 8 ≠ s.fld F.CLK_NETREF_FREQ)) :=
  ⟨⟨(set up [(F.CLK_STATUS_ACTIVE, 0, 0, 1)]), wr 0xFFFFFF, by decide +kernel⟩,
   ⟨up, wr 1, by decide +kernel⟩⟩

/-- WatchdogEscalation. -/
theorem wit_WatchdogEscalation :
    (∃ (s : State) (u : State) (k : Nat) (n : Nat) (run : Nat) (w : RegWrite), n = s.fld F.SAFE_WDCFG_ESC_N k ∧ run = s.fld F.SAFE_WDSTAT_RUN k ∧ u = (s.wdClose k).wdRecord k 2 (s.wdTime k) ∧ s.regsWf ∧ k < 64 ∧ s.wdLive k = true ∧ (s.wdOpened k).isSome = true ∧ s.ofPart w.initiator (s.fld F.SAFE_WDCFG_PARTITION k) = true ∧ s.gated .SAFE = false ∧ w.value.testBit 0 = true ∧ w.value.testBit 1 = false ∧ s.fld F.SAFE_WDWIN_CLOSE_US k < s.wdTime k ∧ 1 ≤ n ∧ n = run + 1) ∧
    (∃ (s : State) (u : State) (k : Nat) (n : Nat) (run : Nat) (w : RegWrite), n = s.fld F.SAFE_WDCFG_ESC_N k ∧ run = s.fld F.SAFE_WDSTAT_RUN k ∧ u = (s.wdClose k).wdRecord k 2 (s.wdTime k) ∧ s.regsWf ∧ k < 64 ∧ s.wdLive k = true ∧ (s.wdOpened k).isSome = true ∧ s.ofPart w.initiator (s.fld F.SAFE_WDCFG_PARTITION k) = true ∧ s.gated .SAFE = false ∧ w.value.testBit 0 = true ∧ w.value.testBit 1 = false ∧ s.fld F.SAFE_WDWIN_CLOSE_US k < s.wdTime k ∧ run + 1 < n) ∧
    (∃ (s : State) (u : State) (k : Nat) (n : Nat) (run : Nat) (w : RegWrite), n = s.fld F.SAFE_WDCFG_ESC_N k ∧ run = s.fld F.SAFE_WDSTAT_RUN k ∧ u = (s.wdClose k).wdRecord k 2 (s.wdTime k) ∧ s.regsWf ∧ k < 64 ∧ s.wdLive k = true ∧ (s.wdOpened k).isSome = true ∧ s.ofPart w.initiator (s.fld F.SAFE_WDCFG_PARTITION k) = true ∧ s.gated .SAFE = false ∧ w.value.testBit 0 = true ∧ w.value.testBit 1 = false ∧ s.fld F.SAFE_WDWIN_CLOSE_US k < s.wdTime k ∧ n = 0) ∧
    (∃ (s : State) (u : State) (k : Nat) (n : Nat) (run : Nat) (w : RegWrite), n = s.fld F.SAFE_WDCFG_ESC_N k ∧ run = s.fld F.SAFE_WDSTAT_RUN k ∧ u = (s.wdClose k).wdRecord k 1 (s.wdTime k) ∧ s.regsWf ∧ k < 64 ∧ s.wdLive k = true ∧ (s.wdOpened k).isSome = true ∧ s.ofPart w.initiator (s.fld F.SAFE_WDCFG_PARTITION k) = true ∧ s.gated .SAFE = false ∧ w.value.testBit 0 = true ∧ w.value.testBit 1 = false ∧ s.wdTime k < s.fld F.SAFE_WDWIN_OPEN_US k ∧ 1 ≤ n ∧ n = run + 1) ∧
    (∃ (s : State) (u : State) (k : Nat) (n : Nat) (run : Nat) (w : RegWrite), n = s.fld F.SAFE_WDCFG_ESC_N k ∧ run = s.fld F.SAFE_WDSTAT_RUN k ∧ u = (s.wdClose k).wdRecord k 1 (s.wdTime k) ∧ s.regsWf ∧ k < 64 ∧ s.wdLive k = true ∧ (s.wdOpened k).isSome = true ∧ s.ofPart w.initiator (s.fld F.SAFE_WDCFG_PARTITION k) = true ∧ s.gated .SAFE = false ∧ w.value.testBit 0 = true ∧ w.value.testBit 1 = false ∧ s.wdTime k < s.fld F.SAFE_WDWIN_OPEN_US k ∧ run + 1 < n) ∧
    (∃ (s : State) (u : State) (k : Nat) (n : Nat) (run : Nat) (w : RegWrite), n = s.fld F.SAFE_WDCFG_ESC_N k ∧ run = s.fld F.SAFE_WDSTAT_RUN k ∧ u = (s.wdClose k).wdRecord k 1 (s.wdTime k) ∧ s.regsWf ∧ k < 64 ∧ s.wdLive k = true ∧ (s.wdOpened k).isSome = true ∧ s.ofPart w.initiator (s.fld F.SAFE_WDCFG_PARTITION k) = true ∧ s.gated .SAFE = false ∧ w.value.testBit 0 = true ∧ w.value.testBit 1 = false ∧ s.wdTime k < s.fld F.SAFE_WDWIN_OPEN_US k ∧ n = 0) ∧
    (∃ (s : State) (k : Nat) (n : Nat) (run : Nat) (w : RegWrite), s.regsWf ∧ k < 64 ∧ s.wdLive k = true ∧ (s.wdOpened k).isSome = true ∧ n = s.fld F.SAFE_WDCFG_ESC_N k ∧ run = s.fld F.SAFE_WDSTAT_RUN k ∧ s.ofPart w.initiator (s.fld F.SAFE_WDCFG_PARTITION k) = true ∧ s.gated .SAFE = false ∧ w.value.testBit 0 = true ∧ w.value.testBit 1 = false ∧ s.fld F.SAFE_WDWIN_OPEN_US k ≤ s.wdTime k ∧ s.wdTime k ≤ s.fld F.SAFE_WDWIN_CLOSE_US k) :=
  ⟨⟨(dog 20001000).putFld F.SAFE_WDCFG_ESC_N 1 63, _, 63, _, _, wr 1, rfl, rfl, rfl, by decide +kernel⟩,
   ⟨(dog 20001000).putFld F.SAFE_WDCFG_ESC_N 2 63, _, 63, _, _, wr 1, rfl, rfl, rfl, by decide +kernel⟩,
   ⟨(dog 20001000).putFld F.SAFE_WDCFG_ESC_N 0 63, _, 63, _, _, wr 1, rfl, rfl, rfl, by decide +kernel⟩,
   ⟨(dog 9999).putFld F.SAFE_WDCFG_ESC_N 1 63, _, 63, _, _, wr 1, rfl, rfl, rfl, by decide +kernel⟩,
   ⟨(dog 9999).putFld F.SAFE_WDCFG_ESC_N 2 63, _, 63, _, _, wr 1, rfl, rfl, rfl, by decide +kernel⟩,
   ⟨(dog 9999).putFld F.SAFE_WDCFG_ESC_N 0 63, _, 63, _, _, wr 1, rfl, rfl, rfl, by decide +kernel⟩,
   ⟨dog 20000, 63, _, _, wr 1, by decide +kernel, by decide +kernel, by decide +kernel, by decide +kernel, rfl, rfl, by decide +kernel⟩⟩

/-- WatchdogWriteOrder. -/
theorem wit_WatchdogWriteOrder :
    (∃ (s : State) (k : Nat) (w : RegWrite), k < 64 ∧ s.ofPart w.initiator (s.fld F.SAFE_WDCFG_PARTITION k) = true ∧ s.gated .SAFE = false ∧ w.value.testBit 0 = true ∧ w.value.testBit 1 = true) ∧
    (∃ (s : State) (k : Nat), s.due.contains (.wdStart k .counter) = true ∧ (s.undue (.wdStart k .counter)).due.contains (.wdKick k .counter) = true) ∧
    (∃ (s : State) (k : Nat), s.due.contains (.wdKick k .counter) = true ∧ s.wdLive k = true ∧ (s.wdOpened k).isSome = true ∧ s.fld F.SAFE_WDWIN_OPEN_US k ≤ s.fld F.SAFE_WDWIN_CLOSE_US k ∧ s.wdTime k = s.fld F.SAFE_WDWIN_CLOSE_US k) :=
  ⟨⟨dog 0, 63, wr 3, by decide +kernel⟩,
   ⟨{ dog 0 with due := [.wdStart 63 .counter, .wdKick 63 .counter] }, 63, by decide +kernel⟩,
   ⟨{ dog 20000 with due := [.wdKick 63 .counter] }, 63, by decide +kernel⟩⟩

/-- PacketsAreJudged. -/
theorem wit_PacketsAreJudged :
    (∃ (c : Instr) (s : State) (p : Packet), packetOf c = some p ∧ s.cq.taking = false ∧ (8192 ≤ p.queue ∨ s.qAvail p.queue = 0)) ∧
    (∃ (c : Instr) (s : State) (p : Packet), packetOf c = some p ∧ s.cq.taking = false ∧ p.queue < 8192 ∧ s.qAvail p.queue ≠ 0 ∧ s.qState p.queue = stDraining) ∧
    (∃ (c : Instr) (s : State) (p : Packet) (e : _), packetOf c = some p ∧ s.cq.taking = false ∧ p.queue < 8192 ∧ s.qAvail p.queue ≠ 0 ∧ s.qState p.queue = stFault ∧ s.cq.ended.find? (fun e => e.1 == p.queue) = some e) ∧
    (∃ (c : Instr) (s : State) (p : Packet), packetOf c = some p ∧ s.cq.taking = false ∧ p.queue < 8192 ∧ s.qAvail p.queue ≠ 0 ∧ s.qState p.queue = stFault ∧ s.cq.ended.find? (fun e => e.1 == p.queue) = none) ∧
    (∃ (c : Instr) (s : State) (p : Packet), packetOf c = some p ∧ s.cq.taking = false ∧ p.queue < 8192 ∧ s.qAvail p.queue ≠ 0 ∧ s.qState p.queue ≠ stDraining ∧ s.qState p.queue ≠ stFault ∧ s.qState p.queue ≠ stRunning) ∧
    (∃ (c : Instr) (s : State) (p : Packet), packetOf c = some p ∧ s.cq.taking = false ∧ p.queue < 8192 ∧ s.qAvail p.queue ≠ 0 ∧ s.qState p.queue = stRunning ∧ s.qHeld p.queue = true) ∧
    (∃ (c : Instr) (s : State) (p : Packet), packetOf c = some p ∧ s.cq.taking = false ∧ p.queue < 8192 ∧ s.qAvail p.queue ≠ 0 ∧ s.qState p.queue = stRunning ∧ s.qHeld p.queue = false ∧ s.fetches p = false) ∧
    (∃ (c : Instr) (s : State) (p : Packet) (a : _), packetOf c = some p ∧ s.cq.taking = false ∧ p.queue < 8192 ∧ s.qAvail p.queue ≠ 0 ∧ s.qState p.queue = stRunning ∧ s.qHeld p.queue = false ∧ s.fetches p = true ∧ s.headChecked p.queue = false ∧ s.badSlot p.queue (pSlots p) = some a) ∧
    (∃ (c : Instr) (s : State) (p : Packet) (r : Rule), packetOf c = some p ∧ s.cq.taking = false ∧ p.queue < 8192 ∧ s.qAvail p.queue ≠ 0 ∧ s.qState p.queue = stRunning ∧ s.qHeld p.queue = false ∧ s.fetches p = true ∧ s.headChecked p.queue = false ∧ s.badSlot p.queue (pSlots p) = none ∧ p.hcrc = hcrcOf r.op p ∧ p.version = 1 ∧ p.trailer = trailerOf r.op p ∧ s.forMe p = false ∧ s.glkRoute p.destDev = true) ∧
    (∃ (c : Instr) (s : State) (p : Packet) (r : Rule) (st : _) (n : _) (d : _), packetOf c = some p ∧ s.cq.taking = false ∧ p.queue < 8192 ∧ s.qAvail p.queue ≠ 0 ∧ s.qState p.queue = stRunning ∧ s.qHeld p.queue = false ∧ s.fetches p = true ∧ s.headChecked p.queue = false ∧ s.badSlot p.queue (pSlots p) = none ∧ s.headCheck r p = some (st, n, d) ∧ s.forwards r.op p = false) ∧
    (∃ (c : Instr) (s : State) (p : Packet) (r : Rule), packetOf c = some p ∧ s.cq.taking = false ∧ p.queue < 8192 ∧ s.qAvail p.queue ≠ 0 ∧ s.qState p.queue = stRunning ∧ s.qHeld p.queue = false ∧ s.fetches p = true ∧ s.headChecked p.queue = false ∧ s.badSlot p.queue (pSlots p) = none ∧ s.headCheck r p = none ∧ s.mustHold r.writes p = true) ∧
    (∃ (c : Instr) (s : State) (p : Packet) (r : Rule), packetOf c = some p ∧ s.cq.taking = false ∧ p.queue < 8192 ∧ s.qAvail p.queue ≠ 0 ∧ s.qState p.queue = stRunning ∧ s.qHeld p.queue = false ∧ s.fetches p = true ∧ s.headChecked p.queue = false ∧ s.badSlot p.queue (pSlots p) = none ∧ s.headCheck r p = none ∧ s.mustHold r.writes p = false ∧ s.fencedOut r p = false ∧ s.check9 r = false) :=
  ⟨⟨.nop { queue := 8192 }, up, { queue := 8192 }, by decide +kernel⟩,
   ⟨.nop { queue := 0 }, set up [(F.CMDQ_QSTAT_STATE, 0, 0, stDraining)], { queue := 0 }, by decide +kernel⟩,
   ⟨.nop { queue := 0 }, { (set up [(F.CMDQ_QSTAT_STATE, 0, 0, stFault)]) with cq := { up.cq with ended := [(0, csStarved)] } }, { queue := 0 }, (0, csStarved), by decide +kernel⟩,
   ⟨.nop { queue := 0 }, (set up [(F.CMDQ_QSTAT_STATE, 0, 0, stFault)]), { queue := 0 }, by decide +kernel⟩,
   ⟨.nop { queue := 0 }, set up [(F.CMDQ_QSTAT_STATE, 0, 0, stOff)], { queue := 0 }, by decide +kernel⟩,
   ⟨.nop { queue := 0 }, { up with cq := { up.cq with held := [.nop { queue := 0 }] } }, { queue := 0 }, by decide +kernel⟩,
   ⟨.nop { queue := 0 }, State.loadRegs up [(.CMDQ_QTAIL, 0, 0, 1)], { queue := 0 }, by decide +kernel⟩,
   ⟨.nop { queue := 0 }, set up [(F.CMDQ_QBASE_BASE, 0, 0, 0x10000)], { queue := 0 }, 0x10000000, by decide +kernel⟩,
   ⟨.nop (sealPacket ⟨0, 0⟩ { queue := 0, destDev := 0 }), set (State.loadRegs up [(.GLK_PEERS, 0, 0, 1)]) [(F.GLK_ID_MEMBER, 0, 0, 1), (F.GLK_PSTAT_STATE, 0, 0, stReady)], sealPacket ⟨0, 0⟩ { queue := 0, destDev := 0 }, { op := ⟨0, 0⟩ }, by decide +kernel⟩,
   ⟨.nop { queue := 0 }, up, { queue := 0 }, { op := ⟨0, 0⟩ }, csFormat, 1, 0, by decide +kernel⟩,
   ⟨.nop (sealPacket ⟨0, 0⟩ { queue := 0 }), set up [(F.ESC_PCFG_STATE, 0, 0, stStopped)], sealPacket ⟨0, 0⟩ { queue := 0 }, { op := ⟨0, 0⟩ }, by decide +kernel⟩,
   ⟨.nop (sealPacket ⟨0, 0⟩ { queue := 0 }), set up [(F.SYS_DEVSTATE_DEVSTATE, 0, 0, devHeld)], sealPacket ⟨0, 0⟩ { queue := 0 }, { op := ⟨0, 0⟩ }, by decide +kernel⟩⟩

/-- SmemStoresReadBack. -/
theorem wit_SmemStoresReadBack :
    (∃ (s : State) (a : Nat) (l : List Byte), Memory.wf s = true ∧ a + l.length ≤ 0x10000000 ∧ s.scrubbing a l.length = false) ∧
    (∃ (s : State) (a : Nat) (l : List Byte) (b : _), Memory.wf s = true ∧ a + l.length ≤ 0x10000000 ∧ b < 0x10000000 ∧ (b < a ∨ a + l.length ≤ b)) ∧
    (∃ (s : State) (a : Nat) (l : List Byte) (b : _), Memory.wf s = true ∧ a + l.length ≤ 0x10000000 ∧ b < 0x10000000 ∧ s.scrubbing b 1 = true) :=
  ⟨⟨up, 0xFFFFFFE, [1, 2], by decide +kernel⟩,
   ⟨up, 0xFFFFFFE, [1, 2], 0xFFFFFFD, by decide +kernel⟩,
   ⟨{ up with scrub := [255] }, 0xFFFFFFE, [1, 2], 0xFFFFFFF, by decide +kernel⟩⟩

/-- RandingIsOneToOne. -/
theorem wit_RandingIsOneToOne :
    (∃ (key : Nat) (o : Nat) (o' : Nat), o < 2 ^ 30 ∧ o' < 2 ^ 30 ∧ randing key 64 o = randing key 64 o') ∧
    (∃ (key : Nat) (o : Nat) (o' : Nat), o < 2 ^ 30 ∧ o' < 2 ^ 30 ∧ randing key 32 o = randing key 32 o') ∧
    (∃ (c : Nat) (off : Nat), c < 64 ∧ off < 2 ^ 24) ∧
    (∃ (c : Nat) (off : Nat), c < 32 ∧ off < 2 ^ 25) :=
  ⟨⟨5, 2 ^ 30 - 1, 2 ^ 30 - 1, by decide +kernel⟩,
   ⟨5, 2 ^ 30 - 1, 2 ^ 30 - 1, by decide +kernel⟩,
   ⟨63, 2 ^ 24 - 1, by decide +kernel⟩,
   ⟨31, 2 ^ 25 - 1, by decide +kernel⟩⟩

/-- ResetRegisters. -/
theorem wit_ResetRegisters :
    (∃ (n : _), n < 17) ∧
    (∃ (n : _), n < 192) ∧
    (∃ (n : Nat), n < 8) ∧
    (∃ (n : Nat), n < 16) ∧
    (∃ (n : Nat), n < 9) ∧
    (∃ (r : Reg), r ∉ ([.SYS_DEVSTATE, .SYS_RSTCAUSE, .CLK_STATUS, .CLK_SRCSEL, .CLK_NETREF, .CLK_GATE, .PWR_DROOP_CFG, .MEMC_RW_CFG, .ADMA_PMCFG, .VIS_OVCFG, .GLK_CLAIMCFG, .GLK_NAPCFG, .GLK_NAPMAX, .GLK_DIGCFG, .SAFE_STATUS, .SAFE_TBCFG, .ESC_CFG, .ESC_GUARD, .CHR_CFG] : List Reg) ∧ r ∉ ([.SYS_DEPEND, .MEMC_REGION, .CLK_SENSFREQ, .CLK_SENSCTL, .CAN_LTCFG, .MOT_OBSCFG, .MOT_ASCCFG, .SPW_STAT, .ETH_LTCFG, .SYS_ID, .PWR_TLIMITS, .MEMC_CAP, .GLK_UID, .SEC_LIFECYCLE, .SEC_OTPSTAT, .ESC_REPSTAT, .ESC_DISABLED, .ME_PHYS] : List Reg)) :=
  ⟨⟨16, by decide +kernel⟩,
   ⟨191, by decide +kernel⟩,
   ⟨7, by decide +kernel⟩,
   ⟨15, by decide +kernel⟩,
   ⟨8, by decide +kernel⟩,
   ⟨.CHR_TIME, by decide +kernel⟩⟩

/-- SyncSignalsAdd. -/
theorem wit_SyncSignalsAdd :
    (∃ (s : State) (c : Nat) (n : Nat) (t : _), s.regsWf ∧ t = s.signal c n ∧ s.reg .SYNC_CTR c + n < 2 ^ 64) ∧
    (∃ (s : State) (c : Nat) (n : Nat) (t : _), s.regsWf ∧ t = s.signal c n ∧ 2 ^ 64 ≤ s.reg .SYNC_CTR c + n) ∧
    (∃ (s : State) (c : Nat) (n : Nat) (t : _) (d : _), s.regsWf ∧ t = s.signal c n ∧ d ≠ c) :=
  ⟨⟨up, 65535, 2 ^ 64 - 1, _, by decide +kernel, rfl, by decide +kernel⟩,
   ⟨(State.loadRegs up [(.SYNC_CTR, 65535, 0, 1)]), 65535, 2 ^ 64 - 1, _, by decide +kernel, rfl, by decide +kernel⟩,
   ⟨up, 65535, 1, _, 65534, by decide +kernel, rfl, by decide +kernel⟩⟩

/-- GuardedRegisters. -/
theorem wit_GuardedRegisters :
    (∃ (s : State) (a : Nat) (i : Nat) (j : Nat) (off : Nat) (b : Block) (r : Reg) (w : RegWrite), blockOf a = some b ∧ findReg a = some (r, i, j, off) ∧ s.p0 w.initiator = false ∧ r.info.block ∈ ([.PWR, .MEMC, .PCIE, .DMA, .ME, .SCAN, .FWL, .GLK, .LOG] : List Block)) ∧
    (∃ (s : State) (a : Nat) (i : Nat) (j : Nat) (off : Nat) (init : Nat) (b : Block) (r : Reg), blockOf a = some b ∧ findReg a = some (r, i, j, off) ∧ s.p0 init = false ∧ r.info.block ∈ ([.PCIE, .DMA, .ME, .SCAN, .FWL, .GLK, .LOG] : List Block)) :=
  ⟨⟨up, Block.base .GLK, 0, 0, 0, .GLK, Reg.GLK_CFG, wr5 0, by decide +kernel⟩,
   ⟨up, Block.base .GLK, 0, 0, 0, initiator 6 5, .GLK, Reg.GLK_CFG, by decide +kernel⟩⟩

/-- FramesOfClocksAndPower. -/
theorem wit_FramesOfClocksAndPower :
    up.regsWf ∧
    (∃ u, exec .netrefReady up = .next u) ∧ (∃ u, exec (.clkNetrefWrite (wr 0)) up = .next u) ∧
    (∃ u, exec (.sensclkEnable 0 (wr 0)) up = .next u) ∧ (∃ u, exec .pmbusLost up = .next u) ∧
    (∃ u, exec .pwrCapUnmet up = .next u) ∧ (∃ u, exec (.pwrAvsInvalidate (wr 0)) up = .next u) ∧
    (∃ u, exec (.droopDetect 0) up = .next u) ∧ (∃ u, exec (.droopRecovery 0) up = .next u) ∧
    (∃ u, exec (.loadBandWindow 0) up = .next u) ∧ (∃ u, exec (.bandMeasured 0 0 0) up = .next u) ∧
    (∃ u, exec .avsLower up = .next u) ∧ (∃ u, exec (.thermalThrottle 0 0) up = .next u) :=
  ⟨by decide +kernel, ⟨_, rfl⟩, ⟨_, rfl⟩, ⟨_, rfl⟩, ⟨_, rfl⟩, ⟨_, rfl⟩, ⟨_, rfl⟩, ⟨_, rfl⟩, ⟨_, rfl⟩, ⟨_, rfl⟩, ⟨_, rfl⟩, ⟨_, rfl⟩, ⟨_, rfl⟩⟩

/-- FramesOfLinks. -/
theorem wit_FramesOfLinks :
    up.regsWf ∧
    (∃ u, exec (.rerouteDone 0) up = .next u) ∧ (∃ u, exec .announceTimer up = .next u) ∧
    (∃ u, exec (.rootClaim 0 0 0) up = .next u) ∧ (∃ u, exec .claimTimer up = .next u) ∧
    (∃ u, exec .rootLost up = .next u) ∧ (∃ u, exec (.flitReplay 0 0 false) up = .next u) ∧
    (∃ u, exec (.glkRetrainDone 0) up = .next u) ∧ (∃ u, exec (.napPropose 0 0) up = .next u) ∧
    (∃ u, exec (.napProposal 0 0 false) up = .next u) ∧ (∃ u, exec (.napAccept 0) up = .next u) ∧
    (∃ u, exec (.napWake 0) up = .next u) ∧ (∃ u, exec (.wakeSequence 0) up = .next u) ∧
    (∃ u, exec (.napResync 0) up = .next u) ∧ (∃ u, exec (.linkDelayMeasure { port := 0, delay := 0 }) up = .next u) ∧
    (∃ u, exec (.barrierArm { id := 0, partition := 0, ctr := 0, inc := 0, start := 0 }) up = .next u) ∧
    (∃ u, exec (.barrierReply 0 0 false) up = .next u) ∧ (∃ u, exec (.barrierConfirm 0 false) up = .next u) ∧
    (∃ u, exec .fenceSuspendEnd up = .next u) ∧ (∃ u, exec .heartbeatTimer up = .next u) ∧
    (∃ u, exec (.heartbeatRx []) up = .next u) ∧ (∃ u, exec (.ethLinkUp 0) up = .next u) ∧
    (∃ u, exec (.ethLinkDown 0) up = .next u) ∧ (∃ u, exec (.ethPreemptVerifyFail 0) up = .next u) ∧
    (∃ u, exec (.gateInterval 0) up = .next u) ∧ (∃ u, exec (.gclChange 0 (wr 0)) up = .next u) ∧
    (∃ u, exec (.ptpPdelay 0 0) up = .next u) ∧ (∃ u, exec .revertTimer up = .next u) ∧
    (∃ u, exec (.canLaunch 0 0) up = .next u) ∧ (∃ u, exec (.canBusOffRecovery 0) up = .next u) ∧
    (∃ u, exec (.canRxfack 0 (wr 0)) up = .next u) ∧ (∃ u, exec (.canTtCycleStart 0 0 0) up = .next u) ∧
    (∃ u, exec (.canTtColumn 0 0) up = .next u) ∧ (∃ u, exec (.canTtRefTimeout 0) up = .next u) ∧
    (∃ u, exec (.recover 0 (wr 0)) up = .next u) ∧ (∃ u, exec (.canBusError 0 .receiver 0 .plain) up = .next u) :=
  ⟨by decide +kernel, ⟨_, rfl⟩, ⟨_, rfl⟩, ⟨_, rfl⟩, ⟨_, rfl⟩, ⟨_, rfl⟩, ⟨_, rfl⟩, ⟨_, rfl⟩, ⟨_, rfl⟩, ⟨_, rfl⟩, ⟨_, rfl⟩, ⟨_, rfl⟩, ⟨_, rfl⟩, ⟨_, rfl⟩, ⟨_, rfl⟩, ⟨_, rfl⟩, ⟨_, rfl⟩, ⟨_, rfl⟩, ⟨_, rfl⟩, ⟨_, rfl⟩, ⟨_, rfl⟩, ⟨_, rfl⟩, ⟨_, rfl⟩, ⟨_, rfl⟩, ⟨_, rfl⟩, ⟨_, rfl⟩, ⟨_, rfl⟩, ⟨_, rfl⟩, ⟨_, rfl⟩, ⟨_, rfl⟩, ⟨_, rfl⟩, ⟨_, rfl⟩, ⟨_, rfl⟩, ⟨_, rfl⟩, ⟨_, rfl⟩, ⟨_, rfl⟩⟩

/-- FramesOfUnits. -/
theorem wit_FramesOfUnits :
    up.regsWf ∧ Memory.wf up = true ∧
    (∃ u, exec (.cmdqDb 0 (wr 0)) up = .next u) ∧ (∃ u, exec (.udpAckTimer 0) up = .next u) ∧
    (∃ u, exec (.cplResend 0) up = .next u) ∧ (∃ u, exec (.ringAccessFault 0 false 0) up = .next u) ∧
    (∃ u, exec (.queueDrained 0) up = .next u) ∧ (∃ u, exec .guardEpoch up = .next u) ∧
    (∃ u, exec (.watchArm 0 (wr 0)) up = .next u) ∧ (∃ u, exec (.syncRangeWrite 0 (wr 0)) up = .next u) ∧
    (∃ u, exec (.lendHoldExpire 0 0) up = .next u) ∧ (∃ u, exec (.escRepairSwap (wr 0)) up = .next u) ∧
    (∃ u, exec (.scanSwapOut 0 0) up = .next u) ∧ (∃ u, exec (.pin (wr 0)) up = .next u) ∧
    (∃ u, exec (.unpin (wr 0)) up = .next u) ∧ (∃ u, exec .reweaveDone up = .next u) ∧
    (∃ u, exec (.csi2FrameEnd { rx := 0, vc := 0 }) up = .next u) ∧ (∃ u, exec (.feTimeout 0) up = .next u) ∧
    (∃ u, exec (.camExpoCommit 0 (wr 0)) up = .next u) ∧ (∃ u, exec (.i3cWriteDone 0 false) up = .next u) ∧
    (∃ u, exec (.fsyncPulse 0 false) up = .next u) ∧ (∃ u, exec (.ascHoldEnd 0) up = .next u) ∧
    (∃ u, exec (.returnAngle 0 (wr 0)) up = .next u) ∧ (∃ u, exec (.axctlFlush 0 (wr 0)) up = .next u) ∧
    (∃ u, exec (.arm 0 (wr 0)) up = .next u) ∧ (∃ u, exec (.trigger 0 (wr 0)) up = .next u) ∧
    (∃ u, exec (.traceStop 0 (wr 0)) up = .next u) ∧ (∃ u, exec (.spwPush 0 (wr 0)) up = .next u) ∧
    (∃ u, exec (.challenge (wr 0)) up = .next u) ∧ (∃ u, exec (.respond (wr 0)) up = .next u) ∧
    (∃ u, exec (.lock (wr 0)) up = .next u) :=
  ⟨by decide +kernel, by decide +kernel, ⟨_, rfl⟩, ⟨_, rfl⟩, ⟨_, rfl⟩, ⟨_, rfl⟩, ⟨_, rfl⟩, ⟨_, rfl⟩, ⟨_, rfl⟩, ⟨_, rfl⟩, ⟨_, rfl⟩, ⟨_, rfl⟩, ⟨_, rfl⟩, ⟨_, rfl⟩, ⟨_, rfl⟩, ⟨_, rfl⟩, ⟨_, rfl⟩, ⟨_, rfl⟩, ⟨_, rfl⟩, ⟨_, rfl⟩, ⟨_, rfl⟩, ⟨_, rfl⟩, ⟨_, rfl⟩, ⟨_, rfl⟩, ⟨_, rfl⟩, ⟨_, rfl⟩, ⟨_, rfl⟩, ⟨_, rfl⟩, ⟨_, rfl⟩, ⟨_, rfl⟩, ⟨_, rfl⟩⟩

end Sys2Proof.Tests
end

namespace Sys2Proof.Machine

/-! How a packet command is judged (Table CMDQ-3, R82, R92, R103). -/

/-- R31: the opcodes that HELD accepts. -/
def heldOps : List Opcode := [⟨1, 1⟩, ⟨1, 2⟩, ⟨1, 3⟩, ⟨1, 0x20⟩, ⟨1, 0x21⟩]

/-- R449: the opcodes that SAFE accepts. -/
def safeOps : List Opcode := [⟨1, 2⟩, ⟨1, 3⟩, ⟨1, 0x20⟩, ⟨1, 0x21⟩]

/-- Every packet command runs its packet through the checks, with a rule of its own opcode. -/
theorem exec_packet {c : Instr} {p : Packet} (s : State) (h : packetOf c = some p) :
    ∃ (r : Rule) (body : Nat → State → State), exec c s = .next (runPacket c r p body s) ∧ r.op = opcodeOf c ∧
      r.inHeld = heldOps.contains r.op ∧ r.inSafe = safeOps.contains r.op := by
  cases c
  case fnStop q =>
    cases q <;> cases h
    exact ⟨_, _, rfl, rfl, rfl, rfl⟩
  case fnStart q fw =>
    cases q <;> cases h
    exact ⟨_, _, rfl, rfl, rfl, rfl⟩
  all_goals cases h
  all_goals exact ⟨_, _, rfl, rfl, rfl, rfl⟩

section
variable {s : State} {r : Rule} {p : Packet} (i : Instr) (body : Nat → State → State)

theorem State.endStatus_draining {q : Nat} (h : s.qState q = stDraining) : s.endStatus q = some csState := if_pos h

theorem State.endStatus_fault {q : Nat} (h : s.qState q = stFault) :
    s.endStatus q = (s.cq.ended.find? (fun e => e.1 == q)).map (·.2) := by
  unfold State.endStatus
  rw [h, if_neg (by decide), if_pos rfl]

theorem State.endStatus_other {q : Nat} (h : s.qState q ≠ stDraining) (h1 : s.qState q ≠ stFault) : s.endStatus q = none := by
  unfold State.endStatus
  rw [if_neg h, if_neg h1]

/-- A packet whose checks 1 to 4 pass is for this device, and none of those is forwarded. -/
theorem State.forwards_of_headCheck_none (h : s.headCheck r p = none) : s.forwards r.op p = false := by
  have hme : s.forMe p = true := by
    unfold State.headCheck at h
    by_contra hme
    simp only [Bool.not_eq_true] at hme
    split_ifs at h
  simp [State.forwards, hme]

variable (ht : s.cq.taking = false)
include ht

/-- R92: an absent queue or an empty ring gives nothing. -/
theorem runPacket_absent (h : 8192 ≤ p.queue ∨ s.qAvail p.queue = 0) : runPacket i r p body s = s := by
  unfold runPacket
  rw [State.taking_eta s false ht]
  exact if_pos h

/-- R93: a queue that neither ends its packets nor runs does not read them. -/
theorem runPacket_unread (h : s.endStatus p.queue = none) (hs : s.qState p.queue ≠ stRunning) : runPacket i r p body s = s := by
  unfold runPacket
  rw [State.taking_eta s false ht]
  simp [h, hs]

variable (hq : p.queue < 8192) (ha : s.qAvail p.queue ≠ 0)
include hq ha

/-- R93, R274: a queue that ends its packets completes this one with its status. -/
theorem runPacket_ended {st : Nat} (h : s.endStatus p.queue = some st) : runPacket i r p body s = s.endPacket r p st := by
  unfold runPacket
  rw [State.taking_eta s false ht]
  simp [hq, ha, h]

variable (hs : s.qState p.queue = stRunning)
include hs

/-- A queue that holds a packet holds the next one behind it. -/
theorem runPacket_behind (h : s.qHeld p.queue = true) : runPacket i r p body s = s.keepHeld i false := by
  unfold runPacket
  rw [State.taking_eta s false ht]
  simp [hq, ha, State.endStatus_running hs, hs, h, ht]

variable (hh : s.qHeld p.queue = false)
include hh

/-- R92: a packet that the tail does not cover waits at the head. -/
theorem runPacket_uncovered (h : s.fetches p = false) : runPacket i r p body s = s.holdHead i p false r.writes := by
  unfold runPacket
  rw [State.taking_eta s false ht]
  simp [hq, ha, State.endStatus_running hs, hs, hh, h]

variable (hf : s.fetches p = true) (hc : s.headChecked p.queue = false)
include hf hc

/-- R492: a slot that cannot be read is a ring access fault. -/
theorem runPacket_unreadable {a : Nat} (h : s.badSlot p.queue (pSlots p) = some a) :
    runPacket i r p body s = s.readFault p.queue a := by
  unfold runPacket
  rw [State.taking_eta s false ht]
  simp [hq, ha, State.endStatus_running hs, hs, hh, hf, hc, h]

variable (hb : s.badSlot p.queue (pSlots p) = none)
include hb

/-- R296: a packet for another reachable member is forwarded. -/
theorem runPacket_forwarded (h : s.forwards r.op p = true) : runPacket i r p body s = s.forward r.op p := by
  unfold runPacket
  rw [State.taking_eta s false ht]
  simp [hq, ha, State.endStatus_running hs, hs, hh, hf, hc, hb, h]

/-- R82: a packet that fails one of checks 1 to 8 is rejected. -/
theorem runPacket_rejected (hw : s.forwards r.op p = false) {st n d : Nat} (h : s.headCheck r p = some (st, n, d)) :
    runPacket i r p body s = s.reject r p st n d := by
  unfold runPacket
  rw [State.taking_eta s false ht]
  simp [hq, ha, State.endStatus_running hs, hs, hh, hf, hc, hb, hw, h]

/-- A packet whose checks 1 to 8 pass is held at the head where it must wait, and starts where not. -/
theorem runPacket_checked (h : s.headCheck r p = none) :
    runPacket i r p body s = if s.mustHold r.writes p then s.holdHead i p true r.writes else s.startPacket r p body := by
  unfold runPacket
  rw [State.taking_eta s false ht]
  simp [hq, ha, State.endStatus_running hs, hs, hh, hf, hc, hb, State.forwards_of_headCheck_none h, h]

end

/-- Check 9: a packet that starts on a target that is not ready, unless fenced, is REJECTED_STATE. -/
theorem State.startPacket_unready {s : State} {r : Rule} {p : Packet} (body : Nat → State → State)
    (hn : s.fencedOut r p = false) (h9 : s.check9 r = false) :
    s.startPacket r p body =
      (((((s.consume p).launch r p).countOps p.queue p.partition).finish s.cq.nextId csState 9).retire p.queue p.partition) := by
  simp [State.startPacket, hn, h9]

/-- Settles O50: every packet command runs its packet through the checks (`exec_packet`), and each clause is one outcome of that run. -/
theorem packetsAreJudged : Obligations.PacketsAreJudged := by
  intro c s p hp ht
  obtain ⟨r, body, hx, hop, hheld, hsafe⟩ := exec_packet s hp
  refine ⟨r, hop, by rw [hheld]; exact List.contains_iff_mem, by rw [hsafe]; exact List.contains_iff_mem, ?_, ?_⟩
  · intro h
    rw [hx, runPacket_absent c body ht h]
  intro hq ha
  rw [hx]
  refine ⟨fun hs => ?_, fun e hs he => ?_, fun hs he => ?_, fun h1 h2 h3 => ?_, fun hs => ⟨fun hh => ?_, fun hh hf => ?_, fun hh hf hc =>
    ⟨fun a hb => ?_, fun hb => ⟨fun h1 h2 h3 hme hg => ?_, fun st n d h hw => ?_, fun h hm => ?_, fun h hm hn h9 => ?_⟩⟩⟩⟩
  · rw [runPacket_ended c body ht hq ha (State.endStatus_draining hs)]
  · rw [runPacket_ended c body ht hq ha (by rw [State.endStatus_fault hs, he]; rfl)]
  · rw [runPacket_unread c body ht (by rw [State.endStatus_fault hs, he]; rfl) (by rw [hs]; decide)]
  · rw [runPacket_unread c body ht (State.endStatus_other h1 h2) h3]
  · rw [runPacket_behind c body ht hq ha hs hh]
  · rw [runPacket_uncovered c body ht hq ha hs hh hf]
  · rw [runPacket_unreadable c body ht hq ha hs hh hf hc hb]
  · have hw : s.forwards r.op p = true := by simp [State.forwards, h1, h2, h3, hme, hg]
    rw [runPacket_forwarded c body ht hq ha hs hh hf hc hb hw]
    rfl
  · rw [runPacket_rejected c body ht hq ha hs hh hf hc hb hw h]
  · rw [runPacket_checked c body ht hq ha hs hh hf hc hb h, if_pos hm]
  · rw [runPacket_checked c body ht hq ha hs hh hf hc hb h, if_neg (by simp [hm]), State.startPacket_unready body hn h9]
end Sys2Proof.Machine

namespace Sys2Proof.Machine

/-! The registers at reset (R36, R42). -/

section
variable {α : Type} [DecidableEq α] {d : Nat → α} {l : List (Nat × α)} {m : List (Nat × α)} {k : Nat}

/-- Writes at other keys leave a key alone. -/
theorem sparseGet_foldl_set_other (hm : sparseWf d m = true) (h : ∀ e ∈ l, e.1 ≠ k) :
    sparseGet d (l.foldl (fun m e => sparseSet d m e.1 e.2) m) k = sparseGet d m k := by
  induction l generalizing m with
  | nil => rfl
  | cons e l ih =>
    rw [List.foldl_cons, ih (sparseSet_wf hm) (fun x hx => h x (List.mem_cons_of_mem _ hx)),
      sparseGet_set_other hm (h e (List.mem_cons_self ..)).symm]

/-- A key reads the one value that was written to it. -/
theorem sparseGet_foldl_set_mem {v : α} (hm : sparseWf d m = true) (hv : ∀ e ∈ l, e.1 = k → e.2 = v) (hk : ∃ e ∈ l, e.1 = k) :
    sparseGet d (l.foldl (fun m e => sparseSet d m e.1 e.2) m) k = v := by
  induction l generalizing m with
  | nil => simp at hk
  | cons x l ih =>
    rw [List.foldl_cons]
    by_cases hl : ∃ e ∈ l, e.1 = k
    · exact ih (sparseSet_wf hm) (fun e he => hv e (List.mem_cons_of_mem _ he)) hl
    · rw [sparseGet_foldl_set_other (sparseSet_wf hm) (fun e he hk => hl ⟨e, he, hk⟩)]
      have hx : x.1 = k := by simpa [hl] using hk
      rw [hx, sparseGet_set_same hm]
      exact hv x (List.mem_cons_self ..) hx

end

/-- The keys and values that the register file is filled with at reset. -/
def resetCells (c : Chip) : List (Nat × Word) := (resetEntries c).map (fun e => (e.1.key e.2.1 e.2.2.1, BitVec.ofNat 64 e.2.2.2))

theorem resetRegs_eq (c : Chip) : resetRegs c = (resetCells c).foldl (fun m e => sparseSet (fun _ => 0) m e.1 e.2) [] := by
  unfold resetRegs resetCells
  rw [List.foldl_map]

/-- What the register maps list of a register at reset. -/
def resetOf (r : Reg) : List (Reg × Nat × Nat × Nat) := (resetEntries {}).filter (fun e => e.1 == r)

theorem mem_resetOf {r : Reg} {e : Reg × Nat × Nat × Nat} : e ∈ resetOf r ↔ e ∈ resetEntries {} ∧ e.1 = r := by
  simp [resetOf]

theorem State.reset_regs : State.reset.regs = resetRegs {} := by
  unfold State.reset
  with_reducible rfl

theorem State.reset_reg (r : Reg) (i j : Nat) :
    State.reset.reg r i j = (sparseGet (fun _ => (0 : Word)) (resetRegs {}) (r.key i j)).toNat := by
  unfold State.reg State.word
  rw [State.reset_regs]

/-- An element of which the maps list nothing reads zero. -/
theorem State.reset_reg_zero {r : Reg} {i j : Nat} (h : ∀ e ∈ resetEntries {}, e.1 ≠ r) : State.reset.reg r i j = 0 := by
  have hc : ∀ e ∈ resetCells {}, e.1 ≠ r.key i j := by
    intro e he hk
    obtain ⟨x, hx, rfl⟩ := List.mem_map.1 he
    exact h x hx (Reg.key_inj.1 hk).1
  rw [State.reset_reg, resetRegs_eq, sparseGet_foldl_set_other rfl hc]
  rfl

/-- An element of a register that the maps give as a value per index. -/
theorem State.reset_reg_perIndex {r : Reg} {m n : Nat} {v : Nat → Nat} (h : resetOf r = perIndex r m v) (hn : n < m) :
    State.reset.reg r n = v n % 2 ^ 64 := by
  have hv : ∀ e ∈ resetCells {}, e.1 = r.key n 0 → e.2 = BitVec.ofNat 64 (v n) := by
    intro e he hk
    obtain ⟨x, hx, rfl⟩ := List.mem_map.1 he
    obtain ⟨hr, hi, -⟩ := Reg.key_inj.1 hk
    have hx := mem_resetOf.2 ⟨hx, hr⟩
    rw [h] at hx
    obtain ⟨k, -, rfl⟩ := List.mem_map.1 hx
    rw [← hi]
  have hk : ∃ e ∈ resetCells {}, e.1 = r.key n 0 := by
    have hx : (r, n, 0, v n) ∈ resetOf r := by
      rw [h]
      exact List.mem_map.2 ⟨n, List.mem_range.2 hn, rfl⟩
    exact ⟨_, List.mem_map.2 ⟨_, (mem_resetOf.1 hx).1, rfl⟩, rfl⟩
  rw [State.reset_reg, resetRegs_eq, sparseGet_foldl_set_mem rfl hv hk, BitVec.toNat_ofNat]

/-- The maps list each single register once, with a value of at most 64 bits. -/
theorem resetOf_single : ∀ e ∈ resetSingles, resetOf e.1 = perIndex e.1 1 (fun _ => e.2) ∧ e.2 < 2 ^ 64 := by decide +kernel

theorem State.reset_reg_single {r : Reg} {v : Nat} (h : (r, v) ∈ resetSingles) : State.reset.reg r = v := by
  obtain ⟨ho, hv⟩ := resetOf_single _ h
  rw [State.reset_reg_perIndex ho Nat.one_pos, Nat.mod_eq_of_lt hv]

/-- The elements of an indexed register read its values. -/
theorem State.reset_reg_indexed {r : Reg} {m : Nat} {v : Nat → Nat} (h : resetOf r = perIndex r m v ∧ ∀ n < m, v n < 2 ^ 64) :
    ∀ n < m, State.reset.reg r n = v n := by
  intro n hn
  rw [State.reset_reg_perIndex h.1 hn, Nat.mod_eq_of_lt (h.2 n hn)]

/-- A register outside two lists that name all the maps' registers reads zero. -/
theorem State.reset_reg_outside {a b : List Reg} (h : ∀ e ∈ resetEntries {}, e.1 ∈ a ∨ e.1 ∈ b) {r : Reg} (i j : Nat) (ha : r ∉ a)
    (hb : r ∉ b) : State.reset.reg r i j = 0 :=
  State.reset_reg_zero (fun e he hr => (h e he).elim (fun x => ha (hr ▸ x)) (fun x => hb (hr ▸ x)))

/-- A field is its bits of its register. -/
theorem State.fld_eq_bitsOf_reg (s : State) (f : Fld) (i j : Nat) : s.fld f i j = bitsOf (s.reg f.reg i j) f.hi f.lo := rfl

/-- Settles O42. -/
theorem resetIsCanonical : Obligations.ResetIsCanonical := by
  refine ⟨⟨rfl, ?_⟩, rfl, rfl, rfl⟩
  rw [State.regsWf, State.reset_regs]
  exact resetRegs_wf {}

/-- Settles O53: what the maps list of each register is computed once, and the reads follow from it. -/
theorem resetRegisters : Obligations.ResetRegisters := by
  have hdev : State.reset.devState = devBoot := by
    rw [State.devState, State.fld_eq_bitsOf_reg, State.reset_reg_single (v := 1) (by decide)]
    rfl
  have hdep := State.reset_reg_indexed (r := .SYS_DEPEND) (m := 17) (v := fun n => builtinDeps.getD n 0) (by decide +kernel)
  have hregion := State.reset_reg_indexed (r := .MEMC_REGION) (m := 192) (v := fun n => n) (by decide +kernel)
  have hfreq := State.reset_reg_indexed (r := .CLK_SENSFREQ) (m := 8) (v := fun _ => 0x016E3600) (by decide +kernel)
  have hsens := State.reset_reg_indexed (r := .CLK_SENSCTL) (m := 8) (v := fun _ => 0x1E) (by decide +kernel)
  have hcan := State.reset_reg_indexed (r := .CAN_LTCFG) (m := 8) (v := fun _ => 0x186A0) (by decide +kernel)
  have hobs := State.reset_reg_indexed (r := .MOT_OBSCFG) (m := 16) (v := fun _ => 0x8400C864) (by decide +kernel)
  have hasc := State.reset_reg_indexed (r := .MOT_ASCCFG) (m := 16) (v := fun _ => 2000 * 65536) (by decide +kernel)
  have hspw := State.reset_reg_indexed (r := .SPW_STAT) (m := 16) (v := fun _ => 0x40) (by decide +kernel)
  have heth := State.reset_reg_indexed (r := .ETH_LTCFG) (m := 9) (v := fun _ => 0x3E8) (by decide +kernel)
  refine ⟨hdev, ?_, ?_, ?_, ?_, ?_, ?_, ?_, ?_, ?_, ?_, ?_, ?_, ?_, ?_, ?_, ?_, ?_, ?_, hdep, hregion,
    fun n hn => ⟨hfreq n hn, hsens n hn, hcan n hn⟩, fun n hn => ⟨hobs n hn, hasc n hn, hspw n hn⟩, heth,
    fun _ i j => State.reset_reg_outside (by decide +kernel) i j, rfl, rfl, rfl, rfl, rfl, rfl⟩
  all_goals exact State.reset_reg_single (by decide)

end Sys2Proof.Machine

namespace Sys2Proof.Machine

/-! Resets and BOOT (R18 to R24, R36, R46, R75, R472, R478). -/

section
variable {s t : State}

/-- Registers read as before where the register file is as before. -/
theorem State.word_congr (h : t.regs = s.regs) (r : Reg) (i j : Nat) : t.word r i j = s.word r i j := by
  unfold State.word
  rw [h]

/-- The fields of a register that reads as before do. -/
theorem State.fld_congr {f : Fld} {i j : Nat} (h : t.word f.reg i j = s.word f.reg i j) : t.fld f i j = s.fld f i j := by
  rw [State.fld, h, State.fld]

theorem State.flag_congr {f : Fld} {i j : Nat} (h : t.word f.reg i j = s.word f.reg i j) : t.flag f i j = s.flag f i j := by
  rw [State.flag, State.fld_congr h, State.flag]

/-- A written field leaves other registers. -/
theorem State.word_putFld_other {f : Fld} {n i j : Nat} (r : Reg) {i' j' : Nat} (h : s.regsWf) (hr : r ≠ f.reg) :
    (s.putFld f n i j).word r i' j' = s.word r i' j' := by
  rw [State.word_putFld _ _ _ _ _ _ _ h, if_neg (fun e => hr e.1)]

/-- A written register leaves other registers. -/
theorem State.word_setReg_other {q : Reg} {n i j : Nat} (r : Reg) {i' j' : Nat} (h : s.regsWf) (hr : r ≠ q) :
    (s.setReg q n i j).word r i' j' = s.word r i' j' := by
  rw [State.word_setReg _ _ _ _ _ _ _ h, if_neg (fun e => hr e.1)]

end

section
variable {s : State}

/-- SYS_DEVSTATE.DEVSTATE reads as before beside another field of its register. -/
theorem State.devState_putFld_other {f : Fld} {n i j : Nat} (h : s.regsWf) (e : ¬(f.reg = .SYS_DEVSTATE ∧ i = 0 ∧ j = 0) ∨ 2 < f.lo) :
    (s.putFld f n i j).devState = s.devState :=
  State.fld_putFld_other _ _ _ _ _ _ _ h (by
    rcases e with e | e
    · exact .inl (fun x => e ⟨x.1.symm, x.2.1.symm, x.2.2.symm⟩)
    · exact .inr (.inr e))

theorem State.devState_setReg_same {n : Nat} (h : s.regsWf) (hn : n < 8) : (s.setReg .SYS_DEVSTATE n).devState = n := by
  rw [State.devState, State.fld_setReg_same F.SYS_DEVSTATE_DEVSTATE n 0 0 h]
  simp only [Fld.of, bitsOf, BitVec.toNat_ofNat, Nat.shiftRight_zero]
  omega

/-- COLD shows in SYS_DEVSTATE alone. -/
theorem State.word_cold {a b : Bool} (r : Reg) (i j : Nat) (h : s.regsWf) (hr : r ≠ .SYS_DEVSTATE) :
    (s.cold a b).word r i j = s.word r i j := by
  change (((s.setReg .SYS_DEVSTATE devCold).putFld F.SYS_DEVSTATE_SELECT_VALID _).putFld F.SYS_DEVSTATE_SELECT_SLOT _).word r i j = _
  rw [State.word_putFld_other r (State.putFld_regsWf (State.setReg_regsWf h)) hr, State.word_putFld_other r (State.setReg_regsWf h) hr,
    State.word_setReg_other r h hr]

theorem State.cold_devState {a b : Bool} (h : s.regsWf) : (s.cold a b).devState = devCold := by
  change (((s.setReg .SYS_DEVSTATE devCold).putFld F.SYS_DEVSTATE_SELECT_VALID _).putFld F.SYS_DEVSTATE_SELECT_SLOT _).devState = _
  rw [State.devState_putFld_other (State.putFld_regsWf (State.setReg_regsWf h)) (.inr (by decide)),
    State.devState_putFld_other (State.setReg_regsWf h) (.inr (by decide)), State.devState_setReg_same h (by decide)]

theorem State.cold_regsWf {a b : Bool} (h : s.regsWf) : (s.cold a b).regsWf :=
  State.putFld_regsWf (s := (s.setReg .SYS_DEVSTATE devCold).putFld F.SYS_DEVSTATE_SELECT_VALID _) (State.putFld_regsWf (State.setReg_regsWf h))

@[simp] theorem State.cold_chip (a b : Bool) : (s.cold a b).chip = s.chip := rfl
@[simp] theorem State.cold_flash (a b : Bool) : (s.cold a b).flash = s.flash := rfl

@[simp] theorem State.resetAll_chip : s.resetAll.chip = s.chip := rfl
@[simp] theorem State.resetAll_flash : s.resetAll.flash = s.flash := rfl

theorem State.powerOn_devState (rails : Bool) : (s.powerOn rails).devState = devCold :=
  State.cold_devState (s := { s.resetAll.setReg .SEC_LIFECYCLE _ with dev := _ }) (State.setReg_regsWf s.resetAll_regsWf)

@[simp] theorem State.powerOn_chip (rails : Bool) : (s.powerOn rails).chip = s.chip := by simp [State.powerOn]
@[simp] theorem State.powerOn_flash (rails : Bool) : (s.powerOn rails).flash = s.flash := by simp [State.powerOn]

end

section
variable {s t : State} {cause : Fld}

@[simp] theorem State.keepAlwaysOn_chip : (t.keepAlwaysOn s cause).chip = t.chip := rfl
@[simp] theorem State.keepAlwaysOn_flash : (t.keepAlwaysOn s cause).flash = t.flash := rfl

theorem State.keepAlwaysOn_regsWf (h : t.regsWf) : (t.keepAlwaysOn s cause).regsWf :=
  State.putFld_regsWf (State.setReg_regsWf (State.setReg_regsWf h))

/-- R36: SYS_SELECT lasts through a reset. -/
theorem State.keepAlwaysOn_select (h : t.regsWf) (hc : cause.reg = .SYS_RSTCAUSE) :
    (t.keepAlwaysOn s cause).word .SYS_SELECT = s.word .SYS_SELECT := by
  unfold State.keepAlwaysOn State.setFlag
  rw [State.word_putFld_other _ (State.setReg_regsWf (State.setReg_regsWf h)) (by simp [hc]),
    State.word_setReg _ _ _ _ _ _ _ (State.setReg_regsWf h), if_pos ⟨rfl, rfl, rfl⟩]
  simp [State.reg]

/-- R36: the cause of a reset shows. -/
theorem State.keepAlwaysOn_cause (h : t.regsWf) (hc : cause.hi = cause.lo) (hl : cause.lo < 64) : (t.keepAlwaysOn s cause).flag cause = true := by
  unfold State.keepAlwaysOn State.setFlag State.flag
  rw [State.fld_putFld_same _ _ _ _ (State.setReg_regsWf (State.setReg_regsWf h)) (hc ▸ hl) (Nat.le_of_eq hc.symm), hc,
    Nat.add_sub_cancel_left]
  rfl

end

/-- R21: a start shows BOOT. -/
theorem State.showStart_devState {s : State} (h : s.regsWf) : s.showStart.devState = devBoot := by
  have h0 := State.setReg_regsWf (r := .SYS_DEVSTATE) (n := devBoot) (i := 0) (j := 0) h
  change (((((s.setReg .SYS_DEVSTATE devBoot).putFld F.SYS_DEVSTATE_CROWN _).putFld F.SYS_DEVSTATE_SELECT_VALID _).putFld
    F.SYS_DEVSTATE_SELECT_SLOT _).putFld F.SYS_DEVSTATE_SOURCE _).devState = _
  rw [State.devState_putFld_other (State.putFld_regsWf (State.putFld_regsWf (State.putFld_regsWf h0))) (.inr (by decide)),
    State.devState_putFld_other (State.putFld_regsWf (State.putFld_regsWf h0)) (.inr (by decide)),
    State.devState_putFld_other (State.putFld_regsWf h0) (.inr (by decide)), State.devState_putFld_other h0 (.inr (by decide)),
    State.devState_setReg_same h (by decide)]

/-- R75: a first trip of a sensor below 24 is COLD with THERMTRIP_N asserted. -/
theorem execThermtripN_first {s : State} {n : Nat} (ht : s.dev.thermTrip = false) (hn : n < 24) :
    ∃ t, execThermtripN n s = .next t ∧
      t.regs = (((s.resetAll.keepAlwaysOn s F.SYS_RSTCAUSE_THERMTRIP).cold true true).putFld F.SYS_DEVSTATE_CROWN s.dev.crown).regs ∧
      t.pins.thermtrip = true ∧ t.chip = s.chip ∧ t.flash = s.flash := by
  have hchip : ((s.resetAll.keepAlwaysOn s F.SYS_RSTCAUSE_THERMTRIP).cold true true).chip = s.chip := by simp
  have hflash : ((s.resetAll.keepAlwaysOn s F.SYS_RSTCAUSE_THERMTRIP).cold true true).flash = s.flash := by simp
  unfold execThermtripN
  rw [if_neg (by simp [ht, hn])]
  generalize (s.resetAll.keepAlwaysOn s F.SYS_RSTCAUSE_THERMTRIP).cold true true = u at *
  exact ⟨_, rfl, rfl, rfl, hchip, hflash⟩

/-- Settles O1: each reset command's next state, with the fields that COLD and a start show. -/
theorem resetCommands : Obligations.ResetCommands := by
  refine ⟨fun s => ?_, fun s rail => ?_, fun s hr => ?_, fun s c1 c0 ref hw hd hp => ?_, fun s n ht hn => ?_⟩
  · exact ⟨s.powerOn true, rfl, s.powerOn_devState true, rfl, s.powerOn_chip true, s.powerOn_flash true⟩
  · exact ⟨s.powerOn false, rfl, s.powerOn_devState false, rfl, s.powerOn_chip false, s.powerOn_flash false⟩
  · have hk : (s.resetAll.keepAlwaysOn s F.SYS_RSTCAUSE_PORST).regsWf := State.keepAlwaysOn_regsWf s.resetAll_regsWf
    refine ⟨(s.resetAll.keepAlwaysOn s F.SYS_RSTCAUSE_PORST).cold false true, ?_, State.cold_devState hk, rfl, ?_, ?_, by simp, by simp⟩
    · exact congrArg Host.Outcome.next (if_pos hr)
    · rw [State.reg, State.word_cold _ _ _ hk (by decide), State.keepAlwaysOn_select s.resetAll_regsWf rfl]
      rfl
    · rw [State.flag_congr (State.word_cold _ _ _ hk (by decide)), State.keepAlwaysOn_cause s.resetAll_regsWf rfl (by decide)]
  · refine ⟨_, congrArg Host.Outcome.next (if_pos ⟨hd, .inl hp⟩), ?_, rfl, rfl, rfl⟩
    exact State.showStart_devState hw
  · have hk : (s.resetAll.keepAlwaysOn s F.SYS_RSTCAUSE_THERMTRIP).regsWf := State.keepAlwaysOn_regsWf s.resetAll_regsWf
    obtain ⟨t, hx, hregs, hpin, hchip, hflash⟩ := execThermtripN_first ht hn
    refine ⟨t, hx, ?_, hpin, ?_, hchip, hflash⟩
    · rw [State.devState, State.fld_congr (State.word_congr hregs ..)]
      exact (State.devState_putFld_other (State.cold_regsWf hk) (.inr (by decide))).trans (State.cold_devState hk)
    · rw [State.flag_congr (State.word_congr hregs ..), State.flag_congr (State.word_putFld_other _ (State.cold_regsWf hk) (by decide)),
        State.flag_congr (State.word_cold _ _ _ hk (by decide)), State.keepAlwaysOn_cause s.resetAll_regsWf rfl (by decide)]

/-! The commands of BOOT. -/

/-- Once the root PLL has locked to REFCLK: ACTIVE and PLL_LOCK say so, and every other field reads as before. -/
theorem State.lockRoot_fields {s : State} (h : s.regsWf) :
    s.lockRoot.fld F.CLK_STATUS_ACTIVE = 0 ∧ s.lockRoot.fld F.CLK_STATUS_PLL_LOCK = 1 ∧
    ∀ f : Fld, f.reg ≠ .CLK_STATUS ∨ 1 < f.lo ∧ f.hi < 31 → s.lockRoot.fld f = s.fld f := by
  have h1 := State.putFld_regsWf (f := F.CLK_STATUS_ACTIVE) (n := 0) (i := 0) (j := 0) h
  have hl : ∀ f : Fld, s.lockRoot.fld f = ((s.putFld F.CLK_STATUS_ACTIVE 0).putFld F.CLK_STATUS_PLL_LOCK 1).fld f :=
    fun f => State.fld_congr (State.word_congr (by rfl) ..)
  refine ⟨?_, ?_, fun f hf => ?_⟩
  · rw [hl, State.fld_putFld_other _ _ _ _ _ _ _ h1 (.inr (.inr (by decide))), State.fld_putFld_same _ _ _ _ h (by decide) (by decide)]
    rfl
  · rw [hl, State.fld_putFld_same _ _ _ _ h1 (by decide) (by decide)]
    rfl
  · rw [hl, State.fld_putFld_other _ _ _ _ _ _ _ h1 (hf.imp (fun e x => e x.1) (fun e => .inr e.2)),
      State.fld_putFld_other _ _ _ _ _ _ _ h (hf.imp (fun e x => e x.1) (fun e => .inl e.1))]

/-- R46: what REFCLK_READY shows of the source. -/
def State.showRefclk (s : State) : State := (s.putFld F.CLK_STATUS_READY_REFCLK 1).putFld F.CLK_QUAL_REFCLK_COUNT 32768

theorem State.showRefclk_regsWf {s : State} (h : s.regsWf) : s.showRefclk.regsWf := State.putFld_regsWf (State.putFld_regsWf h)

theorem State.showRefclk_fields {s : State} (h : s.regsWf) :
    s.showRefclk.devState = s.devState ∧ s.showRefclk.fld F.CLK_STATUS_READY_REFCLK = 1 ∧ s.showRefclk.fld F.CLK_QUAL_REFCLK_COUNT = 32768 := by
  have h1 := State.putFld_regsWf (f := F.CLK_STATUS_READY_REFCLK) (n := 1) (i := 0) (j := 0) h
  refine ⟨?_, ?_, ?_⟩
  · rw [State.showRefclk, State.devState_putFld_other h1 (.inl (by simp)), State.devState_putFld_other h (.inl (by simp))]
  · rw [State.showRefclk, State.fld_putFld_other _ _ _ _ _ _ _ h1 (.inl (by simp)), State.fld_putFld_same _ _ _ _ h (by decide) (by decide)]
    rfl
  · rw [State.showRefclk, State.fld_putFld_same _ _ _ _ h1 (by decide) (by decide)]
    rfl

section
variable {s : State}

/-- REFCLK_READY while BOOT waits for the source. -/
theorem execRefclkReady_boot (hd : s.devState = devBoot) (hb : s.dev.boot = .qualifying) (hr : s.srcReady 0 = false) :
    execRefclkReady s = .next s.showRefclk.lockRoot := by
  unfold execRefclkReady
  rw [if_neg (by simp [hd, hr])]
  dsimp only
  rw [if_pos ⟨hd, hb⟩, State.showRefclk]

/-- R24: REFCLK_READY out of a HELD of REFCLK_ABSENT. -/
theorem execRefclkReady_held (hd : s.devState = devHeld) (hc : s.fld F.SYS_BOOTSTAT_CAUSE = 0x13) (hr : s.srcReady 0 = false) :
    execRefclkReady s = .next (s.showRefclk.putFld F.SYS_DEVSTATE_DEVSTATE devBoot).bootStates.lockRoot.showSafeFault := by
  unfold execRefclkReady
  rw [if_neg (by simp [hd, hr])]
  dsimp only
  rw [if_neg (by simp [hd]), if_pos ⟨hd, hc⟩, State.showRefclk]

theorem execProfileReadDone_failed (r : Reading) (hd : s.devState = devBoot) (hb : s.dev.boot = .reading) {c n k : Nat}
    (h : s.slotFault s.dev.slot r = some (c, n, k)) : execProfileReadDone r s = .next (s.enterHeld c n k) := by
  unfold execProfileReadDone
  rw [if_pos ⟨hd, hb⟩, h]

theorem execProfileReadDone_accepted (r : Reading) (hd : s.devState = devBoot) (hb : s.dev.boot = .reading)
    (h : s.slotFault s.dev.slot r = none) :
    execProfileReadDone r s = .next (s.accept (s.slotImage s.dev.slot) r.settings s.dev.slot false) := by
  unfold execProfileReadDone
  rw [if_pos ⟨hd, hb⟩, h]

end

/-- Settles O2: each command of BOOT in the state that it belongs to. -/
theorem bootCommands : Obligations.BootCommands := by
  refine ⟨fun s hw hd hb hr => ?_, fun s _ hd hc hr => execRefclkReady_held hd hc hr, fun s hd hb => ?_, fun s hd hb => ?_,
    fun s r c n k hd hb h => execProfileReadDone_failed r hd hb h, fun s r hd hb h => execProfileReadDone_accepted r hd hb h⟩
  · obtain ⟨hdev, hready, hcount⟩ := State.showRefclk_fields hw
    obtain ⟨hactive, hlock, hother⟩ := State.lockRoot_fields (State.showRefclk_regsWf hw)
    refine ⟨_, execRefclkReady_boot hd hb hr, ?_, ?_, ?_, hlock, hactive, rfl, rfl, rfl⟩
    · exact (hother _ (.inl (by decide))).trans (hdev.trans hd)
    · exact (hother _ (.inr (by decide))).trans hready
    · exact (hother _ (.inl (by decide))).trans hcount
  · exact congrArg Host.Outcome.next (if_pos ⟨hd, hb⟩)
  · exact congrArg Host.Outcome.next (if_pos ⟨hd, hb⟩)

end Sys2Proof.Machine

namespace Sys2Proof.Machine

/-! Packets that start (R82, R103): the effect of an opcode, case by case. -/

/-- A packet that starts runs any effect that agrees with its opcode's on the entered state. -/
theorem exec_starts {c : Instr} {s : State} {r : Rule} {p : Packet} {body f : Nat → State → State}
    (hx : exec c s = .next (runPacket c r p body s)) (h : s.starts r p = true)
    (hf : body s.cq.nextId (s.entered r p) = f s.cq.nextId (s.entered r p)) : exec c s = .next (s.ran r p f) := by
  rw [hx, runPacket_starts c body h, State.ran, State.ran, hf]

/-! LOAD_PROFILE, SELECT_PROFILE and WARM_RESET (R22, R32 to R35). -/

section
variable {s : State} {p : Packet} {r : Reading} (id : Nat)

theorem loadProfileBody_more (h : pLast p = false) : loadProfileBody p r id s = (s.stage p.target p.payload).finish id csDone 0 := by
  unfold loadProfileBody
  exact if_pos h

variable (hl : pLast p = true)
include hl

theorem loadProfileBody_failed {c n k : Nat} (h : (s.stage p.target p.payload).stagedFault p r = some (c, n, k)) :
    loadProfileBody p r id s = (s.bootStat c n k).finish id csFormat c := by
  unfold loadProfileBody
  dsimp only
  rw [if_neg (by simp [hl]), h]

variable (h : (s.stage p.target p.payload).stagedFault p r = none)
include h

theorem loadProfileBody_persist (hp : p.flags.testBit 4 = true) : loadProfileBody p r id s =
    { s.stage p.target p.payload with
      dev := { (s.stage p.target p.payload).dev with flashWrite := some (id, bitsOf p.flags 7 6, p.flags, r.settings) } } := by
  unfold loadProfileBody
  dsimp only
  rw [if_neg (by simp [hl]), h]
  exact if_pos hp

variable (hp : p.flags.testBit 4 = false)
include hp

theorem loadProfileBody_run (hr : p.flags.testBit 5 = true) :
    loadProfileBody p r id s = (s.stage p.target p.payload).runLoaded id (bitsOf p.flags 7 6) r.settings true := by
  unfold loadProfileBody
  dsimp only
  rw [if_neg (by simp [hl]), h]
  simp [hp, hr]

theorem loadProfileBody_done (hr : p.flags.testBit 5 = false) :
    loadProfileBody p r id s = (s.stage p.target p.payload).finish id csDone 0 := by
  unfold loadProfileBody
  dsimp only
  rw [if_neg (by simp [hl]), h]
  simp [hp, hr]

end

section
variable {s : State} {id slot flags : Nat} {x : Settings}

theorem State.flashEnded_done (z : Nat) : s.flashEnded slot z .done = (s.writeSlot slot).writeHeader slot z := rfl
theorem State.flashEnded_slotFailed (z : Nat) : s.flashEnded slot z .slotFailed = s.spoilSlot slot := rfl
theorem State.flashEnded_headerFailed (z : Nat) : s.flashEnded slot z .headerFailed = (s.writeSlot slot).spoilHeader slot := rfl

/-- R34: a flash write that fails completes its packet with FLASH_ERROR. -/
theorem execLoadProfileFlashDone_failed {e : FlashEnd} (z : Nat) (h : s.dev.flashWrite = some (id, slot, flags, x)) (he : e ≠ .done) :
    execLoadProfileFlashDone e z s = .next (((({ s with dev := { s.dev with flashWrite := none } } : State).flashEnded slot z e).bootStat
      0x10 1 0).complete id csFormat 0x10) := by
  unfold execLoadProfileFlashDone
  rw [h]
  dsimp only
  rw [if_neg he]

/-- R34: a flash write that ends well runs the loaded profile or completes its packet. -/
theorem execLoadProfileFlashDone_done (z : Nat) (h : s.dev.flashWrite = some (id, slot, flags, x)) :
    execLoadProfileFlashDone .done z s = .next (if flags.testBit 5 then
      (({ s with dev := { s.dev with flashWrite := none } } : State).flashEnded slot z .done).runLoaded id slot x false
      else (({ s with dev := { s.dev with flashWrite := none } } : State).flashEnded slot z .done).complete id csDone 0) := by
  unfold execLoadProfileFlashDone
  rw [h]
  dsimp only
  rw [if_pos rfl]

end

section
variable {s : State} {p : Packet} {ok : Bool} (id : Nat)

theorem selectProfileBody_selected (h : s.selectFault (bitsOf p.flags 7 6) ok = 0) :
    selectProfileBody p ok id s = (s.setSelect (2 * bitsOf p.flags 7 6 + 1)).finish id csDone 0 := by
  unfold selectProfileBody
  exact if_pos h

theorem selectProfileBody_refused {c : Nat} (h : s.selectFault (bitsOf p.flags 7 6) ok = c) (hc : c ≠ 0) :
    selectProfileBody p ok id s = s.finish id csFormat c := by
  unfold selectProfileBody
  subst h
  exact if_neg hc

end

/-- Settles O3: the effect of each packet on the entered state, and the flash write by how it ends. -/
theorem profilePackets : Obligations.ProfilePackets := by
  refine ⟨fun s p r hs => ⟨fun hl => ?_, fun c n k hl h => ?_, fun hl h hp => ?_, fun hl h hp hr => ?_, fun hl h hp hr => ?_⟩,
    fun s id slot flags z x h => ⟨_, rfl, ?_, ?_, fun hf => ?_, fun hf => ?_⟩, fun s p ok hs => ⟨fun h => ?_, fun c h hc => ?_⟩,
    fun s p hs => ⟨rfl, exec_starts rfl hs rfl⟩⟩
  · exact exec_starts rfl hs (loadProfileBody_more _ hl)
  · exact exec_starts rfl hs (loadProfileBody_failed _ hl h)
  · exact exec_starts rfl hs (loadProfileBody_persist _ hl h hp)
  · exact exec_starts rfl hs (loadProfileBody_run _ hl h hp hr)
  · exact exec_starts rfl hs (loadProfileBody_done _ hl h hp hr)
  · exact (execLoadProfileFlashDone_failed z h (by decide)).trans (by rw [State.flashEnded_slotFailed])
  · exact (execLoadProfileFlashDone_failed z h (by decide)).trans (by rw [State.flashEnded_headerFailed])
  · exact (execLoadProfileFlashDone_done z h).trans (by rw [State.flashEnded_done, if_neg (by simp [hf])])
  · exact (execLoadProfileFlashDone_done z h).trans (by rw [State.flashEnded_done, if_pos hf])
  · exact exec_starts rfl hs (selectProfileBody_selected _ h)
  · exact exec_starts rfl hs (selectProfileBody_refused _ h hc)

end Sys2Proof.Machine

namespace Sys2Proof.Machine

/-! Starting a function or unit (R25 to R29). -/

section
variable {s : State} {fn unit : Nat}

theorem State.target_whole (s : State) (fn : Nat) : s.target fn whole = s.fnState fn := if_pos rfl

/-- R34, R55: a function that does not read STOPPED is not restarted. -/
theorem State.restartFn_other (h : s.fnState fn ≠ stStopped) : s.restartFn fn = s := by
  unfold State.restartFn
  exact if_neg (by simp [h])

/-- R34, R55: a function that stopped to restart reads STARTING again, with its units. -/
theorem State.restartFn_stopped (h : s.fnState fn = stStopped) (hr : s.dev.restart.contains fn = true) :
    s.restartFn fn = (({ s with dev := { s.dev with restart := s.dev.restart.filter (fun n => n != fn) } } : State).setFn fn
      stStarting).startUnits fn := by
  unfold State.restartFn
  exact if_pos (by rw [hr, h]; rfl)

/-- R27: the start of a target that waits for nothing begins. -/
theorem State.begin_ready (h : s.target fn unit = stStarting) (hp : s.prereqsMet fn unit = true)
    (hb : s.dev.begun.contains (fn, unit) = false) (hr : s.rcoscHolds fn = false) :
    s.begin fn unit = if unit = whole then ({ s with dev := { s.dev with begun := s.dev.begun ++ [(fn, unit)] } } : State).beginFn fn
      else { s with dev := { s.dev with begun := s.dev.begun ++ [(fn, unit)] } } := by
  unfold State.begin
  exact if_pos ⟨h, hp, hb, hr⟩

theorem execFunctionStart_unit (h : unit ≠ whole) : execFunctionStart fn unit s = .next (s.begin fn unit) := by
  unfold execFunctionStart
  rw [if_neg h]

theorem execFunctionStart_whole : execFunctionStart fn whole s = .next ((s.restartFn fn).begin fn whole) := by
  unfold execFunctionStart
  rw [if_pos rfl]

/-- R25, R28, R29: FUNCTION_READY of a target whose start has begun and may end. -/
theorem execFunctionReady_begun (h : s.target fn unit = stStarting) (hb : s.dev.begun.contains (fn, unit) = true)
    (hr : s.repairWaits fn unit = false) (hg : fn = fnGlk → s.glkReady = true) :
    execFunctionReady fn unit s = .next (
      if unit = whole then
        (if s.dev.stopAfterStart.contains (fn, unit) then
          (((((s.started fn unit).2.setFn fn stReady).readyUnits fn).recordTime fn).readyFn fn).stopTarget fn unit
         else ((((s.started fn unit).2.setFn fn stReady).readyUnits fn).recordTime fn).readyFn fn).settle
      else if s.dev.stopAfterStart.contains (fn, unit) then (s.started fn unit).2.stopTarget fn unit
      else (s.started fn unit).2.readyUnit fn unit) := by
  unfold execFunctionReady
  rw [if_pos ⟨h, hb, hr, hg⟩]
  rfl

/-- A unit that stops is the target of its stop. -/
theorem State.stopTarget_unit (h : unit ≠ whole) : s.stopTarget fn unit = s.stopUnit fn unit := if_neg h

/-- R28: FUNCTION_START_FAULT of a target whose start has begun. -/
theorem execFunctionStartFault_begun (h : s.target fn unit = stStarting) (hb : s.dev.begun.contains (fn, unit) = true) :
    execFunctionStartFault fn unit s = .next (
      if unit = whole then (s.started fn unit).2.faultFn fn
      else if fn = fnMot then ((s.started fn unit).2.setUnit fn unit stFault).sumBit F.MOT_FAULTSUM_FAULT unit true
      else (s.started fn unit).2.setUnit fn unit stFault) := by
  unfold execFunctionStartFault
  rw [if_pos ⟨h, hb⟩]

end

/-- Settles O4: a start, its READY and its fault, each for a unit and for a whole function. -/
theorem functionStarts : Obligations.FunctionStarts := by
  refine ⟨fun s fn unit h hp hb hr => ⟨_, rfl, fun hu => ?_, ?_⟩, fun s fn _ h hr => ?_, fun s fn unit h hb hr hg =>
    ⟨fun hu ha => ?_, fun hu ha => ?_, ?_, ?_⟩, fun s fn unit h hb => ⟨fun hu hm => ?_, fun hu hm => ?_, fun hu => ?_⟩⟩
  · exact (execFunctionStart_unit hu).trans (by rw [State.begin_ready h hp hb hr, if_neg hu])
  · rintro rfl
    have hs : s.fnState fn ≠ stStopped := by
      rw [← State.target_whole, h]
      decide
    exact execFunctionStart_whole.trans (by rw [State.restartFn_other hs, State.begin_ready h hp hb hr, if_pos rfl])
  · exact execFunctionStart_whole.trans (by rw [State.restartFn_stopped h hr])
  · exact (execFunctionReady_begun h hb hr hg).trans (by rw [if_neg hu, if_neg (Bool.eq_false_iff.1 ha)])
  · exact (execFunctionReady_begun h hb hr hg).trans (by rw [if_neg hu, if_pos ha, State.stopTarget_unit hu])
  · rintro rfl ha
    exact (execFunctionReady_begun h hb hr hg).trans (by rw [if_pos rfl, if_neg (Bool.eq_false_iff.1 ha)])
  · rintro rfl ha
    exact (execFunctionReady_begun h hb hr hg).trans (by rw [if_pos rfl, if_pos ha])
  · exact (execFunctionStartFault_begun h hb).trans (by rw [if_neg hu, if_neg hm])
  · exact (execFunctionStartFault_begun h hb).trans (by rw [if_neg hu, if_pos hm])
  · exact (execFunctionStartFault_begun h hb).trans (by rw [if_pos hu])

/-! Stopping and starting by FN_STOP and FN_START (R37 to R41). -/

section
variable {s : State} {w : RegWrite}

/-- The fields of SYS_FNCTL with an OP written in. -/
theorem fnctl_fields (v : Nat) {op : Nat} (hop : op < 16) :
    bitsOf (v % 2 ^ 28 + 2 ^ 28 * op) 31 28 = op ∧ bitsOf (v % 2 ^ 28 + 2 ^ 28 * op) 20 16 = bitsOf v 20 16 ∧
      (v % 2 ^ 28 + 2 ^ 28 * op) % 256 = v % 256 := by
  simp only [bitsOf, Nat.shiftRight_eq_div_pow]
  omega

/-- R37: a write of SYS_FNCTL by partition 0, of a function up to 16, with the block's clock running. -/
theorem State.writeFnctl_taken {v op : Nat} (fw : Option FwImage) (hp : s.p0 w.initiator = true) (hg : s.gated .SYS = false)
    (hf : bitsOf w.value 20 16 ≤ 16) (hop : op < 16) (hv : v = w.value % 2 ^ 28 + 2 ^ 28 * op) :
    s.writeFnctl { w with value := v } fw =
      (if op = 1 then (s.fnStop (bitsOf w.value 20 16) (w.value % 256)).putFld F.SYS_FNCTLSTAT_RESULT
          (s.stopResult (bitsOf w.value 20 16) (w.value % 256))
       else if op = 2 then (s.fnStart (bitsOf w.value 20 16) (w.value % 256) fw).putFld F.SYS_FNCTLSTAT_RESULT
          (s.startResult (bitsOf w.value 20 16) (w.value % 256))
       else s).accessed := by
  obtain ⟨h1, h2, h3⟩ := fnctl_fields w.value hop
  rw [← hv] at h1 h2 h3
  unfold State.writeFnctl
  dsimp only
  rw [State.regWrite_allowed _ hp hg, h1, h2, h3, if_neg (Nat.not_lt.2 hf)]

end

section
variable {s : State} {fn unit : Nat}

theorem State.endRestart_unit (h : unit ≠ whole) : s.endRestart fn unit = s := if_neg (fun e => h e.1)

/-- R38: a draining target whose work is done stops. -/
theorem execDrainComplete_done (h : s.target fn unit = stDraining) (hb : s.busy fn unit = false) :
    execDrainComplete fn unit s = .next (((s.stopTarget fn unit).endRestart fn unit).moreKernels) :=
  congrArg Host.Outcome.next (if_pos ⟨h, hb⟩)

/-- R40: T_drain ends what a draining target has in flight, then the target stops. -/
theorem execDrainTimeout_draining (h : s.target fn unit = stDraining) :
    execDrainTimeout fn unit s = .next ((((if unit = whole then
      ((s.enabledUnits fn).foldl (fun t u => t.preemptUnit fn u) s).preemptMem fn else s.preemptUnit fn unit).stopTarget fn unit).endRestart
        fn unit).moreKernels) :=
  congrArg Host.Outcome.next (if_pos h)

end

/-- Settles O5: the packets' effects are the statement's own; a write of SYS_FNCTL reads the same fields. -/
theorem functionStops : Obligations.FunctionStops := by
  refine ⟨fun s p hs => exec_starts rfl hs rfl, fun s p fw hs => exec_starts rfl hs rfl, fun s w fw hp hg hf => ⟨?_, ?_⟩,
    fun s fn unit h hb => execDrainComplete_done h hb, fun s fn unit h => ⟨fun hu => ?_, ?_⟩⟩
  · exact congrArg Host.Outcome.next (State.writeFnctl_taken (op := 1) none hp hg hf (by decide) (by omega))
  · exact congrArg Host.Outcome.next (State.writeFnctl_taken (op := 2) fw hp hg hf (by decide) (by omega))
  · exact (execDrainTimeout_draining h).trans (by rw [if_neg hu, State.endRestart_unit hu])
  · rintro rfl
    exact (execDrainTimeout_draining h).trans (by rw [if_pos rfl])

/-! Register accesses and LOG_READ (R42, R57, R96 to R98, R460, R491). -/

section
variable {s : State} {p : Packet} (id : Nat)

/-- R460: LOG_READ returns the records selected, with the place of the first. -/
theorem logReadBody_found {e : Nat × List Byte} {m : List (Nat × List Byte)}
    (h : (s.logChosen (pNum p 6 1) (pNum p 0 4) (pNum p 8 2) p.partition).take (pNum p 4 2) = e :: m) :
    logReadBody p id s = s.finish id csDone (65536 * e.1 + (e :: m).length) ((e :: m).flatMap (·.2)) := by
  unfold logReadBody
  dsimp only
  rw [h]

theorem logReadBody_none (h : (s.logChosen (pNum p 6 1) (pNum p 0 4) (pNum p 8 2) p.partition).take (pNum p 4 2) = []) :
    logReadBody p id s = s.drawFree.finish id csDone (65536 * s.freeNat 32) := by
  unfold logReadBody
  dsimp only
  rw [h]

end

section
variable {s : State} {a : Nat} {w : RegWrite}

/-- R57: a write at an unaligned address, or where no block is. -/
theorem State.writeAt_nowhere {n : Nat} (h : a % 4 ≠ 0 ∨ s.blockHere a = false) : s.writeAt a n w = s.busErr := if_pos h

theorem State.writeAt_elem {n i j off : Nat} {b : Block} {r : Reg} (ha : a % 4 = 0) (hh : s.blockHere a = true) (hb : blockOf a = some b)
    (hr : findReg a = some (r, i, j, off)) : s.writeAt a n w = s.writeElem r i j off n w := by
  unfold State.writeAt
  rw [if_neg (by simp [ha, hh]), hb, hr]

/-- What a write to the end of a register's element does, with the lanes that it writes and the value that it leaves. -/
theorem State.writeElem_toEnd {r : Reg} {i j off lanes v : Nat}
    (hl : lanes = (2 ^ (8 * (r.info.width / 8 - off)) - 1) * 256 ^ off &&& (2 ^ r.info.width - 1))
    (hv : v = mixBits (s.seen r i j) (w.value * 256 ^ off) lanes) :
    s.writeElem r i j off 0 w =
      if s.mayWrite r i w.initiator = false ∨ s.gated r.info.block = true then s.busErr
      else if s.regStopped r i && r.params != 0 && !stagesItself.contains r then s.plainStage r i j v lanes w.initiator
      else s.ownWrite r i j v lanes w := by
  subst hv hl
  unfold State.writeElem
  dsimp only
  rw [if_pos rfl]

end

section
variable {s : State} (hu : s.fnUsable fnPcie = true)
include hu

theorem execPcieInbound_read (a n : Nat) : execPcieInbound (.read a n) s = .next
    (if s.flag F.PCIE_CFG_ROLE && s.devState != devHeld then (s.acceptFn fnPcie).portRead a n else (s.acceptFn fnPcie).unsupported) :=
  congrArg Host.Outcome.next (if_neg (ne_false_of_eq_true hu))

theorem execPcieInbound_write (a : Nat) (data : List Byte) : execPcieInbound (.write a data) s = .next
    (if s.flag F.PCIE_CFG_ROLE && s.devState != devHeld then (s.acceptFn fnPcie).portWrite a data else (s.acceptFn fnPcie).unsupported) :=
  congrArg Host.Outcome.next (if_neg (ne_false_of_eq_true hu))

theorem execPcieInbound_barRead (f bar o n : Nat) : execPcieInbound (.barRead f bar o n) s = .next
    (if !(s.flag F.PCIE_CFG_ROLE && s.devState != devHeld) && s.pcieAnswers f && decide (o + n ≤ barSize f bar) then
      let u := (s.acceptFn fnPcie).answered ((List.range n).map (fun k => (s.acceptFn fnPcie).barByte f bar (o + k)))
      if bar = 2 then { u with free := u.free + barSize f bar } else u
     else (s.acceptFn fnPcie).unsupported) :=
  congrArg Host.Outcome.next (if_neg (ne_false_of_eq_true hu))

theorem execPcieInbound_barWrite (f bar o : Nat) (data : List Byte) : execPcieInbound (.barWrite f bar o data) s = .next
    (if !(s.flag F.PCIE_CFG_ROLE && s.devState != devHeld) && s.pcieAnswers f && decide (o + data.length ≤ barSize f bar) then
      (s.acceptFn fnPcie).barWrite f bar o data
     else (s.acceptFn fnPcie).unsupported) :=
  congrArg Host.Outcome.next (if_neg (ne_false_of_eq_true hu))

/-- A report of the link, which FN_PCIE takes without an answer. -/
theorem execPcieInbound_report (e : PcieError) (n f : Nat) (d : Bool) :
    execPcieInbound (.error e) s = .next (s.addFld (pcieErrFld e) 1) ∧
    execPcieInbound (.ltssm n) s = .next (s.putFld F.PCIE_LSTAT_LTSSM n) ∧
    execPcieInbound (.power f d) s = .next { s with dev := { s.dev with
      d3hot := s.dev.d3hot.filter (fun g => g != f) ++ if d && s.pcieFn f then [f] else [] } } :=
  have hn := ne_false_of_eq_true hu
  ⟨congrArg Host.Outcome.next (if_neg hn), congrArg Host.Outcome.next (if_neg hn), congrArg Host.Outcome.next (if_neg hn)⟩

end

/-- R97: a write of four bytes to a doorbell of BAR0 is one of the function's queue there. -/
theorem State.barWrite_doorbell {t : State} {f o q : Nat} {data : List Byte} (ho : o < 0x8000) (ha : o % 4 = 0) (hd : data.length = 4)
    (hq : (t.pcieQueues f)[o / 4]? = some q) :
    t.barWrite f 0 o data = t.doorbell q (leNat data) (initiator 8 (t.pciePart f)) := by
  unfold State.barWrite
  rw [if_pos ⟨rfl, ho, ha, hd⟩, hq]

/-- Settles O17: reads by packet, writes by the element that an address meets, and PCIe requests one by one. -/
theorem registerCommands : Obligations.RegisterCommands := by
  refine ⟨fun s p hs => exec_starts rfl hs rfl, fun s p hs => ⟨fun l e m hl h => ?_, fun h => exec_starts rfl hs (logReadBody_none _ h)⟩,
    fun s a w h => ⟨s.busErr, congrArg Host.Outcome.next (State.writeAt_nowhere h), rfl, rfl, rfl, rfl⟩,
    fun s a i j off v lanes b r w ha hh hb hr hl hv => ?_,
    fun s t root hu hroot ht => ⟨fun a n h => ?_, fun a data h => ?_, fun a n data h => ⟨?_, ?_⟩,
      fun f bar o n h hf ho => ⟨_, rfl, fun hbar => ?_, fun hbar => ?_⟩, fun f bar o data h hf ho => ?_, fun f bar o n data h => ⟨?_, ?_⟩,
      fun e n => ⟨(execPcieInbound_report hu e n 0 false).1, (execPcieInbound_report hu e n 0 false).2.1⟩,
      fun f d => (execPcieInbound_report hu .fatal 0 f d).2.2⟩,
    fun t f o q data ho ha hd hq => State.barWrite_doorbell ho ha hd hq⟩
  · subst hl
    exact exec_starts rfl hs (logReadBody_found _ h)
  · have hx : exec (.registerWrite a w) s = .next (s.writeElem r i j off 0 w) :=
      congrArg Host.Outcome.next (State.writeAt_elem ha hh hb hr)
    rw [hx, State.writeElem_toEnd hl hv]
    refine ⟨fun h => by rw [if_pos h], fun hm hg => ?_⟩
    rw [if_neg (by simp [hm, hg])]
    exact ⟨fun h => by rw [if_pos h], fun h => by rw [if_neg (Bool.eq_false_iff.1 h)]⟩
  all_goals subst hroot ht
  · exact (execPcieInbound_read hu a n).trans (by rw [if_pos h])
  · exact (execPcieInbound_write hu a data).trans (by rw [if_pos h])
  · exact (execPcieInbound_read hu a n).trans (by rw [if_neg (Bool.eq_false_iff.1 h)])
  · exact (execPcieInbound_write hu a data).trans (by rw [if_neg (Bool.eq_false_iff.1 h)])
  · refine (execPcieInbound_barRead hu f bar o n).trans ?_
    rw [if_pos (by rw [h, hf]; simp [ho])]
    dsimp only
    rw [if_neg hbar]
  · refine (execPcieInbound_barRead hu f bar o n).trans ?_
    rw [if_pos (by rw [h, hf]; simp [ho])]
    dsimp only
    rw [if_pos hbar]
  · exact (execPcieInbound_barWrite hu f bar o data).trans (by rw [if_pos (by rw [h, hf]; simp [ho])])
  · exact (execPcieInbound_barRead hu f bar o n).trans (by rw [if_neg]; rcases h with h | h <;> simp [h])
  · exact (execPcieInbound_barWrite hu f bar o data).trans (by rw [if_neg]; rcases h with h | h <;> simp [h])

end Sys2Proof.Machine

namespace Sys2Proof.Machine

/-! Guarded registers (R77, R116, R144, R150, R178, R203, R289, R327, R464). -/

section
variable {s : State} {r : Reg} {init : Nat} (h : s.p0 init = false)
include h

/-- A register of a block that admits partition 0 only is read by no other initiator. -/
theorem State.mayRead_guarded (i : Nat) (hb : r.info.block ∈ ([.PCIE, .DMA, .ME, .SCAN, .FWL, .GLK, .LOG] : List Block)) :
    s.mayRead r i init = false := by
  unfold State.mayRead
  generalize r.info.block = b at hb
  fin_cases hb <;> simp [h, Block.openRead]

/-- PWR and MEMC may be read by all, and are written by partition 0 only, as are the blocks that only it may read. -/
theorem State.mayWrite_guarded (i : Nat)
    (hb : r.info.block ∈ ([.PWR, .MEMC, .PCIE, .DMA, .ME, .SCAN, .FWL, .GLK, .LOG] : List Block)) :
    s.mayWrite r i init = false := by
  have hr := State.mayRead_guarded (r := r) h i
  unfold State.mayWrite
  generalize r.info.block = b at hb hr
  obtain hb | hb | hb := List.mem_cons.1 hb |>.imp_right List.mem_cons.1
  · subst hb; exact h
  · subst hb; exact h
  · fin_cases hb <;> exact hr (by decide)

end

section
variable {s : State} {a i j off : Nat} {b : Block} {r : Reg} (hb : blockOf a = some b) (hr : findReg a = some (r, i, j, off))
include hb hr

/-- A write of a register that its initiator may not write is a bus error, as is one at an unaligned address or of no block. -/
theorem State.writeAt_denied {n : Nat} {w : RegWrite} (h : s.mayWrite r i w.initiator = false) : s.writeAt a n w = s.busErr := by
  by_cases hn : a % 4 ≠ 0 ∨ s.blockHere a = false
  · exact State.writeAt_nowhere hn
  · obtain ⟨ha, hh⟩ := not_or.1 hn
    rw [State.writeAt_elem (not_not.1 ha) (eq_true_of_ne_false hh) hb hr]
    exact if_pos (.inl h)

/-- A register that its initiator may not read. -/
theorem State.readAt_denied {init : Nat} (h : s.mayRead r i init = false) : (s.readAt a init).1 = false := by
  unfold State.readAt
  rw [hb, hr]
  dsimp only
  rw [if_pos h]

end

/-- R57: a read that is unaligned, of no block, or not allowed. -/
theorem execGatedRead_refused {s : State} {a i : Nat} (h : a % 4 ≠ 0 ∨ s.blockHere a = false ∨ (s.readAt a i).1 = false) :
    execGatedRead a i s = .next s.busErr :=
  congrArg Host.Outcome.next (if_pos h)

/-- Settles O55: the access rule of the register's block refuses the initiator, whatever else stands at the address. -/
theorem guardedRegisters : Obligations.GuardedRegisters := by
  intro s a i j off init b r w hb hr
  refine ⟨fun hp hg => ?_, fun hp hg => ?_⟩
  · exact congrArg Host.Outcome.next (State.writeAt_denied hb hr (State.mayWrite_guarded hp i hg))
  · exact execGatedRead_refused (.inr (.inr (State.readAt_denied hb hr (State.mayRead_guarded hp i hg))))

end Sys2Proof.Machine

namespace Sys2Proof.Machine

/-! The commands of clocks and power that leave all but some blocks' registers as they were. -/

/-- R53: the network source loses READY. -/
theorem State.loseSource_one (s : State) : s.loseSource 1 = (s.putFld F.CLK_STATUS_READY_NET 0).restartNet := rfl

/-! Parts of the commands that the statements below speak of. -/

/-- R54: the fields that a write of CLK_NETREF changes while the network is not the active source. -/
def State.putNetref (s : State) (v : Nat) : State :=
  (((s.putFld F.CLK_NETREF_WINDOW_PPM (netWindow (bitsOf v 23 16))).putFld F.CLK_NETREF_EN (bitsOf v 31 31)).putFld
    F.CLK_NETREF_FREQ (bitsOf v 9 8)).putFld F.CLK_NETREF_SEL (v % 4)

/-- R60: a stopped sensor clock takes its DEPTH and RATE_KHZ. -/
def State.putSensctl (s : State) (n v : Nat) : State :=
  (s.putFld F.CLK_SENSCTL_DEPTH (bitsOf v 20 16) n).putFld F.CLK_SENSCTL_RATE_KHZ (bitsOf v 6 0) n

/-- The state that a load window leaves, before the target follows (R69, R72). -/
def State.loadWindow (s : State) (b : Nat) : State :=
  (((s.noteGuard b).putFld F.PWR_STATUS_BAND b).showGuard.bandTime b 10).windowOut b

/-- A status field and its event bit, with the event logged. -/
def State.statusEvent (s : State) (f : Fld) (n : Nat) (e : Fld) (code : Nat) : State := ((s.putFld f n).setFlag e).anyEvent 0x03 code

/-- R73: the skipped cycles are counted, and the droop is over. -/
def State.droopOver (s : State) (n : Nat) : State :=
  { s.setReg .PWR_DROOP_SKIPS ((s.reg .PWR_DROOP_SKIPS + n) % 2 ^ 64) with clk := { s.clk with droop := false, inDroop := 0 } }

/-- R74: each 10 ms of throttling takes a tenth of the cap. -/
def State.lowerCap (s : State) : State := { s with clk := { s.clk with capDw := s.clk.capDw * 9 / 10 } }

/-! Frames. -/

/-- From o on nothing but registers of the blocks bs has changed of what sameOutside names, and the register file is canonical. -/
structure Within (bs : List Block) (o t : State) : Prop where
  wf : t.regsWf
  same : o.sameOutside t bs

namespace Within

variable {bs : List Block} {o t : State}

protected theorem refl (h : o.regsWf) : Within bs o o := ⟨h, rfl, rfl, rfl, fun _ _ _ _ => rfl⟩

theorem trans {u : State} (h : Within bs o t) (g : Within bs t u) : Within bs o u := by
  obtain ⟨-, hm, hf, hc, hw⟩ := h
  obtain ⟨hwf, gm, gf, gc, gw⟩ := g
  exact ⟨hwf, gm.trans hm, gf.trans hf, gc.trans hc, fun r i j hr => (gw r i j hr).trans (hw r i j hr)⟩

/-- What is no register, memory, flash or package may change. -/
theorem congr {u : State} (h : Within bs o t) (hr : u.regs = t.regs) (hm : u.mem = t.mem) (hf : u.flash = t.flash) (hc : u.chip = t.chip) :
    Within bs o u := by
  obtain ⟨hwf, gm, gf, gc, gw⟩ := h
  refine ⟨?_, hm.trans gm, hf.trans gf, hc.trans gc, fun r i j e => (State.word_congr hr r i j).trans (gw r i j e)⟩
  rw [State.regsWf, hr]
  exact hwf

theorem ite {c : Prop} [Decidable c] {u : State} (h : Within bs o t) (g : Within bs o u) : Within bs o (if c then t else u) := by
  split <;> assumption

theorem foldl {α : Type} {l : List α} {g : State → α → State} (hg : ∀ u x, Within bs o u → Within bs o (g u x)) (h : Within bs o t) :
    Within bs o (l.foldl g t) := foldl_inv hg h

theorem setReg {r : Reg} {n i j : Nat} (h : Within bs o t) (hr : r.info.block ∈ bs) : Within bs o (t.setReg r n i j) :=
  h.trans ⟨State.setReg_regsWf h.wf, rfl, rfl, rfl, fun _ _ _ hq => State.word_setReg_other _ h.wf (fun e => hq (e ▸ hr))⟩

theorem putFld {f : Fld} {n i j : Nat} (h : Within bs o t) (hf : f.reg.info.block ∈ bs) : Within bs o (t.putFld f n i j) :=
  h.trans ⟨State.putFld_regsWf h.wf, rfl, rfl, rfl, fun _ _ _ hq => State.word_putFld_other _ h.wf (fun e => hq (e ▸ hf))⟩

theorem setFlag {f : Fld} {i j : Nat} (h : Within bs o t) (hf : f.reg.info.block ∈ bs) : Within bs o (t.setFlag f i j) := h.putFld hf

/-- An event shows in registers of LOG alone. -/
theorem anyEvent {c d p : Nat} (h : Within bs o t) (hl : Block.LOG ∈ bs) : Within bs o (t.anyEvent c d p) :=
  h.trans ⟨State.anyEvent_regsWf h.wf, by simp, by simp, by simp, fun r i j hq =>
    State.word_anyEvent r i j h.wf (by rintro rfl; exact hq hl) (by rintro rfl; exact hq hl)⟩

theorem statusEvent {f e : Fld} {n code : Nat} (h : Within bs o t) (hf : f.reg.info.block ∈ bs) (he : e.reg.info.block ∈ bs)
    (hl : Block.LOG ∈ bs) : Within bs o (t.statusEvent f n e code) := anyEvent (setFlag (putFld h hf) he) hl

theorem busErr (h : Within bs o t) : Within bs o t.busErr := h.congr rfl rfl rfl rfl

/-- A register write of which neither the effect nor a refusal changes more. -/
theorem regWrite {b : Block} {a : Bool} {u : State} (h : Within bs o t) (g : Within bs o u) : Within bs o (t.regWrite b a u) :=
  ite (g.congr rfl rfl rfl rfl) h.busErr

/-! Clocks. -/

theorem senseOut {n : Nat} {b : Bool} (h : Within bs o t) : Within bs o (t.senseOut n b) := h.congr rfl rfl rfl rfl

section
variable (hb : Block.CLK ∈ bs)
include hb

theorem loseSource_one (h : Within bs o t) : Within bs o (t.loseSource 1) := by
  have hr : Within bs o (t.putFld F.CLK_STATUS_READY_NET 0) := putFld h hb
  have hq : Within bs o ((t.putFld F.CLK_STATUS_READY_NET 0).putFld F.CLK_QUAL_NET_US 0) := putFld hr hb
  rw [State.loseSource_one]
  exact ite hr (hq.congr rfl rfl rfl rfl)

theorem switchRefused {n : Nat} (h : Within bs o t) : Within bs o (t.switchRefused n) := putFld (setFlag h hb) hb

theorem putNetref {v : Nat} (h : Within bs o t) : Within bs o (t.putNetref v) := putFld (putFld (putFld (putFld h hb) hb) hb) hb

theorem writeNetref {v : Nat} (h : Within bs o t) : Within bs o (t.writeNetref v) :=
  have hf : Within bs o (t.putNetref v) := h.putNetref hb
  ite (switchRefused hb (putFld h hb)) (ite hf (hf.loseSource_one hb))

theorem putSensctl {n v : Nat} (h : Within bs o t) : Within bs o (t.putSensctl n v) := putFld (putFld h hb) hb

theorem writeSensctl {n v : Nat} (h : Within bs o t) : Within bs o (t.writeSensctl n v) :=
  have hf : Within bs o (t.putSensctl n v) := h.putSensctl hb
  ite (ite h (senseOut (putFld h hb))) (ite hf (ite (senseOut (setFlag hf hb)) (setFlag hf hb)))

end

/-! Power. -/

theorem lowerCap (h : Within bs o t) : Within bs o t.lowerCap := h.congr rfl rfl rfl rfl

section
variable (hb : Block.PWR ∈ bs)
include hb

theorem showGuard (h : Within bs o t) : Within bs o t.showGuard := foldl (fun _ _ hu => putFld hu hb) h

/-- A band that is marked unmeasured. -/
theorem unmeasure {b : Nat} (h : Within bs o t) :
    Within bs o { t.putFld F.PWR_BAND_MEASURED 0 b with clk := { t.clk with bandUs := t.clk.bandUs.set b 0 } } :=
  have hm : Within bs o (t.putFld F.PWR_BAND_MEASURED 0 b) := putFld h hb
  hm.congr rfl rfl rfl rfl

theorem coolBands {tj : Int} (h : Within bs o t) : Within bs o (t.coolBands tj) := foldl (fun _ _ hu => ite (hu.unmeasure hb) hu) h

theorem invalidateBands {v : Nat} (h : Within bs o t) : Within bs o (t.invalidateBands v) := foldl (fun _ _ hu => hu.unmeasure hb) h

theorem showTemp {n tj : Nat} (h : Within bs o t) : Within bs o (t.showTemp n tj) := coolBands hb (putFld (putFld h hb) hb)

theorem droopOver {n : Nat} (h : Within bs o t) : Within bs o (t.droopOver n) :=
  have hs : Within bs o (t.setReg .PWR_DROOP_SKIPS ((t.reg .PWR_DROOP_SKIPS + n) % 2 ^ 64)) := setReg h hb
  hs.congr rfl rfl rfl rfl

theorem noteGuard {b : Nat} (hl : Block.LOG ∈ bs) (h : Within bs o t) : Within bs o (t.noteGuard b) := ite h (anyEvent (setFlag h hb) hl)

variable (hg : Block.GLK ∈ bs)
include hg

theorem setDiv {d : Nat} (h : Within bs o t) : Within bs o (t.setDiv d) := ite h (setFlag (putFld (putFld h hb) hb) hg)

theorem aim (h : Within bs o t) : Within bs o t.aim := putFld (ite (h.setDiv hb hg) h) hb

end

theorem bandTime {b us : Nat} (h : Within bs o t) : Within bs o (t.bandTime b us) := h.congr rfl rfl rfl rfl

theorem windowOut {b : Nat} (h : Within bs o t) : Within bs o (t.windowOut b) := h.congr rfl rfl rfl rfl

theorem loadWindow {b : Nat} (hb : Block.PWR ∈ bs) (hl : Block.LOG ∈ bs) (h : Within bs o t) : Within bs o (t.loadWindow b) :=
  windowOut (bandTime (showGuard hb (putFld (noteGuard hb hl h) hb)))

/-- Cycles of CLK_CORE show in VIS_UBUSY alone. -/
theorem addCycles {n : Nat} (hb : Block.VIS ∈ bs) (h : Within bs o t) : Within bs o (t.addCycles n) := by
  refine foldl (fun u k hu => ?_) (h.congr rfl rfl rfl rfl)
  cases k.unit with
  | none => exact hu
  | some n => exact hu.setReg hb

end Within

/-- Settles O56: each command is a chain of writes to registers of its own blocks. -/
theorem framesOfClocksAndPower : Obligations.FramesOfClocksAndPower := by
  intro s u hs
  have h0 : ∀ bs, Within bs s s := fun bs => .refl hs
  refine ⟨?_, fun w => ?_, fun n w => ?_, ?_, ?_, fun w => ?_, fun mv => ?_, fun n => ?_, fun busy => ?_, fun b o tj => ?_, ?_, fun n tj => ?_⟩
  all_goals rintro ⟨⟩; refine Within.same ?_
  · exact .ite (((h0 _).putFld (by decide)).putFld (by decide)) (h0 _)
  · exact (h0 _).regWrite ((h0 _).writeNetref (by decide))
  · exact (h0 _).regWrite ((h0 _).writeSensctl (by decide))
  · exact .ite (h0 _) ((h0 _).statusEvent (by decide) (by decide) (by decide))
  · exact .ite ((h0 _).statusEvent (by decide) (by decide) (by decide)) (h0 _)
  · exact (h0 _).regWrite ((h0 _).invalidateBands (by decide))
  · exact .ite ((h0 _).congr rfl rfl rfl rfl) (h0 _)
  · exact .ite (.addCycles (by decide) ((h0 _).droopOver (n := n) (by decide))) (h0 _)
  · have hw : Within [.PWR, .GLK, .LOG] s (s.loadWindow (loadBand busy)) := (h0 _).loadWindow (by decide) (by decide)
    exact .ite (h0 _) (.ite (hw.aim (by decide) (by decide)) hw)
  · exact .ite (.aim (by decide) (by decide) (.showGuard (by decide) (.coolBands (by decide) (.setReg (h0 _) (by decide))))) (h0 _)
  · exact .ite (h0 _) ((h0 _).aim (by decide) (by decide))
  · have ht : Within [.PWR, .GLK, .LOG] s (s.showTemp n tj) := (h0 _).showTemp (by decide)
    have hc : Within [.PWR, .GLK, .LOG] s (s.showTemp n tj).lowerCap := ht.lowerCap
    have hf : Within [.PWR, .GLK, .LOG] s ((s.showTemp n tj).putFld F.PWR_STATUS_THROTTLE 0) := ht.putFld (by decide)
    exact .ite (.ite hc (.anyEvent (.setFlag (.setFlag (.putFld hc (by decide)) (by decide)) (by decide)) (by decide)))
      (hf.congr rfl rfl rfl rfl)

end Sys2Proof.Machine

namespace Sys2Proof.Machine

/-! What fields read after writes, as rules for simp. -/

/-- The register file is canonical; an atom for simp, which the rules of this section carry along a chain of writes. -/
def State.Canon (s : State) : Prop := s.regsWf

section
variable {s : State} {f g : Fld} {n i j i' j' : Nat}

@[simp] theorem State.Canon.putFld (h : s.Canon) : (s.putFld f n i j).Canon := State.putFld_regsWf h
@[simp] theorem State.Canon.setReg {r : Reg} (h : s.Canon) : (s.setReg r n i j).Canon := State.setReg_regsWf h
@[simp] theorem State.Canon.setFlag (h : s.Canon) : (s.setFlag f i j).Canon := State.putFld_regsWf h
@[simp] theorem State.Canon.anyEvent {c d p : Nat} (h : s.Canon) : (s.anyEvent c d p).Canon := State.anyEvent_regsWf h
@[simp] theorem State.Canon.emit {c d x y p : Nat} (h : s.Canon) : (s.emit c d x y p).Canon := State.emit_regsWf h

@[simp] theorem State.Canon.fld_putFld_same (h : s.Canon) (hw : f.hi < 64) (hl : f.lo ≤ f.hi) :
    (s.putFld f n i j).fld f i j = n % 2 ^ (f.hi + 1 - f.lo) := State.fld_putFld_same _ _ _ _ h hw hl

@[simp] theorem State.Canon.fld_putFld_other (h : s.Canon) (e : ¬(g.reg = f.reg ∧ i' = i ∧ j' = j) ∨ f.hi < g.lo ∨ g.hi < f.lo) :
    (s.putFld f n i j).fld g i' j' = s.fld g i' j' := State.fld_putFld_other _ _ _ _ _ _ _ h e

@[simp] theorem State.Canon.fld_setReg_other {r : Reg} (h : s.Canon) (e : ¬(g.reg = r ∧ i' = i ∧ j' = j)) :
    (s.setReg r n i j).fld g i' j' = s.fld g i' j' := State.fld_setReg_other _ _ _ _ _ _ _ h e

@[simp] theorem State.Canon.fld_anyEvent {c d p : Nat} (h : s.Canon) (hd : f.reg ≠ .LOG_DROP) (hs : f.reg ≠ .LOG_STATUS) :
    (s.anyEvent c d p).fld f i j = s.fld f i j := State.fld_congr (State.word_anyEvent _ _ _ h hd hs)

@[simp] theorem State.Canon.fld_emit {c d x y p : Nat} (h : s.Canon) (hd : f.reg ≠ .LOG_DROP) (hs : f.reg ≠ .LOG_STATUS) :
    (s.emit c d x y p).fld f i j = s.fld f i j := State.fld_congr (State.word_emit _ _ _ h hd hs)

/-- Fields read the register file alone. -/
@[simp] theorem State.fld_mk {mem flash chip dev pins clk cq esc me streams kv mot cam vid chr eth can glk memc msix objs keys log safe irqs
    sent scrub app traffic scrubHit busError readValue due free pending} :
    State.fld ⟨s.regs, mem, flash, chip, dev, pins, clk, cq, esc, me, streams, kv, mot, cam, vid, chr, eth, can, glk, memc, msix, objs,
      keys, log, safe, irqs, sent, scrub, app, traffic, scrubHit, busError, readValue, due, free, pending⟩ f i j = s.fld f i j := rfl

@[simp] theorem State.accessed_fld : s.accessed.fld f i j = s.fld f i j := rfl
@[simp] theorem State.accessed_flag : s.accessed.flag f i j = s.flag f i j := rfl
@[simp] theorem State.accessed_active : s.accessed.active = s.active := rfl

end

theorem State.flag_iff {s : State} {f : Fld} {i j : Nat} : s.flag f i j = true ↔ s.fld f i j ≠ 0 := by simp [State.flag]

/-! Writes of CLK_NETREF (R54). -/

section
variable {s : State} (h : s.Canon)
include h

@[simp] theorem State.Canon.switchRefused {n : Nat} : (s.switchRefused n).Canon := h.setFlag.putFld
@[simp] theorem State.Canon.putNetref {v : Nat} : (s.putNetref v).Canon := h.putFld.putFld.putFld.putFld

/-- A refusal shows its reason. -/
theorem State.Canon.switchRefused_shows (n : Nat) : (s.switchRefused n).flag F.CLK_FLAGS_SW_REFUSED = true ∧
    (s.switchRefused n).fld F.CLK_FLAGS_REFUSE_REASON = n % 4 := by
  simp [State.switchRefused, State.setFlag, State.flag, h]

/-- A refusal shows in CLK_FLAGS alone. -/
theorem State.Canon.fld_switchRefused {n : Nat} {f : Fld} (hf : f.reg ≠ .CLK_FLAGS) : (s.switchRefused n).fld f = s.fld f := by
  simp [State.switchRefused, State.setFlag, h, hf]

theorem State.Canon.putNetref_flds (v : Nat) : (s.putNetref v).fld F.CLK_NETREF_SEL = v % 4 ∧
    (s.putNetref v).fld F.CLK_NETREF_FREQ = bitsOf v 9 8 ∧ (s.putNetref v).fld F.CLK_NETREF_EN = bitsOf v 31 31 := by
  simp [State.putNetref, h, h.putFld.putFld, bitsOf]

/-- R53: the network source that is lost is not READY and its qualification is at zero. -/
theorem State.Canon.loseSource_one_shows :
    (s.loseSource 1).flag F.CLK_STATUS_READY_NET = false ∧ (s.loseSource 1).fld F.CLK_QUAL_NET_US = 0 := by
  have hr : (s.putFld F.CLK_STATUS_READY_NET 0).srcReady 1 = false := by simp [State.srcReady, State.flag, h]
  rw [State.loseSource_one, State.restartNet, hr]
  exact ⟨by simp [State.flag, h], by simp [h]⟩

/-- Its loss shows in CLK_STATUS and CLK_QUAL alone. -/
theorem State.Canon.fld_loseSource_one {f : Fld} (hs : f.reg ≠ .CLK_STATUS) (hq : f.reg ≠ .CLK_QUAL) : (s.loseSource 1).fld f = s.fld f := by
  rw [State.loseSource_one, State.restartNet]
  split
  · simp [h, hs]
  · simp [h, hs, hq]
end

/-- R54: while the network is the active source only the window is taken, and the write is refused with NET_ACTIVE. -/
theorem State.writeNetref_active {s : State} (v : Nat) (h : s.active = 1) :
    s.writeNetref v = (s.putFld F.CLK_NETREF_WINDOW_PPM (netWindow (bitsOf v 23 16))).switchRefused 3 := if_pos h

/-- R54: else the write is taken. -/
theorem State.writeNetref_taken {s : State} (v : Nat) (h : s.active ≠ 1) :
    s.writeNetref v = if (bitsOf v 1 0 == s.fld F.CLK_NETREF_SEL && bitsOf v 9 8 == s.fld F.CLK_NETREF_FREQ) = true ∧
      v.testBit 31 = s.flag F.CLK_NETREF_EN then s.putNetref v else (s.putNetref v).loseSource 1 := if_neg h

theorem netWindow_lt (v : Nat) : netWindow v < 256 := by
  unfold netWindow
  split <;> omega

/-- What a refused write of CLK_NETREF shows and leaves. -/
theorem State.Canon.writeNetref_active_flds {s : State} (h : s.Canon) (v : Nat) (ha : s.active = 1) :
    (s.writeNetref v).flag F.CLK_FLAGS_SW_REFUSED = true ∧ (s.writeNetref v).fld F.CLK_FLAGS_REFUSE_REASON = 3 ∧
    (s.writeNetref v).fld F.CLK_NETREF_WINDOW_PPM = netWindow (bitsOf v 23 16) ∧
    (s.writeNetref v).fld F.CLK_NETREF_SEL = s.fld F.CLK_NETREF_SEL ∧ (s.writeNetref v).fld F.CLK_NETREF_FREQ = s.fld F.CLK_NETREF_FREQ ∧
    (s.writeNetref v).fld F.CLK_NETREF_EN = s.fld F.CLK_NETREF_EN := by
  obtain ⟨hflag, hreason⟩ := (h.putFld (f := F.CLK_NETREF_WINDOW_PPM) (n := netWindow (bitsOf v 23 16)) (i := 0)
    (j := 0)).switchRefused_shows 3
  rw [State.writeNetref_active v ha]
  refine ⟨hflag, hreason, ?_, ?_, ?_, ?_⟩
  · simp [State.Canon.fld_switchRefused, h, Nat.mod_eq_of_lt (netWindow_lt _)]
  all_goals simp [State.Canon.fld_switchRefused, h]

/-- Settles O47: a refused write leaves the fields; a write that is taken puts them, and a new SEL or FREQ loses the network source. -/
theorem networkReferenceWrites : Obligations.NetworkReferenceWrites := by
  intro s w (h : s.Canon) hp hg
  refine ⟨_, congrArg Host.Outcome.next (State.regWrite_allowed _ hp hg), fun ha => ?_, fun ha => ?_⟩ <;>
    simp only [State.accessed_fld, State.accessed_flag]
  · obtain ⟨hflag, hreason, -, hsel, hfreq, hen⟩ := h.writeNetref_active_flds w.value ha
    exact ⟨hflag, hreason, hsel, hfreq, hen⟩
  · obtain ⟨hsel, hfreq, hen⟩ := h.putNetref_flds w.value
    rw [State.writeNetref_taken _ ha]
    split
    · next hsame =>
      have hkept : w.value % 4 = s.fld F.CLK_NETREF_SEL ∧ bitsOf w.value 9 8 = s.fld F.CLK_NETREF_FREQ := by
        simpa [bitsOf] using hsame.1
      exact ⟨hsel, hfreq, hen, fun hd => absurd hkept (not_and_or.2 hd)⟩
    · obtain ⟨hready, hqual⟩ := (h.putNetref (v := w.value)).loseSource_one_shows
      exact ⟨(h.putNetref.fld_loseSource_one (by decide) (by decide)).trans hsel,
        (h.putNetref.fld_loseSource_one (by decide) (by decide)).trans hfreq,
        (h.putNetref.fld_loseSource_one (by decide) (by decide)).trans hen, fun _ => ⟨hready, hqual⟩⟩

end Sys2Proof.Machine

namespace Sys2Proof.Machine

/-! Monitors, the multiplexer and its requests (R47, R49 to R55). -/

section
variable {s : State}

theorem execClockMonitorTrip_monitored {m : ClockTrip} (hm : s.monitored m = true) (hd : s.devState ≠ devCold) :
    execClockMonitorTrip m s = .next (if s.tripSource m = s.active then (s.setReg .CLK_TRIP (withBit (s.reg .CLK_TRIP) (tripBit m))).fallback
      else (s.setReg .CLK_TRIP (withBit (s.reg .CLK_TRIP) (tripBit m))).tripOther (s.tripSource m)) :=
  congrArg Host.Outcome.next (if_pos ⟨hm, hd⟩)

/-- R47: what NETREF_READY shows. -/
theorem execNetrefReady_qualified (he : s.flag F.CLK_NETREF_EN = true) (hr : s.srcReady 0 = true) :
    execNetrefReady s = .next ((s.putFld F.CLK_STATUS_READY_NET 1).putFld F.CLK_QUAL_NET_US 1000) :=
  congrArg Host.Outcome.next (if_pos ⟨he, hr⟩)

/-- R51: the PLL locks and the switch ends. -/
def State.relocked (s : State) : State := (s.putFld F.CLK_STATUS_SWITCHING 0).putFld F.CLK_STATUS_PLL_LOCK 1

theorem State.Canon.relocked_flds (h : s.Canon) : s.relocked.flag F.CLK_STATUS_SWITCHING = false ∧
    s.relocked.flag F.CLK_STATUS_PLL_LOCK = true ∧ s.relocked.active = s.active := by
  simp [State.relocked, State.flag, State.active, h]

theorem execPllRelock_switching (h : s.flag F.CLK_STATUS_SWITCHING = true) : execPllRelock s = .next (
    if s.relocked.active = 2 then rcoscFns.foldl State.stopForRcosc s.relocked
    else if s.clk.softwareSwitch = true then
      ({ s.clk.stopped.foldl State.resumeFn s.relocked with clk := { (s.clk.stopped.foldl State.resumeFn s.relocked).clk with
        stopped := [], softwareSwitch := false } } : State).seek
    else s.relocked) :=
  congrArg Host.Outcome.next (if_pos h)

/-- R52: a request that is refused shows its source and the reason. -/
def State.refuseSource (s : State) (n reason : Nat) : State := ((s.putFld F.CLK_SRCSEL_REQ n).switchRefused reason).anyEvent 0x02 3

theorem State.Canon.refuseSource_shows (h : s.Canon) (n reason : Nat) : (s.refuseSource n reason).flag F.CLK_FLAGS_SW_REFUSED = true ∧
    (s.refuseSource n reason).fld F.CLK_FLAGS_REFUSE_REASON = reason % 4 ∧ (s.refuseSource n reason).active = s.active := by
  obtain ⟨hflag, hreason⟩ := (h.putFld (f := F.CLK_SRCSEL_REQ) (n := n) (i := 0) (j := 0)).switchRefused_shows reason
  refine ⟨?_, ?_, ?_⟩
  · rw [← hflag]
    simp [State.refuseSource, State.flag, h.putFld.switchRefused]
  · rw [← hreason]
    simp [State.refuseSource, h.putFld.switchRefused]
  · simp [State.refuseSource, State.active, State.Canon.fld_switchRefused, h, h.putFld.switchRefused]

theorem State.requestSource_busy {n : Nat} (hn : n ≠ 3) (h : s.flag F.CLK_STATUS_SWITCHING = true) :
    s.requestSource n = s.refuseSource n 2 := by
  unfold State.requestSource
  rw [if_neg hn, if_pos h, State.refuseSource]

theorem State.requestSource_unready {n : Nat} (hn : n ≠ 3) (h : s.flag F.CLK_STATUS_SWITCHING = false) (hr : s.srcReady n = false) :
    s.requestSource n = s.refuseSource n 1 := by
  unfold State.requestSource
  rw [if_neg hn, if_neg (ne_true_of_eq_false h), if_pos hr, State.refuseSource]

/-- R52: a request for REFCLK or the network source that is READY switches to it. -/
theorem State.requestSource_taken {n : Nat} (hn : n ≠ 3) (h : s.flag F.CLK_STATUS_SWITCHING = false) (hr : s.srcReady n = true) (h2 : n ≠ 2) :
    s.requestSource n = (s.putFld F.CLK_SRCSEL_REQ n).switchSource n true := by
  unfold State.requestSource
  rw [if_neg hn, if_neg (ne_true_of_eq_false h), if_neg (ne_false_of_eq_true hr), if_neg (fun e => h2 e.1)]

/-- R51: a switch shows its source at once, with the PLL unlocked. -/
theorem State.Canon.switchSource_shows (h : s.Canon) {n : Nat} (hn : n < 4) (b : Bool) : (s.switchSource n b).active = n ∧
    (s.switchSource n b).flag F.CLK_STATUS_SWITCHING = true ∧ (s.switchSource n b).flag F.CLK_STATUS_PLL_LOCK = false := by
  simp [State.switchSource, State.active, State.flag, h, h.putFld.putFld, Nat.mod_eq_of_lt hn]

end

/-- Settles O6: each command's next state is named, then its fields are read. -/
theorem clockCommands : Obligations.ClockCommands := by
  refine ⟨fun s m hm hd => ⟨fun he => ?_, fun he => ?_⟩,
    fun s (h : s.Canon) he hr => ⟨_, execNetrefReady_qualified he hr, ?_, ?_, ?_, rfl, rfl⟩, fun s (h : s.Canon) hsw => ?_,
    fun s w (h : s.Canon) hp hg hn => ?_, fun s w (h : s.Canon) hp hg ha => ?_⟩
  · exact (execClockMonitorTrip_monitored hm hd).trans (by rw [if_pos he])
  · exact (execClockMonitorTrip_monitored hm hd).trans (by rw [if_neg he])
  · simp [State.srcReady, State.flag, h]
  · simp [h]
  · simp [State.active, h]
  · obtain ⟨hswitching, hlock, hactive⟩ := h.relocked_flds
    refine ⟨s.relocked, rfl, hswitching, hlock, hactive, fun h2 => ?_, fun h2 hs => ?_, fun h2 hs => ⟨_, rfl, ?_⟩⟩
    · exact (execPllRelock_switching hsw).trans (by rw [if_pos (hactive.trans h2)])
    · exact (execPllRelock_switching hsw).trans (by rw [if_neg (hactive ▸ h2), if_neg (ne_true_of_eq_false hs)])
    · exact (execPllRelock_switching hsw).trans (by rw [if_neg (hactive ▸ h2), if_pos hs])
  · have hx : exec (.clkSrcselReq w) s = .next (s.requestSource (w.value % 4)).accessed :=
      congrArg Host.Outcome.next (State.regWrite_allowed _ hp hg)
    refine ⟨fun hs => ⟨_, hx, ?_⟩, fun hs hr => ⟨_, hx, ?_⟩, fun hs hr h2 => ⟨_, hx, ?_⟩⟩ <;>
      simp only [State.accessed_fld, State.accessed_flag, State.accessed_active]
    · rw [State.requestSource_busy hn hs]
      exact h.refuseSource_shows _ 2
    · rw [State.requestSource_unready hn hs hr]
      exact h.refuseSource_shows _ 1
    · obtain ⟨hactive, hswitching, hlock⟩ := (h.putFld (f := F.CLK_SRCSEL_REQ) (n := w.value % 4) (i := 0) (j := 0)).switchSource_shows
        (Nat.mod_lt w.value (by decide)) true
      rw [State.requestSource_taken hn hs hr h2]
      refine ⟨?_, hactive, hswitching, hlock, rfl, rfl⟩
      simp [State.switchSource, h, h.putFld.putFld]
  · obtain ⟨-, hreason, hwindow, hsel, -, hen⟩ := h.writeNetref_active_flds w.value ha
    exact ⟨_, congrArg Host.Outcome.next (State.regWrite_allowed _ hp hg), hwindow, hreason, hen, hsel⟩

end Sys2Proof.Machine

namespace Sys2Proof.Machine

/-! Clock gates (R56, R58). -/

/-- A sum of powers of two with rising exponents has those bits. -/
theorem testBit_foldl_two_pow {l : List Nat} (hl : l.SortedLT) (i : Nat) : (l.foldl (fun m n => m + 2 ^ n) 0).testBit i = true ↔ i ∈ l := by
  have hs : l.foldl (fun m n => m + 2 ^ n) 0 = (l.map (fun n => 2 ^ n)).sum := by
    rw [List.sum_eq_foldl, List.foldl_map]
  rw [hs, ← Nat.mem_bitIndices, Nat.bitIndices_sum_map_two_pow hl]

/-- The gates that a write of ask would close and that must stay open. -/
def State.keptGates (s : State) (k ask : Nat) : List Nat :=
  (List.range 17).filter (fun n => (s.reg (gateReg k)).testBit n && !ask.testBit n && !s.mayGate k n)

theorem State.mem_keptGates {s : State} {k ask n : Nat} : n ∈ s.keptGates k ask ↔
    n < 17 ∧ (s.reg (gateReg k)).testBit n = true ∧ ask.testBit n = false ∧ s.mayGate k n = false := by
  simp [State.keptGates, and_assoc]

theorem State.keptGates_sorted (s : State) (k ask : Nat) : (s.keptGates k ask).SortedLT :=
  (List.pairwise_lt_range.filter _).sortedLT

theorem gateReg_ne_flags (k : Nat) : gateReg k ≠ .CLK_FLAGS := by
  unfold gateReg
  split_ifs <;> decide

theorem gateMask_lt (k : Nat) : gateMask k < 2 ^ 64 := by
  unfold gateMask
  split_ifs <;> decide

section
variable {s : State} {k v ask : Nat} (ha : ask = (v ||| gateFixed k) &&& gateMask k)
include ha

/-- R58: where no gate must stay open the register takes what is asked for. -/
theorem State.writeGate_taken (h : s.keptGates k ask = []) : s.writeGate k v = s.setReg (gateReg k) ask := by
  subst ha
  have hk : (s.keptGates k ((v ||| gateFixed k) &&& gateMask k)).foldl (fun m n => m + 2 ^ n) 0 = 0 := by rw [h]; rfl
  exact (if_pos hk).trans (by rw [← State.keptGates, h, List.foldl_nil, Nat.or_zero])

/-- R58: a gate that must stay open does, and GATE_REFUSED says that one did. -/
theorem State.writeGate_refused {n : Nat} (h : n ∈ s.keptGates k ask) : ∃ m, m.testBit n = true ∧
    s.writeGate k v = (s.setReg (gateReg k) (ask ||| m)).setFlag F.CLK_FLAGS_GATE_REFUSED := by
  subst ha
  have hm := (testBit_foldl_two_pow (s.keptGates_sorted k _) n).2 h
  refine ⟨_, hm, if_neg (fun e => ?_)⟩
  rw [State.keptGates, e, Nat.zero_testBit] at hm
  cases hm

end

/-! Reads of gated blocks (R57). -/

section
variable {s : State} {a i : Nat} (ha : a % 4 = 0) (hb : s.blockHere a = true) (hr : (s.readAt a i).1 = true)
include ha hb hr

theorem execGatedRead_admitted : execGatedRead a i s = .next (if (blockOf a).any s.gated = true then
      { s.gatedRead i a with busError := false, readValue := 0 }
    else { (s.readAt a i).2.2.2 with busError := false, readValue := (s.readAt a i).2.2.1 }) :=
  congrArg Host.Outcome.next (if_neg (by simp [ha, hb, hr]))

end

/-- R57: a first gated read records its initiator. -/
theorem State.gatedRead_first {s : State} (i a : Nat) (h : s.flag F.CLK_FLAGS_GATED_READ = false) :
    s.gatedRead i a = ((s.setFlag F.CLK_FLAGS_GATED_READ).putFld F.CLK_FLAGS_GATED_INIT i).emit 0x02 0x0005 i a (iInst i) := by
  unfold State.gatedRead
  rw [if_neg (ne_true_of_eq_false h)]

/-- R57: a further one is counted in GATED_MULTI. -/
theorem State.gatedRead_more {s : State} (i a : Nat) (h : s.flag F.CLK_FLAGS_GATED_READ = true) :
    s.gatedRead i a = (s.setFlag F.CLK_FLAGS_GATED_MULTI).emit 0x02 0x0005 i a (iInst i) := by
  unfold State.gatedRead
  rw [if_pos h]

theorem State.Canon.gatedRead_shows {s : State} (h : s.Canon) (i a : Nat) : (s.gatedRead i a).flag F.CLK_FLAGS_GATED_READ = true ∧
    (s.flag F.CLK_FLAGS_GATED_READ = false → (s.gatedRead i a).fld F.CLK_FLAGS_GATED_INIT = i % 2 ^ 10) ∧
    (s.flag F.CLK_FLAGS_GATED_READ = true → (s.gatedRead i a).flag F.CLK_FLAGS_GATED_MULTI = true ∧
      (s.gatedRead i a).fld F.CLK_FLAGS_GATED_INIT = s.fld F.CLK_FLAGS_GATED_INIT) := by
  cases hf : s.flag F.CLK_FLAGS_GATED_READ with
  | false =>
    rw [State.gatedRead_first i a hf]
    simp [State.flag, State.setFlag, h, h.putFld.putFld]
  | true =>
    rw [State.gatedRead_more i a hf]
    rw [State.flag_iff] at hf
    simp [State.flag, State.setFlag, h, hf]

/-! Sensor clocks (R59, R60). -/

section
variable {s : State} {n v : Nat}

theorem State.Canon.putSensctl_flds (h : s.Canon) : (s.putSensctl n v).fld F.CLK_SENSCTL_DEPTH n = bitsOf v 20 16 ∧
    (s.putSensctl n v).fld F.CLK_SENSCTL_RATE_KHZ n = bitsOf v 6 0 ∧
    (s.putSensctl n v).fld F.CLK_SENSFREQ_FREQ_HZ n = s.fld F.CLK_SENSFREQ_FREQ_HZ n := by
  simp [State.putSensctl, h, bitsOf]

/-- R59: whether the values that a write gives are in range. -/
theorem State.Canon.putSensctl_senseOk (h : s.Canon) : (s.putSensctl n v).senseOk n = true ↔
    6000000 ≤ s.fld F.CLK_SENSFREQ_FREQ_HZ n ∧ s.fld F.CLK_SENSFREQ_FREQ_HZ n ≤ 54000000 ∧ bitsOf v 20 16 ≤ 20 ∧
      10 ≤ bitsOf v 6 0 ∧ bitsOf v 6 0 ≤ 100 := by
  obtain ⟨hdepth, hrate, hfreq⟩ := h.putSensctl_flds (n := n) (v := v)
  rw [State.senseOk, hdepth, hrate, hfreq, decide_eq_true_iff]

theorem State.writeSensctl_running (h : s.flag F.CLK_SENSCTL_EN n = true) :
    s.writeSensctl n v = if v.testBit 31 = true then s else (s.putFld F.CLK_SENSCTL_EN 0 n).senseOut n false := if_pos h

theorem State.writeSensctl_stopped (h : s.flag F.CLK_SENSCTL_EN n = false) :
    s.writeSensctl n v = if v.testBit 31 = false then s.putSensctl n v
      else if (s.putSensctl n v).senseOk n = true then ((s.putSensctl n v).setFlag F.CLK_SENSCTL_EN n).senseOut n true
      else (s.putSensctl n v).setFlag F.CLK_FLAGS_SENSCLK_RANGE := if_neg (ne_true_of_eq_false h)

end

/-- Settles O7: gates by whether one must stay open, reads by whether the block is gated, sensor clocks by whether they run. -/
theorem gateCommands : Obligations.GateCommands := by
  refine ⟨fun s k w ask (h : s.Canon) hk hp hg ha => ⟨fun hopen => ?_, fun n hn hold hask hmay => ?_⟩,
    fun s a i ha hb hr => ⟨fun hg => ?_, fun hg => ?_⟩, fun s a i h => execGatedRead_refused h,
    fun s i a (h : s.Canon) => ⟨_, rfl, h.gatedRead_shows i a⟩, fun s n w (h : s.Canon) hn hd hg => ?_⟩
  · have hnone : s.keptGates k ask = [] := by
      refine List.eq_nil_iff_forall_not_mem.2 (fun n hn => ?_)
      obtain ⟨hlt, hold, hask, hmay⟩ := State.mem_keptGates.1 hn
      simpa [hask, hmay] using hopen n hlt hold
    refine ⟨_, congrArg Host.Outcome.next (State.regWrite_allowed _ hp hg), ?_⟩
    rw [State.writeGate_taken ha hnone]
    refine ⟨?_, ?_, rfl, rfl⟩
    · exact (State.reg_setReg_same _ _ _ _ h).trans (Nat.mod_eq_of_lt (ha ▸ Nat.and_le_right.trans_lt (gateMask_lt k)))
    · exact State.flag_congr (State.word_setReg_other _ h (gateReg_ne_flags k).symm)
  · obtain ⟨m, hm, hx⟩ := State.writeGate_refused ha (State.mem_keptGates.2 ⟨hn, hold, hask, hmay⟩)
    refine ⟨_, congrArg Host.Outcome.next (State.regWrite_allowed _ hp hg), ?_⟩
    rw [hx]
    refine ⟨?_, ?_, rfl, rfl⟩
    · have hreg := (State.reg_putFld_other F.CLK_FLAGS_GATE_REFUSED (gateReg k) 1 0 0 0 0 (h.setReg (r := gateReg k) (n := ask ||| m)
        (i := 0) (j := 0)) (fun e => gateReg_ne_flags k e.1)).trans (State.reg_setReg_same _ _ _ _ h)
      refine (congrArg (Nat.testBit · n) hreg).trans ?_
      rw [Nat.testBit_mod_two_pow, Nat.testBit_or, hm, Bool.or_true, Bool.and_true, decide_eq_true_iff]
      omega
    · simp [State.flag, State.setFlag, h]
  · exact (execGatedRead_admitted ha hb hr).trans (by rw [if_pos hg])
  · exact (execGatedRead_admitted ha hb hr).trans (by rw [if_neg (ne_true_of_eq_false hg)])
  · have hx : exec (.sensclkEnable n w) s = .next (s.writeSensctl n w.value).accessed :=
      congrArg Host.Outcome.next (State.regWrite_allowed _ (by simp [hn, hd]) hg)
    obtain ⟨hdepth, hrate, -⟩ := h.putSensctl_flds (n := n) (v := w.value)
    have hok := h.putSensctl_senseOk (n := n) (v := w.value)
    refine ⟨fun he hv => ?_, fun he hv => ?_, fun he => ⟨s.putSensctl n w.value, rfl, hdepth, hrate, fun hv => ?_,
      fun hv h1 h2 h3 h4 h5 => ?_, fun hv hr => ?_⟩⟩
    · rw [hx, State.writeSensctl_running he, if_neg (ne_true_of_eq_false hv)]
    · rw [hx, State.writeSensctl_running he, if_pos hv]
    · rw [hx, State.writeSensctl_stopped he, if_pos hv]
    · rw [hx, State.writeSensctl_stopped he, if_neg (ne_false_of_eq_true hv), if_pos (hok.2 ⟨h1, h2, h3, h4, h5⟩)]
    · rw [hx, State.writeSensctl_stopped he, if_neg (ne_false_of_eq_true hv), if_neg (fun e => ?_)]
      have := hok.1 e
      omega

end Sys2Proof.Machine

namespace Sys2Proof.Machine

/-! Power (R61 to R64, R69 to R74). -/

section
variable {s : State}

/-- R61, R62: with power management running a step acts on a reading, on the estimate, or on the readings kept. -/
theorem execPowerManagerStep_running (e : Nat) (h : s.fld F.PWR_STATUS_CORE_DIV ≠ 0) :
    (∀ r, execPowerManagerStep (some r) e s = .next (((s.putFld F.PWR_STATUS_PMBUS_LOST 0).takeReading r).powerAct)) ∧
    execPowerManagerStep none e s = .next (if s.flag F.PWR_STATUS_PMBUS_LOST = true then (s.takeReading e).powerAct else s.powerAct) :=
  ⟨fun _ => congrArg Host.Outcome.next (if_neg h), congrArg Host.Outcome.next (if_neg h)⟩

theorem State.Canon.statusEvent_shows (h : s.Canon) {f e : Fld} (hf : f.reg = .PWR_STATUS) (he : e.reg = .PWR_EVENTS) (hw : f.hi < 64)
    (hl : f.lo ≤ f.hi) (hb : e.hi = e.lo) (hb' : e.lo < 64) (n code : Nat) :
    (s.statusEvent f n e code).fld f = n % 2 ^ (f.hi + 1 - f.lo) ∧ (s.statusEvent f n e code).flag e = true := by
  simp [State.statusEvent, State.flag, State.setFlag, h, h.putFld.putFld, hf, he, hw, hl, hb, hb']

theorem execPmbusLost_first (h : s.flag F.PWR_STATUS_PMBUS_LOST = false) :
    execPmbusLost s = .next (s.statusEvent F.PWR_STATUS_PMBUS_LOST 1 F.PWR_EVENTS_PMBUS_LOST 4) :=
  congrArg Host.Outcome.next (if_neg (ne_true_of_eq_false h))

theorem execPwrCapUnmet_first (ho : 100 ≤ s.clk.overMs) (hc : s.fld F.PWR_STATUS_CAP_STATE ≠ 2) :
    execPwrCapUnmet s = .next (s.statusEvent F.PWR_STATUS_CAP_STATE 2 F.PWR_EVENTS_CAP_UNMET 2) :=
  congrArg Host.Outcome.next (if_pos ⟨ho, hc⟩)

theorem execLoadBandWindow_running (busy : Nat) (h : s.fld F.PWR_STATUS_CORE_DIV ≠ 0) : execLoadBandWindow busy s = .next (
    if ((s.loadWindow (loadBand busy)).fld F.PWR_VCORE_TARGET_MV : Int) < (s.loadWindow (loadBand busy)).wantMv
    then (s.loadWindow (loadBand busy)).aim else s.loadWindow (loadBand busy)) :=
  congrArg Host.Outcome.next (if_neg h)

theorem execBandMeasured_resident {b : Nat} (o tj : Nat) (hb : b < 4) (hm : s.flag F.PWR_BAND_MEASURED b = false)
    (hr : 2000 ≤ s.clk.bandUs.getD b 0) : execBandMeasured b o tj s =
      .next (((s.setReg .PWR_BAND (2 ^ 31 + o % 256 * 256 + tj % 256) b).coolBands (8 * signedOf 8 tj)).showGuard.aim) :=
  congrArg Host.Outcome.next (if_pos ⟨hb, hm, hr⟩)

theorem execAvsLower_running (h : s.fld F.PWR_STATUS_CORE_DIV ≠ 0) : execAvsLower s = .next s.aim :=
  congrArg Host.Outcome.next (if_neg h)

theorem execDroopDetect_below {mv : Nat} (h : s.fld F.PWR_DROOP_CFG_THRESH_MV < mv) :
    execDroopDetect mv s = .next { s with clk := { s.clk with droop := true } } :=
  congrArg Host.Outcome.next (if_pos h)

theorem execDroopRecovery_droop (n : Nat) (h : s.clk.droop = true) :
    execDroopRecovery n s = .next ((s.droopOver n).addCycles (s.clk.inDroop - n)) :=
  congrArg Host.Outcome.next (if_pos h)

/-- The cycles counted at a droop's end show in VIS alone. -/
theorem State.droopOver_addCycles (h : s.regsWf) (n c : Nat) : Within [.VIS] (s.droopOver n) ((s.droopOver n).addCycles c) :=
  have hw : Within [.VIS] (s.droopOver n) (s.droopOver n) := .refl (State.setReg_regsWf h)
  hw.addCycles (by decide)

/-- Counting cycles leaves whether the supply droops. -/
@[simp] theorem State.addCycles_droop (n : Nat) : (s.addCycles n).clk.droop = s.clk.droop := by
  refine foldl_inv (P := fun t : State => t.clk.droop = s.clk.droop) (fun t k ht => ?_) rfl
  cases k.unit <;> exact ht

end

section
variable {s : State} (n tj : Nat)

theorem execThermalThrottle_hot
    (h : 8 * (s.fld F.PWR_TLIMITS_THROTTLE_C : Int) ≤ signedOf 12 tj ∨
      (s.flag F.PWR_STATUS_THROTTLE = true ∧ 8 * (s.fld F.PWR_TLIMITS_THROTTLE_C : Int) - 24 ≤ signedOf 12 tj)) :
    execThermalThrottle n tj s = .next (if s.flag F.PWR_STATUS_THROTTLE = true then (s.showTemp n tj).lowerCap
      else ((((s.showTemp n tj).lowerCap.putFld F.PWR_STATUS_THROTTLE 1).setFlag F.PWR_EVENTS_THROTTLE).setFlag
        F.GLK_TBREAK_THROTTLE).anyEvent 0x03 5) :=
  congrArg Host.Outcome.next (if_pos h)

theorem execThermalThrottle_cool
    (h : ¬(8 * (s.fld F.PWR_TLIMITS_THROTTLE_C : Int) ≤ signedOf 12 tj ∨
      (s.flag F.PWR_STATUS_THROTTLE = true ∧ 8 * (s.fld F.PWR_TLIMITS_THROTTLE_C : Int) - 24 ≤ signedOf 12 tj))) :
    execThermalThrottle n tj s = .next { (s.showTemp n tj).putFld F.PWR_STATUS_THROTTLE 0 with clk := { (s.showTemp n tj).clk with
      capDw := if s.flag F.PWR_STATUS_THROTTLE = true then 10 * s.fld F.PWR_PROFILE_CAP_W else (s.showTemp n tj).clk.capDw } } :=
  congrArg Host.Outcome.next (if_neg h)

end

/-- Settles O8: each command on the path that its conditions choose. -/
theorem powerCommands : Obligations.PowerCommands := by
  refine ⟨fun s e h => ?_, fun s (h : s.Canon) hl => ⟨_, execPmbusLost_first hl, ?_⟩, fun s (h : s.Canon) ho hc =>
    ⟨_, execPwrCapUnmet_first ho hc, ?_⟩, fun s busy h => ⟨s.loadWindow (loadBand busy), rfl, fun hlt => ?_, fun hle => ?_⟩,
    fun s b o tj hb hm hr => execBandMeasured_resident o tj hb hm hr, fun s h => execAvsLower_running h,
    fun s w hp hg => congrArg Host.Outcome.next (State.regWrite_allowed _ hp hg),
    fun s mv h => ⟨_, execDroopDetect_below h, rfl, rfl, rfl⟩, fun s n hw hd => ⟨_, execDroopRecovery_droop n hd, ?_, ?_, ?_⟩,
    fun s t n tj limit hlim ht => ?_⟩
  · obtain ⟨hread, hkeep⟩ := execPowerManagerStep_running e h
    exact ⟨hread, fun hl => hkeep.trans (by rw [if_pos hl]), fun hl => hkeep.trans (by rw [if_neg (ne_true_of_eq_false hl)])⟩
  · obtain ⟨hstatus, hevent⟩ := h.statusEvent_shows (f := F.PWR_STATUS_PMBUS_LOST) (e := F.PWR_EVENTS_PMBUS_LOST) rfl rfl (by decide)
      (by decide) rfl (by decide) 1 4
    exact ⟨State.flag_iff.2 (by rw [hstatus]; decide), hevent, by simp [State.statusEvent, State.setFlag], by
      simp [State.statusEvent, State.setFlag]⟩
  · obtain ⟨hstatus, hevent⟩ := h.statusEvent_shows (f := F.PWR_STATUS_CAP_STATE) (e := F.PWR_EVENTS_CAP_UNMET) rfl rfl (by decide)
      (by decide) rfl (by decide) 2 2
    exact ⟨hstatus, hevent, by simp [State.statusEvent, State.setFlag], by simp [State.statusEvent, State.setFlag]⟩
  · exact (execLoadBandWindow_running busy h).trans (by rw [if_pos hlt])
  · exact (execLoadBandWindow_running busy h).trans (by rw [if_neg (Int.not_lt.2 hle)])
  · rw [State.addCycles_droop]
    rfl
  · obtain ⟨-, -, -, -, hword⟩ := State.droopOver_addCycles hw n (s.clk.inDroop - n)
    refine (congrArg BitVec.toNat (hword .PWR_DROOP_SKIPS 0 0 (by decide))).trans ?_
    exact (State.reg_setReg_same _ _ _ _ hw).trans (Nat.mod_mod _ _)
  · obtain ⟨-, hmem, -, -, -⟩ := State.droopOver_addCycles hw n (s.clk.inDroop - n)
    exact hmem
  · subst hlim ht
    refine ⟨fun hf hle => ?_, fun hf hle => ?_, fun hf hlt => ?_, fun hf hlt => ?_⟩
    · exact (execThermalThrottle_hot n tj (.inr ⟨hf, hle⟩)).trans (by rw [if_pos hf, State.lowerCap])
    · exact (execThermalThrottle_hot n tj (.inl hle)).trans (by rw [if_neg (ne_true_of_eq_false hf), State.lowerCap])
    · exact (execThermalThrottle_cool n tj (by rw [hf]; omega)).trans (by rw [if_pos hf])
    · exact (execThermalThrottle_cool n tj (by rw [hf]; simpa using hlt)).trans (by rw [if_neg (ne_true_of_eq_false hf)]; rfl)

end Sys2Proof.Machine

namespace Sys2Proof.Machine

/-! A packet's bytes read back (R78, R79). -/

section
variable {m n k off v : Nat} {l : List Byte}

/-- Numbers that stand side by side are one number. -/
theorem toLe_append (w : Nat) (hv : v < 256 ^ m) : toLe m v ++ toLe n w = toLe (m + n) (v + 256 ^ m * w) := by
  induction m generalizing v with
  | zero =>
    obtain rfl : v = 0 := by simpa using hv
    simp [toLe]
  | succ m ih =>
    have hw : v + 256 ^ (m + 1) * w = v + 256 * (256 ^ m * w) := by ring
    have hb : BitVec.ofNat 8 (v + 256 * (256 ^ m * w)) = BitVec.ofNat 8 v := BitVec.eq_of_toNat_eq (by simp)
    have ih := ih (v := v / 256) (by omega)
    rw [show m + 1 + n = m + n + 1 by omega]
    simp only [toLe, List.cons_append, ih, hw, hb, Nat.add_mul_div_left _ _ (show 0 < 256 by decide)]

/-- A number that fits its bytes, at the front of a list. -/
theorem leAt_front (hv : v < 256 ^ n) : leAt (toLe n v ++ l) 0 n = v :=
  (leAt_mid (pre := []) rfl).trans (Nat.mod_eq_of_lt hv)

/-- What lies behind the front of a list. -/
theorem drop_behind {pre : List Byte} (h : pre.length ≤ off) : (pre ++ l).drop off = l.drop (off - pre.length) := by
  rw [List.drop_append, List.drop_eq_nil_of_le h, List.nil_append]

theorem bytesAt_behind {pre : List Byte} (h : pre.length ≤ off) : bytesAt (pre ++ l) off n = bytesAt l (off - pre.length) n :=
  congrArg (List.take n) (drop_behind h)

theorem bytesAt_behind_toLe (h : m ≤ off) : bytesAt (toLe m v ++ l) off n = bytesAt l (off - m) n := by
  rw [bytesAt_behind (by simpa using h), toLe_length]

theorem leAt_behind_toLe (h : m ≤ off) : leAt (toLe m v ++ l) off n = leAt l (off - m) n := congrArg leNat (bytesAt_behind_toLe h)

end

/-- R78: a well-formed packet's bytes are its words of Table CMDQ-1, its payload, its trailer and 28 bytes of zero. -/
theorem ringBytes_eq {o : Opcode} {p : Packet} (h : p.wf = true) (hc : o.cls < 2 ^ 8) (hn : o.code < 2 ^ 16) :
    ringBytes o p = toLe 4 (2 ^ 16 * o.code + o.cls * 2 ^ 8 + p.version) ++
      (toLe 4 (2 ^ 26 * p.partition + 2 ^ 20 * p.sigInc + p.destDev) ++ (toLe 4 (2 ^ 19 * p.queue + p.plen * 2 ^ 8 + p.flags) ++
      (toLe 4 p.seq ++ (toLe 8 p.target ++ (toLe 4 (2 ^ 16 * p.sigCtr + p.waitCtr) ++ (toLe 4 (2 ^ 16 * p.hcrc + p.waitVal) ++
      (p.payload ++ (toLe 4 p.trailer ++ List.replicate 28 0)))))))) := by
  simp only [Packet.wf, Bool.and_eq_true, decide_eq_true_eq] at h
  have hlast : toLe 2 p.waitVal ++ toLe 2 p.hcrc = toLe 4 (2 ^ 16 * p.hcrc + p.waitVal) :=
    (toLe_append p.hcrc (by omega)).trans (congrArg (toLe 4) (Nat.add_comm ..))
  have hplen : p.plen % 2 ^ 11 = p.plen := Nat.mod_eq_of_lt (by omega)
  simp only [ringBytes, headerBytes, List.append_assoc, Nat.mod_eq_of_lt, hplen, hc, hn, h, ← hlast]

/-- R79: a packet's slots hold nothing but zeros behind its trailer. -/
theorem ringBytes_drop (o : Opcode) {p : Packet} (h : p.payload.length = 32 * p.plen) :
    (ringBytes o p).drop (36 + 32 * p.plen) = List.replicate 28 0 := by
  have hfront : (headerBytes o p ++ toLe 2 p.hcrc ++ p.payload ++ toLe 4 p.trailer).length = 36 + 32 * p.plen := by
    simp [headerBytes, h]; omega
  rw [ringBytes, ← hfront, List.drop_left]

/-- Settles O45: each word is read back whole, its fields are its digits, and PLEN says where payload and trailer lie. -/
theorem packetBytesRoundTrip : Obligations.PacketBytesRoundTrip := by
  intro o p h hc hn
  have hb := ringBytes_eq h hc hn
  simp only [Packet.wf, Bool.and_eq_true, decide_eq_true_eq] at h
  have hpay : p.payload.length = 32 * p.plen := by omega
  have h0 : (2 ^ 16 * o.code + o.cls * 2 ^ 8 + p.version) / 2 ^ 8 % 2 ^ 8 = o.cls ∧
      (2 ^ 16 * o.code + o.cls * 2 ^ 8 + p.version) / 2 ^ 16 = o.code ∧
      (2 ^ 16 * o.code + o.cls * 2 ^ 8 + p.version) % 2 ^ 8 = p.version := by omega
  have h4 : (2 ^ 26 * p.partition + 2 ^ 20 * p.sigInc + p.destDev) / 2 ^ 26 = p.partition ∧
      (2 ^ 26 * p.partition + 2 ^ 20 * p.sigInc + p.destDev) / 2 ^ 20 % 2 ^ 6 = p.sigInc ∧
      (2 ^ 26 * p.partition + 2 ^ 20 * p.sigInc + p.destDev) % 2 ^ 20 = p.destDev := by omega
  have h8 : (2 ^ 19 * p.queue + p.plen * 2 ^ 8 + p.flags) / 2 ^ 8 % 2 ^ 11 = p.plen ∧
      (2 ^ 19 * p.queue + p.plen * 2 ^ 8 + p.flags) / 2 ^ 19 = p.queue ∧
      (2 ^ 19 * p.queue + p.plen * 2 ^ 8 + p.flags) % 2 ^ 8 = p.flags := by omega
  have h18 : (2 ^ 16 * p.sigCtr + p.waitCtr) / 2 ^ 16 = p.sigCtr ∧ (2 ^ 16 * p.sigCtr + p.waitCtr) % 2 ^ 16 = p.waitCtr := by omega
  have h1C : (2 ^ 16 * p.hcrc + p.waitVal) / 2 ^ 16 = p.hcrc ∧ (2 ^ 16 * p.hcrc + p.waitVal) % 2 ^ 16 = p.waitVal := by omega
  have hplen : leAt (ringBytes o p) 8 4 / 2 ^ 8 % 2 ^ 11 = p.plen := by
    rw [hb]
    simp (disch := omega) only [leAt_behind_toLe, leAt_front, Nat.reduceSub, h8]
  have hlen : (ringBytes o p).length = 64 + 32 * p.plen := by simp [hb, hpay]; omega
  have hpayload : bytesAt (p.payload ++ (toLe 4 p.trailer ++ List.replicate 28 0)) 0 (32 * p.plen) = p.payload :=
    bytesAt_mid (pre := []) rfl hpay
  have htrailer : leAt (p.payload ++ (toLe 4 p.trailer ++ List.replicate 28 0)) (32 + 32 * p.plen - 32) 4 = p.trailer :=
    (leAt_mid (by omega)).trans (Nat.mod_eq_of_lt (by omega))
  unfold decodePacket
  rw [if_pos (by rw [hplen, ringBytes_drop o hpay]; exact ⟨hlen, by omega, by decide⟩), hplen, hb]
  simp (disch := omega) only [leAt_behind_toLe, bytesAt_behind_toLe, leAt_front, Nat.reduceSub, Nat.sub_self, Nat.sub_sub, Nat.reduceAdd,
    h0, h4, h8, h18, h1C, hpayload, htrailer]

end Sys2Proof.Machine

namespace Sys2Proof.Machine

/-! Signals of sync counters (R107, R108, R111, R270, R438). -/

/-- From o on the registers that K names read as before, flash and the package are the same, and the register file is canonical. -/
structure Spares (K : Reg → Bool) (o t : State) : Prop where
  wf : t.regsWf
  flash : t.flash = o.flash
  chip : t.chip = o.chip
  word : ∀ r i j, K r = true → t.word r i j = o.word r i j

namespace Spares

variable {K : Reg → Bool} {o t : State}

protected theorem refl (h : o.regsWf) : Spares K o o := ⟨h, rfl, rfl, fun _ _ _ _ => rfl⟩

theorem trans {u : State} (h : Spares K o t) (g : Spares K t u) : Spares K o u :=
  ⟨g.wf, g.flash.trans h.flash, g.chip.trans h.chip, fun r i j hr => (g.word r i j hr).trans (h.word r i j hr)⟩

/-- What is no register, flash or package may change. -/
theorem congr {u : State} (h : Spares K o t) (hr : u.regs = t.regs) (hf : u.flash = t.flash) (hc : u.chip = t.chip) : Spares K o u :=
  ⟨by rw [State.regsWf, hr]; exact h.wf, hf.trans h.flash, hc.trans h.chip,
    fun r i j e => (State.word_congr hr r i j).trans (h.word r i j e)⟩

theorem ite {c : Prop} [Decidable c] {u : State} (h : Spares K o t) (g : Spares K o u) : Spares K o (if c then t else u) := by
  split <;> assumption

theorem foldl {α : Type} {l : List α} {g : State → α → State} (hg : ∀ u x, Spares K o u → Spares K o (g u x)) (h : Spares K o t) :
    Spares K o (l.foldl g t) := foldl_inv hg h

theorem setReg {r : Reg} {n i j : Nat} (h : Spares K o t) (hr : K r = false) : Spares K o (t.setReg r n i j) :=
  h.trans ⟨State.setReg_regsWf h.wf, rfl, rfl, fun _ _ _ hq => State.word_setReg_other _ h.wf (by rintro rfl; simp [hr] at hq)⟩

theorem putFld {f : Fld} {n i j : Nat} (h : Spares K o t) (hf : K f.reg = false) : Spares K o (t.putFld f n i j) :=
  h.trans ⟨State.putFld_regsWf h.wf, rfl, rfl, fun _ _ _ hq => State.word_putFld_other _ h.wf (by rintro rfl; simp [hf] at hq)⟩

theorem setFlag {f : Fld} {i j : Nat} (h : Spares K o t) (hf : K f.reg = false) : Spares K o (t.setFlag f i j) := h.putFld hf

/-- An interrupt shows in SYS_IRQLOST alone. -/
theorem raise {v d p : Nat} {fn : Option Nat} (h : Spares K o t) (hl : K .SYS_IRQLOST = false) : Spares K o (t.raise v d p fn) :=
  h.trans ⟨State.raise_regsWf h.wf, by simp, by simp, fun r i j hr => State.word_raise r i j h.wf (by rintro rfl; simp [hl] at hr)⟩

theorem writeBytes {a : Nat} {bs : List Byte} (h : Spares K o t) : Spares K o (t.writeBytes a bs) := h.congr (by simp) (by simp) (by simp)

theorem keyed {i : Nat} (h : Spares K o t) : Spares K o (t.keyed i) := h.congr rfl rfl rfl

theorem owe {c : Instr} (h : Spares K o t) : Spares K o (t.owe c) := h.congr rfl rfl rfl

theorem setKernel {k : Kernel} (h : Spares K o t) : Spares K o (t.setKernel k) := h.congr rfl rfl rfl

theorem markSignal {a b : Nat} (h : Spares K o t) : Spares K o (t.markSignal a b) := h.congr rfl rfl rfl

theorem meetSyncWaits {c : Nat} (h : Spares K o t) : Spares K o (t.meetSyncWaits c) := foldl (fun _ _ hu => hu.owe) (h.congr rfl rfl rfl)

theorem meetShortWaits {c : Nat} (h : Spares K o t) : Spares K o (t.meetShortWaits c) := h.congr rfl rfl rfl

theorem signalDogs {c : Nat} (h : Spares K o t) : Spares K o (t.signalDogs c) :=
  foldl (fun _ _ hu => ite (ite (ite hu.owe hu).owe (ite hu.owe hu)) hu) h

theorem fireWatch {k : Nat} (hw : K .SYNC_WATCHCFG = false) (hl : K .SYS_IRQLOST = false) (h : Spares K o t) : Spares K o (t.fireWatch k) :=
  ite (raise (setFlag (putFld h hw) hw) hl) h

theorem fireWatches {c : Nat} (hw : K .SYNC_WATCHCFG = false) (hl : K .SYS_IRQLOST = false) (h : Spares K o t) :
    Spares K o (t.fireWatches c) := foldl (fun _ _ hu => ite (hu.fireWatch hw hl) hu) h

theorem raiseOverflow {v p : Nat} (h : Spares K o t) : Spares K o (t.raiseOverflow v p) :=
  foldl (fun _ _ hu => hu.congr rfl rfl rfl) (h.congr rfl rfl rfl)

theorem toRing {k : Kernel} (h : Spares K o t) : Spares K o (t.toRing k) := by
  unfold State.toRing
  split
  next p base n vec _ => exact raiseOverflow ((h.keyed.writeBytes).congr rfl rfl rfl)
  next => exact h

theorem showBacklog (hb : K .VIS_BACKLOG = false) (h : Spares K o t) : Spares K o t.showBacklog := foldl (fun _ _ hu => hu.setReg hb) h

theorem raiseV {p c : Nat} (hv : K .ESC_VTIME = false) (h : Spares K o t) : Spares K o (t.raiseV p c) := by
  unfold State.raiseV
  refine ite h ?_
  split
  · exact ite (h.setReg hv) h
  · exact h

/-- A job that became ready shows in the counts of the overflow routing and the backlogs, where it does. -/
theorem assignPpe {k : Kernel} (hb : K .VIS_BACKLOG = false) (hc : K .VIS_OVCNT = false) (ht : K .GLK_TBREAK = false) (h : Spares K o t) :
    Spares K o (t.assignPpe k) := by
  unfold State.assignPpe
  split
  · exact h
  · exact ite (ite (toRing (setFlag (putFld h.setKernel hc) ht)) (showBacklog hb (putFld h.setKernel hc))) (showBacklog hb h.setKernel)

theorem makeReady {id : Nat} (hv : K .ESC_VTIME = false) (hb : K .VIS_BACKLOG = false) (hc : K .VIS_OVCNT = false) (ht : K .GLK_TBREAK = false)
    (h : Spares K o t) : Spares K o (t.makeReady id) := by
  unfold State.makeReady
  split
  · exact ite (assignPpe hb hc ht ((h.raiseV hv).congr rfl rfl rfl)) ((h.raiseV hv).congr rfl rfl rfl)
  · exact h

theorem readyKernels {c : Nat} (hv : K .ESC_VTIME = false) (hb : K .VIS_BACKLOG = false) (hc : K .VIS_OVCNT = false)
    (ht : K .GLK_TBREAK = false) (h : Spares K o t) : Spares K o (t.readyKernels c) :=
  foldl (fun _ _ hu => hu.markSignal.makeReady hv hb hc ht) h

end Spares

section
variable {s : State} {c n : Nat}

/-- SYNC_CTR and SYNC_STATUS. -/
def isCounter (r : Reg) : Bool := r == .SYNC_CTR || r == .SYNC_STATUS

/-- Behind its add, a signal leaves every counter and SYNC_STATUS. -/
theorem State.signal_spares (h : (s.bump c n).regsWf) : Spares isCounter (s.bump c n) (s.signal c n) := by
  have h0 : Spares isCounter (s.bump c n) (s.bump c n) := .refl h
  exact (((h0.meetSyncWaits.meetShortWaits).readyKernels rfl rfl rfl rfl).fireWatches rfl rfl).signalDogs

theorem State.bump_below (h : s.reg .SYNC_CTR c + n < 2 ^ 64) : s.bump c n = s.setReg .SYNC_CTR (s.reg .SYNC_CTR c + n) c := if_pos h

theorem State.bump_above (h : 2 ^ 64 ≤ s.reg .SYNC_CTR c + n) :
    s.bump c n = (s.setReg .SYNC_CTR (2 ^ 64 - 1) c).syncSaturated c := if_neg (Nat.not_lt.2 h)

theorem Spares.syncSaturated {K : Reg → Bool} {o : State} (hk : K .SYNC_STATUS = false) (h : Spares K o s) : Spares K o (s.syncSaturated c) :=
  setFlag (ite (putFld h hk) h) hk

/-- The add shows in the counter and in SYNC_STATUS. -/
theorem Spares.bump {K : Reg → Bool} {o : State} (hc : K .SYNC_CTR = false) (hk : K .SYNC_STATUS = false) (h : Spares K o s) :
    Spares K o (s.bump c n) := ite (h.setReg hc) (syncSaturated hk (h.setReg hc))

theorem State.syncSaturated_flag (h : s.regsWf) : (s.syncSaturated c).flag F.SYNC_STATUS_SATURATED = true := by
  have hf : (s.syncSaturated c).fld F.SYNC_STATUS_SATURATED = 1 := by
    unfold State.syncSaturated State.setFlag
    refine State.fld_putFld_same _ _ _ _ ?_ (by decide) (by decide)
    split
    · exact State.putFld_regsWf h
    · exact h
  simp [State.flag, hf]

/-- A saturation shows in SYNC_STATUS alone. -/
theorem State.reg_syncSaturated {r : Reg} {i j : Nat} (h : s.regsWf) (hr : r ≠ .SYNC_STATUS) :
    (s.syncSaturated c).reg r i j = s.reg r i j := by
  have h0 : Spares (fun r => r != .SYNC_STATUS) s s := .refl h
  exact congrArg BitVec.toNat ((h0.syncSaturated rfl).word r i j (by simpa using hr))

theorem State.reg_bump_other {d : Nat} (h : s.regsWf) (hd : d ≠ c) : (s.bump c n).reg .SYNC_CTR d = s.reg .SYNC_CTR d := by
  have hother : ∀ v, (s.setReg .SYNC_CTR v c).reg .SYNC_CTR d = s.reg .SYNC_CTR d := fun v =>
    State.reg_setReg_other _ _ _ _ _ _ _ h (by simp [hd])
  unfold State.bump
  dsimp only
  split
  · exact hother _
  · rw [State.reg_syncSaturated (State.setReg_regsWf h) (by decide), hother]

end

/-- Settles O54: the add (`State.bump`) puts the counter, and nothing that a signal does behind it reaches a counter or SYNC_STATUS. -/
theorem syncSignalsAdd : Obligations.SyncSignalsAdd := by
  intro s c n h
  have hbump : Spares (fun _ => false) s (s.bump c n) := .bump rfl rfl (.refl h)
  have hsig := State.signal_spares hbump.wf
  have hctr : ∀ d, (s.signal c n).reg .SYNC_CTR d = (s.bump c n).reg .SYNC_CTR d := fun d =>
    congrArg BitVec.toNat (hsig.word .SYNC_CTR d 0 rfl)
  refine ⟨_, rfl, fun hlt => ?_, fun hge => ?_, fun d hd => ?_, hsig.flash.trans hbump.flash, hsig.chip.trans hbump.chip⟩
  · rw [hctr, State.bump_below hlt, State.reg_setReg_same _ _ _ _ h, Nat.mod_eq_of_lt hlt]
  · have hwf : (s.setReg .SYNC_CTR (2 ^ 64 - 1) c).regsWf := State.setReg_regsWf h
    refine ⟨?_, (State.flag_congr (hsig.word .SYNC_STATUS 0 0 rfl)).trans ?_⟩
    · rw [hctr, State.bump_above hge, State.reg_syncSaturated hwf (by decide), State.reg_setReg_same _ _ _ _ h, Nat.mod_eq_of_lt (by decide)]
    · rw [State.bump_above hge]
      exact State.syncSaturated_flag hwf
  · rw [hctr, State.reg_bump_other h hd]

end Sys2Proof.Machine

namespace Sys2Proof.Machine

/-! The packets of class SYNC (R107, R108, R110). -/

section
variable {s : State} {p : Packet} (id : Nat)

/-- R110: what waits on a counter: a kernel, a held packet's short wait, a SYNC_WAIT, or an armed watch. -/
theorem State.waitedOn_iff {c : Nat} : s.waitedOn c = true ↔
    (∃ k ∈ s.esc.kernels, k.ready = none ∧ k.waitEn = true ∧ k.waitCtr = c) ∨
    (∃ h ∈ heldHeads s.cq.held [], pWaitEn h = true ∧ h.waitCtr = c ∧ h.queue ∉ s.cq.waitMet) ∨
    (∃ f ∈ s.cq.flight, f.cls = 3 ∧ f.code = 4 ∧ f.status = none ∧ f.waitCtr = c ∧ f.waitMet = false) ∨
    (∃ k < 256, s.flag F.SYNC_WATCHCFG_ARMED k = true ∧ s.fld F.SYNC_WATCHCFG_COUNTER k = c) := by
  simp [State.waitedOn, Flight.waitsOn, and_assoc, or_assoc]

theorem syncSetBody_waited (h : s.waitedOn p.target = true) : syncSetBody p id s = s.finish id csState 0 := if_pos h

theorem syncSetBody_free (h : s.waitedOn p.target = false) :
    syncSetBody p id s = (s.setReg .SYNC_CTR (pNum p 0 8) p.target).finish id csDone (s.reg .SYNC_CTR p.target) :=
  if_neg (ne_true_of_eq_false h)

theorem syncWaitBody_met (h : pNum p 0 8 ≤ s.reg .SYNC_CTR p.target) :
    syncWaitBody p id s = s.finish id csDone (s.reg .SYNC_CTR p.target) := if_pos (decide_eq_true h)

theorem syncWaitBody_waits (h : s.reg .SYNC_CTR p.target < pNum p 0 8) :
    syncWaitBody p id s = { s with cq := { s.cq with flight := s.cq.flight.map (fun f =>
      if f.id = id then { f with waitCtr := p.target, waitVal := pNum p 0 8 } else f) } } :=
  if_neg (by simp [State.fullMet, h])

/-- R108: a SYNC_WAIT whose wait was met completes with the value at its release. -/
theorem execSyncWaitSatisfied_met {q seq : Nat} {f : Flight} (h : s.cq.flight.find? (fun f =>
    f.queue == q && f.seq == seq && f.cls == 3 && f.code == 4 && f.waitMet && f.status.isNone) = some f) :
    execSyncWaitSatisfied q seq s = .next ((s.undue (.syncWaitSatisfied q seq)).complete f.id csDone f.result) := by
  unfold execSyncWaitSatisfied
  rw [h]

end

/-- Settles O46: `waitedOn` is what the statement lists, and chooses between the two ends of the packet. -/
theorem syncSetPackets : Obligations.SyncSetPackets := by
  intro s t p w hs ht hw
  subst ht hw
  rw [← State.waitedOn_iff]
  refine ⟨fun h => ?_, fun h => ?_⟩
  · exact exec_starts (f := fun id t => t.finish id csState 0) rfl hs (syncSetBody_waited _ h)
  · exact exec_starts (f := fun id t => (t.setReg .SYNC_CTR (pNum p 0 8) p.target).finish id csDone (t.reg .SYNC_CTR p.target)) rfl hs
      (syncSetBody_free _ (eq_false_of_ne_true h))

/-- Settles O13: each packet's effect on the entered state, by what the counter reads there. -/
theorem syncPackets : Obligations.SyncPackets := by
  refine ⟨fun s p hs => exec_starts rfl hs rfl, fun s p hs => ⟨fun h => ?_, fun h => ?_⟩, fun s p hs => exec_starts rfl hs rfl,
    fun s p hs => ⟨fun h => ?_, fun h => ?_⟩, fun s q seq f h => execSyncWaitSatisfied_met h⟩
  · exact exec_starts rfl hs (syncSetBody_waited _ h)
  · exact exec_starts rfl hs (syncSetBody_free _ h)
  · exact exec_starts rfl hs (syncWaitBody_met _ h)
  · exact exec_starts rfl hs (syncWaitBody_waits _ h)

end Sys2Proof.Machine

namespace Sys2Proof.Machine

/-! Writes of sync counters, watches and counter ranges (R106, R107, R111, R115). -/

section
variable {s : State} {w : RegWrite} {n k : Nat}

/-- R107: a write of SYNC_ADD by an initiator that may use the counter. -/
theorem execSyncAddWrite_owned (hn : n < 65536) (h : (s.p0 w.initiator || (!isP0 w.initiator && s.ownsCtr (iInst w.initiator) n)) = true) :
    execSyncAddWrite n w s = .next (if w.value % 2 ^ 32 = 0 then s else s.signal n (w.value % 2 ^ 32)).accessed :=
  congrArg Host.Outcome.next ((if_neg (Nat.not_le.2 hn)).trans (if_pos h))

theorem execSyncAddWrite_denied (hn : n < 65536) (h : (s.p0 w.initiator || (!isP0 w.initiator && s.ownsCtr (iInst w.initiator) n)) = false) :
    execSyncAddWrite n w s = .next (s.syncRefuse F.SYNC_STATUS_DENIED w.initiator n).busErr :=
  congrArg Host.Outcome.next ((if_neg (Nat.not_le.2 hn)).trans (if_neg (ne_true_of_eq_false h)))

/-- R111: a write of a watch by its owner, on a counter that its owner owns. -/
theorem execWatchArm_owned (hk : k < 256) (hi : s.ofPart w.initiator (s.watchOwner k) = true)
    (hc : s.ownsCtr (s.watchOwner k) (w.value % 65536) = true) : execWatchArm k w s =
      .next (((s.setReg .SYNC_WATCHCFG (2 ^ 31 * (w.value % 2 ^ 32 / 2 ^ 31) + 2 ^ 30 *
        (if w.value.testBit 30 then 0 else s.fld F.SYNC_WATCHCFG_FIRED k) + 2 ^ 28 * bitsOf w.value 29 28 + w.value % 2 ^ 27) k).fireWatch
          k).accessed) := by
  unfold execWatchArm State.writeWatch
  dsimp only
  rw [if_pos hk, if_neg (ne_false_of_eq_true hi), if_neg (ne_false_of_eq_true hc)]

/-- R38: a parameter write that its access rule admits. -/
theorem State.paramWrite_admitted {r : Reg} {i j v init : Nat} {t : State} (hg : s.gated r.info.block = false) :
    s.paramWrite true r i j v init t = if s.regStopped r i then s.stageReg r i j v init else t.accessed :=
  if_neg (by simp [hg])

/-- R115: the value that SYNC_RANGE takes of one that is written. -/
def rangeValue (v : Nat) : Nat := 2 ^ 63 * b2n (v.testBit 63) + 2 ^ 34 * bitsOf v 39 34 + 2 ^ 17 * bitsOf v 33 17 + v % 65536

theorem bitsOf_lt (v hi lo : Nat) : bitsOf v hi lo < 2 ^ (hi + 1 - lo) := Nat.mod_lt _ (Nat.two_pow_pos _)

theorem rangeValue_lt (v : Nat) : rangeValue v < 2 ^ 64 := by
  have hp : bitsOf v 39 34 < 2 ^ 6 := bitsOf_lt v 39 34
  have hc : bitsOf v 33 17 < 2 ^ 17 := bitsOf_lt v 33 17
  have he : b2n (v.testBit 63) ≤ 1 := by cases v.testBit 63 <;> decide
  unfold rangeValue
  omega

section
variable (hk : k < 64) (hp : s.p0 w.initiator = true)
include hk hp

theorem execSyncRangeWrite_refused (h : s.rangeBad k w.value = true) : execSyncRangeWrite k w s =
    .next (s.syncRefuse F.SYNC_STATUS_RANGE_REFUSED w.initiator (w.value % 65536)).accessed := by
  unfold execSyncRangeWrite
  rw [if_neg (by simp [hk, hp]), if_pos h]

/-- R115, R38: a range that is admitted takes effect, or waits in staging. -/
theorem execSyncRangeWrite_taken (h : s.rangeBad k w.value = false) (hg : s.gated .SYNC = false) : execSyncRangeWrite k w s =
    .next (if s.regStopped .SYNC_RANGE k then s.stageReg .SYNC_RANGE k 0 (rangeValue w.value) w.initiator
      else (s.setReg .SYNC_RANGE (rangeValue w.value) k).accessed) := by
  unfold execSyncRangeWrite
  rw [if_neg (by simp [hk, hp]), if_neg (by simp [h])]
  exact congrArg Host.Outcome.next (State.paramWrite_admitted hg)

end
end

/-- Settles O10: each register's write by whether its initiator may make it, and a range by whether it is admitted. -/
theorem syncRegisterCommands : Obligations.SyncRegisterCommands := by
  refine ⟨fun s n w hn => ⟨fun h => ⟨fun hv => ?_, fun hv => ?_⟩, fun h => execSyncAddWrite_denied hn h⟩,
    fun s k w hk hi hc => execWatchArm_owned hk hi hc, fun s k w h hk hp => ⟨fun hb hg hs => ?_, fun hb hg hs => ?_, fun hb =>
      execSyncRangeWrite_refused hk hp hb⟩⟩
  · exact (execSyncAddWrite_owned hn h).trans (by rw [if_neg hv])
  · exact (execSyncAddWrite_owned hn h).trans (by rw [if_pos hv])
  · exact (execSyncRangeWrite_taken hk hp hb hg).trans (by rw [if_pos hs]; rfl)
  · refine ⟨(s.setReg .SYNC_RANGE (rangeValue w.value) k).accessed, (execSyncRangeWrite_taken hk hp hb hg).trans
      (by rw [if_neg (ne_true_of_eq_false hs)]), ?_, fun r i j hne => ?_, rfl, rfl⟩
    · exact (State.reg_setReg_same _ _ _ _ h).trans (Nat.mod_eq_of_lt (rangeValue_lt w.value))
    · exact State.reg_setReg_other _ _ _ _ _ _ _ h hne

end Sys2Proof.Machine

namespace Sys2Proof.Machine

/-! A step on an empty queue (R82, R92, R103, R112, R270, R392). -/

section
variable {s : State}

theorem step_empty (h : s.pending = []) : step s = s.idle := by
  unfold step
  rw [h]

theorem State.idle_due {c : Instr} {l : List Instr} (h : s.due = c :: l) : s.idle = exec c s := by
  unfold State.idle
  rw [h]

variable (hd : s.due = [])
include hd

theorem State.idle_fresh {q : Nat} {l : List Nat} (h : s.cq.fresh = q :: l) : s.idle = .next (s.readHead q) := by
  unfold State.idle
  rw [hd, h]

variable (hf : s.cq.fresh = [])
include hf

theorem State.idle_held {c : Instr} {t : State} (h : s.takeHeld = some (c, t)) : s.idle = exec c t := by
  unfold State.idle
  rw [hd, hf, h]

/-- With nothing owed, to be read or held, the Escapement launches or the clock ticks. -/
theorem State.idle_rest (h : s.takeHeld = none) : s.idle = if s.canLaunch then .next s.moreKernels else .next s.tick := by
  unfold State.idle
  rw [hd, hf, h]

end

/-- Settles O39: the block's own order, one choice after the other. -/
theorem emptyQueueOrder : Obligations.EmptyQueueOrder := by
  intro s hs
  rw [step_empty hs]
  refine ⟨fun c l h => State.idle_due h, fun q l hd h => State.idle_fresh hd h, fun c t hd hf h => State.idle_held hd hf h,
    fun hd hf h hl => ?_, fun hd hf h hl => ?_⟩
  · rw [State.idle_rest hd hf h, if_pos hl]
  · rw [State.idle_rest hd hf h, if_neg (ne_true_of_eq_false hl)]

end Sys2Proof.Machine

namespace Sys2Proof.Machine

/-! Doorbells, queue states, completion heads and ring faults (R92 to R94, R114, R275, R492). -/

section
variable {s : State} {q tail init : Nat}

/-- A doorbell that is refused: its error and its count. -/
def State.doorbellError (s : State) (f : Fld) (q init : Nat) : State :=
  ((s.cmdqError f q (some init)).addFld F.CMDQ_ERRCNT_DB_CNT 1).accessed

theorem State.doorbell_denied (h : s.ofPart init (s.qPart q) = false) : s.doorbell q tail init = s.doorbellError F.CMDQ_ERR_DB_DENIED q init :=
  if_pos h

variable (hi : s.ofPart init (s.qPart q) = true)
include hi

theorem State.doorbell_state (h : s.qState q ≠ stRunning) : s.doorbell q tail init = s.doorbellError F.CMDQ_ERR_DB_STATE q init :=
  (if_neg (ne_false_of_eq_true hi)).trans (if_pos h)

variable (hs : s.qState q = stRunning)
include hs

theorem State.doorbell_overrun (h : 2 ^ s.fld F.CMDQ_QCFG_SQ_LOG2 q < (tail + 2 ^ 32 - s.reg .CMDQ_QHEAD q) % 2 ^ 32) :
    s.doorbell q tail init = s.doorbellError F.CMDQ_ERR_DB_OVERRUN q init :=
  ((if_neg (ne_false_of_eq_true hi)).trans (if_neg (not_not.2 hs))).trans (if_pos h)

/-- R92: a doorbell that is taken sets the tail, and the head is to be read. -/
theorem State.doorbell_taken (h : (tail + 2 ^ 32 - s.reg .CMDQ_QHEAD q) % 2 ^ 32 ≤ 2 ^ s.fld F.CMDQ_QCFG_SQ_LOG2 q) :
    s.doorbell q tail init = ((s.setReg .CMDQ_QTAIL (tail % 2 ^ 32) q).toRead q).accessed :=
  ((if_neg (ne_false_of_eq_true hi)).trans (if_neg (not_not.2 hs))).trans (if_neg (Nat.not_lt.2 h))

end

theorem State.toRead_fresh (s : State) (q : Nat) : (s.toRead q).cq.fresh.contains q = true := by
  unfold State.toRead
  dsimp only
  split
  next h => exact h
  next => simp

/-- A write of CMDQ_QCFG with EN set, and one with EN clear. -/
abbrev withEn (w : RegWrite) : RegWrite := { w with value := w.value % 2 ^ 31 + 2 ^ 31 }
abbrev withoutEn (w : RegWrite) : RegWrite := { w with value := w.value % 2 ^ 31 }

section
variable {s : State} {q : Nat} {w : RegWrite} (hq : q < 8192)
include hq

theorem execCmdqDb_queue : execCmdqDb q w s = .next (s.doorbell q (w.value % 2 ^ 32) w.initiator) := congrArg Host.Outcome.next (if_pos hq)

/-- R93: setting and clearing EN write CMDQ_QCFG with that bit. -/
theorem execQueueEnable_queue : execQueueEnable q w s = .next (s.writeQcfg q (withEn w)) := congrArg Host.Outcome.next (if_pos hq)

theorem execQueueDisable_queue : execQueueDisable q w s = .next (s.writeQcfg q (withoutEn w)) :=
  congrArg Host.Outcome.next (if_pos hq)

end

section
variable {s : State} {q : Nat} {w : RegWrite}

theorem testBit_enable (v : Nat) : (v % 2 ^ 31 + 2 ^ 31).testBit 31 = true := by
  rw [Nat.add_comm, Nat.testBit_two_pow_add_eq, Nat.testBit_mod_two_pow]
  simp

theorem testBit_disable (v : Nat) : (v % 2 ^ 31).testBit 31 = false := Nat.testBit_lt_two_pow (Nat.mod_lt _ (by decide))

theorem State.writeQcfg_denied (h : s.ofPart w.initiator (s.qPart q) = false) : s.writeQcfg q w = s.busErr := if_pos h

variable (hi : s.ofPart w.initiator (s.qPart q) = true)
include hi

/-- R38: a write while FN_MGMT reads STOPPED waits in staging, of EN alone where it is not partition 0's. -/
theorem State.writeQcfg_stopped (h : s.regStopped .CMDQ_QCFG q = true) : s.writeQcfg q w =
    s.stageReg .CMDQ_QCFG q 0 (mixBits (s.seen .CMDQ_QCFG q 0) w.value (if s.p0 w.initiator then 2 ^ 32 - 1 else 2 ^ 31)) w.initiator :=
  (if_neg (ne_false_of_eq_true hi)).trans (if_pos h)

variable (hr : s.regStopped .CMDQ_QCFG q = false)
include hr

/-- R93: EN is not set of a queue that drains or is in FAULT. -/
theorem State.writeQcfg_kept (he : w.value.testBit 31 = true) (h : s.qState q = stDraining ∨ s.qState q = stFault) :
    s.writeQcfg q w = s.accessed := by
  unfold State.writeQcfg
  rw [if_neg (ne_false_of_eq_true hi), if_neg (ne_true_of_eq_false hr), if_pos (by simpa [he] using h)]

/-- R114: the configuration that a write leaves: all of it from partition 0, EN alone from the owner. -/
theorem State.writeQcfg_taken (h : w.value.testBit 31 = true → s.qState q ≠ stDraining ∧ s.qState q ≠ stFault) :
    s.writeQcfg q w = (if w.value.testBit 31 then
      (if s.p0 w.initiator then s.setReg .CMDQ_QCFG (2 ^ 31 * s.fld F.CMDQ_QCFG_EN q + w.value % 2 ^ 31) q else s).enableQueue q
      else (if s.p0 w.initiator then s.setReg .CMDQ_QCFG (2 ^ 31 * s.fld F.CMDQ_QCFG_EN q + w.value % 2 ^ 31) q else s).drainQueue q).accessed := by
  unfold State.writeQcfg
  rw [if_neg (ne_false_of_eq_true hi), if_neg (ne_true_of_eq_false hr), if_neg (by simpa using h)]

end

section
variable {s : State} {q : Nat}

/-- R93: what EN set on an OFF queue shows in the queue's registers. -/
def State.turnOn (s : State) (q : Nat) : State :=
  ((s.putFld F.CMDQ_QCFG_EN 1 q).setReg .CMDQ_QTAIL (s.reg .CMDQ_QHEAD q) q).putFld F.CMDQ_QSTAT_STATE stRunning q

/-- R93: a queue that is turned on owes nothing of its last run. -/
theorem State.enableQueue_off (h : s.qState q = stOff) : s.enableQueue q = { s.turnOn q with
    cq := { s.cq with stuck := s.cq.stuck.filter (fun k => k != q), ended := s.cq.ended.filter (fun e => e.1 != q) } } := if_pos h

@[simp] theorem State.Canon.reg_putFld_other {f : Fld} {r : Reg} {n i j i' j' : Nat} (h : s.Canon) (e : ¬(r = f.reg ∧ i' = i ∧ j' = j)) :
    (s.putFld f n i j).reg r i' j' = s.reg r i' j' := State.reg_putFld_other _ _ _ _ _ _ _ h e

@[simp] theorem State.Canon.reg_setReg_other {r r' : Reg} {n i j i' j' : Nat} (h : s.Canon) (e : ¬(r' = r ∧ i' = i ∧ j' = j)) :
    (s.setReg r n i j).reg r' i' j' = s.reg r' i' j' := State.reg_setReg_other _ _ _ _ _ _ _ h e

/-- A register that is copied to another reads there as it is. -/
@[simp] theorem State.Canon.reg_setReg_copy {r r' : Reg} {i j i' j' : Nat} (h : s.Canon) (t : State) :
    (s.setReg r (t.reg r' i' j') i j).reg r i j = t.reg r' i' j' :=
  (State.reg_setReg_same _ _ _ _ h).trans (Nat.mod_eq_of_lt (t.word r' i' j').isLt)

theorem State.Canon.turnOn_shows (h : s.Canon) : (s.turnOn q).qState q = stRunning ∧ (s.turnOn q).flag F.CMDQ_QCFG_EN q = true ∧
    (s.turnOn q).reg .CMDQ_QTAIL q = s.reg .CMDQ_QHEAD q ∧ (s.turnOn q).reg .CMDQ_QHEAD q = s.reg .CMDQ_QHEAD q ∧
    (s.turnOn q).qPart q = s.qPart q := by
  simp [State.turnOn, State.qState, State.qPart, State.flag, h, h.putFld, h.putFld.setReg, stRunning]

/-- R93, R275: a draining queue that is empty reads OFF, and its context may recover. -/
theorem execQueueDrained_empty (hs : s.qState q = stDraining) (he : s.queueEmpty q = true) : execQueueDrained q s = .next (
    match (s.putFld F.CMDQ_QSTAT_STATE stOff q).ctxOf ((s.putFld F.CMDQ_QSTAT_STATE stOff q).qPart q) q with
    | some k => (s.putFld F.CMDQ_QSTAT_STATE stOff q).ctxRecover ((s.putFld F.CMDQ_QSTAT_STATE stOff q).qPart q) k
    | none => s.putFld F.CMDQ_QSTAT_STATE stOff q) := congrArg Host.Outcome.next (if_pos ⟨hs, he⟩)

end

/-- Settles O9: each register's write by its initiator and the queue's state. -/
theorem queueRegisterCommands : Obligations.QueueRegisterCommands := by
  refine ⟨fun s q w hwf hq => ⟨fun hi => ?_, fun hi hs => ?_, fun hi hs ho => ?_, fun hi hs ho => ?_⟩,
    fun s t q w hq hi hr ht => ⟨fun hd hf => ?_, fun hdf => ?_, ?_⟩, fun s q m w hq hi hr hm => ⟨?_, ?_⟩,
    fun s q (h : s.Canon) hs => ?_, fun s t q hs he ht => ⟨fun (h : s.Canon) => ?_, fun hc => ?_, fun k hc => ?_⟩,
    fun s q w hq hi => ?_, fun s q w hq hi => ⟨?_, ?_, ?_⟩, fun s q i hs => ⟨?_, ?_⟩⟩
  · exact (execCmdqDb_queue hq).trans (by rw [State.doorbell_denied hi]; rfl)
  · exact (execCmdqDb_queue hq).trans (by rw [State.doorbell_state hi hs]; rfl)
  · exact (execCmdqDb_queue hq).trans (by rw [State.doorbell_overrun hi hs ho]; rfl)
  · refine ⟨((s.setReg .CMDQ_QTAIL (w.value % 2 ^ 32 % 2 ^ 32) q).toRead q).accessed, (execCmdqDb_queue hq).trans
      (by rw [State.doorbell_taken hi hs ho]), ?_, fun r i j hne => ?_, rfl, State.toRead_fresh _ q, rfl, rfl, rfl⟩
    · exact (State.reg_setReg_same _ _ _ _ hwf).trans (by omega)
    · exact State.reg_setReg_other _ _ _ _ _ _ _ hwf hne
  · subst ht
    refine (execQueueEnable_queue hq).trans ?_
    rw [State.writeQcfg_taken (w := withEn w) hi hr (fun _ => ⟨hd, hf⟩)]
    simp only [testBit_enable, if_true, Nat.add_mod_right, Nat.mod_mod]
  · exact (execQueueEnable_queue hq).trans (by rw [State.writeQcfg_kept (w := withEn w) hi hr (testBit_enable _) hdf])
  · subst ht
    refine (execQueueDisable_queue hq).trans ?_
    rw [State.writeQcfg_taken (w := withoutEn w) hi hr (fun he => absurd he (ne_true_of_eq_false (testBit_disable _)))]
    simp only [testBit_disable, Bool.false_eq_true, if_false, Nat.mod_mod]
  · subst hm
    exact (execQueueEnable_queue hq).trans (by rw [State.writeQcfg_stopped (w := withEn w) hi hr])
  · subst hm
    exact (execQueueDisable_queue hq).trans (by rw [State.writeQcfg_stopped (w := withoutEn w) hi hr])
  · obtain ⟨hstate, hen, htail, hhead, hpart⟩ := h.turnOn_shows (q := q)
    exact ⟨_, rfl, by rw [State.enableQueue_off hs]; exact ⟨hstate, hen, htail, hhead, hpart, rfl⟩⟩
  · subst ht
    simp [State.qState, h]
  · subst ht
    exact (execQueueDrained_empty hs he).trans (by rw [hc])
  · subst ht
    exact (execQueueDrained_empty hs he).trans (by rw [hc])
  · exact congrArg Host.Outcome.next (if_neg (by simp [hq, hi]))
  · exact (execQueueEnable_queue hq).trans (by rw [State.writeQcfg_denied (w := withEn w) hi])
  · exact (execQueueDisable_queue hq).trans (by rw [State.writeQcfg_denied (w := withoutEn w) hi])
  · exact congrArg Host.Outcome.next (if_pos (.inr hi))
  · exact congrArg Host.Outcome.next (if_neg hs)
  · exact congrArg Host.Outcome.next (if_neg hs)

end Sys2Proof.Machine

namespace Sys2Proof.Machine

/-! Datagrams, acknowledgements and Grenlink messages (R85, R99 to R102, R296). -/

section
variable {s : State} {d : Datagram}

/-- R85: the transport packets are those of class 0 with codes 1 to 4. -/
theorem transportOp_iff {o : Opcode} : transportOp o = true ↔ o.cls = 0 ∧ 1 ≤ o.code ∧ o.code ≤ 4 := by
  simp [transportOp]

theorem execUdpDatagram_dropped (h : s.udpAdmits d = false) : execUdpDatagram d s = .next (s.udpDrop d.packet.queue) :=
  congrArg Host.Outcome.next (if_pos h)

variable (ha : s.udpAdmits d = true)
include ha

theorem execUdpDatagram_badHeader (h : d.packet.hcrc ≠ hcrcOf ⟨d.cls, d.code⟩ d.packet) : execUdpDatagram d s =
    .next ((s.cmdqError F.CMDQ_ERR_HCRC d.packet.queue none).addFld F.CMDQ_ERRCNT_HCRC_CNT 1) :=
  congrArg Host.Outcome.next ((if_neg (ne_false_of_eq_true ha)).trans (if_pos h))

variable (hh : d.packet.hcrc = hcrcOf ⟨d.cls, d.code⟩ d.packet)
include hh

theorem execUdpDatagram_badTrailer (hv : d.packet.version = 1) (h : d.packet.trailer ≠ trailerOf ⟨d.cls, d.code⟩ d.packet) :
    execUdpDatagram d s = .next ((s.cmdqError F.CMDQ_ERR_TCRC d.packet.queue none).addFld F.CMDQ_ERRCNT_TCRC_CNT 1) :=
  congrArg Host.Outcome.next (((if_neg (ne_false_of_eq_true ha)).trans (if_neg (not_not.2 hh))).trans (if_pos ⟨hv, h⟩))

/-- R100: a datagram that passes is in order, ahead, or behind; a transport packet is none of the ring's. -/
theorem execUdpDatagram_checked (ht : d.packet.version ≠ 1 ∨ d.packet.trailer = trailerOf ⟨d.cls, d.code⟩ d.packet) :
    execUdpDatagram d s = .next (if transportOp ⟨d.cls, d.code⟩ then s
      else if (d.packet.seq + 2 ^ 32 - s.reg .CMDQ_QSEQ d.packet.queue) % 2 ^ 32 = 0 then s.udpInOrder d
      else if (d.packet.seq + 2 ^ 32 - s.reg .CMDQ_QSEQ d.packet.queue) % 2 ^ 32 < 2 ^ 31 then s.udpAhead d
      else s.sendAck d.packet.queue) :=
  congrArg Host.Outcome.next (((if_neg (ne_false_of_eq_true ha)).trans (if_neg (not_not.2 hh))).trans
    (if_neg (fun hb => ht.elim (fun hv => hv hb.1) hb.2)))

end

section
variable {s : State} {q : Nat} {d : Datagram}

/-- R100: the timer of a queue that owes an acknowledgement. -/
theorem execUdpAckTimer_owed (h : (s.udpOf q).unacked ≠ 0) :
    execUdpAckTimer q s = .next ((s.setUdp { s.udpOf q with unacked := 0 }).sendAck q) := congrArg Host.Outcome.next (if_neg h)

/-- R101: the slots from the completion head on go out again. -/
theorem execCplResend_open (ho : s.overUdp q = true) (h : (s.cplIndex q + 2 ^ 32 - s.reg .CMDQ_QCPLHEAD q) % 2 ^ 32 ≠ 0) :
    execCplResend q s = .next (s.send (.cpl q (s.reg .CMDQ_QCPLHEAD q)
      ((s.cplIndex q + 2 ^ 32 - s.reg .CMDQ_QCPLHEAD q) % 2 ^ 32) (s.peerOf q))) := congrArg Host.Outcome.next (if_pos ⟨ho, h⟩)

theorem execCplAck_dropped (h : s.udpReaches d = false) : execCplAck d s = .next (s.udpDrop d.packet.queue) :=
  congrArg Host.Outcome.next (if_pos h)

variable (hr : s.udpReaches d = true)
include hr

theorem execCplAck_badHeader (h : d.packet.hcrc ≠ hcrcOf ⟨0, 4⟩ d.packet) : execCplAck d s =
    .next ((s.cmdqError F.CMDQ_ERR_HCRC d.packet.queue none).addFld F.CMDQ_ERRCNT_HCRC_CNT 1) :=
  congrArg Host.Outcome.next ((if_neg (ne_false_of_eq_true hr)).trans (if_pos h))

variable (hh : d.packet.hcrc = hcrcOf ⟨0, 4⟩ d.packet)
include hh

/-- R101: a CPL_ACK whose header is right, by its VERSION and trailer. -/
theorem execCplAck_header : execCplAck d s = .next (if d.packet.version ≠ 1 then s
    else if d.packet.trailer ≠ trailerOf ⟨0, 4⟩ d.packet then
      (s.cmdqError F.CMDQ_ERR_TCRC d.packet.queue none).addFld F.CMDQ_ERRCNT_TCRC_CNT 1
    else (s.setReg .CMDQ_QCPLHEAD (d.packet.target % 2 ^ 32) d.packet.queue).retire d.packet.queue (s.qPart d.packet.queue)) :=
  congrArg Host.Outcome.next ((if_neg (ne_false_of_eq_true hr)).trans (if_neg (not_not.2 hh)))

end

section
variable {s : State} {cls code : Nat} {p : Packet}

theorem execGlkMessageRx_badHeader (h : p.hcrc ≠ hcrcOf ⟨cls, code⟩ p) : execGlkMessageRx cls code p s =
    .next ((s.cmdqError F.CMDQ_ERR_HCRC p.queue none).addFld F.CMDQ_ERRCNT_HCRC_CNT 1) := congrArg Host.Outcome.next (if_pos h)

variable (hh : p.hcrc = hcrcOf ⟨cls, code⟩ p) (hu : s.fnUsable fnGlk = true)
include hh hu

theorem execGlkMessageRx_forwarded (h : s.forwards ⟨cls, code⟩ p = true) : execGlkMessageRx cls code p s =
    .next (s.toMember (p.destDev % 64) (.forward p.destDev cls code p)) :=
  congrArg Host.Outcome.next (((if_neg (not_not.2 hh)).trans (if_neg (ne_false_of_eq_true hu))).trans (if_pos h))

/-- R102: a message for this device goes into the ring of its RUNNING Grenlink queue where it fits. -/
theorem execGlkMessageRx_taken (hw : s.forwards ⟨cls, code⟩ p = false) (hq : p.queue < 8192)
    (ht : s.fld F.CMDQ_QCFG_TRANSPORT p.queue = 3) (hs : s.qState p.queue = stRunning) : execGlkMessageRx cls code p s =
    .next (if s.subFits p.queue (pSlots p) then (s.acceptFn fnGlk).takeIn ⟨cls, code⟩ p (initiator 0xA p.partition)
      else s.extraRecord p.queue p.seq cls code p.partition csQueueFull 0) :=
  congrArg Host.Outcome.next ((((if_neg (not_not.2 hh)).trans (if_neg (ne_false_of_eq_true hu))).trans
    (if_neg (ne_true_of_eq_false hw))).trans (if_neg (by simp [hq, ht, hs])))

end

/-- Settles O11: each message by the checks that it passes. -/
theorem transportCommands : Obligations.TransportCommands := by
  refine ⟨fun s d h => execUdpDatagram_dropped h, fun s d ha h => execUdpDatagram_badHeader ha h,
    fun s d ha hh hv h => execUdpDatagram_badTrailer ha hh hv h, fun s d ha hh ht => ⟨fun hc h1 h4 => ?_, fun ho => ?_⟩,
    fun s q h => ⟨_, execUdpAckTimer_owed h, rfl, rfl, rfl⟩, fun s d => ⟨fun h => execCplAck_dropped h, fun hr h => execCplAck_badHeader hr h,
      fun hr hh hv => ?_, fun hr hh hv h => ?_, fun hr hh hv h => ?_⟩, fun s q ho h => ⟨_, execCplResend_open ho h, rfl, rfl, rfl⟩,
    fun s cls code p h => execGlkMessageRx_badHeader h, fun s cls code p hh hu => ⟨fun hw hq ht hs => ⟨fun hf => ?_, fun hf => ?_⟩, fun h =>
      execGlkMessageRx_forwarded hh hu h⟩⟩
  · exact (execUdpDatagram_checked ha hh ht).trans (by rw [if_pos (transportOp_iff.2 ⟨hc, h1, h4⟩)])
  · have hring : transportOp ⟨d.cls, d.code⟩ ≠ true := fun h => by
      obtain ⟨hc, h1, h4⟩ := transportOp_iff.1 h
      dsimp only at hc h1 h4
      omega
    have hx := execUdpDatagram_checked ha hh ht
    rw [if_neg hring] at hx
    refine ⟨fun h0 => hx.trans (by rw [if_pos h0]), fun hpos hlt => hx.trans (by rw [if_neg (Nat.ne_of_gt hpos), if_pos hlt]),
      fun hge => hx.trans (by rw [if_neg (by omega), if_neg (Nat.not_lt.2 hge)])⟩
  · exact (execCplAck_header hr hh).trans (by rw [if_pos hv])
  · exact (execCplAck_header hr hh).trans (by rw [if_neg (not_not.2 hv), if_pos h])
  · exact (execCplAck_header hr hh).trans (by rw [if_neg (not_not.2 hv), if_neg (not_not.2 h)])
  · exact (execGlkMessageRx_taken hh hu hw hq ht hs).trans (by rw [if_pos hf])
  · exact (execGlkMessageRx_taken hh hu hw hq ht hs).trans (by rw [if_neg (ne_true_of_eq_false hf)])

end Sys2Proof.Machine

namespace Sys2Proof.Machine

/-! NOP and the packets of class MEM (R85 to R90, R118, R129, R491). -/

section
variable {s : State} {p : Packet} (id : Nat)

section
variable {f : Option Nat} {data : List Byte}

theorem memStore_address (h : pIsHandle p = false) : memStore p f data id s =
    ((s.writeBytes p.target data).viaChannel p.partition true f [(p.target, data.length)]).finish id csDone data.length :=
  if_neg (ne_true_of_eq_false h)

variable (h : pIsHandle p = true) {b : Obj} (hb : s.pObj p = some b)
include h hb

/-- R88: bytes for an object land where they lie within it, and are rejected where not. -/
theorem memStore_object : memStore p f data id s = if b.size < pOffset p + data.length then s.finish id csFormat 0
    else ((s.writeObj b (pOffset p) data).viaChannel p.partition true f (b.pieces (pOffset p) data.length)).finish id csDone data.length := by
  unfold memStore
  rw [if_pos h, hb]

end

section
variable {ue : Option Nat}

theorem memReadBody_address (h : pIsHandle p = false) :
    memReadBody p ue id s = readBody [(p.target, pNum p 0 8)] (pNum p 0 8) p.partition ue id s := if_neg (ne_true_of_eq_false h)

theorem memReadBody_object (h : pIsHandle p = true) {b : Obj} (hb : s.pObj p = some b) (hn : pOffset p + pNum p 0 8 ≤ b.size) :
    memReadBody p ue id s = if b.valid then readBody (b.pieces (pOffset p) (pNum p 0 8)) (pNum p 0 8) p.partition ue id s
      else s.finish id csState 0 := by
  unfold memReadBody
  dsimp only
  rw [if_pos h, hb]
  exact if_neg (Nat.not_lt.2 hn)

/-- R89: an address, or a valid object that holds the range, is read. -/
theorem memReadBody_reads {ps : List (Nat × Nat)} (h : (pIsHandle p = false ∧ ps = [(p.target, pNum p 0 8)]) ∨ (∃ b, pIsHandle p = true ∧
    s.pObj p = some b ∧ pOffset p + pNum p 0 8 ≤ b.size ∧ b.valid = true ∧ ps = b.pieces (pOffset p) (pNum p 0 8))) :
    memReadBody p ue id s = readBody ps (pNum p 0 8) p.partition ue id s := by
  obtain ⟨h, rfl⟩ | ⟨b, h, hb, hn, hv, rfl⟩ := h
  · exact memReadBody_address id h
  · rw [memReadBody_object id h hb hn, if_pos hv]

end

section
variable {ps : List (Nat × Nat)} {n part : Nat}

theorem readBody_free (h : s.underScrub ps = false) : readBody ps n part none id s =
    ((s.chargePieces (initiator 6 part) ps).viaChannel part false none ps).finish id csDone n (s.readPieces ps) :=
  if_neg (ne_true_of_eq_false h)

theorem readBody_scrubbed (h : s.underScrub ps = true) : readBody ps n part none id s =
    ((s.chargePieces (initiator 6 part) ps).viaChannel part false none ps).waitRead id ps n (s.readPieces ps) := if_pos h

end

section
variable (h1 : pNum p 12 1 ≤ 1) (h0 : pNum p 0 8 ≠ 0) (h2 : pNum p 0 8 ≤ 2 ^ 36) (hb : s.pObj p = none)
include h1 h0 h2 hb

/-- R87: an OBJ_CREATE of a size and place that are allowed, of a handle that is free, gets the pieces that fit. -/
theorem objCreateBody_fits {ps : List (Nat × Nat)} (h : firstFit (s.objs.flatMap (·.parts))
    (s.objRegions p.partition ((s.ctxOf p.partition p.queue).getD 0) (pNum p 12 1 == 1)) (pNum p 0 8) = some ps) :
    objCreateBody p id s =
      ({ s with objs := s.objs ++ [newObj p ((s.ctxOf p.partition p.queue).getD 0) ps] } : State).finish id csDone 0 := by
  unfold objCreateBody
  dsimp only
  rw [if_neg (by omega), if_neg (by simp [hb]), h]

theorem objCreateBody_full (h : firstFit (s.objs.flatMap (·.parts))
    (s.objRegions p.partition ((s.ctxOf p.partition p.queue).getD 0) (pNum p 12 1 == 1)) (pNum p 0 8) = none) :
    objCreateBody p id s = s.finish id csFormat 0x0200 := by
  unfold objCreateBody
  dsimp only
  rw [if_neg (by omega), if_neg (by simp [hb]), h]

end

variable {b : Obj} (hb : s.pObj p = some b)
include hb

/-- R88, R89: an OBJ_WRITE within its object, which with LAST waits for the CRC pass. -/
theorem objWriteBody_within (h : pOffset p < b.size) : objWriteBody p id s = if pLast p then
      ((s.fillObj b (pOffset p) p.payload).setObj { b with pass := b.pass ++ [id] }).waitRead id [] (min p.payload.length (b.size - pOffset p))
    else (s.writeObj b (pOffset p) p.payload).finish id csDone (min p.payload.length (b.size - pOffset p)) := by
  unfold objWriteBody
  rw [hb]
  exact if_neg (Nat.not_le.2 h)

theorem objFreeBody_object : objFreeBody p id s = if !b.pass.isEmpty then s.finish id csState 0
    else ({ s with objs := s.objs.filter (fun x => !(x.partition == b.partition && x.handle == b.handle)) } : State).finish id csDone 0 := by
  unfold objFreeBody
  rw [hb]

end

section
variable {s : State} {part h : Nat} {b : Obj} (ho : s.obj? part h = some b) (ue : Option Nat)
include ho

theorem execObjCrcPassDone_none (hp : s.passOf b = none) : execObjCrcPassDone part h ue s = .next s := by
  unfold execObjCrcPassDone
  rw [ho]
  dsimp only
  rw [hp]

/-- R89, R129: a pass ends once no granule that it reads is scrubbed. -/
theorem execObjCrcPassDone_some {id : Nat} (hp : s.passOf b = some id) : execObjCrcPassDone part h ue s =
    .next (if s.underScrub (b.pieces 0 b.size) then s else s.endPass b id ue) := by
  unfold execObjCrcPassDone
  rw [ho]
  dsimp only
  rw [hp]

end

section
variable {s : State} {b : Obj} {id : Nat}

theorem State.endPass_matches (h : crc32c ((s.keyed (initiator 6 b.partition)).readPieces (b.pieces 0 b.size)) = b.crc) :
    s.endPass b id none = ((s.chargePieces (initiator 6 b.partition) (b.pieces 0 b.size)).setObj
      { b with valid := true, pass := b.pass.filter (fun f => f != id) }).complete id csDone
        (((s.cq.flight.find? (fun f => f.id == id)).map (·.len)).getD 0) := by
  unfold State.endPass
  dsimp only
  rw [beq_iff_eq.2 h, if_pos rfl]

theorem State.endPass_differs (h : crc32c ((s.keyed (initiator 6 b.partition)).readPieces (b.pieces 0 b.size)) ≠ b.crc) :
    s.endPass b id none = ((s.chargePieces (initiator 6 b.partition) (b.pieces 0 b.size)).setObj
      { b with valid := false, pass := b.pass.filter (fun f => f != id) }).complete id csFormat 0x0300 := by
  unfold State.endPass
  dsimp only
  rw [beq_eq_false_iff_ne.2 h, if_neg Bool.false_ne_true]

end

/-- Settles O12: each packet's effect on the entered state, and the end of a CRC pass. -/
theorem queueAndMemoryPackets : Obligations.QueueAndMemoryPackets := by
  refine ⟨fun s p hs => exec_starts rfl hs rfl, fun c s p r f data hc hs => ?_,
    fun s u p r n ps hn hr hs hp hu => ⟨fun k => ?_, fun h => ?_, fun h => ?_⟩,
    fun s p r n b hn hr hs hi hb hle hv k => ?_, fun s t p ctx hs h1 h0 h2 ht hctx hb => ⟨fun ps h => ?_, fun h => ?_⟩,
    fun s p r b hr hs hb hlt => ⟨fun hl => ?_, fun hl => ?_⟩,
    fun s t part h id b ps left ho hp hps ht hleft =>
      ⟨fun ue hu => ?_, fun hu => ⟨fun k => ?_, fun hc => ?_, fun hc => ?_⟩⟩,
    fun s part h b ue ho hp => execObjCrcPassDone_none ho ue hp, fun s p b hs hb => ⟨fun h => ?_, fun h => ?_⟩⟩
  · have hx : exec c s = .next (runPacket c r p (memStore p f data) s) := by
      obtain ⟨rfl, rfl, rfl, rfl⟩ | ⟨rfl, rfl, rfl, rfl⟩ := hc <;> rfl
    refine ⟨fun h => exec_starts hx hs (memStore_address _ h), fun b h hb => ⟨fun hle => ?_, fun hlt => ?_⟩⟩
    · exact exec_starts hx hs ((memStore_object _ h hb).trans (if_neg (Nat.not_lt.2 hle)))
    · exact exec_starts hx hs ((memStore_object _ h hb).trans (if_pos hlt))
  · subst hn hr hu
    exact exec_starts rfl hs (memReadBody_reads _ hp)
  · subst hn hr hu
    exact exec_starts rfl hs ((memReadBody_reads _ hp).trans (readBody_free _ h))
  · subst hn hr hu
    exact exec_starts rfl hs ((memReadBody_reads _ hp).trans (readBody_scrubbed _ h))
  · subst hn hr
    exact exec_starts rfl hs ((memReadBody_object _ hi hb hle).trans (if_neg (ne_true_of_eq_false hv)))
  · subst ht hctx
    exact exec_starts rfl hs (objCreateBody_fits _ h1 h0 h2 hb h)
  · subst ht hctx
    exact exec_starts rfl hs (objCreateBody_full _ h1 h0 h2 hb h)
  · subst hr
    exact exec_starts rfl hs ((objWriteBody_within _ hb hlt).trans (if_neg (ne_true_of_eq_false hl)))
  · subst hr
    exact exec_starts rfl hs ((objWriteBody_within _ hb hlt).trans (if_pos hl))
  · subst hps
    exact (execObjCrcPassDone_some ho ue hp).trans (by rw [if_pos hu])
  · subst hps ht hleft
    exact (execObjCrcPassDone_some ho _ hp).trans (by rw [if_neg (ne_true_of_eq_false hu)]; rfl)
  · subst hps ht hleft
    exact (execObjCrcPassDone_some ho _ hp).trans (by rw [if_neg (ne_true_of_eq_false hu), State.endPass_matches hc])
  · subst hps ht hleft
    exact (execObjCrcPassDone_some ho _ hp).trans (by rw [if_neg (ne_true_of_eq_false hu), State.endPass_differs hc])
  · exact exec_starts rfl hs ((objFreeBody_object _ hb).trans (if_neg (by simp [h])))
  · exact exec_starts rfl hs ((objFreeBody_object _ hb).trans (if_pos (by simp [h])))

end Sys2Proof.Machine


namespace Sys2Proof.Machine

/-! What queues, sharing, cameras, motion and debug unlock leave alone. -/

namespace Within

variable {bs : List Block} {o t : State}

/-- An event shows in registers of LOG alone. -/
theorem emit {c d x y p : Nat} (h : Within bs o t) (hl : Block.LOG ∈ bs) : Within bs o (t.emit c d x y p) :=
  h.trans ⟨State.emit_regsWf h.wf, by simp, by simp, by simp, fun r i j hq =>
    State.word_emit r i j h.wf (by rintro rfl; exact hq hl) (by rintro rfl; exact hq hl)⟩

theorem drawFree (h : Within bs o t) : Within bs o t.drawFree := h.congr rfl rfl rfl rfl

theorem event {c d x p : Nat} (h : Within bs o t) (hl : Block.LOG ∈ bs) : Within bs o (t.event c d x p) := h.drawFree.emit hl

theorem dataEvent {c d x p : Nat} (h : Within bs o t) (hl : Block.LOG ∈ bs) : Within bs o (t.dataEvent c d x p) := h.drawFree.emit hl

/-- An interrupt shows in SYS_IRQLOST alone. -/
theorem raise {v d p : Nat} {fn : Option Nat} (h : Within bs o t) (hs : Block.SYS ∈ bs) : Within bs o (t.raise v d p fn) :=
  h.trans ⟨State.raise_regsWf h.wf, by simp, by simp, by simp, fun r i j hq => State.word_raise r i j h.wf (by rintro rfl; exact hq hs)⟩

theorem addFld {f : Fld} {n i j : Nat} (h : Within bs o t) (hf : f.reg.info.block ∈ bs) : Within bs o (t.addFld f n i j) := h.putFld hf

theorem accessed (h : Within bs o t) : Within bs o t.accessed := h.congr rfl rfl rfl rfl

theorem send {x : Out} (h : Within bs o t) : Within bs o (t.send x) := h.congr rfl rfl rfl rfl

/-- A write to staging shows in SYS_STAGE_ERR alone. -/
theorem stageReg {r : Reg} {i j v init : Nat} (hs : Block.SYS ∈ bs) (h : Within bs o t) : Within bs o (t.stageReg r i j v init) :=
  ite (h.congr rfl rfl rfl rfl) (busErr (ite h (setFlag (putFld h hs) hs)))

theorem paramWrite {a : Bool} {r : Reg} {i j v init : Nat} {u : State} (hs : Block.SYS ∈ bs) (h : Within bs o t) (g : Within bs o u) :
    Within bs o (t.paramWrite a r i j v init u) := ite h.busErr (ite (stageReg hs h) g.accessed)

/-! Queues (R92, R93, R100, R101, R275, R492). -/

theorem setUdp {u : Udp} (h : Within bs o t) : Within bs o (t.setUdp u) := h.congr rfl rfl rfl rfl

theorem toRead {q : Nat} (h : Within bs o t) : Within bs o (t.toRead q) := h.congr rfl rfl rfl rfl

section
variable (hb : Block.CMDQ ∈ bs)
include hb

theorem cmdqError {f : Fld} {q : Nat} {init : Option Nat} (hf : f.reg.info.block ∈ bs) (h : Within bs o t) :
    Within bs o (t.cmdqError f q init) := by
  have hq : Within bs o (if t.cmdqErrClear then t.putFld F.CMDQ_ERR_QUEUE q else t) := ite (h.putFld hb) h
  unfold State.cmdqError
  refine setFlag ?_ hf
  cases init with
  | none => exact hq
  | some i => exact ite (hq.putFld hb) hq

theorem stickQueue {q : Nat} (h : Within bs o t) : Within bs o (t.stickQueue q) :=
  have hs : Within bs o (t.putFld F.CMDQ_QSTAT_STATE stFault q) := putFld h hb
  hs.congr rfl rfl rfl rfl

theorem ringFault {q init : Nat} {r : Bool} (h : Within bs o t) : Within bs o (t.ringFault q init r) :=
  have he : Within bs o (t.cmdqError F.CMDQ_ERR_RING_FAULT q (some init)) := cmdqError hb hb h
  ite he (ite (stickQueue hb he) (putFld he hb))

theorem doorbell {q v init : Nat} (h : Within bs o t) : Within bs o (t.doorbell q v init) :=
  have herr : ∀ f : Fld, f.reg.info.block ∈ bs → Within bs o (t.doorbellError f q init) := fun _ hf =>
    accessed (addFld (cmdqError hb hf h) hb)
  ite (herr _ hb) (ite (herr _ hb) (ite (herr _ hb) (accessed (toRead (setReg h hb)))))

end

/-- R275: a context that recovers. -/
theorem ctxRecover {p k : Nat} (hb : Block.ESC ∈ bs) (h : Within bs o t) : Within bs o (t.ctxRecover p k) :=
  have hs : Within bs o (t.putFld F.ESC_CTX_STATE stReady p k) := putFld h hb
  ite (hs.congr rfl rfl rfl rfl) h

/-! Watches (R111). -/

section
variable (hb : Block.SYNC ∈ bs)
include hb

theorem syncRefuse {f : Fld} {init c : Nat} (hf : f.reg.info.block ∈ bs) (h : Within bs o t) : Within bs o (t.syncRefuse f init c) :=
  have hi : Within bs o (if t.syncRefusalClear then t.putFld F.SYNC_STATUS_INITIATOR init else t) := ite (h.putFld hb) h
  setFlag (ite (hi.putFld hb) hi) hf

theorem fireWatch {k : Nat} (hs : Block.SYS ∈ bs) (h : Within bs o t) : Within bs o (t.fireWatch k) :=
  ite (raise (setFlag (putFld h hb) hb) hs) h

theorem writeWatch {k : Nat} {w : RegWrite} (hs : Block.SYS ∈ bs) (h : Within bs o t) : Within bs o (t.writeWatch k w) :=
  ite (busErr (syncRefuse hb hb h)) (ite (busErr (syncRefuse hb hb h)) (accessed (fireWatch hb hs (setReg h hb))))

end

/-! The latency guard (R284, R285). -/

section
variable (hb : Block.ESC ∈ bs)
include hb

theorem setLimit {d : Bool} {p n : Nat} (h : Within bs o t) : Within bs o (t.setLimit d p n) :=
  setReg h (by cases d <;> exact hb)

theorem setGuard {p k : Nat} {before now : Bool → Nat} (h : Within bs o t) : Within bs o (t.setGuard p k before now) :=
  have hs : Within bs o ((t.setLimit true p (now true)).setLimit false p (now false)) := setLimit hb (setLimit hb h)
  hs.congr rfl rfl rfl rfl

theorem escStatus {f : Fld} {p c : Nat} (hf : f.reg.info.block ∈ bs) (h : Within bs o t) : Within bs o (t.escStatus f p c) :=
  setFlag (ite (putFld (putFld h hb) hb) h) hf

variable (hl : Block.LOG ∈ bs)
include hl

theorem guardVictim {v : Nat} (h : Within bs o t) : Within bs o (t.guardVictim v) := by
  unfold State.guardVictim
  split
  · exact escStatus hb hb (dataEvent (setGuard hb h) hl)
  · exact h

omit hl in
theorem loosen {p : Nat} (h : Within bs o t) : Within bs o (t.loosen p) := by
  unfold State.loosen
  exact setGuard hb h

theorem relax (h : Within bs o t) : Within bs o t.relax := foldl (fun _ _ hu => anyEvent (loosen hb hu) hl) h

end

/-! Cameras (R331 to R335, R343, R344). -/

theorem setCamCtx {k : Nat} {c : CamCtx} (h : Within bs o t) : Within bs o (t.setCamCtx k c) := h.congr rfl rfl rfl rfl

theorem setSensor {n : Nat} {q : Sensor} (h : Within bs o t) : Within bs o (t.setSensor n q) := h.congr rfl rfl rfl rfl

theorem i3cWrite {n g : Nat} (h : Within bs o t) : Within bs o (t.i3cWrite n g) := h.send

theorem issue {n : Nat} (h : Within bs o t) : Within bs o (t.issue n) := by
  unfold State.issue
  dsimp only
  split
  · exact setSensor h.i3cWrite
  · exact h

section
variable (hb : Block.CAM ∈ bs)
include hb

theorem commit {n : Nat} (h : Within bs o t) : Within bs o (t.commit n) := setSensor (putFld h hb)

theorem issued {n g f : Nat} (h : Within bs o t) : Within bs o (t.issued n g f) := setSensor (putFld h hb)

theorem eccCorrected {n : Nat} {b : Bool} (h : Within bs o t) : Within bs o (t.eccCorrected n b) := ite (addFld h hb) h

variable (hl : Block.LOG ∈ bs)
include hl

omit hb in
theorem truncEvent {k : Nat} (h : Within bs o t) : Within bs o (t.truncEvent k) := ite (anyEvent (h.congr rfl rfl rfl rfl) hl) h

theorem truncate {k c : Nat} (h : Within bs o t) : Within bs o (t.truncate k c) := ite (truncEvent hl (addFld h.setCamCtx hb)) h

theorem endFrame {k : Nat} (h : Within bs o t) : Within bs o (t.endFrame k) :=
  setCamCtx (ite (ite (truncate hb hl h) h.setCamCtx) h)

end

/-! Motion (R375 to R377, R384, R385, R388). -/

theorem setAx {a : Nat} {x : Axis} (h : Within bs o t) : Within bs o (t.setAx a x) := h.congr rfl rfl rfl rfl

theorem setTrace {n : Nat} {x : Trace} (h : Within bs o t) : Within bs o (t.setTrace n x) := h.congr rfl rfl rfl rfl

section
variable (hb : Block.MOT ∈ bs)
include hb

theorem safePattern {a p : Nat} (h : Within bs o t) : Within bs o (t.safePattern a p) :=
  have hs : Within bs o ((t.putFld F.MOT_AXSTATE_SAFE p a).sumBit F.MOT_FAULTSUM_SAFE a true) := putFld (putFld h hb) hb
  hs.congr rfl rfl rfl rfl

theorem showQueue {a : Nat} (h : Within bs o t) : Within bs o (t.showQueue a) := putFld (putFld h hb) hb

theorem flushAxis {a : Nat} (h : Within bs o t) : Within bs o (t.flushAxis a) := showQueue hb (setAx (addFld h hb))

variable (hl : Block.LOG ∈ bs)
include hl

theorem traceDone {n : Nat} (h : Within bs o t) : Within bs o (t.traceDone n) := event (putFld h hb) hl

theorem traceFire {n : Nat} (h : Within bs o t) : Within bs o (t.traceFire n) :=
  have hs : Within bs o (((t.putFld F.MOT_TRSTAT_STATE 2 n).putFld F.MOT_TRSTAT_TRIG_INDEX ((t.trace n).written - 1) n).setTrace n
      { t.trace n with left := t.traceCap n - t.fld F.MOT_TRCFG_PRE n - 1 }) := setTrace (putFld (putFld h hb) hb)
  ite (ite (hs.traceDone hb hl) hs) h

theorem motEvent {a c : Nat} (h : Within bs o t) : Within bs o (t.motEvent a c) :=
  foldl (fun _ _ hu => ite (hu.traceFire hb hl) hu) (event h hl)

theorem noteLate {a : Nat} {e : SetPoint} (h : Within bs o t) : Within bs o (t.noteLate a e) :=
  have hs : Within bs o (t.addFld F.MOT_AXCNT_LATE 1 a) := addFld h hb
  ite (ite (hs.setAx.motEvent hb hl) hs) h

theorem pushEntry {a : Nat} {e : SetPoint} (h : Within bs o t) : Within bs o (t.pushEntry a e) :=
  ite ((h.setAx.showQueue hb).noteLate hb hl) (addFld h hb)

end

/-! Debug unlock (R452). -/

section
variable (hb : Block.SEC ∈ bs)
include hb

theorem newNonce (h : Within bs o t) : Within bs o t.newNonce := foldl (fun _ _ hu => drawFree (setReg hu hb)) h

theorem dbgResult {r : Nat} (h : Within bs o t) : Within bs o (t.dbgResult r) := putFld h hb

variable (hl : Block.LOG ∈ bs)
include hl

theorem dbgDeny {r : Nat} (h : Within bs o t) : Within bs o (t.dbgDeny r) := dbgResult hb (anyEvent (addFld h hb) hl)

theorem dbgGrant {l p : Nat} (h : Within bs o t) : Within bs o (t.dbgGrant l p) := dbgResult hb (anyEvent (putFld (putFld h hb) hb) hl)

end

end Within
end Sys2Proof.Machine

namespace Sys2Proof.Machine

namespace Within

variable {bs : List Block} {o t : State}

/-! Streams and their pins (R195, R200, R201). -/

section
variable (hb : Block.SCAN ∈ bs)
include hb

theorem pinAnswer {r : Nat} {c : Option Nat} (h : Within bs o t) : Within bs o (t.pinAnswer r c) :=
  have hs : Within bs o ((t.putFld F.SCAN_PINSTAT_BUSY 0).putFld F.SCAN_PINSTAT_RESULT r) := putFld (putFld h hb) hb
  match c with
  | none => hs
  | some _ => hs.putFld hb

variable (hm : Block.ME ∈ bs)
include hm

theorem showStreams (h : Within bs o t) : Within bs o t.showStreams :=
  foldl (fun _ _ hu => putFld hu hm) (foldl (fun _ _ hu => putFld hu hb) (putFld (putFld h hb) hb))

theorem setStream {x : Stream} (h : Within bs o t) : Within bs o (t.setStream x) :=
  showStreams hb hm (h.congr rfl rfl rfl rfl)

theorem pinStream {x : Stream} {m : Nat} (h : Within bs o t) : Within bs o (t.pinStream x m) :=
  ite (pinAnswer hb h) (ite (pinAnswer hb h) (pinAnswer hb (setStream hb hm h)))

end

section
variable (hb : Block.SCAN ∈ bs) (hm : Block.ME ∈ bs)
include hb hm

/-- PIN of the stream that SCAN_PINCTL names. -/
theorem doPin (hop : t.fld F.SCAN_PINCTL_OP = 1) (h : Within bs o t) : Within bs o t.doPin := by
  unfold State.doPin
  split
  · exact h.pinAnswer hb
  · rw [if_pos hop]
    exact ite (h.setFlag hb) (h.pinStream hb hm)

end

/-! Reads of registers that no unit of the list holds. -/

theorem word_eq {r : Reg} {i j : Nat} (h : Within bs o t) (hr : r.info.block ∉ bs) : t.word r i j = o.word r i j := h.same.2.2.2 r i j hr

theorem fld_eq {f : Fld} {i j : Nat} (h : Within bs o t) (hf : f.reg.info.block ∉ bs) : t.fld f i j = o.fld f i j :=
  State.fld_congr (h.word_eq hf)

end Within

/-! Memory that a command writes. -/

/-- What n bytes read is n bytes. -/
theorem State.bytes_length (s : State) (a n : Nat) : (s.bytes a n).length = n := by
  have hg : ∀ k n, (sparseGetList (fun _ => (0 : Byte)) s.mem k n).length = n := fun k n => by
    induction n generalizing k with
    | zero => rfl
    | succ n ih => exact congrArg Nat.succ (ih (k + 1))
  rw [State.bytes]
  split
  · exact hg ..
  · simp

/-- A block under another key lies in DRAM and meets the range. -/
theorem State.mem_foreign {s : State} {a n b : Nat} {w : Bool} (h : b ∈ s.foreign a n w) : inDram a = true ∧ a / 64 ≤ b ∧ b * 64 < a + n := by
  rw [State.foreign] at h
  split at h
  · next hd =>
    obtain ⟨e, he, rfl⟩ := List.mem_map.1 h
    obtain ⟨hr, -⟩ := by simpa using (List.mem_filter.1 he).2
    exact ⟨hd, hr⟩
  · cases h

/-- Cells outside the blocks of a write in DRAM stand as they did once its blocks are under its key (R453). -/
theorem State.sparseGet_rekeyed {s : State} {a n c : Nat} (hm : sparseWf (fun _ => (0 : Byte)) s.mem = true)
    (hc : inDram a = true → c < 64 * (a / 64) ∨ 64 * ((a + n + 63) / 64) ≤ c) :
    sparseGet (fun _ => 0) (s.rekeyed a n) c = sparseGet (fun _ => 0) s.mem c := by
  refine (List.foldlRecOn (motive := fun m => sparseWf (fun _ => (0 : Byte)) m = true ∧
    sparseGet (fun _ => 0) m c = sparseGet (fun _ => 0) s.mem c) _ _ ⟨hm, rfl⟩ fun m ⟨hw, hg⟩ b hb => ⟨sparseSetList_wf hw, ?_⟩).2
  obtain ⟨hd, hlo, hhi⟩ := State.mem_foreign hb
  have hlen : (s.deciphered b true).length = 64 := by simp [State.deciphered]
  have hc := hc hd
  rw [sparseGet_setList_other hw (by omega), hg]

/-- A write changes no cell that it does not touch. -/
theorem State.sparseGet_writeBytes {s : State} {a c : Nat} {l : List Byte} (hm : sparseWf (fun _ => (0 : Byte)) s.mem = true)
    (hc : s.touches (a, l.length) c = false) : sparseGet (fun _ => 0) (s.writeBytes a l).mem c = sparseGet (fun _ => 0) s.mem c := by
  have hout : (inDram (s.cell a) = true → c < 64 * (s.cell a / 64) ∨ 64 * ((s.cell a + l.length + 63) / 64) ≤ c) ∧
      (c < s.cell a ∨ s.cell a + l.length ≤ c) := by
    by_cases hd : inDram (s.cell a) = true
    · simp only [State.touches, hd, if_true, decide_eq_false_iff_not] at hc
      exact ⟨fun _ => by omega, by omega⟩
    · simp only [State.touches, hd] at hc
      exact ⟨fun h => absurd h hd, by simp at hc; omega⟩
  obtain ⟨hblocks, hcells⟩ := hout
  rw [State.writeBytes, State.charge_mem]
  exact (sparseGet_setList_other (State.rekeyed_wf _ _ hm) hcells).trans (State.sparseGet_rekeyed hm hblocks)

/-- The cell that an address names is read from the blocks GLK and PCIE. -/
theorem State.cell_congr {s t : State} (a : Nat)
    (h : ∀ (f : Fld) i, f.reg.info.block = .GLK ∨ f.reg.info.block = .PCIE → t.fld f i = s.fld f i) : t.cell a = s.cell a := by
  have hg : ∀ f : Fld, f.reg.info.block = .GLK → ∀ i, t.fld f i = s.fld f i := fun f hf i => h f i (.inl hf)
  have hp : ∀ f : Fld, f.reg.info.block = .PCIE → ∀ i, t.fld f i = s.fld f i := fun f hf i => h f i (.inr hf)
  have hl : ∀ a, t.localAddr a = s.localAddr a := fun a => by simp only [State.localAddr, hg F.GLK_ID_MEMBER rfl]
  have hw : ∀ a n, t.window a n = s.window a n := fun a n => by
    simp only [State.window, State.flag, hp F.PCIE_CFG_ROLE rfl, hp F.PCIE_OBWIN_ATTR_EN rfl, hp F.PCIE_OBWIN_BASE_BASE rfl,
      hp F.PCIE_OBWIN_SIZE_SIZE rfl, hp F.PCIE_OBWIN_PADDR_PADDR rfl]
    rfl
  simp only [State.cell, hl, hw]

/-- From o on, of what regsOutside names nothing but registers of the blocks bs has changed, of memory nothing but what the ranges rs touch,
and memory and the register file are canonical. -/
structure Writes (bs : List Block) (rs : List (Nat × Nat)) (o t : State) : Prop where
  wf : t.regsWf
  memWf : sparseWf (fun _ => (0 : Byte)) t.mem = true
  regs : o.regsOutside t bs
  cells : o.memOutside t rs

/-- What changes only registers of the blocks writes no memory. -/
theorem Within.writes {bs : List Block} {rs : List (Nat × Nat)} {o t : State} (h : Within bs o t)
    (hm : sparseWf (fun _ => (0 : Byte)) o.mem = true) : Writes bs rs o t :=
  have ⟨hwf, hmem, hregs⟩ := h
  ⟨hwf, hmem ▸ hm, hregs, fun _ _ => by rw [hmem]⟩

/-- Slots lie as the registers say. -/
theorem State.slotAddr_congr {s t : State} (h : t.regs = s.regs) (k : Nat) : t.slotAddr k = s.slotAddr k := by
  simp only [State.slotAddr, State.slotBytes, State.fld_congr (State.word_congr h _ _ _)]

/-- A stream that is found bears the name. -/
theorem State.stream?_partition {s : State} {p q : Nat} {x : Stream} (h : s.stream? p q = some x) : x.partition = p := by
  have hx := List.find?_some h
  simp only [Bool.and_eq_true, beq_iff_eq] at hx
  exact hx.1

theorem Stream.header_length (x : Stream) : x.header.length = 32 := by simp [Stream.header]

namespace Writes

variable {bs : List Block} {rs : List (Nat × Nat)} {o t u : State}

theorem within (h : Writes bs rs o t) (g : Within bs t u) : Writes bs rs o u := by
  obtain ⟨-, hm, ⟨hf, hc, hw⟩, hcells⟩ := h
  obtain ⟨hwf, gm, gf, gc, gw⟩ := g
  exact ⟨hwf, gm ▸ hm, ⟨gf.trans hf, gc.trans hc, fun r i j hr => (gw r i j hr).trans (hw r i j hr)⟩, fun c h => gm ▸ hcells c h⟩

theorem congr (h : Writes bs rs o t) (hr : u.regs = t.regs) (hm : u.mem = t.mem) (hf : u.flash = t.flash) (hc : u.chip = t.chip) :
    Writes bs rs o u := h.within ((Within.refl h.wf).congr hr hm hf hc)

theorem ite {c : Prop} [Decidable c] (h : Writes bs rs o t) (g : Writes bs rs o u) : Writes bs rs o (if c then t else u) := by
  split <;> assumption

theorem regWrite {b : Block} {a : Bool} (h : Writes bs rs o t) (g : Writes bs rs o u) : Writes bs rs o (t.regWrite b a u) :=
  ite (g.congr rfl rfl rfl rfl) (h.congr rfl rfl rfl rfl)

section
variable (hg : Block.GLK ∉ bs) (hp : Block.PCIE ∉ bs)
include hg hp

theorem cell_eq (h : Writes bs rs o t) (a : Nat) : t.cell a = o.cell a := by
  obtain ⟨-, -, hw⟩ := h.regs
  exact State.cell_congr a fun f i hf => State.fld_congr (hw _ _ _ (by rcases hf with e | e <;> simpa [e]))

theorem writeBytes {a : Nat} {l : List Byte} (hr : (a, l.length) ∈ rs) (h : Writes bs rs o t) : Writes bs rs o (t.writeBytes a l) := by
  have hcell : t.cell a = o.cell a := h.cell_eq hg hp a
  have hk := State.writeBytes_keeps t a l (Keeps.refl t)
  obtain ⟨hwf, hm, ⟨hf, hc, hw⟩, hcells⟩ := h
  refine ⟨hk.regs hwf, hk.mem hm, ⟨by simpa using hf, by simpa using hc, fun r i j hr => ?_⟩, fun c hout => ?_⟩
  · exact (State.word_congr (State.writeBytes_regs ..) r i j).trans (hw r i j hr)
  · have ht : t.touches (a, l.length) c = false := by simpa only [State.touches, hcell] using hout _ hr
    exact (State.sparseGet_writeBytes hm ht).trans (hcells c hout)

/-- The device's own write, and one for a partition. -/
theorem sysWrite {a : Nat} {l : List Byte} (hr : (a, l.length) ∈ rs) (h : Writes bs rs o t) : Writes bs rs o (t.sysWrite a l) :=
  have hk : Writes bs rs o t.sys := h.congr rfl rfl rfl rfl
  (hk.writeBytes hg hp hr).congr rfl rfl rfl rfl

theorem swapWrite {p a : Nat} {l : List Byte} (hr : (a, l.length) ∈ rs) (h : Writes bs rs o t) : Writes bs rs o (t.swapWrite p a l) :=
  have hk : Writes bs rs o (t.keyed (initiator 5 p)) := h.congr rfl rfl rfl rfl
  (hk.writeBytes hg hp hr).congr rfl rfl rfl rfl

variable (hb : Block.SCAN ∈ bs) (hm : Block.ME ∈ bs)
include hb hm

omit hg hp in
theorem setStream {x : Stream} (h : Writes bs rs o t) : Writes bs rs o (t.setStream x) := h.within ((Within.refl h.wf).setStream hb hm)

/-- A stream's header goes to its slot, or to its entry of the swap area. -/
theorem putStream {x : Stream} (hslot : ∀ k, x.slot = some k → (t.slotAddr k, 32) ∈ rs)
    (hswap : x.slot = none → ∀ e, x.swap = some e → (t.swapAddr x.partition e, 32) ∈ rs) (h : Writes bs rs o t) :
    Writes bs rs o (t.putStream x) := by
  unfold State.putStream
  refine setStream hb hm ?_
  split
  · next k hk => exact sysWrite hg hp (x.header_length ▸ hslot k hk) h
  · next e hk he => exact swapWrite hg hp (x.header_length ▸ hswap hk e he) h
  · exact h

/-- A state goes to the copy of the slot that is not current. -/
theorem storeState {x : Stream} {c : ScanCopy}
    (hslot : ∀ k, x.slot = some k → (t.slotAddr k + x.copyOff (!x.current), (c.bytes x.fmt).length) ∈ rs ∧ (t.slotAddr k, 32) ∈ rs)
    (hswap : x.slot = none → ∀ e, x.swap = some e → (t.swapAddr x.partition e, 32) ∈ rs) (h : Writes bs rs o t) :
    Writes bs rs o (t.storeState x c) := by
  unfold State.storeState
  split
  · next k hk =>
    obtain ⟨hcopy, hhead⟩ := hslot k hk
    have hregs : (t.sysWrite (t.slotAddr k + x.copyOff (!x.current)) (c.bytes x.fmt)).regs = t.regs := State.writeBytes_regs ..
    refine putStream hg hp hb hm (fun j hj => ?_) (fun hn => ?_) (sysWrite hg hp hcopy h)
    · obtain rfl : k = j := Option.some.inj (hk.symm.trans hj)
      rwa [State.slotAddr_congr hregs]
    · cases hk.symm.trans hn
  · next hn => exact putStream hg hp hb hm (fun k hk => by cases hn.symm.trans hk) hswap h

/-- R199: the slot's bytes go to the free entry of the swap area. -/
theorem swapOut {p q : Nat} {x : Stream} (hx : t.stream? p q = some x) (h : Writes bs (t.swapOutRange p q) o t) :
    Writes bs (t.swapOutRange p q) o (t.swapOut x) := by
  obtain rfl := State.stream?_partition hx
  unfold State.swapOut
  split
  · next k e _ he =>
    have hr : (t.swapAddr x.partition e, (t.sysBytes (t.slotAddr k) t.slotBytes).length) ∈ t.swapOutRange x.partition q := by
      simp [State.swapOutRange, hx, he, State.sysBytes, State.bytes_length]
    have hs : Writes bs (t.swapOutRange x.partition q) o ((t.swapWrite x.partition (t.swapAddr x.partition e)
        (t.sysBytes (t.slotAddr k) t.slotBytes)).setStream { x with slot := none, swap := some e }) :=
      setStream hb hm (swapWrite hg hp hr h)
    exact hs.within ((Within.refl hs.wf).addFld hb)
  · exact h

/-- R201: an unpinned stream's state. -/
theorem unpinStream {p q : Nat} {x : Stream} (hx : t.stream? p q = some x) (hpin : x.pin ≠ none) (hlock : ¬x.lock.isSome = true)
    (h : Writes bs (t.unpinRanges p q) o t) : Writes bs (t.unpinRanges p q) o (t.unpinStream x) := by
  obtain rfl := State.stream?_partition hx
  have hstore (hno : (if t.fnState fnSmem = stRunning then none else t.freeEntry x.partition) = none) :
      Writes bs (t.unpinRanges x.partition q) o (t.storeState { x with pin := none, held := {} } x.held) := by
    refine storeState hg hp hb hm (fun k hk => ?_) (fun hk e he => ?_) h
    · have hk : x.slot = some k := hk
      simp [State.unpinRanges, hx, hpin, hlock, hno, hk, Stream.copyOff]
    · have hk : x.slot = none := hk
      have he : x.swap = some e := he
      simp [State.unpinRanges, hx, hpin, hlock, hno, hk, he]
  unfold State.unpinStream
  split
  · next e he =>
    split
    · next hrun => exact hstore (if_pos hrun)
    · next hrun =>
      refine setStream hb hm (swapWrite hg hp ?_ h)
      simp [State.unpinRanges, hx, hpin, hlock, hrun, he, Stream.header_length]
  · next he => exact hstore (by rw [he, ite_self])

/-- UNPIN of the stream that SCAN_PINCTL names. -/
theorem doUnpin (hop : t.fld F.SCAN_PINCTL_OP ≠ 1)
    (h : Writes bs (t.unpinRanges (t.fld F.SCAN_PINCTL_PARTITION) (t.fld F.SCAN_PINCTL_SEQ)) o t) :
    Writes bs (t.unpinRanges (t.fld F.SCAN_PINCTL_PARTITION) (t.fld F.SCAN_PINCTL_SEQ)) o t.doPin := by
  have h0 := Within.refl (bs := bs) h.wf
  unfold State.doPin
  split
  · exact h.within (h0.pinAnswer hb)
  · next x hx =>
    split
    · exact h.within (h0.setFlag hb)
    · next hlock =>
      split
      · exact h.within (h0.pinAnswer hb)
      · next hpin =>
        have hu := unpinStream hg hp hb hm hx (by simpa using hpin) hlock h
        exact hu.within ((Within.refl hu.wf).pinAnswer hb)

end

end Writes

/-! A write of SCAN_PINCTL (R200, R201). -/

section
variable {s : State} (h : s.Canon)
include h

/-- The request's fields read as they were written. -/
theorem State.Canon.fld_writePin (op v : Nat) :
    (s.setReg .SCAN_PINCTL (2 ^ 60 * op + v % 2 ^ 60)).fld F.SCAN_PINCTL_OP = op % 16 ∧
    (s.setReg .SCAN_PINCTL (2 ^ 60 * op + v % 2 ^ 60)).fld F.SCAN_PINCTL_PARTITION = bitsOf v 59 54 ∧
    (s.setReg .SCAN_PINCTL (2 ^ 60 * op + v % 2 ^ 60)).fld F.SCAN_PINCTL_SEQ = bitsOf v 23 0 := by
  have hf : ∀ f : Fld, f.reg = .SCAN_PINCTL → (s.setReg .SCAN_PINCTL (2 ^ 60 * op + v % 2 ^ 60)).fld f =
      bitsOf ((2 ^ 60 * op + v % 2 ^ 60) % 2 ^ 64) f.hi f.lo := fun f e => by
    rw [← e, State.fld_setReg_same _ _ _ _ h, Fld.of, BitVec.toNat_ofNat]
  rw [hf _ rfl, hf _ rfl, hf _ rfl]
  simp only [bitsOf, Nat.shiftRight_eq_div_pow]
  omega

/-- The ranges that UNPIN writes do not depend on the request's register. -/
theorem State.Canon.unpinRanges_setReg (n p q : Nat) : (s.setReg .SCAN_PINCTL n).unpinRanges p q = s.unpinRanges p q := by
  have hslot : ∀ k, (s.setReg .SCAN_PINCTL n).slotAddr k = s.slotAddr k := fun k => by simp [State.slotAddr, State.slotBytes, h]
  have hbytes : (s.setReg .SCAN_PINCTL n).slotBytes = s.slotBytes := by simp [State.slotBytes, h]
  have hsmem : (s.setReg .SCAN_PINCTL n).fnState fnSmem = s.fnState fnSmem := by simp [State.fnState, fnFld, h]
  have hfree : (s.setReg .SCAN_PINCTL n).freeEntry p = s.freeEntry p := by rw [State.freeEntry, hbytes]; rfl
  have haddr : ∀ p e, (s.setReg .SCAN_PINCTL n).swapAddr p e = s.swapAddr p e := fun p e => by rw [State.swapAddr, hbytes]; rfl
  simp only [State.unpinRanges, hslot, hsmem, hfree, haddr]
  rfl

end

end Sys2Proof.Machine

namespace Sys2Proof.Machine

/-! The commands that leave more than one unit's registers alone. -/

namespace Within

variable {bs : List Block} {o t u : State}

/-- R286, R287: a repair's answer, and the repair that waits. -/
theorem repaired {r : Nat} {l : List (Nat × Nat × Bool)} (hb : Block.ESC ∈ bs) (h : Within bs o t) :
    Within bs o { t.putFld F.ESC_REPSTAT_RESULT r with esc := { t.esc with repairs := l } } :=
  have hs : Within bs o (t.putFld F.ESC_REPSTAT_RESULT r) := putFld h hb
  hs.congr rfl rfl rfl rfl

/-- R275: a queue that is OFF, and its context. -/
theorem drained {q : Nat} (hb : Block.CMDQ ∈ bs) (he : Block.ESC ∈ bs) (h : Within bs o t) (ht : execQueueDrained q t = .next u) :
    Within bs o u := by
  obtain rfl := Host.Outcome.next.inj ht
  have hs : Within bs o (t.putFld F.CMDQ_QSTAT_STATE stOff q) := putFld h hb
  split
  · dsimp only
    split
    · exact hs.ctxRecover he
    · exact hs
  · exact h

/-- R284, R285: an epoch of the latency guard. -/
theorem guarded (hb : Block.ESC ∈ bs) (hl : Block.LOG ∈ bs) (h : Within bs o t) (ht : execGuardEpoch t = .next u) : Within bs o u := by
  obtain rfl := Host.Outcome.next.inj ht
  have hv : ∀ l m : List Nat, Within bs o (m.foldl State.guardVictim
      (l.foldl (fun u p => u.putFld F.ESC_P99_P99_US (satNat 16 (t.p99Of p)) p) t)) := fun _ _ =>
    foldl (fun _ _ hu => hu.guardVictim hb hl) (foldl (fun _ _ hu => hu.putFld hb) h)
  refine ite ?_ h
  exact congr (ite ((hv _ _).relax hb hl) (hv _ _)) rfl rfl rfl rfl

/-- R336: a sensor's write that is answered. -/
theorem i3cDone {n : Nat} {ok : Bool} (hb : Block.CAM ∈ bs) (hl : Block.LOG ∈ bs) (h : Within bs o t) (ht : execI3cWriteDone n ok t = .next u) :
    Within bs o u := by
  obtain rfl := Host.Outcome.next.inj ht
  dsimp only
  split
  · exact h
  · exact ite (ite (h.issued hb) (((h.issued hb).addFld (f := F.CAM_SENSSTAT_LATE_CNT) hb).anyEvent hl))
      (ite ((h.setSensor.addFld (f := F.CAM_SENSSTAT_FAIL_CNT) hb).anyEvent hl) h.i3cWrite.setSensor)

/-- R141: a region swaps to its new frame and key. -/
theorem rewoven (hb : Block.MEMC ∈ bs) (hl : Block.LOG ∈ bs) (h : Within bs o t) (ht : execReweaveDone t = .next u) : Within bs o u := by
  obtain rfl := Host.Outcome.next.inj ht
  have hr : ∀ {u n i}, Within bs o u → Within bs o ((u.putFld F.MEMC_REGION_FRAME n i).addFld F.MEMC_REGION_KEY_GEN 1 i) := fun hu =>
    addFld (putFld hu hb) hb
  have hs : ∀ {u n}, Within bs o u → Within bs o ((u.putFld F.MEMC_CAP_RESERVE_FRAME n).putFld F.MEMC_RW_STAT_STATE 0) := fun hu =>
    putFld (putFld hu hb) hb
  have hc : ∀ {u n}, Within bs o u → Within bs o ((u.addFld F.MEMC_RW_COUNT_DONE 1).setReg .MEMC_RW_PTR n) := fun hu =>
    setReg (addFld hu hb) hb
  exact ite (anyEvent (congr (hc (hs (hr h))) rfl rfl rfl rfl) hl) h

end Within

namespace Writes

variable {s u : State} (hs : s.Canon) (hm : sparseWf (fun _ => (0 : Byte)) s.mem = true)
include hs hm

/-- R199: SCAN_SWAP_OUT stores in the entry of the swap area that the stream takes. -/
theorem swappedOut {p q : Nat} (hu : execScanSwapOut p q s = .next u) : Writes [.SCAN, .ME] (s.swapOutRange p q) s u := by
  obtain rfl := Host.Outcome.next.inj hu
  have h0 : Writes [.SCAN, .ME] (s.swapOutRange p q) s s := (Within.refl hs).writes hm
  split
  · next x hx =>
    exact ite (h0.swapOut (by decide) (by decide) (by decide) (by decide) hx) h0
  · exact h0

/-- R201: UNPIN stores in the swap area or in the stream's slot. -/
theorem unpinned {w : RegWrite} (hu : execUnpin w s = .next u) :
    Writes [.SCAN, .ME] (s.unpinRanges (bitsOf w.value 59 54) (bitsOf w.value 23 0)) s u := by
  obtain rfl := Host.Outcome.next.inj hu
  have h0 : Within [.SCAN, .ME] s s := .refl hs
  have ht : Within [.SCAN, .ME] s (s.setReg .SCAN_PINCTL (2 ^ 60 * 2 + w.value % 2 ^ 60)) := h0.setReg (by decide)
  obtain ⟨hop, hpart, hseq⟩ := hs.fld_writePin 2 w.value
  have hd : Writes [.SCAN, .ME] (s.unpinRanges (bitsOf w.value 59 54) (bitsOf w.value 23 0)) s
      (s.setReg .SCAN_PINCTL (2 ^ 60 * 2 + w.value % 2 ^ 60)).doPin := by
    have hd := doUnpin (o := s) (bs := [.SCAN, .ME]) (by decide) (by decide) (by decide) (by decide) (by rw [hop]; decide) (ht.writes hm)
    rwa [hpart, hseq, hs.unpinRanges_setReg] at hd
  exact regWrite (h0.writes hm) (ite (h0.writes hm) hd)

end Writes

/-- Settles O58: each command is a chain of writes to registers of its own blocks; the two that move a stream also store its bytes. -/
theorem framesOfUnits : Obligations.FramesOfUnits := by
  intro s u hs
  have hcanon : s.Canon := hs
  have h0 : ∀ bs, Within bs s s := fun bs => .refl hs
  refine ⟨fun q w => ?_, fun q => ?_, fun q => ?_, fun q i => ?_, fun q => ?_, ?_, fun k w => ?_, fun k w => ?_, fun c n => ?_, fun w => ?_,
    fun p q hm => ?_, fun w => ?_, fun w hm => ?_, ?_, fun x => ?_, fun k => ?_, fun n w => ?_, fun n ok => ?_, fun n r => ?_, fun a => ?_,
    fun a w => ?_, fun a w => ?_, fun n w => ?_, fun n w => ?_, fun n w => ?_, fun a w => ?_, fun w => ?_, fun w => ?_, fun w => ?_⟩
  all_goals rintro ⟨⟩
  case refine_11 =>
    have hm : sparseWf (fun _ => (0 : Byte)) s.mem = true := (Bool.and_eq_true_iff.1 hm).1
    have hw := Writes.swappedOut (p := p) (q := q) hcanon hm rfl
    exact ⟨hw.regs, hw.cells⟩
  case refine_13 =>
    have hm : sparseWf (fun _ => (0 : Byte)) s.mem = true := (Bool.and_eq_true_iff.1 hm).1
    have hw := Writes.unpinned (w := w) hcanon hm rfl
    exact ⟨hw.regs, hw.cells⟩
  all_goals refine Within.same ?_
  · exact .ite ((h0 _).doorbell (by decide)) (h0 _).busErr
  · exact .ite (h0 _) (h0 _).setUdp.send
  · exact .ite (h0 _).send (h0 _)
  · exact .ite (h0 _) ((h0 _).ringFault (by decide))
  · exact (h0 _).drained (by decide) (by decide) rfl
  · exact (h0 _).guarded (by decide) (by decide) rfl
  · exact .ite ((h0 _).writeWatch (by decide) (by decide)) (h0 _).busErr
  · exact .ite (h0 _).busErr (.ite (.accessed (.syncRefuse (by decide) (by decide) (h0 _)))
      (.paramWrite (by decide) (h0 _) ((h0 _).setReg (by decide))))
  · split
    · exact .ite ((h0 _).congr rfl rfl rfl rfl) (h0 _)
    · exact h0 _
  · exact (h0 _).regWrite (.ite (h0 _) (.ite ((h0 _).repaired (by decide)) ((h0 _).putFld (by decide))))
  · have hs : Within [.SCAN, .ME] s (s.setReg .SCAN_PINCTL (2 ^ 60 * 1 + w.value % 2 ^ 60)) := (h0 _).setReg (by decide)
    obtain ⟨hop, -, -⟩ := State.Canon.fld_writePin hcanon 1 w.value
    exact (h0 _).regWrite (.ite (h0 _) (hs.doPin (by decide) (by decide) hop))
  · exact (h0 _).rewoven (by decide) (by decide) rfl
  · have ht : Within [.CAM, .LOG] s ((s.bound x.rx x.vc).foldl State.endFrame (s.eccCorrected x.rx x.corrected)) :=
      .foldl (fun _ _ hu => hu.endFrame (by decide) (by decide)) ((h0 _).eccCorrected (by decide))
    exact .ite (h0 _) (.ite ht.issue ht)
  · exact (h0 _).truncate (by decide) (by decide)
  · exact .ite (h0 _).busErr ((h0 _).regWrite (.ite ((h0 _).commit (by decide)) (h0 _)))
  · exact (h0 _).i3cDone (by decide) (by decide) rfl
  · exact .ite ((h0 _).congr rfl rfl rfl rfl) (h0 _)
  · exact .ite ((h0 _).safePattern (by decide)) (h0 _)
  · exact .ite (h0 _).busErr ((h0 _).regWrite (.ite ((h0 _).putFld (by decide)) (h0 _)))
  · exact .ite (h0 _).busErr ((h0 _).regWrite ((h0 _).flushAxis (by decide)))
  · exact .ite (h0 _).busErr ((h0 _).regWrite (.ite (.setTrace ((h0 _).setReg (by decide))) (h0 _)))
  · exact .ite (h0 _).busErr ((h0 _).regWrite ((h0 _).traceFire (by decide) (by decide)))
  · exact .ite (h0 _).busErr ((h0 _).regWrite ((h0 _).putFld (by decide)))
  · exact .ite (h0 _).busErr ((h0 _).regWrite (.putFld ((h0 _).pushEntry (by decide) (by decide)) (by decide)))
  · exact (h0 _).regWrite (.ite ((h0 _).dbgResult (by decide)) (.dbgResult (by decide) ((h0 _).newNonce (by decide))))
  · have hd : ∀ r, Within [.SEC, .LOG] s (s.dbgDeny r) := fun r => (h0 _).dbgDeny (by decide) (by decide)
    exact (h0 _).regWrite (.ite ((h0 _).dbgResult (by decide)) (.ite (hd 1) (.ite (hd 2)
      (.ite ((h0 _).dbgGrant (by decide) (by decide)) (hd 3)))))
  · exact (h0 _).regWrite (.dbgResult (by decide) (.putFld ((h0 _).putFld (by decide)) (by decide)))

end Sys2Proof.Machine

namespace Sys2Proof.Machine

/-! Canonical form along every step (R119, R122). -/

/-- A step keeps what a command keeps, from the state whose queue it leaves. -/
theorem step_keeps (s : State) : KeepsOut { s with pending := s.pending.tail } (step s) := by
  rw [step]
  split
  · next c l hl =>
    rw [hl]
    exact exec_keeps _ _ (Keeps.refl _)
  · next hl =>
    exact State.idle_keeps _ ((Keeps.refl _).congr rfl rfl rfl (by simp [hl]) rfl)

/-- Settles O41: a step keeps memory, flash and the register file canonical because each command does (`exec_keeps`). -/
theorem stepsKeepCanonicalForm : Obligations.StepsKeepCanonicalForm := by
  rintro s t ⟨hm, hr⟩ h
  obtain ⟨hmem, hflash⟩ := Bool.and_eq_true_iff.1 hm
  have hk : Keeps { s with pending := s.pending.tail } t := keepsOut_next.1 (h ▸ step_keeps s)
  exact ⟨Bool.and_eq_true_iff.2 ⟨hk.mem hmem, hk.flash hflash⟩, hk.regs hr⟩

end Sys2Proof.Machine

namespace Sys2Proof.Machine

/-! Shared memory (R119, R122, R129). -/

/-- What was written at consecutive keys is read back. -/
theorem sparseGetList_setList {α : Type} [DecidableEq α] {d : Nat → α} : ∀ {m : List (Nat × α)} {k : Nat} {vs : List α},
    sparseWf d m = true → sparseGetList d (sparseSetList d m k vs) k vs.length = vs
  | _, _, [], _ => rfl
  | m, k, v :: vs, h => by
    have hv : sparseGet d (sparseSetList d (sparseSet d m k v) (k + 1) vs) k = v := by
      rw [sparseGet_setList_other (sparseSet_wf h) (.inl (Nat.lt_succ_self k)), sparseGet_set_same h]
    exact congrArg₂ List.cons hv (sparseGetList_setList (sparseSet_wf h))

section
variable {s : State} {a : Nat}

section
variable (ha : a ≤ 0x10000000)
include ha

/-- R123: an address of SMEM is below every window, and names its own cell. -/
theorem State.cell_smem : s.cell a = a := by
  have hl : s.localAddr a = a := if_neg (by omega)
  rw [State.cell, hl]
  exact if_neg (by omega)

/-- R453: SMEM is not enciphered. -/
theorem State.foreign_smem (n : Nat) (w : Bool) : s.foreign a n w = [] :=
  if_neg (by rw [inDram, decide_eq_true_eq]; omega)

/-- R129: bytes of SMEM read as stored, where no granule is under scrub. -/
theorem State.bytes_smem {n : Nat} (h : s.scrubbing a n = false) : s.bytes a n = sparseGetList (fun _ => 0) s.mem a n := by
  simp [State.bytes, State.cell_smem ha, State.foreign_smem ha, h]

/-- R129: a byte of SMEM reads as stored, or zero where its granule is under scrub. -/
theorem State.byte_smem : s.byte a = s.stored a := by
  cases h : s.scrubbing a 1
  · simp [State.byte, State.bytes_smem ha h, sparseGetList, State.stored, h]
  · simp [State.byte, State.bytes, State.cell_smem ha, State.foreign_smem ha, h]

theorem State.writeBytes_mem_smem (l : List Byte) : (s.writeBytes a l).mem = sparseSetList (fun _ => 0) s.mem a l := by
  rw [State.writeBytes, State.charge_mem, State.putBytes, State.rekeyed, State.cell_smem ha, State.foreign_smem ha, List.foldl_nil]

/-- A store to SMEM touches its own bytes alone. -/
theorem State.touches_smem {n c : Nat} (hc : c < a ∨ a + n ≤ c) : s.touches (a, n) c = false := by
  have hd : inDram a = false := by rw [inDram, decide_eq_false_iff_not]; omega
  simp only [State.touches, State.cell_smem ha, hd, Bool.false_eq_true, if_false, decide_eq_false_iff_not]
  omega

end

/-- A store scrubs nothing. -/
theorem State.writeBytes_scrubbing (l : List Byte) (b n : Nat) : (s.writeBytes a l).scrubbing b n = s.scrubbing b n := by
  rw [State.scrubbing, State.writeBytes_scrub, State.scrubbing]

end

/-- Settles O51: a store to SMEM is a run of writes at the addresses themselves, which reads follow but for granules under scrub. -/
theorem smemStoresReadBack : Obligations.SmemStoresReadBack := by
  intro s a l hw hal
  have hm : sparseWf (fun _ => (0 : Byte)) s.mem = true := (Bool.and_eq_true_iff.1 hw).1
  have ha : a ≤ 0x10000000 := by omega
  refine ⟨fun h => ?_, fun b hb hout => ?_, fun b hb h => ?_, State.writeBytes_regs .., State.writeBytes_flash .., State.writeBytes_chip ..⟩
  · rw [State.bytes_smem ha (by rw [State.writeBytes_scrubbing, h]), State.writeBytes_mem_smem ha, sparseGetList_setList hm]
  · rw [State.byte_smem hb.le, State.byte_smem hb.le, State.stored, State.stored, State.writeBytes_scrubbing,
      State.sparseGet_writeBytes hm (State.touches_smem ha hout)]
  · rw [State.byte_smem hb.le, State.stored, State.writeBytes_scrubbing, if_pos h]

end Sys2Proof.Machine

namespace Sys2Proof.Machine

/-! The Randing hash (R134). -/

theorem parity16_le_one (u : Nat) : parity16 u ≤ 1 := by
  refine foldl_inv (P := fun n => n ≤ 1) (fun n i h => ?_) (Nat.zero_le 1)
  have hb : b2n (u.testBit i) < 2 ^ 1 := by cases u.testBit i <;> decide
  have := Nat.xor_lt_two_pow (n := 1) (Nat.lt_succ_of_le h) hb
  omega

/-- A number put together from n bits is below 2^n. -/
theorem foldl_bits_lt {f : Nat → Nat} (hf : ∀ i, f i ≤ 1) (n : Nat) : (List.range n).foldl (fun m i => m + f i * 2 ^ i) 0 < 2 ^ n := by
  induction n with
  | zero => exact Nat.one_pos
  | succ n ih =>
    have hb := Nat.mul_le_mul_right (2 ^ n) (hf n)
    rw [List.range_succ, List.foldl_append, List.foldl_cons, List.foldl_nil, Nat.pow_succ]
    omega

/-- A key folds six bits. -/
theorem randingFold_lt (key u : Nat) : randingFold key u < 2 ^ 6 := foldl_bits_lt (fun _ => parity16_le_one _) 6

/-- R134: the granule of 256 bytes that takes a granule's place: its low six bits folded with the key and the others. -/
def randingGranule (key g : Nat) : Nat := g / 64 * 64 + (g % 64 ^^^ randingFold key (g / 64))

theorem randingGranule_split (key g : Nat) : randingGranule key g / 64 = g / 64 ∧
    randingGranule key g % 64 = g % 64 ^^^ randingFold key (g / 64) := by
  have hx : g % 64 ^^^ randingFold key (g / 64) < 2 ^ 6 := Nat.xor_lt_two_pow (Nat.mod_lt _ (by decide)) (randingFold_lt ..)
  rw [randingGranule]
  omega

/-- A granule taken twice is in place again: what is folded in comes from the bits that stay. -/
theorem randingGranule_involutive (key : Nat) : Function.Involutive (randingGranule key) := fun g => by
  obtain ⟨hd, hm⟩ := randingGranule_split key g
  rw [randingGranule, hd, hm, Nat.xor_xor_cancel_right]
  omega

/-- A region's granules stay its own. -/
theorem randingGranule_lt {key g : Nat} : randingGranule key g < 2 ^ 22 ↔ g < 2 ^ 22 := by
  obtain ⟨hd, -⟩ := randingGranule_split key g
  omega

theorem randing_64 (key o : Nat) :
    randing key 64 o = (randingGranule key (o / 256) % 64, randingGranule key (o / 256) / 64 * 256 + o % 256) := by
  obtain ⟨hd, hm⟩ := randingGranule_split key (o / 256)
  rw [hd, hm]; rfl

theorem randing_32 (key o : Nat) : randing key 32 o = (randingGranule key (o / 256) % 64 / 2,
    (randingGranule key (o / 256) / 64 * 2 + randingGranule key (o / 256) % 2) * 256 + o % 256) := by
  obtain ⟨hd, hm⟩ := randingGranule_split key (o / 256)
  have hparity : randingGranule key (o / 256) % 2 = randingGranule key (o / 256) % 64 % 2 := by omega
  rw [hparity, hd, hm]; rfl

/-- Offsets are the same where granule and byte are. -/
theorem randingGranule_inj {key o o' : Nat} (h : randingGranule key (o / 256) = randingGranule key (o' / 256)) (hb : o % 256 = o' % 256) :
    o = o' := by
  have := (randingGranule_involutive key).injective h
  omega

/-- Every byte of every granule has an offset in the region. -/
theorem exists_randingGranule (key : Nat) {g b : Nat} (hg : g < 2 ^ 22) (hb : b < 256) :
    ∃ o < 2 ^ 30, randingGranule key (o / 256) = g ∧ o % 256 = b := by
  have hlt : randingGranule key g < 2 ^ 22 := randingGranule_lt.2 hg
  refine ⟨randingGranule key g * 256 + b, by omega, ?_, by omega⟩
  rw [show (randingGranule key g * 256 + b) / 256 = randingGranule key g by omega, randingGranule_involutive key g]

/-- Settles O52: a key permutes a region's granules (`randingGranule_involutive`), and a channel and place there are a granule's digits. -/
theorem randingIsOneToOne : Obligations.RandingIsOneToOne := by
  intro key
  refine ⟨fun o ho => ?_, fun o _ o' _ => ⟨fun h => ?_, fun h => ?_⟩, fun c hc off hoff => ?_, fun c hc off hoff => ?_⟩
  · have hlt : randingGranule key (o / 256) < 2 ^ 22 := randingGranule_lt.2 (by omega)
    rw [randing_64, randing_32]
    omega
  · simp only [randing_64, Prod.mk.injEq] at h
    exact randingGranule_inj (key := key) (by omega) (by omega)
  · simp only [randing_32, Prod.mk.injEq] at h
    exact randingGranule_inj (key := key) (by omega) (by omega)
  · obtain ⟨o, ho, hg, hb⟩ := exists_randingGranule key (g := off / 256 * 64 + c) (b := off % 256) (by omega) (by omega)
    refine ⟨o, ho, ?_⟩
    rw [randing_64, hg, hb, Prod.mk.injEq]
    omega
  · obtain ⟨o, ho, hg, hb⟩ := exists_randingGranule key (g := off / 512 * 64 + c * 2 + off / 256 % 2) (b := off % 256) (by omega) (by omega)
    refine ⟨o, ho, ?_⟩
    rw [randing_32, hg, hb, Prod.mk.injEq]
    omega

end Sys2Proof.Machine

namespace Sys2Proof.Machine

/-! General DMA, hotspots, re-weave and scrubs (R118, R129, R137 to R142, R144, R149). -/

theorem withBit_testBit (v i : Nat) : (withBit v i).testBit i = true := by
  rw [withBit]
  split
  · assumption
  · next h => rw [Nat.add_comm, Nat.testBit_two_pow_add_eq, Bool.eq_false_of_not_eq_true h]; rfl

section
variable {s : State} {c : Nat}

/-! DMA channels (R149). -/

section
variable {v : Nat}

/-- R149: a channel that is not firmware's, or is busy, takes no control. -/
theorem State.dmaControl_refused (h : s.fwChannel c = false ∨ s.fld F.DMA_STAT_STATE c = 1) : s.dmaControl c v = s := if_pos h

variable (hf : s.fwChannel c = true) (hb : s.fld F.DMA_STAT_STATE c ≠ 1) (hg : v.testBit 31 = true)
include hf hb hg

/-- R149: GO of a channel that takes it completes a length of 0 and starts any other. -/
theorem State.dmaControl_go : s.dmaControl c v = if s.dmaLen c = 0
    then ((s.setReg .DMA_CTL (2 ^ 22 * bitsOf v 30 22 + v % 2 ^ 16) c).dmaEnd c 0 2 0 csDone).dmaSignal c
    else (((s.setReg .DMA_CTL (2 ^ 22 * bitsOf v 30 22 + v % 2 ^ 16) c).setReg .DMA_DONE 0 c).putFld F.DMA_STAT_STATE 1 c).putFld
      F.DMA_STAT_CAUSE 0 c := by
  unfold State.dmaControl
  rw [if_neg (by simp [hf, hb])]
  exact if_neg (by simp [hg])

end

/-- DMA_GO of partition 0 takes the channel's control with GO. -/
theorem execDmaGo_allowed {w : RegWrite} (hc : c < 16) (hp : s.p0 w.initiator = true) (hg : s.gated .DMA = false) :
    execDmaGo c w s = .next (s.dmaControl c (withBit w.value 31)).accessed :=
  congrArg Host.Outcome.next (State.regWrite_allowed _ (by simp [hc, hp]) hg)

/-- R129: a transfer whose source is under scrub waits. -/
theorem execDmaDone_waits (h : s.dmaWaits c = true) : execDmaDone c s = .next s :=
  congrArg Host.Outcome.next (if_neg (by simp [h]))

section
variable {t : State} (hc : c < 16) (hb : s.fld F.DMA_STAT_STATE c = 1)
include hc hb

theorem execDmaDone_moved (h : s.dmaWaits c = false)
    (hm : dmaMove c (s.dmaLen c) 0 (s.keyed (initiator 5 (s.fld F.DMA_CTL_PARTITION c))) = (t, none)) :
    execDmaDone c s = .next ((t.dmaEnd c (s.dmaLen c) 2 0 csDone).dmaSignal c) := by
  unfold execDmaDone
  rw [if_pos ⟨hc, hb, h⟩, hm]; rfl

/-- R149: a denied byte ends the transfer; before an uncorrectable error it does so too. -/
theorem execDmaFault_denied {m j : Nat} {ecc : Bool}
    (hm : dmaMove c (if ecc then min m (s.dmaLen c - 1) else s.dmaLen c) 0 (s.keyed (initiator 5 (s.fld F.DMA_CTL_PARTITION c))) = (t, some j)) :
    execDmaFault c m ecc s = .next ((t.dmaDeny c j).dmaEnd c j 3 0x07 csEngine) := by
  unfold execDmaFault
  dsimp only
  rw [if_pos ⟨hc, hb⟩, hm]

theorem execDmaFault_uncorrectable {m : Nat} (hf : s.flag F.DMA_CTL_FILL c = false)
    (hm : dmaMove c (min m (s.dmaLen c - 1)) 0 (s.keyed (initiator 5 (s.fld F.DMA_CTL_PARTITION c))) = (t, none)) :
    execDmaFault c m true s = .next ((t.uncorrectable (s.dmaSrc c (min m (s.dmaLen c - 1))) c (s.fld F.DMA_CTL_PARTITION c)).dmaEnd c
      (min m (s.dmaLen c - 1)) 3 0x09 csEcc) := by
  unfold execDmaFault
  dsimp only
  rw [if_pos ⟨hc, hb⟩, if_pos rfl, hm]
  dsimp only
  rw [if_pos (by simp [hf])]

end

/-! Hotspots (R137, R138). -/

/-- OCCUPANCY_WINDOW of a usable FN_DRAM: the errors counted, the windows counted and shown, and a hot channel reported. -/
theorem execOccupancyWindow_usable {x : Occupancy} {t u : State} (ht : t = (x.corrected.foldl State.corrected s).patrol x.uncorrected)
    (hd : t.fnUsable fnDram = true) (hu : u = (t.countWindow (t.occOf x) x.requests).showOcc (t.occOf x)) :
    execOccupancyWindow x s = .next ((u.hotChannel (t.occOf x)).elim u u.hotspot) := by
  subst ht hu
  unfold execOccupancyWindow
  dsimp only
  rw [if_pos hd]
  split <;> next h => rw [h]; rfl

/-! Re-weave (R139 to R142). -/

/-- R144: a write of MEMC_RW_CTL by partition 0. -/
theorem State.writeRwCtl_allowed {init v : Nat} (hp : s.p0 init = true) (hg : s.gated .MEMC = false) :
    s.writeRwCtl init v = (s.reweaveControl v).accessed := State.regWrite_allowed _ hp hg

/-- R142: while a re-weave runs, ABORT stops it. -/
theorem State.reweaveControl_runs {v : Nat} (h : s.fld F.MEMC_RW_STAT_STATE ≠ 0) : s.reweaveControl v =
    if v.testBit 30 then (if v.testBit 29 then s.clearEccBlock else s).abortReweave 3 else if v.testBit 29 then s.clearEccBlock else s := if_pos h

/-- R139: while none runs, START starts one of a region that may be re-woven. -/
theorem State.reweaveControl_idle {v : Nat} (h : s.fld F.MEMC_RW_STAT_STATE = 0) : s.reweaveControl v =
    if v.testBit 31 && (if v.testBit 29 then s.clearEccBlock else s).mayReweave (v % 256)
    then (if v.testBit 29 then s.clearEccBlock else s).startReweave (v % 256) else if v.testBit 29 then s.clearEccBlock else s :=
  if_neg (not_not.2 h)

section
variable (h : s.Canon)
include h

@[simp] theorem State.Canon.addFld {f : Fld} {n i j : Nat} : (s.addFld f n i j).Canon := h.putFld
@[simp] theorem State.Canon.dataEvent {k d x p : Nat} : (s.dataEvent k d x p).Canon := State.dataEvent_regsWf h
@[simp] theorem State.Canon.fld_addFld_other {f g : Fld} {n i j i' j' : Nat}
    (e : ¬(g.reg = f.reg ∧ i' = i ∧ j' = j) ∨ f.hi < g.lo ∨ g.hi < f.lo) : (s.addFld f n i j).fld g i' j' = s.fld g i' j' :=
  h.fld_putFld_other e
@[simp] theorem State.Canon.fld_dataEvent {f : Fld} {k d x p i j : Nat} (hd : f.reg ≠ .LOG_DROP) (hs : f.reg ≠ .LOG_STATUS) :
    (s.dataEvent k d x p).fld f i j = s.fld f i j := State.fld_congr (State.word_dataEvent _ _ _ h hd hs)

/-- R142: an abort leaves the frames of all regions. -/
theorem State.Canon.abortReweave_frame (n : Nat) :
    (s.abortReweave c).fld F.MEMC_REGION_FRAME n = s.fld F.MEMC_REGION_FRAME n := by
  unfold State.abortReweave
  split
  · rfl
  · dsimp only
    split <;> simp [State.setFlag, h, h.putFld.putFld, h.putFld.putFld.addFld]

/-- R142: clearing the blocks of the first m regions leaves none of these blocked. -/
theorem State.Canon.clearBlocks {n : Nat} (m : Nat) :
    ((List.range m).foldl (fun t k => t.putFld F.MEMC_REGION_ECC_BLOCKED 0 k) s).Canon ∧
      (n < m → ((List.range m).foldl (fun t k => t.putFld F.MEMC_REGION_ECC_BLOCKED 0 k) s).fld F.MEMC_REGION_ECC_BLOCKED n = 0) := by
  induction m with
  | zero => exact ⟨h, fun hn => absurd hn (Nat.not_lt_zero n)⟩
  | succ m ih =>
    obtain ⟨hc, hz⟩ := ih
    rw [List.range_succ, List.foldl_append, List.foldl_cons, List.foldl_nil]
    refine ⟨hc.putFld, fun hm => ?_⟩
    rcases Nat.lt_succ_iff_lt_or_eq.1 hm with hlt | rfl
    · rw [hc.fld_putFld_other (.inl (by omega)), hz hlt]
    · simp [hc]

theorem State.Canon.clearEccBlock_flag {n : Nat} (hn : n < 192) : s.clearEccBlock.flag F.MEMC_REGION_ECC_BLOCKED n = false := by
  simp [State.flag, State.clearEccBlock, (h.clearBlocks 192).2 hn]

end

/-- R141: the registers at the end of a re-weave: the region in its new frame, the old one the reserve. -/
def State.swapFrames (s : State) : State :=
  (((((s.putFld F.MEMC_REGION_FRAME (s.fld F.MEMC_RW_STAT_TO_FRAME) (s.fld F.MEMC_RW_STAT_REGION)).addFld F.MEMC_REGION_KEY_GEN 1
    (s.fld F.MEMC_RW_STAT_REGION)).putFld F.MEMC_CAP_RESERVE_FRAME (s.fld F.MEMC_RW_STAT_FROM_FRAME)).putFld F.MEMC_RW_STAT_STATE 0).addFld
    F.MEMC_RW_COUNT_DONE 1).setReg .MEMC_RW_PTR (2 ^ 30 - 256)

/-- R141: a region takes the key that its re-weave drew; the time is kept for HOLDOFF (R139). -/
def State.swapKey (s : State) (n : Nat) : State :=
  { s with memc := { s.memc with
    keys := sparseSet (fun _ => 0) s.memc.keys n s.memc.newKey
    doneNs := s.memc.doneNs.filter (fun e => e.1 != n) ++ [(n, s.dev.nowNs)] } }

/-- REWEAVE_DONE of a copy that runs (R141). -/
theorem execReweaveDone_runs (h : s.fld F.MEMC_RW_STAT_STATE = 1) :
    execReweaveDone s = .next ((s.swapFrames.swapKey (s.fld F.MEMC_RW_STAT_REGION)).anyEvent 0x04 0x0003) :=
  congrArg Host.Outcome.next (if_pos h)

theorem State.Canon.swapFrames (h : s.Canon) : s.swapFrames.Canon := h.putFld.addFld.putFld.putFld.addFld.setReg

theorem State.Canon.swapFrames_flds (h : s.Canon) :
    s.swapFrames.fld F.MEMC_REGION_FRAME (s.fld F.MEMC_RW_STAT_REGION) = s.fld F.MEMC_RW_STAT_TO_FRAME % 256 ∧
    s.swapFrames.fld F.MEMC_CAP_RESERVE_FRAME = s.fld F.MEMC_RW_STAT_FROM_FRAME % 256 ∧ s.swapFrames.fld F.MEMC_RW_STAT_STATE = 0 := by
  simp [State.swapFrames, h, h.putFld.addFld, h.putFld.addFld.putFld.putFld]

/-- The region's key is the one that was drawn. -/
theorem State.regionKey_swapKey {n : Nat} (h : sparseWf (fun _ => 0) s.memc.keys = true) : (s.swapKey n).regionKey n = s.memc.newKey :=
  sparseGet_set_same h

theorem State.regionKey_anyEvent (k d p n : Nat) : (s.anyEvent k d p).regionKey n = s.regionKey n := by
  rw [State.regionKey, State.anyEvent_memc, State.regionKey]

end

/-- Settles O16: each command on the path that its conditions choose, and the fields that an abort, a clearing and an end of a re-weave show. -/
theorem memoryCommands : Obligations.MemoryCommands := by
  refine ⟨fun s t c v w hc hp hg hv ht => ⟨fun h => ?_, fun hf hb hl => ?_, fun hf hb hl => ?_⟩,
    fun s c t hc hb => ⟨execDmaDone_waits, execDmaDone_moved hc hb⟩,
    fun s c m j t hc hb hm => execDmaFault_denied (ecc := false) hc hb hm,
    fun s c m t hc hb => ⟨fun j hm => execDmaFault_denied (ecc := true) hc hb hm, execDmaFault_uncorrectable hc hb⟩,
    fun s t u x ht hd hu => ⟨fun h => ?_, fun c h => ?_⟩,
    fun s t w c b v hc hp hg hv ht => ?_,
    fun s c n (h : s.Canon) => ⟨h.abortReweave_frame n, h.clearEccBlock_flag⟩,
    fun s (h : s.Canon) hr hk => ⟨_, execReweaveDone_runs hr, ?_⟩,
    fun s h => congrArg Host.Outcome.next (if_neg h), fun s h => congrArg Host.Outcome.next (if_pos h), fun s t g ht => ht ▸ rfl⟩
  · exact (execDmaGo_allowed hc hp hg).trans (by rw [State.dmaControl_refused h])
  · subst hv ht
    exact (execDmaGo_allowed hc hp hg).trans (by rw [State.dmaControl_go hf hb (withBit_testBit ..), if_pos hl])
  · subst hv ht
    exact (execDmaGo_allowed hc hp hg).trans (by rw [State.dmaControl_go hf hb (withBit_testBit ..), if_neg hl])
  · exact (execOccupancyWindow_usable ht hd hu).trans (by rw [h]; rfl)
  · exact (execOccupancyWindow_usable ht hd hu).trans (by rw [h]; rfl)
  · have hx : exec c s = .next (s.reweaveControl v).accessed := by
      rw [← State.writeRwCtl_allowed hp hg, hv]
      simp only [List.mem_cons, Prod.mk.injEq, List.not_mem_nil, or_false] at hc
      obtain ⟨rfl, rfl⟩ | ⟨rfl, rfl⟩ | ⟨rfl, rfl⟩ := hc <;> rfl
    subst ht
    refine ⟨fun h ha => ?_, fun h ha => ?_, fun h ha => ?_, fun h ha => ?_⟩
    · rw [hx, State.reweaveControl_runs h, if_pos ha]
    · rw [hx, State.reweaveControl_runs h, if_neg (ne_true_of_eq_false ha)]
    · rw [hx, State.reweaveControl_idle h, if_pos ha]
    · rw [hx, State.reweaveControl_idle h, if_neg (ne_true_of_eq_false ha)]
  · obtain ⟨hframe, hreserve, hstate⟩ := h.swapFrames_flds
    have hc : (s.swapFrames.swapKey (s.fld F.MEMC_RW_STAT_REGION)).Canon := h.swapFrames
    exact ⟨(hc.fld_anyEvent (by decide) (by decide)).trans hframe, (hc.fld_anyEvent (by decide) (by decide)).trans hreserve,
      (hc.fld_anyEvent (by decide) (by decide)).trans hstate, (State.regionKey_anyEvent ..).trans (State.regionKey_swapKey hk), State.anyEvent_mem ..⟩

end Sys2Proof.Machine

namespace Sys2Proof.Machine

/-! The instructions of a Matrix Engine's kernel (R151 to R156, R171, R177). -/

/-- Table ME-1: a command, the OP of its row, and the row's effect. -/
def MeRow (c : MeStep → Instr) (op : Nat) (b : Nat → Kernel → Nat → State → Run) : Prop :=
  (c = .meNop ∧ op = 0 ∧ b = fun _ _ => plainBody) ∨ (c = .ldt ∧ op = 1 ∧ b = ldtBody) ∨ (c = .str ∧ op = 2 ∧ b = strBody) ∨
    (c = .dcf ∧ op = 3 ∧ b = dcfBody) ∨ (c = .drn ∧ op = 4 ∧ b = drnBody) ∨ (c = .acl ∧ op = 5 ∧ b = aclBody) ∨
    (c = .bar ∧ op = 6 ∧ b = fun _ _ => plainBody) ∨ (c = .endStream ∧ op = 0x3F ∧ b = endBody)

/-- Every command of Table ME-1 brings the next instruction of its slot, whose OP decides (log entry 42). -/
theorem exec_meInstr {c : MeStep → Instr} (hc : c ∈ [Instr.meNop, .ldt, .str, .dcf, .drn, .acl, .bar, .endStream]) (m : MeStep) (s : State) :
    exec (c m) s = .next (s.meInstr m (opBody m.slot)) := by
  simp only [List.mem_cons, List.not_mem_nil, or_false] at hc
  obtain rfl | rfl | rfl | rfl | rfl | rfl | rfl | rfl := hc <;> rfl

theorem MeRow.mem {c : MeStep → Instr} {op : Nat} {b : Nat → Kernel → Nat → State → Run} (h : MeRow c op b) :
    c ∈ [Instr.meNop, .ldt, .str, .dcf, .drn, .acl, .bar, .endStream] := by
  rcases h with h | h | h | h | h | h | h | h <;> simp [h]

/-- The OP of a row takes the row's effect. -/
theorem MeRow.opBody_eq {c : MeStep → Instr} {op : Nat} {b : Nat → Kernel → Nat → State → Run} (h : MeRow c op b) {w : Nat}
    (hw : bitsOf w 31 26 = op) (slot : Nat) (k : Kernel) (s : State) : opBody slot k w s = b slot k w s := by
  rcases h with h | h | h | h | h | h | h | h <;> simp [opBody, hw, h]

/-- An OP that no row lists is an illegal opcode. -/
theorem opBody_unlisted {w : Nat} (h : meListed (bitsOf w 31 26) = false) (slot : Nat) (k : Kernel) (s : State) :
    opBody slot k w s = (s, some 0x01) := by
  unfold opBody
  split
  case h_9 => rfl
  all_goals next hop => rw [hop] at h; exact absurd h (by decide)

/-! What an instruction leaves to a scrub's mark, to the slots' stores and to memory. -/

section
variable {s t : State}

@[simp] theorem State.addFld_scrubHit (f : Fld) (n i j : Nat) : (s.addFld f n i j).scrubHit = s.scrubHit := rfl
@[simp] theorem State.meTiming_scrubHit (m : MeStep) : (s.meTiming m).scrubHit = s.scrubHit := rfl
@[simp] theorem State.meFault_scrubHit (slot : Nat) (k : Kernel) (c : Nat) : (s.meFault slot k c).scrubHit = s.scrubHit := rfl
@[simp] theorem State.uncorrectable_scrubHit (a unit part : Nat) : (s.uncorrectable a unit part).scrubHit = s.scrubHit := by
  unfold State.uncorrectable
  dsimp only
  simp only [State.emit_scrubHit, apply_ite State.scrubHit, State.setReg_scrubHit, State.addFld_scrubHit, ite_self]

/-- A slot's store reads as it was set. -/
theorem State.meSt_setSt {slot : Nat} (x : MeStore) (h : slot < s.me.stores.length) : (s.setSt slot x).meSt slot = x := by
  simp [State.meSt, State.setSt, h]

/-- R129: an instruction that met a granule under scrub waits. -/
theorem State.settled_waits (h : t.scrubHit = true) : s.settled t = s := if_pos h

theorem State.settled_clear (h : t.scrubHit = false) : s.settled t = t := if_neg (ne_true_of_eq_false h)

end

/-! The errors that an instruction meets (R152, R241). -/

section
variable {s u : State} {m : MeStep} {part : Nat}

theorem State.meEcc_none (h : m.ecc = .none) : s.meEcc m part = (s, none) := by
  rw [State.meEcc, h]

theorem State.meEcc_memory {a : Nat} (h : m.ecc = .memory a) : s.meEcc m part = (s.uncorrectable a m.slot part, some 0x09) := by
  rw [State.meEcc, h]

/-- R241: an error of the Append Unit, where the kernel appends. -/
theorem State.meEcc_append {a q : Nat} (h : m.ecc = .append a q) (hs : ((s.meSt m.slot).stages.getD []).any (fun w => stOp w == 0x0D) = true) :
    s.meEcc m part = ((s.uncorrectable a m.slot part).admaFault (m.slot % 8) 0x09 part q, some 0x09) := by
  rw [State.meEcc, h]
  exact if_pos hs

theorem State.meEcc_storeUncorrectable (h : m.ecc = .storeUncorrectable) :
    s.meEcc m part = (s.addFld F.ME_ECC_UE 1 m.slot, some 0x08) := by
  rw [State.meEcc, h]

/-- Nothing, a corrected error, or an error of the Append Unit of a kernel that appends nothing lets the instruction take its effect. -/
theorem State.meEcc_harmless (h : (m.ecc = .none ∧ u = s) ∨ (m.ecc = .storeCorrected ∧ u = s.addFld F.ME_ECC_CE 1 m.slot) ∨
    (∃ a q, m.ecc = .append a q ∧ ((s.meSt m.slot).stages.getD []).any (fun w => stOp w == 0x0D) = false ∧ u = s)) :
    s.meEcc m part = (u, none) := by
  obtain ⟨he, rfl⟩ | ⟨he, rfl⟩ | ⟨a, q, he, hs, rfl⟩ := h
  · exact State.meEcc_none he
  · rw [State.meEcc, he]
  · rw [State.meEcc, he]
    exact if_neg (ne_true_of_eq_false hs)

end

/-! How an instruction of a running kernel ends (R153, R177). -/

/-- The stream of a slot goes to the next instruction. -/
def State.meAdvance (s : State) (slot : Nat) : State := s.setSt slot { s.meSt slot with pc := (s.meSt slot).pc + 1 }

@[simp] theorem State.meAdvance_scrubHit (s : State) (slot : Nat) : (s.meAdvance slot).scrubHit = s.scrubHit := rfl
@[simp] theorem State.meAdvance_mem (s : State) (slot : Nat) : (s.meAdvance slot).mem = s.mem := rfl
theorem State.meAdvance_pc {s : State} {slot : Nat} (h : slot < s.me.stores.length) :
    ((s.meAdvance slot).meSt slot).pc = (s.meSt slot).pc + 1 := by
  rw [State.meAdvance, State.meSt_setSt _ h]

section
variable {s t u : State} {m : MeStep} {k : Kernel} (hk : s.kernelOn 0 m.slot = some k) (hn : k.status = none)
include hk hn

/-- Without a cause the stream goes to the next instruction. -/
theorem State.meInstr_next {body : Kernel → Nat → State → Run}
    (h : ((s.keyed (initiator 1 k.partition)).meEcc m k.partition).next (body k (m.word % 2 ^ 128)) = (t, none)) :
    s.meInstr m body = s.settled ((t.meTiming m).meAdvance m.slot) := by
  rw [State.meInstr, hk]
  dsimp only
  rw [if_neg (by simp [hn]), h]; rfl

/-- A cause is recorded and ends the kernel. -/
theorem State.meInstr_fault {body : Kernel → Nat → State → Run} {cause : Nat}
    (h : ((s.keyed (initiator 1 k.partition)).meEcc m k.partition).next (body k (m.word % 2 ^ 128)) = (t, some cause)) :
    s.meInstr m body = s.settled ((t.meTiming m).meFault m.slot k cause) := by
  rw [State.meInstr, hk]
  dsimp only
  rw [if_neg (by simp [hn]), h]

/-- A cause ends the kernel at once where nothing meets a scrub. -/
theorem exec_meFault {c : MeStep → Instr} {cause : Nat} (hc : c ∈ [Instr.meNop, .ldt, .str, .dcf, .drn, .acl, .bar, .endStream])
    (h : ((s.keyed (initiator 1 k.partition)).meEcc m k.partition).next (opBody m.slot k (m.word % 2 ^ 128)) = (t, some cause))
    (ht : t.scrubHit = false) : exec (c m) s = .next ((t.meTiming m).meFault m.slot k cause) := by
  rw [exec_meInstr hc, State.meInstr_fault hk hn h, State.settled_clear (by simp [ht])]

section
variable {c : MeStep → Instr} {op : Nat} {b : Nat → Kernel → Nat → State → Run} (hr : MeRow c op b)
  (ho : bitsOf (m.word % 2 ^ 128) 31 26 = op) (he : (s.keyed (initiator 1 k.partition)).meEcc m k.partition = (u, none))
include hr ho he

theorem MeRow.exec_next (hb : b m.slot k (m.word % 2 ^ 128) u = (t, none)) :
    exec (c m) s = .next (s.settled ((t.meTiming m).meAdvance m.slot)) := by
  rw [exec_meInstr hr.mem, State.meInstr_next hk hn (by rw [he]; exact (hr.opBody_eq ho ..).trans hb)]

theorem MeRow.exec_fault {cause : Nat} (hb : b m.slot k (m.word % 2 ^ 128) u = (t, some cause)) :
    exec (c m) s = .next (s.settled ((t.meTiming m).meFault m.slot k cause)) := by
  rw [exec_meInstr hr.mem, State.meInstr_fault hk hn (by rw [he]; exact (hr.opBody_eq ho ..).trans hb)]

/-- Where nothing meets a scrub, the stream goes on at once. -/
theorem MeRow.exec_unscrubbed (hb : b m.slot k (m.word % 2 ^ 128) u = (t, none)) (ht : t.scrubHit = false) :
    exec (c m) s = .next ((t.meTiming m).meAdvance m.slot) := by
  rw [MeRow.exec_next hk hn hr ho he hb, State.settled_clear (by simp [ht])]

end

/-- R155, R156: NOP and BAR do nothing but go to the next instruction. -/
theorem MeRow.exec_plain {c : MeStep → Instr} {op : Nat} (hr : MeRow c op (fun _ _ => plainBody)) (hs : s.scrubHit = false)
    (he : m.ecc = .none) (hp : plainWord (m.word % 2 ^ 128) = true) (hl : m.slot < s.me.stores.length)
    (ho : bitsOf (m.word % 2 ^ 128) 31 26 = op) :
    ∃ t, exec (c m) s = .next t ∧ (t.meSt m.slot).pc = (s.meSt m.slot).pc + 1 ∧ t.mem = s.mem :=
  ⟨_, MeRow.exec_unscrubbed hk hn hr ho (State.meEcc_none he) (if_pos hp) hs, State.meAdvance_pc hl, State.meAdvance_mem ..⟩

end

/-! The effects of DCF and END (R153, R171). -/

/-- R171: a legal DCF without EWP reads no stage list. -/
theorem dcfBody_plain {slot w : Nat} {k : Kernel} {s : State} (hb : dcfBad w = false) (hw : dcfEwp w = false) :
    dcfBody slot k w s = (s.setSt slot { s.meSt slot with dcf := w }, none) := by
  rw [dcfBody, if_neg (ne_true_of_eq_false hb), State.readStages, if_pos (.inl hw)]; rfl

/-- R153: END of a kernel with no open block. -/
theorem endBody_closed {slot w : Nat} {k : Kernel} {s : State} (hw : plainWord w = true) (hb : (s.meSt slot).block = none) :
    endBody slot k w s = ((s.zeroStore slot).endKernel k.id (if (s.meSt slot).clamped then csClamped else csDone), none) := by
  rw [endBody, if_pos hw, State.closeBlock, hb]; rfl

/-- Settles O18: each command's row of Table ME-1 (`MeRow`) by how its instruction ends. -/
theorem matrixEngineInstructions : Obligations.MatrixEngineInstructions := by
  refine ⟨fun c op b hr s u m k hk hn ho he => ?_,
    fun s t => ⟨State.settled_waits, State.settled_clear⟩,
    fun c s u m k hc hk hn hs hu => ⟨fun hl he => ?_, fun a he => ?_, fun a q he ha => ?_, fun he => ?_⟩,
    fun s m k hk hn hs he hp hl => ⟨?_, ?_⟩, fun s u v m k hk hn he hs ho hb hw hu hv => ?_,
    fun s u v m k hk hn he hs ho hp hu hb hv => ?_⟩
  · have hecc : (s.keyed (initiator 1 k.partition)).meEcc m k.partition = (u, none) := State.meEcc_harmless he
    exact ⟨fun t v hb hv => hv ▸ MeRow.exec_next hk hn hr ho hecc hb, fun t cause hb => MeRow.exec_fault hk hn hr ho hecc hb⟩
  · subst hu
    exact exec_meFault hk hn hc (by rw [State.meEcc_none he]; exact opBody_unlisted hl ..) hs
  · subst hu
    exact exec_meFault hk hn hc (by rw [State.meEcc_memory he]; rfl) ((State.uncorrectable_scrubHit ..).trans hs)
  · subst hu
    exact exec_meFault hk hn hc (by rw [State.meEcc_append (s := s.keyed (initiator 1 k.partition)) he ha]; rfl)
      ((State.uncorrectable_scrubHit ..).trans hs)
  · subst hu
    exact exec_meFault hk hn hc (by rw [State.meEcc_storeUncorrectable he]; rfl) hs
  · exact MeRow.exec_plain hk hn (by simp [MeRow]) hs he hp hl
  · exact MeRow.exec_plain hk hn (by simp [MeRow]) hs he hp hl
  · subst hu hv
    exact MeRow.exec_unscrubbed hk hn (b := dcfBody) (by simp [MeRow]) ho (State.meEcc_none he) (dcfBody_plain hb hw) hs
  · subst hu hv
    exact MeRow.exec_unscrubbed hk hn (b := endBody) (by simp [MeRow]) ho (State.meEcc_none he) (endBody_closed hp hb) hs

end Sys2Proof.Machine

namespace Sys2Proof.Machine

/-! What the record of a stream's fault leaves to a scrub's mark (R129). -/

section
variable {s : State}

@[simp] theorem State.addReg_scrubHit (r : Reg) (w n i j : Nat) : (s.addReg r w n i j).scrubHit = s.scrubHit := rfl
@[simp] theorem State.endKernel_scrubHit (id st : Nat) : (s.endKernel id st).scrubHit = s.scrubHit := rfl
@[simp] theorem State.scanFault_scrubHit (e cause q : Nat) : (s.scanFault e cause q).scrubHit = s.scrubHit := rfl
@[simp] theorem State.keyed_scrubHit (i : Nat) : (s.keyed i).scrubHit = s.scrubHit := rfl

@[simp] theorem State.sysWrite_scrubHit (a : Nat) (bs : List Byte) : (s.sysWrite a bs).scrubHit = s.scrubHit :=
  State.writeBytes_scrubHit ..

@[simp] theorem State.swapWrite_scrubHit (p a : Nat) (bs : List Byte) : (s.swapWrite p a bs).scrubHit = s.scrubHit :=
  State.writeBytes_scrubHit ..

@[simp] theorem State.showStreams_scrubHit : s.showStreams.scrubHit = s.scrubHit :=
  foldl_inv (P := fun u : State => u.scrubHit = s.scrubHit) (fun _ _ h => h)
    (foldl_inv (P := fun u : State => u.scrubHit = s.scrubHit) (fun _ _ h => h) rfl)

@[simp] theorem State.setStream_scrubHit (x : Stream) : (s.setStream x).scrubHit = s.scrubHit := State.showStreams_scrubHit

@[simp] theorem State.putStream_scrubHit (x : Stream) : (s.putStream x).scrubHit = s.scrubHit := by
  rw [State.putStream, State.setStream_scrubHit]
  split
  · exact State.sysWrite_scrubHit ..
  · exact State.swapWrite_scrubHit ..
  · rfl

@[simp] theorem State.stepFault_scrubHit (p q : Nat) : (s.stepFault p q).scrubHit = s.scrubHit := by
  unfold State.stepFault
  split
  · exact State.putStream_scrubHit ..
  · rfl

end

/-! The run of a Scan Engine's kernel (R192 to R199). -/

/-- Each command of a Scan Engine runs a kernel of its own mode. -/
theorem exec_scanRun {c : ScanRun → Instr} {mode : Nat} (hc : (c, mode) ∈ [(Instr.scanChunk, 0), (.scanStep, 1), (.scanCombine, 2)])
    (r : ScanRun) (s : State) : exec (c r) s = .next (s.scanRun mode r) := by
  simp only [List.mem_cons, Prod.mk.injEq, List.not_mem_nil, or_false] at hc
  obtain ⟨rfl, rfl⟩ | ⟨rfl, rfl⟩ | ⟨rfl, rfl⟩ := hc <;> rfl

/-- The command that takes a kernel's mode; mode 0 also takes the modes that do not exist (log entry 44). -/
def ScanDesc.runMode (x : ScanDesc) : Nat := if x.mode = 1 ∨ x.mode = 2 then x.mode else 0

/-- A kernel's run as it ends: its status, its fault register and the busy cycles of its engine. -/
def State.scanEnd (r : ScanRun) (k : Kernel) (o : Run × Nat) : State :=
  (State.endRun o.1 k (fun t c => t.scanFault r.engine c o.2)).addReg .SCAN_BUSY 64 r.cycles r.engine

/-- A kernel whose stream found no slot ends exhausted at once where nothing meets a scrub (R199). -/
theorem State.settled_exhausted {s u : State} (r : ScanRun) (k : Kernel) (p q : Nat) (h : u.scrubHit = false) :
    s.settled (State.scanEnd r k ((u.stepFault p q, some 0x11), q)) =
      (((u.stepFault p q).scanFault r.engine 0x11 q).endKernel k.id csEngine).addReg .SCAN_BUSY 64 r.cycles r.engine :=
  State.settled_clear (by simp [State.scanEnd, State.endRun, h])

/-- What a kernel does that neither faults nor waits before its run: the run and the sequence that its fault names. -/
def State.scanOut (s : State) (mode : Nat) (r : ScanRun) (k : Kernel) : Run × Nat :=
  if mode = 2 then s.combine r k.scan k
  else match s.scanLost k k.scan with
    | some q => ((s.stepFault k.partition q, some 0x11), q)
    | none => scanBatch r k.scan k (List.range k.scan.batch) s

theorem State.scanOut_combine {s : State} {r : ScanRun} {k : Kernel} : s.scanOut 2 r k = s.combine r k.scan k := rfl

theorem State.scanOut_lost {s : State} {mode q : Nat} {r : ScanRun} {k : Kernel} (h2 : mode ≠ 2) (h : s.scanLost k k.scan = some q) :
    s.scanOut mode r k = ((s.stepFault k.partition q, some 0x11), q) := by
  rw [State.scanOut, if_neg h2, h]

theorem State.scanOut_batch {s : State} {mode : Nat} {r : ScanRun} {k : Kernel} (h2 : mode ≠ 2) (h : s.scanLost k k.scan = none) :
    s.scanOut mode r k = scanBatch r k.scan k (List.range k.scan.batch) s := by
  rw [State.scanOut, if_neg h2, h]

/-! What a kernel does by the checks that it passes (R192, R196, R199). -/

section
variable {s u : State} {r : ScanRun} {k : Kernel} {mode : Nat} (hk : s.running 1 r.engine = some k) (hm : k.scan.runMode = mode)
  (hu : u = s.keyed (initiator 2 k.partition))
include hk hm hu

/-- The checks of a kernel of the command's mode, in their order. -/
theorem State.scanRun_matched : s.scanRun mode r =
    if k.scan.bad then (u.scanFault r.engine 0x02 0).endKernel k.id csEngine
    else if mode ≠ 2 ∧ u.memOk (initiator 2 k.partition) (k.scanRef 0x10) (4 * k.scan.batch) false = false then
      ((u.recordDenial (initiator 2 k.partition) (k.scanRef 0x10) (4 * k.scan.batch) false).scanFault r.engine 0x07 0).endKernel k.id csEngine
    else if mode ≠ 2 ∧ u.scanWaits k k.scan then u
    else s.settled (State.scanEnd r k (u.scanOut mode r k)) := by
  subst hu hm
  rw [State.scanRun, hk]
  exact if_neg (not_not_intro rfl)

theorem State.scanRun_bad (hb : k.scan.bad = true) : s.scanRun mode r = (u.scanFault r.engine 0x02 0).endKernel k.id csEngine :=
  (State.scanRun_matched hk hm hu).trans (if_pos hb)

variable (hb : k.scan.bad = false)
include hb

theorem State.scanRun_combine (h2 : mode = 2) : s.scanRun mode r = s.settled (State.scanEnd r k (u.combine r k.scan k)) := by
  subst h2
  rw [State.scanRun_matched hk hm hu, if_neg (ne_true_of_eq_false hb), if_neg (fun h => h.1 rfl), if_neg (fun h => h.1 rfl),
    State.scanOut_combine]

theorem State.scanRun_denied (h2 : mode ≠ 2)
    (h : u.memOk (initiator 2 k.partition) (k.scanRef 0x10) (4 * k.scan.batch) false = false) :
    s.scanRun mode r = ((u.recordDenial (initiator 2 k.partition) (k.scanRef 0x10) (4 * k.scan.batch) false).scanFault
      r.engine 0x07 0).endKernel k.id csEngine := by
  rw [State.scanRun_matched hk hm hu, if_neg (ne_true_of_eq_false hb), if_pos ⟨h2, h⟩]

variable (ha : u.memOk (initiator 2 k.partition) (k.scanRef 0x10) (4 * k.scan.batch) false = true)
include ha

theorem State.scanRun_waits (h2 : mode ≠ 2) (h : u.scanWaits k k.scan = true) : s.scanRun mode r = u := by
  rw [State.scanRun_matched hk hm hu, if_neg (ne_true_of_eq_false hb), if_neg (fun h => ne_true_of_eq_false h.2 ha), if_pos ⟨h2, h⟩]

theorem State.scanRun_ready (h : u.scanWaits k k.scan = false) :
    s.scanRun mode r = s.settled (State.scanEnd r k (u.scanOut mode r k)) := by
  rw [State.scanRun_matched hk hm hu, if_neg (ne_true_of_eq_false hb), if_neg (fun h => ne_true_of_eq_false h.2 ha),
    if_neg (fun hw => ne_true_of_eq_false h hw.2)]

end

/-! Streams swapped and pinned (R199 to R201). -/

section
variable {s : State} {p q : Nat} {x : Stream} (hx : s.stream? p q = some x)
include hx

/-- R199: the swap manager takes a stream that rested, or whose slot its partition needs. -/
theorem execScanSwapOut_takes (hs : x.slot.isSome = true) (hp : x.pin = none) (hl : x.lock = none)
    (h : (s.reg .SCAN_SWAPCFG ≠ 0 ∧ x.used + 1000 * s.reg .SCAN_SWAPCFG ≤ s.dev.nowNs) ∨ (s.freeSlot p = none ∧ s.victim p = some x)) :
    execScanSwapOut p q s = .next (s.swapOut x) := by
  rw [execScanSwapOut, hx]
  exact congrArg Host.Outcome.next (if_pos ⟨hs, by rw [hp]; rfl, by rw [hl]; rfl, by simpa using h⟩)

theorem execScanSwapIn_takes {t : State} {k : Nat} (hs : x.slot = none) (hp : x.pin = none) (h : s.takeSlot p = some (k, t)) :
    execScanSwapIn p q s = .next (t.swapIn x k) := by
  rw [execScanSwapIn, hx]
  exact congrArg Host.Outcome.next ((if_neg (by simp [hs, hp])).trans (by rw [h]))

theorem execScanSwapIn_stays (hs : x.slot = none) (hp : x.pin = none) (h : s.takeSlot p = none) : execScanSwapIn p q s = .next s := by
  rw [execScanSwapIn, hx]
  exact congrArg Host.Outcome.next ((if_neg (by simp [hs, hp])).trans (by rw [h]))

end

/-- R200: a request of partition 0 is taken as written, one while another waits is ignored. -/
theorem State.writePin_allowed {s : State} {w : RegWrite} (op : Nat) (hp : s.p0 w.initiator = true) (hg : s.gated .SCAN = false) :
    s.writePin op w = (if s.flag F.SCAN_PINSTAT_BUSY then s else (s.setReg .SCAN_PINCTL (2 ^ 60 * op + w.value % 2 ^ 60)).doPin).accessed :=
  State.regWrite_allowed _ hp hg

/-- Settles O19: a kernel's run by the checks that it passes, a swap by the stream's place, a pin by whether a request waits. -/
theorem scanCommands : Obligations.ScanCommands := by
  refine ⟨fun c mode hc s u r k hk hm hu => ?_, fun s p q x hx hs hp hl h => execScanSwapOut_takes hx hs hp hl h,
    fun s p q x hx hs hp => ⟨fun k t h => execScanSwapIn_takes hx hs hp h, execScanSwapIn_stays hx hs hp⟩,
    fun s w hp hg => ⟨fun hb => ?_, fun hb => ?_⟩⟩
  · rw [exec_scanRun hc]
    refine ⟨fun hb => congrArg _ (State.scanRun_bad hk hm hu hb), fun hb h2 => ⟨_, rfl, congrArg _ (State.scanRun_combine hk hm hu hb h2)⟩,
      fun hb h2 => ⟨fun h => congrArg _ (State.scanRun_denied hk hm hu hb h2 h),
        fun ha hw => congrArg _ (State.scanRun_waits hk hm hu hb ha h2 hw), fun ha hw => ?_⟩⟩
    rw [State.scanRun_ready hk hm hu hb ha hw]
    refine ⟨fun q hq hs => ?_, fun hq => ⟨_, rfl, ?_⟩⟩
    · rw [State.scanOut_lost h2 hq, State.settled_exhausted r k k.partition q (hu ▸ hs)]
    · rw [State.scanOut_batch h2 hq]; rfl
  · have htaken : ∀ op, s.writePin op w = ((s.setReg .SCAN_PINCTL (2 ^ 60 * op + w.value % 2 ^ 60)).doPin).accessed := fun op => by
      rw [State.writePin_allowed op hp hg, if_neg (ne_true_of_eq_false hb)]
    exact ⟨congrArg _ (htaken 1), congrArg _ (htaken 2)⟩
  · have hignored : ∀ op, s.writePin op w = s.accessed := fun op => by rw [State.writePin_allowed op hp hg, if_pos hb]
    exact ⟨congrArg _ (hignored 1), congrArg _ (hignored 2)⟩

end Sys2Proof.Machine

namespace Sys2Proof.Machine

/-! Packets on KV sequences (R212, R232, R234, R240): the effect of each by the state of its sequence. -/

section
variable {s : State} {p : Packet} (id : Nat)

section
variable {accepts : State → Bool} {body : Nat → State → State}

theorem kvBody_terminated (h : s.seqState p.partition p.target = 4) : kvBody p accepts body id s = s.finish id csTerminated 0 := if_pos h

variable (h : s.seqState p.partition p.target ≠ 4)
include h

theorem kvBody_refused (ha : accepts s = false) : kvBody p accepts body id s = s.finish id csState 0 :=
  (if_neg h).trans (if_neg (ne_true_of_eq_false ha))

theorem kvBody_accepted (ha : accepts s = true) : kvBody p accepts body id s = body id s := (if_neg h).trans (if_pos ha)

end

/-- R232: a sequence that uses the tree takes the whole blocks that match. -/
theorem kvAttachBody_tree (h : s.usesTree p.partition p.target = true) : kvAttachBody p id s =
    let a := attachBlocks p.partition p.target (pNum p 0 4 / s.layP (s.seqLayout p.partition p.target))
      (bytesAt p.payload 32 (4 * pNum p 0 4)) s
    a.1.finish id csDone a.2 := if_pos h

theorem kvAttachBody_treeless (h : s.usesTree p.partition p.target = false) : kvAttachBody p id s = s.finish id csDone 0 :=
  if_neg (ne_true_of_eq_false h)

theorem kvFreeBody_refused (h : s.seqState p.partition p.target = 0 ∨ s.seqFlag p.partition p.target 2 = true ∨
    s.seqFlag p.partition p.target 4 = true) : kvFreeBody p id s = s.finish id csState 0 := if_pos h

section
variable (h0 : s.seqState p.partition p.target ≠ 0) (h2 : s.seqFlag p.partition p.target 2 = false)
  (h4 : s.seqFlag p.partition p.target 4 = false)
include h0 h2 h4

/-- R234: a sequence that is at rest becomes FREE; an ACTIVE or PARKED one holds blocks and a ring to release. -/
theorem kvFreeBody_rest : kvFreeBody p id s =
    let r := if s.seqState p.partition p.target = 1 ∨ s.seqState p.partition p.target = 2 then s.freeSeq p.partition p.target else (s, 0)
    (((r.1.seqPut p.partition p.target 0 1 0).unpark p.partition p.target).dropCopy p.partition p.target).finish id csDone r.2 :=
  if_neg (by simp [h0, h2, h4])

theorem kvFreeBody_holding (h : s.seqState p.partition p.target = 1 ∨ s.seqState p.partition p.target = 2) : kvFreeBody p id s =
    ((((s.freeSeq p.partition p.target).1.seqPut p.partition p.target 0 1 0).unpark p.partition p.target).dropCopy
      p.partition p.target).finish id csDone (s.freeSeq p.partition p.target).2 := by
  rw [kvFreeBody_rest id h0 h2 h4, if_pos h]

theorem kvFreeBody_empty (h : ¬(s.seqState p.partition p.target = 1 ∨ s.seqState p.partition p.target = 2)) : kvFreeBody p id s =
    (((s.seqPut p.partition p.target 0 1 0).unpark p.partition p.target).dropCopy p.partition p.target).finish id csDone 0 := by
  rw [kvFreeBody_rest id h0 h2 h4, if_neg h]

end

end

/-- Settles O20: each packet's effect on the entered state, by the state and flags of its sequence. -/
theorem kvPackets : Obligations.KvPackets := by
  refine ⟨fun s p r n hr hs hn => ?_, fun s u p r hr hs hu => ?_, fun s p hs => exec_starts rfl hs rfl,
    fun s p hs => exec_starts rfl hs rfl, fun s u p r n hr hs hu hn => ?_, fun s p hs => exec_starts rfl hs rfl⟩
  · subst hr hn
    refine ⟨fun h0 => ?_, fun h4 => ?_, fun h0 h4 => ?_⟩
    · exact exec_starts rfl hs (kvBody_accepted _ (by rw [h0]; decide) (beq_iff_eq.2 h0))
    · exact exec_starts rfl hs (kvBody_terminated _ h4)
    · exact exec_starts rfl hs (kvBody_refused _ h4 (beq_eq_false_iff_ne.2 h0))
  · subst hr hu
    refine ⟨fun h4 => ?_, fun h4 ha => ?_, fun h4 ha ht => ?_, fun h4 ha ht => ?_⟩
    · exact exec_starts rfl hs (kvBody_terminated _ h4)
    · exact exec_starts rfl hs (kvBody_refused _ h4 ha)
    · exact exec_starts rfl hs ((kvBody_accepted _ h4 ha).trans (kvAttachBody_tree _ ht))
    · exact exec_starts rfl hs ((kvBody_accepted _ h4 ha).trans (kvAttachBody_treeless _ ht))
  · subst hr hu hn
    refine ⟨fun h => ?_, fun h2 h4 => ⟨fun h => ?_, fun h0 h1 hp => ?_⟩⟩
    · exact exec_starts rfl hs (kvFreeBody_refused _ h)
    · exact exec_starts rfl hs (kvFreeBody_holding _ (by omega) h2 h4 h)
    · exact exec_starts rfl hs (kvFreeBody_empty _ h0 h2 h4 (not_or.2 ⟨h1, hp⟩))

end Sys2Proof.Machine

namespace Sys2Proof.Machine

/-! Gathers, the page manager's ends, swaps and layouts (R205, R223, R227, R237 to R239). -/

/-- R223: a gather runs on the command of its mode; GATHER_K also takes the modes that do not exist. -/
theorem State.gatherRun_matched {s : State} {mode : Nat} {x : GatherRun} {k : Kernel} (hk : s.running 2 x.engine = some k)
    (hm : (if k.gather.mode = 1 then 1 else 0) = mode) : s.gatherRun mode x =
      s.settled (State.endRun ((s.keyed (initiator 3 k.partition)).gatherBody x k k.gather) k (fun t c => t.admaFault x.engine c k.partition
        ((s.keyed (initiator 3 k.partition)).rowEntry (k.gatherRef 0x10) k.gather.row).seq)) := by
  rw [State.gatherRun, hk]
  exact if_neg (not_not_intro hm)

/-- With no sequence parked the page manager visits none (R237). -/
theorem execPageManagerRun_unparked {s : State} (h : s.kv.parked = []) : execPageManagerRun s = .next s := by
  rw [execPageManagerRun, h]
  rfl

section
variable {s : State} {p q : Nat}

/-- R239: a parked sequence whose time is up and whose demand cannot be granted ends. -/
theorem execKvTermination_ends (he : s.seqExists p q = true) (hs : s.seqState p q = 2) (hk : s.kv.parked.contains (p, q) = true)
    (ht : s.parkedOut p q = true) (hg : s.grants p (s.seqDemand p q) = false) :
    execKvTermination p q s = .next (({ s with due := s.due.erase (.kvTermination p q) } : State).terminate p q) :=
  congrArg Host.Outcome.next (if_pos ⟨he, hs, hk, ht, hg⟩)

theorem execKvTermination_stays (h : s.parkedOut p q = false ∨ s.grants p (s.seqDemand p q) = true) :
    execKvTermination p q s = .next { s with due := s.due.erase (.kvTermination p q) } :=
  congrArg Host.Outcome.next (if_neg fun ⟨_, _, _, ht, hg⟩ => h.elim (fun h => ne_true_of_eq_false h ht) (ne_true_of_eq_false hg))

/-! A copy of pages to the backing store (R238, log entry 101). -/

section
variable (he : s.seqExists p q = true) (hs : s.seqState p q = 1 ∨ s.seqState p q = 2) (hc : s.seqFlag p q 4 = true)
  (hf : s.seqFlag p q 2 = false)
include he hs hc hf

theorem execKvSwapOut_placeless (hp : s.freePlaces p (s.seqPages p q).length = none) :
    execKvSwapOut p q s = .next (s.seqSetFlag p q 4 false) :=
  congrArg Host.Outcome.next ((if_pos ⟨he, hs, hc, hf⟩).trans (by dsimp only; rw [hp]))

variable {places : List Nat} (hp : s.freePlaces p (s.seqPages p q).length = some places)
include hp

theorem execKvSwapOut_denied (hd : (swapPages p true ((s.seqPages p q).zip places) s).2 = false) :
    execKvSwapOut p q s = .next ((swapPages p true ((s.seqPages p q).zip places) s).1.seqSetFlag p q 4 false) :=
  congrArg Host.Outcome.next ((if_pos ⟨he, hs, hc, hf⟩).trans (by dsimp only; rw [hp]; exact if_neg (ne_true_of_eq_false hd)))

theorem execKvSwapOut_copied {t : State} (hd : (swapPages p true ((s.seqPages p q).zip places) s).2 = true)
    (ht : t = (((((swapPages p true ((s.seqPages p q).zip places) s).1.freeSeq p q).1.seqSetFlag p q 4 false).seqPut p q 0 1 3).unpark
      p q).dropCopy p q) : execKvSwapOut p q s = .next (({ t with kv := { t.kv with
        swapped := t.kv.swapped ++ [(p, q, places)] } } : State).dataEvent 0x06 0x0004 q p) := by
  subst ht
  exact congrArg Host.Outcome.next ((if_pos ⟨he, hs, hc, hf⟩).trans (by dsimp only; rw [hp]; exact if_pos hd))

end

/-! Pages brought back from the backing store (R226, R238). -/

section
variable {asked : Nat} {places : List Nat} (hw : s.kv.swapped.find? (fun e => e.1 == p && e.2.1 == q) = some (p, q, places))
  (ha : s.askedAt p q = some asked)
include hw ha

theorem execKvSwapIn_ungranted (hg : s.grants p places.length = false) : execKvSwapIn p q s = .next s := by
  rw [execKvSwapIn, hw, ha]
  exact congrArg Host.Outcome.next (if_neg fun h => ne_true_of_eq_false hg h.2)

variable (hs : s.seqState p q = 3) (hg : s.grants p places.length = true) {r : List Nat × State} {m : State × Bool}
  (hr : r = State.popPages p places.length s) (hm : m = swapPages p false (r.1.zip places) r.2)
include hs hg hr hm

theorem execKvSwapIn_denied (hd : m.2 = false) : execKvSwapIn p q s = .next (pushPages p r.1.reverse m.1).1 := by
  subst hm hr
  rw [execKvSwapIn, hw, ha]
  exact congrArg Host.Outcome.next ((if_pos ⟨hs, hg⟩).trans (if_neg (ne_true_of_eq_false hd)))

theorem execKvSwapIn_copied (hd : m.2 = true) : execKvSwapIn p q s =
    .next ((((((m.1.restorePages p q r.1).seqSetFlag p q 3 true).seqPut p q 0x1C 4 noneWord).dropCopy p q).park p q asked).dataEvent
      0x06 0x0005 q p) := by
  subst hm hr
  rw [execKvSwapIn, hw, ha]
  exact congrArg Host.Outcome.next ((if_pos ⟨hs, hg⟩).trans (if_pos hd))

end

end

/-! Writes of partition 0 (R205, R227). -/

section
variable {s : State} {n : Nat} {w : RegWrite} (hp : s.p0 w.initiator = true)
include hp

theorem execAdmaPush_allowed (hg : s.gated .ADMA = false) : execAdmaPush w s = .next (s.pushPage (w.value % 2 ^ 32)).accessed :=
  congrArg Host.Outcome.next (State.regWrite_allowed _ hp hg)

variable (hn : n < 64)
include hn

/-- R205: a legal value of an unused layout is taken, or goes to staging. -/
theorem execAdmaLayoutWrite_taken (hl : s.layoutOk (w.value % 2 ^ 64) = true) (hu : s.layoutUsed n = false) :
    execAdmaLayoutWrite n w s =
      .next (s.paramWrite true .ADMA_LAYOUT n 0 (w.value % 2 ^ 64) w.initiator (s.setReg .ADMA_LAYOUT (w.value % 2 ^ 64) n)) := by
  refine congrArg Host.Outcome.next ((if_pos (by rw [hl, hu]; rfl)).trans ?_)
  rw [hp, decide_eq_true hn]
  rfl

theorem execAdmaLayoutWrite_refused (hg : s.gated .ADMA = false) (h : s.layoutOk (w.value % 2 ^ 64) = false ∨ s.layoutUsed n = true) :
    execAdmaLayoutWrite n w s = .next (s.setFlag F.ADMA_STATUS_LAYOUT).accessed := by
  have hbad : ¬(s.layoutOk (w.value % 2 ^ 64) && !s.layoutUsed n) = true := by
    rw [Bool.and_eq_true, Bool.not_eq_true']
    exact fun ⟨hl, hu⟩ => h.elim (fun h => ne_true_of_eq_false h hl) (ne_true_of_eq_false hu)
  exact congrArg Host.Outcome.next ((if_neg hbad).trans (State.regWrite_allowed _ (by simp [hp, hn]) hg))

end

/-- Settles O21: a gather by its mode, a swap by how its copy goes, a termination and a layout by the condition that refuses them. -/
theorem kvEngineCommands : Obligations.KvEngineCommands := by
  refine ⟨fun s x k hk => ⟨_, rfl, fun hm => congrArg _ (State.gatherRun_matched hk (if_pos hm)),
      fun hm => congrArg _ (State.gatherRun_matched hk (if_neg hm))⟩,
    fun s => ⟨rfl, fun h => execPageManagerRun_unparked h⟩, fun s t p q he hs hk ht => ?_,
    fun s p q he hs hc hf => ?_,
    fun s p q asked places hw ha hs => ⟨fun hg => execKvSwapIn_ungranted hw ha hg, fun r m hg hr hm =>
      ⟨fun hd => execKvSwapIn_denied hw ha hs hg hr hm hd, fun hd => execKvSwapIn_copied hw ha hs hg hr hm hd⟩⟩,
    fun s w hp hg => execAdmaPush_allowed hp hg,
    fun s n w hp hg hn => ⟨fun hl hu => execAdmaLayoutWrite_taken hp hn hl hu, fun h => execAdmaLayoutWrite_refused hp hn hg h⟩⟩
  · subst ht
    exact ⟨fun hd hg => execKvTermination_ends he hs hk hd hg, fun h => execKvTermination_stays h⟩
  · have hx : exec (.kvSwapOut p q) s = execKvSwapOut p q s := rfl
    rw [hx]
    refine ⟨fun hp => execKvSwapOut_placeless he hs hc hf hp, fun places r hp hr => ?_⟩
    subst hr
    exact ⟨fun hd => execKvSwapOut_denied he hs hc hf hp hd, fun hd => ⟨_, rfl, execKvSwapOut_copied he hs hc hf hp hd rfl⟩⟩

end Sys2Proof.Machine

namespace Sys2Proof.Machine

/-! Vision jobs on their units (R246, R248, R253, R254): what a job's end leaves to a scrub's mark (R129). -/

section
variable {s : State} {u : Option Nat} {k : Kernel}

@[simp] theorem State.endJob_scrubHit (st result : Nat) : (s.endJob k st result).scrubHit = s.scrubHit := rfl

@[simp] theorem State.jobFault_scrubHit (cause sat : Nat) : (s.jobFault u k cause sat).scrubHit = s.scrubHit := by
  cases u <;> rfl

@[simp] theorem State.countOut_scrubHit (sat : Nat) (partly : Bool) : (s.countOut u sat partly).scrubHit = s.scrubHit := by
  cases u <;> rfl

/-- A job's end meets no granule itself: only its body's accesses do. -/
@[simp] theorem State.finishJob_scrubHit (r : Run × Nat × Nat) : (State.finishJob u k r).scrubHit = r.1.1.scrubHit := by
  unfold State.finishJob
  split
  · rw [State.jobFault_scrubHit, State.countOut_scrubHit]
  · dsimp only
    split
    · exact State.endJob_scrubHit ..
    · rw [State.endJob_scrubHit, State.countOut_scrubHit]

end

section
variable {s : State} {cls : Nat} {x : VisRun} {k : Kernel} (hk : s.running cls x.unit = some k)
  (body : State → Kernel → Run × Nat × Nat)
include hk

/-- A unit runs its job with its partition's accesses, and waits where it met a scrub. -/
theorem State.visRun_running : s.visRun cls x body =
    s.settled ((s.keyed (initiator 4 k.partition)).jobRun (some (visUnit cls x.unit)) k x.ecc (fun t => body t k)) := by
  rw [State.visRun, hk]

theorem State.visRun_clean (he : x.ecc = none) : s.visRun cls x body =
    s.settled (State.finishJob (some (visUnit cls x.unit)) k (body (s.keyed (initiator 4 k.partition)) k)) := by
  rw [State.visRun_running hk, he, State.jobRun]

/-- R128: a memory error ends the job in place of its body, so no scrub makes it wait. -/
theorem State.visRun_ecc {a : Nat} (hs : s.scrubHit = false) (he : x.ecc = some a) : s.visRun cls x body =
    State.finishJob (some (visUnit cls x.unit)) k
      (((s.keyed (initiator 4 k.partition)).uncorrectable a (visUnit cls x.unit) k.partition, some 0x09), 0, 0) := by
  rw [State.visRun_running hk, he]
  exact State.settled_clear (by simp [State.jobRun, hs])

end

/-- A command that runs a unit's job, with the body of its class, ends the job by whether a memory error met it. -/
theorem exec_visJob {c : Instr} {s : State} {cls : Nat} {x : VisRun} {k : Kernel} {body : State → Kernel → Run × Nat × Nat}
    (hc : exec c s = .next (s.visRun cls x body)) (hs : s.scrubHit = false) (hk : s.running cls x.unit = some k) :
    (x.ecc = none → exec c s =
      .next (s.settled (State.finishJob (some (visUnit cls x.unit)) k (body (s.keyed (initiator 4 k.partition)) k)))) ∧
    (∀ a, x.ecc = some a → exec c s = .next (State.finishJob (some (visUnit cls x.unit)) k
      (((s.keyed (initiator 4 k.partition)).uncorrectable a (visUnit cls x.unit) k.partition, some 0x09), 0, 0))) :=
  ⟨fun he => hc.trans (congrArg _ (State.visRun_clean hk _ he)), fun _ he => hc.trans (congrArg _ (State.visRun_ecc hk _ hs he))⟩

/-- R148, R261: the library runs the job routed first and completes what stands of it, unless it met a scrub. -/
theorem execOverflowJobDone_completes {s t : State} {part : Nat} {ecc : Option Nat} {k x : Kernel} (hk : s.nextRouted part = some k)
    (hl : s.libraryRuns part = true) (ht : t = (s.keyed (initiator 7 part)).jobRun none k ecc (fun u => u.ppeBody k))
    (hx : t.esc.kernels.find? (fun x => x.id == k.id) = some x) :
    execOverflowJobDone part ecc s = .next (s.settled (t.completeKernel x (x.status.getD csDone) 0)) := by
  subst ht
  rw [execOverflowJobDone, hk]
  exact congrArg Host.Outcome.next ((if_pos hl).trans (by dsimp only; rw [hx]))

/-- Settles O22: a unit's job by whether a memory error met it, and the library's by the job that it takes. -/
theorem visionCommands : Obligations.VisionCommands :=
  ⟨fun _ p hs => exec_starts (body := visRunBody p) rfl hs rfl,
    fun _ _ _ hs => ⟨_, rfl, exec_visJob (body := fun t k => ((t.edgeBody k).1, (t.edgeBody k).2, 0)) rfl hs,
      exec_visJob (body := fun t k => ((t.resampleBody k).1, (t.resampleBody k).2, 0)) rfl hs,
      exec_visJob (body := State.ppeBody) rfl hs⟩,
    fun _ _ _ _ _ _ hk hl ht hx => execOverflowJobDone_completes hk hl ht hx⟩

end Sys2Proof.Machine

namespace Sys2Proof.Machine

/-! Kernels: teardown by packet, dispatch, lending and their ends (R267 to R274). -/

section
variable {s : State} {p : Packet} (id : Nat)

theorem execTeardownBody_own (h : s.ctxOf p.partition p.queue = some p.target) : execTeardownBody p id s = s.finish id csFormat 0 :=
  if_pos h

theorem execTeardownBody_other (h : s.ctxOf p.partition p.queue ≠ some p.target) : execTeardownBody p id s =
    (s.teardown p.partition p.target csEngine none).finish id csDone
      (s.esc.kernels.filter (fun k => k.partition == p.partition && k.context == p.target)).length := if_neg h

end

section
variable {s : State} {cls n : Nat} {k : Kernel}

/-- R272: a free engine takes the kernel chosen for it. -/
theorem execKernelDispatch_free {path : Nat} {lent : Bool} (hf : s.engineFree cls n = true) (hc : s.choose cls n = some (k, lent)) :
    execKernelDispatch cls n path s = .next ((s.dispatch k n lent).showPath k n lent path) :=
  congrArg Host.Outcome.next ((if_pos hf).trans (by rw [hc]))

/-- R271: an owned engine that lends and runs nothing becomes lendable. -/
theorem execLendHoldExpire_idle {o : Nat} (ho : s.engineOwner cls n = some o) (hl : s.flag F.ESC_RESV_LEND o = true)
    (hk : s.kernelOn cls n = none) (hn : (cls, n) ∉ s.esc.lendable) : execLendHoldExpire cls n s =
      .next { s with esc := { s.esc with lendable := s.esc.lendable ++ [(cls, n)] } } := by
  rw [execLendHoldExpire, ho]
  exact congrArg Host.Outcome.next (if_pos (by simp [hl, hk, hn]))

theorem execKernelComplete_ended {run st : Nat} (hk : s.kernelOn cls n = some k) (hs : k.status = some st) :
    execKernelComplete cls n run s = .next (s.completeKernel k st run) := by
  simp only [execKernelComplete, hk, hs]

/-- R273: what the engine of a class shows of a kernel that is stopped on it. -/
def State.stopEngine (s : State) (cls n : Nat) : State :=
  if cls = 0 then s.zeroStore n else if cls = 6 then s.putFld F.DMA_STAT_STATE 3 n else s

theorem execRunLimit_running {run : Nat} (hk : s.running cls n = some k) : execRunLimit cls n run s =
    .next (if run < s.reg .ESC_QCYC + 1024 then s
      else (((s.escStatus F.ESC_STATUS_RUN_LIMIT k.partition k.context).dataEvent 0x05 0x0002 k.addr k.partition).stopEngine
        cls n).completeKernel { k with status := some csPreempt } csPreempt run) := by
  rw [execRunLimit, hk]
  rfl

theorem execRunLimit_within {run : Nat} (hk : s.running cls n = some k) (h : run < s.reg .ESC_QCYC + 1024) :
    execRunLimit cls n run s = .next s :=
  (execRunLimit_running hk).trans (congrArg _ (if_pos h))

theorem execRunLimit_reached {run : Nat} {t : State} (hk : s.running cls n = some k)
    (ht : t = (s.escStatus F.ESC_STATUS_RUN_LIMIT k.partition k.context).dataEvent 0x05 0x0002 k.addr k.partition)
    (h : s.reg .ESC_QCYC + 1024 ≤ run) : execRunLimit cls n run s =
      .next ((t.stopEngine cls n).completeKernel { k with status := some csPreempt } csPreempt run) :=
  (execRunLimit_running hk).trans (congrArg _ ((if_neg (Nat.not_lt.2 h)).trans (by rw [ht])))

end

/-- Settles O14: each packet's effect on the entered state, and each engine's command on the path that its conditions choose. -/
theorem kernelCommands : Obligations.KernelCommands := by
  refine ⟨fun s p hs => exec_starts (body := execLaunchBody p) rfl hs rfl, fun s p hs => exec_starts rfl hs rfl,
    fun s p hs => ⟨fun h => exec_starts rfl hs (execTeardownBody_own _ h), fun h => exec_starts rfl hs (execTeardownBody_other _ h)⟩,
    fun s cls n path k lent hf hc => execKernelDispatch_free hf hc,
    fun s cls n o ho hl hk hn => ⟨_, execLendHoldExpire_idle ho hl hk hn, rfl, rfl, rfl⟩,
    fun s cls n run st k hk hs => execKernelComplete_ended hk hs,
    fun s t cls n run k hk ht => ⟨execRunLimit_within hk, fun h => ?_⟩⟩
  have hx : exec (.runLimit cls n run) s =
      .next ((t.stopEngine cls n).completeKernel { k with status := some csPreempt } csPreempt run) := execRunLimit_reached hk ht h
  rw [hx, State.stopEngine]
  refine ⟨fun h0 => ?_, fun h6 => ?_, fun h0 h6 => ?_⟩
  · rw [if_pos h0]
  · rw [if_neg (by omega), if_pos h6]
  · rw [if_neg h0, if_neg h6]

end Sys2Proof.Machine

namespace Sys2Proof.Machine

/-! Windows of the regulators (R277, R278). -/

section
variable {s : State} {dram : Bool} {p : Nat}

/-- A window's end without its count in ESC_REGSTAT: what passed counts to the epoch, and what is left is asked of the next window. -/
def State.passWindow (s : State) (dram : Bool) (p passed left : Nat) : State := { s with
  traffic := sparseSet (fun _ => 0) s.traffic (regKey dram p) left
  esc := { s.esc with excess := sparseSet (fun _ => 0) s.esc.excess p (s.excessOf p + (passed - s.guar dram p)) } }

theorem State.passWindow_traffic {passed left : Nat} (h : sparseWf (fun _ => 0) s.traffic = true) :
    sparseGet (fun _ => 0) (s.passWindow dram p passed left).traffic (regKey dram p) = left := sparseGet_set_same h

theorem State.passWindow_excessOf {passed left : Nat} (h : sparseWf (fun _ => 0) s.esc.excess = true) :
    (s.passWindow dram p passed left).excessOf p = s.excessOf p + (passed - s.guar dram p) := sparseGet_set_same h

variable {harts asked : Nat} (ha : asked = sparseGet (fun _ => 0) s.traffic (regKey dram p) + harts)
include ha

theorem State.endWindow_eq : s.endWindow dram p harts =
    let passed := min asked (s.windowMost dram p)
    if passed < asked then (s.passWindow dram p passed (asked - passed)).addFld
      (if dram then F.ESC_REGSTAT_DRAM_HELD else F.ESC_REGSTAT_SMEM_HELD) 1 p
    else s.passWindow dram p passed (asked - passed) := by
  subst ha
  rfl

theorem State.endWindow_within (h : asked ≤ s.windowMost dram p) : s.endWindow dram p harts = s.passWindow dram p asked 0 := by
  rw [State.endWindow_eq ha, Nat.min_eq_left h]
  exact (if_neg (Nat.lt_irrefl _)).trans (by rw [Nat.sub_self])

theorem State.endWindow_beyond (h : s.windowMost dram p < asked) : s.endWindow dram p harts =
    (s.passWindow dram p (s.windowMost dram p) (asked - s.windowMost dram p)).addFld
      (if dram then F.ESC_REGSTAT_DRAM_HELD else F.ESC_REGSTAT_SMEM_HELD) 1 p := by
  rw [State.endWindow_eq ha, Nat.min_eq_right (Nat.le_of_lt h)]
  exact if_pos h

end

/-! The guard's epoch, and the limits that it halves (R284, R285). -/

section
variable {s : State}

/-- The end of an epoch: its waits and bytes are forgotten. -/
def State.closeEpoch (s : State) (calm : Nat) : State := { s with esc := { s.esc with waits := [], excess := [], calm := calm } }

section
variable {t : State} {victims : List Nat} (he : s.flag F.ESC_GUARD_EN = true)
  (ht : t = (List.range 64).foldl (fun u p => u.putFld F.ESC_P99_P99_US (satNat 16 (s.p99Of p)) p) s)
  (hv : victims = (List.range 64).filter (fun p => s.fld F.ESC_P99_TARGET_US p != 0 && decide (s.fld F.ESC_P99_TARGET_US p < s.p99Of p)))
include he ht hv

theorem execGuardEpoch_enabled {calm : Nat} (hc : calm = if victims.isEmpty then s.esc.calm + 1 else 0) : execGuardEpoch s =
    .next ((if 10 ≤ calm then (victims.foldl State.guardVictim t).relax else victims.foldl State.guardVictim t).closeEpoch
      (if 10 ≤ calm then 0 else calm)) := by
  subst ht hv hc
  exact congrArg Host.Outcome.next (if_pos he)

theorem execGuardEpoch_victims (h : victims ≠ []) : execGuardEpoch s = .next ((victims.foldl State.guardVictim t).closeEpoch 0) :=
  execGuardEpoch_enabled (calm := 0) he ht hv (by simp [h])

theorem execGuardEpoch_calm (h : victims = []) (hc : s.esc.calm < 9) : execGuardEpoch s = .next (t.closeEpoch (s.esc.calm + 1)) := by
  have hless : ¬10 ≤ s.esc.calm + 1 := by omega
  rw [execGuardEpoch_enabled he ht hv rfl, h]
  simp [hless]

theorem execGuardEpoch_tenth (h : victims = []) (hc : 9 ≤ s.esc.calm) : execGuardEpoch s = .next (t.relax.closeEpoch 0) := by
  rw [execGuardEpoch_enabled he ht hv rfl, h]
  simp [hc]

end

section
variable {d e : Bool} {p q n : Nat} (h : s.Canon)

theorem regulator_inj : regulator d = regulator e ↔ d = e := by
  cases d <;> cases e <;> simp [regulator]

theorem State.limit_lt : s.limit d p < 2 ^ 32 := bitsOf_lt ..

include h

@[simp] theorem State.Canon.setLimit : (s.setLimit d p n).Canon := h.setReg

/-- LIMIT set leaves GUAR of every regulator. -/
@[simp] theorem State.Canon.guar_setLimit : (s.setLimit d p n).guar e p = s.guar e p := by
  by_cases hd : e = d
  · subst hd
    rw [State.guar, State.setLimit, State.reg_setReg_same _ _ _ _ h, State.guar]
    omega
  · rw [State.guar, State.setLimit, h.reg_setReg_other (fun x => hd (regulator_inj.1 x.1)), State.guar]

/-- LIMIT reads as set. -/
theorem State.Canon.limit_setLimit_same (hn : n < 2 ^ 32) : (s.setLimit d p n).limit d p = n := by
  rw [State.limit, State.setLimit, State.reg_setReg_same _ _ _ _ h, State.guar, bitsOf, Nat.shiftRight_eq_div_pow]
  omega

theorem State.Canon.limit_setLimit_other (hd : e ≠ d) : (s.setLimit d p n).limit e p = s.limit e p := by
  rw [State.limit, State.setLimit, h.reg_setReg_other (fun x => hd (regulator_inj.1 x.1)), State.limit]

theorem State.Canon.setGuard_guar {k : Nat} {before now : Bool → Nat} : (s.setGuard p k before now).guar d p = s.guar d p :=
  h.setLimit.guar_setLimit.trans h.guar_setLimit

theorem State.Canon.setGuard_limit {k : Nat} {before now : Bool → Nat} (hn : now d < 2 ^ 32) :
    (s.setGuard p k before now).limit d p = now d := by
  change ((s.setLimit true p (now true)).setLimit false p (now false)).limit d p = now d
  cases d with
  | true => rw [h.setLimit.limit_setLimit_other (by decide), h.limit_setLimit_same hn]
  | false => exact h.setLimit.limit_setLimit_same hn

end

end

/-! Repair in service and firewall regions (R282, R286, R287). -/

section
variable {s : State} {w : RegWrite}

/-- R286: SWAP shows its result, and stages the spare for its slot where it is not refused. -/
def State.swapRequest (s : State) (slot spare r : Nat) (persist : Bool) : State :=
  let t := s.putFld F.ESC_REPSTAT_RESULT r
  if r = 0 then { t with esc := { t.esc with repairs := t.esc.repairs.filter (fun e => e.1 != slot) ++ [(slot, spare, persist)] } } else t

theorem execEscRepairSwap_allowed {r : Nat} (hp : s.p0 w.initiator = true) (hg : s.gated .ESC = false)
    (hr : r = s.repairRefusal (w.value % 32) (bitsOf w.value 13 8) (w.value.testBit 27)) : execEscRepairSwap w s =
      .next (if bitsOf w.value 31 28 ≠ 1 then s
        else s.swapRequest (w.value % 32) (bitsOf w.value 13 8) r (w.value.testBit 27)).accessed := by
  subst hr
  exact congrArg Host.Outcome.next (State.regWrite_allowed _ hp hg)

theorem execMeSpareTestDone_starting {t : State} {slot spare : Nat} {persist : Bool} (ok : Bool)
    (hf : s.esc.repairs.find? (fun e => e.1 == slot) = some (slot, spare, persist)) (hs : s.unitState fnMe slot = stStarting)
    (ht : t = { s with esc := { s.esc with repairs := s.esc.repairs.filter (fun e => e.1 != slot) } }) : execMeSpareTestDone slot ok s =
      .next (if ok then t.swapEngine slot spare persist
        else (((t.setBitOf F.ESC_DISABLED_FAILED spare true).bumpGen.putFld F.ESC_REPSTAT_RESULT 5).setUnit fnMe slot stFault).event
          0x05 0x0007 slot) := by
  subst ht
  rw [execMeSpareTestDone, hf]
  exact congrArg Host.Outcome.next (if_pos hs)

theorem State.regionOpen_boot {before after : Nat} (h : s.devState = devBoot) : s.regionOpen before after = true := by
  simp [State.regionOpen, h]

section
variable {t k off : Nat} {r : Reg} (ho : regionReg off = some r)
include ho

theorem execFwlRegionWrite_foreign (hp : s.p0 w.initiator = false) : execFwlRegionWrite t k off w s = .next s.busErr := by
  rw [execFwlRegionWrite, ho]
  exact congrArg Host.Outcome.next (if_pos (.inr (.inr hp)))

variable (ht : t < 4) (hk : k < 64) (hp : s.p0 w.initiator = true)
include ht hk hp

theorem execFwlRegionWrite_allowed : execFwlRegionWrite t k off w s = .next (
    if s.regionOpen (s.seen .FWL_RATTR t k) (if r = .FWL_RATTR then w.value &&& r.params else s.seen .FWL_RATTR t k) = false
      then (s.setFlag F.FWL_DENY_LOCKED).accessed
    else if s.devState = devBoot then (s.setReg r (w.value &&& r.params) t k).accessed
    else s.stageReg r t k (w.value &&& r.params) w.initiator) := by
  rw [execFwlRegionWrite, ho]
  exact congrArg Host.Outcome.next (if_neg (by simp [ht, hk, hp]))

theorem execFwlRegionWrite_boot (h : s.devState = devBoot) :
    execFwlRegionWrite t k off w s = .next (s.setReg r (w.value &&& r.params) t k).accessed := by
  rw [execFwlRegionWrite_allowed ho ht hk hp, State.regionOpen_boot h, if_neg (by decide), if_pos h]

theorem execFwlRegionWrite_stopped (h : s.devState ≠ devBoot)
    (hr : s.regionOpen (s.seen .FWL_RATTR t k) (if r = .FWL_RATTR then w.value &&& r.params else s.seen .FWL_RATTR t k) = true) :
    execFwlRegionWrite t k off w s = .next (s.stageReg r t k (w.value &&& r.params) w.initiator) := by
  rw [execFwlRegionWrite_allowed ho ht hk hp, if_neg (ne_false_of_eq_true hr), if_neg h]

theorem execFwlRegionWrite_locked
    (hr : s.regionOpen (s.seen .FWL_RATTR t k) (if r = .FWL_RATTR then w.value &&& r.params else s.seen .FWL_RATTR t k) = false) :
    execFwlRegionWrite t k off w s = .next (s.setFlag F.FWL_DENY_LOCKED).accessed := by
  rw [execFwlRegionWrite_allowed ho ht hk hp, if_pos hr]

end

end

/-- Settles O15: a window by whether it holds bytes over, an epoch by its victims, and each write by the condition that refuses it. -/
theorem sharingCommands : Obligations.SharingCommands := by
  refine ⟨fun s x hs => congrArg Host.Outcome.next (if_pos hs),
    fun s dram p harts asked htraffic hexcess ha => ⟨_, rfl, fun h => ?_, fun h => ?_, ?_⟩,
    fun s t victims he ht hv => ⟨fun u hne hu => hu ▸ execGuardEpoch_victims he ht hv hne, execGuardEpoch_calm he ht hv,
      execGuardEpoch_tenth he ht hv⟩,
    fun s t p d (h : s.Canon) ht => ht ▸ ⟨h.setGuard_guar, h.setGuard_limit (Nat.lt_of_le_of_lt (Nat.min_le_left ..) State.limit_lt)⟩,
    fun s w r hp hg hr => ⟨fun h1 => ⟨_, rfl, fun h => ?_, fun h => ?_⟩, fun h1 => ?_⟩,
    fun s t slot spare persist hf hs ht => ⟨execMeSpareTestDone_starting true hf hs ht, execMeSpareTestDone_starting false hf hs ht⟩,
    fun s t k off r w ho ht hk => ⟨execFwlRegionWrite_boot ho ht hk, execFwlRegionWrite_stopped ho ht hk,
      execFwlRegionWrite_locked ho ht hk, execFwlRegionWrite_foreign ho⟩⟩
  · rw [State.endWindow_within ha h]
    exact ⟨State.passWindow_traffic htraffic, State.passWindow_excessOf hexcess, rfl⟩
  · rw [State.endWindow_beyond ha h]
    exact ⟨State.passWindow_traffic (passed := s.windowMost dram p) htraffic,
      State.passWindow_excessOf (left := asked - s.windowMost dram p) hexcess, rfl⟩
  · obtain h | h := le_or_gt asked (s.windowMost dram p)
    · rw [State.endWindow_within ha h]; rfl
    · rw [State.endWindow_beyond ha h]; rfl
  · exact (execEscRepairSwap_allowed hp hg hr).trans (by rw [if_neg (not_not.2 h1), State.swapRequest, if_neg h])
  · exact (execEscRepairSwap_allowed hp hg hr).trans (by rw [if_neg (not_not.2 h1), State.swapRequest, if_pos h])
  · exact (execEscRepairSwap_allowed hp hg hr).trans (by rw [if_pos h1])

end Sys2Proof.Machine

namespace Sys2Proof.Machine

/-! What Grenlink, Ethernet, Chronometer and CAN commands leave alone. -/

namespace Within

variable {bs : List Block} {o t u : State}

/-! Grenlink messages (R294, R303, R305). -/

theorem glk {g : Glk} (h : Within bs o t) : Within bs o { t with glk := g } := h.congr rfl rfl rfl rfl

theorem sendVia {n : Nat} {x : Out} (h : Within bs o t) : Within bs o (t.sendVia n x) := h.send.glk

theorem toMember {d : Nat} {x : Out} (h : Within bs o t) : Within bs o (t.toMember d x) := ite h.glk h.sendVia

theorem toPort {n : Nat} {m : GlkMsg} (h : Within bs o t) : Within bs o (t.toPort n m) := ite (ite h.glk h.sendVia) h

theorem toPorts {but : Option Nat} {m : GlkMsg} (h : Within bs o t) : Within bs o (t.toPorts but m) :=
  foldl (fun _ _ hu => ite hu hu.toPort) h

theorem flow (h : Within bs o t) : Within bs o t.flow := foldl (fun _ _ hu => hu.sendVia) (foldl (fun _ _ hu => hu.toPort) h.glk)

theorem replayFrom {n flit : Nat} (h : Within bs o t) : Within bs o (t.replayFrom n flit) := foldl (fun _ _ hu => hu.send) h

theorem setNap {x : Nap} (h : Within bs o t) : Within bs o (t.setNap x) := h.glk

theorem dropNap {n : Nat} (h : Within bs o t) : Within bs o (t.dropNap n) := h.glk

theorem retrainPort {n : Nat} (h : Within bs o t) : Within bs o (t.retrainPort n) := h.glk

theorem setRoot {b : RootBar} (h : Within bs o t) : Within bs o (t.setRoot b) := h.glk

theorem setBest {c : Nat × Nat} (h : Within bs o t) : Within bs o (t.setBest c) := h.glk

section
variable (hb : Block.GLK ∈ bs)
include hb

/-! The root, cluster time and naps (R299, R301 to R307). -/

theorem showClusterTime (h : Within bs o t) : Within bs o t.showClusterTime := by
  refine ite (putFld (putFld (setReg h hb) hb) hb) ?_
  split
  · exact putFld (putFld h hb) hb
  · exact putFld h hb

theorem loseRoot (h : Within bs o t) : Within bs o t.loseRoot := putFld (putFld (glk (setReg (putFld (putFld h hb) hb) hb)) hb) hb

theorem fallAsleep {x : Nap} (h : Within bs o t) : Within bs o (t.fallAsleep x) := setFlag (setFlag h.setNap hb) hb

variable (hl : Block.LOG ∈ bs)
include hl

theorem showPeers (h : Within bs o t) : Within bs o t.showPeers := by
  have hp : ∀ (l : List Nat) (n : Nat), Within bs o (l.foldl (fun u d => u.event 0x0C 0x000A d) (t.setReg .GLK_PEERS n)) := fun _ _ =>
    foldl (fun _ _ hu => event hu hl) (setReg h hb)
  exact ite (loseRoot hb (hp _ _).glk) (hp _ _).glk

theorem rejoin (h : Within bs o t) : Within bs o t.rejoin := ite h.glk (showPeers hb hl h.glk)

theorem adopt {n : Nat} (h : Within bs o t) : Within bs o (t.adopt n) :=
  showClusterTime hb (anyEvent (addFld (putFld (setFlag (putFld (setReg h.glk hb) hb) hb) hb) hb) hl)

theorem claimInterval (h : Within bs o t) : Within bs o t.claimInterval := by
  unfold State.claimInterval
  extract_lets own g taken claimed
  have ht : Within bs o taken := ite h.setBest h.glk
  have hc : Within bs o claimed := by
    dsimp only [claimed]
    split
    · exact ht.toPorts
    · exact ht
  split
  · exact ite (adopt hb hl hc) hc
  · exact hc

end

/-! Retries, barriers and heartbeats (R303, R308 to R310, R323 to R325). -/

theorem takeReply {id m : Nat} {ack : Bool} (h : Within bs o t) : Within bs o (t.takeReply id m ack) := by
  unfold State.takeReply
  split
  · exact ite (ite h.setRoot h.setRoot) h
  · exact h

/-- A mismatch is logged in three records. -/
theorem logMismatch {n : Nat} (hl : Block.LOG ∈ bs) (h : Within bs o t) : Within bs o (t.logMismatch n) := emit (emit (emit h hl) hl) hl

section
variable (hb : Block.GLK ∈ bs)
include hb

theorem showArmed (h : Within bs o t) : Within bs o t.showArmed := putFld h hb

theorem takeArm {x : BarArm} (h : Within bs o t) : Within bs o (t.takeArm x) :=
  have ha := showArmed hb h.glk
  ite (takeReply ha) (toMember ha)

theorem takeDecision {id : Nat} {c : Bool} (h : Within bs o t) : Within bs o (t.takeDecision id c) :=
  ite (ite h h.glk) (showArmed hb h.glk)

theorem fence (h : Within bs o t) : Within bs o t.fence := ite (setFlag h hb) h

theorem unfence (h : Within bs o t) : Within bs o t.unfence := putFld h hb

variable (hl : Block.LOG ∈ bs)
include hl

theorem judgeTag {n : Nat} (h : Within bs o t) : Within bs o (t.judgeTag n) :=
  ite (ite (anyEvent (unfence hb h.glk) hl) h.glk) (ite (fence hb (logMismatch hl (setFlag (glk h.glk) hb))) h.glk)

end

/-! Ethernet (R407, R412, R413). -/

theorem setEth {p : Nat} {x : EthPort} (h : Within bs o t) : Within bs o (t.setEth p x) := h.congr rfl rfl rfl rfl

section
variable (hb : Block.ETH ∈ bs)
include hb

theorem takeAdmin {p n : Nat} (h : Within bs o t) : Within bs o (t.takeAdmin p n) := putFld h.setEth hb

theorem writeGclctl {p v : Nat} (h : Within bs o t) : Within bs o (t.writeGclctl p v) :=
  have ht : Within bs o ((t.putFld F.ETH_GCLCTL_EN (bitsOf v 31 31) p).putFld F.ETH_GCLCTL_LEN (bitsOf v 8 0) p) := putFld (putFld h hb) hb
  ite (putFld (setEth (ite ht ht.setEth)) hb) (ite ht ht.setEth)

end

/-! The Chronometer (R400 to R404). -/

theorem chr {x : Chr} (h : Within bs o t) : Within bs o { t with chr := x } := h.congr rfl rfl rfl rfl

theorem setDom {d : Nat} {x : ChrDom} (h : Within bs o t) : Within bs o (t.setDom d x) := h.chr

section
variable (hb : Block.CHR ∈ bs)
include hb

theorem dropPending (h : Within bs o t) : Within bs o t.dropPending := chr (putFld h hb)

theorem moveCount {n : Int} (h : Within bs o t) : Within bs o (t.moveCount n) := setReg (setReg (setReg h.chr hb) hb) hb

variable (hl : Block.LOG ∈ bs)
include hl

theorem acquire {d : Nat} (h : Within bs o t) : Within bs o (t.acquire d) := anyEvent (setFlag (putFld (moveCount hb h) hb) hb) hl

theorem refuseJump {d : Nat} (h : Within bs o t) : Within bs o (t.refuseJump d) :=
  anyEvent (setFlag (setReg (chr (putFld (putFld (putFld h hb) hb) hb)) hb) hb) hl

theorem switchTo {d : Nat} (h : Within bs o t) : Within bs o (t.switchTo d) :=
  anyEvent (setFlag (setDom (chr (putFld (putFld (dropPending hb h) hb) hb))) hb) hl

theorem follow {d : Nat} (h : Within bs o t) : Within bs o (t.follow d) :=
  ite h (ite (ite (acquire hb hl h) h) (ite (refuseJump hb hl h) (switchTo hb hl h)))

end

/-! CAN controllers (R424 to R430). -/

theorem setCan {c : Nat} {x : CanCtl} (h : Within bs o t) : Within bs o (t.setCan c x) := h.congr rfl rfl rfl rfl

theorem canWrite {c e off : Nat} {l : List Byte} (h : Within bs o t) : Within bs o (t.canWrite c e off l) := h.setCan

theorem canBit {r : Reg} {c e : Nat} {on : Bool} (hr : r.info.block ∈ bs) (h : Within bs o t) : Within bs o (t.canBit r c e on) :=
  h.setReg hr

theorem canStart {c : Nat} (h : Within bs o t) : Within bs o (t.canStart c) := ite h.setCan h

theorem canFrameEnd {c : Nat} (h : Within bs o t) : Within bs o (t.canFrameEnd c) := h.setCan.canStart

theorem openWindow {c w : Nat} (h : Within bs o t) : Within bs o (t.openWindow c w) := h.setCan.canStart

section
variable (hb : Block.CAN ∈ bs)
include hb

theorem canDrop {c e : Nat} (h : Within bs o t) : Within bs o (t.canDrop c e) := canBit hb h.setCan

theorem releaseFifo {c f n : Nat} (h : Within bs o t) : Within bs o (t.releaseFifo c f n) := setReg h hb

theorem writeCanCtl {c v : Nat} (h : Within bs o t) : Within bs o (t.writeCanCtl c v) :=
  ite (setCan (setFlag (setReg h hb) hb)) (setReg h hb)

variable (hl : Block.LOG ∈ bs)
include hl

theorem canLateDrop {c e : Nat} (h : Within bs o t) : Within bs o (t.canLateDrop c e) :=
  have ht : ∀ n, Within bs o ((((t.canDrop c e).canBit .CAN_TXLATE c e true).canWrite c e 0x0C (toLe 4 0)).setReg .CAN_LATECNT n c) := fun _ =>
    setReg (canWrite (canBit hb (canDrop hb h))) hb
  ite (event (setCan (ht _)) hl) (ht _)

theorem ttError {c n : Nat} (h : Within bs o t) : Within bs o (t.ttError c n) := event (putFld h hb) hl

theorem closeWindow {c : Nat} (h : Within bs o t) : Within bs o (t.closeWindow c) := ite (ttError hb hl h.setCan) h.setCan

theorem canState {c : Nat} {off : Bool} (h : Within bs o t) : Within bs o (t.canState c off) :=
  have ht : ∀ n, Within bs o (t.putFld F.CAN_ERR_ESTATE n c) := fun _ => putFld h hb
  ite (event (setCan (ite (event (ht _) hl) (ht _))) hl) (ite (event (ht _) hl) (ht _))

theorem canCount {c code : Nat} {tx : Bool} {k : CanErrKind} (h : Within bs o t) : Within bs o (t.canCount c tx code k) :=
  have ht : Within bs o ((t.addFld F.CAN_ECNT_ERR_FRAMES 1 c).putFld F.CAN_ERR_LEC code c) := putFld (addFld h hb) hb
  ite (canState hb hl (putFld ht hb)) (canState hb hl (addFld ht hb))

theorem canRetry {c e : Nat} (h : Within bs o t) : Within bs o (t.canRetry c e) :=
  ite (ttError hb hl (setCan (canDrop hb h))) (ite (canDrop hb h) (ite h h.setCan))

theorem refFailed {c : Nat} (h : Within bs o t) : Within bs o (t.refFailed c) := ite (ttError hb hl h.setCan) h.setCan

/-- R428, R429: a basic cycle that starts. -/
theorem cycleStarted {c id n : Nat} (h : Within bs o t) (ht : execCanTtCycleStart c id n t = .next u) : Within bs o u := by
  obtain rfl := Host.Outcome.next.inj ht
  refine ite ?_ h
  extract_lets closed asks won k judged role shown asked
  have hj : Within bs o judged := ite (ttError hb hl (closeWindow hb hl h)) (closeWindow hb hl h)
  have hs : Within bs o shown := putFld (putFld hj hb) hb
  exact setCan (ite hs.send hs)

/-- R424 to R426: an error on the bus, as its sender or a receiver meets it. -/
theorem busError {c code : Nat} {role : CanRole} {k : CanErrKind} (h : Within bs o t) (ht : execCanBusError c role code k t = .next u) :
    Within bs o u := by
  obtain rfl := Host.Outcome.next.inj ht
  refine ite h (ite (ite h (addFld h hb)) ?_)
  extract_lets counted
  have hc : Within bs o counted := ite h (canCount hb hl h)
  cases role with
  | receiver => exact hc.canFrameEnd
  | element e =>
    have hr : ∀ x : Prop, [Decidable x] → Within bs o (if x then counted.canRetry c e else counted) := fun _ _ => ite (canRetry hb hl hc) hc
    exact ite (hr _).setCan (hr _).canFrameEnd
  | reference => exact ite hc (refFailed hb hl hc)

end

end Within

/-- Settles O57: each command is a chain of writes to registers of its own blocks. -/
theorem framesOfLinks : Obligations.FramesOfLinks := by
  intro s u hs
  have h0 : ∀ bs, Within bs s s := fun bs => .refl hs
  refine ⟨fun d => ?_, ?_, fun n prio uid => ?_, ?_, ?_, fun n flit asked => ?_, fun n => ?_, fun n wake => ?_, fun n wake b => ?_,
    fun n => ?_, fun n => ?_, fun n => ?_, fun n => ?_, fun x => ?_, fun x => ?_, fun id m ack => ?_, fun id c => ?_, ?_, ?_, fun d => ?_,
    fun p => ?_, fun p => ?_, fun p => ?_, fun p => ?_, fun p w => ?_, fun p d => ?_, ?_, fun c e => ?_, fun c => ?_, fun c w => ?_,
    fun c id n => ?_, fun c j => ?_, fun c => ?_, fun c w => ?_, fun c role code k => ?_⟩
  all_goals rintro ⟨⟩; refine Within.same ?_
  · exact (h0 _).glk.flow
  · exact .ite ((h0 _).rejoin (by decide) (by decide)).toPorts (h0 _)
  · exact .ite (h0 _).setBest.toPorts (h0 _)
  · exact .ite ((h0 _).claimInterval (by decide) (by decide)) (h0 _)
  · exact .ite ((h0 _).loseRoot (by decide)) (h0 _)
  · have hr : Within [.GLK, .LOG] s ((s.retrainPort n).addFld F.GLK_PCNT_RETRAIN 1 n) := .addFld (h0 _).retrainPort (by decide)
    exact .ite (h0 _) (.ite (.addFld (h0 _).replayFrom (by decide)) (.ite (hr.event (by decide)) (.send (.addFld (h0 _).glk (by decide)))))
  · exact (h0 _).glk.flow
  · exact .ite (h0 _).setNap.toPort (h0 _)
  · exact .ite (h0 _) (.fallAsleep (by decide) (h0 _).toPort)
  · split
    · exact .ite ((h0 _).fallAsleep (by decide)) (h0 _)
    · exact h0 _
  · exact .ite (h0 _).send (h0 _)
  · split
    · exact .ite (.flow (.putFld (h0 _).dropNap (by decide))) (h0 _)
    · exact h0 _
  · split
    · exact .ite (.event (.addFld (.retrainPort (.putFld (h0 _).dropNap (by decide))) (by decide)) (by decide)) (h0 _)
    · exact h0 _
  · have ht : Within [.GLK, .LOG] s ((s.putFld F.GLK_PDELAY_DELAY x.delay x.port).putFld F.GLK_PDELAY_CAL 1 x.port) :=
      ((h0 _).putFld (by decide)).putFld (by decide)
    exact .ite (.showClusterTime (by decide) (.ite (.glk (.setReg ht.glk (by decide))) ht.glk)) (h0 _)
  · exact (h0 _).takeArm (by decide)
  · exact (h0 _).takeReply
  · exact (h0 _).takeDecision (by decide)
  · exact .ite ((h0 _).glk.fence (by decide)) (h0 _)
  · have ht : ∀ r a b, Within [.GLK, .LOG] s (((s.setReg .GLK_REFTAG r).putFld F.GLK_DIGSTAT_PEERS_HEARD a).putFld F.GLK_DIGSTAT_PEERS_DIFF b) :=
      fun _ _ _ => (((h0 _).setReg (by decide)).putFld (by decide)).putFld (by decide)
    exact .ite (.send ((ht _ _ _).judgeTag (by decide) (by decide))) (h0 _)
  · exact .ite (h0 _).glk (h0 _)
  · exact .ite (.event (.putFld (.putFld (.putFld ((h0 _).putFld (by decide)) (by decide)) (by decide)) (by decide)) (by decide)) (h0 _)
  · exact .ite (.event (.putFld (.putFld ((h0 _).putFld (by decide)) (by decide)) (by decide)) (by decide)) (h0 _)
  · exact .ite (.event (.setFlag ((h0 _).putFld (by decide)) (by decide)) (by decide)) (h0 _)
  · have hn : Within [.ETH, .LOG] s (if (s.ethPort p).gates = [] ∨ s.time < (s.ethPort p).entryEnd then s else
        s.setEth p (s.ethPort p).nextEntry) := .ite (h0 _) (h0 _).setEth
    refine .ite (h0 _) ?_
    split
    · exact .ite ((h0 _).takeAdmin (by decide)) hn
    · exact hn
  · exact .ite (h0 _).busErr (.paramWrite (by decide) (h0 _) ((h0 _).writeGclctl (by decide)))
  · exact .ite (h0 _).chr (h0 _)
  · exact .ite ((h0 _).follow (by decide) (by decide)) (h0 _)
  · exact .ite (.ite ((h0 _).setCan.canLateDrop (by decide) (by decide)) (h0 _).setCan.canStart) (h0 _)
  · have ht : Within [.CAN, .LOG] s (((s.putFld F.CAN_ERR_TEC 0 c).putFld F.CAN_ERR_REC 0 c).putFld F.CAN_ERR_ESTATE 0 c) :=
      (((h0 _).putFld (by decide)).putFld (by decide)).putFld (by decide)
    exact .ite (.canStart (.setCan (ht.putFld (by decide)))) (h0 _)
  · exact .ite (h0 _).busErr ((h0 _).regWrite ((h0 _).releaseFifo (by decide)))
  · exact (h0 _).cycleStarted (by decide) (by decide) rfl
  · exact .ite (.ite (h0 _) (.openWindow ((h0 _).closeWindow (by decide) (by decide)))) (h0 _)
  · have ht : Within [.CAN, .LOG] s (s.ttError c 2) := (h0 _).ttError (by decide) (by decide)
    exact .ite (.ite ht.setCan.send ht) (h0 _)
  · exact .ite (h0 _).busErr (.paramWrite (by decide) (h0 _) ((h0 _).writeCanCtl (by decide)))
  · exact (h0 _).busError (by decide) (by decide) rfl

end Sys2Proof.Machine

namespace Sys2Proof.Machine

/-! Links, members, retries and link delay (R291, R293, R294, R298 to R300, R303, R307). -/

section
variable {s : State}

/-! The ends of links (R291, R293). -/

section
variable {x : LinkUp}

theorem execGlkLinkUp_trains (hm : x.member = s.self) (hl : s.glkPortLive x.port = true) (hw : s.fld F.GLK_PSTAT_WIDTH x.port = 0) :
    execGlkLinkUp x s = .next (s.linkChange (fun t => t.ownLinkUp x)) :=
  congrArg Host.Outcome.next ((if_pos hm).trans (if_pos ⟨hl, hw⟩))

theorem execGlkLinkUp_kept (hm : x.member = s.self) (h : s.glkPortLive x.port = false ∨ s.fld F.GLK_PSTAT_WIDTH x.port ≠ 0) :
    execGlkLinkUp x s = .next s :=
  congrArg Host.Outcome.next ((if_pos hm).trans (if_neg (fun ⟨hl, hw⟩ => h.elim (ne_false_of_eq_true hl) (· hw))))

theorem execGlkLinkUp_elsewhere (hm : x.member ≠ s.self) : execGlkLinkUp x s = .next (s.linkChange (fun t =>
    { t with glk := { t.glk with down := t.glk.down.filter (fun l => l != s.linkOf x.member x.port) } })) :=
  congrArg Host.Outcome.next (if_neg hm)

end

section
variable {m n : Nat}

theorem execGlkLinkDown_own (hm : m = s.self) (hn : n < 4) (hw : s.fld F.GLK_PSTAT_WIDTH n ≠ 0) : execGlkLinkDown m n s =
    .next (s.linkChange (fun t => ((t.portDown n).event 0x0C 0x0002 n).setFlag F.GLK_TBREAK_WIDTH)) :=
  congrArg Host.Outcome.next ((if_pos hm).trans (if_pos ⟨hn, hw⟩))

theorem execGlkLinkDown_elsewhere (hm : m ≠ s.self) : execGlkLinkDown m n s = .next (
    if s.glk.down.contains (s.linkOf m n) then s
    else s.linkChange (fun t => { t with glk := { t.glk with down := t.glk.down ++ [s.linkOf m n] } })) :=
  congrArg Host.Outcome.next (if_neg hm)

end

/-! The expected neighbour (R298, R300). -/

section
variable {n : Nat}

theorem execHello_trained {h : Hello} (hl : s.glkPortLive n = true) (hw : s.fld F.GLK_PSTAT_WIDTH n ≠ 0) : execHello n h s = .next (
    if s.helloOk n h then s.linkChange (fun t =>
      let t := ((t.setFlag F.GLK_PSTAT_PEER_VALID n).putFld F.GLK_PSTAT_PEER_MEMBER h.member n).putFld F.GLK_PSTAT_PEER_PORT h.port n
      let t := { t with glk := { t.glk with peerUid := sparseSet (fun _ => 0) t.glk.peerUid n h.uid } }
      if t.fld F.GLK_PSTAT_STATE n = stStarting then t.setUnit fnGlk n stReady else t)
    else (s.linkChange (fun t => ((t.putFld F.GLK_PSTAT_PEER_VALID 0 n).setUnit fnGlk n stFault).setFlag F.GLK_TBREAK_WIDTH)).event
      0x0C 0x0006 n) :=
  congrArg Host.Outcome.next (if_pos ⟨hl, hw⟩)

theorem execPortWait_down (hl : s.glkPortLive n = true) (hn : (s.neighbour s.self n).isSome = true) (hu : s.portUp n = false) :
    execPortWait n s = .next ((s.setUnit fnGlk n stFault).setFlag F.GLK_TBREAK_WIDTH) :=
  congrArg Host.Outcome.next (if_pos ⟨hl, hn, hu⟩)

theorem execPortWait_kept (h : (s.neighbour s.self n).isSome = false ∨ s.portUp n = true) : execPortWait n s = .next s :=
  congrArg Host.Outcome.next (if_neg (fun ⟨_, hn, hu⟩ => h.elim (ne_false_of_eq_true hn) (ne_true_of_eq_false hu)))

end

/-! Announcements (R299). -/

section
variable {n : Nat} {a : Announce}

theorem execMemberAnnouncement_ignored
    (h : s.portUp n = false ∨ 64 ≤ a.hops ∨ a.cluster ≠ s.fld F.GLK_ID_CLUSTER ∨ a.uid = s.reg .GLK_UID) :
    execMemberAnnouncement n a s = .next s :=
  congrArg Host.Outcome.next (if_pos h)

/-- R299: the own record of the members with an announcement of one in the place of its old one. -/
def State.noteMember (s : State) (a : Announce) : State := { s with glk := { s.glk with
  members := s.liveMembers.filter (fun e => !(e.1.member == a.member && e.1.uid == a.uid)) ++ [(a, s.dev.nowNs)] } }

theorem execMemberAnnouncement_heard (hu : s.portUp n = true) (hh : a.hops < 64) (hc : a.cluster = s.fld F.GLK_ID_CLUSTER)
    (hi : a.uid ≠ s.reg .GLK_UID) : execMemberAnnouncement n a s = .next (
      (if s.seenBefore a then s.noteMember a else (s.noteMember a).toPorts (some n) (.announce { a with hops := a.hops + 1 })).showConflict
        a.member (s.conflict a.member)) :=
  congrArg Host.Outcome.next (if_neg (by simp [hu, hh, hc, hi]))

end

/-! Retries (R303). -/

section
variable {n flit : Nat} (h : s.portUp n = true)
include h

theorem execFlitReplay_asked : execFlitReplay n flit true s = .next ((s.replayFrom n flit).addFld F.GLK_PCNT_RETRY 1 n) :=
  congrArg Host.Outcome.next (if_neg (ne_false_of_eq_true h))

theorem execFlitReplay_bad : execFlitReplay n flit false s = .next (
    if 16 ≤ s.badReplays n flit then ((s.retrainPort n).addFld F.GLK_PCNT_RETRAIN 1 n).event 0x0C 0x0003 n
    else
      ({ s with glk := { s.glk with
        replays := s.glk.replays.filter (fun (e : Nat × Nat × Nat) => e.1 != n) ++ [(n, flit, s.badReplays n flit)] } }.addFld
          F.GLK_PCNT_RETRY 1 n).send (.link n (.replay flit))) :=
  congrArg Host.Outcome.next (if_neg (ne_false_of_eq_true h))

end

/-- Messages sent one after the other stand in their order behind those sent before. -/
theorem State.foldl_send_sent {α : Type} (f : α → Out) (l : List α) (s : State) :
    (l.foldl (fun t e => t.send (f e)) s).sent = s.sent ++ l.map f := by
  induction l generalizing s with
  | nil => simp
  | cons e l ih => rw [List.foldl_cons, ih]; simp [State.send]

theorem State.replayFrom_regs (n flit : Nat) : (s.replayFrom n flit).regs = s.regs :=
  foldl_inv (P := fun t : State => t.regs = s.regs) (fun _ _ h => h) rfl

/-! Link delay (R307). -/

/-- R307: a port's delay, and the offset of its neighbour's time, as they were last measured. -/
def State.noteDelay (s : State) (x : DelayMeasure) : State :=
  let t := (s.putFld F.GLK_PDELAY_DELAY x.delay x.port).putFld F.GLK_PDELAY_CAL 1 x.port
  { t with glk := { t.glk with offsets := t.glk.offsets.filter (fun (e : Nat × Int) => e.1 != x.port) ++ [(x.port, x.offset)] } }

theorem execLinkDelayMeasure_up {x : DelayMeasure} (h : s.portUp x.port = true) : execLinkDelayMeasure x s = .next (
    if s.rootPort = some x.port then
      ({ (s.noteDelay x).setReg .GLK_TOFF (ofSigned 64 (x.offset + x.peerToff)) with
        glk := { (s.noteDelay x).glk with toffNs := some s.dev.nowNs, routeCal := x.calibrated } } : State).showClusterTime
    else (s.noteDelay x).showClusterTime) := by
  refine congrArg Host.Outcome.next ((if_pos h).trans ?_)
  split <;> rfl

end

/-- Settles O23: each command on the path that the port's or the link's state chooses. -/
theorem grenlinkLinkCommands : Obligations.GrenlinkLinkCommands := by
  refine ⟨fun s x => ⟨execGlkLinkUp_trains, execGlkLinkUp_kept, execGlkLinkUp_elsewhere⟩,
    fun s m n => ⟨execGlkLinkDown_own, fun hm hd => ?_, fun hm hd => ?_⟩, fun s d => rfl,
    fun s n h hl hw => ⟨fun hok => ?_, fun hok => ?_⟩, fun s n hl => ⟨execPortWait_down hl, execPortWait_kept⟩,
    fun s n a => ⟨execMemberAnnouncement_ignored, fun hu hh hc hi => ⟨_, s.noteMember a, rfl, rfl, fun hs => ?_, fun hs => ?_⟩⟩,
    fun s h => congrArg Host.Outcome.next (if_pos h),
    fun s n flit hu => ⟨execFlitReplay_asked hu, fun hb => ?_, fun hb => ⟨_, rfl, ?_⟩⟩,
    fun s n flit => ⟨_, rfl, State.foldl_send_sent (fun e : Nat × Nat × Out => e.2.2) _ s, State.replayFrom_regs n flit⟩,
    fun s n => rfl, fun s t u x hp ht hu => ?_⟩
  · exact (execGlkLinkDown_elsewhere hm).trans (by rw [if_neg (ne_true_of_eq_false hd)])
  · exact (execGlkLinkDown_elsewhere hm).trans (by rw [if_pos hd])
  · exact (execHello_trained hl hw).trans (by rw [if_neg (ne_true_of_eq_false hok)])
  · exact (execHello_trained hl hw).trans (by rw [if_pos hok])
  · exact (execMemberAnnouncement_heard hu hh hc hi).trans (by rw [if_pos hs])
  · exact (execMemberAnnouncement_heard hu hh hc hi).trans (by rw [if_neg (ne_true_of_eq_false hs)])
  · exact (execFlitReplay_bad hu).trans (by rw [if_pos hb])
  · exact (execFlitReplay_bad hu).trans (by rw [if_neg (Nat.not_le.2 hb)])
  · obtain rfl : u = s.noteDelay x := by rw [hu, ht]; rfl
    exact ⟨fun hr => (execLinkDelayMeasure_up hp).trans (by rw [if_neg hr]), fun hr => (execLinkDelayMeasure_up hp).trans (by rw [if_pos hr])⟩

end Sys2Proof.Machine

namespace Sys2Proof.Machine

/-! The root election and naps (R301, R302, R304 to R306). -/

section
variable {s : State} {n : Nat}

theorem execRootClaim_better {prio uid : Nat} (hu : s.portUp n = true) (hp : prio ≠ 0) (h : betterClaim (prio, uid) s.glk.best = true) :
    execRootClaim n prio uid s = .next ((s.setBest (prio, uid)).toPorts (some n) (.claim prio uid)) :=
  congrArg Host.Outcome.next (if_pos ⟨hu, hp, h⟩)

theorem execRootClaim_ignored {prio uid : Nat} (h : prio = 0 ∨ betterClaim (prio, uid) s.glk.best = false) :
    execRootClaim n prio uid s = .next s :=
  congrArg Host.Outcome.next (if_neg (fun ⟨_, hp, hb⟩ => h.elim hp (ne_false_of_eq_true hb)))

theorem execNapPropose_idle {wake : Nat} (he : s.napEnabled = true) (hu : s.portUp n = true) (hn : s.napOf n = none)
    (hb : s.portBusy n = false) (hw : s.time < wake) (hm : wake ≤ s.time + bitsOf (s.reg .GLK_NAPMAX) 15 0 * 1000) :
    execNapPropose n wake s = .next ((s.setNap { port := n, wake := wake }).toPort n (.napProposal wake)) :=
  congrArg Host.Outcome.next (if_pos ⟨he, hu, Option.isNone_iff_eq_none.2 hn, hb, hw, hm⟩)

/-- R304: what keeps a port that gets a proposal awake. -/
theorem execNapProposal_refused {wake : Nat} {b : Bool} (h : s.portUp n = false ∨ s.flag F.MEMC_CFG_REPEATABLE = true ∨
    s.flag F.GLK_PSTAT_NAP n = true ∨ b = true ∨ s.portBusy n = true ∨ s.ownStands n = true) : execNapProposal n wake b s = .next s :=
  congrArg Host.Outcome.next (if_pos h)

theorem execNapProposal_accepted {wake : Nat} (hu : s.portUp n = true) (hr : s.flag F.MEMC_CFG_REPEATABLE = false)
    (hn : s.flag F.GLK_PSTAT_NAP n = false) (hb : s.portBusy n = false) (ho : s.ownStands n = false) : execNapProposal n wake false s =
      .next ((s.toPort n .napAccept).fallAsleep { port := n, wake := s.localWake n wake, mine := false }) :=
  congrArg Host.Outcome.next (if_neg (by simp [hu, hr, hn, hb, ho]))

/-! A port with a nap (R304, R306). -/

section
variable {x : Nap} (h : s.napOf n = some x)
include h

theorem execNapAccept_proposed (hm : x.mine = true) (ha : x.asleep = false) (hu : s.portUp n = true) :
    execNapAccept n s = .next (s.fallAsleep x) := by
  simp [execNapAccept, h, hm, ha, hu]

variable (ha : x.asleep = true)
include ha

theorem execNapWake_asleep : execNapWake n s = .next (s.send (.link n .wake)) := by
  simp [execNapWake, h, ha]

theorem execWakeSequence_listens (hl : s.listens x = true) :
    execWakeSequence n s = .next (((s.dropNap n).putFld F.GLK_PSTAT_NAP 0 n).flow) := by
  simp [execWakeSequence, h, ha, hl]

theorem execNapResync_asleep : execNapResync n s =
    .next (((((s.dropNap n).putFld F.GLK_PSTAT_NAP 0 n).retrainPort n).addFld F.GLK_PCNT_NAP_RESYNC 1 n).event 0x0C 0x0004 n) := by
  simp [execNapResync, h, ha]

end
end

/-- Settles O24: a claim by whether it is better, a nap by whether the port may sleep, sleeps or wakes. -/
theorem grenlinkTimeCommands : Obligations.GrenlinkTimeCommands :=
  ⟨fun _ _ _ _ hu => ⟨execRootClaim_better hu, execRootClaim_ignored⟩, fun _ h => congrArg Host.Outcome.next (if_pos h),
    fun _ he hr => congrArg Host.Outcome.next (if_pos ⟨he, hr⟩), fun _ _ _ => execNapPropose_idle, fun _ _ _ => execNapProposal_accepted,
    fun _ _ _ _ => execNapProposal_refused,
    fun _ _ _ h => ⟨execNapAccept_proposed h, execNapWake_asleep h, execWakeSequence_listens h, execNapResync_asleep h⟩⟩

end Sys2Proof.Machine

namespace Sys2Proof.Machine

/-! Cluster barriers (R308 to R310). -/

section
variable {s : State} {id m : Nat}

/-! GLK_BARRIER (R308). -/

section
variable {p : Packet}

theorem barrierBody_refused (h : s.flag F.GLK_TIMESTAT_LOCKED = false ∨ 8 ≤ s.glk.roots.length) :
    barrierBody p id s = s.finish id csState 0 := if_pos h

theorem barrierBody_arms (hl : s.flag F.GLK_TIMESTAT_LOCKED = true) (hn : s.glk.roots.length < 8) : barrierBody p id s =
    (({ s with glk := { s.glk with roots := s.glk.roots ++ [{ id := id, members := pNum p 0 8 }] } } : State).showArmed).sendArms
      { id := id, partition := p.partition, ctr := pNum p 0x10 2, inc := pNum p 8 8, start := s.clusterTime + barLead p } (pNum p 0 8) :=
  if_neg (by simp [hl, hn])

end

/-! Replies and reports at the root (R308, R310). -/

section
variable {b : RootBar}

theorem State.takeReply_first (hb : s.glk.roots.find? (fun b => b.id == id) = some b) (hm : b.members.testBit m = true)
    (ha : b.acks.testBit m = false) (hn : b.nacks.testBit m = false) (ack : Bool) : s.takeReply id m ack =
      if ack then s.setRoot { b with acks := b.acks + 2 ^ m } else s.setRoot { b with nacks := b.nacks + 2 ^ m } := by
  simp [State.takeReply, hb, hm, ha, hn]

/-- R310: the root's record of a barrier after a member's report. -/
def RootBar.report (b : RootBar) (m : Nat) (ok : Bool) : RootBar :=
  if ok then { b with released := b.released + 2 ^ m } else { b with missed := b.missed + 2 ^ m }

theorem execBarrierReport_first {ok : Bool} {c : RootBar} (hb : s.glk.roots.find? (fun b => b.id == id && b.confirmed) = some b)
    (hm : b.members.testBit m = true) (hr : b.released.testBit m = false) (hn : b.missed.testBit m = false) (hc : c = b.report m ok) :
    execBarrierReport id m ok s = .next (if c.released + c.missed = c.members then
      (s.setRoot c).endBarrier id (if c.missed = 0 then csDone else csClamped) c.missed else s.setRoot c) := by
  unfold execBarrierReport State.takeReport
  rw [hb, hc]
  exact congrArg Host.Outcome.next (if_pos (by simp [hm, hr, hn]))

/-! The decision (R308, R310). -/

section
variable (hb : s.glk.roots.find? (fun b => b.id == id && !b.confirmed) = some b)
include hb

theorem execBarrierDecide_confirms (ha : b.acks = b.members) (hr : s.flag F.GLK_ROOTSTAT_IS_ROOT = true) : execBarrierDecide id s = .next (
    if b.members = 0 then ((s.setRoot { b with confirmed := true }).sendDecision b true).endBarrier id csDone 0
    else (s.setRoot { b with confirmed := true }).sendDecision b true) := by
  unfold execBarrierDecide
  rw [hb]
  exact congrArg Host.Outcome.next (if_pos ⟨ha, hr⟩)

theorem execBarrierDecide_cancels (h : b.acks ≠ b.members ∨ s.flag F.GLK_ROOTSTAT_IS_ROOT = false) : execBarrierDecide id s =
    .next ((((s.sendDecision b false).setFlag F.GLK_BARSTAT_CANCELLED).anyEvent 0x0C 0x0008).endBarrier id csState (b.members - b.acks)) := by
  unfold execBarrierDecide
  rw [hb]
  exact congrArg Host.Outcome.next (if_neg (fun ⟨ha, hr⟩ => h.elim (· ha) (ne_false_of_eq_true hr)))

end
end

/-! A member's own barriers (R309). -/

theorem State.takeDecision_void (h : s.glk.void.contains id = true) : s.takeDecision id true = s := if_pos h

theorem State.takeDecision_confirms (h : s.glk.void.contains id = false) : s.takeDecision id true =
    { s with glk := { s.glk with bars := s.glk.bars.map (fun b => if b.1.id = id then (b.1, true) else b) } } :=
  if_neg (ne_true_of_eq_false h)

/-- R309: a barrier leaves the member at its T_start. -/
def State.dropBar (s : State) (id : Nat) : State :=
  ({ s with glk := { s.glk with bars := s.glk.bars.filter (fun b => b.1.id != id) } } : State).showArmed

theorem execBarrierRelease_armed {x : BarArm} {ok : Bool} (h : s.glk.bars.find? (fun b => b.1.id == id) = some (x, ok)) :
    execBarrierRelease id s = .next ((if ok then (s.dropBar id).signal x.ctr x.inc
      else ((s.dropBar id).setFlag F.GLK_BARSTAT_MISSED).anyEvent 0x0C 0x0009).toRoot (.report id ok) (fun u => u.takeReport id s.self ok)) := by
  unfold execBarrierRelease
  rw [h]
  rfl

end

/-- Settles O25: the packet by what the root and its clock show, each message by the barrier that it names. -/
theorem barrierCommands : Obligations.BarrierCommands := by
  refine ⟨fun s p hs => ⟨fun hr => ?_, fun hr h => ?_, fun hr hl hn => ?_⟩, fun s x => ⟨_, rfl, rfl⟩,
    fun s id m b hb hm ha hn => ⟨congrArg Host.Outcome.next (State.takeReply_first hb hm ha hn true),
      congrArg Host.Outcome.next (State.takeReply_first hb hm ha hn false)⟩,
    fun s id => ⟨fun h => congrArg Host.Outcome.next (State.takeDecision_void h),
      fun h => congrArg Host.Outcome.next (State.takeDecision_confirms h), rfl⟩,
    fun s id m ok b c hb hm hr hn hc => ?_,
    fun s id b hb => ⟨fun ha hr hm => ?_, fun ha hr hm => ?_, execBarrierDecide_cancels hb⟩,
    fun s id x ok h => ⟨s.dropBar id, rfl, ?_, ?_⟩⟩
  · exact exec_starts rfl hs (if_neg (ne_true_of_eq_false hr))
  · exact exec_starts rfl hs ((if_pos hr).trans (barrierBody_refused h))
  · exact exec_starts rfl hs ((if_pos hr).trans (barrierBody_arms hl hn))
  · have hx := execBarrierReport_first hb hm hr hn hc
    exact ⟨fun h => hx.trans (by rw [if_neg h]), fun h h0 => hx.trans (by rw [if_pos h, if_pos h0, h0]),
      fun h h0 => hx.trans (by rw [if_pos h, if_neg h0])⟩
  · exact (execBarrierDecide_confirms hb ha hr).trans (by rw [if_neg hm])
  · exact (execBarrierDecide_confirms hb ha hr).trans (by rw [if_pos hm])
  · rintro rfl
    exact (execBarrierRelease_armed h).trans (by rw [if_pos rfl])
  · rintro rfl
    exact (execBarrierRelease_armed h).trans (by rw [if_neg Bool.false_ne_true])

end Sys2Proof.Machine

namespace Sys2Proof.Machine

/-! Images, heartbeats and the fence (R322 to R326). -/

section
variable {s : State} {p : Packet} (id : Nat)

theorem imageBody_adds (h0 : p.target = 0) (hc : s.glk.images.contains (p.partition, pNum p 0 16) = false)
    (hn : s.glk.images.length < 1024) : imageBody p id s =
      (let u := ({ s with glk := { s.glk with images := insertImage (p.partition, pNum p 0 16) s.glk.images } } : State).bumpGen
       u.finish id csDone (u.imagesOf p.partition)) :=
  (if_pos h0).trans (if_neg (not_or.2 ⟨ne_true_of_eq_false hc, Nat.not_le.2 hn⟩))

theorem imageBody_full (h0 : p.target = 0)
    (h : s.glk.images.contains (p.partition, pNum p 0 16) = true ∨ 1024 ≤ s.glk.images.length) :
    imageBody p id s = s.finish id csFormat 0 :=
  (if_pos h0).trans (if_pos h)

theorem imageBody_removes (h0 : p.target ≠ 0) (hc : s.glk.images.contains (p.partition, pNum p 0 16) = true) : imageBody p id s =
    (let u := ({ s with glk := { s.glk with images := s.glk.images.filter (fun x => x != (p.partition, pNum p 0 16)) } } : State).bumpGen
     u.finish id csDone (u.imagesOf p.partition)) :=
  (if_neg h0).trans (if_pos hc)

theorem imageBody_missing (h0 : p.target ≠ 0) (hc : s.glk.images.contains (p.partition, pNum p 0 16) = false) :
    imageBody p id s = s.finish id csFormat 0 :=
  (if_neg h0).trans (if_neg (ne_true_of_eq_false hc))

end

/-- R323: the bytes are a heartbeat of another device, with a correct CRC. -/
def State.foreignHeartbeat (s : State) (d : List Byte) : Bool :=
  decide (d.length = 64 ∧ leAt d 0 4 = 0x48424541 ∧ leAt d 4 1 = 1 ∧ leAt d 0x3C 4 = crc32c (d.take 0x3C) ∧ leAt d 8 8 ≠ s.reg .GLK_UID)

theorem execHeartbeatRx_ignored {s : State} {d : List Byte} (h : s.foreignHeartbeat d = false) : execHeartbeatRx d s = .next s :=
  congrArg Host.Outcome.next (if_neg (of_decide_eq_false h))

theorem execHeartbeatRx_heard {s : State} {d : List Byte} (h : s.foreignHeartbeat d = true) : execHeartbeatRx d s =
    .next { s with glk := { s.glk with heard := s.glk.heard.filter (fun x => x.uid != leAt d 8 8) ++
      [{ uid := leAt d 8 8, group := leAt d 6 2, gen := leAt d 0x14 4, tag := leAt d 0x18 8, ns := s.dev.nowNs }] } } :=
  congrArg Host.Outcome.next (if_pos (of_decide_eq_true h))

/-- Settles O26: an image by whether it stands, a heartbeat by its checks, and the fence by what suspends it. -/
theorem digestCommands : Obligations.DigestCommands := by
  refine ⟨fun s p hs => ⟨fun h0 hc hn => ?_, fun h0 hc => ?_, fun h0 h => ?_, fun h0 hc => ?_⟩,
    fun s p hs => exec_starts rfl hs rfl, fun s p hs => exec_starts rfl hs rfl, fun s h => congrArg Host.Outcome.next (if_pos h),
    fun s u hn hu => ?_, fun s d => ⟨s.foreignHeartbeat d, rfl, execHeartbeatRx_ignored, execHeartbeatRx_heard⟩⟩
  · exact exec_starts rfl hs (imageBody_adds _ h0 hc hn)
  · exact exec_starts rfl hs (imageBody_removes _ h0 hc)
  · exact exec_starts rfl hs (imageBody_full _ h0 h)
  · exact exec_starts rfl hs (imageBody_missing _ h0 hc)
  · subst hu
    exact congrArg Host.Outcome.next (if_pos hn)

end Sys2Proof.Machine

namespace Sys2Proof.Machine

/-! The receivers' packets (R328, R329, R333 to R335, R341 to R343). -/

section
variable {s : State}

section
variable {x : ShortPacket}

theorem execCsi2FrameStart_dropped (h : s.rxLive x.rx = false ∨ s.bound x.rx x.vc = []) : execCsi2FrameStart x s = .next s :=
  congrArg Host.Outcome.next (if_pos h)

theorem execCsi2FrameEnd_dropped (h : s.rxLive x.rx = false ∨ s.bound x.rx x.vc = []) : execCsi2FrameEnd x s = .next s :=
  congrArg Host.Outcome.next (if_pos h)

/-- A short packet of a live receiver on a bound channel is not dropped. -/
theorem State.short_taken (hl : s.rxLive x.rx = true) (hb : s.bound x.rx x.vc ≠ []) : ¬(s.rxLive x.rx = false ∨ s.bound x.rx x.vc = []) :=
  not_or.2 ⟨ne_false_of_eq_true hl, hb⟩

/-- A frame start reaches a receiver: a header that ECC corrected is counted (R328), and a usable receiver takes the work (R26). -/
def State.frameArrives (s : State) (x : ShortPacket) : State :=
  let t := s.eccCorrected x.rx x.corrected
  if t.unitUsable fnCam x.rx then t.acceptUnit fnCam x.rx else t

variable (hl : s.rxLive x.rx = true) (hb : s.bound x.rx x.vc ≠ [])
include hl hb

theorem execCsi2FrameStart_bound : execCsi2FrameStart x s = .next ((s.bound x.rx x.vc).foldl (fun t k => t.startFrame x.rx x.num k)
    (if s.sensorVc x.rx = some x.vc then (s.frameArrives x).countFrame x.rx x.num else s.frameArrives x)) :=
  congrArg Host.Outcome.next (if_neg (State.short_taken hl hb))

theorem execCsi2FrameEnd_bound : execCsi2FrameEnd x s = .next (
    if s.sensorVc x.rx = some x.vc
    then ((s.bound x.rx x.vc).foldl State.endFrame (s.eccCorrected x.rx x.corrected)).issue x.rx
    else (s.bound x.rx x.vc).foldl State.endFrame (s.eccCorrected x.rx x.corrected)) :=
  congrArg Host.Outcome.next (if_neg (State.short_taken hl hb))

end

section
variable {x : LongPacket}

theorem execCsi2LongPacket_dead (hl : s.rxLive x.rx = false) : execCsi2LongPacket x s = .next s :=
  congrArg Host.Outcome.next (if_pos hl)

variable (hl : s.rxLive x.rx = true)
include hl

theorem execCsi2LongPacket_bad (he : x.ecc = .bad) : execCsi2LongPacket x s = .next ((List.range 32).foldl (fun t k =>
    if t.fld F.CAM_CTXCFG_RX k = x.rx then t.truncate k 2 else t) (s.addFld F.CAM_RXERR_ECC_UNCORR 1 x.rx)) :=
  congrArg Host.Outcome.next ((if_neg (ne_false_of_eq_true hl)).trans (if_pos he))

variable (he : x.ecc ≠ .bad)
include he

theorem execCsi2LongPacket_bound {k : Nat} (hk : (s.bound x.rx x.vc).find? (fun k => s.fld F.CAM_CTXCFG_DT k == x.dt) = some k) :
    execCsi2LongPacket x s = .next ((s.eccCorrected x.rx (x.ecc == .corrected)).streamPacket k x) :=
  congrArg Host.Outcome.next ((if_neg (ne_false_of_eq_true hl)).trans ((if_neg he).trans (by rw [hk])))

theorem execCsi2LongPacket_unbound (hk : (s.bound x.rx x.vc).find? (fun k => s.fld F.CAM_CTXCFG_DT k == x.dt) = none) :
    execCsi2LongPacket x s = .next s :=
  congrArg Host.Outcome.next ((if_neg (ne_false_of_eq_true hl)).trans ((if_neg he).trans (by rw [hk])))

end

/-! A sensor's commits (R332 to R335). -/

section
variable {n : Nat}

theorem execCamExpoCommit_written {w : RegWrite} (hn : n < 16) (hi : s.p0 w.initiator = true) (hg : s.gated .CAM = false) :
    execCamExpoCommit n w s = .next (if w.value.testBit 0 then s.commit n else s).accessed :=
  congrArg Host.Outcome.next ((if_neg (Nat.not_le.2 hn)).trans (State.regWrite_allowed _ hi hg))

variable {g frame : Nat} {retried : Bool} (hw : (s.sensor n).writing = some (g, frame, retried))
include hw

theorem execI3cWriteDone_acknowledged : execI3cWriteDone n true s = .next (
    if (s.sensor n).frame = frame then s.issued n g frame
    else ((s.issued n g (frame + 1)).addFld F.CAM_SENSSTAT_LATE_CNT 1 n).anyEvent 0x07 0x0003) := by
  unfold execI3cWriteDone
  dsimp only
  rw [hw]
  exact congrArg Host.Outcome.next (if_pos rfl)

theorem execI3cWriteDone_refused : execI3cWriteDone n false s = .next (
    if retried then ((s.setSensor n { s.sensor n with writing := none }).addFld F.CAM_SENSSTAT_FAIL_CNT 1 n).anyEvent 0x07 0x0004
    else (s.i3cWrite n g).setSensor n { s.sensor n with writing := some (g, frame, true) }) := by
  unfold execI3cWriteDone
  dsimp only
  rw [hw]
  exact congrArg Host.Outcome.next (if_neg Bool.false_ne_true)

end

/-! Strips and the ends of frames (R338, R342, R346). -/

theorem execIspStrip_fullest {pipe k i : Nat} (hk : s.fullest pipe = some k) (hi : (s.camCtx k).strip = some i) : execIspStrip pipe s =
    .next (s.feed k i (((s.camCtx k).frames[i]?.map (fun f => min (f.fed + 8) f.lines.length)).getD 0)) := by
  simp only [execIspStrip, hk, hi]

section
variable {k : Nat} {f : CamFrame} (hf : (s.camCtx k).frames.head? = some f)
include hf

theorem State.endOldest_raw (hr : s.camRaw k = true) : s.endOldest k = s.finishFrame k f := by
  unfold State.endOldest
  rw [hf]
  exact if_pos hr

theorem State.endOldest_piped (hr : s.camRaw k = false) : s.endOldest k = (s.feed k 0 f.lines.length).finishFrame k f := by
  unfold State.endOldest
  rw [hf]
  exact if_neg (ne_true_of_eq_false hr)

/-- R342: the oldest frame is finished where it has ended, its context and receiver live, and raw capture or the pipe took its lines. -/
theorem execIspFrameDone_oldest : execIspFrameDone k s =
    .next (if f.ended && s.ctxLive k && (s.camRaw k || f.fed == f.lines.length) then s.endOldest k else s) := by
  unfold execIspFrameDone
  rw [hf]

end

/-! CTX_COMMIT (R340). -/

section
variable {p : Packet} (id : Nat) {l : List (Nat × Nat)} (hl : l = [(pNum p 0 8, Config.paramBytes)])
include hl

theorem ctxCommitBody_read : ctxCommitBody p none id s =
    (((s.chargePieces (initiator 6 p.partition) l).setCamCtx p.target
      { (s.chargePieces (initiator 6 p.partition) l).camCtx p.target with shadow := some (s.readPieces l) }).putFld
        F.CAM_CTXSTATE_PENDING 1 p.target).finish id csDone 0 := by
  rw [hl]
  rfl

theorem ctxCommitBody_ecc (k : Nat) : ctxCommitBody p (some k) id s = ((s.chargePieces (initiator 6 p.partition) l).uncorrectable
    (pieceAddr l k Config.paramBytes) 0 p.partition).finish id csEcc 0 := by
  rw [hl]
  rfl

end

/-! Frame sync (R331). -/

section
variable {n : Nat}

/-- At an output's phase no time lies behind the phase. -/
theorem State.fsyncAge_phase (h : s.time % s.fld F.CAM_FSYNCPER_PERIOD_NS n = s.fld F.CAM_FSYNCPER_PHASE_NS n) : s.fsyncAge n = 0 := by
  simp [State.fsyncAge, h]

theorem State.fsyncDue_rise (h : s.time % s.fld F.CAM_FSYNCPER_PERIOD_NS n = s.fld F.CAM_FSYNCPER_PHASE_NS n)
    (hp : s.fld F.CAM_FSYNCPER_PHASE_NS n < s.fld F.CAM_FSYNCPER_PERIOD_NS n) : s.fsyncDue n true = true := by
  simp [State.fsyncDue, State.fsyncAge_phase h, hp]

theorem State.fsyncDue_fall (h : 1000 * s.fld F.CAM_FSYNCCFG_WIDTH_US n ≤ s.fsyncAge n) : s.fsyncDue n false = true :=
  decide_eq_true h

theorem execFsyncPulse_due {b : Bool} (he : s.flag F.CAM_FSYNCCFG_EN n = true) (hn : n < 16) (hh : s.devState ≠ devHeld)
    (hs : s.devState ≠ devSafe) (hd : s.fsyncDue n b = true) : execFsyncPulse n b s = .next (s.setFsync n b) :=
  congrArg Host.Outcome.next (if_pos ⟨he, hn, hh, hs, hd⟩)

theorem execFsyncPulse_kept {b : Bool} (h : s.flag F.CAM_FSYNCCFG_EN n = false ∨ 16 ≤ n ∨ s.devState = devHeld ∨ s.devState = devSafe ∨
    s.fsyncDue n b = false) : execFsyncPulse n b s = .next s := by
  refine congrArg Host.Outcome.next (if_neg fun ⟨he, hn, hh, hs, hd⟩ => ?_)
  obtain h | h | h | h | h := h
  · exact ne_false_of_eq_true he h
  · omega
  · exact hh h
  · exact hs h
  · exact ne_false_of_eq_true hd h

end
end

/-- Settles O27: each packet of a receiver by whether it is bound, each end by what the sensor, the pipe or the output shows. -/
theorem cameraCommands : Obligations.CameraCommands := by
  refine ⟨fun s x h => ⟨execCsi2FrameStart_dropped h, execCsi2FrameEnd_dropped h⟩,
    fun s x hl hb => ⟨_, s.frameArrives x, rfl, rfl, fun hv => ?_, fun hv => ?_⟩,
    fun s x hl => ⟨execCsi2LongPacket_bad hl, fun k he hk => execCsi2LongPacket_bound hl he hk, execCsi2LongPacket_unbound hl⟩,
    fun s x => execCsi2LongPacket_dead, fun s x hl hb => ⟨_, rfl, fun hv => ?_, fun hv => ?_⟩, fun s k => rfl,
    fun s p hs => exec_starts rfl hs rfl, fun s n w hn hi hg => ⟨fun hb => ?_, fun hb => ?_⟩,
    fun s n g frame retried hw => ⟨fun hf => ?_, fun hf => ?_, fun hr => ?_, fun hr => ?_⟩,
    fun s pipe k i => execIspStrip_fullest,
    fun s k f hf he => ⟨fun hl => ?_, fun hl hr => ?_, fun hr hn => ?_, fun hl hr hn => ?_⟩,
    fun s p l hs hl => ⟨exec_starts rfl hs (ctxCommitBody_read _ hl), fun k => exec_starts rfl hs (ctxCommitBody_ecc _ hl k)⟩,
    fun s n he hn hh hs => ⟨fun ht hp => execFsyncPulse_due he hn hh hs (State.fsyncDue_rise ht hp),
      fun ht => execFsyncPulse_due he hn hh hs (State.fsyncDue_fall ht)⟩,
    fun s n b => execFsyncPulse_kept⟩
  · exact (execCsi2FrameStart_bound hl hb).trans (by rw [if_neg hv])
  · exact (execCsi2FrameStart_bound hl hb).trans (by rw [if_pos hv])
  · exact (execCsi2FrameEnd_bound hl hb).trans (by rw [if_pos hv])
  · exact (execCsi2FrameEnd_bound hl hb).trans (by rw [if_neg hv])
  · exact (execCamExpoCommit_written hn hi hg).trans (by rw [if_pos hb])
  · exact (execCamExpoCommit_written hn hi hg).trans (by rw [if_neg (ne_true_of_eq_false hb)])
  · exact (execI3cWriteDone_acknowledged hw).trans (by rw [if_pos hf])
  · exact (execI3cWriteDone_acknowledged hw).trans (by rw [if_neg hf])
  · exact (execI3cWriteDone_refused hw).trans (by rw [if_pos hr])
  · exact (execI3cWriteDone_refused hw).trans (by rw [if_neg (ne_true_of_eq_false hr)])
  · exact (execIspFrameDone_oldest hf).trans (by rw [if_neg (by simp [hl])])
  · exact (execIspFrameDone_oldest hf).trans (by rw [if_pos (by simp [he, hl, hr]), State.endOldest_raw hf hr])
  · exact (execIspFrameDone_oldest hf).trans (by rw [if_neg (by simp [hr, hn])])
  · exact (execIspFrameDone_oldest hf).trans (by rw [if_pos (by simp [he, hl, hn]), State.endOldest_piped hf hr])

end Sys2Proof.Machine

namespace Sys2Proof.Machine

/-! Codec packets that start: decoding and its contexts (R349, R350, R353). -/

section
variable {s : State} {p : Packet} (id : Nat)

section
variable {b : Obj} {off : Nat} (ho : s.payloadObj p 0x10 = some (b, off))
include ho

theorem decCreateBody_invalid (h : b.smem = true ∨ decCreateOk p = false) : decCreateBody p id s = s.finish id csFormat 0x0100 := by
  unfold decCreateBody
  rw [ho]
  exact if_pos (by simpa using h)

variable (hd : b.smem = false) (hp : decCreateOk p = true)
include hd hp

/-- R349: an area that lies in DRAM, of values in range, is refused where it does not fit or no core has the capacity. -/
theorem decCreateBody_valid : decCreateBody p id s =
    if b.size < off + ((newDec p b off).slots + 2) * frameBytes (newDec p b off).maxW (newDec p b off).maxH (newDec p b off).depth +
        (newDec p b off).bytes + 65536 then s.finish id csFormat 0x0600
    else (s.pickCore [0, 1, 2, 3] (newDec p b off).load).elim (s.finish id csFormat 0x0500) (fun c =>
      ((({ s with vid := { s.vid with dec := s.vid.dec ++ [newDec p b off] } } : State).setReg .VID_DCTX
        (2 ^ 30 + 2 ^ 28 * c + 2 ^ 27 * (newDec p b off).codec + 2 ^ 21 * (newDec p b off).partition) (newDec p b off).ctx).showCores).finish
          id csDone c) := by
  unfold decCreateBody
  rw [ho]
  refine (if_neg (by simp [hd, hp])).trans (if_congr Iff.rfl rfl ?_)
  cases s.pickCore [0, 1, 2, 3] (newDec p b off).load <;> rfl

end

section
variable {d : DecCtx} (hd : s.decCtx p.target = some d)
include hd

theorem decDecodeBody_context {u : AccessUnit} : decDecodeBody p u id s =
    if pLast p then decodeWaiting d.ctx (d.waiting.length + 1)
      (s.setDec { d with unit := [], waiting := d.waiting ++ [(id, (d.unit ++ p.payload).take d.bytes, u)] })
    else (s.setDec { d with unit := (d.unit ++ p.payload).take d.bytes }).finish id csDone 0xFF := by
  unfold decDecodeBody
  rw [hd]

theorem decFlushBody_context {order rest l : List Nat} (hr : rest = (d.pics.filter (·.waits)).map (·.slot))
    (hl : l = (order.eraseDups.filter rest.contains) ++ rest.filter (fun n => !order.contains n)) : decFlushBody p order id s =
      (s.setDec (l.foldl DecCtx.outputSlot d)).finish id csDone l.length (padTo 32 (l.map (BitVec.ofNat 8))) := by
  subst hl hr
  unfold decFlushBody
  rw [hd]

end

theorem execDecResume_context {n : Nat} {d : DecCtx} (hd : s.decCtx n = some d) :
    execDecResume n s = .next (decodeWaiting n d.waiting.length s) := by
  rw [execDecResume, hd]
  rfl

/-! The accesses of a codec packet (R119, R281). -/

section
variable {part : Nat} {l : List (Nat × Nat)} {go : State → State}

theorem State.vidAccess_denied {write : Bool} {ue : Option Nat}
    (h : l.all (fun e => s.memOk (initiator 0xC part) e.1 e.2 write) = false) : s.vidAccess part id write l ue go =
      (l.foldl (fun t e => t.recordDenial (initiator 0xC part) e.1 e.2 write) s).finish id csFirewall 8 :=
  if_neg (ne_true_of_eq_false h)

variable (h : l.all (fun e => s.memOk (initiator 0xC part) e.1 e.2 false) = true)
include h

theorem State.vidAccess_read : s.vidAccess part id false l none go = go (s.chargePieces (initiator 0xC part) l) := if_pos h

theorem State.vidAccess_ecc (k : Nat) : s.vidAccess part id false l (some k) go =
    ((s.chargePieces (initiator 0xC part) l).uncorrectable (pieceAddr l k (l.map (·.2)).sum) 0 part).finish id csEcc 0 := if_pos h

end

/-! Encoding (R354, R355). -/

/-- R354, R355: coded bytes go into their object where they fit behind its offset. -/
def State.storeCoded (s : State) (part id : Nat) (b : Obj) (off : Nat) (out : List Byte) (go : State → State) : State :=
  if b.size - off < out.length then s.finish id csFormat 0x0800 else s.vidAccess part id true (b.pieces off out.length) none go

section
variable {part off : Nat} {b : Obj} {out : List Byte} {go : State → State}

theorem State.storeCoded_full (h : b.size - off < out.length) : s.storeCoded part id b off out go = s.finish id csFormat 0x0800 := if_pos h

theorem State.storeCoded_fits (h : out.length ≤ b.size - off) : s.storeCoded part id b off out go =
    s.vidAccess part id true (b.pieces off out.length) none go := if_neg (Nat.not_lt.2 h)

end

section
variable {x : EncSettings}

theorem encCreateBody_refused (h : s.pickCore [4, 5] (x.w * x.h * x.fps) = none) : encCreateBody p x id s = s.finish id csFormat 0x0500 := by
  unfold encCreateBody
  rw [h]

theorem encCreateBody_admitted {c : Nat} {e : EncCtx} (h : s.pickCore [4, 5] (x.w * x.h * x.fps) = some c)
    (he : e = { ctx := p.target, partition := p.partition, core := c, settings := x }) : encCreateBody p x id s =
      ((({ s with vid := { s.vid with enc := s.vid.enc ++ [e] } } : State).setReg .VID_ECTX
        (2 ^ 30 + 2 ^ 29 * (c - 4) + 2 ^ 28 * x.codec + 2 ^ 22 * p.partition) p.target).showCores).finish id csDone c := by
  subst he
  unfold encCreateBody
  rw [h]

end

section
variable {cycles off : Nat} {ue : Option Nat} {e : EncCtx} {b : Obj} {q : Planar}

/-- R354: an encoded picture with its source bytes, its stream's next token and its place. -/
def encodePicture (p : Packet) (cycles id : Nat) (e : EncCtx) (b : Obj) (off : Nat) (q : Planar) (v : State) : State :=
  let src := (v.keyed (initiator 0xC p.partition)).sourceBytes q
  let out := Config.encoded e.settings.codec e.settings.profile e.settings.rate e.token src
  (v.addReg .VID_COREBUSY 64 cycles e.core).storeCoded p.partition id b off out (fun t =>
    let n := { e with token := Config.encodeNext e.settings.codec e.settings.profile e.settings.rate e.token src }
    let w := (t.keyed (initiator 0xC p.partition)).writeObj b off out
    ({ w with vid := { w.vid with enc := w.vid.enc.map (fun (y : EncCtx) => if y.ctx = e.ctx then n else y) } } : State).finish
      id csDone out.length)

variable (he : s.encCtx p.target = some e) (hb : s.payloadObj p 8 = some (b, off)) (hq : q = s.planarRef p.partition (pNum p 0 8))
include he hb hq

theorem encFrameBody_mismatch (h : is420 q.fmt = false ∨ q.w ≠ e.settings.w ∨ q.h ≠ e.settings.h) :
    encFrameBody p cycles ue id s = s.finish id csFormat 0x0100 := by
  subst hq
  unfold encFrameBody
  rw [he, hb]
  exact if_pos h

theorem encFrameBody_match (hf : is420 q.fmt = true) (hw : q.w = e.settings.w) (hh : q.h = e.settings.h) : encFrameBody p cycles ue id s =
    s.vidAccess p.partition id false (sourceRows q) ue (encodePicture p cycles id e b off q) := by
  subst hq
  unfold encFrameBody
  rw [he, hb]
  exact if_neg (by simp [hf, hw, hh])

end

/-! JPEG jobs (R355). -/

section
variable {x : JpegJob}

theorem jpegDecBody_unsupported (h : x.unsupported = true) :
    jpegDecBody p x id s = (s.anyEvent 0x08 0x0003 p.partition).finish id csFormat 0x0700 := if_pos h

theorem jpegDecBody_form (hu : x.unsupported = false) (h : jpegFormOk x = false) : jpegDecBody p x id s = s.finish id csFormat 0x0100 :=
  (if_neg (ne_true_of_eq_false hu)).trans (if_pos h)

theorem jpegDecBody_limits (hu : x.unsupported = false) (hf : jpegFormOk x = true) (h : jpegAdmits x = false) :
    jpegDecBody p x id s = (s.anyEvent 0x08 0x0001 p.partition).finish id csDimensions 0 :=
  (if_neg (ne_true_of_eq_false hu)).trans ((if_neg (ne_false_of_eq_true hf)).trans (if_pos h))

/-- The rows that a job decodes from the bytes it reads in a state. -/
def State.jpegImage (s : State) (part : Nat) (x : JpegJob) : List (Nat × List Byte) :=
  jpegRows x ((s.keyed (initiator 0xC part)).bytes x.addr x.len)

/-- R355: a decoded image is written, whole or concealed, by an engine. -/
def jpegWrites (p : Packet) (x : JpegJob) (engine id : Nat) (c : State) : State :=
  c.vidAccess p.partition id true ((c.jpegImage p.partition x).map (fun e => (e.1, e.2.length))) none (fun t =>
    let w := (t.vidRows p.partition (c.jpegImage p.partition x)).addReg .VID_COREBUSY 64 x.cycles engine
    match x.damage with
    | [] => w.finish id csDone x.consumed
    | (a, _) :: _ => (w.anyEvent 0x08 0x0002 p.partition).finish id csConcealed (2 ^ 20 * (a % 2 ^ 20) + 2 ^ 40 * (x.offset % 2 ^ 24)))

theorem jpegDecBody_admitted (hu : x.unsupported = false) (hf : jpegFormOk x = true) (ha : jpegAdmits x = true) : jpegDecBody p x id s =
    s.vidAccess p.partition id false [(x.addr, x.len)] x.ue (jpegWrites p x s.jpegEngine id) :=
  (if_neg (ne_true_of_eq_false hu)).trans ((if_neg (ne_false_of_eq_true hf)).trans (if_neg (ne_false_of_eq_true ha)))

/-- R355: an encoded image with its place. -/
def encodeImage (p : Packet) (x : JpegJob) (id : Nat) (b : Obj) (off : Nat) (v : State) : State :=
  let out := Config.jpegBytes x.select ((v.keyed (initiator 0xC p.partition)).sourceBytes (jpegRef x))
  (v.addReg .VID_COREBUSY 64 x.cycles v.jpegEngine).storeCoded p.partition id b off out (fun t =>
    ((t.keyed (initiator 0xC p.partition)).writeObj b off out).finish id csDone out.length)

section
variable {b : Obj} {off : Nat} (hb : s.jpegObj p.partition x = some (b, off))
include hb

theorem jpegEncBody_refused (h : jpegFormOk x = false ∨ min x.maxW 16384 < (jpegRef x).w ∨ min x.maxH 16384 < (jpegRef x).h) :
    jpegEncBody p x id s = s.finish id csFormat 0x0100 := by
  unfold jpegEncBody
  rw [hb]
  exact if_pos h

theorem jpegEncBody_admitted (hf : jpegFormOk x = true) (hw : (jpegRef x).w ≤ min x.maxW 16384) (hh : (jpegRef x).h ≤ min x.maxH 16384) :
    jpegEncBody p x id s = s.vidAccess p.partition id false (sourceRows (jpegRef x)) x.ue (encodeImage p x id b off) := by
  unfold jpegEncBody
  rw [hb]
  exact if_neg (not_or.2 ⟨ne_false_of_eq_true hf, not_or.2 ⟨Nat.not_lt.2 hw, Nat.not_lt.2 hh⟩⟩)

end
end
end

/-- Settles O28: each packet's effect on the entered state, by its operands, its object and its accesses. -/
theorem codecPackets : Obligations.CodecPackets := by
  refine ⟨fun s p b off hs ho => ⟨fun h => ?_, fun hd hp h => ?_, fun hd hp hfit h => ?_, fun c hd hp hfit h => ?_⟩,
    fun s p u d hs hd => ⟨fun hl => ?_, fun hl => ?_⟩, fun s n d => execDecResume_context,
    fun s p order d hs hd => ⟨_, _, rfl, rfl, exec_starts rfl hs (decFlushBody_context _ hd rfl rfl)⟩,
    fun s p d hs hd => exec_starts rfl hs rfl,
    fun s p x hs => ⟨fun h => exec_starts rfl hs (encCreateBody_refused _ h), fun c h => exec_starts rfl hs (encCreateBody_admitted _ h rfl)⟩,
    fun s u v p cycles i off ue r e b q out hr hs hu he hb hq hi hv hout => ⟨fun h => ?_, fun hf hw hh =>
      ⟨fun h => ?_, fun k h hk => ?_, fun h hn hlt => ?_, fun h hn hle => ?_⟩⟩,
    fun s p hs => exec_starts rfl hs rfl,
    fun s u p x i r hi hr hs hu => ⟨fun h => ?_, fun hn h => ?_, fun hn hf h => ?_, fun hn hf ha =>
      ⟨fun h => ?_, fun k h hk => ?_, fun h hk => ⟨fun t => t.jpegImage p.partition x, ?_, ?_⟩⟩⟩,
    fun s u v p x i off r b out hi hr hs hu hb hv hout => ⟨fun h => ?_, fun hf hw hh =>
      ⟨fun h => ?_, fun k h hk => ?_, fun h hn hlt => ?_, fun h hn hle => ?_⟩⟩⟩
  · exact exec_starts rfl hs (decCreateBody_invalid _ ho h)
  · exact exec_starts rfl hs ((decCreateBody_valid _ ho hd hp).trans (if_pos h))
  · exact exec_starts rfl hs ((decCreateBody_valid _ ho hd hp).trans ((if_neg (Nat.not_lt.2 hfit)).trans (by rw [h]; rfl)))
  · exact exec_starts rfl hs ((decCreateBody_valid _ ho hd hp).trans ((if_neg (Nat.not_lt.2 hfit)).trans (by rw [h]; rfl)))
  · exact exec_starts rfl hs ((decDecodeBody_context _ hd).trans (if_neg (ne_true_of_eq_false hl)))
  · exact exec_starts rfl hs ((decDecodeBody_context _ hd).trans (if_pos hl))
  · subst hr hu
    exact exec_starts rfl hs (encFrameBody_mismatch _ he hb hq h)
  · subst hr hu hi
    exact exec_starts rfl hs ((encFrameBody_match _ he hb hq hf hw hh).trans (State.vidAccess_denied _ h))
  · subst hr hu hi hk
    exact exec_starts rfl hs ((encFrameBody_match _ he hb hq hf hw hh).trans (State.vidAccess_ecc _ h k))
  · subst hr hu hi hn hv hout
    exact exec_starts rfl hs ((encFrameBody_match _ he hb hq hf hw hh).trans
      ((State.vidAccess_read _ h).trans (State.storeCoded_full _ hlt)))
  · subst hr hu hi hn hv hout
    exact exec_starts rfl hs ((encFrameBody_match _ he hb hq hf hw hh).trans
      ((State.vidAccess_read _ h).trans (State.storeCoded_fits _ hle)))
  · subst hr
    exact exec_starts rfl hs (jpegDecBody_unsupported _ h)
  · subst hr
    exact exec_starts rfl hs (jpegDecBody_form _ hn h)
  · subst hr
    exact exec_starts rfl hs (jpegDecBody_limits _ hn hf h)
  · subst hr hu hi
    exact exec_starts rfl hs ((jpegDecBody_admitted _ hn hf ha).trans (State.vidAccess_denied _ (by simpa using h)))
  · subst hr hu hi
    exact exec_starts rfl hs ((jpegDecBody_admitted _ hn hf ha).trans (by rw [hk]; exact State.vidAccess_ecc _ (by simpa using h) k))
  · exact fun t => hi ▸ rfl
  · subst hr hu hi
    exact exec_starts rfl hs ((jpegDecBody_admitted _ hn hf ha).trans (by rw [hk]; exact State.vidAccess_read _ (by simpa using h)))
  · subst hr hu
    exact exec_starts rfl hs (jpegEncBody_refused _ hb h)
  · subst hr hu hi
    exact exec_starts rfl hs ((jpegEncBody_admitted _ hb hf hw hh).trans (State.vidAccess_denied _ h))
  · subst hr hu hi
    exact exec_starts rfl hs ((jpegEncBody_admitted _ hb hf hw hh).trans (by rw [hk]; exact State.vidAccess_ecc _ h k))
  · subst hr hu hi hv hout
    exact exec_starts rfl hs ((jpegEncBody_admitted _ hb hf hw hh).trans
      (by rw [hn]; exact (State.vidAccess_read _ h).trans (State.storeCoded_full _ hlt)))
  · subst hr hu hi hv hout
    exact exec_starts rfl hs ((jpegEncBody_admitted _ hb hf hw hh).trans
      (by rw [hn]; exact (State.vidAccess_read _ h).trans (State.storeCoded_fits _ hle)))

end Sys2Proof.Machine

namespace Sys2Proof.Machine

/-! What every step keeps beside memory: one-time memory and the queue (R450, R451, Laws/Keeps.lean). -/

section
variable {s t : State}

/-- A next state has what the step keeps of the state whose queue it leaves. -/
theorem keeps_of_stepsTo (h : stepsTo s t) : Keeps { s with pending := s.pending.tail } t := keepsOut_next.1 (h ▸ step_keeps s)

/-- A command's next state has what the command keeps. -/
theorem keeps_of_exec {c : Instr} (h : exec c s = .next t) : Keeps s t := keepsOut_next.1 (h ▸ exec_keeps c s (Keeps.refl s))

end

/-- Settles O43: one-time memory is among what every step keeps (`step_keeps`). -/
theorem oneTimeMemoryOnlyGrows : Obligations.OneTimeMemoryOnlyGrows := fun _ _ h => (keeps_of_stepsTo h).otp

/-- Settles O44: the queue is among what every command keeps, and a step leaves its rest. -/
theorem commandsLeaveTheQueue : Obligations.CommandsLeaveTheQueue := by
  refine ⟨fun c s t h => (keeps_of_exec h).pending, fun c l s t hl h => ?_, fun s t hl h => ?_⟩ <;>
    rw [(keeps_of_stepsTo h).pending, hl] <;> rfl

/-- Settles O38. -/
theorem frontCommandRuns : Obligations.FrontCommandRuns := fun s c l hl => by rw [step, hl]

/-- Settles O40: the meaning of each command is a next state. -/
theorem everyCommandAnswers : Obligations.EveryCommandAnswers := by
  intro c s
  cases c <;> exact ⟨_, rfl⟩

end Sys2Proof.Machine

namespace Sys2Proof.Machine

/-- A packet that starts, with the state that its opcode's effect leaves before the completions (R82, R103). -/
theorem exec_retires {c : Instr} {s u : State} {r : Rule} {p : Packet} {body : Nat → State → State}
    (hx : exec c s = .next (runPacket c r p body s)) (h : s.starts r p = true) (hf : body s.cq.nextId (s.entered r p) = u) :
    exec c s = .next (u.retire p.queue p.partition) := by
  rw [hx, runPacket_starts c body h, State.ran, hf]

/-! Register commands behind an index check (R57, R390, R432). -/

section
variable {s t : State} {c : Prop} [Decidable c] {b : Block} {a : Bool}

/-- A write to an element that exists, which the access rule allows, to a block whose clock runs. -/
theorem State.guardedWrite_allowed (hc : ¬c) (ha : a = true) (hg : s.gated b = false) :
    (if c then s.busErr else s.regWrite b a t) = t.accessed :=
  (if_neg hc).trans (State.regWrite_allowed t ha hg)

/-- A write that the access rule refuses is a bus error, whatever it names. -/
theorem State.guardedWrite_refused (ha : a = false) : (if c then s.busErr else s.regWrite b a t) = s.busErr := by
  rw [State.regWrite_refused t (.inl ha), ite_self]

/-- R38, R57: a parameter write of an element that exists, by partition 0, while the parameter's target does not read STOPPED. -/
theorem State.guardedParam_allowed {r : Reg} {i j v init : Nat} (hc : ¬c) (ha : a = true)
    (hb : r.info.block = b) (hg : s.gated b = false) (hs : s.regStopped r i = false) :
    (if c then s.busErr else s.paramWrite a r i j v init t) = t.accessed := by
  subst ha hb
  rw [if_neg hc, State.paramWrite_admitted hg, if_neg (ne_true_of_eq_false hs)]

end

/-! A register reads what was written, and every other as before, in a register file of any form: a read and a write stop at the same
entry of the list. -/

section
variable {α : Type} {d : Nat → α}

theorem sparseGet_dropWhile (k j : Nat) : ∀ m : List (Nat × α),
    sparseGet d (m.dropWhile (fun e => decide (e.1 ≤ k))) j = if j ≤ k then d j else sparseGet d m j
  | [] => by simp [sparseGet]
  | (k', v') :: m => by
    by_cases hk : k' ≤ k
    · rw [List.dropWhile_cons_of_pos (by simpa using hk), sparseGet_dropWhile k j m]
      by_cases hj : j ≤ k
      · rw [if_pos hj, if_pos hj]
      · rw [if_neg hj, if_neg hj, sparseGet, if_neg (by omega), if_neg (by omega)]
    · rw [List.dropWhile_cons_of_neg (by simpa using hk)]
      by_cases hj : j ≤ k
      · rw [if_pos hj, sparseGet, if_pos (by omega)]
      · rw [if_neg hj]

theorem sparseGet_sparseSet [DecidableEq α] (k j : Nat) (v : α) : ∀ m : List (Nat × α),
    sparseGet d (sparseSet d m k v) j = if j = k then v else sparseGet d m j
  | [] => by
    rw [sparseSet]
    by_cases hv : v = d k
    · rw [if_pos hv]
      grind [sparseGet]
    · rw [if_neg hv]
      grind [sparseGet]
  | (k', v') :: m => by
    obtain hlt | rfl | hgt := Nat.lt_trichotomy k k'
    · rw [sparseSet, if_pos hlt]
      by_cases hv : v = d k
      · rw [if_pos hv]
        grind [sparseGet]
      · rw [if_neg hv]
        grind [sparseGet]
    · rw [sparseSet, if_neg (Nat.lt_irrefl k), if_pos rfl]
      by_cases hv : v = d k
      · rw [if_pos hv, sparseGet_dropWhile]
        grind [sparseGet]
      · rw [if_neg hv]
        grind [sparseGet]
    · rw [sparseSet, if_neg (by omega), if_neg (by omega), sparseGet, sparseGet_sparseSet k j v m]
      grind [sparseGet]

end

section
variable {s t : State}

theorem State.word_setReg_ne {q : Reg} {n i j : Nat} (r : Reg) (i' j' : Nat) (hr : r ≠ q) :
    (s.setReg q n i j).word r i' j' = s.word r i' j' :=
  (sparseGet_sparseSet _ _ _ _).trans (if_neg (fun e => hr (Reg.key_inj.1 e).1))

theorem State.word_putFld_ne {f : Fld} {n i j : Nat} (r : Reg) (i' j' : Nat) (hr : r ≠ f.reg) :
    (s.putFld f n i j).word r i' j' = s.word r i' j' :=
  (sparseGet_sparseSet _ _ _ _).trans (if_neg (fun e => hr (Reg.key_inj.1 e).1))

/-- Another field of a register's written element reads as before. -/
theorem State.fld_putFld_beside {f g : Fld} {n : Nat} (i j : Nat) (hr : g.reg = f.reg) (hb : f.hi < g.lo ∨ g.hi < f.lo) :
    (s.putFld f n i j).fld g i j = s.fld g i j := by
  have hw : (s.putFld f n i j).word g.reg i j = f.into (s.word f.reg i j) n := by
    rw [hr]
    exact (sparseGet_sparseSet _ _ _ _).trans (if_pos rfl)
  rw [State.fld, hw, Fld.of_into_other _ _ _ _ hb, ← hr]
  rfl

/-- An event leaves every register but LOG_DROP and LOG_STATUS. -/
theorem State.word_event_ne {c k x p : Nat} (r : Reg) (i j : Nat) (h1 : r ≠ .LOG_DROP) (h2 : r ≠ .LOG_STATUS) :
    (s.event c k x p).word r i j = s.word r i j := by
  unfold State.event State.emit
  split
  · rfl
  · exact (State.word_putFld_ne r i j h2).trans (State.word_setReg_ne r i j h1)

end

end Sys2Proof.Machine

namespace Sys2Proof.Machine

/-! Sampling instants and loop ticks of an axis (R366, R369, R372, R373, R377 to R380, R387). -/

section
variable {s t : State} {a : Nat}

/-- R369, R387: what a sampling instant shows after its work: MOT_POS and the trace samples. -/
def State.showSample (s : State) (a : Nat) : State :=
  [0, 1, 2, 3].foldl (fun v k => v.traceSample a k) (s.setReg .MOT_POS (ofSigned 64 (s.ax a).pos) a)

theorem State.samples_iff : s.samples a = true ↔
    s.axState a = stReady ∨ s.axState a = stRunning ∨ s.axState a = stDraining ∨ s.axState a = stStopped ∨ s.axState a = stFault := by
  simp only [State.samples, usableCode, Bool.or_eq_true, beq_iff_eq, or_assoc]

section
variable (h : 16 ≤ a ∨ s.flag F.MOT_AXCFG_EN a = false)
include h

theorem execCurrentLoopTick_disabled (x : MotSample) : execCurrentLoopTick a x s = .next s := congrArg Host.Outcome.next (if_pos h)

theorem execVelocityLoopTick_disabled : execVelocityLoopTick a s = .next s := congrArg Host.Outcome.next (if_pos h)

theorem execPositionLoopTick_disabled : execPositionLoopTick a s = .next s := congrArg Host.Outcome.next (if_pos (h.imp_right .inl))

end

section
variable (ha : a < 16) (he : s.flag F.MOT_AXCFG_EN a = true)
include ha he

theorem State.axis_enabled : ¬(16 ≤ a ∨ s.flag F.MOT_AXCFG_EN a = false) := not_or.2 ⟨Nat.not_le.2 ha, ne_false_of_eq_true he⟩

theorem execCurrentLoopTick_enabled {x : MotSample} (ht : t = if s.samples a then s.sampleAxis a x else s) :
    execCurrentLoopTick a x s = .next ((if usableCode (t.axState a) || t.axState a == stDraining then t.workAxis a
      else if t.samples a then t.watchAxis a else t).showSample a) := by
  subst ht
  exact congrArg Host.Outcome.next (if_neg (State.axis_enabled ha he))

theorem execVelocityLoopTick_current (hc : (s.measureVel a).cascade = false) : execVelocityLoopTick a s = .next (s.measureVel a) :=
  congrArg Host.Outcome.next ((if_neg (State.axis_enabled ha he)).trans (if_pos hc))

theorem execVelocityLoopTick_cascade (hc : (s.measureVel a).cascade = true) (ht : t = (s.measureVel a).applyDue a [1, 4]) :
    execVelocityLoopTick a s = .next (if t.axState a ≠ stRunning ∧ t.axState a ≠ stDraining then t
      else if t.directMode a then t.setAx a { (t.ax a).restartRamp with xv := 0, feOver := false } else t.velocityLoop a) := by
  subst ht
  exact congrArg Host.Outcome.next ((if_neg (State.axis_enabled ha he)).trans (if_neg (ne_false_of_eq_true hc)))

theorem execPositionLoopTick_cascade (hc : s.cascade = true) (ht : t = s.applyDue a [0]) :
    execPositionLoopTick a s = .next (if t.axState a ≠ stRunning ∧ t.axState a ≠ stDraining then t
      else if t.directMode a then ((t.setAx a (t.ax a).restartRamp).putFld F.MOT_AXSTATE_COMMAND_LAG 0 a).showRamp a
      else ((t.runRamp a).positionLoop a).showRamp a) := by
  subst ht
  exact congrArg Host.Outcome.next (if_neg (by simp [ha, he, hc]))

end

theorem execPositionLoopTick_current (hc : s.cascade = false) : execPositionLoopTick a s = .next s :=
  congrArg Host.Outcome.next (if_pos (.inr (.inr hc)))

/-- A RUNNING or DRAINING axis is not one that a loop leaves alone. -/
theorem State.axis_moves (h : t.axState a = stRunning ∨ t.axState a = stDraining) :
    ¬(t.axState a ≠ stRunning ∧ t.axState a ≠ stDraining) := by
  rwa [← not_or, not_not]

/-! Trips (R367, R370, R379, R382, R383, R385). -/

theorem execOvercurrent_below {input : Nat} {bits : List Bool} (h : 16 ≤ a ∨ s.fastCrosses a bits = false) :
    execOvercurrent a input bits s = .next s := congrArg Host.Outcome.next (if_pos h)

theorem execOvercurrent_crosses {bits : List Bool} (input : Nat) (ha : a < 16) (h : s.fastCrosses a bits = true) :
    execOvercurrent a input bits s = .next (((((s.safePattern a 3).setUnit fnMot a stFault).sumBit F.MOT_FAULTSUM_FAULT a true).setReg
      .MOT_AXFAULT (2 ^ 31 + 65536 + input % 4) a).motEvent a 0x0004) :=
  congrArg Host.Outcome.next (if_neg (not_or.2 ⟨Nat.not_le.2 ha, ne_false_of_eq_true h⟩))

section
variable {n : Nat} {f : EncFault}

theorem execEncoderFault_shown (hn : n < 16) (h : (s.enc n).faults.contains f = true) :
    execEncoderFault n f s = .next ((List.range 16).foldl (fun t a => if t.axisOnEncoder n a then t.encoderFault a else t) (s.clearEnc n f)) :=
  congrArg Host.Outcome.next (if_neg (not_or.2 ⟨Nat.not_le.2 hn, ne_false_of_eq_true h⟩))

theorem execEncoderFault_unseen (h : (s.enc n).faults.contains f = false) : execEncoderFault n f s = .next s :=
  congrArg Host.Outcome.next (if_pos (.inr h))

end

theorem execAscHoldEnd_ends (ha : a < 16) (hs : s.fld F.MOT_AXSTATE_SAFE a = 2) (h : s.ascHolds a = false) :
    execAscHoldEnd a s = .next (s.safePattern a 1) := congrArg Host.Outcome.next (if_pos ⟨ha, hs, h⟩)

theorem execAscHoldEnd_kept (h : s.fld F.MOT_AXSTATE_SAFE a ≠ 2 ∨ s.ascHolds a = true) : execAscHoldEnd a s = .next s :=
  congrArg Host.Outcome.next (if_neg (fun ⟨_, hs, hf⟩ => h.elim (· hs) (ne_true_of_eq_false hf)))

end

/-- Settles O29: a sampling instant by what the axis's state lets it do, a loop's tick by its mode, a trip by its cause. -/
theorem motionLoops : Obligations.MotionLoops := by
  refine ⟨fun s t a x ha he ht => ⟨fun u => u.showSample a, fun u => rfl, fun hw => ?_, fun hw => ⟨fun hs => ?_, fun hs => ?_⟩⟩,
    fun s a => State.samples_iff,
    fun s a x h => ⟨execCurrentLoopTick_disabled h x, execVelocityLoopTick_disabled h, execPositionLoopTick_disabled h⟩,
    fun s a ha he => ⟨execVelocityLoopTick_current ha he, fun t hc ht => ⟨fun hr hd => ?_, fun hm => ⟨fun hd => ?_, fun hd => ?_⟩⟩,
      execPositionLoopTick_current, fun t hc ht => ⟨fun hr hd => ?_, fun hm => ⟨fun hd => ?_, fun hd => ?_⟩⟩⟩,
    fun s a input bits h => execOvercurrent_below h, fun s a input bits ha h => execOvercurrent_crosses input ha h,
    fun s n f hn => ⟨execEncoderFault_shown hn, execEncoderFault_unseen⟩,
    fun s a ha => ⟨fun h => congrArg Host.Outcome.next (if_pos ⟨ha, h⟩), fun h => congrArg Host.Outcome.next (if_pos ⟨ha, h⟩),
      fun ho hd hm hf => congrArg Host.Outcome.next (if_pos ⟨ha, ho, hd, hm, hf⟩), execAscHoldEnd_ends ha, execAscHoldEnd_kept⟩⟩
  · exact (execCurrentLoopTick_enabled ha he ht).trans (by rw [if_pos hw])
  · exact (execCurrentLoopTick_enabled ha he ht).trans (by rw [if_neg (ne_true_of_eq_false hw), if_pos hs])
  · exact (execCurrentLoopTick_enabled ha he ht).trans (by rw [if_neg (ne_true_of_eq_false hw), if_neg (ne_true_of_eq_false hs)])
  · exact (execVelocityLoopTick_cascade ha he hc ht).trans (by rw [if_pos ⟨hr, hd⟩])
  · exact (execVelocityLoopTick_cascade ha he hc ht).trans (by rw [if_neg (State.axis_moves hm), if_pos hd])
  · exact (execVelocityLoopTick_cascade ha he hc ht).trans (by rw [if_neg (State.axis_moves hm), if_neg (ne_true_of_eq_false hd)])
  · exact (execPositionLoopTick_cascade ha he hc ht).trans (by rw [if_pos ⟨hr, hd⟩])
  · exact (execPositionLoopTick_cascade ha he hc ht).trans (by rw [if_neg (State.axis_moves hm), if_pos hd])
  · exact (execPositionLoopTick_cascade ha he hc ht).trans (by rw [if_neg (State.axis_moves hm), if_neg (ne_true_of_eq_false hd)])

end Sys2Proof.Machine

namespace Sys2Proof.Machine

/-! Set-points, angles and trace buffers (R375, R383, R386, R388 to R390). -/

section
variable {s : State} {a : Nat} {w : RegWrite}

theorem execSpwPush_owned {e : SetPoint}
    (he : e = { time := s.reg .SPW_TIME a, typ := w.value % 8, v0 := s.reg .SPW_VAL0 a, v1 := s.reg .SPW_VAL1 a }) (ha : a < 16) (hi : s.ofPart w.initiator (s.axPart a) = true) (hg : s.gated .MOT = false) :
    execSpwPush a w s = .next ((s.pushEntry a e).putFld F.SPW_STAT_RESULT (s.pushResult a e) a).accessed := by
  subst he
  exact congrArg Host.Outcome.next (State.guardedWrite_allowed (Nat.not_le.2 ha) hi hg)

section
variable (hi : s.p0 w.initiator = true) (hg : s.gated .MOT = false)
include hi hg

theorem execReturnAngle_allowed (ha : a < 16) : execReturnAngle a w s = .next (if s.fld F.MOT_AXSTATE_OBS a = 2
    then s.putFld F.MOT_AXSTATE_ANGLE (s.fld F.MOT_AXCFG_ANGLE_SRC a) a else s).accessed :=
  congrArg Host.Outcome.next (State.guardedWrite_allowed (Nat.not_le.2 ha) hi hg)

theorem execArm_allowed (ha : a < 4) : execArm a w s = .next (if s.fld F.MOT_TRSTAT_STATE a = 0 ∨ s.fld F.MOT_TRSTAT_STATE a = 3
    then (s.setReg .MOT_TRSTAT (2 ^ 29) a).setTrace a {} else s).accessed :=
  congrArg Host.Outcome.next (State.guardedWrite_allowed (Nat.not_le.2 ha) hi hg)

end
end

/-- Settles O30: the packets' effects are the statement's own; a register command by its initiator and by what the axis or buffer shows. -/
theorem motionQueues : Obligations.MotionQueues := by
  refine ⟨fun s p hs => exec_starts rfl hs rfl, fun s p hs => exec_starts rfl hs rfl, fun s p hs => exec_starts rfl hs rfl,
    fun s a w ha hi hg => ⟨_, rfl, execSpwPush_owned rfl ha hi hg⟩,
    fun s a w ha hi hg => ⟨congrArg Host.Outcome.next (State.guardedWrite_allowed (Nat.not_le.2 ha) hi hg), fun ho => ?_, fun ho => ?_⟩,
    fun s k w hk hi hg => ⟨fun h => ?_, fun h0 h3 => ?_,
      congrArg Host.Outcome.next (State.guardedWrite_allowed (Nat.not_le.2 hk) hi hg),
      congrArg Host.Outcome.next (State.guardedWrite_allowed (Nat.not_le.2 hk) hi hg)⟩,
    fun s a w hi ha => ⟨congrArg Host.Outcome.next (State.guardedWrite_refused hi), congrArg Host.Outcome.next (State.guardedWrite_refused hi),
      congrArg Host.Outcome.next (State.guardedWrite_refused hi), congrArg Host.Outcome.next (State.guardedWrite_refused hi),
      congrArg Host.Outcome.next (State.guardedWrite_refused hi)⟩,
    fun s a w hi => congrArg Host.Outcome.next (State.guardedWrite_refused hi)⟩
  · exact (execReturnAngle_allowed hi hg ha).trans (by rw [if_pos ho])
  · exact (execReturnAngle_allowed hi hg ha).trans (by rw [if_neg ho])
  · exact (execArm_allowed hi hg hk).trans (by rw [if_pos h])
  · exact (execArm_allowed hi hg hk).trans (by rw [if_neg (not_or.2 ⟨h0, h3⟩)])

end Sys2Proof.Machine

namespace Sys2Proof.Machine

/-! Window watchdogs (R438 to R442, Table SAFE-1). -/

section
variable {s u : State} {k : Nat}

/-! Writes of SAFE_WDKICK (R438, R440). -/

theorem State.wdWrite_owned {w : RegWrite} {t : State} (hk : k < 64) (hi : s.ofPart w.initiator (s.fld F.SAFE_WDCFG_PARTITION k) = true)
    (hg : s.gated .SAFE = false) (ht : t = if w.value.testBit 0 then s.wdKickEvent k else s) :
    s.wdWrite k w = (if w.value.testBit 1 then (t.kickFirst k).wdStartEvent k else t).accessed := by
  subst ht
  unfold State.wdWrite
  rw [State.regWrite_allowed _ (by simp [hk, hi]) hg]
  cases w.value.testBit 1 <;> rfl

theorem State.kickFirst_owed (h : s.due.contains (.wdKick k .counter) = true) :
    s.kickFirst k = (s.undue (.wdKick k .counter)).wdKickEvent k := if_pos h

theorem State.kickFirst_none (h : s.due.contains (.wdKick k .counter) = false) : s.kickFirst k = s := if_neg (ne_true_of_eq_false h)

theorem execWdStart_owed (h : s.due.contains (.wdStart k .counter) = true) :
    execWdStart k .counter s = .next (((s.undue (.wdStart k .counter)).kickFirst k).wdStartEvent k) := congrArg Host.Outcome.next (if_pos h)

theorem execWdKick_owed (h : s.due.contains (.wdKick k .counter) = true) :
    execWdKick k .counter s = .next ((s.undue (.wdKick k .counter)).wdKickEvent k) := congrArg Host.Outcome.next (if_pos h)

/-! A kick and the end of time in a window (R439). -/

section
variable (hl : s.wdLive k = true) (ho : (s.wdOpened k).isSome = true)
include hl ho

theorem State.wdKickEvent_open : s.wdKickEvent k = if s.wdTime k < s.fld F.SAFE_WDWIN_OPEN_US k then s.wdMiss k 1
    else if s.wdTime k ≤ s.fld F.SAFE_WDWIN_CLOSE_US k then (s.wdClose k).putFld F.SAFE_WDSTAT_RUN 0 k else s.wdMiss k 2 :=
  (if_neg (ne_false_of_eq_true hl)).trans (if_neg (by simpa using Option.isSome_iff_ne_none.1 ho))

theorem State.wdKickEvent_early (h : s.wdTime k < s.fld F.SAFE_WDWIN_OPEN_US k) : s.wdKickEvent k = s.wdMiss k 1 :=
  (State.wdKickEvent_open hl ho).trans (if_pos h)

theorem State.wdKickEvent_inTime (h : s.fld F.SAFE_WDWIN_OPEN_US k ≤ s.wdTime k) (hc : s.wdTime k ≤ s.fld F.SAFE_WDWIN_CLOSE_US k) :
    s.wdKickEvent k = (s.wdClose k).putFld F.SAFE_WDSTAT_RUN 0 k :=
  (State.wdKickEvent_open hl ho).trans ((if_neg (Nat.not_lt.2 h)).trans (if_pos hc))

theorem execWdLate_past (hk : k < 64) (h : s.fld F.SAFE_WDWIN_CLOSE_US k < s.wdTime k) : execWdLate k s = .next (s.wdMiss k 2) :=
  congrArg Host.Outcome.next (if_pos (by simp [State.wdExpired, hk, hl, ho, h]))

end

theorem execWdLate_within (h : s.wdTime k ≤ s.fld F.SAFE_WDWIN_CLOSE_US k) : execWdLate k s = .next s :=
  congrArg Host.Outcome.next (if_neg (by simp [State.wdExpired, h]))

/-! The end of a window (R439, R441). -/

section
variable (h : s.regsWf)
include h

theorem State.wdClose_regsWf : (s.wdClose k).regsWf := State.putFld_regsWf (f := F.SAFE_WDSTAT_T_US) (State.putFld_regsWf h)

/-- The end of a window writes SAFE_WDSTAT alone. -/
theorem State.word_wdClose {r : Reg} {i j : Nat} (hr : r ≠ .SAFE_WDSTAT) : (s.wdClose k).word r i j = s.word r i j :=
  (State.word_putFld_other (f := F.SAFE_WDSTAT_T_US) r (State.putFld_regsWf h) hr).trans (State.word_putFld_other r h hr)

theorem State.wdClose_run : (s.wdClose k).fld F.SAFE_WDSTAT_RUN k = s.fld F.SAFE_WDSTAT_RUN k :=
  (State.fld_putFld_other F.SAFE_WDSTAT_T_US _ _ _ _ _ _ (State.putFld_regsWf h) (.inr (by decide))).trans
    (State.fld_putFld_other F.SAFE_WDSTAT_STATE _ _ _ _ _ _ h (.inr (by decide)))

theorem State.wdClose_state : (s.wdClose k).fld F.SAFE_WDSTAT_STATE k = 0 :=
  (State.fld_putFld_other F.SAFE_WDSTAT_T_US _ _ _ _ _ _ (State.putFld_regsWf h) (.inr (by decide))).trans
    (State.fld_putFld_same F.SAFE_WDSTAT_STATE 0 _ _ h (by decide) (by decide))

end

theorem State.wdClose_opened : (s.wdClose k).wdOpened k = none :=
  Option.map_eq_none_iff.2 (List.find?_eq_none.2 (fun e he => by simpa using (List.mem_filter.1 he).2))

/-! The record of a miss (R441) and its reaction (R442). -/

theorem State.escN_lt : s.fld F.SAFE_WDCFG_ESC_N k < 16 := bitsOf_lt _ 17 14

section
variable {kind time : Nat} (h : s.regsWf)
include h

/-- A miss is recorded in SAFE_WDSUM, SAFE_WDSTAT and the event log. -/
theorem State.word_wdRecord {r : Reg} {i j : Nat} (h1 : r ≠ .SAFE_WDSTAT) (h2 : r ≠ .SAFE_WDSUM) (h3 : r ≠ .LOG_DROP) (h4 : r ≠ .LOG_STATUS) :
    (s.wdRecord k kind time).word r i j = s.word r i j := by
  have he := State.emit_regsWf (c := 0x0D) (d := 1) (x := k) (y := 2 ^ 32 * kind + satNat 32 time) (p := s.fld F.SAFE_WDCFG_PARTITION k) h
  unfold State.wdRecord State.addFld
  rw [State.word_putFld_other r (State.putFld_regsWf (State.setReg_regsWf he)) h1,
    State.word_putFld_other r (State.setReg_regsWf he) h1, State.word_setReg_other r he h2, State.word_emit r i j h h3 h4]

/-- R441: a miss raises the run of misses, held at 15. -/
theorem State.wdRecord_run : (s.wdRecord k kind time).fld F.SAFE_WDSTAT_RUN k = min (s.fld F.SAFE_WDSTAT_RUN k + 1) 15 := by
  have he := State.emit_regsWf (c := 0x0D) (d := 1) (x := k) (y := 2 ^ 32 * kind + satNat 32 time) (p := s.fld F.SAFE_WDCFG_PARTITION k) h
  unfold State.wdRecord State.addFld
  rw [State.fld_putFld_same _ _ _ _ (State.putFld_regsWf (State.setReg_regsWf he)) (by decide) (by decide),
    State.fld_putFld_other F.SAFE_WDSTAT_LAST _ _ _ _ _ _ (State.setReg_regsWf he) (.inr (by decide)),
    State.fld_setReg_other _ _ _ _ _ _ _ he (by simp), State.fld_congr (State.word_emit _ _ _ h (by decide) (by decide))]
  exact Nat.mod_eq_of_lt (Nat.lt_of_le_of_lt (Nat.min_le_right _ _) (by decide))

/-- R442: the reaction to a miss, by the run of misses before it. -/
theorem State.wdMiss_eq (hu : u = (s.wdClose k).wdRecord k kind (s.wdTime k)) : s.wdMiss k kind = u.wdApply k
    (if s.fld F.SAFE_WDCFG_ESC_N k ≠ 0 ∧ s.fld F.SAFE_WDCFG_ESC_N k ≤ min (s.fld F.SAFE_WDSTAT_RUN k + 1) 15 then 4
     else s.fld F.SAFE_WDCFG_REACT k) := by
  have hw : ∀ i j, u.word .SAFE_WDCFG i j = s.word .SAFE_WDCFG i j := fun i j => by
    rw [hu, State.word_wdRecord (State.wdClose_regsWf h) (by decide) (by decide) (by decide) (by decide), State.word_wdClose h (by decide)]
  have hn : u.fld F.SAFE_WDCFG_ESC_N k = s.fld F.SAFE_WDCFG_ESC_N k := State.fld_congr (hw _ _)
  have hr : u.fld F.SAFE_WDCFG_REACT k = s.fld F.SAFE_WDCFG_REACT k := State.fld_congr (hw _ _)
  have hrun : u.fld F.SAFE_WDSTAT_RUN k = min (s.fld F.SAFE_WDSTAT_RUN k + 1) 15 := by
    rw [hu, State.wdRecord_run (State.wdClose_regsWf h), State.wdClose_run h]
  rw [← hn, ← hr, ← hrun, hu]
  rfl

section
variable (hu : u = (s.wdClose k).wdRecord k kind (s.wdTime k))
include hu

/-- R442: the ESC_N-th miss in a row enters device SAFE. -/
theorem State.wdMiss_escalates (h1 : 1 ≤ s.fld F.SAFE_WDCFG_ESC_N k)
    (hn : s.fld F.SAFE_WDCFG_ESC_N k = s.fld F.SAFE_WDSTAT_RUN k + 1) : s.wdMiss k kind = u.enterSafe 1 := by
  have hb := State.escN_lt (s := s) (k := k)
  rw [State.wdMiss_eq h hu, if_pos (by omega)]
  rfl

/-- R442: an earlier miss, and every miss where ESC_N is 0, has REACT's reaction. -/
theorem State.wdMiss_reacts (hn : s.fld F.SAFE_WDCFG_ESC_N k = 0 ∨ s.fld F.SAFE_WDSTAT_RUN k + 1 < s.fld F.SAFE_WDCFG_ESC_N k) :
    s.wdMiss k kind = u.wdApply k (s.fld F.SAFE_WDCFG_REACT k) := by
  rw [State.wdMiss_eq h hu, if_neg (by omega)]

end
end
end

/-- Settles O48: a miss by the run of misses before it (`State.wdMiss_eq`), a kick in time by the fields that it writes. -/
theorem watchdogEscalation : Obligations.WatchdogEscalation := by
  intro s u k n run w h hk hl ho hn hrun hi hg h0 h1
  subst hn hrun
  have hx : exec (.wdKick k (.register w)) s = .next (s.wdKickEvent k).accessed := congrArg Host.Outcome.next
    ((State.wdWrite_owned hk hi hg rfl).trans (by rw [if_pos h0, if_neg (ne_true_of_eq_false h1)]))
  refine ⟨fun hu hc => ?_, fun hu hc => ?_, fun hc hb => ?_⟩
  · have hm : exec (.wdLate k) s = .next (s.wdMiss k 2) := execWdLate_past hl ho hk hc
    exact ⟨fun hp he => hm.trans (by rw [State.wdMiss_escalates h hu hp he]),
      fun he => hm.trans (by rw [State.wdMiss_reacts h hu (.inr he)]), fun he => hm.trans (by rw [State.wdMiss_reacts h hu (.inl he)])⟩
  · rw [hx, State.wdKickEvent_early hl ho hc]
    exact ⟨fun hp he => by rw [State.wdMiss_escalates h hu hp he], fun he => by rw [State.wdMiss_reacts h hu (.inr he)],
      fun he => by rw [State.wdMiss_reacts h hu (.inl he)]⟩
  · refine ⟨_, hx.trans (by rw [State.wdKickEvent_inTime hl ho hc hb]), rfl, ?_, ?_, State.wdClose_opened, rfl⟩
    · exact State.fld_putFld_same F.SAFE_WDSTAT_RUN 0 _ _ (State.wdClose_regsWf h) (by decide) (by decide)
    · exact (State.fld_putFld_other F.SAFE_WDSTAT_RUN F.SAFE_WDSTAT_STATE _ _ _ _ _ (State.wdClose_regsWf h) (.inr (by decide))).trans
        (State.wdClose_state h)

/-- Settles O49: a write's kick and a counter's kick are done first; CLOSE_US is within the window. -/
theorem watchdogWriteOrder : Obligations.WatchdogWriteOrder := by
  refine ⟨fun s k w hk hi hg h0 h1 => ?_, fun s k hs hkick => ?_, fun s k hd hl ho hoc ht => ?_⟩
  · have hw : s.wdWrite k w = (((s.wdKickEvent k).kickFirst k).wdStartEvent k).accessed :=
      (State.wdWrite_owned hk hi hg rfl).trans (by rw [if_pos h0, if_pos h1])
    exact ⟨congrArg Host.Outcome.next hw, congrArg Host.Outcome.next hw⟩
  · exact (execWdStart_owed hs).trans (by rw [State.kickFirst_owed hkick])
  · have hx := State.wdKickEvent_inTime (s := s.undue (.wdKick k .counter)) hl ho (hoc.trans ht.ge) ht.le
    exact (execWdKick_owed hd).trans (by rw [hx])

end Sys2Proof.Machine

namespace Sys2Proof.Machine

/-! The safety island: lockstep pairs, the Tourbillon and device SAFE (R435, R436, R444 to R448). -/

section
variable {s : State}

section
variable {pair cause : Nat}

theorem State.haltPair_running (hp : pair < 2) (hr : s.pairsRun = true) (hf : s.flag (pairFld pair) = true) :
    s.haltPair pair cause = (s.putFld (pairFld pair) 0).enterSafe cause := if_pos ⟨hp, hr, hf⟩

theorem State.haltPair_halted (h : 2 ≤ pair ∨ s.pairsRun = false ∨ s.flag (pairFld pair) = false) : s.haltPair pair cause = s := by
  refine if_neg fun ⟨hp, hr, hf⟩ => ?_
  obtain h | h | h := h
  · omega
  · exact ne_false_of_eq_true hr h
  · exact ne_false_of_eq_true hf h

end

/-! The Tourbillon (R444 to R446). -/

section
variable (hu : s.fnUsable fnSafe = true) (hp : s.flag F.SAFE_STATUS_PAIR1_OK = true)
include hu hp

theorem execTourbillonSlot_tests {x : TbSlot} {t u : State} (hm : s.tbMay x.checker = true) (ht : t = s.putFld F.SAFE_TBSTAT_CHECKER x.checker)
    (hv : u = { t with safe := { t.safe with repeatNext := if x.realFault then some x.checker else none } }) : execTourbillonSlot x s =
      .next (if x.realFault then u else (if x.passed then u else u.tbFail x.checker).tbTested x.checker) := by
  subst ht hv
  exact congrArg Host.Outcome.next (if_pos ⟨hm, hu, hp⟩)

theorem execSafeTbLate_first {t : State} (hl : s.safe.late = false)
    (ht : t = ({ s with safe := { s.safe with late := true, overruns := s.safe.overruns + 1 } } : State).anyEvent 0x0D 4) :
    execSafeTbLate s = .next (if 1 ≤ s.safe.overruns then t.enterSafe 4 else t) := by
  subst ht
  exact congrArg Host.Outcome.next (if_pos ⟨hu, hp, hl⟩)

end

theorem State.tbMay_iff {c : Nat} : s.tbMay c = true ↔ c < 408 ∧ s.tbFailed c = false ∧ (s.reg .CLK_GATE).testBit (checkerFn c) = true ∧
    ∀ d, s.safe.repeatNext = some d → d = c ∨ s.tbTests d = false := by
  have ht : s.tbTests c = true ↔ s.tbFailed c = false ∧ (s.reg .CLK_GATE).testBit (checkerFn c) = true := by
    simp only [State.tbTests, Bool.and_eq_true, Bool.not_eq_true']
  unfold State.tbMay
  rw [Bool.and_eq_true, Bool.and_eq_true, decide_eq_true_iff, ht, Option.all_eq_true, and_assoc, and_assoc]
  simp only [Bool.or_eq_true, beq_iff_eq, Bool.not_eq_true']

theorem State.tbCovered_iff : s.tbCovered = true ↔ ∀ d < 408, d ∈ s.safe.tested ∨ s.tbTests d = false := by
  simp [State.tbCovered]

end

/-- Settles O31: a pair by whether it runs, a watchdog by its window, a slot and a rotation by what they tested. -/
theorem safetyIslandCommands : Obligations.SafetyIslandCommands := by
  refine ⟨fun s pair hp hr hf => ⟨congrArg Host.Outcome.next (State.haltPair_running hp hr hf),
      congrArg Host.Outcome.next (State.haltPair_running hp hr hf)⟩,
    fun s pair h => ⟨congrArg Host.Outcome.next (State.haltPair_halted h), congrArg Host.Outcome.next (State.haltPair_halted h)⟩,
    fun s k => ⟨execWdStart_owed, execWdKick_owed⟩,
    fun s k w hk hi hg => ⟨_, rfl, congrArg Host.Outcome.next (State.wdWrite_owned hk hi hg rfl),
      congrArg Host.Outcome.next (State.wdWrite_owned hk hi hg rfl)⟩,
    fun s k => ⟨State.kickFirst_owed, State.kickFirst_none⟩,
    fun s k hk hl ho => ⟨execWdLate_past hl ho hk, execWdLate_within⟩,
    fun s x hu hp hm => ⟨_, _, rfl, rfl, fun hr => ?_, fun hr ha => ?_, fun hr ha => ?_⟩,
    fun s c => State.tbMay_iff, fun s t c ht => ⟨fun h => ?_, fun d hd hn ht' => ?_⟩,
    fun s hu hp hl => ⟨_, rfl, fun h => ?_, fun h => ?_⟩, fun s p hs => exec_starts rfl hs rfl⟩
  · exact (execTourbillonSlot_tests hu hp hm rfl rfl).trans (by rw [if_pos hr])
  · exact (execTourbillonSlot_tests hu hp hm rfl rfl).trans (by rw [if_neg (ne_true_of_eq_false hr), if_pos ha])
  · exact (execTourbillonSlot_tests hu hp hm rfl rfl).trans (by rw [if_neg (ne_true_of_eq_false hr), if_neg (ne_true_of_eq_false ha)])
  · subst ht
    exact if_pos (State.tbCovered_iff.2 h)
  · subst ht
    exact if_neg (fun hc => (State.tbCovered_iff.1 hc d hd).elim hn (ne_false_of_eq_true ht'))
  · exact (execSafeTbLate_first hu hp hl rfl).trans (by rw [if_neg (by omega)])
  · exact (execSafeTbLate_first hu hp hl rfl).trans (by rw [if_pos h])

end Sys2Proof.Machine

namespace Sys2Proof.Machine

/-! Messages of the Chronometer's domains (R398 to R403). -/

section
variable {s : State} {x : PtpMsg} {d : Nat}

theorem State.tracks_lt (h : s.tracks d = true) : d < 2 := by
  simp only [State.tracks, Bool.and_eq_true, decide_eq_true_iff] at h
  exact h.1.1.1

theorem State.mem_domainsOf : d ∈ s.domainsOf x ↔ s.tracks d = true ∧ s.fld F.CHR_DOMCFG_PORT d = x.port ∧
    s.fld F.CHR_DOMCFG_DOMAIN d = x.domain ∧ -7 ≤ x.interval ∧ x.interval ≤ 3 := by
  unfold State.domainsOf
  simp only [List.mem_filter, Bool.and_eq_true, beq_iff_eq, decide_eq_true_iff, and_assoc]
  refine and_iff_right_of_imp fun h => ?_
  have hd := State.tracks_lt h.1
  simp only [List.mem_cons, List.not_mem_nil, or_false]
  omega

section
variable {offset ratio : Int}

theorem State.takeSync_followed (hf : s.followed = some d) :
    State.takeSync x offset ratio s d = if s.onRcosc then s.noteSync d x offset ratio else (s.noteSync d x offset ratio).correct d :=
  if_pos hf

theorem State.takeSync_other (hf : s.followed ≠ some d) : State.takeSync x offset ratio s d =
    if s.chr.pendingDom = some d then (s.noteSync d x offset ratio).showPending d
    else (s.noteSync d x offset ratio).seekAfter (s.qualified d) d := if_neg hf

variable (hd : s.domainsOf x = [d])
include hd

/-- A message of one domain alone. -/
theorem execPtpSync_single : execPtpSync x offset ratio s = .next (State.takeSync x offset ratio s d) := by
  rw [execPtpSync, hd]
  rfl

theorem execPtpAnnounce_single {rank : List Nat} : execPtpAnnounce x rank s = .next (State.takeAnnounce rank s d) := by
  rw [execPtpAnnounce, hd]
  rfl

end

/-- R399: what an Announce shows of its domain, with the domain judged. -/
def State.noteAnnounce (s : State) (d : Nat) (rank : List Nat) : State :=
  let t := (s.putFld F.CHR_DOMSTAT_MISSED 0 d).putFld F.CHR_DOMSTAT_CLOCK_CLASS (rank.getD 1 0) d
  (t.setDom d { t.chr.dom d with announced := true, rank := rank }).judgeDomain d

theorem State.takeAnnounce_eq (rank : List Nat) : State.takeAnnounce rank s d =
    (if d = 0 then (s.noteAnnounce d rank).judgeRank else s.noteAnnounce d rank).seekAfter (s.qualified d) d := rfl

/-! Timers (R398 to R400). -/

theorem execPtpPdelay_usable {port delay : Nat} {l : List (Nat × Nat)} (hu : s.fnUsable fnChr = true)
    (hl : l = s.chr.delays.filter (fun (e : Nat × Nat) => e.1 != port) ++ [(port, delay)]) :
    execPtpPdelay port delay s = .next { s with chr := { s.chr with delays := l } } := by
  subst hl
  exact congrArg Host.Outcome.next (if_pos hu)

theorem execAnnounceTimeout_ignored (m : Nat) (h : 2 ≤ d ∨ s.fnUsable fnChr = false) : execAnnounceTimeout d m s = .next s :=
  congrArg Host.Outcome.next (if_pos h)

theorem execAnnounceTimeout_tracked (m : Nat) (hd : d < 2) (hu : s.fnUsable fnChr = true) : execAnnounceTimeout d m s =
    .next (if 3 ≤ m then (s.putFld F.CHR_DOMSTAT_MISSED (min 3 m) d).loseDomain d else s.putFld F.CHR_DOMSTAT_MISSED (min 3 m) d) :=
  congrArg Host.Outcome.next (if_neg (not_or.2 ⟨Nat.not_le.2 hd, ne_false_of_eq_true hu⟩))

theorem execRevertTimer_reverts (hr : s.flag F.CHR_CFG_REVERT = true) (hf : s.followed = some 1) (hq : s.qualified 0 = true)
    (hb : ranksBelow s.chr.a.rank s.chr.b.rank = false) : execRevertTimer s = .next (s.follow 0) :=
  congrArg Host.Outcome.next (if_pos (by simp [hr, hf, hq, hb]))

end

/-! CHR_STEP (R405). -/

section
variable {s : State} {p : Packet} (id : Nat) {j : Int}

section
variable (hm : pNum p 0 1 = 0)
include hm

theorem chrStepBody_nothingPending (hd : s.chr.pendingDom = none) : chrStepBody p id s = s.finish id csState 0 := by
  rw [chrStepBody, hm, hd]
  rfl

theorem chrStepBody_pending {d : Nat} {u v : State} (hd : s.chr.pendingDom = some d) (hj : j = signedOf 64 (s.reg .CHR_PENDING))
    (hu : u = (s.stepCount j).dropPending) (hv : v = u.setDom d { u.chr.dom d with beyond := 0 }) :
    chrStepBody p id s = (if s.onRcosc then v else v.putFld F.CHR_STATUS_STATE (1 + d)).finish id csDone (ofSigned 64 j) := by
  subst hj hu hv
  rw [chrStepBody, hm, hd]
  rfl

end

theorem chrStepBody_step (hm : pNum p 0 1 = 1) (hj : j = signedOf 64 (pNum p 8 8)) : chrStepBody p id s =
    if s.needsForce p j then s.finish id csTimeJump 0 else (s.stepCount j).finish id csDone (ofSigned 64 j) := by
  subst hj
  rw [chrStepBody, hm]
  rfl

theorem chrStepBody_set (hm : pNum p 0 1 = 2) (hj : j = (pNum p 8 8 : Int) - s.time) : chrStepBody p id s =
    if s.needsForce p j then s.finish id csTimeJump 0
    else (if s.chrState = chrUnset then (s.stepCount j).toHoldover.seek else s.stepCount j).finish id csDone (ofSigned 64 j) := by
  subst hj
  rw [chrStepBody, hm]
  rfl

end

/-- Settles O34: a message by what its domain is to the block, a step by its mode and by whether it needs FORCE. -/
theorem chronometerCommands : Obligations.ChronometerCommands := by
  refine ⟨fun s x d => State.mem_domainsOf, fun s x offset ratio rank => ⟨rfl, rfl⟩,
    fun s x d offset ratio hd => ⟨_, s.noteSync d x offset ratio, rfl, rfl, fun hf hr => ?_, fun hf hr => ?_, fun hf hp => ?_, fun hf hp => ?_⟩,
    fun s x d rank hd => ⟨_, s.noteAnnounce d rank, rfl, rfl, fun h0 => ?_, fun h0 => ?_⟩,
    fun s port delay l => execPtpPdelay_usable, fun s d m => execAnnounceTimeout_ignored m,
    fun s d m hd hu => ⟨fun hm => ?_, fun hm => ?_⟩, fun s => execRevertTimer_reverts, fun s p hs => exec_starts rfl hs rfl,
    fun s t p hs ht => ⟨fun hm hd => ?_, fun d j u v hm hd hj hu hv => ⟨fun hr => ?_, fun hr => ?_⟩,
      fun j hm hj => ⟨fun hn => ?_, fun hn => ?_⟩, fun j hm hj => ⟨fun hn => ?_, fun hn hc => ?_, fun hn hc => ?_⟩⟩⟩
  · exact (execPtpSync_single hd).trans (by rw [State.takeSync_followed hf, if_neg (ne_true_of_eq_false hr)])
  · exact (execPtpSync_single hd).trans (by rw [State.takeSync_followed hf, if_pos hr])
  · exact (execPtpSync_single hd).trans (by rw [State.takeSync_other hf, if_pos hp])
  · exact (execPtpSync_single hd).trans (by rw [State.takeSync_other hf, if_neg hp])
  · exact (execPtpAnnounce_single hd).trans (by rw [State.takeAnnounce_eq, if_pos h0])
  · exact (execPtpAnnounce_single hd).trans (by rw [State.takeAnnounce_eq, if_neg h0])
  · exact (execAnnounceTimeout_tracked m hd hu).trans (by rw [if_neg (Nat.not_le.2 hm), Nat.min_eq_right hm.le])
  · exact (execAnnounceTimeout_tracked m hd hu).trans (by rw [if_pos hm, Nat.min_eq_left hm])
  all_goals subst ht
  · exact exec_retires rfl hs (chrStepBody_nothingPending _ hm hd)
  · exact exec_retires rfl hs ((chrStepBody_pending _ hm hd hj hu hv).trans (by rw [if_pos hr]))
  · exact exec_retires rfl hs ((chrStepBody_pending _ hm hd hj hu hv).trans (by rw [if_neg (ne_true_of_eq_false hr)]))
  · exact exec_retires rfl hs ((chrStepBody_step _ hm hj).trans (if_pos hn))
  · exact exec_retires rfl hs ((chrStepBody_step _ hm hj).trans (if_neg (ne_true_of_eq_false hn)))
  · exact exec_retires rfl hs ((chrStepBody_set _ hm hj).trans (if_pos hn))
  · exact exec_retires rfl hs ((chrStepBody_set _ hm hj).trans (by rw [if_neg (ne_true_of_eq_false hn), if_neg hc]))
  · exact exec_retires rfl hs ((chrStepBody_set _ hm hj).trans (by rw [if_neg (ne_true_of_eq_false hn), if_pos hc]))

end Sys2Proof.Machine

namespace Sys2Proof.Machine

/-! The security engine: OTP and the debug unlock (R450, R452, R463). -/

section
variable {s : State} {w : RegWrite}

theorem execSecOtpprog_reached (hr : s.secReach w.initiator false = true) (hg : s.gated .SEC = false) {r : Nat × Otp}
    (he : r = otpItem s.chip.otp (bitsOf w.value 31 28) (bitsOf w.value 27 26) s.otpHash) : execSecOtpprog w s = .next (
      if s.flag F.SEC_LIFECYCLE_STATE then s.putFld F.SEC_OTPRES_RESULT 3 else (s.setOtp r.2).putFld F.SEC_OTPRES_RESULT r.1).accessed := by
  subst he
  exact congrArg Host.Outcome.next (State.regWrite_allowed _ hr hg)

section
variable (hr : s.secReach w.initiator true = true) (hg : s.gated .SEC = false)
include hr hg

theorem execChallenge_reached : execChallenge w s =
    .next (if s.fld F.SEC_LIFECYCLE_DENIALS = 3 then s.dbgResult 4 else s.newNonce.dbgResult 0).accessed :=
  congrArg Host.Outcome.next (State.regWrite_allowed _ hr hg)

/-- R452: a response judged: signatures, nonce and identity, then the level. -/
def State.judgeResponse (s : State) : State :=
  if s.dbgSigned = false then s.dbgDeny 1
  else if s.dbgNum 10 32 ≠ s.nonce ∨ s.dbgNum 2 8 ≠ s.reg .GLK_UID then s.dbgDeny 2
  else if s.dbgByte 0 = 1 ∨ (s.dbgByte 0 = 2 ∧ (s.devState = devHeld ∨ s.devState = devSafe)) then
    s.dbgGrant (s.dbgByte 0) (s.dbgByte 1 % 64)
  else s.dbgDeny 3

theorem execRespond_reached : execRespond w s =
    .next (if s.fld F.SEC_LIFECYCLE_DENIALS = 3 then s.dbgResult 4 else s.judgeResponse).accessed :=
  congrArg Host.Outcome.next (State.regWrite_allowed _ hr hg)

theorem execRespond_judged (h : s.fld F.SEC_LIFECYCLE_DENIALS ≠ 3) {u : State} (hu : s.judgeResponse = u) :
    execRespond w s = .next u.accessed :=
  (execRespond_reached hr hg).trans (by rw [if_neg h, hu])

end

theorem State.judgeResponse_unsigned (hs : s.dbgSigned = false) : s.judgeResponse = s.dbgDeny 1 := if_pos hs

section
variable (hs : s.dbgSigned = true)
include hs

theorem State.judgeResponse_foreign (h : s.dbgNum 10 32 ≠ s.nonce ∨ s.dbgNum 2 8 ≠ s.reg .GLK_UID) : s.judgeResponse = s.dbgDeny 2 :=
  (if_neg (ne_false_of_eq_true hs)).trans (if_pos h)

variable (hn : s.dbgNum 10 32 = s.nonce) (hi : s.dbgNum 2 8 = s.reg .GLK_UID)
include hn hi

/-- R452: a response of this device's last challenge is granted APP always, and FULL in HELD and SAFE. -/
theorem State.judgeResponse_own : s.judgeResponse =
    if s.dbgByte 0 = 1 ∨ (s.dbgByte 0 = 2 ∧ (s.devState = devHeld ∨ s.devState = devSafe)) then
      s.dbgGrant (s.dbgByte 0) (s.dbgByte 1 % 64)
    else s.dbgDeny 3 :=
  (if_neg (ne_false_of_eq_true hs)).trans (if_neg (not_or.2 ⟨not_not.2 hn, not_not.2 hi⟩))

theorem State.judgeResponse_app (hl : s.dbgByte 0 = 1) : s.judgeResponse = s.dbgGrant 1 (s.dbgByte 1 % 64) := by
  rw [State.judgeResponse_own hs hn hi, if_pos (.inl hl), hl]

theorem State.judgeResponse_full (hl : s.dbgByte 0 = 2) (hd : s.devState = devHeld ∨ s.devState = devSafe) :
    s.judgeResponse = s.dbgGrant 2 (s.dbgByte 1 % 64) := by
  rw [State.judgeResponse_own hs hn hi, if_pos (.inr ⟨hl, hd⟩), hl]

theorem State.judgeResponse_level (h1 : s.dbgByte 0 ≠ 1) (h2 : s.dbgByte 0 = 2 → s.devState ≠ devHeld ∧ s.devState ≠ devSafe) :
    s.judgeResponse = s.dbgDeny 3 := by
  rw [State.judgeResponse_own hs hn hi, if_neg]
  rintro (h | ⟨hl, hd⟩)
  · exact h1 h
  · exact hd.elim (h2 hl).1 (h2 hl).2

end
end

/-- Settles O32: OTP by the lifecycle, a response by what `State.judgeResponse` finds; the packets' effects are the statement's own. -/
theorem securityCommands : Obligations.SecurityCommands := by
  refine ⟨fun s w hr hg => ⟨fun hl => ?_, fun hl => ⟨_, rfl, ?_⟩⟩, fun s p r hr hs => ?_, fun s p r hr hs => ?_,
    fun s w hr hg => ⟨fun hd => ⟨?_, ?_⟩, fun hd => ⟨?_, fun hs => ?_, fun hs => ⟨fun h => ?_, fun hn hi =>
      ⟨fun hl => ?_, fun hl h => ?_, fun hl hh hf => ?_, fun h1 h2 => ?_⟩⟩⟩,
      congrArg Host.Outcome.next (State.regWrite_allowed _ hr hg)⟩,
    fun s w => ⟨fun h => ⟨congrArg Host.Outcome.next (State.regWrite_refused _ (.inl h)),
      congrArg Host.Outcome.next (State.regWrite_refused _ (.inl h)), congrArg Host.Outcome.next (State.regWrite_refused _ (.inl h))⟩,
      fun h => congrArg Host.Outcome.next (State.regWrite_refused _ (.inl h))⟩⟩
  · exact (execSecOtpprog_reached hr hg rfl).trans (by rw [if_pos hl])
  · exact (execSecOtpprog_reached hr hg rfl).trans (by rw [if_neg (ne_true_of_eq_false hl)])
  · subst hr
    exact exec_starts rfl hs rfl
  · subst hr
    exact exec_starts rfl hs rfl
  · exact (execChallenge_reached hr hg).trans (by rw [if_pos hd])
  · exact (execRespond_reached hr hg).trans (by rw [if_pos hd])
  · exact (execChallenge_reached hr hg).trans (by rw [if_neg hd])
  · exact execRespond_judged hr hg hd (State.judgeResponse_unsigned hs)
  · exact execRespond_judged hr hg hd (State.judgeResponse_foreign hs h)
  · exact execRespond_judged hr hg hd (State.judgeResponse_app hs hn hi hl)
  · exact execRespond_judged hr hg hd (State.judgeResponse_full hs hn hi hl h)
  · exact execRespond_judged hr hg hd (State.judgeResponse_level hs hn hi (by omega) (fun _ => ⟨hh, hf⟩))
  · exact execRespond_judged hr hg hd (State.judgeResponse_level hs hn hi h1 (absurd · h2))

end Sys2Proof.Machine

namespace Sys2Proof.Machine

/-! The event log (R457 to R460). -/

section
variable {s : State}

theorem execLogWrite_held {e : LogEvent} (h : s.log.held = some e) :
    execLogWrite s = .next (({ s with log := { s.log with held := none } } : State).writeLog e) := by
  rw [execLogWrite, h]

section
variable (h : s.log.held = none)
include h

theorem execLogWrite_class {c : Nat} (hc : s.log.nextClass = some c) : execLogWrite s = .next (s.serve c) := by
  rw [execLogWrite, h, hc]

theorem execLogWrite_none (hc : s.log.nextClass = none) : execLogWrite s = .next s.catchUp := by
  rw [execLogWrite, h, hc]

end

section
variable {t : State} {r : List Byte} {rest : List (List Byte)} (hp : s.log.persist = r :: rest) (ht : t = s.keepErased s.persistSlot)
include hp ht

theorem execLogPersist_programmed {u : State} (hu : u = t.flashWrite (persistBase + 32 * s.persistSlot) (persistCopy r)) :
    execLogPersist true s = .next ((({ u with log := { u.log with persist := rest } } : State).putFld F.LOG_STATUS_PERSIST_PENDING
      rest.length).addReg .LOG_PERSIST 32 1) := by
  subst hu ht
  rw [execLogPersist, hp]
  rfl

theorem execLogPersist_failed {v : State} (hv : v = t.flashWrite (persistBase + 32 * s.persistSlot)
    ((List.range 32).map (fun j => Config.freeByte (t.free + j)))) : execLogPersist false s =
      .next ((({ v with free := t.free + 32 } : State).setFlag F.LOG_STATUS_PERSIST_FAIL).anyEvent 0x0F 2) := by
  subst hv ht
  rw [execLogPersist, hp]
  rfl

end

theorem execLogPersist_nothing (ok : Bool) (hp : s.log.persist = []) : execLogPersist ok s = .next s := by
  rw [execLogPersist, hp]

end

/-- Settles O33: LOG_WRITE by what waits, LOG_PERSIST by how flash answers, LOG_READ by what is selected. -/
theorem eventLogCommands : Obligations.EventLogCommands := by
  refine ⟨fun s e => execLogWrite_held, fun s h => ⟨fun c => execLogWrite_class h, execLogWrite_none h⟩,
    fun s t u v r rest hp ht hu hv => ⟨execLogPersist_programmed hp ht hu, execLogPersist_failed hp ht hv⟩,
    fun s hp => ⟨execLogPersist_nothing true hp, execLogPersist_nothing false hp⟩,
    fun s t p l hs ht hl => ⟨fun e m h => ?_, fun h => ?_⟩⟩
  · subst ht
    rw [h]
    exact exec_retires rfl hs (logReadBody_found _ (hl ▸ h))
  · subst ht
    exact exec_retires rfl hs (logReadBody_none _ (hl ▸ h))

end Sys2Proof.Machine

namespace Sys2Proof.Machine

/-! Ethernet ports: links and frames received (R407 to R410, R413, R416). -/

section
variable {s : State} {n : Nat}

theorem execEthLinkUp_kept (h : 9 ≤ n ∨ s.unitUsable fnEth n = false ∨ s.ethSpeed n = 0 ∨ s.mayDrive fnEth n = false) :
    execEthLinkUp n s = .next s := by
  refine congrArg Host.Outcome.next (if_neg fun ⟨hn, hu, hs, hd⟩ => ?_)
  obtain h | h | h | h := h
  · omega
  · exact ne_false_of_eq_true hu h
  · exact hs h
  · exact ne_false_of_eq_true hd h

section
variable {x : EthRx} (hp : x.port < 9) (hu : s.unitUsable fnEth x.port = true)
include hp hu

theorem State.ethRx_live : ¬(9 ≤ x.port ∨ s.unitUsable fnEth x.port = false) := not_or.2 ⟨Nat.not_le.2 hp, ne_false_of_eq_true hu⟩

theorem execEthRxFrame_bad (h : x.fcsOk = false ∨ x.data.length < 60 ∨ 9212 < x.data.length) :
    execEthRxFrame x s = .next (s.addFld F.ETH_CNT_FCS_ERR 1 x.port) :=
  congrArg Host.Outcome.next ((if_neg (State.ethRx_live hp hu)).trans (if_pos h))

variable (hf : x.fcsOk = true) (hmin : 60 ≤ x.data.length) (hmax : x.data.length ≤ 9212)
include hf hmin hmax

theorem execEthRxFrame_whole {u : State} (ht : u = (s.streamFiltered x).2.acceptUnit fnEth x.port) : execEthRxFrame x s = .next (
    if (s.streamFiltered x).1 then (s.streamFiltered x).2.addFld F.ETH_CNT_QCI_DROP 1 x.port
    else if s.consumed x then u
    else if s.rxRing x < 8 ∨ ringExists x.port (s.rxRing x) = false ∨ s.ringOn x.port (s.rxRing x) = false ∨
      s.ringAvail x.port (s.rxRing x) = 0 then u.rxDrop x.port else u.toRxRing x (s.rxRing x)) := by
  subst ht
  exact congrArg Host.Outcome.next ((if_neg (State.ethRx_live hp hu)).trans (if_neg (by
    rw [hf, ← not_le, ← not_le]
    simp [hmin, hmax])))

end

/-! Stream filters (R416). -/

section
variable {x : EthRx}

theorem State.streamFiltered_none (h : s.streamOf x = none) : s.streamFiltered x = (false, s) := by
  rw [State.streamFiltered, h]

section
variable {i : Nat} {f : Config.StreamFilter} (h : s.streamOf x = some (i, f))
include h

theorem State.streamFiltered_drops
    (hd : (∃ g, f.gate = some g ∧ s.streamOpen x.port (g % 64) = false) ∨ (f.maxSdu ≠ 0 ∧ f.maxSdu < sduBytes x.data)) :
    s.streamFiltered x = (true, s) := by
  rw [State.streamFiltered, h]
  refine if_pos (hd.imp_left fun ⟨g, hg, ho⟩ => ?_)
  rw [hg, Option.any_some, ho, Bool.not_false]

theorem State.streamFiltered_passes (hg : ∀ g, f.gate = some g → s.streamOpen x.port (g % 64) = true)
    (hm : f.maxSdu = 0 ∨ sduBytes x.data ≤ f.maxSdu) :
    s.streamFiltered x = f.meter.elim (false, s) (fun m => s.meter x.port (m % 64) x.data.length) := by
  rw [State.streamFiltered, h]
  refine (if_neg (not_or.2 ⟨fun ha => ?_, fun ⟨h0, hlt⟩ => hm.elim h0 (Nat.not_le.2 hlt)⟩)).trans (by cases f.meter <;> rfl)
  obtain ⟨g, hf, ho⟩ := (Option.any_eq_true _ _).1 ha
  simp [hg g hf] at ho

end
end
end

/-! Rings, gates and launches (R410 to R415, R431). -/

section
variable {s : State} {n : Nat}

theorem execEthRdb_taken {q : Nat} {w : RegWrite} {t : State} (hn : n < 9) (hq : q < 16) (hg : s.gated .ETH = false)
    (hp : initPart w.initiator = s.ringPart n q) (he : ringExists n q = true) (ho : s.ringOn n q = true) (hu : s.unitUsable fnEth n = true)
    (hs : (w.value % 2 ^ 32 + 2 ^ 32 - s.reg .ETH_RHEAD n q) % 2 ^ 32 ≤ s.ringSize n q)
    (ht : t = (s.setReg .ETH_RDB (w.value % 2 ^ 32) n q).acceptUnit fnEth n) : execEthRdb n q w s = .next (
      if q < 8 then t.takeSlots n q ((w.value % 2 ^ 32 + 2 ^ 32 - s.reg .ETH_RDB n q) % 2 ^ 32) (s.reg .ETH_RDB n q) else t).accessed := by
  subst ht
  refine congrArg Host.Outcome.next ((State.guardedWrite_allowed (not_or.2 ⟨Nat.not_le.2 hn, Nat.not_le.2 hq⟩) rfl hg).trans
    (congrArg State.accessed (if_pos ?_)))
  simp only [hp, he, ho, hu, hs, beq_self_eq_true, Bool.and_self, decide_true]

section
variable (hn : n < 8) (he : s.flag F.ETH_GCLCTL_EN n = true)
include hn he

theorem State.gates_run : ¬(8 ≤ n ∨ s.flag F.ETH_GCLCTL_EN n = false) := not_or.2 ⟨Nat.not_le.2 hn, ne_false_of_eq_true he⟩

theorem execGateInterval_admin {a : Nat} (ha : (s.ethPort n).adminAt = some a) (hd : a ≤ s.time) :
    execGateInterval n s = .next (s.takeAdmin n a) := by
  refine congrArg Host.Outcome.next ((if_neg (State.gates_run hn he)).trans ?_)
  rw [ha]
  exact if_pos hd

theorem execGateInterval_list (h : ∀ a, (s.ethPort n).adminAt = some a → s.time < a) : execGateInterval n s = .next (
    if (s.ethPort n).gates = [] ∨ s.time < (s.ethPort n).entryEnd then s else s.setEth n (s.ethPort n).nextEntry) := by
  refine congrArg Host.Outcome.next ((if_neg (State.gates_run hn he)).trans ?_)
  cases ha : (s.ethPort n).adminAt with
  | none => rfl
  | some a => exact if_neg (Nat.not_le.2 (h a ha))

end

section
variable {f : EthFrame}

theorem execEthLaunch_next (hn : n < 9) (hl : s.flag F.ETH_PSTAT_LINK n = true) (hf : s.nextFrame n = some f) :
    execEthLaunch n s = .next (if f.flight.isSome then s.onWire n f f.data else s.startRing n f) := by
  refine congrArg Host.Outcome.next ((if_neg (not_or.2 ⟨Nat.not_le.2 hn, ne_false_of_eq_true hl⟩)).trans ?_)
  rw [hf]

theorem execEthTxDone_sent {bs : List Byte} {stamp : Nat} {l : List (EthFrame × List Byte × Nat)} {t : State}
    (hs : (s.ethPort n).sending = (f, bs, stamp) :: l) (ht : t = (s.setEth n { s.ethPort n with sending := l }).send (.frame n bs)) :
    execEthTxDone n s = .next (f.flight.elim (t.slotStatus n f 0 (stamp % 2 ^ 32)) (fun id => t.complete id csDone stamp)) := by
  subst ht
  rw [execEthTxDone, hs]
  dsimp only
  cases f.flight <;> rfl

section
variable {c : Nat} (hf : (s.ethPort n).headOf c = some f)
include hf

theorem execEthLaunchLate_inTime (h : launchEn f = false ∨ s.reg .ETH_LTCFG n = 0xFFFFFFFF ∨ s.time ≤ f.launch + s.reg .ETH_LTCFG n) :
    execEthLaunchLate n c s = .next s := by
  rw [execEthLaunchLate, hf]
  refine congrArg Host.Outcome.next (if_neg fun hl => ?_)
  simp only [State.pastLate, Bool.and_eq_true, bne_iff_ne, ne_eq, decide_eq_true_iff] at hl
  obtain ⟨⟨he, hr⟩, ht⟩ := hl
  obtain h | h | h := h
  · exact ne_false_of_eq_true he h
  · exact hr h
  · omega

theorem execEthLaunchLate_dropped {t : State} (he : launchEn f = true) (hr : s.reg .ETH_LTCFG n ≠ 0xFFFFFFFF)
    (hl : f.launch + s.reg .ETH_LTCFG n < s.time) (ht : t = ((s.unqueue n f).addFld F.ETH_CNT_LATE 1 n).lateEvent n f.partition) :
    execEthLaunchLate n c s = .next (f.flight.elim (t.slotStatus n f 1 0) (fun id => t.complete id csState 0x0900)) := by
  subst ht
  rw [execEthLaunchLate, hf]
  refine congrArg Host.Outcome.next ((if_pos (by simp [State.pastLate, he, hr, hl])).trans ?_)
  cases f.flight <;> rfl

end
end
end

/-- Settles O35: a link, a frame received, a filter, a gate and a launch, each on the path that the port's state chooses. -/
theorem ethernetCommands : Obligations.EthernetCommands := by
  refine ⟨fun s n hn hu hs hd => congrArg Host.Outcome.next (if_pos ⟨hn, hu, hs, hd⟩),
    fun s n hn hl => congrArg Host.Outcome.next (if_pos ⟨hn, hl⟩), fun s n => execEthLinkUp_kept,
    fun s n hn he => congrArg Host.Outcome.next (if_pos ⟨hn, he⟩),
    fun s x hp hu => ⟨execEthRxFrame_bad hp hu, fun hf hmin hmax => ⟨fun hd => ?_, fun q u hd hq ht =>
      ⟨fun hc => ?_, fun hc h8 he ho ha => ?_, fun hc h => ?_⟩⟩⟩,
    fun s x => ⟨State.streamFiltered_none, fun i f h => ⟨State.streamFiltered_drops h, fun hg hm => ⟨fun hn => ?_, fun m hn => ?_⟩⟩⟩,
    fun s p hs => exec_starts rfl hs rfl,
    fun s n q w hn hq hg hp he ho hu hs => ⟨_, rfl, fun h => ?_, fun h => ?_⟩,
    fun s n hn he => ⟨fun a => execGateInterval_admin hn he, fun h => ⟨fun hg ht => ?_, fun hk => ?_⟩⟩,
    fun s n w hn hi hg hs => congrArg Host.Outcome.next (State.guardedParam_allowed (Nat.not_le.2 hn) hi rfl hg hs),
    fun s n f hn hl hf => ⟨fun h => ?_, fun h => ?_⟩,
    fun s n f bs stamp l hs => ⟨_, rfl, fun id h => ?_, fun h => ?_⟩,
    fun s n c f hf => ⟨_, rfl, execEthLaunchLate_inTime hf, fun he hr hl => ⟨fun id h => ?_, fun h => ?_⟩⟩⟩
  · exact (execEthRxFrame_whole hp hu hf hmin hmax rfl).trans (by rw [if_pos hd])
  · exact (execEthRxFrame_whole hp hu hf hmin hmax ht).trans (by rw [if_neg (ne_true_of_eq_false hd), if_pos hc])
  · subst hq
    exact (execEthRxFrame_whole hp hu hf hmin hmax ht).trans (by
      rw [if_neg (ne_true_of_eq_false hd), if_neg (ne_true_of_eq_false hc), if_neg (by simp [he, ho, ha, h8])])
  · subst hq
    exact (execEthRxFrame_whole hp hu hf hmin hmax ht).trans (by
      rw [if_neg (ne_true_of_eq_false hd), if_neg (ne_true_of_eq_false hc), if_pos h])
  · rw [State.streamFiltered_passes h hg hm, hn, Option.elim_none]
  · rw [State.streamFiltered_passes h hg hm, hn, Option.elim_some]
  · exact (execEthRdb_taken hn hq hg hp he ho hu hs rfl).trans (by rw [if_neg (Nat.not_lt.2 h)])
  · exact (execEthRdb_taken hn hq hg hp he ho hu hs rfl).trans (by rw [if_pos h])
  · exact (execGateInterval_list hn he h).trans (by rw [if_neg (not_or.2 ⟨hg, Nat.not_lt.2 ht⟩)])
  · exact (execGateInterval_list hn he h).trans (by rw [if_pos hk])
  · exact (execEthLaunch_next hn hl hf).trans (by rw [if_pos h])
  · exact (execEthLaunch_next hn hl hf).trans (by rw [if_neg (by simp [h])])
  · exact (execEthTxDone_sent hs rfl).trans (by rw [h, Option.elim_some])
  · exact (execEthTxDone_sent hs rfl).trans (by rw [h, Option.elim_none])
  · exact (execEthLaunchLate_dropped hf he hr hl rfl).trans (by rw [h, Option.elim_some])
  · exact (execEthLaunchLate_dropped hf he hr hl rfl).trans (by rw [h, Option.elim_none])

end Sys2Proof.Machine

namespace Sys2Proof.Machine

/-! CAN: frames received and sent (R418, R421 to R424, R431). -/

section
variable {s t : State} {c : Nat}

section
variable {x : CanRx}

theorem execCanRxFrame_ignored (h : s.canBus c = false ∨ s.canFormat c x.flags = false) : execCanRxFrame c x s = .next s :=
  congrArg Host.Outcome.next (if_pos h)

section
variable (hb : s.canBus c = true) (hf : s.canFormat c x.flags = true)
    (ht : t = (if s.flag F.CAN_CTL_ROP c then s.acceptUnit fnCan c else (s.acceptUnit fnCan c).canGot c).canFrameEnd c)
include hb hf ht

theorem execCanRxFrame_filtered {n a : Nat} (hx : s.canFilter c x = some (n, a)) :
    execCanRxFrame c x s = .next ((t.canDeliver c x a n).checkSeen c n) := by
  subst ht
  refine congrArg Host.Outcome.next ((if_neg (not_or.2 ⟨ne_false_of_eq_true hb, ne_false_of_eq_true hf⟩)).trans ?_)
  rw [hx]

theorem execCanRxFrame_unfiltered (hx : s.canFilter c x = none) :
    execCanRxFrame c x s = .next (t.canDeliver c x (s.fld F.CAN_CTL_NOMATCH c) 0xFFFF) := by
  subst ht
  refine congrArg Host.Outcome.next ((if_neg (not_or.2 ⟨ne_false_of_eq_true hb, ne_false_of_eq_true hf⟩)).trans ?_)
  rw [hx]

end
end

theorem State.canFormat_iff {flags : Nat} : s.canFormat c flags = true ↔ (flags.testBit 2 = true ∧ s.flag F.CAN_CTL_XL_EN c = true) ∨
    (flags.testBit 2 = false ∧ (flags.testBit 1 = false ∨ s.flag F.CAN_CTL_FD_EN c = true)) := by
  unfold State.canFormat
  cases flags.testBit 2 <;> simp

/-- R431: CAN_TX by how many of its elements find room. -/
theorem canTxBody_placed {p : Packet} {n k : Nat} (id : Nat) (hn : n = (s.canTxElems p).length)
    (hk : k = (placeElems p.target (s.canTxElems p) s).2) : canTxBody p id s = (placeElems p.target (s.canTxElems p) s).1.finish id
      (if k < n then csClamped else csDone) (k % 2 ^ 16 + 2 ^ 16 * ((n - k) % 2 ^ 16)) := by
  subst hn hk
  rfl

section
variable {e : Nat}

theorem execCanLaunch_kept (h : (s.canCtl c).waiting.contains e = false ∨ s.time < s.canLaunchTime c e) : execCanLaunch c e s = .next s :=
  congrArg Host.Outcome.next (if_neg (fun ⟨hw, ht⟩ => h.elim (ne_false_of_eq_true hw) (Nat.not_lt.2 ht)))

theorem execCanLaunch_due (hw : (s.canCtl c).waiting.contains e = true) (hl : s.canLaunchTime c e ≤ s.time)
    (ht : t = s.setCan c { s.canCtl c with waiting := (s.canCtl c).waiting.filter (· != e) }) :
    execCanLaunch c e s = .next (if t.canLate c e then t.canLateDrop c e else t.canStart c) := by
  subst ht
  exact congrArg Host.Outcome.next (if_pos ⟨hw, hl⟩)

theorem execCanTxDone_other (age : Nat) (h : s.canOwn c = false ∨ s.canWire c ≠ some e) : execCanTxDone c e age s = .next s :=
  congrArg Host.Outcome.next (if_neg (by simpa [imp_iff_not_or] using h))

end

/-! Arbitration (R424): the first of the pending elements in the order of ID and index. -/

section
variable {a b e : Nat}

theorem State.canBefore_iff : s.canBefore c a b = true ↔ s.canId c a < s.canId c b ∨ (s.canId c a = s.canId c b ∧ a < b) := by
  simp [State.canBefore]

theorem State.canBefore_irrefl : s.canBefore c a a = false := by
  rw [← Bool.not_eq_true, State.canBefore_iff]
  omega

theorem State.canBefore_asymm (h : s.canBefore c a b = true) : s.canBefore c b a = false := by
  rw [State.canBefore_iff] at h
  rw [← Bool.not_eq_true, State.canBefore_iff]
  omega

theorem State.canBefore_false_trans (h : s.canBefore c a b = false) (g : s.canBefore c b e = false) : s.canBefore c a e = false := by
  rw [← Bool.not_eq_true, State.canBefore_iff] at h g ⊢
  omega

/-- The earlier of an element and the first so far. -/
def State.canEarlier (s : State) (c : Nat) : Option Nat → Nat → Option Nat
  | none, e => some e
  | some b, e => if s.canBefore c e b then some e else some b

theorem State.canEarlier_first {m : Option Nat} (h : s.canEarlier c m a = some b) :
    (m = some b ∨ a = b) ∧ s.canBefore c a b = false ∧ ∀ d, m = some d → s.canBefore c d b = false := by
  cases m with
  | none =>
    obtain rfl : a = b := Option.some.inj h
    exact ⟨.inr rfl, State.canBefore_irrefl, nofun⟩
  | some d =>
    rw [State.canEarlier] at h
    split at h
    · next hb =>
      obtain rfl : a = b := Option.some.inj h
      exact ⟨.inr rfl, State.canBefore_irrefl, fun d' hd => Option.some.inj hd ▸ State.canBefore_asymm hb⟩
    · next hb =>
      obtain rfl : d = b := Option.some.inj h
      exact ⟨.inl rfl, eq_false_of_ne_true hb, fun d' hd => Option.some.inj hd ▸ State.canBefore_irrefl⟩

/-- The fold's answer is among what it went through, and nothing of it goes before the answer. -/
theorem State.foldl_canEarlier : ∀ {l : List Nat} {m : Option Nat}, l.foldl (s.canEarlier c) m = some e →
    (m = some e ∨ e ∈ l) ∧ (∀ d, m = some d → s.canBefore c d e = false) ∧ ∀ d ∈ l, s.canBefore c d e = false
  | [], m, h => ⟨.inl h, fun d hd => Option.some.inj (hd.symm.trans h) ▸ State.canBefore_irrefl, nofun⟩
  | a :: l, m, h => by
    obtain ⟨hmem, hfirst, hrest⟩ := State.foldl_canEarlier (l := l) (m := s.canEarlier c m a) h
    obtain ⟨b, hb⟩ : ∃ b, s.canEarlier c m a = some b := by
      cases m with
      | none => exact ⟨a, rfl⟩
      | some d =>
        rw [State.canEarlier]
        split
        · exact ⟨a, rfl⟩
        · exact ⟨d, rfl⟩
    obtain ⟨hsrc, hab, hmb⟩ := State.canEarlier_first hb
    have hbe := hfirst b hb
    refine ⟨?_, fun d hd => State.canBefore_false_trans (hmb d hd) hbe,
      List.forall_mem_cons.2 ⟨State.canBefore_false_trans hab hbe, hrest⟩⟩
    obtain h | h := hmem
    · obtain rfl : b = e := Option.some.inj (hb.symm.trans h)
      exact hsrc.imp_right (by rintro rfl; exact List.mem_cons_self)
    · exact .inr (List.mem_cons_of_mem _ h)

theorem State.canFirst_eq : s.canFirst c =
    ((List.range 32).filter (fun e => s.canPending c e && s.inWindow c e)).foldl (s.canEarlier c) none := by
  unfold State.canFirst
  congr 1
  funext m e
  cases m <;> rfl

/-- R424, R428: the element that starts is pending in its window, and no such element goes before it. -/
theorem State.canFirst_some (h : s.canFirst c = some e) : s.canPending c e = true ∧ s.inWindow c e = true ∧
    ∀ d < 32, s.canPending c d = true → s.inWindow c d = true → s.canBefore c d e = false := by
  rw [State.canFirst_eq] at h
  obtain ⟨hmem, -, hall⟩ := State.foldl_canEarlier h
  simp only [List.mem_filter, List.mem_range, Bool.and_eq_true] at hmem hall
  obtain ⟨-, hp, hw⟩ := hmem.resolve_left nofun
  exact ⟨hp, hw, fun d hd hpd hwd => hall d ⟨hd, hpd, hwd⟩⟩

end

/-! Errors and recovery (R424 to R426). -/

section
variable {code : Nat} {kind : CanErrKind}

theorem execCanBusError_ignored (role : CanRole) (h : s.canBus c = false) : execCanBusError c role code kind s = .next s :=
  congrArg Host.Outcome.next (if_pos h)

variable (hb : s.canBus c = true)
include hb

theorem execCanBusError_restricted (role : CanRole) (hr : s.flag F.CAN_CTL_ROP c = true) : execCanBusError c role code kind s =
    .next (if code = 0 then s else s.addFld F.CAN_ECNT_SILENT_DROP 1 c) :=
  congrArg Host.Outcome.next ((if_neg (ne_false_of_eq_true hb)).trans (if_pos hr))

variable (hr : s.flag F.CAN_CTL_ROP c = false)
include hr

theorem execCanBusError_receiver : execCanBusError c .receiver code kind s =
    .next ((if code = 0 then s else s.canCount c false (code % 8) kind).canFrameEnd c) := 
  congrArg Host.Outcome.next ((if_neg (ne_false_of_eq_true hb)).trans (if_neg (ne_true_of_eq_false hr)))

theorem execCanBusError_reference : execCanBusError c .reference code kind s =
    .next (if code = 0 then s else (s.canCount c true (code % 8) kind).refFailed c) := by
  refine congrArg Host.Outcome.next ((if_neg (ne_false_of_eq_true hb)).trans ((if_neg (ne_true_of_eq_false hr)).trans ?_))
  by_cases h : code = 0
  · simp only [if_pos h]
  · simp only [if_neg h]
    rfl

theorem execCanBusError_element {e : Nat} {u : State} (ho : s.canOwn c = true) (hw : s.canWire c = some e)
    (hu : u = (if code = 0 then s else s.canCount c true (code % 8) kind).canRetry c e) : execCanBusError c (.element e) code kind s =
      .next (if code = 0 then u.setCan c { u.canCtl c with onBus := none } else u.canFrameEnd c) := by
  subst hu
  refine congrArg Host.Outcome.next ((if_neg (ne_false_of_eq_true hb)).trans ((if_neg (ne_true_of_eq_false hr)).trans ?_))
  have hx : (s.canOwn c && s.canWire c == some e) = true := by simp [ho, hw]
  simp only [if_pos hx]
  rfl

end

theorem State.fld_ite {p : Prop} [Decidable p] {u : State} {f : Fld} {i j n : Nat} (ht : t.fld f i j = n) (hu : u.fld f i j = n) :
    (if p then t else u).fld f i j = n := by
  split <;> assumption

theorem State.event_tec {k l x p : Nat} : (s.event k l x p).fld F.CAN_ERR_TEC c = s.fld F.CAN_ERR_TEC c :=
  State.fld_congr (State.word_event_ne _ _ _ (by decide) (by decide))

theorem State.setCan_tec {d : Nat} {x : CanCtl} : (s.setCan d x).fld F.CAN_ERR_TEC c = s.fld F.CAN_ERR_TEC c := rfl

/-- R425: a change of the error state leaves the transmit error counter. -/
theorem State.canState_tec (off : Bool) : (s.canState c off).fld F.CAN_ERR_TEC c = s.fld F.CAN_ERR_TEC c := by
  have hp : ∀ n, (s.putFld F.CAN_ERR_ESTATE n c).fld F.CAN_ERR_TEC c = s.fld F.CAN_ERR_TEC c := fun _ =>
    State.fld_putFld_beside c 0 rfl (.inr (by decide))
  unfold State.canState
  exact State.fld_ite (State.event_tec.trans (State.setCan_tec.trans (State.fld_ite (State.event_tec.trans (hp _)) (hp _))))
    (State.fld_ite (State.event_tec.trans (hp _)) (hp _))

theorem State.canCount_tec {code : Nat} {kind : CanErrKind} (h : s.regsWf) (hn : s.fld F.CAN_ERR_TEC c + s.txErrors c code kind ≤ 255) :
    (s.canCount c true code kind).fld F.CAN_ERR_TEC c = s.fld F.CAN_ERR_TEC c + s.txErrors c code kind := by
  have ht : ((s.addFld F.CAN_ECNT_ERR_FRAMES 1 c).putFld F.CAN_ERR_LEC code c).regsWf := State.putFld_regsWf (State.putFld_regsWf h)
  unfold State.canCount
  dsimp only
  rw [if_pos rfl, State.canState_tec, State.fld_putFld_same _ _ _ _ ht (by decide) (by decide), Nat.min_eq_right hn]
  exact Nat.mod_eq_of_lt (Nat.lt_of_le_of_lt hn (by decide))

end

/-- Settles O36: a frame, a launch and an error by what the controller shows; the element that starts is the fold's first. -/
theorem canFrames : Obligations.CanFrames := by
  refine ⟨fun s c x hb hf => ⟨_, rfl, fun n a => execCanRxFrame_filtered hb hf rfl, execCanRxFrame_unfiltered hb hf rfl⟩,
    fun s c x role code kind => ⟨execCanRxFrame_ignored, execCanBusError_ignored role⟩, fun s c flags => State.canFormat_iff,
    fun s t p n k hs ht hn hk => ⟨fun h => ?_, fun h => ?_⟩,
    fun s c w hc hi hg => ⟨congrArg Host.Outcome.next (State.guardedWrite_allowed (Nat.not_le.2 hc) hi hg),
      congrArg Host.Outcome.next (State.guardedWrite_allowed (Nat.not_le.2 hc) hi hg)⟩,
    fun s c e => ⟨_, rfl, execCanLaunch_kept, fun hw hl => ⟨fun h => ?_, fun h => ?_⟩⟩, fun s c e => State.canFirst_some,
    fun s c e age => ⟨execCanTxDone_other age, fun ho hw => ⟨_, _, rfl, rfl, congrArg Host.Outcome.next (if_pos (by simp [ho, hw]))⟩⟩,
    fun s c role code kind hb => ⟨fun hr h => ?_, fun hr h => ?_, fun hr h => ⟨?_, ?_, fun e ho hw => ?_⟩,
      fun hr => ⟨?_, ?_, fun e u ho hw hu => ?_⟩⟩,
    fun s c code kind h _ hn => State.canCount_tec h hn,
    fun s c => ⟨fun he hr => ⟨_, rfl, congrArg Host.Outcome.next (if_pos ⟨he, hr⟩)⟩,
      fun h => congrArg Host.Outcome.next (if_neg (fun ⟨he, hr⟩ => h.elim (· he) (ne_false_of_eq_true hr)))⟩,
    fun s c w hc hi hg hs => congrArg Host.Outcome.next (State.guardedParam_allowed (Nat.not_le.2 hc) hi rfl hg hs),
    fun s t p c fifo n hs ht hc hf hn => ?_⟩
  · subst ht
    exact exec_retires rfl hs ((canTxBody_placed _ hn hk).trans (by rw [if_pos h]))
  · subst ht
    exact exec_retires rfl hs ((canTxBody_placed _ hn hk).trans (by rw [if_neg (Nat.not_lt.2 h)]))
  · exact (execCanLaunch_due hw hl rfl).trans (by rw [if_pos h])
  · exact (execCanLaunch_due hw hl rfl).trans (by rw [if_neg (ne_true_of_eq_false h)])
  · exact (execCanBusError_restricted hb role hr).trans (by rw [if_neg h])
  · exact (execCanBusError_restricted hb role hr).trans (by rw [if_pos h])
  · exact (execCanBusError_receiver hb hr).trans (by rw [if_neg h])
  · exact (execCanBusError_reference hb hr).trans (by rw [if_neg h])
  · exact (execCanBusError_element hb hr ho hw rfl).trans (by rw [if_neg h, if_neg h])
  · exact (execCanBusError_receiver hb hr).trans (by rw [if_pos rfl])
  · exact (execCanBusError_reference hb hr).trans (by rw [if_pos rfl])
  · exact (execCanBusError_element hb hr ho hw rfl).trans (by rw [hu, if_pos rfl, if_pos rfl])
  · subst ht hc hf hn
    exact exec_retires rfl hs rfl

end Sys2Proof.Machine

namespace Sys2Proof.Machine

/-! Basic cycles of a time-triggered controller (R428 to R430). -/

section
variable {s t : State} {c : Nat}

theorem State.setCan_synced {x : CanCtl} (h : x.synced = (s.canCtl c).synced) : ((s.setCan c x).canCtl c).synced = (s.canCtl c).synced := by
  unfold State.setCan State.canCtl
  rw [List.getD_eq_getElem?_getD, List.getElem?_set_self']
  cases hc : s.can[c]? with
  | none => simp [hc]
  | some y => simpa [State.canCtl, hc] using h

/-- R430: what a scheduling error leaves: the cycle shown, the parameters and the controller's own state. -/
theorem State.ttError_cycle (n : Nat) : (s.ttError c n).fld F.CAN_TTSTAT_CYCLE c = s.fld F.CAN_TTSTAT_CYCLE c :=
  (State.fld_congr (State.word_event_ne _ _ _ (by decide) (by decide))).trans (State.fld_putFld_beside c 0 rfl (.inr (by decide)))

theorem State.ttError_word {n i j : Nat} {r : Reg} (h0 : r ≠ .CAN_TTSTAT) (h1 : r ≠ .LOG_DROP) (h2 : r ≠ .LOG_STATUS) :
    (s.ttError c n).word r i j = s.word r i j :=
  (State.word_event_ne r i j h1 h2).trans (State.word_putFld_ne r i j h0)

theorem State.ttError_canCtl (n : Nat) : (s.ttError c n).canCtl c = s.canCtl c :=
  congrArg (fun l : List CanCtl => l.getD c {}) (State.event_can ..)

theorem State.nextCycle_congr (hs : (t.canCtl c).synced = (s.canCtl c).synced) (hc : t.fld F.CAN_TTSTAT_CYCLE c = s.fld F.CAN_TTSTAT_CYCLE c)
    (hm : t.fld F.CAN_TTCFG_CYCLE_MAX c = s.fld F.CAN_TTCFG_CYCLE_MAX c) : t.nextCycle c = s.nextCycle c := by
  unfold State.nextCycle State.ttCycles
  rw [hs, hc, hm]

/-- R428: the end of a window does not move the schedule. -/
theorem State.closeWindow_nextCycle : (s.closeWindow c).nextCycle c = s.nextCycle c := by
  unfold State.closeWindow
  dsimp only
  split
  · exact State.nextCycle_congr (by rw [State.ttError_canCtl]; exact State.setCan_synced rfl) (State.ttError_cycle _)
      (State.fld_congr (State.ttError_word (by decide) (by decide) (by decide)))
  · exact State.nextCycle_congr (State.setCan_synced rfl) rfl rfl

/-- A controller that is live and time-triggered. -/
theorem State.tt_runs (hl : s.canLive c = true) (ht : s.flag F.CAN_CTL_TT c = true) : (s.canLive c && s.flag F.CAN_CTL_TT c) = true := by
  rw [hl, ht, Bool.and_self]

theorem State.tt_idle (h : s.canLive c = false ∨ s.flag F.CAN_CTL_TT c = false) : ¬((s.canLive c && s.flag F.CAN_CTL_TT c) = true) := by
  simpa [imp_iff_not_or] using h

section
variable (hl : s.canLive c = true) (ht : s.flag F.CAN_CTL_TT c = true)
include hl ht

theorem execCanTtColumn_cell {j w : Nat} (hj : j < 32) (hw : w = s.reg .CAN_TTCELL c (32 * s.fld F.CAN_TTSTAT_CYCLE c + j)) :
    execCanTtColumn c j s = .next (if cellType w = cellMerged then s else (s.closeWindow c).openWindow c w) := by
  subst hw
  exact congrArg Host.Outcome.next (if_pos (by simp [hl, ht, hj]))

theorem execCanTtRefTimeout_error {u : State} (hu : u = s.ttError c 2) : execCanTtRefTimeout c s = .next (if s.refRequest c then
    (u.setCan c { u.canCtl c with refReq := true }).send (.canReference c (s.fld F.CAN_TTCFG_REF_ID c) (s.nextCycle c)) else u) := by
  subst hu
  exact congrArg Host.Outcome.next (if_pos (State.tt_runs hl ht))

end
end

/-- Settles O37: a cycle start, a mark and a missing reference message, each on the path that the controller's state chooses. -/
theorem canTimeTriggered : Obligations.CanTimeTriggered := by
  refine ⟨fun s c refId cycle n won hl ht hw hn => ?_, fun s c j w hl ht hj hw => ⟨fun h => ?_, fun h => ?_⟩,
    fun s t c hl ht hu => ⟨fun hr ha => ?_, fun h => ?_⟩, fun s c refId cycle j h => ⟨?_, ?_, ?_⟩⟩
  · rw [State.closeWindow_nextCycle] at hn
    subst hn hw
    exact ⟨_, _, _, rfl, rfl, rfl, congrArg Host.Outcome.next (if_pos (State.tt_runs hl ht))⟩
  · exact (execCanTtColumn_cell hl ht hj hw).trans (by rw [if_pos h])
  · exact (execCanTtColumn_cell hl ht hj hw).trans (by rw [if_neg h])
  · exact (execCanTtRefTimeout_error hl ht hu).trans (by rw [if_pos (by simp [State.refRequest, hr, ha])])
  · exact (execCanTtRefTimeout_error hl ht hu).trans (by rw [if_neg (by simpa [State.refRequest, imp_iff_not_or] using h)])
  · exact congrArg Host.Outcome.next (if_neg (State.tt_idle h))
  · exact congrArg Host.Outcome.next (if_neg (fun hx => State.tt_idle h (Bool.and_eq_true_iff.1 hx).1))
  · exact congrArg Host.Outcome.next (if_neg (State.tt_idle h))

end Sys2Proof.Machine
